-- ==== Sys2Proof/Word.lean ====
section
/-! DEFINITION. The plain number types of the SX-KW30 model (R2: bits are numbered from 0, values are little-endian). -/
namespace Sys2Proof

/-- One byte of a frame, a flit or memory. -/
abbrev Byte := BitVec 8
/-- One 32-bit register word, lane value or FP32 bit pattern. -/
abbrev Word := BitVec 32
/-- One 64-bit value (a scalar register of R176, a register pair of R469). -/
abbrev DWord := BitVec 64

end Sys2Proof
end

