-- ==== Sys2Proof/Syntax.lean ====
section
/-! DEFINITION. The commands of the SX-KW30: one constructor of `Instr` for each row of the table of operations and events.
The operands of a command are what comes from outside the module (the bytes of a frame or flit, converter deviations, sensor
readings, the fields of an issued instruction) or the unit that the event concerns. -/
namespace Sys2Proof

/-- A requester of the register space (R464). -/
inductive Requester
  | steward (hub core : Fin 4)
  | debug
  | host
  deriving DecidableEq, Repr

/-- A thread group: hub, digital core of the hub, group of the core (R176). -/
structure GroupRef where
  hub : Fin 4
  core : Fin 192
  group : Fin 64
  deriving DecidableEq, Repr

/-- The predicate and type fields common to all instruction formats (R190). -/
structure Common where
  pr : Fin 8 := 0
  pn : Bool := false
  ty : Fin 16 := 0
  deriving DecidableEq, Repr

/-- Format V (R191). -/
structure VFmt extends Common where
  d : Fin 32 := 0
  a : Fin 32 := 0
  b : Fin 32 := 0
  c : Fin 32 := 0
  dsc : Bool := false
  asc : Bool := false
  bsc : Bool := false
  csc : Bool := false
  pd : Fin 8 := 1
  deriving DecidableEq, Repr

/-- Format I (R191). -/
structure IFmt extends Common where
  d : Fin 32 := 0
  a : Fin 32 := 0
  dsc : Bool := false
  asc : Bool := false
  imm : Word := 0
  deriving DecidableEq, Repr

/-- Format S (R191). -/
structure SFmt extends Common where
  d : Fin 32 := 0
  a : Fin 32 := 0
  asc : Bool := false
  size : Fin 4 := 2
  sext : Bool := false
  off : Word := 0
  deriving DecidableEq, Repr

/-- Format M (R191). -/
structure MFmt extends Common where
  sa : Fin 16 := 0
  sm : Fin 16 := 0
  sl : Fin 16 := 0
  tok : Fin 16 := 0
  plan : Fin 256 := 0
  sx : Fin 16 := 0
  deriving DecidableEq, Repr

/-- Format T (R191). -/
structure TFmt extends Common where
  at_ : Fin 32 := 0
  sa : Fin 16 := 0
  sb : Fin 16 := 0
  ssa : Fin 16 := 0
  ssb : Fin 16 := 0
  usa : Bool := false
  usb : Bool := false
  clr : Bool := false
  deriving DecidableEq, Repr

/-- Format B (R191). -/
structure BFmt extends Common where
  mode : Fin 4 := 0
  sc : Fin 32 := 0
  tgt : Word := 0
  deriving DecidableEq, Repr

/-- Format X (R191). -/
structure XFmt extends Common where
  s1 : Fin 16 := 0
  s2 : Fin 16 := 0
  s3 : Fin 16 := 0
  tok : Fin 16 := 0
  imm : Word := 0
  deriving DecidableEq, Repr

/-- The unit in which a parity check failed (R312, R328): UNIT, INSTANCE and LOCATION of the report. -/
structure Origin where
  unit : Nat
  inst : Nat
  loc : Nat
  deriving DecidableEq, Repr

/-- The transport of an SPDM message (R427): MCTP, or the mailbox of a partition (R437). -/
inductive SpdmVia
  | mctp
  | mailbox (part : Fin 12)
  deriving DecidableEq, Repr

/-- A fault that a self-test found (R455): part of the test, unit, pattern pass, and the words of its log record. -/
structure TestFault where
  part : Nat
  unit : Nat
  pass : Nat
  loc : Nat
  detail : Nat
  deriving DecidableEq, Repr

/-- SETDASA: the static address that it names, and the dynamic address that it assigns (R441). -/
structure DasaPair where
  static_ : Fin 128
  addr : Fin 128
  deriving DecidableEq, Repr

/-- What a requester stores: a value of 1, 2, 4 or 8 bytes (R463). A register takes 4. -/
structure StoreData where
  val : Nat
  size : Nat := 4
  deriving DecidableEq, Repr

/-- An access to a register page (R464): a read of a word, or the store of a value. -/
structure RegAccess where
  who : Requester
  addr : Nat
  store : Option StoreData := none
  deriving DecidableEq, Repr

/-- A flit that arrives on a port (R384). -/
structure PortFlit where
  port : Fin 16
  flit : List Byte
  deriving DecidableEq, Repr

/-- What else reaches the page of a write in the same hc (R465, R468, R476): the event flags that their causes set, the counters, by the
offset of their word, that count and how often, and the accesses of other requesters. -/
structure SameHc where
  flags : Word := 0
  counts : List (Nat × Nat) := []
  others : List RegAccess := []
  deriving DecidableEq, Repr

/-- What a Read fetches (R159, R321): the manifest or a shard of a load, or a shard that a cover or a repair wants, numbered as
`State.repairBlocks` says. -/
inductive FetchOf
  | manifest
  | shard (i : Nat)
  | fetch (key : Nat)
  deriving DecidableEq, Repr

/-- A Read that failed (R161): its number among those of what it fetches, and whether it returned an error or got no completion. -/
structure ReadRef where
  what : FetchOf
  index : Nat
  error : Bool := false
  deriving DecidableEq, Repr

/-- The commands of the module. -/
inductive Instr
  /-- REQUEST (R241): A REQUEST frame from the host is checked and either admitted with a new hamper or refused with a FINAL frame. -/
  | request (payload : List Byte)
  /-- CANCEL (R261): A CANCEL frame ends a LIVE request at once or marks a BATCH request, and is answered with a CANCEL_RESULT. -/
  | cancel (payload : List Byte)
  /-- REG_READ (R406): A host REG_READ frame reads 1 to 16 register words and is answered with a REG_COMPLETION. -/
  | regReadFrame (payload : List Byte)
  /-- REG_WRITE (R406): A posted host REG_WRITE frame writes one register word, subject to R407. -/
  | regWriteFrame (payload : List Byte)
  /-- LINK_OFFER (R404): A LINK frame with STATE OFFER carries the peer's versions, formats and credits, and is answered with CONFIRM. -/
  | linkOffer (payload : List Byte)
  /-- LINK_CONFIRM (R404): A LINK frame with STATE CONFIRM completes negotiation, so the link comes up or a retrain resumes. -/
  | linkConfirm (payload : List Byte)
  /-- ADTIK_FLIT (R399): An Adtik flit received is checked by CRC and order; FACK frees the replay buffer, and its credits and data are taken in. -/
  | adtikFlit (flit : List Byte)
  /-- FORM_STEP (R249): After a commit point, or on first admission into an idle partition, serving control forms the next step from candidate requests. -/
  | formStep (part : Fin 12)
  /-- SAMPLING (R253): When the step program is done, serving control adjusts, ranks and draws tokens for every SAMPLE entry. -/
  | sampling (part : Fin 12)
  /-- COMMIT_CUT (R259): Sampling and tree copies finish, which fixes the commit cut's device time. -/
  | commitCut (part : Fin 12) (hc : Nat)
  /-- COMMIT_RESOLUTION (R260): After the frames accepted before the cut are processed, each entry is resolved in order and deadlines are resolved. -/
  | commitResolution (part : Fin 12)
  /-- STEP_BOUNDARY (R25): At the end of a commit point, the configuration changes pending for the partition take effect. -/
  | stepBoundary (part : Fin 12)
  /-- CALIBRATION_WINDOW (R350): After resolution, a window of up to WIN µs runs recalibration pieces for queued tiles. -/
  | calibrationWindow (part : Fin 12) (hub : Fin 4) (us : Nat)
  /-- DEADLINE_CHECK (R263): Every 1 ms while no step runs, the live requests whose deadline has passed end with DEADLINE. -/
  | deadlineCheck (part : Fin 12)
  /-- EVALUATION_ARM (R48): An evaluation gets a place under the cap and a lane, arms, and runs its phase windows. -/
  | evaluationArm (stack : Fin 12)
  /-- TIER_REBIAS (R29): An array re-biases its selectors to a new tier for 96 hc after the column reset. -/
  | tierRebias (stack : Fin 12)
  /-- SAMPLE_AND_HOLD (R53): The end-of-pulse or timer trigger fires and all columns of the array sample onto a hold capacitor. -/
  | sampleAndHold (stack : Fin 12) (array : Nat)
  /-- CONVERSION_ROUND_END (R127): A conversion round completes and its codes are accepted into the short slot, checked and judged. -/
  | conversionRoundEnd (stack : Fin 12) (array : Nat) (devs : List Int)
  /-- PRIORITY_READ (R55): A scheduled priority read stops the running slot and converts the named reference or checksum column. -/
  | priorityRead (stack : Fin 12) (array : Nat) (column : Nat) (slot : Fin 8) (ran : Fin 28)
  /-- RANGE_PASS (R103): After LAST, a range-pass evaluation is fired for each array whose row block holds a saturated block. -/
  | rangePass (stack : Fin 12)
  /-- READOUT (R135): A READY pair is read out to the collecting hub as exact V_c values with flags. -/
  | readout (stack : Fin 12) (tile : Nat) (slot : Fin 16)
  /-- COLUMN_RESULT (R117): Once all chains of a column are in, the epilogue combines them with the correction terms and writes the output. -/
  | columnResult (part : Fin 12) (chain : Nat) (row : Nat)
  /-- DRIFT_FIT (R110): During the following step, the DCP fits new drift factors from the statistics and writes the inactive records. -/
  | driftFit (hub : Fin 4)
  /-- ESC_INVOCATION (R208): A free ESC group takes the oldest queued rung-3 invocation and starts at its ENTRY. -/
  | escInvocation (hub : Fin 4)
  /-- WINDOW_WRITE (R137): A write to the accumulator window is applied when the slot state allows it, or refused or dropped. -/
  | windowWrite (hub : Fin 4) (part : Fin 12) (addr : Nat) (data : List Byte)
  /-- TOPK_MERGE (R147): The home hub merges the partial lists of a top-k call and writes its result. -/
  | topkMerge (hub : Fin 4)
  /-- IADD (R192): Integer add. -/
  | coreIadd (g : GroupRef) (f : VFmt)
  /-- ISUB (R192): Integer subtract. -/
  | coreIsub (g : GroupRef) (f : VFmt)
  /-- IMUL (R192): Integer multiply. -/
  | coreImul (g : GroupRef) (f : VFmt)
  /-- IMAD (R192): Integer multiply-add A × B + C. -/
  | coreImad (g : GroupRef) (f : VFmt)
  /-- AND (R192): Bitwise AND. -/
  | coreAnd (g : GroupRef) (f : VFmt)
  /-- OR (R192): Bitwise OR. -/
  | coreOr (g : GroupRef) (f : VFmt)
  /-- XOR (R192): Bitwise XOR. -/
  | coreXor (g : GroupRef) (f : VFmt)
  /-- SHL (R194): Shift left by B mod the width. -/
  | coreShl (g : GroupRef) (f : VFmt)
  /-- SHR (R194): Logical shift right. -/
  | coreShr (g : GroupRef) (f : VFmt)
  /-- SAR (R194): Arithmetic shift right. -/
  | coreSar (g : GroupRef) (f : VFmt)
  /-- IMIN (R192): Integer minimum. -/
  | coreImin (g : GroupRef) (f : VFmt)
  /-- IMAX (R192): Integer maximum. -/
  | coreImax (g : GroupRef) (f : VFmt)
  /-- ICMP (R192): Integer compare into a predicate. -/
  | coreIcmp (g : GroupRef) (f : VFmt)
  /-- SEL (R192): Select A or B by predicate C. -/
  | coreSel (g : GroupRef) (f : VFmt)
  /-- MOV (R192): Register move. -/
  | coreMov (g : GroupRef) (f : VFmt)
  /-- MOVI (R192): Load an immediate. -/
  | coreMovi (g : GroupRef) (f : IFmt)
  /-- IADDI (R192): Add an immediate. -/
  | coreIaddi (g : GroupRef) (f : IFmt)
  /-- LANEID (R192): Write the lane number. -/
  | coreLaneid (g : GroupRef) (f : VFmt)
  /-- SHFL (R192): Take A from lane B mod 32. -/
  | coreShfl (g : GroupRef) (f : VFmt)
  /-- FADD (R194): Floating-point add. -/
  | coreFadd (g : GroupRef) (f : VFmt)
  /-- FMUL (R194): Floating-point multiply. -/
  | coreFmul (g : GroupRef) (f : VFmt)
  /-- FFMA (R194): Fused multiply-add with one rounding. -/
  | coreFfma (g : GroupRef) (f : VFmt)
  /-- FMIN (R192): Floating-point minimum. -/
  | coreFmin (g : GroupRef) (f : VFmt)
  /-- FMAX (R192): Floating-point maximum. -/
  | coreFmax (g : GroupRef) (f : VFmt)
  /-- FCMP (R192): Floating-point compare into a predicate. -/
  | coreFcmp (g : GroupRef) (f : VFmt)
  /-- FCVT (R192): Unscaled element format conversion. -/
  | coreFcvt (g : GroupRef) (f : VFmt)
  /-- FEX2 (R194): Correctly rounded 2^A. -/
  | coreFex2 (g : GroupRef) (f : VFmt)
  /-- FLG2 (R194): Correctly rounded log₂ A. -/
  | coreFlg2 (g : GroupRef) (f : VFmt)
  /-- FRCP (R194): Correctly rounded 1/A. -/
  | coreFrcp (g : GroupRef) (f : VFmt)
  /-- FRSQ (R194): Correctly rounded 1/√A. -/
  | coreFrsq (g : GroupRef) (f : VFmt)
  /-- FRED (R196): Fixed-tree sum over the active lanes. -/
  | coreFred (g : GroupRef) (f : VFmt)
  /-- FRMAX (R196): Fixed-tree maximum over the active lanes. -/
  | coreFrmax (g : GroupRef) (f : VFmt)
  /-- QBLK (R192): Quantize 32 lanes to a block format with an SB8 scale. -/
  | coreQblk (g : GroupRef) (f : VFmt)
  /-- QARR (R192): Quantize 32 lanes to an array input mode under R75. -/
  | coreQarr (g : GroupRef) (f : VFmt)
  /-- LDS (R181): Scratch load. -/
  | coreLds (g : GroupRef) (f : SFmt)
  /-- STS (R181): Scratch store. -/
  | coreSts (g : GroupRef) (f : SFmt)
  /-- AADD (R192): Integer add into a scratch word, returning the old value. -/
  | coreAadd (g : GroupRef) (f : SFmt)
  /-- XLD (R182): Transfer memory to scratch in the plan entry's slots. -/
  | coreXld (g : GroupRef) (f : MFmt)
  /-- XST (R182): Transfer scratch to memory. -/
  | coreXst (g : GroupRef) (f : MFmt)
  /-- XCP (R182): Copy scratch to another core's scratch, locally or to a span member. -/
  | coreXcp (g : GroupRef) (f : MFmt)
  /-- XGTH (R192): Gather indexed rows from memory into scratch. -/
  | coreXgth (g : GroupRef) (f : MFmt)
  /-- TRANSFER_COMPLETE (R183): A transfer's last burst is written and its token completes. -/
  | transferComplete (g : GroupRef) (token : Fin 16)
  /-- WAIT (R192): Wait until a token is complete. -/
  | coreWait (g : GroupRef) (f : XFmt)
  /-- MMA (R195): Matrix tile update from scaled operand blocks. -/
  | coreMma (g : GroupRef) (f : TFmt)
  /-- ALD (R192): Load an accumulator tile from scratch. -/
  | coreAld (g : GroupRef) (f : TFmt)
  /-- AST (R192): Store an accumulator tile to scratch, converted. -/
  | coreAst (g : GroupRef) (f : TFmt)
  /-- AZ (R192): Zero an accumulator tile. -/
  | coreAz (g : GroupRef) (f : TFmt)
  /-- BR (R186): Whole-group branch by ANY, ALL or NONE. -/
  | coreBr (g : GroupRef) (f : BFmt)
  /-- LOOP (R186): Decrement a scalar and branch when it is not zero. -/
  | coreLoop (g : GroupRef) (f : BFmt)
  /-- CALL (R192): Call using the return stack. -/
  | coreCall (g : GroupRef) (f : BFmt)
  /-- RET (R192): Return using the return stack. -/
  | coreRet (g : GroupRef) (f : BFmt)
  /-- END (R205): The group ends. -/
  | coreEnd (g : GroupRef) (f : BFmt)
  /-- BAR (R187): Core barrier releasing c groups. -/
  | coreBar (g : GroupRef) (f : XFmt)
  /-- SIG (R188): Add 1 to an event counter on the masked hubs. -/
  | coreSig (g : GroupRef) (f : XFmt)
  /-- WEV (R188): Wait until an event counter reaches a value. -/
  | coreWev (g : GroupRef) (f : XFmt)
  /-- WPT (R189): Waypoint: wait for all groups, hold the layer inputs and save program counters. -/
  | coreWpt (g : GroupRef) (f : XFmt)
  /-- ACALL (R206): Run a chain over N input rows on its stack. -/
  | coreAcall (g : GroupRef) (f : XFmt)
  /-- TOPK (R207): Issue a top-k call from the TOPK section or from memory. -/
  | coreTopk (g : GroupRef) (f : XFmt)
  /-- EPUT (R207): Deliver a digital-rung chain result to the epilogue. -/
  | coreEput (g : GroupRef) (f : XFmt)
  /-- APPEND (R230): KVOP APPEND writes a layer's key-value entries for positions or candidate nodes. -/
  | coreAppend (g : GroupRef) (f : XFmt)
  /-- FETCH (R230): KVOP FETCH writes a page-layer and per-query masks into scratch. -/
  | coreFetch (g : GroupRef) (f : XFmt)
  /-- QEND (R231): KVOP QEND checks whether a query's mask is empty. -/
  | coreQend (g : GroupRef) (f : XFmt)
  /-- STEP_TIMEOUT (R210): A step not done within DCR_STEP_TMO faults with cause 7. -/
  | stepTimeout (part : Fin 12)
  /-- FAULT_CLR (R210): DCR_FAULT_CLR frees the fault record and resumes step formation. -/
  | faultClr (part : Fin 12)
  /-- VERIFY (R203): DCR_SET_CTL.VERIFY starts verification of a step-program set into the inactive banks. -/
  | verify (part : Fin 12)
  /-- SET_VERIFY_DONE (R203): Verification ends with SET_OK and VERIFIED, or with SET_REJECTED and a status code. -/
  | setVerifyDone (part : Fin 12)
  /-- LOAD_START (R157): WLD_LOAD_CTL.START begins a load from a descriptor, after the kind, placement, budget and carry checks. -/
  | loadStart (part : Fin 12)
  /-- LOAD_ABORT (R173): WLD_LOAD_CTL.ABORT stops the load within 1 ms with ABORTED. -/
  | loadAbort (part : Fin 12)
  /-- RETIRE (R156): WLD_LOAD_CTL.RETIRE removes the active placement, or is refused. -/
  | retire (part : Fin 12)
  /-- MANIFEST_CHECK (R151): A fetched manifest is checked for format and signature; of its 128-byte header alone, the length. -/
  | manifestCheck (part : Fin 12) (manifest : List Byte)
  /-- SHARD_ACCEPTED (R154): A fetched shard's digest is checked; it is decrypted and its blocks are placed. -/
  | shardAccepted (part : Fin 12) (shard : Nat) (stored : List Byte)
  /-- READ_TIMEOUT (R161): A Read with no completion within 2 s is reissued to the other source. -/
  | readTimeout (part : Fin 12) (read : ReadRef)
  /-- SHARD_TIMEOUT (R161): A shard not accepted within SHARD_TMO fails the load with SHARD_MISSING. -/
  | shardTimeout (part : Fin 12) (shard : Nat)
  /-- PROGRAM_ARRAY_TIER (R163): Programming of a staged array-tier begins. -/
  | programArrayTier (part : Fin 12) (entry : Nat)
  /-- PROGRAM_VERIFY_END (R164): Program-and-verify of an array-tier ends; failed cells are logged and the residency record is written. -/
  | programVerifyEnd (part : Fin 12) (entry : Nat) (trains : Nat) (failed : List (Nat × Nat))
  /-- SWITCH_DRAIN (R170): WLD_SWITCH with MODE DRAIN requests a switch at the first boundary without old-generation requests. -/
  | switchDrain (part : Fin 12)
  /-- SWITCH_IMMEDIATE (R170): WLD_SWITCH with MODE IMMEDIATE requests a switch at the next boundary. -/
  | switchImmediate (part : Fin 12)
  /-- STACK_SELFCAL (R59): CNV_SELFCAL with stack scope starts self-calibration of a disabled stack. -/
  | stackSelfcal (stack : Fin 12)
  /-- TILE_SELFCAL (R59): CNV_SELFCAL with tile scope starts self-calibration of one withdrawn tile. -/
  | tileSelfcal (stack : Fin 12)
  /-- SELFCAL_COMPLETE (R60): Self-calibration completes and writes inactive trims, exchanging them for stack scope. -/
  | selfcalComplete (stack : Fin 12) (trims : List (Nat × Nat)) (bad : List Nat) (refs : List (Nat × List Int))
  /-- TRIM_SWAP (R60): CNV_TRIM_CTL.SWAP requests a trim buffer exchange for the stack. -/
  | trimSwap (stack : Fin 12)
  /-- MAP_SWAP (R47): AFD_MAP_SWAP requests an exchange of the remap buffers. -/
  | mapSwap (stack : Fin 12)
  /-- AFD_CAP (R63): A write of the firmware cap applies from the stack's next arm decision. -/
  | afdCap (stack : Fin 12) (cap : Fin 512)
  /-- MEM_TRAIN (R271): MEM_TRAIN.START trains the four memory stacks of a hub. -/
  | memTrain (hub : Fin 4)
  /-- TRAINING_END (R271): Memory training ends, setting TRAINED, MEM_CH_OK and the failure flags. -/
  | trainingEnd (hub : Fin 4) (ok : BitVec 128)
  /-- APPLY (R275): MEM_PART_CTL.APPLY sets a partition's range, takes its key and starts clearing. -/
  | apply (hub : Fin 4)
  /-- CLEAR_DONE (R275): A range finishes clearing to encrypted zeros. -/
  | clearDone (hub : Fin 4) (part : Fin 12)
  /-- FRAME_SWAP (R277): MEM_FRAME_CTL.SWAP requests a check and swap of the inactive frame. -/
  | frameSwap (hub : Fin 4)
  /-- FRAME_CHECK (R277): At the next frame cycle start the inactive frame is checked and swapped in or refused. -/
  | frameCheck (hub : Fin 4)
  /-- REFRESH_SLOT (R278): A REFRESH slot refreshes the next bank of every channel. -/
  | refreshSlot (hub : Fin 4)
  /-- FORCED_REFRESH (R278): When MEM_REF_TMAX passes since a channel's last refresh, the next slot is taken for a refresh. -/
  | forcedRefresh (hub : Fin 4) (channel : Fin 128)
  /-- SCRUB_SLOT (R279): A SCRUB slot writes the oldest pending write-back or reads the next patrol burst. -/
  | scrubSlot (hub : Fin 4) (channel : Fin 128)
  /-- STEP_SLOT (R281): A slot moves the next queued burst of its owner or plan entry. -/
  | stepSlot (hub : Fin 4) (channel : Fin 128) (slot : Nat)
  /-- PACE_WINDOW (R359): Every 1 µs the governor compares each domain's ring count with its target and steps the supply. -/
  | paceWindow (counts : List Nat)
  /-- ROLL_READY (R305): A READY roll-call flit is received and passed up the tree. -/
  | rollReady (part : Fin 12) (payload : PortFlit)
  /-- ROLL_GO (R305): A GO roll-call flit is received and passed down; the equalising delay starts. -/
  | rollGo (part : Fin 12) (payload : PortFlit)
  /-- ROLL_ABORT (R307): An ABORT roll-call flit stops span steps until ROLL_RETRY. -/
  | rollAbort (part : Fin 12) (payload : PortFlit)
  /-- ROLL_REPLAY (R390): A REPLAY roll-call flit makes a member before its cut replay from its waypoint. -/
  | rollReplay (part : Fin 12) (payload : PortFlit)
  /-- ROLL_TIMEOUT (R307): The leader misses READYs within GLB_ROLL_TMO and sends ABORT. -/
  | rollTimeout (part : Fin 12)
  /-- EQUALISING_DELAY_END (R305): A member's equalising delay after GO ends and step formation starts. -/
  | equalisingDelayEnd (part : Fin 12)
  /-- ROLL_RETRY (R307): GLB_SPAN_CTL.ROLL_RETRY resumes roll calls after a failure. -/
  | rollRetry (part : Fin 12)
  /-- DETECTED_ERROR (R313): A parity failure in a unit working for a step poisons the data, reports it and replays the step. -/
  | detectedError (part : Fin 12) (origin : Origin)
  /-- COVER_FETCH (R321): A queued PERMANENT verdict starts a fetch of the array's levels into a cover slot. -/
  | coverFetch (part : Fin 12)
  /-- COVER_READY (R321): A cover fetch completes with every wanted block resident. -/
  | coverReady (part : Fin 12) (slot : Fin 32) (stored : List (Nat × List Byte))
  /-- SPARE_ARRAY_PROGRAM (R325): REL_SPARE_CTL GO with MODE 0 programs a spare array from the cover levels. -/
  | spareArrayProgram (part : Fin 12)
  /-- SPARE_COLUMN_PROGRAM (R325): REL_SPARE_CTL GO with MODE 1 programs newly mapped spare columns of a masked array. -/
  | spareColumnProgram (part : Fin 12)
  /-- SPARE_PROGRAM_END (R325): Spare programming ends with SPARE_DONE, or with SPARE_FAIL for failed cells. -/
  | spareProgramEnd (part : Fin 12) (trains : Nat) (failed : Nat)
  /-- MASK_CLEAR (R326): REL_MASK_CTL.CLEAR requests a mask lift at the next boundary. -/
  | maskClear (part : Fin 12)
  /-- UNAVAIL_SET (R327): REL_UNAVAIL_CTL.SET marks an expert unavailable at the next boundary. -/
  | unavailSet (part : Fin 12)
  /-- UNAVAIL_CLEAR (R327): REL_UNAVAIL_CTL.CLEAR removes an expert's mark at the next boundary. -/
  | unavailClear (part : Fin 12)
  /-- VERDICT_POP (R337): REL_VERDICT_POP removes the head verdict. -/
  | verdictPop (part : Fin 12)
  /-- COALESCING_WINDOW_CLOSE (R329): A coalescing window closes 1 ms after it opens and its record is emitted. -/
  | coalescingWindowClose (hub : Fin 4) (window : Nat)
  /-- PUSH (R331): REL_FW_CTL.PUSH emits a firmware record at once. -/
  | push (hub : Fin 4)
  /-- COMMIT (R332): REL_BB_CTL.COMMIT starts a black-box commit of the hub's ring. -/
  | commit (hub : Fin 4)
  /-- BB_COMMITTED (R333): A black-box commit completes into the oldest commit slot. -/
  | bbCommitted (hub : Fin 4)
  /-- SENSOR_READING (R338): Every 1 ms every sensor is read, tested against its neighbours, and the thermal levels are decided. -/
  | sensorReading (hub : Fin 4) (readings : List Nat)
  /-- EXCLUDE (R340): THC_SENS_CTL.EXCLUDE removes a sensor from service, unless refused. -/
  | exclude (hub : Fin 4)
  /-- REINSTATE (R340): THC_SENS_CTL.REINSTATE returns a sensor to service. -/
  | reinstate (hub : Fin 4)
  /-- RECAL_REQ (R349): THC_RECAL_REQ.GO queues a tile with reason 3. -/
  | recalReq (hub : Fin 4)
  /-- CAL_PIECE_END (R347): A recalibration piece ends, a self-calibration slice or the sweep. -/
  | calPieceEnd (stack : Fin 12) (tile : Nat) (trims : List (Nat × Nat)) (bad : List Nat) (refs : List (Nat × List Int))
  /-- INPUT_UNDERVOLTAGE (R357): The input below 38 V for 20 µs acts as a power-fail warning. -/
  | inputUndervoltage (mv : Nat)
  /-- INPUT_OVERVOLTAGE (R357): The input above 59.5 V for 10 µs is a fatal event. -/
  | inputOvervoltage (mv : Nat)
  /-- RAIL_FAULT (R357): A regulated rail more than 8 % off its setpoint for 10 µs is a fatal event. -/
  | railFault (hub : Fin 4) (rail : Nat)
  /-- LIMITER_PERIOD (R362): At the end of each 10 ms period the limiter raises or lowers D_lim from PWR_PIN_W. -/
  | limiterPeriod (watts : Nat) (mv : Nat) (ma : Nat)
  /-- RESET_RELEASE (R477): Reset is released: device time starts, straps are sampled and the trailhead boots. -/
  | resetRelease (straps : BitVec 5) (lanes : List Nat) (pfw : Bool)
  /-- PORT_TRAINED (R378): A network port completes training and FEC lock. -/
  | portTrained (port : Fin 16) (peer : List Byte) (latency : Nat)
  /-- ETHERNET_FRAME (R382): A received Ethernet-mode frame is accepted or dropped and counted. -/
  | ethernetFrame (port : Fin 16) (frame : List Byte)
  /-- ARP (R379): An ARP request is answered for the port. -/
  | arp (port : Fin 17) (frame : List Byte)
  /-- NEIGHBOUR_SOLICITATION (R379): An IPv6 neighbour solicitation is answered with an advertisement. -/
  | neighbourSolicitation (port : Fin 17) (frame : List Byte)
  /-- ECHO_REQUEST (R379): An ICMP or ICMPv6 echo request is answered with an echo reply. -/
  | echoRequest (port : Fin 17) (frame : List Byte)
  /-- CONGESTION_NOTIFICATION (R381): A congestion notification halves the queue pair's send rate. -/
  | congestionNotification (port : Fin 16) (qp : Nat)
  /-- RATE_INCREASE_TIMER (R381): After 50 µs without a notification, the queue pair's rate rises by 5 %. -/
  | rateIncreaseTimer (port : Fin 16) (qp : Nat)
  /-- RDMA_WRITE (R380): A received RDMA WRITE is accepted into its owner's staging or cover slot, or dropped with the queue pair closed. -/
  | rdmaWrite (port : Fin 16) (qp : Nat) (rkey : Nat) (addr : Nat) (data : List Byte)
  /-- WENTAR_LINK (R385): A Wentar LINK flit requests a resend or carries latency measurement. -/
  | wentarLink (port : Fin 16) (flit : List Byte)
  /-- WENTAR_WRITE (R389): A Wentar WRITE flit is checked, forwarded, or held for delivery. -/
  | wentarWrite (port : Fin 16) (flit : List Byte)
  /-- WENTAR_ACK_TIMEOUT (R385): After 2 µs without an acknowledgement, the sender resends. -/
  | wentarAckTimeout (port : Fin 16)
  /-- WRITE_DELIVER (R389): When the step count reaches DELIVER, the payload is written to scratch and SIG is applied. -/
  | writeDeliver (part : Fin 12) (count : Nat)
  /-- FORM (R388): FAB_SPAN_CTL.FORM measures the routes and forms the span, or refuses it with a reason. -/
  | form (lats : List Nat)
  /-- ID_CREATE (R425): SEC_ID_CTL.CREATE burns the identity seed into a blank bank. -/
  | idCreate (entropy : List Byte)
  /-- PART_CLEAR_DONE (R431): Creation clears finish, tags are written and PART_DONE is set. -/
  | partClearDone (part : Fin 12)
  /-- SEND (R437): SEC_MB_CTL.SEND submits an SPDM request in the partition mailbox. -/
  | send (part : Fin 12)
  /-- GET_VERSION (R427): SPDM GET_VERSION request. -/
  | spdmGetVersion (via : SpdmVia) (msg : List Byte)
  /-- GET_CAPABILITIES (R427): SPDM GET_CAPABILITIES request. -/
  | spdmGetCapabilities (via : SpdmVia) (msg : List Byte)
  /-- NEGOTIATE_ALGORITHMS (R427): SPDM NEGOTIATE_ALGORITHMS request. -/
  | spdmNegotiateAlgorithms (via : SpdmVia) (msg : List Byte)
  /-- GET_DIGESTS (R427): SPDM GET_DIGESTS request. -/
  | spdmGetDigests (via : SpdmVia) (msg : List Byte)
  /-- GET_CERTIFICATE (R427): SPDM GET_CERTIFICATE request, unsupported in FAB and RETURN. -/
  | spdmGetCertificate (via : SpdmVia) (msg : List Byte)
  /-- CHALLENGE (R427): SPDM CHALLENGE request signed by the alias key. -/
  | spdmChallenge (via : SpdmVia) (msg : List Byte)
  /-- GET_MEASUREMENTS (R428): SPDM GET_MEASUREMENTS returns the measurement blocks allowed on the transport. -/
  | spdmGetMeasurements (via : SpdmVia) (msg : List Byte)
  /-- KEY_EXCHANGE (R427): SPDM KEY_EXCHANGE opens a secure session. -/
  | spdmKeyExchange (via : SpdmVia) (msg : List Byte)
  /-- FINISH (R427): SPDM FINISH completes session setup. -/
  | spdmFinish (via : SpdmVia) (msg : List Byte)
  /-- HEARTBEAT (R427): SPDM HEARTBEAT in a session. -/
  | spdmHeartbeat (via : SpdmVia) (msg : List Byte)
  /-- KEY_UPDATE (R427): SPDM KEY_UPDATE in a session. -/
  | spdmKeyUpdate (via : SpdmVia) (msg : List Byte)
  /-- END_SESSION (R427): SPDM END_SESSION closes a session. -/
  | spdmEndSession (via : SpdmVia) (msg : List Byte)
  /-- CHUNK_SEND (R427): SPDM CHUNK_SEND request. -/
  | spdmChunkSend (via : SpdmVia) (msg : List Byte)
  /-- CHUNK_GET (R427): SPDM CHUNK_GET request. -/
  | spdmChunkGet (via : SpdmVia) (msg : List Byte)
  /-- KEY_DELIVER (R429): Vendor-defined request that holds an image key under a handle. -/
  | spdmKeyDeliver (via : SpdmVia) (msg : List Byte)
  /-- KEY_ERASE (R429): Vendor-defined request that erases an image key. -/
  | spdmKeyErase (via : SpdmVia) (msg : List Byte)
  /-- PUBKEY_ADD (R429): Vendor-defined request that adds a publisher key. -/
  | spdmPubkeyAdd (via : SpdmVia) (msg : List Byte)
  /-- PUBKEY_REMOVE (R429): Vendor-defined request that removes a publisher key. -/
  | spdmPubkeyRemove (via : SpdmVia) (msg : List Byte)
  /-- WATCHDOG_EXPIRY (R440): A steward core not kicked within MGT_WDOG_MS is reset and restarted. -/
  | watchdogExpiry (hub : Fin 4) (core : Fin 4)
  /-- WDOG_KICK (R440): MGT_WDOG_KICK restarts a core's watchdog. -/
  | wdogKick (hub : Fin 4) (mask : BitVec 4)
  /-- ENEC (R441): I3C CCC that enables events. -/
  | i3cEnec (mask : Byte)
  /-- DISEC (R441): I3C CCC that disables events. -/
  | i3cDisec (mask : Byte)
  /-- ENTDAA (R441): I3C CCC for dynamic address assignment. -/
  | i3cEntdaa (addr : Fin 128)
  /-- SETDASA (R441): I3C CCC that sets the dynamic address from the static one. -/
  | i3cSetdasa (pair : DasaPair)
  /-- SET_ENDPOINT_ID (R442): MCTP control command that assigns the endpoint ID. -/
  | setEndpointId (msg : List Byte)
  /-- GET_ENDPOINT_ID (R442): MCTP control command that returns the endpoint ID. -/
  | getEndpointId (msg : List Byte)
  /-- GET_MCTP_VERSION_SUPPORT (R442): MCTP control command that returns version support. -/
  | getMctpVersionSupport (msg : List Byte)
  /-- GET_MESSAGE_TYPE_SUPPORT (R442): MCTP control command that returns the supported message types. -/
  | getMessageTypeSupport (msg : List Byte)
  /-- GET_ENDPOINT_UUID (R442): MCTP control command that returns the endpoint UUID. -/
  | getEndpointUuid (msg : List Byte)
  /-- GET_TID (R443): PLDM GetTID. -/
  | getTid (msg : List Byte)
  /-- SET_TID (R443): PLDM SetTID. -/
  | setTid (msg : List Byte)
  /-- GET_PLDM_VERSION (R443): PLDM GetPLDMVersion. -/
  | getPldmVersion (msg : List Byte)
  /-- GET_PLDM_TYPES (R443): PLDM GetPLDMTypes. -/
  | getPldmTypes (msg : List Byte)
  /-- GET_PLDM_COMMANDS (R443): PLDM GetPLDMCommands. -/
  | getPldmCommands (msg : List Byte)
  /-- GET_SENSOR_READING (R444): PLDM GetSensorReading returns a numeric sensor. -/
  | getSensorReading (msg : List Byte)
  /-- GET_STATE_SENSOR_READINGS (R444): PLDM GetStateSensorReadings returns a state sensor. -/
  | getStateSensorReadings (msg : List Byte)
  /-- GET_PDR_REPOSITORY_INFO (R443): PLDM GetPDRRepositoryInfo. -/
  | getPdrRepositoryInfo (msg : List Byte)
  /-- GET_PDR (R443): PLDM GetPDR returns a sensor PDR. -/
  | getPdr (msg : List Byte)
  /-- SET_EVENT_RECEIVER (R445): PLDM SetEventReceiver enables platform event messages. -/
  | setEventReceiver (msg : List Byte)
  /-- POLL_FOR_PLATFORM_EVENT_MESSAGE (R443): PLDM PollForPlatformEventMessage. -/
  | pollForPlatformEventMessage (msg : List Byte)
  /-- ACTIVATE_FIRMWARE (R446): PLDM ActivateFirmware schedules the update for the next reset. -/
  | activateFirmware (msg : List Byte)
  /-- RESEND_REQ (R449): A RESEND_REQ datagram from the collector is answered with the held records. -/
  | resendReq (frame : List Byte)
  /-- SELF_TEST_END (R455): A self-test ends, setting DONE, FAIL, BST_FAIL_UNITS and BST_COVER. -/
  | selfTestEnd (faults : List TestFault) (ms : Nat)
  /-- REGISTER_WRITE (R467): A write to a register with no row of its own acts by the field's access code and the view. -/
  | registerWrite (who : Requester) (addr : Nat) (value : StoreData) (raced : SameHc)
  /-- LO_READ (R469): A read of a _LO word latches the high word into the requester's shadow. -/
  | loRead (who : Requester) (addr : Nat)
  /-- BLOCK_ENABLE (R471): A write of 1 to BLOCK_CTL.EN is checked by the block's rules and enables it, or is refused. -/
  | blockEnable (who : Requester) (addr : Nat)
  /-- BLOCK_DISABLE (R472): A write of 0 to BLOCK_CTL.EN is refused, deferred to a boundary, or applied at once. -/
  | blockDisable (who : Requester) (addr : Nat)
  /-- KVE_FLUSH (R224): KVE_TREE_CTL.FLUSH requests a prefix-tree flush at the next boundary. -/
  | kveFlush (part : Fin 12)
  /-- SRV_PREEMPT (R264): SRV_PREEMPT.GO requests preemption of a slot's request, unless refused. -/
  | srvPreempt (part : Fin 12)
  /-- SRV_END (R265): SRV_END.GO ends a request at once or at the commit via END_PEND. -/
  | srvEnd (part : Fin 12)
  /-- CONNECT_TIMEOUT (R158): No source completes NVMe-oF Connect within SHARD_TMO, so the load fails with SOURCE_UNREACHABLE. -/
  | connectTimeout (part : Fin 12)
  /-- ROLL_WAIT_TIMEOUT (R307): A member that receives no GO and no ABORT within twice GLB_ROLL_TMO sets ROLL_FAIL and forms no span step until ROLL_RETRY. -/
  | rollWaitTimeout (part : Fin 12)
  /-- PORT_LINK_DOWN (R386): A network port loses its link, so LINK_DOWN is set, FORMED clears for routes over it, and reads or remote writes over it are reissued or late. -/
  | portLinkDown (port : Fin 16)
  /-- STATE_DONE (R366): A power-state transition completes: the rails have ramped and the domains have locked for ACTIVE, the DOZE entry has finished within 5 ms, or WAKE has finished, so STATE_DONE and MOD_STATE are set. -/
  | stateDone (part : Option (Fin 12))
  /-- INPUT_LOSS (R369): The 48 V input falls outside the operating range, so the module goes to OFF and loses its volatile state. -/
  | inputLoss (mv : Nat)
  /-- SECURITY_PARITY_FAILURE (R334): A parity failure in security or life-cycle state, or in the fuse shadows or key stores, is a fatal event. -/
  | securityParityFailure (hub : Fin 4) (detail : Nat)
  /-- MANAGEMENT_ETHERNET_LINK (R457): The 25GBASE-R management Ethernet link comes up or goes down, and LAN_UP follows it. -/
  | managementEthernetLink (up : Bool)
  /-- FIRMWARE_UPDATE_DATA (R446): PLDM Type 5 component data is received and written into slot A, after the running stages are copied into slot B; in RECOVERY the trailhead takes it in. -/
  | firmwareUpdateData (component : Fin 2) (offset : Nat) (data : List Byte)
  /-- PLATFORM_EVENT_MESSAGE_RESPONSE (R445): The event receiver acknowledges a PlatformEventMessage, so the message leaves the queue and its 1 s resends stop. -/
  | platformEventMessageResponse (msg : List Byte)
  /-- REGISTER_READ (R463): A register read that has behaviour of its own: reads of reserved or unlisted words, of non-existent partition pages, or by a requester the page does not admit increment GLB_UNMAPPED_CNT or SEC_NOPART_CNT and set flags, and an ill-sized steward access raises an access fault. -/
  | registerRead (who : Requester) (addr : Nat) (size : Nat)
  /-- RETURN_CLEAR_END (R419): The clear of every array at the first reset in RETURN or SCRAP ends after up to 211 s, and the trailhead then proceeds to stage 1. -/
  | returnClearEnd (stack : Fin 12)
  /-- ADTIK_RESEND_TIMEOUT (R399): After 4 µs without an acknowledgement, the sender resends from FACK + 1. -/
  | adtikResendTimeout
  /-- HOST_LINK_TRAINED (R404): Electrical training and FEC lock of the host link complete, and OFFER sending begins. -/
  | hostLinkTrained
  /-- FEC_LOCK_LOST (R410): FEC lock lost on a host-link lane for 1 µs starts a retrain. -/
  | fecLockLost
  /-- HOST_LINK_DOWN_TIMEOUT (R411): The host link stays down for HLK_DOWN_TMO, so HOST_LOST is set and a STATE report is sent. -/
  | hostLinkDownTimeout
  /-- POWER_FAIL_WARNING (R370): PFW_N asserted stops programming and steps, enters QUIET and commits the black boxes. -/
  | powerFailWarning
  /-- PFW_DEASSERT (R371): The power-fail warning is deasserted before the input fails. -/
  | pfwDeassert
  /-- QUIET (R365): PWR_PART_CTL.QUIET requests that a partition enter QUIET at its next boundary. -/
  | quiet
  /-- ACTIVE (R366): PWR_PART_CTL.ACTIVE returns a partition to ACTIVE, unless refused. -/
  | active
  /-- DOZE (R367): PWR_MOD_CTL.DOZE takes the module into DOZE, unless refused. -/
  | doze
  /-- WAKE (R368): PWR_MOD_CTL.WAKE returns the module from DOZE. -/
  | wake
  /-- RESET_ASSERT (R494): RESET_N low for 10 µs resets the module, after any running commit. -/
  | resetAssert
  /-- REFCLK_LOST (R506): Loss of the reference clock stops device time and takes the serdes links down. -/
  | refclkLost
  /-- REFCLK_RETURN (R506): The reference clock returns and the module resumes. -/
  | refclkReturn
  /-- LC_GO (R417): SEC_LC_CTL.GO burns a permitted life-cycle transition, taking effect at reset. -/
  | lcGo
  /-- SEC_VERIFY (R421): SEC_VERIFY.GO checks a firmware stage header and code. -/
  | secVerify
  /-- SVN_COMMIT (R423): SEC_SVN_CTL.COMMIT burns the fused SVN up to the running SVN. -/
  | svnCommit
  /-- KEY_REVOKE (R424): SEC_KEY_REVOKE.GO burns a key slot's revoke fuse, unless refused. -/
  | keyRevoke
  /-- PART_CREATE (R430): SEC_PART_CTL.CREATE creates a partition with keys, stacks and cores, clearing stacks whose tag differs. -/
  | partCreate
  /-- PART_DESTROY (R432): SEC_PART_CTL.DESTROY erases the partition's keys and state and frees its resources. -/
  | partDestroy
  /-- RSTDAA (R441): I3C CCC that resets the dynamic address. -/
  | i3cRstdaa
  /-- GETPID (R441): I3C CCC that returns the provisional ID. -/
  | i3cGetpid
  /-- GETBCR (R441): I3C CCC that returns the BCR. -/
  | i3cGetbcr
  /-- GETDCR (R441): I3C CCC that returns the DCR. -/
  | i3cGetdcr
  /-- GETMWL (R441): I3C CCC that returns the maximum write length. -/
  | i3cGetmwl
  /-- GETMRL (R441): I3C CCC that returns the maximum read length. -/
  | i3cGetmrl
  /-- GETSTATUS (R441): I3C CCC that returns status. -/
  | i3cGetstatus
  /-- PLATFORM_EVENT_RESEND (R445): An unacknowledged platform event message is resent every 1 s. -/
  | platformEventResend
  /-- VERIFY_COMPLETE (R446): PLDM VerifyComplete checks the updated components under R421. -/
  | verifyComplete
  /-- LANTERN_HEARTBEAT (R449): Every MGT_LAN_PERIOD a HEARTBEAT datagram is sent. -/
  | lanternHeartbeat
  /-- FIELD_SELF_TEST (R452): BST_CTL.GO with TEST 1 starts the read-only field self-test. -/
  | fieldSelfTest
  /-- FULL_SELF_TEST (R453): BST_CTL.GO with TEST 2 starts the full self-test with cell patterns. -/
  | fullSelfTest
  /-- MEMORY_SELF_TEST (R454): BST_CTL.GO with TEST 3 starts the memory self-test. -/
  | memorySelfTest
  /-- SELF_TEST_ABORT (R456): BST_CTL.ABORT stops the running test within 1 ms. -/
  | selfTestAbort
  /-- FLIT_TRANSMIT (R398): At each flit time the host link sends the next flit, filled with frames from the queues and response rings in the priority of R402, or with PAD frames. -/
  | flitTransmit
  /-- OFFER_REPEAT (R404): Every 1 µs until the peer's OFFER is received, the module sends another LINK frame with STATE OFFER. -/
  | offerRepeat
  /-- HOST_ADAPTER_TRAINING (R410): The host adapter starts training, so the module begins a retrain. -/
  | hostAdapterTraining
  deriving DecidableEq, Repr

end Sys2Proof
end

