-- ==== Sys2Proof/Decode.lean ====
section
/-! DEFINITION. Commands spelled by a word. The table of operations and events gives no row any bits: the block has no
instruction decoder, and a command reaches it as an event, so no word spells one. -/
namespace Sys2Proof

/-- The command that a word spells by the bits of the table: none, as no row has bits. -/
def decodeTableWord (_nbits _w : Nat) : Option Instr := none

end Sys2Proof
end

