-- ==== Sys2Proof/Config.lean ====
section
/-! DEFINITION. What the spec leaves open: constants without a body, so that no proof can see a value. -/
namespace Sys2Proof

/-- A value the spec does not state, drawn at a count of the model's own (log entry 3). -/
opaque Config.freeNat : Nat → Nat

/-- Values the spec does not state that belong together: a draw of `Config.freeNat`'s count, and a place (log entry 3). -/
opaque Config.freeAt : Nat → Nat → Nat

/-- Nanoseconds after which a Keep Alive goes on an idle admin queue (R159; log entry 117). -/
opaque Config.keepAliveNs : Nat

/-- Ed448 signature verification over (public key, message, signature) (R153, R421, R427; log entry 4). -/
opaque Config.ed448Verify : List Byte → List Byte → List Byte → Bool

/-- Ed448 signature of a message under a private seed (R425, R427). -/
opaque Config.ed448Sign : List Byte → List Byte → List Byte

/-- Ed448 public key of a seed (R425). -/
opaque Config.ed448Public : List Byte → List Byte

/-- AES-256-GCM opening: key, nonce, additional data, ciphertext with tag; none on a tag failure (R155, R427). -/
opaque Config.gcmOpen : List Byte → List Byte → List Byte → List Byte → Option (List Byte)

/-- AES-256-GCM sealing: key, nonce, additional data, plaintext (R427). -/
opaque Config.gcmSeal : List Byte → List Byte → List Byte → List Byte → List Byte

/-- Public value of a private one in the key exchange (R427). -/
opaque Config.ecdhPublic : List Byte → List Byte

/-- Key (32 bytes) and IV (12 bytes) of a session direction: shared secret, transcript, after FINISH, key generation, from the
requester (R427, DSP0277). -/
opaque Config.sessionKeys : List Byte → List Byte → Bool → Nat → Bool → List Byte

/-- Verify data of a key exchange side: shared secret, transcript, of the requester (R427). -/
opaque Config.verifyData : List Byte → List Byte → Bool → List Byte

/-- Is a standards-body and vendor identification Selsan's (R429). -/
opaque Config.vendorOk : List Byte → Bool

/-- Shared secret of the key exchange from a private value and the peer's public value (R427). -/
opaque Config.ecdh : List Byte → List Byte → List Byte

/-- AES-256-XTS of one 64-byte burst: key pair, burst number as the tweak, plaintext (R289). -/
opaque Config.xtsSeal : List Byte → Nat → List Byte → List Byte

/-- Decryption of one 64-byte burst: key pair, burst number, ciphertext (R289). -/
opaque Config.xtsOpen : List Byte → Nat → List Byte → List Byte

/-- Output of the module's random source for a count of its own (R289, R425, R427). -/
opaque Config.random : Nat → Nat → List Byte

/-- What the trailhead ROM holds (R428). -/
opaque Config.trailhead : List Byte

/-- Is an address on the link of the management port with another: no field gives a prefix (R447; log entry 134). -/
opaque Config.onLink : Nat → Nat → Bool

/-- UUID of the MCTP endpoint (R442). -/
opaque Config.uuid : List Byte

end Sys2Proof
end

