-- ==== Sys2Proof/Machine/Util.lean ====
section
/-! DEFINITION. Sorted association lists, the one shape in which the model holds sparse data (registers, memory bytes,
per-unit records), and the little-endian readings of R2. -/
namespace Sys2Proof

/-- A sparse map with Nat keys, held as pairs in strictly rising key order. -/
abbrev AMap (α : Type) := List (Nat × α)

/-- The entry stored under a key. -/
def AMap.get? {α : Type} : AMap α → Nat → Option α
  | [], _ => none
  | (k, v) :: t, a => if k = a then some v else AMap.get? t a

/-- The entry under a key, or what an unlisted key reads as. -/
def AMap.getD {α : Type} (m : AMap α) (a : Nat) (d : α) : α := (AMap.get? m a).getD d

/-- Insert or replace, keeping keys rising. -/
def AMap.set {α : Type} : AMap α → Nat → α → AMap α
  | [], a, x => [(a, x)]
  | (k, v) :: t, a, x =>
    if a < k then (a, x) :: (k, v) :: t else if a = k then (a, x) :: t else (k, v) :: AMap.set t a x

/-- Remove a key. -/
def AMap.erase {α : Type} (m : AMap α) (a : Nat) : AMap α := m.filter (fun e => e.1 != a)

/-- Write in canonical form: an entry equal to what an unlisted key reads as is removed. -/
def AMap.put {α : Type} [DecidableEq α] (m : AMap α) (a : Nat) (x d : α) : AMap α :=
  if x = d then AMap.erase m a else AMap.set m a x

/-- Keys strictly rising. -/
def AMap.sorted {α : Type} (m : AMap α) : Bool :=
  match m with
  | [] => true
  | (k, _) :: t => t.all (fun e => k < e.1) && AMap.sorted t

/-- Apply a function to the entry of a key. -/
def AMap.modify {α : Type} [DecidableEq α] (m : AMap α) (a : Nat) (d : α) (f : α → α) : AMap α :=
  AMap.put m a (f (AMap.getD m a d)) d

/-- Bits [lo + w - 1 : lo] of a number. -/
def bits (x lo w : Nat) : Nat := (x >>> lo) % 2 ^ w

/-- One bit of a number. -/
def bit (x i : Nat) : Bool := x.testBit i

/-- Replace bits [lo + w - 1 : lo] of a number. -/
def setBits (x lo w v : Nat) : Nat := x - (bits x lo w <<< lo) + ((v % 2 ^ w) <<< lo)

/-- The low w bits as a signed number. -/
def sx (x w : Nat) : Int :=
  let y := x % 2 ^ w
  if y < 2 ^ (w - 1) then (y : Int) else (y : Int) - (2 ^ w : Nat)

/-- A signed number in two's complement of width w. -/
def ux (x : Int) (w : Nat) : Nat := (x % ((2 ^ w : Nat) : Int)).toNat

/-- Little-endian value of a byte list (R2). -/
def leNat : List Byte → Nat
  | [] => 0
  | b :: t => b.toNat + 256 * leNat t

/-- n little-endian bytes of a value (R2). -/
def leBytes : Nat → Nat → List Byte
  | 0, _ => []
  | n + 1, v => BitVec.ofNat 8 v :: leBytes n (v / 256)

/-- The little-endian field of `n` bytes at offset `o`; bytes past the end read 0. -/
def fieldLE (bs : List Byte) (o n : Nat) : Nat := leNat ((bs.drop o).take n)

/-- Byte at an offset; past the end 0. -/
def byteAt (bs : List Byte) (o : Nat) : Nat := (bs.getD o 0).toNat

/-- Are `n` bytes from offset `o` all zero. -/
def zerosAt (bs : List Byte) (o n : Nat) : Bool := fieldLE bs o n == 0

/-- Little-endian words of `n` bytes, in order. -/
def leWords (n : Nat) : Nat → List Byte → List Nat
  | 0, _ => []
  | c + 1, bs => leNat (bs.take n) :: leWords n c (bs.drop n)

/-- ASCII bytes of a string. -/
def ascii (s : String) : List Byte := s.toList.map (fun c => BitVec.ofNat 8 c.toNat)

/-- Ceiling division. -/
def cdiv (a b : Nat) : Nat := (a + b - 1) / b

/-- Round half to even of the exact quotient a / b (b above 0). -/
def rneDiv (a : Int) (b : Nat) : Int :=
  let q := a.fdiv (b : Int)
  let r := a - q * b
  if 2 * r < b then q else if 2 * r > b then q + 1 else if q % 2 = 0 then q else q + 1

/-- Limit to a range. -/
def clampI (lo hi x : Int) : Int := if x < lo then lo else if x > hi then hi else x

/-- Nearest limit of a range (R355, R373, R457: "acts as the nearest limit"). -/
def clampN (lo hi x : Nat) : Nat := if x < lo then lo else if x > hi then hi else x

/-- Positions of the 1 bits of a mask below n, ascending. -/
def maskBits (n m : Nat) : List Nat := (List.range n).filter (fun i => m.testBit i)

/-- Insert before the first element that does not come earlier. -/
def insertBy {α : Type} (le : α → α → Bool) (x : α) : List α → List α
  | [] => [x]
  | y :: t => if le x y then x :: y :: t else y :: insertBy le x t

/-- Stable sort by an order. -/
def sortBy {α : Type} (le : α → α → Bool) : List α → List α
  | [] => []
  | x :: t => insertBy le x (sortBy le t)

/-- The mask with the listed bits. -/
def maskOf (l : List Nat) : Nat := l.foldl (fun m i => m ||| (1 <<< i)) 0

end Sys2Proof
end

