-- ==== Sys2Proof/Machine/RegTable.lean ====
section
/-! DEFINITION. The register fields of every page, one constant for each row of the register tables of the spec
(R63, R66, R97, R124, R150, R174, R175, R212, R238, R268, R291, R311, R336, R337, R355, R373, R394, R395, R396, R414,
R436, R437, R457, R458, R474) and the common words of R466. A _LO/_HI pair (R469) is one 64-bit field at its _LO word. -/
namespace Sys2Proof.Machine

/-- A register page: global block pages (R460) and the pages of a partition (R461, R475). `fabS` is the span page. -/
inductive Page
  | afd | cnv | dcp | acu | wldG | mem | noc | fab | fabS | hlk | pwr | thc | secG | mgt | bst | glbG | relG
  | dcr | kve | srv | wld | sec | glb | rel
  deriving DecidableEq, Repr

/-- Place of a page kind in the key of the field store (a numbering of the model's own). -/
def Page.idx : Page → Nat
  | .afd => 0 | .cnv => 1 | .dcp => 2 | .acu => 3 | .wldG => 4 | .mem => 5 | .noc => 6 | .fab => 7 | .fabS => 8
  | .hlk => 9 | .pwr => 10 | .thc => 11 | .secG => 12 | .mgt => 13 | .bst => 14 | .glbG => 15 | .relG => 16
  | .dcr => 17 | .kve => 18 | .srv => 19 | .wld => 20 | .sec => 21 | .glb => 22 | .rel => 23

/-- The block code U of a page (R460, R461; the UNIT index of R328). -/
def Page.unit : Page → Nat
  | .afd => 1 | .cnv => 2 | .dcp => 3 | .acu => 4 | .dcr => 5 | .kve => 6 | .srv => 7 | .wldG => 8 | .wld => 8
  | .mem => 9 | .noc => 10 | .fab => 11 | .fabS => 11 | .hlk => 12 | .pwr => 13 | .thc => 14 | .secG => 15
  | .sec => 15 | .mgt => 16 | .bst => 17 | .glbG => 18 | .glb => 18 | .relG => 19 | .rel => 19

/-- Is the page one of a partition (R461). -/
def Page.isPart : Page → Bool
  | .dcr => true | .kve => true | .srv => true | .wld => true | .sec => true | .glb => true | .rel => true
  | _ => false

/-- Access codes of R13. -/
inductive Acc
  | rw | ro | wo | ev
  deriving DecidableEq, Repr

/-- One row of a register table. -/
structure Field where
  page : Page
  /-- word offset in the page -/
  off : Nat
  /-- lowest bit -/
  lo : Nat
  width : Nat
  acc : Acc
  /-- configuration under R470 -/
  cfg : Bool
  /-- named a counter by its chapter (R13) -/
  counter : Bool
  /-- a 64-bit pair of R469 -/
  pair : Bool
  reset : Nat
  deriving DecidableEq, Repr

/-- BLOCK_CTL.EN of a page (R466). -/
def fieldEN (p : Page) : Field := ⟨p, 0x008, 0, 1, .rw, false, false, false, 0⟩
/-- BLOCK_EVT.CONFIG_REFUSED, bit 0 on every page (R466). -/
def fieldConfigRefused (p : Page) : Field := ⟨p, 0x010, 0, 1, .ev, false, false, false, 0⟩
/-- BLOCK_RACE_CNT (R466). -/
def fieldRaceCnt (p : Page) : Field := ⟨p, 0x7F8, 0, 32, .ro, false, true, false, 0⟩
/-- BLOCK_REFUSED_CNT (R466). -/
def fieldRefusedCnt (p : Page) : Field := ⟨p, 0x7FC, 0, 32, .ro, false, true, false, 0⟩

/-- R63 CALIBRATED -/
def R.AFD.STAT_CALIBRATED : Field := ⟨.afd, 0x00C, 0, 1, .ro, false, false, false, 0⟩
/-- R63 THERMAL_HALVED -/
def R.AFD.STAT_THERMAL_HALVED : Field := ⟨.afd, 0x00C, 1, 1, .ro, false, false, false, 0⟩
/-- R63 BUSY -/
def R.AFD.STAT_BUSY : Field := ⟨.afd, 0x00C, 2, 1, .ro, false, false, false, 0⟩
/-- R63 CONFIG_REFUSED -/
def R.AFD.EVT_CONFIG_REFUSED : Field := ⟨.afd, 0x010, 0, 1, .ev, false, false, false, 0⟩
/-- R63 NOT_CALIBRATED -/
def R.AFD.EVT_NOT_CALIBRATED : Field := ⟨.afd, 0x010, 1, 1, .ev, false, false, false, 0⟩
/-- R63 GUARD_LIMIT -/
def R.AFD.EVT_GUARD_LIMIT : Field := ⟨.afd, 0x010, 2, 1, .ev, false, false, false, 0⟩
/-- R63 READ_SPLIT -/
def R.AFD.EVT_READ_SPLIT : Field := ⟨.afd, 0x010, 3, 1, .ev, false, false, false, 0⟩
/-- R63 SIGN_FALLBACK -/
def R.AFD.EVT_SIGN_FALLBACK : Field := ⟨.afd, 0x010, 4, 1, .ev, false, false, false, 0⟩
/-- R63 MAP_SWAPPED -/
def R.AFD.EVT_MAP_SWAPPED : Field := ⟨.afd, 0x010, 5, 1, .ev, false, false, false, 0⟩
/-- R63 AFD_CAP.CAP -/
def R.AFD.CAP_CAP : Field := ⟨.afd, 0x014, 0, 9, .rw, false, false, false, 384⟩
/-- R63 AFD_CAP.EFF_CAP -/
def R.AFD.CAP_EFF_CAP : Field := ⟨.afd, 0x014, 16, 9, .ro, false, false, false, 384⟩
/-- R63 AFD_GUARD.GUARD_CODE -/
def R.AFD.GUARD_GUARD_CODE : Field := ⟨.afd, 0x018, 0, 4, .rw, true, false, false, 15⟩
/-- R63 AFD_SPLIT_CNT -/
def R.AFD.SPLIT_CNT : Field := ⟨.afd, 0x01C, 0, 32, .ro, false, true, false, 0⟩
/-- R63 AFD_READ_SPLIT_CNT -/
def R.AFD.READ_SPLIT_CNT : Field := ⟨.afd, 0x020, 0, 32, .ro, false, true, false, 0⟩
/-- R63 AFD_SIGN_FALLBACK_CNT -/
def R.AFD.SIGN_FALLBACK_CNT : Field := ⟨.afd, 0x024, 0, 32, .ro, false, true, false, 0⟩
/-- R63 AFD_TIER_SWITCH_CNT -/
def R.AFD.TIER_SWITCH_CNT : Field := ⟨.afd, 0x028, 0, 32, .ro, false, true, false, 0⟩
/-- R63 AFD_MAP_ADDR.ARRAY -/
def R.AFD.MAP_ADDR_ARRAY : Field := ⟨.afd, 0x030, 0, 16, .rw, false, false, false, 0⟩
/-- R63 AFD_MAP_ADDR.ENTRY -/
def R.AFD.MAP_ADDR_ENTRY : Field := ⟨.afd, 0x030, 16, 5, .rw, false, false, false, 0⟩
/-- R63 AFD_MAP_ADDR.TABLE -/
def R.AFD.MAP_ADDR_TABLE : Field := ⟨.afd, 0x030, 24, 1, .rw, false, false, false, 0⟩
/-- R63 AFD_MAP_ADDR.BUF -/
def R.AFD.MAP_ADDR_BUF : Field := ⟨.afd, 0x030, 25, 1, .ro, false, false, false, 1⟩
/-- R63 AFD_MAP_DATA -/
def R.AFD.MAP_DATA : Field := ⟨.afd, 0x034, 0, 32, .rw, false, false, false, 0⟩
/-- R63 AFD_MAP_SWAP.SWAP -/
def R.AFD.MAP_SWAP_SWAP : Field := ⟨.afd, 0x038, 0, 1, .wo, false, false, false, 0⟩
/-- R63 AFD_MAP_SWAP.PENDING -/
def R.AFD.MAP_SWAP_PENDING : Field := ⟨.afd, 0x038, 1, 1, .ro, false, false, false, 0⟩
/-- R66 CONFIG_REFUSED -/
def R.CNV.EVT_CONFIG_REFUSED : Field := ⟨.cnv, 0x010, 0, 1, .ev, false, false, false, 0⟩
/-- R66 SELFCAL_DONE -/
def R.CNV.EVT_SELFCAL_DONE : Field := ⟨.cnv, 0x010, 1, 1, .ev, false, false, false, 0⟩
/-- R66 SELFCAL_FAIL -/
def R.CNV.EVT_SELFCAL_FAIL : Field := ⟨.cnv, 0x010, 2, 1, .ev, false, false, false, 0⟩
/-- R66 TRIM_SWAPPED -/
def R.CNV.EVT_TRIM_SWAPPED : Field := ⟨.cnv, 0x010, 3, 1, .ev, false, false, false, 0⟩
/-- R66 CNV_SELFCAL.START -/
def R.CNV.SELFCAL_START : Field := ⟨.cnv, 0x014, 0, 1, .wo, false, false, false, 0⟩
/-- R66 CNV_SELFCAL.SCOPE -/
def R.CNV.SELFCAL_SCOPE : Field := ⟨.cnv, 0x014, 1, 1, .rw, false, false, false, 0⟩
/-- R66 CNV_SELFCAL.TILE -/
def R.CNV.SELFCAL_TILE : Field := ⟨.cnv, 0x014, 16, 10, .rw, false, false, false, 0⟩
/-- R66 CNV_SELFCAL_STAT.BUSY -/
def R.CNV.SELFCAL_STAT_BUSY : Field := ⟨.cnv, 0x018, 0, 1, .ro, false, false, false, 0⟩
/-- R66 CNV_SELFCAL_STAT.DONE -/
def R.CNV.SELFCAL_STAT_DONE : Field := ⟨.cnv, 0x018, 1, 1, .ro, false, false, false, 0⟩
/-- R66 CNV_SELFCAL_STAT.FAILED -/
def R.CNV.SELFCAL_STAT_FAILED : Field := ⟨.cnv, 0x018, 8, 24, .ro, false, false, false, 0⟩
/-- R66 CNV_SETTLE.SETTLE -/
def R.CNV.SETTLE_SETTLE : Field := ⟨.cnv, 0x01C, 0, 5, .rw, true, false, false, 8⟩
/-- R66 CNV_TIMER.DELAY -/
def R.CNV.TIMER_DELAY : Field := ⟨.cnv, 0x020, 0, 9, .rw, true, false, false, 0⟩
/-- R66 CNV_TRIM_CTL.ACTIVE_BUF -/
def R.CNV.TRIM_CTL_ACTIVE_BUF : Field := ⟨.cnv, 0x024, 0, 1, .ro, false, false, false, 0⟩
/-- R66 CNV_TRIM_CTL.PENDING -/
def R.CNV.TRIM_CTL_PENDING : Field := ⟨.cnv, 0x024, 1, 1, .ro, false, false, false, 0⟩
/-- R66 CNV_TRIM_CTL.SWAP -/
def R.CNV.TRIM_CTL_SWAP : Field := ⟨.cnv, 0x024, 8, 1, .wo, false, false, false, 0⟩
/-- R66 CNV_TRIM_ADDR.ARRAY -/
def R.CNV.TRIM_ADDR_ARRAY : Field := ⟨.cnv, 0x028, 0, 16, .rw, false, false, false, 0⟩
/-- R66 CNV_TRIM_ADDR.CONV -/
def R.CNV.TRIM_ADDR_CONV : Field := ⟨.cnv, 0x028, 16, 9, .rw, false, false, false, 0⟩
/-- R66 CNV_TRIM_DATA0 -/
def R.CNV.TRIM_DATA0 : Field := ⟨.cnv, 0x02C, 0, 32, .rw, false, false, false, 0⟩
/-- R66 CNV_TRIM_DATA1 -/
def R.CNV.TRIM_DATA1 : Field := ⟨.cnv, 0x030, 0, 32, .rw, false, false, false, 0⟩
/-- R66 CNV_ABORT_REPEAT_CNT -/
def R.CNV.ABORT_REPEAT_CNT : Field := ⟨.cnv, 0x034, 0, 32, .ro, false, true, false, 0⟩
/-- R97 ESC_EXHAUSTED -/
def R.DCP.EVT_ESC_EXHAUSTED : Field := ⟨.dcp, 0x010, 16, 1, .ev, false, false, false, 0⟩
/-- R97 INVALID_BLOCK -/
def R.DCP.EVT_INVALID_BLOCK : Field := ⟨.dcp, 0x010, 17, 1, .ev, false, false, false, 0⟩
/-- R97 DCP_ESC_CTL.TOP_RUNG -/
def R.DCP.ESC_CTL_TOP_RUNG : Field := ⟨.dcp, 0x100, 0, 2, .rw, true, false, false, 3⟩
/-- R97 DCP_ESC_CTL.LAYER_MODE -/
def R.DCP.ESC_CTL_LAYER_MODE : Field := ⟨.dcp, 0x100, 8, 1, .rw, true, false, false, 0⟩
/-- R97 DCP_ESC_CTL.LAYER_THRESH -/
def R.DCP.ESC_CTL_LAYER_THRESH : Field := ⟨.dcp, 0x100, 16, 8, .rw, true, false, false, 16⟩
/-- R97 DCP_ESC_RUNG1_CNT -/
def R.DCP.ESC_RUNG1_CNT : Field := ⟨.dcp, 0x104, 0, 32, .ro, false, true, false, 0⟩
/-- R97 DCP_ESC_RUNG2_CNT -/
def R.DCP.ESC_RUNG2_CNT : Field := ⟨.dcp, 0x108, 0, 32, .ro, false, true, false, 0⟩
/-- R97 DCP_ESC_RUNG3_CNT -/
def R.DCP.ESC_RUNG3_CNT : Field := ⟨.dcp, 0x10C, 0, 32, .ro, false, true, false, 0⟩
/-- R97 DCP_ESC_EXHAUST_CNT -/
def R.DCP.ESC_EXHAUST_CNT : Field := ⟨.dcp, 0x110, 0, 32, .ro, false, true, false, 0⟩
/-- R97 DCP_SAT_BLOCK_CNT -/
def R.DCP.SAT_BLOCK_CNT : Field := ⟨.dcp, 0x114, 0, 32, .ro, false, true, false, 0⟩
/-- R97 DCP_INVALID_BLOCK_CNT -/
def R.DCP.INVALID_BLOCK_CNT : Field := ⟨.dcp, 0x118, 0, 32, .ro, false, true, false, 0⟩
/-- R97 DCP_ZERO_BLOCK_CNT -/
def R.DCP.ZERO_BLOCK_CNT : Field := ⟨.dcp, 0x11C, 0, 32, .ro, false, true, false, 0⟩
/-- R124 BUSY -/
def R.DCP.STAT_BUSY : Field := ⟨.dcp, 0x00C, 0, 1, .ro, false, false, false, 0⟩
/-- R124 DRIFT_PENDING -/
def R.DCP.STAT_DRIFT_PENDING : Field := ⟨.dcp, 0x00C, 1, 1, .ro, false, false, false, 0⟩
/-- R124 CONFIG_REFUSED -/
def R.DCP.EVT_CONFIG_REFUSED : Field := ⟨.dcp, 0x010, 0, 1, .ev, false, false, false, 0⟩
/-- R124 CK_ALARM -/
def R.DCP.EVT_CK_ALARM : Field := ⟨.dcp, 0x010, 1, 1, .ev, false, false, false, 0⟩
/-- R124 RANGE_RESAT -/
def R.DCP.EVT_RANGE_RESAT : Field := ⟨.dcp, 0x010, 2, 1, .ev, false, false, false, 0⟩
/-- R124 DRIFT_LIMIT -/
def R.DCP.EVT_DRIFT_LIMIT : Field := ⟨.dcp, 0x010, 3, 1, .ev, false, false, false, 0⟩
/-- R124 DRIFT_FROZEN -/
def R.DCP.EVT_DRIFT_FROZEN : Field := ⟨.dcp, 0x010, 4, 1, .ev, false, false, false, 0⟩
/-- R124 CORR_POISON -/
def R.DCP.EVT_CORR_POISON : Field := ⟨.dcp, 0x010, 5, 1, .ev, false, false, false, 0⟩
/-- R124 BUDGET_REFUSED -/
def R.DCP.EVT_BUDGET_REFUSED : Field := ⟨.dcp, 0x010, 6, 1, .ev, false, false, false, 0⟩
/-- R124 DCP_CK_CTL.CK_EN -/
def R.DCP.CK_CTL_CK_EN : Field := ⟨.dcp, 0x014, 0, 1, .rw, true, false, false, 1⟩
/-- R124 DCP_CK_CTL.CK_WIDEN -/
def R.DCP.CK_CTL_CK_WIDEN : Field := ⟨.dcp, 0x014, 1, 1, .rw, true, false, false, 1⟩
/-- R124 DCP_CK_CTL.CK_TOL -/
def R.DCP.CK_CTL_CK_TOL : Field := ⟨.dcp, 0x014, 8, 8, .rw, true, false, false, 24⟩
/-- R124 DCP_CK_CTL.CK_RES -/
def R.DCP.CK_CTL_CK_RES : Field := ⟨.dcp, 0x014, 16, 8, .rw, true, false, false, 20⟩
/-- R124 DCP_DRIFT_CTL.DRIFT_EN -/
def R.DCP.DRIFT_CTL_DRIFT_EN : Field := ⟨.dcp, 0x018, 0, 1, .rw, true, false, false, 1⟩
/-- R124 DCP_DRIFT_CTL.DRIFT_SHIFT -/
def R.DCP.DRIFT_CTL_DRIFT_SHIFT : Field := ⟨.dcp, 0x018, 4, 3, .rw, true, false, false, 2⟩
/-- R124 DCP_DRIFT_CTL.DRIFT_ZMIN -/
def R.DCP.DRIFT_CTL_DRIFT_ZMIN : Field := ⟨.dcp, 0x018, 8, 8, .rw, true, false, false, 4⟩
/-- R124 DCP_CK_ALARM_CNT -/
def R.DCP.CK_ALARM_CNT : Field := ⟨.dcp, 0x020, 0, 32, .ro, false, true, false, 0⟩
/-- R124 DCP_CK_CHECK_CNT -/
def R.DCP.CK_CHECK_CNT : Field := ⟨.dcp, 0x024, 0, 64, .ro, false, true, true, 0⟩
/-- R124 DCP_CK_SKIP_CNT -/
def R.DCP.CK_SKIP_CNT : Field := ⟨.dcp, 0x02C, 0, 32, .ro, false, true, false, 0⟩
/-- R124 DCP_RANGE_PASS_CNT -/
def R.DCP.RANGE_PASS_CNT : Field := ⟨.dcp, 0x030, 0, 32, .ro, false, true, false, 0⟩
/-- R124 DCP_RANGE_RESAT_CNT -/
def R.DCP.RANGE_RESAT_CNT : Field := ⟨.dcp, 0x034, 0, 32, .ro, false, true, false, 0⟩
/-- R124 DCP_DRIFT_LIMIT_CNT -/
def R.DCP.DRIFT_LIMIT_CNT : Field := ⟨.dcp, 0x038, 0, 32, .ro, false, true, false, 0⟩
/-- R124 DCP_DRIFT_FROZEN_CNT -/
def R.DCP.DRIFT_FROZEN_CNT : Field := ⟨.dcp, 0x03C, 0, 32, .ro, false, true, false, 0⟩
/-- R124 DCP_CORR_POISON_CNT -/
def R.DCP.CORR_POISON_CNT : Field := ⟨.dcp, 0x040, 0, 32, .ro, false, true, false, 0⟩
/-- R124 DCP_CORR_MISSING_CNT -/
def R.DCP.CORR_MISSING_CNT : Field := ⟨.dcp, 0x044, 0, 32, .ro, false, true, false, 0⟩
/-- R124 DCP_CORR_BYTES -/
def R.DCP.CORR_BYTES : Field := ⟨.dcp, 0x048, 0, 64, .ro, false, false, true, 0⟩
/-- R124 DCP_CORR_LIMIT -/
def R.DCP.CORR_LIMIT : Field := ⟨.dcp, 0x050, 0, 32, .ro, false, false, false, 0x18000⟩
/-- R124 DCP_DRIFT_ADDR.ARRAY -/
def R.DCP.DRIFT_ADDR_ARRAY : Field := ⟨.dcp, 0x060, 0, 16, .rw, false, false, false, 0⟩
/-- R124 DCP_DRIFT_ADDR.TIER -/
def R.DCP.DRIFT_ADDR_TIER : Field := ⟨.dcp, 0x060, 16, 4, .rw, false, false, false, 0⟩
/-- R124 DCP_DRIFT_ADDR.STACK -/
def R.DCP.DRIFT_ADDR_STACK : Field := ⟨.dcp, 0x060, 20, 2, .rw, false, false, false, 0⟩
/-- R124 DCP_DRIFT_DATA -/
def R.DCP.DRIFT_DATA : Field := ⟨.dcp, 0x064, 0, 32, .ro, false, false, false, 32768⟩
/-- R150 BUSY -/
def R.ACU.STAT_BUSY : Field := ⟨.acu, 0x00C, 0, 1, .ro, false, false, false, 0⟩
/-- R150 REPLAY_ACTIVE -/
def R.ACU.STAT_REPLAY_ACTIVE : Field := ⟨.acu, 0x00C, 1, 1, .ro, false, false, false, 0⟩
/-- R150 CONFIG_REFUSED -/
def R.ACU.EVT_CONFIG_REFUSED : Field := ⟨.acu, 0x010, 0, 1, .ev, false, false, false, 0⟩
/-- R150 SLOT_SAT -/
def R.ACU.EVT_SLOT_SAT : Field := ⟨.acu, 0x010, 1, 1, .ev, false, false, false, 0⟩
/-- R150 WIDE_LIMIT -/
def R.ACU.EVT_WIDE_LIMIT : Field := ⟨.acu, 0x010, 2, 1, .ev, false, false, false, 0⟩
/-- R150 WINDOW_REFUSED -/
def R.ACU.EVT_WINDOW_REFUSED : Field := ⟨.acu, 0x010, 3, 1, .ev, false, false, false, 0⟩
/-- R150 BUSY_WRITE -/
def R.ACU.EVT_BUSY_WRITE : Field := ⟨.acu, 0x010, 4, 1, .ev, false, false, false, 0⟩
/-- R150 TOPK_DESC_ERR -/
def R.ACU.EVT_TOPK_DESC_ERR : Field := ⟨.acu, 0x010, 5, 1, .ev, false, false, false, 0⟩
/-- R150 TOPK_POISON -/
def R.ACU.EVT_TOPK_POISON : Field := ⟨.acu, 0x010, 6, 1, .ev, false, false, false, 0⟩
/-- R150 ACU_PROMO.CADENCE -/
def R.ACU.PROMO_CADENCE : Field := ⟨.acu, 0x014, 0, 7, .rw, true, false, false, 8⟩
/-- R150 ACU_SAT_CNT -/
def R.ACU.SAT_CNT : Field := ⟨.acu, 0x018, 0, 32, .ro, false, true, false, 0⟩
/-- R150 ACU_REPLAY_CNT -/
def R.ACU.REPLAY_CNT : Field := ⟨.acu, 0x01C, 0, 32, .ro, false, true, false, 0⟩
/-- R150 ACU_PROMO_CNT -/
def R.ACU.PROMO_CNT : Field := ⟨.acu, 0x020, 0, 64, .ro, false, true, true, 0⟩
/-- R150 ACU_WIDE_LIMIT_CNT -/
def R.ACU.WIDE_LIMIT_CNT : Field := ⟨.acu, 0x028, 0, 32, .ro, false, true, false, 0⟩
/-- R150 ACU_BUSY_WRITE_CNT -/
def R.ACU.BUSY_WRITE_CNT : Field := ⟨.acu, 0x02C, 0, 32, .ro, false, true, false, 0⟩
/-- R150 ACU_WINDOW_REFUSED_CNT -/
def R.ACU.WINDOW_REFUSED_CNT : Field := ⟨.acu, 0x030, 0, 32, .ro, false, true, false, 0⟩
/-- R150 ACU_TOPK_CNT -/
def R.ACU.TOPK_CNT : Field := ⟨.acu, 0x034, 0, 64, .ro, false, true, true, 0⟩
/-- R150 ACU_TOPK_ERR_CNT -/
def R.ACU.TOPK_ERR_CNT : Field := ⟨.acu, 0x03C, 0, 32, .ro, false, true, false, 0⟩
/-- R150 ACU_TOPK_POISON_CNT -/
def R.ACU.TOPK_POISON_CNT : Field := ⟨.acu, 0x040, 0, 32, .ro, false, true, false, 0⟩
/-- R150 ACU_MARKED_CNT -/
def R.ACU.MARKED_CNT : Field := ⟨.acu, 0x044, 0, 32, .ro, false, true, false, 0⟩
/-- R150 ACU_WIN_BASE -/
def R.ACU.WIN_BASE : Field := ⟨.acu, 0x048, 0, 64, .ro, false, false, true, 0x8000000000⟩
/-- R174 PROGRAMMING -/
def R.WLDG.STAT_PROGRAMMING : Field := ⟨.wldG, 0x00C, 0, 1, .ro, false, false, false, 0⟩
/-- R174 CONFIG_REFUSED -/
def R.WLDG.EVT_CONFIG_REFUSED : Field := ⟨.wldG, 0x010, 0, 1, .ev, false, false, false, 0⟩
/-- R174 WEAR_REACHED -/
def R.WLDG.EVT_WEAR_REACHED : Field := ⟨.wldG, 0x010, 1, 1, .ev, false, false, false, 0⟩
/-- R174 PROG_CELL_FAIL -/
def R.WLDG.EVT_PROG_CELL_FAIL : Field := ⟨.wldG, 0x010, 2, 1, .ev, false, false, false, 0⟩
/-- R174 WLD_PROG_RATE.RATE -/
def R.WLDG.PROG_RATE_RATE : Field := ⟨.wldG, 0x014, 0, 8, .rw, false, false, false, 128⟩
/-- R174 WLD_WEAR_ADDR.ARRAY -/
def R.WLDG.WEAR_ADDR_ARRAY : Field := ⟨.wldG, 0x018, 0, 16, .rw, false, false, false, 0⟩
/-- R174 WLD_WEAR_ADDR.TIER -/
def R.WLDG.WEAR_ADDR_TIER : Field := ⟨.wldG, 0x018, 16, 4, .rw, false, false, false, 0⟩
/-- R174 WLD_WEAR_ADDR.STACK -/
def R.WLDG.WEAR_ADDR_STACK : Field := ⟨.wldG, 0x018, 20, 4, .rw, false, false, false, 0⟩
/-- R174 WLD_WEAR_DATA.COUNT -/
def R.WLDG.WEAR_DATA_COUNT : Field := ⟨.wldG, 0x01C, 0, 16, .ro, false, false, false, 0⟩
/-- R174 WLD_WEAR_DATA.WORN -/
def R.WLDG.WEAR_DATA_WORN : Field := ⟨.wldG, 0x01C, 16, 1, .ro, false, false, false, 0⟩
/-- R174 WLD_WEAR_LIMIT -/
def R.WLDG.WEAR_LIMIT : Field := ⟨.wldG, 0x020, 0, 16, .ro, false, false, false, 10000⟩
/-- R174 WLD_TRAINS -/
def R.WLDG.TRAINS : Field := ⟨.wldG, 0x024, 0, 64, .ro, false, true, true, 0⟩
/-- R174 WLD_PROG_FAIL_CNT -/
def R.WLDG.PROG_FAIL_CNT : Field := ⟨.wldG, 0x02C, 0, 32, .ro, false, true, false, 0⟩
/-- R174 WLD_REFETCH_CNT -/
def R.WLDG.REFETCH_CNT : Field := ⟨.wldG, 0x030, 0, 32, .ro, false, true, false, 0⟩
/-- R174 WLD_FETCH_BYTES -/
def R.WLDG.FETCH_BYTES : Field := ⟨.wldG, 0x034, 0, 64, .ro, false, true, true, 0⟩
/-- R174 WLD_FAULT_OVF_CNT -/
def R.WLDG.FAULT_OVF_CNT : Field := ⟨.wldG, 0x03C, 0, 32, .ro, false, true, false, 0⟩
/-- R175 LOADING -/
def R.WLD.STAT_LOADING : Field := ⟨.wld, 0x00C, 0, 1, .ro, false, false, false, 0⟩
/-- R175 SWITCH_PENDING -/
def R.WLD.STAT_SWITCH_PENDING : Field := ⟨.wld, 0x00C, 1, 1, .ro, false, false, false, 0⟩
/-- R175 ACTIVE_BUF -/
def R.WLD.STAT_ACTIVE_BUF : Field := ⟨.wld, 0x00C, 2, 1, .ro, false, false, false, 0⟩
/-- R175 SLOWER_TIER -/
def R.WLD.STAT_SLOWER_TIER : Field := ⟨.wld, 0x00C, 3, 1, .ro, false, false, false, 0⟩
/-- R175 HAS_MODEL -/
def R.WLD.STAT_HAS_MODEL : Field := ⟨.wld, 0x00C, 4, 1, .ro, false, false, false, 0⟩
/-- R175 CONFIG_REFUSED -/
def R.WLD.EVT_CONFIG_REFUSED : Field := ⟨.wld, 0x010, 0, 1, .ev, false, false, false, 0⟩
/-- R175 LOAD_DONE -/
def R.WLD.EVT_LOAD_DONE : Field := ⟨.wld, 0x010, 1, 1, .ev, false, false, false, 0⟩
/-- R175 LOAD_FAILED -/
def R.WLD.EVT_LOAD_FAILED : Field := ⟨.wld, 0x010, 2, 1, .ev, false, false, false, 0⟩
/-- R175 LOAD_REFUSED -/
def R.WLD.EVT_LOAD_REFUSED : Field := ⟨.wld, 0x010, 3, 1, .ev, false, false, false, 0⟩
/-- R175 SWITCHED -/
def R.WLD.EVT_SWITCHED : Field := ⟨.wld, 0x010, 4, 1, .ev, false, false, false, 0⟩
/-- R175 SWITCH_REFUSED -/
def R.WLD.EVT_SWITCH_REFUSED : Field := ⟨.wld, 0x010, 5, 1, .ev, false, false, false, 0⟩
/-- R175 WLD_LOAD_PTR -/
def R.WLD.LOAD_PTR : Field := ⟨.wld, 0x014, 0, 64, .rw, false, false, true, 0⟩
/-- R175 WLD_LOAD_CTL.START -/
def R.WLD.LOAD_CTL_START : Field := ⟨.wld, 0x01C, 0, 1, .wo, false, false, false, 0⟩
/-- R175 WLD_LOAD_CTL.ABORT -/
def R.WLD.LOAD_CTL_ABORT : Field := ⟨.wld, 0x01C, 1, 1, .wo, false, false, false, 0⟩
/-- R175 WLD_LOAD_CTL.RETIRE -/
def R.WLD.LOAD_CTL_RETIRE : Field := ⟨.wld, 0x01C, 2, 1, .wo, false, false, false, 0⟩
/-- R175 WLD_LOAD_STAT.STATUS -/
def R.WLD.LOAD_STAT_STATUS : Field := ⟨.wld, 0x020, 0, 8, .ro, false, false, false, 0⟩
/-- R175 WLD_SHARDS_DONE -/
def R.WLD.SHARDS_DONE : Field := ⟨.wld, 0x024, 0, 32, .ro, false, false, false, 0⟩
/-- R175 WLD_SHARDS_TOTAL -/
def R.WLD.SHARDS_TOTAL : Field := ⟨.wld, 0x028, 0, 32, .ro, false, false, false, 0⟩
/-- R175 WLD_FAIL_SHARD -/
def R.WLD.FAIL_SHARD : Field := ⟨.wld, 0x02C, 0, 32, .ro, false, false, false, 0xffffffff⟩
/-- R175 WLD_PLACE_A -/
def R.WLD.PLACE_A : Field := ⟨.wld, 0x030, 0, 64, .rw, false, false, true, 0⟩
/-- R175 WLD_PLACE_B -/
def R.WLD.PLACE_B : Field := ⟨.wld, 0x038, 0, 64, .rw, false, false, true, 0⟩
/-- R175 WLD_SWITCH.SWITCH -/
def R.WLD.SWITCH_SWITCH : Field := ⟨.wld, 0x040, 0, 1, .wo, false, false, false, 0⟩
/-- R175 WLD_SWITCH.MODE -/
def R.WLD.SWITCH_MODE : Field := ⟨.wld, 0x040, 1, 1, .rw, false, false, false, 0⟩
/-- R175 WLD_GEN -/
def R.WLD.GEN : Field := ⟨.wld, 0x044, 0, 64, .ro, false, false, true, 0⟩
/-- R175 WLD_PLACE_COLLIDE -/
def R.WLD.PLACE_COLLIDE : Field := ⟨.wld, 0x04C, 0, 32, .ro, false, false, false, 0⟩
/-- R175 WLD_DIGITAL_LAYERS -/
def R.WLD.DIGITAL_LAYERS : Field := ⟨.wld, 0x050, 0, 16, .ro, false, false, false, 0⟩
/-- R488 WLD_CARRIED_TIERS -/
def R.WLD.CARRIED_TIERS : Field := ⟨.wld, 0x054, 0, 32, .ro, false, true, false, 0⟩
/-- R488 WLD_SKIPPED_SHARDS -/
def R.WLD.SKIPPED_SHARDS : Field := ⟨.wld, 0x058, 0, 32, .ro, false, true, false, 0⟩
/-- R212 RUNNING -/
def R.DCR.STAT_RUNNING : Field := ⟨.dcr, 0x00C, 0, 1, .ro, false, false, false, 0⟩
/-- R212 VERIFYING -/
def R.DCR.STAT_VERIFYING : Field := ⟨.dcr, 0x00C, 1, 1, .ro, false, false, false, 0⟩
/-- R212 VERIFIED -/
def R.DCR.STAT_VERIFIED : Field := ⟨.dcr, 0x00C, 2, 1, .ro, false, false, false, 0⟩
/-- R212 HALTED -/
def R.DCR.STAT_HALTED : Field := ⟨.dcr, 0x00C, 3, 1, .ro, false, false, false, 0⟩
/-- R212 CONFIG_REFUSED -/
def R.DCR.EVT_CONFIG_REFUSED : Field := ⟨.dcr, 0x010, 0, 1, .ev, false, false, false, 0⟩
/-- R212 SET_OK -/
def R.DCR.EVT_SET_OK : Field := ⟨.dcr, 0x010, 1, 1, .ev, false, false, false, 0⟩
/-- R212 SET_REJECTED -/
def R.DCR.EVT_SET_REJECTED : Field := ⟨.dcr, 0x010, 2, 1, .ev, false, false, false, 0⟩
/-- R212 CORE_FAULT -/
def R.DCR.EVT_CORE_FAULT : Field := ⟨.dcr, 0x010, 3, 1, .ev, false, false, false, 0⟩
/-- R212 STEP_HALTED -/
def R.DCR.EVT_STEP_HALTED : Field := ⟨.dcr, 0x010, 4, 1, .ev, false, false, false, 0⟩
/-- R212 INT_SAT -/
def R.DCR.EVT_INT_SAT : Field := ⟨.dcr, 0x010, 5, 1, .ev, false, false, false, 0⟩
/-- R212 SCRATCH_PARITY -/
def R.DCR.EVT_SCRATCH_PARITY : Field := ⟨.dcr, 0x010, 6, 1, .ev, false, false, false, 0⟩
/-- R212 DCR_SET_ADDR -/
def R.DCR.SET_ADDR : Field := ⟨.dcr, 0x014, 0, 64, .rw, false, false, true, 0⟩
/-- R212 DCR_SET_CTL.VERIFY -/
def R.DCR.SET_CTL_VERIFY : Field := ⟨.dcr, 0x01C, 0, 1, .wo, false, false, false, 0⟩
/-- R212 DCR_SET_STAT.CODE -/
def R.DCR.SET_STAT_CODE : Field := ⟨.dcr, 0x020, 0, 8, .ro, false, false, false, 0⟩
/-- R212 DCR_SET_STAT.SECTION -/
def R.DCR.SET_STAT_SECTION : Field := ⟨.dcr, 0x020, 8, 12, .ro, false, false, false, 0⟩
/-- R212 DCR_SET_ERR_OFF -/
def R.DCR.SET_ERR_OFF : Field := ⟨.dcr, 0x024, 0, 32, .ro, false, false, false, 0⟩
/-- R212 DCR_VER_GEN -/
def R.DCR.VER_GEN : Field := ⟨.dcr, 0x028, 0, 64, .ro, false, false, true, 0⟩
/-- R212 DCR_CORE_SET0.HUB0 -/
def R.DCR.CORE_SET0_HUB0 : Field := ⟨.dcr, 0x030, 0, 12, .ro, false, false, false, 0⟩
/-- R212 DCR_CORE_SET0.HUB1 -/
def R.DCR.CORE_SET0_HUB1 : Field := ⟨.dcr, 0x030, 16, 12, .ro, false, false, false, 0⟩
/-- R212 DCR_CORE_SET1.HUB2 -/
def R.DCR.CORE_SET1_HUB2 : Field := ⟨.dcr, 0x034, 0, 12, .ro, false, false, false, 0⟩
/-- R212 DCR_CORE_SET1.HUB3 -/
def R.DCR.CORE_SET1_HUB3 : Field := ⟨.dcr, 0x034, 16, 12, .ro, false, false, false, 0⟩
/-- R212 DCR_STEP_TMO -/
def R.DCR.STEP_TMO : Field := ⟨.dcr, 0x038, 0, 20, .rw, true, false, false, 10000⟩
/-- R212 DCR_FAULT_INFO.CAUSE -/
def R.DCR.FAULT_INFO_CAUSE : Field := ⟨.dcr, 0x03C, 0, 4, .ro, false, false, false, 0⟩
/-- R212 DCR_FAULT_INFO.HUB -/
def R.DCR.FAULT_INFO_HUB : Field := ⟨.dcr, 0x03C, 4, 2, .ro, false, false, false, 0⟩
/-- R212 DCR_FAULT_INFO.CORE -/
def R.DCR.FAULT_INFO_CORE : Field := ⟨.dcr, 0x03C, 6, 8, .ro, false, false, false, 0⟩
/-- R212 DCR_FAULT_INFO.GROUP -/
def R.DCR.FAULT_INFO_GROUP : Field := ⟨.dcr, 0x03C, 14, 6, .ro, false, false, false, 0⟩
/-- R212 DCR_FAULT_PC -/
def R.DCR.FAULT_PC : Field := ⟨.dcr, 0x040, 0, 14, .ro, false, false, false, 0⟩
/-- R212 DCR_FAULT_CLR.CLR -/
def R.DCR.FAULT_CLR_CLR : Field := ⟨.dcr, 0x044, 0, 1, .wo, false, false, false, 0⟩
/-- R212 DCR_ISSUE -/
def R.DCR.ISSUE : Field := ⟨.dcr, 0x048, 0, 64, .ro, false, true, true, 0⟩
/-- R212 DCR_MMA -/
def R.DCR.MMA : Field := ⟨.dcr, 0x050, 0, 64, .ro, false, true, true, 0⟩
/-- R212 DCR_FAULT_CNT -/
def R.DCR.FAULT_CNT : Field := ⟨.dcr, 0x058, 0, 32, .ro, false, true, false, 0⟩
/-- R212 DCR_ESC_CALL_CNT -/
def R.DCR.ESC_CALL_CNT : Field := ⟨.dcr, 0x05C, 0, 32, .ro, false, true, false, 0⟩
/-- R212 DCR_INT_SAT_CNT -/
def R.DCR.INT_SAT_CNT : Field := ⟨.dcr, 0x060, 0, 32, .ro, false, true, false, 0⟩
/-- R212 DCR_PARITY_CNT -/
def R.DCR.PARITY_CNT : Field := ⟨.dcr, 0x064, 0, 32, .ro, false, true, false, 0⟩
/-- R238 BUSY -/
def R.KVE.STAT_BUSY : Field := ⟨.kve, 0x00C, 0, 1, .ro, false, false, false, 0⟩
/-- R238 PRESSURE -/
def R.KVE.STAT_PRESSURE : Field := ⟨.kve, 0x00C, 1, 1, .ro, false, false, false, 0⟩
/-- R238 FLUSH_PENDING -/
def R.KVE.STAT_FLUSH_PENDING : Field := ⟨.kve, 0x00C, 2, 1, .ro, false, false, false, 0⟩
/-- R238 CONFIG_REFUSED -/
def R.KVE.EVT_CONFIG_REFUSED : Field := ⟨.kve, 0x010, 0, 1, .ev, false, false, false, 0⟩
/-- R238 PAGE_PRESSURE -/
def R.KVE.EVT_PAGE_PRESSURE : Field := ⟨.kve, 0x010, 1, 1, .ev, false, false, false, 0⟩
/-- R238 LOW_WATER -/
def R.KVE.EVT_LOW_WATER : Field := ⟨.kve, 0x010, 2, 1, .ev, false, false, false, 0⟩
/-- R238 MASK_EMPTY -/
def R.KVE.EVT_MASK_EMPTY : Field := ⟨.kve, 0x010, 3, 1, .ev, false, false, false, 0⟩
/-- R238 PAGE_POISON -/
def R.KVE.EVT_PAGE_POISON : Field := ⟨.kve, 0x010, 4, 1, .ev, false, false, false, 0⟩
/-- R238 COLLIDE -/
def R.KVE.EVT_COLLIDE : Field := ⟨.kve, 0x010, 5, 1, .ev, false, false, false, 0⟩
/-- R238 INSERT_SKIP -/
def R.KVE.EVT_INSERT_SKIP : Field := ⟨.kve, 0x010, 6, 1, .ev, false, false, false, 0⟩
/-- R238 OP_ERR -/
def R.KVE.EVT_OP_ERR : Field := ⟨.kve, 0x010, 7, 1, .ev, false, false, false, 0⟩
/-- R238 FLUSHED -/
def R.KVE.EVT_FLUSHED : Field := ⟨.kve, 0x010, 8, 1, .ev, false, false, false, 0⟩
/-- R238 KVE_POOL_BASE -/
def R.KVE.POOL_BASE : Field := ⟨.kve, 0x014, 0, 64, .rw, true, false, true, 0⟩
/-- R238 KVE_PAGE_COUNT -/
def R.KVE.PAGE_COUNT : Field := ⟨.kve, 0x01C, 0, 30, .rw, true, false, false, 0⟩
/-- R238 KVE_GEOM.POS_LAYER_BYTES -/
def R.KVE.GEOM_POS_LAYER_BYTES : Field := ⟨.kve, 0x020, 0, 13, .rw, true, false, false, 0⟩
/-- R238 KVE_GEOM.LAYERS -/
def R.KVE.GEOM_LAYERS : Field := ⟨.kve, 0x020, 16, 9, .rw, true, false, false, 0⟩
/-- R238 KVE_NODE_BASE -/
def R.KVE.NODE_BASE : Field := ⟨.kve, 0x024, 0, 64, .rw, true, false, true, 0⟩
/-- R238 KVE_NODE_COUNT -/
def R.KVE.NODE_COUNT : Field := ⟨.kve, 0x02C, 0, 30, .rw, true, false, false, 0⟩
/-- R238 KVE_BUCKET_CTL.BUCKET_LOG2 -/
def R.KVE.BUCKET_CTL_BUCKET_LOG2 : Field := ⟨.kve, 0x030, 0, 5, .rw, true, false, false, 0⟩
/-- R238 KVE_TBL_BASE -/
def R.KVE.TBL_BASE : Field := ⟨.kve, 0x034, 0, 64, .rw, true, false, true, 0⟩
/-- R238 KVE_TBL_COUNT -/
def R.KVE.TBL_COUNT : Field := ⟨.kve, 0x03C, 0, 24, .rw, true, false, false, 0⟩
/-- R238 KVE_SEQ_BASE -/
def R.KVE.SEQ_BASE : Field := ⟨.kve, 0x040, 0, 64, .rw, true, false, true, 0⟩
/-- R238 KVE_MASK_TBL -/
def R.KVE.MASK_TBL : Field := ⟨.kve, 0x048, 0, 64, .rw, true, false, true, 0⟩
/-- R238 KVE_HASH_SEED -/
def R.KVE.HASH_SEED : Field := ⟨.kve, 0x050, 0, 64, .rw, true, false, true, 0⟩
/-- R238 KVE_BOUND0 -/
def R.KVE.BOUND0 : Field := ⟨.kve, 0x058, 0, 23, .rw, true, false, false, 512⟩
/-- R238 KVE_BOUND1 -/
def R.KVE.BOUND1 : Field := ⟨.kve, 0x05C, 0, 23, .rw, true, false, false, 1024⟩
/-- R238 KVE_BOUND2 -/
def R.KVE.BOUND2 : Field := ⟨.kve, 0x060, 0, 23, .rw, true, false, false, 2048⟩
/-- R238 KVE_BOUND3 -/
def R.KVE.BOUND3 : Field := ⟨.kve, 0x064, 0, 23, .rw, true, false, false, 4096⟩
/-- R238 KVE_BOUND4 -/
def R.KVE.BOUND4 : Field := ⟨.kve, 0x068, 0, 23, .rw, true, false, false, 8192⟩
/-- R238 KVE_BOUND5 -/
def R.KVE.BOUND5 : Field := ⟨.kve, 0x06C, 0, 23, .rw, true, false, false, 16384⟩
/-- R238 KVE_BOUND6 -/
def R.KVE.BOUND6 : Field := ⟨.kve, 0x070, 0, 23, .rw, true, false, false, 0x10000⟩
/-- R238 KVE_SHARE_CTL.SHARE_EN -/
def R.KVE.SHARE_CTL_SHARE_EN : Field := ⟨.kve, 0x074, 0, 1, .rw, true, false, false, 1⟩
/-- R238 KVE_LOW_WATER -/
def R.KVE.LOW_WATER : Field := ⟨.kve, 0x078, 0, 30, .rw, false, false, false, 0⟩
/-- R238 KVE_BKT_BASE -/
def R.KVE.BKT_BASE : Field := ⟨.kve, 0x07C, 0, 64, .rw, true, false, true, 0⟩
/-- R238 KVE_TREE_CTL.FLUSH -/
def R.KVE.TREE_CTL_FLUSH : Field := ⟨.kve, 0x084, 0, 1, .wo, false, false, false, 0⟩
/-- R238 KVE_PAGES_FREE -/
def R.KVE.PAGES_FREE : Field := ⟨.kve, 0x088, 0, 30, .ro, false, false, false, 0⟩
/-- R238 KVE_PAGES_TREE -/
def R.KVE.PAGES_TREE : Field := ⟨.kve, 0x08C, 0, 30, .ro, false, false, false, 0⟩
/-- R238 KVE_NODES_UNREF -/
def R.KVE.NODES_UNREF : Field := ⟨.kve, 0x090, 0, 30, .ro, false, false, false, 0⟩
/-- R238 KVE_SEQS -/
def R.KVE.SEQS : Field := ⟨.kve, 0x094, 0, 17, .ro, false, false, false, 0⟩
/-- R238 KVE_HIT_PAGES -/
def R.KVE.HIT_PAGES : Field := ⟨.kve, 0x098, 0, 64, .ro, false, true, true, 0⟩
/-- R238 KVE_LOOKUP_PAGES -/
def R.KVE.LOOKUP_PAGES : Field := ⟨.kve, 0x0A0, 0, 64, .ro, false, true, true, 0⟩
/-- R238 KVE_COLLIDE_CNT -/
def R.KVE.COLLIDE_CNT : Field := ⟨.kve, 0x0A8, 0, 32, .ro, false, true, false, 0⟩
/-- R238 KVE_INSERT_SKIP_CNT -/
def R.KVE.INSERT_SKIP_CNT : Field := ⟨.kve, 0x0AC, 0, 32, .ro, false, true, false, 0⟩
/-- R238 KVE_EVICT_CNT -/
def R.KVE.EVICT_CNT : Field := ⟨.kve, 0x0B0, 0, 32, .ro, false, true, false, 0⟩
/-- R238 KVE_PARK_CNT -/
def R.KVE.PARK_CNT : Field := ⟨.kve, 0x0B4, 0, 32, .ro, false, true, false, 0⟩
/-- R238 KVE_MASK_EMPTY_CNT -/
def R.KVE.MASK_EMPTY_CNT : Field := ⟨.kve, 0x0B8, 0, 32, .ro, false, true, false, 0⟩
/-- R238 KVE_SPEC_NODES_CNT -/
def R.KVE.SPEC_NODES_CNT : Field := ⟨.kve, 0x0BC, 0, 32, .ro, false, true, false, 0⟩
/-- R238 KVE_SPEC_ACCEPT_CNT -/
def R.KVE.SPEC_ACCEPT_CNT : Field := ⟨.kve, 0x0C0, 0, 32, .ro, false, true, false, 0⟩
/-- R238 KVE_PAGE_POISON_CNT -/
def R.KVE.PAGE_POISON_CNT : Field := ⟨.kve, 0x0C4, 0, 32, .ro, false, true, false, 0⟩
/-- R238 KVE_OP_ERR_CNT -/
def R.KVE.OP_ERR_CNT : Field := ⟨.kve, 0x0C8, 0, 32, .ro, false, true, false, 0⟩
/-- R238 KVE_STEP_COUNT -/
def R.KVE.STEP_COUNT : Field := ⟨.kve, 0x0CC, 0, 64, .ro, false, true, true, 0⟩
/-- R268 STEP_RUNNING -/
def R.SRV.STAT_STEP_RUNNING : Field := ⟨.srv, 0x00C, 0, 1, .ro, false, false, false, 0⟩
/-- R268 IDLE -/
def R.SRV.STAT_IDLE : Field := ⟨.srv, 0x00C, 1, 1, .ro, false, false, false, 1⟩
/-- R268 CONFIG_REFUSED -/
def R.SRV.EVT_CONFIG_REFUSED : Field := ⟨.srv, 0x010, 0, 1, .ev, false, false, false, 0⟩
/-- R268 WRONG_STATE -/
def R.SRV.EVT_WRONG_STATE : Field := ⟨.srv, 0x010, 1, 1, .ev, false, false, false, 0⟩
/-- R268 REJECTED -/
def R.SRV.EVT_REJECTED : Field := ⟨.srv, 0x010, 2, 1, .ev, false, false, false, 0⟩
/-- R268 PREEMPT_DONE -/
def R.SRV.EVT_PREEMPT_DONE : Field := ⟨.srv, 0x010, 3, 1, .ev, false, false, false, 0⟩
/-- R268 PREEMPT_REFUSED -/
def R.SRV.EVT_PREEMPT_REFUSED : Field := ⟨.srv, 0x010, 4, 1, .ev, false, false, false, 0⟩
/-- R268 INTERNAL_END -/
def R.SRV.EVT_INTERNAL_END : Field := ⟨.srv, 0x010, 5, 1, .ev, false, false, false, 0⟩
/-- R268 SRV_HAMPER_BASE -/
def R.SRV.HAMPER_BASE : Field := ⟨.srv, 0x014, 0, 64, .rw, true, false, true, 0⟩
/-- R268 SRV_CNT_BASE -/
def R.SRV.CNT_BASE : Field := ⟨.srv, 0x01C, 0, 64, .rw, true, false, true, 0⟩
/-- R268 SRV_RING_BASE -/
def R.SRV.RING_BASE : Field := ⟨.srv, 0x024, 0, 64, .rw, true, false, true, 0⟩
/-- R268 SRV_RING_SIZE -/
def R.SRV.RING_SIZE : Field := ⟨.srv, 0x02C, 0, 32, .rw, true, false, false, 0⟩
/-- R268 SRV_TOK_BASE -/
def R.SRV.TOK_BASE : Field := ⟨.srv, 0x030, 0, 64, .rw, true, false, true, 0⟩
/-- R268 SRV_STEP_BASE -/
def R.SRV.STEP_BASE : Field := ⟨.srv, 0x038, 0, 64, .rw, true, false, true, 0⟩
/-- R268 SRV_LOGITS -/
def R.SRV.LOGITS : Field := ⟨.srv, 0x040, 0, 18, .rw, true, false, false, 0⟩
/-- R268 SRV_VOCAB -/
def R.SRV.VOCAB : Field := ⟨.srv, 0x044, 0, 25, .rw, true, false, false, 0⟩
/-- R268 SRV_LIMIT -/
def R.SRV.LIMIT : Field := ⟨.srv, 0x048, 0, 17, .rw, true, false, false, 0x10000⟩
/-- R268 SRV_FORM.STEP_MAX -/
def R.SRV.FORM_STEP_MAX : Field := ⟨.srv, 0x04C, 0, 15, .rw, true, false, false, 16384⟩
/-- R268 SRV_FORM.PREFILL_MAX -/
def R.SRV.FORM_PREFILL_MAX : Field := ⟨.srv, 0x04C, 16, 15, .rw, true, false, false, 8192⟩
/-- R268 SRV_FORM.CHUNK -/
def R.SRV.FORM_CHUNK : Field := ⟨.srv, 0x050, 0, 15, .rw, true, false, false, 2048⟩
/-- R268 SRV_PREEMPT.SLOT -/
def R.SRV.PREEMPT_SLOT : Field := ⟨.srv, 0x054, 0, 16, .rw, false, false, false, 0⟩
/-- R268 SRV_PREEMPT.GO -/
def R.SRV.PREEMPT_GO : Field := ⟨.srv, 0x054, 31, 1, .wo, false, false, false, 0⟩
/-- R268 SRV_END.SLOT -/
def R.SRV.END_SLOT : Field := ⟨.srv, 0x058, 0, 16, .rw, false, false, false, 0⟩
/-- R268 SRV_END.GO -/
def R.SRV.END_GO : Field := ⟨.srv, 0x058, 31, 1, .wo, false, false, false, 0⟩
/-- R268 SRV_LIVE -/
def R.SRV.LIVE : Field := ⟨.srv, 0x05C, 0, 17, .ro, false, false, false, 0⟩
/-- R268 SRV_ADMIT -/
def R.SRV.ADMIT : Field := ⟨.srv, 0x060, 0, 64, .ro, false, true, true, 0⟩
/-- R268 SRV_TOKENS -/
def R.SRV.TOKENS : Field := ⟨.srv, 0x068, 0, 64, .ro, false, true, true, 0⟩
/-- R268 SRV_STEPS -/
def R.SRV.STEPS : Field := ⟨.srv, 0x070, 0, 64, .ro, false, true, true, 0⟩
/-- R268 SRV_REJECT_CNT -/
def R.SRV.REJECT_CNT : Field := ⟨.srv, 0x078, 0, 32, .ro, false, true, false, 0⟩
/-- R268 SRV_WRONG_STATE_CNT -/
def R.SRV.WRONG_STATE_CNT : Field := ⟨.srv, 0x07C, 0, 32, .ro, false, true, false, 0⟩
/-- R268 SRV_CANCEL_CNT -/
def R.SRV.CANCEL_CNT : Field := ⟨.srv, 0x080, 0, 32, .ro, false, true, false, 0⟩
/-- R268 SRV_DEADLINE_CNT -/
def R.SRV.DEADLINE_CNT : Field := ⟨.srv, 0x084, 0, 32, .ro, false, true, false, 0⟩
/-- R268 SRV_PREEMPT_CNT -/
def R.SRV.PREEMPT_CNT : Field := ⟨.srv, 0x088, 0, 32, .ro, false, true, false, 0⟩
/-- R268 SRV_INTERNAL_CNT -/
def R.SRV.INTERNAL_CNT : Field := ⟨.srv, 0x08C, 0, 32, .ro, false, true, false, 0⟩
/-- R291 TRAINED -/
def R.MEM.STAT_TRAINED : Field := ⟨.mem, 0x00C, 0, 1, .ro, false, false, false, 0⟩
/-- R291 CLEARING -/
def R.MEM.STAT_CLEARING : Field := ⟨.mem, 0x00C, 1, 1, .ro, false, false, false, 0⟩
/-- R291 FRAME_PENDING -/
def R.MEM.STAT_FRAME_PENDING : Field := ⟨.mem, 0x00C, 2, 1, .ro, false, false, false, 0⟩
/-- R291 STACK_FAIL -/
def R.MEM.STAT_STACK_FAIL : Field := ⟨.mem, 0x00C, 4, 4, .ro, false, false, false, 0⟩
/-- R291 CONFIG_REFUSED -/
def R.MEM.EVT_CONFIG_REFUSED : Field := ⟨.mem, 0x010, 0, 1, .ev, false, false, false, 0⟩
/-- R291 CE -/
def R.MEM.EVT_CE : Field := ⟨.mem, 0x010, 1, 1, .ev, false, false, false, 0⟩
/-- R291 UE -/
def R.MEM.EVT_UE : Field := ⟨.mem, 0x010, 2, 1, .ev, false, false, false, 0⟩
/-- R291 FRAME_SWAPPED -/
def R.MEM.EVT_FRAME_SWAPPED : Field := ⟨.mem, 0x010, 3, 1, .ev, false, false, false, 0⟩
/-- R291 FRAME_REFUSED -/
def R.MEM.EVT_FRAME_REFUSED : Field := ⟨.mem, 0x010, 4, 1, .ev, false, false, false, 0⟩
/-- R291 FORCED_REFRESH -/
def R.MEM.EVT_FORCED_REFRESH : Field := ⟨.mem, 0x010, 5, 1, .ev, false, false, false, 0⟩
/-- R291 PACE_OVERRUN -/
def R.MEM.EVT_PACE_OVERRUN : Field := ⟨.mem, 0x010, 6, 1, .ev, false, false, false, 0⟩
/-- R291 WB_OVERFLOW -/
def R.MEM.EVT_WB_OVERFLOW : Field := ⟨.mem, 0x010, 7, 1, .ev, false, false, false, 0⟩
/-- R291 CLEAR_DONE -/
def R.MEM.EVT_CLEAR_DONE : Field := ⟨.mem, 0x010, 8, 1, .ev, false, false, false, 0⟩
/-- R291 TRAIN_FAIL -/
def R.MEM.EVT_TRAIN_FAIL : Field := ⟨.mem, 0x010, 9, 1, .ev, false, false, false, 0⟩
/-- R291 SCRUB_PASS -/
def R.MEM.EVT_SCRUB_PASS : Field := ⟨.mem, 0x010, 10, 1, .ev, false, false, false, 0⟩
/-- R291 MEM_TRAIN.START -/
def R.MEM.TRAIN_START : Field := ⟨.mem, 0x014, 0, 1, .wo, false, false, false, 0⟩
/-- R291 MEM_CH_OK0 -/
def R.MEM.CH_OK0 : Field := ⟨.mem, 0x018, 0, 32, .ro, false, false, false, 0⟩
/-- R291 MEM_CH_OK1 -/
def R.MEM.CH_OK1 : Field := ⟨.mem, 0x01C, 0, 32, .ro, false, false, false, 0⟩
/-- R291 MEM_CH_OK2 -/
def R.MEM.CH_OK2 : Field := ⟨.mem, 0x020, 0, 32, .ro, false, false, false, 0⟩
/-- R291 MEM_CH_OK3 -/
def R.MEM.CH_OK3 : Field := ⟨.mem, 0x024, 0, 32, .ro, false, false, false, 0⟩
/-- R291 MEM_CH_EN0 -/
def R.MEM.CH_EN0 : Field := ⟨.mem, 0x028, 0, 32, .rw, true, false, false, 0xffffffff⟩
/-- R291 MEM_CH_EN1 -/
def R.MEM.CH_EN1 : Field := ⟨.mem, 0x02C, 0, 32, .rw, true, false, false, 0xffffffff⟩
/-- R291 MEM_CH_EN2 -/
def R.MEM.CH_EN2 : Field := ⟨.mem, 0x030, 0, 32, .rw, true, false, false, 0xffffffff⟩
/-- R291 MEM_CH_EN3 -/
def R.MEM.CH_EN3 : Field := ⟨.mem, 0x034, 0, 32, .rw, true, false, false, 0xffffffff⟩
/-- R291 MEM_CAP -/
def R.MEM.CAP : Field := ⟨.mem, 0x038, 0, 10, .ro, false, false, false, 0⟩
/-- R291 MEM_FRAME_ADDR -/
def R.MEM.FRAME_ADDR : Field := ⟨.mem, 0x03C, 0, 14, .rw, false, false, false, 0⟩
/-- R291 MEM_FRAME_DATA -/
def R.MEM.FRAME_DATA : Field := ⟨.mem, 0x040, 0, 8, .rw, false, false, false, 15⟩
/-- R291 MEM_FRAME_CTL.LEN -/
def R.MEM.FRAME_CTL_LEN : Field := ⟨.mem, 0x044, 0, 15, .rw, false, false, false, 1024⟩
/-- R291 MEM_FRAME_CTL.SWAP -/
def R.MEM.FRAME_CTL_SWAP : Field := ⟨.mem, 0x044, 16, 1, .wo, false, false, false, 0⟩
/-- R291 MEM_FRAME_CTL.ACTIVE_BUF -/
def R.MEM.FRAME_CTL_ACTIVE_BUF : Field := ⟨.mem, 0x044, 17, 1, .ro, false, false, false, 0⟩
/-- R291 MEM_FRAME_ERR.SLOT -/
def R.MEM.FRAME_ERR_SLOT : Field := ⟨.mem, 0x048, 0, 14, .ro, false, false, false, 0⟩
/-- R291 MEM_FRAME_ERR.REASON -/
def R.MEM.FRAME_ERR_REASON : Field := ⟨.mem, 0x048, 16, 4, .ro, false, false, false, 0⟩
/-- R291 MEM_REF_TMAX -/
def R.MEM.REF_TMAX : Field := ⟨.mem, 0x04C, 0, 10, .ro, false, false, false, 390⟩
/-- R291 MEM_PART_SEL -/
def R.MEM.PART_SEL : Field := ⟨.mem, 0x050, 0, 4, .rw, false, false, false, 0⟩
/-- R291 MEM_PART_BASE -/
def R.MEM.PART_BASE : Field := ⟨.mem, 0x054, 0, 10, .rw, false, false, false, 0⟩
/-- R291 MEM_PART_SIZE -/
def R.MEM.PART_SIZE : Field := ⟨.mem, 0x058, 0, 11, .rw, false, false, false, 0⟩
/-- R291 MEM_PART_CTL.APPLY -/
def R.MEM.PART_CTL_APPLY : Field := ⟨.mem, 0x05C, 0, 1, .wo, false, false, false, 0⟩
/-- R291 MEM_PART_CTL.CLEARING -/
def R.MEM.PART_CTL_CLEARING : Field := ⟨.mem, 0x05C, 1, 1, .ro, false, false, false, 0⟩
/-- R291 MEM_CE_CNT -/
def R.MEM.CE_CNT : Field := ⟨.mem, 0x060, 0, 64, .ro, false, true, true, 0⟩
/-- R291 MEM_UE_CNT -/
def R.MEM.UE_CNT : Field := ⟨.mem, 0x068, 0, 32, .ro, false, true, false, 0⟩
/-- R291 MEM_POISON_READ_CNT -/
def R.MEM.POISON_READ_CNT : Field := ⟨.mem, 0x06C, 0, 32, .ro, false, true, false, 0⟩
/-- R291 MEM_POISON_WRITE_CNT -/
def R.MEM.POISON_WRITE_CNT : Field := ⟨.mem, 0x070, 0, 32, .ro, false, true, false, 0⟩
/-- R291 MEM_WB_OVF_CNT -/
def R.MEM.WB_OVF_CNT : Field := ⟨.mem, 0x074, 0, 32, .ro, false, true, false, 0⟩
/-- R291 MEM_FORCED_REF_CNT -/
def R.MEM.FORCED_REF_CNT : Field := ⟨.mem, 0x078, 0, 32, .ro, false, true, false, 0⟩
/-- R291 MEM_PACE_OVERRUN_CNT -/
def R.MEM.PACE_OVERRUN_CNT : Field := ⟨.mem, 0x07C, 0, 32, .ro, false, true, false, 0⟩
/-- R291 MEM_SCRUB_PASS_CNT -/
def R.MEM.SCRUB_PASS_CNT : Field := ⟨.mem, 0x080, 0, 32, .ro, false, true, false, 0⟩
/-- R291 MEM_ERR_ADDR -/
def R.MEM.ERR_ADDR : Field := ⟨.mem, 0x084, 0, 64, .ro, false, false, true, 0⟩
/-- R291 MEM_ERR_INFO.CHANNEL -/
def R.MEM.ERR_INFO_CHANNEL : Field := ⟨.mem, 0x08C, 0, 7, .ro, false, false, false, 0⟩
/-- R311 LOCKED -/
def R.GLB.STAT_LOCKED : Field := ⟨.glb, 0x00C, 0, 1, .ro, false, false, false, 0⟩
/-- R311 ROLL_WAIT -/
def R.GLB.STAT_ROLL_WAIT : Field := ⟨.glb, 0x00C, 1, 1, .ro, false, false, false, 0⟩
/-- R311 CONFIG_REFUSED -/
def R.GLB.EVT_CONFIG_REFUSED : Field := ⟨.glb, 0x010, 0, 1, .ev, false, false, false, 0⟩
/-- R311 CFG_ID_CHANGED -/
def R.GLB.EVT_CFG_ID_CHANGED : Field := ⟨.glb, 0x010, 1, 1, .ev, false, false, false, 0⟩
/-- R311 ND_EVENT -/
def R.GLB.EVT_ND_EVENT : Field := ⟨.glb, 0x010, 2, 1, .ev, false, false, false, 0⟩
/-- R311 DISTURBED -/
def R.GLB.EVT_DISTURBED : Field := ⟨.glb, 0x010, 3, 1, .ev, false, false, false, 0⟩
/-- R311 PACE_UNLOCK -/
def R.GLB.EVT_PACE_UNLOCK : Field := ⟨.glb, 0x010, 4, 1, .ev, false, false, false, 0⟩
/-- R311 ROLL_FAIL -/
def R.GLB.EVT_ROLL_FAIL : Field := ⟨.glb, 0x010, 5, 1, .ev, false, false, false, 0⟩
/-- R311 EXACT_UNSURE -/
def R.GLB.EVT_EXACT_UNSURE : Field := ⟨.glb, 0x010, 6, 1, .ev, false, false, false, 0⟩
/-- R311 GLB_EXACT.MODE -/
def R.GLB.EXACT_MODE : Field := ⟨.glb, 0x014, 0, 2, .rw, true, false, false, 0⟩
/-- R311 GLB_EXACT.GRID_EXP -/
def R.GLB.EXACT_GRID_EXP : Field := ⟨.glb, 0x014, 8, 4, .rw, true, false, false, 9⟩
/-- R311 GLB_CFG_ID -/
def R.GLB.CFG_ID : Field := ⟨.glb, 0x018, 0, 64, .ro, false, false, true, 0⟩
/-- R311 GLB_CFG_GEN -/
def R.GLB.CFG_GEN : Field := ⟨.glb, 0x020, 0, 32, .ro, false, true, false, 0⟩
/-- R311 GLB_ND_CNT -/
def R.GLB.ND_CNT : Field := ⟨.glb, 0x024, 0, 32, .ro, false, true, false, 0⟩
/-- R311 GLB_ND_READ_SPLIT -/
def R.GLB.ND_READ_SPLIT : Field := ⟨.glb, 0x028, 0, 32, .ro, false, true, false, 0⟩
/-- R311 GLB_ND_ESCALATE -/
def R.GLB.ND_ESCALATE : Field := ⟨.glb, 0x02C, 0, 32, .ro, false, true, false, 0⟩
/-- R311 GLB_ND_SLOT_SAT -/
def R.GLB.ND_SLOT_SAT : Field := ⟨.glb, 0x030, 0, 32, .ro, false, true, false, 0⟩
/-- R311 GLB_ND_FORCED_REF -/
def R.GLB.ND_FORCED_REF : Field := ⟨.glb, 0x034, 0, 32, .ro, false, true, false, 0⟩
/-- R311 GLB_ND_PACE_OVERRUN -/
def R.GLB.ND_PACE_OVERRUN : Field := ⟨.glb, 0x038, 0, 32, .ro, false, true, false, 0⟩
/-- R311 GLB_ND_BALANCE -/
def R.GLB.ND_BALANCE : Field := ⟨.glb, 0x03C, 0, 32, .ro, false, true, false, 0⟩
/-- R311 GLB_ND_EXACT_GUARD -/
def R.GLB.ND_EXACT_GUARD : Field := ⟨.glb, 0x040, 0, 32, .ro, false, true, false, 0⟩
/-- R311 GLB_DISTURB_CNT -/
def R.GLB.DISTURB_CNT : Field := ⟨.glb, 0x044, 0, 32, .ro, false, true, false, 0⟩
/-- R311 GLB_EXACT_UNSURE_CNT -/
def R.GLB.EXACT_UNSURE_CNT : Field := ⟨.glb, 0x048, 0, 32, .ro, false, true, false, 0⟩
/-- R311 GLB_STEP_DIGEST -/
def R.GLB.STEP_DIGEST : Field := ⟨.glb, 0x04C, 0, 64, .ro, false, false, true, 0⟩
/-- R311 GLB_STEP_HC -/
def R.GLB.STEP_HC : Field := ⟨.glb, 0x054, 0, 64, .ro, false, false, true, 0⟩
/-- R311 GLB_STEP_FLAGS -/
def R.GLB.STEP_FLAGS : Field := ⟨.glb, 0x05C, 0, 3, .ro, false, false, false, 0⟩
/-- R311 GLB_SPAN_CTL.SPAN_EN -/
def R.GLB.SPAN_CTL_SPAN_EN : Field := ⟨.glb, 0x060, 0, 1, .rw, true, false, false, 0⟩
/-- R311 GLB_SPAN_CTL.SIZE -/
def R.GLB.SPAN_CTL_SIZE : Field := ⟨.glb, 0x060, 1, 6, .rw, true, false, false, 1⟩
/-- R311 GLB_SPAN_CTL.BAL_EN -/
def R.GLB.SPAN_CTL_BAL_EN : Field := ⟨.glb, 0x060, 8, 1, .rw, true, false, false, 0⟩
/-- R311 GLB_SPAN_CTL.ROLL_RETRY -/
def R.GLB.SPAN_CTL_ROLL_RETRY : Field := ⟨.glb, 0x060, 9, 1, .wo, false, false, false, 0⟩
/-- R311 GLB_SPAN_CTL.POSITION -/
def R.GLB.SPAN_CTL_POSITION : Field := ⟨.glb, 0x060, 16, 5, .ro, false, false, false, 0⟩
/-- R311 GLB_ROLL_TMO -/
def R.GLB.ROLL_TMO : Field := ⟨.glb, 0x064, 0, 16, .rw, true, false, false, 100⟩
/-- R311 GLB_ROLL_CNT -/
def R.GLB.ROLL_CNT : Field := ⟨.glb, 0x068, 0, 32, .ro, false, true, false, 0⟩
/-- R311 GLB_ROLL_FAIL_CNT -/
def R.GLB.ROLL_FAIL_CNT : Field := ⟨.glb, 0x06C, 0, 32, .ro, false, true, false, 0⟩
/-- R336 FATAL -/
def R.RELG.STAT_FATAL : Field := ⟨.relG, 0x00C, 0, 1, .ro, false, false, false, 0⟩
/-- R336 COMMITTING -/
def R.RELG.STAT_COMMITTING : Field := ⟨.relG, 0x00C, 1, 1, .ro, false, false, false, 0⟩
/-- R336 WINDOWS_OPEN -/
def R.RELG.STAT_WINDOWS_OPEN : Field := ⟨.relG, 0x00C, 2, 6, .ro, false, false, false, 0⟩
/-- R336 CONFIG_REFUSED -/
def R.RELG.EVT_CONFIG_REFUSED : Field := ⟨.relG, 0x010, 0, 1, .ev, false, false, false, 0⟩
/-- R336 DETECTED -/
def R.RELG.EVT_DETECTED : Field := ⟨.relG, 0x010, 1, 1, .ev, false, false, false, 0⟩
/-- R336 OVERFLOW -/
def R.RELG.EVT_OVERFLOW : Field := ⟨.relG, 0x010, 2, 1, .ev, false, false, false, 0⟩
/-- R336 BB_COMMITTED -/
def R.RELG.EVT_BB_COMMITTED : Field := ⟨.relG, 0x010, 3, 1, .ev, false, false, false, 0⟩
/-- R336 FATAL_EVT -/
def R.RELG.EVT_FATAL_EVT : Field := ⟨.relG, 0x010, 4, 1, .ev, false, false, false, 0⟩
/-- R336 REL_CTL.HOST_COPY -/
def R.RELG.CTL_HOST_COPY : Field := ⟨.relG, 0x014, 0, 1, .rw, true, false, false, 0⟩
/-- R336 REL_BB_CTL.COMMIT -/
def R.RELG.BB_CTL_COMMIT : Field := ⟨.relG, 0x018, 0, 1, .wo, false, false, false, 0⟩
/-- R336 REL_BB_SLOT -/
def R.RELG.BB_SLOT : Field := ⟨.relG, 0x01C, 0, 2, .rw, false, false, false, 0⟩
/-- R336 REL_BB_ADDR -/
def R.RELG.BB_ADDR : Field := ⟨.relG, 0x020, 0, 16, .rw, false, false, false, 0⟩
/-- R336 REL_BB_DATA -/
def R.RELG.BB_DATA : Field := ⟨.relG, 0x024, 0, 32, .ro, false, false, false, 0⟩
/-- R336 REL_BB_VALID -/
def R.RELG.BB_VALID : Field := ⟨.relG, 0x028, 0, 4, .ro, false, false, false, 0⟩
/-- R336 REL_FW_REC0 -/
def R.RELG.FW_REC0 : Field := ⟨.relG, 0x02C, 0, 32, .rw, false, false, false, 0⟩
/-- R336 REL_FW_REC1 -/
def R.RELG.FW_REC1 : Field := ⟨.relG, 0x030, 0, 32, .rw, false, false, false, 0⟩
/-- R336 REL_FW_REC2 -/
def R.RELG.FW_REC2 : Field := ⟨.relG, 0x034, 0, 32, .rw, false, false, false, 0⟩
/-- R336 REL_FW_REC3 -/
def R.RELG.FW_REC3 : Field := ⟨.relG, 0x038, 0, 32, .rw, false, false, false, 0⟩
/-- R336 REL_FW_REC4 -/
def R.RELG.FW_REC4 : Field := ⟨.relG, 0x03C, 0, 32, .rw, false, false, false, 0⟩
/-- R336 REL_FW_REC5 -/
def R.RELG.FW_REC5 : Field := ⟨.relG, 0x040, 0, 32, .rw, false, false, false, 0⟩
/-- R336 REL_FW_CTL.PUSH -/
def R.RELG.FW_CTL_PUSH : Field := ⟨.relG, 0x044, 0, 1, .wo, false, false, false, 0⟩
/-- R336 REL_DETECTED_CNT -/
def R.RELG.DETECTED_CNT : Field := ⟨.relG, 0x048, 0, 32, .ro, false, true, false, 0⟩
/-- R336 REL_REPLAY_CNT -/
def R.RELG.REPLAY_CNT : Field := ⟨.relG, 0x04C, 0, 32, .ro, false, true, false, 0⟩
/-- R336 REL_TRANSIENT_CNT -/
def R.RELG.TRANSIENT_CNT : Field := ⟨.relG, 0x050, 0, 32, .ro, false, true, false, 0⟩
/-- R336 REL_PERM_CNT -/
def R.RELG.PERM_CNT : Field := ⟨.relG, 0x054, 0, 32, .ro, false, true, false, 0⟩
/-- R336 REL_RECORDS -/
def R.RELG.RECORDS : Field := ⟨.relG, 0x058, 0, 64, .ro, false, true, true, 0⟩
/-- R336 REL_COALESCED_CNT -/
def R.RELG.COALESCED_CNT : Field := ⟨.relG, 0x060, 0, 32, .ro, false, true, false, 0⟩
/-- R336 REL_OVF_CNT -/
def R.RELG.OVF_CNT : Field := ⟨.relG, 0x064, 0, 32, .ro, false, true, false, 0⟩
/-- R336 REL_BB_COMMIT_CNT -/
def R.RELG.BB_COMMIT_CNT : Field := ⟨.relG, 0x068, 0, 32, .ro, false, true, false, 0⟩
/-- R337 REPAIRING -/
def R.REL.STAT_REPAIRING : Field := ⟨.rel, 0x00C, 0, 1, .ro, false, false, false, 0⟩
/-- R337 MASKED_ANY -/
def R.REL.STAT_MASKED_ANY : Field := ⟨.rel, 0x00C, 1, 1, .ro, false, false, false, 0⟩
/-- R337 CONFIG_REFUSED -/
def R.REL.EVT_CONFIG_REFUSED : Field := ⟨.rel, 0x010, 0, 1, .ev, false, false, false, 0⟩
/-- R337 VERDICT -/
def R.REL.EVT_VERDICT : Field := ⟨.rel, 0x010, 1, 1, .ev, false, false, false, 0⟩
/-- R337 QUEUE_FULL -/
def R.REL.EVT_QUEUE_FULL : Field := ⟨.rel, 0x010, 2, 1, .ev, false, false, false, 0⟩
/-- R337 COVER_READY -/
def R.REL.EVT_COVER_READY : Field := ⟨.rel, 0x010, 3, 1, .ev, false, false, false, 0⟩
/-- R337 REPAIR_FAILED -/
def R.REL.EVT_REPAIR_FAILED : Field := ⟨.rel, 0x010, 4, 1, .ev, false, false, false, 0⟩
/-- R337 SPARE_DONE -/
def R.REL.EVT_SPARE_DONE : Field := ⟨.rel, 0x010, 5, 1, .ev, false, false, false, 0⟩
/-- R337 SPARE_FAIL -/
def R.REL.EVT_SPARE_FAIL : Field := ⟨.rel, 0x010, 6, 1, .ev, false, false, false, 0⟩
/-- R337 SPARE_REFUSED -/
def R.REL.EVT_SPARE_REFUSED : Field := ⟨.rel, 0x010, 7, 1, .ev, false, false, false, 0⟩
/-- R337 WITHDRAWN -/
def R.REL.EVT_WITHDRAWN : Field := ⟨.rel, 0x010, 8, 1, .ev, false, false, false, 0⟩
/-- R337 REL_CTL.AUTO_REPAIR -/
def R.REL.CTL_AUTO_REPAIR : Field := ⟨.rel, 0x014, 0, 1, .rw, true, false, false, 1⟩
/-- R337 REL_CTL.REPLAY_MAX -/
def R.REL.CTL_REPLAY_MAX : Field := ⟨.rel, 0x014, 4, 3, .rw, true, false, false, 2⟩
/-- R337 REL_COVER_BASE -/
def R.REL.COVER_BASE : Field := ⟨.rel, 0x018, 0, 64, .rw, true, false, true, 0⟩
/-- R337 REL_COVER_SLOTS -/
def R.REL.COVER_SLOTS : Field := ⟨.rel, 0x020, 0, 6, .rw, true, false, false, 0⟩
/-- R337 REL_VERDICT_COUNT -/
def R.REL.VERDICT_COUNT : Field := ⟨.rel, 0x024, 0, 7, .ro, false, false, false, 0⟩
/-- R337 REL_VERDICT_POP -/
def R.REL.VERDICT_POP : Field := ⟨.rel, 0x028, 0, 1, .wo, false, false, false, 0⟩
/-- R337 REL_VERDICT0.ARRAY -/
def R.REL.VERDICT0_ARRAY : Field := ⟨.rel, 0x02C, 0, 16, .ro, false, false, false, 0⟩
/-- R337 REL_VERDICT0.STACK -/
def R.REL.VERDICT0_STACK : Field := ⟨.rel, 0x02C, 16, 4, .ro, false, false, false, 0⟩
/-- R337 REL_VERDICT0.TIER -/
def R.REL.VERDICT0_TIER : Field := ⟨.rel, 0x02C, 20, 4, .ro, false, false, false, 0⟩
/-- R337 REL_VERDICT0.GROUP -/
def R.REL.VERDICT0_GROUP : Field := ⟨.rel, 0x02C, 24, 4, .ro, false, false, false, 0⟩
/-- R337 REL_VERDICT0.CAUSE -/
def R.REL.VERDICT0_CAUSE : Field := ⟨.rel, 0x02C, 28, 4, .ro, false, false, false, 0⟩
/-- R337 REL_VERDICT1.COVER -/
def R.REL.VERDICT1_COVER : Field := ⟨.rel, 0x030, 0, 2, .ro, false, false, false, 0⟩
/-- R337 REL_VERDICT1.SLOT -/
def R.REL.VERDICT1_SLOT : Field := ⟨.rel, 0x030, 8, 5, .ro, false, false, false, 0⟩
/-- R337 REL_VERDICT_STEP -/
def R.REL.VERDICT_STEP : Field := ⟨.rel, 0x034, 0, 64, .ro, false, false, true, 0⟩
/-- R337 REL_SPARE_CTL.ARRAY -/
def R.REL.SPARE_CTL_ARRAY : Field := ⟨.rel, 0x040, 0, 16, .rw, false, false, false, 0⟩
/-- R337 REL_SPARE_CTL.STACK -/
def R.REL.SPARE_CTL_STACK : Field := ⟨.rel, 0x040, 16, 4, .rw, false, false, false, 0⟩
/-- R337 REL_SPARE_CTL.MODE -/
def R.REL.SPARE_CTL_MODE : Field := ⟨.rel, 0x040, 20, 1, .rw, false, false, false, 0⟩
/-- R337 REL_SPARE_CTL.GO -/
def R.REL.SPARE_CTL_GO : Field := ⟨.rel, 0x040, 31, 1, .wo, false, false, false, 0⟩
/-- R337 REL_SPARE_PHYS -/
def R.REL.SPARE_PHYS : Field := ⟨.rel, 0x044, 0, 16, .rw, false, false, false, 0⟩
/-- R337 REL_SPARE_STAT.STATE -/
def R.REL.SPARE_STAT_STATE : Field := ⟨.rel, 0x048, 0, 2, .ro, false, false, false, 0⟩
/-- R337 REL_SPARE_STAT.FAILED -/
def R.REL.SPARE_STAT_FAILED : Field := ⟨.rel, 0x048, 8, 24, .ro, false, false, false, 0⟩
/-- R337 REL_UNAVAIL.EXPERT -/
def R.REL.UNAVAIL_EXPERT : Field := ⟨.rel, 0x050, 0, 16, .rw, false, false, false, 0⟩
/-- R337 REL_UNAVAIL.LAYER -/
def R.REL.UNAVAIL_LAYER : Field := ⟨.rel, 0x050, 16, 8, .rw, false, false, false, 0⟩
/-- R337 REL_UNAVAIL_CTL.SET -/
def R.REL.UNAVAIL_CTL_SET : Field := ⟨.rel, 0x054, 0, 1, .wo, false, false, false, 0⟩
/-- R337 REL_UNAVAIL_CTL.CLEAR -/
def R.REL.UNAVAIL_CTL_CLEAR : Field := ⟨.rel, 0x054, 1, 1, .wo, false, false, false, 0⟩
/-- R337 REL_UNAVAIL_BASE -/
def R.REL.UNAVAIL_BASE : Field := ⟨.rel, 0x058, 0, 64, .rw, true, false, true, 0⟩
/-- R337 REL_MASK_CTL.ARRAY -/
def R.REL.MASK_CTL_ARRAY : Field := ⟨.rel, 0x060, 0, 16, .rw, false, false, false, 0⟩
/-- R337 REL_MASK_CTL.STACK -/
def R.REL.MASK_CTL_STACK : Field := ⟨.rel, 0x060, 16, 4, .rw, false, false, false, 0⟩
/-- R337 REL_MASK_CTL.CLEAR -/
def R.REL.MASK_CTL_CLEAR : Field := ⟨.rel, 0x060, 31, 1, .wo, false, false, false, 0⟩
/-- R337 REL_MASKED_ARRAYS -/
def R.REL.MASKED_ARRAYS : Field := ⟨.rel, 0x064, 0, 10, .ro, false, false, false, 0⟩
/-- R337 REL_WITHDRAW_CNT -/
def R.REL.WITHDRAW_CNT : Field := ⟨.rel, 0x068, 0, 32, .ro, false, true, false, 0⟩
/-- R337 REL_COVER_MACS -/
def R.REL.COVER_MACS : Field := ⟨.rel, 0x06C, 0, 64, .ro, false, true, true, 0⟩
/-- R355 HUB_LEVEL -/
def R.THC.STAT_HUB_LEVEL : Field := ⟨.thc, 0x00C, 0, 2, .ro, false, false, false, 0⟩
/-- R355 STACK_LEVEL -/
def R.THC.STAT_STACK_LEVEL : Field := ⟨.thc, 0x00C, 2, 6, .ro, false, false, false, 0⟩
/-- R355 MEM_LEVEL -/
def R.THC.STAT_MEM_LEVEL : Field := ⟨.thc, 0x00C, 8, 8, .ro, false, false, false, 0⟩
/-- R355 CALIBRATING -/
def R.THC.STAT_CALIBRATING : Field := ⟨.thc, 0x00C, 16, 1, .ro, false, false, false, 0⟩
/-- R355 CONFIG_REFUSED -/
def R.THC.EVT_CONFIG_REFUSED : Field := ⟨.thc, 0x010, 0, 1, .ev, false, false, false, 0⟩
/-- R355 CAUTION -/
def R.THC.EVT_CAUTION : Field := ⟨.thc, 0x010, 1, 1, .ev, false, false, false, 0⟩
/-- R355 ACT -/
def R.THC.EVT_ACT : Field := ⟨.thc, 0x010, 2, 1, .ev, false, false, false, 0⟩
/-- R355 TRIP -/
def R.THC.EVT_TRIP : Field := ⟨.thc, 0x010, 3, 1, .ev, false, false, false, 0⟩
/-- R355 LOWERED -/
def R.THC.EVT_LOWERED : Field := ⟨.thc, 0x010, 4, 1, .ev, false, false, false, 0⟩
/-- R355 SUSPECT -/
def R.THC.EVT_SUSPECT : Field := ⟨.thc, 0x010, 5, 1, .ev, false, false, false, 0⟩
/-- R355 REINSTATED -/
def R.THC.EVT_REINSTATED : Field := ⟨.thc, 0x010, 6, 1, .ev, false, false, false, 0⟩
/-- R355 RECAL_DONE -/
def R.THC.EVT_RECAL_DONE : Field := ⟨.thc, 0x010, 7, 1, .ev, false, false, false, 0⟩
/-- R355 FOLD_FAIL -/
def R.THC.EVT_FOLD_FAIL : Field := ⟨.thc, 0x010, 8, 1, .ev, false, false, false, 0⟩
/-- R355 THC_LIM_HUB.CAUTION -/
def R.THC.LIM_HUB_CAUTION : Field := ⟨.thc, 0x014, 0, 8, .rw, false, false, false, 95⟩
/-- R355 THC_LIM_HUB.ACT -/
def R.THC.LIM_HUB_ACT : Field := ⟨.thc, 0x014, 8, 8, .rw, false, false, false, 103⟩
/-- R355 THC_LIM_HUB.TRIP -/
def R.THC.LIM_HUB_TRIP : Field := ⟨.thc, 0x014, 16, 8, .rw, false, false, false, 112⟩
/-- R355 THC_LIM_ARR.CAUTION -/
def R.THC.LIM_ARR_CAUTION : Field := ⟨.thc, 0x018, 0, 8, .rw, false, false, false, 85⟩
/-- R355 THC_LIM_ARR.ACT -/
def R.THC.LIM_ARR_ACT : Field := ⟨.thc, 0x018, 8, 8, .rw, false, false, false, 92⟩
/-- R355 THC_LIM_ARR.TRIP -/
def R.THC.LIM_ARR_TRIP : Field := ⟨.thc, 0x018, 16, 8, .rw, false, false, false, 100⟩
/-- R355 THC_LIM_MEM.CAUTION -/
def R.THC.LIM_MEM_CAUTION : Field := ⟨.thc, 0x01C, 0, 8, .rw, false, false, false, 85⟩
/-- R355 THC_LIM_MEM.TRIP -/
def R.THC.LIM_MEM_TRIP : Field := ⟨.thc, 0x01C, 16, 8, .rw, false, false, false, 105⟩
/-- R355 THC_LIM_RATE.CAUTION -/
def R.THC.LIM_RATE_CAUTION : Field := ⟨.thc, 0x020, 0, 8, .rw, false, false, false, 16⟩
/-- R355 THC_LIM_RATE.ACT -/
def R.THC.LIM_RATE_ACT : Field := ⟨.thc, 0x020, 8, 8, .rw, false, false, false, 32⟩
/-- R355 THC_LIM_RATE.TRIP -/
def R.THC.LIM_RATE_TRIP : Field := ⟨.thc, 0x020, 16, 8, .rw, false, false, false, 64⟩
/-- R355 THC_HOLD -/
def R.THC.HOLD : Field := ⟨.thc, 0x024, 0, 14, .rw, false, false, false, 200⟩
/-- R355 THC_ACT.PACE_DROP -/
def R.THC.ACT_PACE_DROP : Field := ⟨.thc, 0x028, 0, 5, .rw, false, false, false, 8⟩
/-- R355 THC_RECAL.DT -/
def R.THC.RECAL_DT : Field := ⟨.thc, 0x02C, 0, 4, .rw, true, false, false, 4⟩
/-- R355 THC_CAL_CTL.WIN -/
def R.THC.CAL_CTL_WIN : Field := ⟨.thc, 0x030, 0, 12, .rw, false, false, false, 520⟩
/-- R355 THC_CAL_CTL.PAR -/
def R.THC.CAL_CTL_PAR : Field := ⟨.thc, 0x030, 16, 7, .rw, false, false, false, 32⟩
/-- R355 THC_SENS_ADDR.INDEX -/
def R.THC.SENS_ADDR_INDEX : Field := ⟨.thc, 0x034, 0, 10, .rw, false, false, false, 0⟩
/-- R355 THC_SENS_ADDR.UNIT -/
def R.THC.SENS_ADDR_UNIT : Field := ⟨.thc, 0x034, 12, 3, .rw, false, false, false, 0⟩
/-- R355 THC_SENS_DATA.READING -/
def R.THC.SENS_DATA_READING : Field := ⟨.thc, 0x038, 0, 16, .ro, false, false, false, 0⟩
/-- R355 THC_SENS_DATA.SUSPECT -/
def R.THC.SENS_DATA_SUSPECT : Field := ⟨.thc, 0x038, 16, 1, .ro, false, false, false, 0⟩
/-- R355 THC_SENS_DATA.FW_EXCL -/
def R.THC.SENS_DATA_FW_EXCL : Field := ⟨.thc, 0x038, 17, 1, .ro, false, false, false, 0⟩
/-- R355 THC_SENS_EFF.EFFECTIVE -/
def R.THC.SENS_EFF_EFFECTIVE : Field := ⟨.thc, 0x03C, 0, 16, .ro, false, false, false, 0⟩
/-- R355 THC_SENS_EFF.RISE -/
def R.THC.SENS_EFF_RISE : Field := ⟨.thc, 0x03C, 16, 16, .ro, false, false, false, 0⟩
/-- R355 THC_SENS_CTL.EXCLUDE -/
def R.THC.SENS_CTL_EXCLUDE : Field := ⟨.thc, 0x040, 0, 1, .wo, false, false, false, 0⟩
/-- R355 THC_SENS_CTL.REINSTATE -/
def R.THC.SENS_CTL_REINSTATE : Field := ⟨.thc, 0x040, 1, 1, .wo, false, false, false, 0⟩
/-- R355 THC_TILE_ADDR.TILE -/
def R.THC.TILE_ADDR_TILE : Field := ⟨.thc, 0x044, 0, 10, .rw, false, false, false, 0⟩
/-- R355 THC_TILE_ADDR.STACK -/
def R.THC.TILE_ADDR_STACK : Field := ⟨.thc, 0x044, 12, 2, .rw, false, false, false, 0⟩
/-- R355 THC_TILE_DATA.T_CAL -/
def R.THC.TILE_DATA_T_CAL : Field := ⟨.thc, 0x048, 0, 16, .ro, false, false, false, 0⟩
/-- R355 THC_TILE_DATA.QUEUED -/
def R.THC.TILE_DATA_QUEUED : Field := ⟨.thc, 0x048, 16, 1, .ro, false, false, false, 0⟩
/-- R355 THC_TILE_DATA.REASON -/
def R.THC.TILE_DATA_REASON : Field := ⟨.thc, 0x048, 17, 3, .ro, false, false, false, 0⟩
/-- R355 THC_TILE_DATA.FOLD_FAIL -/
def R.THC.TILE_DATA_FOLD_FAIL : Field := ⟨.thc, 0x048, 20, 1, .ro, false, false, false, 0⟩
/-- R355 THC_RECAL_REQ.TILE -/
def R.THC.RECAL_REQ_TILE : Field := ⟨.thc, 0x04C, 0, 10, .rw, false, false, false, 0⟩
/-- R355 THC_RECAL_REQ.STACK -/
def R.THC.RECAL_REQ_STACK : Field := ⟨.thc, 0x04C, 12, 2, .rw, false, false, false, 0⟩
/-- R355 THC_RECAL_REQ.GO -/
def R.THC.RECAL_REQ_GO : Field := ⟨.thc, 0x04C, 31, 1, .wo, false, false, false, 0⟩
/-- R355 THC_MAX.HUB -/
def R.THC.MAX_HUB : Field := ⟨.thc, 0x050, 0, 16, .ro, false, false, false, 0⟩
/-- R355 THC_MAX.MEM -/
def R.THC.MAX_MEM : Field := ⟨.thc, 0x050, 16, 16, .ro, false, false, false, 0⟩
/-- R355 THC_MAX.STACK0 -/
def R.THC.MAX_STACK0 : Field := ⟨.thc, 0x054, 0, 16, .ro, false, false, false, 0⟩
/-- R355 THC_MAX.STACK1 -/
def R.THC.MAX_STACK1 : Field := ⟨.thc, 0x054, 16, 16, .ro, false, false, false, 0⟩
/-- R355 THC_MAX.STACK2 -/
def R.THC.MAX_STACK2 : Field := ⟨.thc, 0x058, 0, 16, .ro, false, false, false, 0⟩
/-- R355 THC_QUEUED -/
def R.THC.QUEUED : Field := ⟨.thc, 0x05C, 0, 11, .ro, false, false, false, 0⟩
/-- R355 THC_CAUTION_CNT -/
def R.THC.CAUTION_CNT : Field := ⟨.thc, 0x060, 0, 32, .ro, false, true, false, 0⟩
/-- R355 THC_ACT_CNT -/
def R.THC.ACT_CNT : Field := ⟨.thc, 0x064, 0, 32, .ro, false, true, false, 0⟩
/-- R355 THC_TRIP_CNT -/
def R.THC.TRIP_CNT : Field := ⟨.thc, 0x068, 0, 32, .ro, false, true, false, 0⟩
/-- R355 THC_SUSPECT_CNT -/
def R.THC.SUSPECT_CNT : Field := ⟨.thc, 0x06C, 0, 32, .ro, false, true, false, 0⟩
/-- R355 THC_RECAL_CNT -/
def R.THC.RECAL_CNT : Field := ⟨.thc, 0x070, 0, 32, .ro, false, true, false, 0⟩
/-- R355 THC_FOLD_FAIL_CNT -/
def R.THC.FOLD_FAIL_CNT : Field := ⟨.thc, 0x074, 0, 32, .ro, false, true, false, 0⟩
/-- R355 THC_WIN_US -/
def R.THC.WIN_US : Field := ⟨.thc, 0x078, 0, 64, .ro, false, true, true, 0⟩
/-- R373 MOD_STATE -/
def R.PWR.STAT_MOD_STATE : Field := ⟨.pwr, 0x00C, 0, 2, .ro, false, false, false, 1⟩
/-- R373 PFW -/
def R.PWR.STAT_PFW : Field := ⟨.pwr, 0x00C, 2, 1, .ro, false, false, false, 0⟩
/-- R373 LIMITING -/
def R.PWR.STAT_LIMITING : Field := ⟨.pwr, 0x00C, 3, 1, .ro, false, false, false, 0⟩
/-- R373 TRANSITION -/
def R.PWR.STAT_TRANSITION : Field := ⟨.pwr, 0x00C, 4, 1, .ro, false, false, false, 0⟩
/-- R373 CONFIG_REFUSED -/
def R.PWR.EVT_CONFIG_REFUSED : Field := ⟨.pwr, 0x010, 0, 1, .ev, false, false, false, 0⟩
/-- R373 STATE_REFUSED -/
def R.PWR.EVT_STATE_REFUSED : Field := ⟨.pwr, 0x010, 1, 1, .ev, false, false, false, 0⟩
/-- R373 STATE_DONE -/
def R.PWR.EVT_STATE_DONE : Field := ⟨.pwr, 0x010, 2, 1, .ev, false, false, false, 0⟩
/-- R373 PFW_ASSERT -/
def R.PWR.EVT_PFW_ASSERT : Field := ⟨.pwr, 0x010, 3, 1, .ev, false, false, false, 0⟩
/-- R373 PFW_DEASSERT -/
def R.PWR.EVT_PFW_DEASSERT : Field := ⟨.pwr, 0x010, 4, 1, .ev, false, false, false, 0⟩
/-- R373 LIMIT_STEP -/
def R.PWR.EVT_LIMIT_STEP : Field := ⟨.pwr, 0x010, 5, 1, .ev, false, false, false, 0⟩
/-- R373 OVER_LIMIT -/
def R.PWR.EVT_OVER_LIMIT : Field := ⟨.pwr, 0x010, 6, 1, .ev, false, false, false, 0⟩
/-- R373 PWR_MOD_CTL.DOZE -/
def R.PWR.MOD_CTL_DOZE : Field := ⟨.pwr, 0x014, 0, 1, .wo, false, false, false, 0⟩
/-- R373 PWR_MOD_CTL.WAKE -/
def R.PWR.MOD_CTL_WAKE : Field := ⟨.pwr, 0x014, 1, 1, .wo, false, false, false, 0⟩
/-- R373 PWR_PART_CTL.PART -/
def R.PWR.PART_CTL_PART : Field := ⟨.pwr, 0x018, 0, 4, .rw, false, false, false, 0⟩
/-- R373 PWR_PART_CTL.QUIET -/
def R.PWR.PART_CTL_QUIET : Field := ⟨.pwr, 0x018, 8, 1, .wo, false, false, false, 0⟩
/-- R373 PWR_PART_CTL.ACTIVE -/
def R.PWR.PART_CTL_ACTIVE : Field := ⟨.pwr, 0x018, 9, 1, .wo, false, false, false, 0⟩
/-- R373 PWR_PART_STATE -/
def R.PWR.PART_STATE : Field := ⟨.pwr, 0x01C, 0, 24, .ro, false, false, false, 0⟩
/-- R373 PWR_STACK_STATE -/
def R.PWR.STACK_STATE : Field := ⟨.pwr, 0x020, 0, 24, .ro, false, false, false, 0x555555⟩
/-- R373 PWR_CAP_W -/
def R.PWR.CAP_W : Field := ⟨.pwr, 0x024, 0, 13, .rw, false, false, false, 4400⟩
/-- R373 PWR_LIMIT_W -/
def R.PWR.LIMIT_W : Field := ⟨.pwr, 0x028, 0, 13, .ro, false, false, false, 4400⟩
/-- R373 PWR_PIN_W -/
def R.PWR.PIN_W : Field := ⟨.pwr, 0x02C, 0, 13, .ro, false, false, false, 0⟩
/-- R373 PWR_VIN_MV -/
def R.PWR.VIN_MV : Field := ⟨.pwr, 0x030, 0, 16, .ro, false, false, false, 0⟩
/-- R373 PWR_IIN -/
def R.PWR.IIN : Field := ⟨.pwr, 0x034, 0, 16, .ro, false, false, false, 0⟩
/-- R373 PWR_PACE_ADDR.DOMAIN -/
def R.PWR.PACE_ADDR_DOMAIN : Field := ⟨.pwr, 0x038, 0, 4, .rw, false, false, false, 0⟩
/-- R373 PWR_PACE_TGT -/
def R.PWR.PACE_TGT : Field := ⟨.pwr, 0x03C, 0, 7, .rw, false, false, false, 64⟩
/-- R373 PWR_PACE_EFF.EFF -/
def R.PWR.PACE_EFF_EFF : Field := ⟨.pwr, 0x040, 0, 7, .ro, false, false, false, 64⟩
/-- R373 PWR_PACE_EFF.D_LIM -/
def R.PWR.PACE_EFF_D_LIM : Field := ⟨.pwr, 0x040, 8, 6, .ro, false, false, false, 0⟩
/-- R373 PWR_PACE_STAT.VOLT -/
def R.PWR.PACE_STAT_VOLT : Field := ⟨.pwr, 0x044, 0, 12, .ro, false, false, false, 0⟩
/-- R373 PWR_PACE_STAT.LOCK -/
def R.PWR.PACE_STAT_LOCK : Field := ⟨.pwr, 0x044, 16, 1, .ro, false, false, false, 0⟩
/-- R373 PWR_LIMIT_CNT -/
def R.PWR.LIMIT_CNT : Field := ⟨.pwr, 0x048, 0, 32, .ro, false, true, false, 0⟩
/-- R373 PWR_PFW_CNT -/
def R.PWR.PFW_CNT : Field := ⟨.pwr, 0x04C, 0, 32, .ro, false, true, false, 0⟩
/-- R373 PWR_ENERGY -/
def R.PWR.ENERGY : Field := ⟨.pwr, 0x050, 0, 64, .ro, false, true, true, 0⟩
/-- R394 HUB_LINK_UP -/
def R.NOC.STAT_HUB_LINK_UP : Field := ⟨.noc, 0x00C, 0, 3, .ro, false, false, false, 0⟩
/-- R394 STACK_LINK_UP -/
def R.NOC.STAT_STACK_LINK_UP : Field := ⟨.noc, 0x00C, 3, 3, .ro, false, false, false, 0⟩
/-- R394 CONFIG_REFUSED -/
def R.NOC.EVT_CONFIG_REFUSED : Field := ⟨.noc, 0x010, 0, 1, .ev, false, false, false, 0⟩
/-- R394 PARITY -/
def R.NOC.EVT_PARITY : Field := ⟨.noc, 0x010, 1, 1, .ev, false, false, false, 0⟩
/-- R394 LANE_REPAIRED -/
def R.NOC.EVT_LANE_REPAIRED : Field := ⟨.noc, 0x010, 2, 1, .ev, false, false, false, 0⟩
/-- R394 LINK_FAIL -/
def R.NOC.EVT_LINK_FAIL : Field := ⟨.noc, 0x010, 3, 1, .ev, false, false, false, 0⟩
/-- R394 NOC_LANE_STAT -/
def R.NOC.LANE_STAT : Field := ⟨.noc, 0x014, 0, 24, .ro, false, false, false, 0⟩
/-- R394 NOC_LAT_HC -/
def R.NOC.LAT_HC : Field := ⟨.noc, 0x018, 0, 8, .ro, false, false, false, 48⟩
/-- R394 NOC_PARITY_CNT -/
def R.NOC.PARITY_CNT : Field := ⟨.noc, 0x01C, 0, 32, .ro, false, true, false, 0⟩
/-- R394 NOC_MSG_BYTES -/
def R.NOC.MSG_BYTES : Field := ⟨.noc, 0x020, 0, 64, .ro, false, true, true, 0⟩
/-- R395 LINK_UP -/
def R.FAB.STAT_LINK_UP : Field := ⟨.fab, 0x00C, 0, 1, .ro, false, false, false, 0⟩
/-- R395 TRAINING -/
def R.FAB.STAT_TRAINING : Field := ⟨.fab, 0x00C, 1, 1, .ro, false, false, false, 0⟩
/-- R395 VERSION -/
def R.FAB.STAT_VERSION : Field := ⟨.fab, 0x00C, 4, 3, .ro, false, false, false, 0⟩
/-- R395 CONFIG_REFUSED -/
def R.FAB.EVT_CONFIG_REFUSED : Field := ⟨.fab, 0x010, 0, 1, .ev, false, false, false, 0⟩
/-- R395 LINK_UP_EVT -/
def R.FAB.EVT_LINK_UP_EVT : Field := ⟨.fab, 0x010, 1, 1, .ev, false, false, false, 0⟩
/-- R395 LINK_DOWN -/
def R.FAB.EVT_LINK_DOWN : Field := ⟨.fab, 0x010, 2, 1, .ev, false, false, false, 0⟩
/-- R395 VERSION_FAIL -/
def R.FAB.EVT_VERSION_FAIL : Field := ⟨.fab, 0x010, 3, 1, .ev, false, false, false, 0⟩
/-- R395 FEC_UNCORR -/
def R.FAB.EVT_FEC_UNCORR : Field := ⟨.fab, 0x010, 4, 1, .ev, false, false, false, 0⟩
/-- R395 LATE_FLIT -/
def R.FAB.EVT_LATE_FLIT : Field := ⟨.fab, 0x010, 5, 1, .ev, false, false, false, 0⟩
/-- R395 DROP -/
def R.FAB.EVT_DROP : Field := ⟨.fab, 0x010, 6, 1, .ev, false, false, false, 0⟩
/-- R395 FAB_PORT_CFG.MODE -/
def R.FAB.PORT_CFG_MODE : Field := ⟨.fab, 0x014, 0, 1, .rw, true, false, false, 0⟩
/-- R395 FAB_PORT_CFG.VERSIONS -/
def R.FAB.PORT_CFG_VERSIONS : Field := ⟨.fab, 0x014, 4, 3, .rw, false, false, false, 7⟩
/-- R395 FAB_PORT_CFG.OWNERS -/
def R.FAB.PORT_CFG_OWNERS : Field := ⟨.fab, 0x014, 16, 12, .rw, true, false, false, 0⟩
/-- R395 FAB_MAC -/
def R.FAB.MAC : Field := ⟨.fab, 0x018, 0, 48, .rw, true, false, true, 0⟩
/-- R395 FAB_IP6_0 -/
def R.FAB.IP6_0 : Field := ⟨.fab, 0x020, 0, 32, .rw, true, false, false, 0⟩
/-- R395 FAB_IP6_1 -/
def R.FAB.IP6_1 : Field := ⟨.fab, 0x024, 0, 32, .rw, true, false, false, 0⟩
/-- R395 FAB_IP6_2 -/
def R.FAB.IP6_2 : Field := ⟨.fab, 0x028, 0, 32, .rw, true, false, false, 0⟩
/-- R395 FAB_IP6_3 -/
def R.FAB.IP6_3 : Field := ⟨.fab, 0x02C, 0, 32, .rw, true, false, false, 0⟩
/-- R395 FAB_GW_IP6_0 -/
def R.FAB.GW_IP6_0 : Field := ⟨.fab, 0x030, 0, 32, .rw, true, false, false, 0⟩
/-- R395 FAB_GW_IP6_1 -/
def R.FAB.GW_IP6_1 : Field := ⟨.fab, 0x034, 0, 32, .rw, true, false, false, 0⟩
/-- R395 FAB_GW_IP6_2 -/
def R.FAB.GW_IP6_2 : Field := ⟨.fab, 0x038, 0, 32, .rw, true, false, false, 0⟩
/-- R395 FAB_GW_IP6_3 -/
def R.FAB.GW_IP6_3 : Field := ⟨.fab, 0x03C, 0, 32, .rw, true, false, false, 0⟩
/-- R395 FAB_IP4 -/
def R.FAB.IP4 : Field := ⟨.fab, 0x040, 0, 32, .rw, true, false, false, 0⟩
/-- R395 FAB_VLAN.VID -/
def R.FAB.VLAN_VID : Field := ⟨.fab, 0x044, 0, 12, .rw, true, false, false, 0⟩
/-- R395 FAB_VLAN.PCP -/
def R.FAB.VLAN_PCP : Field := ⟨.fab, 0x044, 12, 3, .rw, true, false, false, 0⟩
/-- R395 FAB_VLAN.TAG_EN -/
def R.FAB.VLAN_TAG_EN : Field := ⟨.fab, 0x044, 15, 1, .rw, true, false, false, 0⟩
/-- R395 FAB_ETH_CTL.PFC_PRIO -/
def R.FAB.ETH_CTL_PFC_PRIO : Field := ⟨.fab, 0x048, 0, 3, .rw, true, false, false, 3⟩
/-- R395 FAB_ETH_CTL.PFC_EN -/
def R.FAB.ETH_CTL_PFC_EN : Field := ⟨.fab, 0x048, 3, 1, .rw, true, false, false, 0⟩
/-- R395 FAB_ETH_CTL.ECN_EN -/
def R.FAB.ETH_CTL_ECN_EN : Field := ⟨.fab, 0x048, 4, 1, .rw, true, false, false, 1⟩
/-- R395 FAB_PEER_POS.POS -/
def R.FAB.PEER_POS_POS : Field := ⟨.fab, 0x04C, 0, 5, .ro, false, false, false, 0⟩
/-- R395 FAB_PEER_POS.VALID -/
def R.FAB.PEER_POS_VALID : Field := ⟨.fab, 0x04C, 8, 1, .ro, false, false, false, 0⟩
/-- R395 FAB_LINK_LAT -/
def R.FAB.LINK_LAT : Field := ⟨.fab, 0x050, 0, 16, .ro, false, false, false, 0⟩
/-- R395 FAB_FEC_CORR -/
def R.FAB.FEC_CORR : Field := ⟨.fab, 0x054, 0, 64, .ro, false, true, true, 0⟩
/-- R395 FAB_FEC_UNCORR_CNT -/
def R.FAB.FEC_UNCORR_CNT : Field := ⟨.fab, 0x05C, 0, 32, .ro, false, true, false, 0⟩
/-- R395 FAB_CRC_FLIT_CNT -/
def R.FAB.CRC_FLIT_CNT : Field := ⟨.fab, 0x060, 0, 32, .ro, false, true, false, 0⟩
/-- R395 FAB_RETRY_CNT -/
def R.FAB.RETRY_CNT : Field := ⟨.fab, 0x064, 0, 32, .ro, false, true, false, 0⟩
/-- R395 FAB_LATE_CNT -/
def R.FAB.LATE_CNT : Field := ⟨.fab, 0x068, 0, 32, .ro, false, true, false, 0⟩
/-- R395 FAB_DROP_CNT -/
def R.FAB.DROP_CNT : Field := ⟨.fab, 0x06C, 0, 32, .ro, false, true, false, 0⟩
/-- R395 FAB_CNP_CNT -/
def R.FAB.CNP_CNT : Field := ⟨.fab, 0x070, 0, 32, .ro, false, true, false, 0⟩
/-- R395 FAB_TX_BYTES -/
def R.FAB.TX_BYTES : Field := ⟨.fab, 0x074, 0, 64, .ro, false, true, true, 0⟩
/-- R395 FAB_RX_BYTES -/
def R.FAB.RX_BYTES : Field := ⟨.fab, 0x07C, 0, 64, .ro, false, true, true, 0⟩
/-- R396 FORMED -/
def R.FABS.STAT_FORMED : Field := ⟨.fabS, 0x00C, 0, 1, .ro, false, false, false, 0⟩
/-- R396 CONFIG_REFUSED -/
def R.FABS.EVT_CONFIG_REFUSED : Field := ⟨.fabS, 0x010, 0, 1, .ev, false, false, false, 0⟩
/-- R396 FORMED_EVT -/
def R.FABS.EVT_FORMED_EVT : Field := ⟨.fabS, 0x010, 1, 1, .ev, false, false, false, 0⟩
/-- R396 FORM_FAIL -/
def R.FABS.EVT_FORM_FAIL : Field := ⟨.fabS, 0x010, 2, 1, .ev, false, false, false, 0⟩
/-- R396 SPAN_REPLAY -/
def R.FABS.EVT_SPAN_REPLAY : Field := ⟨.fabS, 0x010, 3, 1, .ev, false, false, false, 0⟩
/-- R396 BAL_MOVE -/
def R.FABS.EVT_BAL_MOVE : Field := ⟨.fabS, 0x010, 4, 1, .ev, false, false, false, 0⟩
/-- R396 FAB_PART_TAG0 -/
def R.FABS.PART_TAG0 : Field := ⟨.fabS, 0x014, 0, 16, .rw, true, false, false, 0⟩
/-- R396 FAB_PART_TAG1 -/
def R.FABS.PART_TAG1 : Field := ⟨.fabS, 0x018, 0, 16, .rw, true, false, false, 0⟩
/-- R396 FAB_PART_TAG2 -/
def R.FABS.PART_TAG2 : Field := ⟨.fabS, 0x01C, 0, 16, .rw, true, false, false, 0⟩
/-- R396 FAB_PART_TAG3 -/
def R.FABS.PART_TAG3 : Field := ⟨.fabS, 0x020, 0, 16, .rw, true, false, false, 0⟩
/-- R396 FAB_PART_TAG4 -/
def R.FABS.PART_TAG4 : Field := ⟨.fabS, 0x024, 0, 16, .rw, true, false, false, 0⟩
/-- R396 FAB_PART_TAG5 -/
def R.FABS.PART_TAG5 : Field := ⟨.fabS, 0x028, 0, 16, .rw, true, false, false, 0⟩
/-- R396 FAB_PART_TAG6 -/
def R.FABS.PART_TAG6 : Field := ⟨.fabS, 0x02C, 0, 16, .rw, true, false, false, 0⟩
/-- R396 FAB_PART_TAG7 -/
def R.FABS.PART_TAG7 : Field := ⟨.fabS, 0x030, 0, 16, .rw, true, false, false, 0⟩
/-- R396 FAB_PART_TAG8 -/
def R.FABS.PART_TAG8 : Field := ⟨.fabS, 0x034, 0, 16, .rw, true, false, false, 0⟩
/-- R396 FAB_PART_TAG9 -/
def R.FABS.PART_TAG9 : Field := ⟨.fabS, 0x038, 0, 16, .rw, true, false, false, 0⟩
/-- R396 FAB_PART_TAG10 -/
def R.FABS.PART_TAG10 : Field := ⟨.fabS, 0x03C, 0, 16, .rw, true, false, false, 0⟩
/-- R396 FAB_PART_TAG11 -/
def R.FABS.PART_TAG11 : Field := ⟨.fabS, 0x040, 0, 16, .rw, true, false, false, 0⟩
/-- R396 FAB_ROUTE_ADDR -/
def R.FABS.ROUTE_ADDR : Field := ⟨.fabS, 0x044, 0, 5, .rw, false, false, false, 0⟩
/-- R396 FAB_ROUTE_DATA.PORT -/
def R.FABS.ROUTE_DATA_PORT : Field := ⟨.fabS, 0x048, 0, 4, .rw, true, false, false, 0⟩
/-- R396 FAB_ROUTE_DATA.HOPS -/
def R.FABS.ROUTE_DATA_HOPS : Field := ⟨.fabS, 0x048, 4, 4, .ro, false, false, false, 0⟩
/-- R396 FAB_ROUTE_DATA.VALID -/
def R.FABS.ROUTE_DATA_VALID : Field := ⟨.fabS, 0x048, 31, 1, .rw, true, false, false, 0⟩
/-- R396 FAB_ROUTE_LAT -/
def R.FABS.ROUTE_LAT : Field := ⟨.fabS, 0x04C, 0, 16, .ro, false, false, false, 0⟩
/-- R396 FAB_DELIVER_HC -/
def R.FABS.DELIVER_HC : Field := ⟨.fabS, 0x050, 0, 16, .rw, true, false, false, 4000⟩
/-- R396 FAB_SPAN_CTL.FORM -/
def R.FABS.SPAN_CTL_FORM : Field := ⟨.fabS, 0x054, 0, 1, .wo, false, false, false, 0⟩
/-- R396 FAB_FORM_ERR.MEMBER -/
def R.FABS.FORM_ERR_MEMBER : Field := ⟨.fabS, 0x058, 0, 5, .ro, false, false, false, 0⟩
/-- R396 FAB_FORM_ERR.REASON -/
def R.FABS.FORM_ERR_REASON : Field := ⟨.fabS, 0x058, 8, 4, .ro, false, false, false, 0⟩
/-- R396 FAB_BAL_BASE -/
def R.FABS.BAL_BASE : Field := ⟨.fabS, 0x05C, 0, 64, .rw, false, false, true, 0⟩
/-- R396 FAB_BAL_CTL.THRESH_US -/
def R.FABS.BAL_CTL_THRESH_US : Field := ⟨.fabS, 0x064, 0, 8, .rw, true, false, false, 50⟩
/-- R396 FAB_BAL_CTL.MAX_MOVES -/
def R.FABS.BAL_CTL_MAX_MOVES : Field := ⟨.fabS, 0x064, 8, 3, .rw, true, false, false, 1⟩
/-- R396 FAB_SPAN_REPLAY_CNT -/
def R.FABS.SPAN_REPLAY_CNT : Field := ⟨.fabS, 0x068, 0, 32, .ro, false, true, false, 0⟩
/-- R396 FAB_BAL_MOVE_CNT -/
def R.FABS.BAL_MOVE_CNT : Field := ⟨.fabS, 0x06C, 0, 32, .ro, false, true, false, 0⟩
/-- R414 LINK_UP -/
def R.HLK.STAT_LINK_UP : Field := ⟨.hlk, 0x00C, 0, 1, .ro, false, false, false, 0⟩
/-- R414 TRAINING -/
def R.HLK.STAT_TRAINING : Field := ⟨.hlk, 0x00C, 1, 1, .ro, false, false, false, 0⟩
/-- R414 VERSION -/
def R.HLK.STAT_VERSION : Field := ⟨.hlk, 0x00C, 2, 3, .ro, false, false, false, 0⟩
/-- R414 FORMAT -/
def R.HLK.STAT_FORMAT : Field := ⟨.hlk, 0x00C, 5, 2, .ro, false, false, false, 0⟩
/-- R414 HOST_LOST -/
def R.HLK.STAT_HOST_LOST : Field := ⟨.hlk, 0x00C, 7, 1, .ro, false, false, false, 0⟩
/-- R414 CONFIG_REFUSED -/
def R.HLK.EVT_CONFIG_REFUSED : Field := ⟨.hlk, 0x010, 0, 1, .ev, false, false, false, 0⟩
/-- R414 LINK_UP_EVT -/
def R.HLK.EVT_LINK_UP_EVT : Field := ⟨.hlk, 0x010, 1, 1, .ev, false, false, false, 0⟩
/-- R414 LINK_DOWN -/
def R.HLK.EVT_LINK_DOWN : Field := ⟨.hlk, 0x010, 2, 1, .ev, false, false, false, 0⟩
/-- R414 RETRAIN -/
def R.HLK.EVT_RETRAIN : Field := ⟨.hlk, 0x010, 3, 1, .ev, false, false, false, 0⟩
/-- R414 NEG_FAIL -/
def R.HLK.EVT_NEG_FAIL : Field := ⟨.hlk, 0x010, 4, 1, .ev, false, false, false, 0⟩
/-- R414 FRAME_DISCARD -/
def R.HLK.EVT_FRAME_DISCARD : Field := ⟨.hlk, 0x010, 5, 1, .ev, false, false, false, 0⟩
/-- R414 REG_REFUSED -/
def R.HLK.EVT_REG_REFUSED : Field := ⟨.hlk, 0x010, 6, 1, .ev, false, false, false, 0⟩
/-- R414 EVT_DROP -/
def R.HLK.EVT_EVT_DROP : Field := ⟨.hlk, 0x010, 7, 1, .ev, false, false, false, 0⟩
/-- R414 HOST_LOST_EVT -/
def R.HLK.EVT_HOST_LOST_EVT : Field := ⟨.hlk, 0x010, 8, 1, .ev, false, false, false, 0⟩
/-- R414 FEC_UNCORR -/
def R.HLK.EVT_FEC_UNCORR : Field := ⟨.hlk, 0x010, 9, 1, .ev, false, false, false, 0⟩
/-- R414 HLK_CTL.VERSIONS -/
def R.HLK.CTL_VERSIONS : Field := ⟨.hlk, 0x014, 0, 4, .rw, true, false, false, 15⟩
/-- R414 HLK_CTL.FORMATS -/
def R.HLK.CTL_FORMATS : Field := ⟨.hlk, 0x014, 4, 2, .rw, true, false, false, 3⟩
/-- R414 HLK_DOWN_TMO -/
def R.HLK.DOWN_TMO : Field := ⟨.hlk, 0x018, 0, 16, .rw, false, false, false, 1000⟩
/-- R414 HLK_HOST_PARTS -/
def R.HLK.HOST_PARTS : Field := ⟨.hlk, 0x01C, 0, 12, .rw, false, false, false, 0⟩
/-- R414 HLK_RSP_SEL.PART -/
def R.HLK.RSP_SEL_PART : Field := ⟨.hlk, 0x020, 0, 4, .rw, false, false, false, 0⟩
/-- R414 HLK_RSP_BASE -/
def R.HLK.RSP_BASE : Field := ⟨.hlk, 0x024, 0, 64, .rw, false, false, true, 0⟩
/-- R414 HLK_RSP_MIB -/
def R.HLK.RSP_MIB : Field := ⟨.hlk, 0x02C, 0, 11, .rw, false, false, false, 8⟩
/-- R414 HLK_RSP_USED -/
def R.HLK.RSP_USED : Field := ⟨.hlk, 0x030, 0, 32, .ro, false, false, false, 0⟩
/-- R414 HLK_FEC_CORR -/
def R.HLK.FEC_CORR : Field := ⟨.hlk, 0x034, 0, 64, .ro, false, true, true, 0⟩
/-- R414 HLK_FEC_UNCORR_CNT -/
def R.HLK.FEC_UNCORR_CNT : Field := ⟨.hlk, 0x03C, 0, 32, .ro, false, true, false, 0⟩
/-- R414 HLK_CRC_FLIT_CNT -/
def R.HLK.CRC_FLIT_CNT : Field := ⟨.hlk, 0x040, 0, 32, .ro, false, true, false, 0⟩
/-- R414 HLK_RESEND_CNT -/
def R.HLK.RESEND_CNT : Field := ⟨.hlk, 0x044, 0, 32, .ro, false, true, false, 0⟩
/-- R414 HLK_RETRAIN_CNT -/
def R.HLK.RETRAIN_CNT : Field := ⟨.hlk, 0x048, 0, 32, .ro, false, true, false, 0⟩
/-- R414 HLK_DISCARD_CNT -/
def R.HLK.DISCARD_CNT : Field := ⟨.hlk, 0x04C, 0, 32, .ro, false, true, false, 0⟩
/-- R414 HLK_REG_REFUSED_CNT -/
def R.HLK.REG_REFUSED_CNT : Field := ⟨.hlk, 0x050, 0, 32, .ro, false, true, false, 0⟩
/-- R414 HLK_EVT_DROP_CNT -/
def R.HLK.EVT_DROP_CNT : Field := ⟨.hlk, 0x054, 0, 32, .ro, false, true, false, 0⟩
/-- R414 HLK_RX_FRAMES -/
def R.HLK.RX_FRAMES : Field := ⟨.hlk, 0x058, 0, 64, .ro, false, true, true, 0⟩
/-- R414 HLK_TX_FRAMES -/
def R.HLK.TX_FRAMES : Field := ⟨.hlk, 0x060, 0, 64, .ro, false, true, true, 0⟩
/-- R436 LC_STATE -/
def R.SECG.STAT_LC_STATE : Field := ⟨.secG, 0x00C, 0, 3, .ro, false, false, false, 0⟩
/-- R436 BOOT_SLOT -/
def R.SECG.STAT_BOOT_SLOT : Field := ⟨.secG, 0x00C, 3, 1, .ro, false, false, false, 0⟩
/-- R436 RECOVERY -/
def R.SECG.STAT_RECOVERY : Field := ⟨.secG, 0x00C, 4, 1, .ro, false, false, false, 0⟩
/-- R436 ID_EXISTS -/
def R.SECG.STAT_ID_EXISTS : Field := ⟨.secG, 0x00C, 5, 1, .ro, false, false, false, 0⟩
/-- R436 LC_PENDING -/
def R.SECG.STAT_LC_PENDING : Field := ⟨.secG, 0x00C, 6, 1, .ro, false, false, false, 0⟩
/-- R436 CONFIG_REFUSED -/
def R.SECG.EVT_CONFIG_REFUSED : Field := ⟨.secG, 0x010, 0, 1, .ev, false, false, false, 0⟩
/-- R436 LC_DONE -/
def R.SECG.EVT_LC_DONE : Field := ⟨.secG, 0x010, 1, 1, .ev, false, false, false, 0⟩
/-- R436 LC_REFUSED -/
def R.SECG.EVT_LC_REFUSED : Field := ⟨.secG, 0x010, 2, 1, .ev, false, false, false, 0⟩
/-- R436 PART_DONE -/
def R.SECG.EVT_PART_DONE : Field := ⟨.secG, 0x010, 3, 1, .ev, false, false, false, 0⟩
/-- R436 PART_REFUSED -/
def R.SECG.EVT_PART_REFUSED : Field := ⟨.secG, 0x010, 4, 1, .ev, false, false, false, 0⟩
/-- R436 SVN_DONE -/
def R.SECG.EVT_SVN_DONE : Field := ⟨.secG, 0x010, 5, 1, .ev, false, false, false, 0⟩
/-- R436 VERIFY_DONE -/
def R.SECG.EVT_VERIFY_DONE : Field := ⟨.secG, 0x010, 6, 1, .ev, false, false, false, 0⟩
/-- R436 SEC_SVN.FUSED -/
def R.SECG.SVN_FUSED : Field := ⟨.secG, 0x014, 0, 7, .ro, false, false, false, 0⟩
/-- R436 SEC_SVN.RUNNING -/
def R.SECG.SVN_RUNNING : Field := ⟨.secG, 0x014, 8, 7, .ro, false, false, false, 0⟩
/-- R436 SEC_SVN_CTL.COMMIT -/
def R.SECG.SVN_CTL_COMMIT : Field := ⟨.secG, 0x018, 0, 1, .wo, false, false, false, 0⟩
/-- R436 SEC_LC_CTL.TARGET -/
def R.SECG.LC_CTL_TARGET : Field := ⟨.secG, 0x01C, 0, 3, .rw, false, false, false, 0⟩
/-- R436 SEC_LC_CTL.GO -/
def R.SECG.LC_CTL_GO : Field := ⟨.secG, 0x01C, 31, 1, .wo, false, false, false, 0⟩
/-- R436 SEC_LC_TOKEN_ADDR -/
def R.SECG.LC_TOKEN_ADDR : Field := ⟨.secG, 0x020, 0, 64, .rw, false, false, true, 0⟩
/-- R436 SEC_KEY_REVOKE.SLOT -/
def R.SECG.KEY_REVOKE_SLOT : Field := ⟨.secG, 0x028, 0, 4, .rw, false, false, false, 0⟩
/-- R436 SEC_KEY_REVOKE.GO -/
def R.SECG.KEY_REVOKE_GO : Field := ⟨.secG, 0x028, 31, 1, .wo, false, false, false, 0⟩
/-- R436 SEC_KEY_STAT.REVOKED -/
def R.SECG.KEY_STAT_REVOKED : Field := ⟨.secG, 0x02C, 0, 4, .ro, false, false, false, 0⟩
/-- R436 SEC_VERIFY_ADDR -/
def R.SECG.VERIFY_ADDR : Field := ⟨.secG, 0x030, 0, 64, .rw, false, false, true, 0⟩
/-- R436 SEC_VERIFY.GO -/
def R.SECG.VERIFY_GO : Field := ⟨.secG, 0x038, 0, 1, .wo, false, false, false, 0⟩
/-- R436 SEC_VERIFY.RESULT -/
def R.SECG.VERIFY_RESULT : Field := ⟨.secG, 0x038, 8, 2, .ro, false, false, false, 0⟩
/-- R436 SEC_ID_CTL.CREATE -/
def R.SECG.ID_CTL_CREATE : Field := ⟨.secG, 0x03C, 0, 1, .wo, false, false, false, 0⟩
/-- R436 SEC_ID_PUB0 -/
def R.SECG.ID_PUB0 : Field := ⟨.secG, 0x040, 0, 32, .ro, false, false, false, 0⟩
/-- R436 SEC_ID_PUB1 -/
def R.SECG.ID_PUB1 : Field := ⟨.secG, 0x044, 0, 32, .ro, false, false, false, 0⟩
/-- R436 SEC_ID_PUB2 -/
def R.SECG.ID_PUB2 : Field := ⟨.secG, 0x048, 0, 32, .ro, false, false, false, 0⟩
/-- R436 SEC_ID_PUB3 -/
def R.SECG.ID_PUB3 : Field := ⟨.secG, 0x04C, 0, 32, .ro, false, false, false, 0⟩
/-- R436 SEC_ID_PUB4 -/
def R.SECG.ID_PUB4 : Field := ⟨.secG, 0x050, 0, 32, .ro, false, false, false, 0⟩
/-- R436 SEC_ID_PUB5 -/
def R.SECG.ID_PUB5 : Field := ⟨.secG, 0x054, 0, 32, .ro, false, false, false, 0⟩
/-- R436 SEC_ID_PUB6 -/
def R.SECG.ID_PUB6 : Field := ⟨.secG, 0x058, 0, 32, .ro, false, false, false, 0⟩
/-- R436 SEC_ID_PUB7 -/
def R.SECG.ID_PUB7 : Field := ⟨.secG, 0x05C, 0, 32, .ro, false, false, false, 0⟩
/-- R436 SEC_ID_PUB8 -/
def R.SECG.ID_PUB8 : Field := ⟨.secG, 0x060, 0, 32, .ro, false, false, false, 0⟩
/-- R436 SEC_ID_PUB9 -/
def R.SECG.ID_PUB9 : Field := ⟨.secG, 0x064, 0, 32, .ro, false, false, false, 0⟩
/-- R436 SEC_ID_PUB10 -/
def R.SECG.ID_PUB10 : Field := ⟨.secG, 0x068, 0, 32, .ro, false, false, false, 0⟩
/-- R436 SEC_ID_PUB11 -/
def R.SECG.ID_PUB11 : Field := ⟨.secG, 0x06C, 0, 32, .ro, false, false, false, 0⟩
/-- R436 SEC_ID_PUB12 -/
def R.SECG.ID_PUB12 : Field := ⟨.secG, 0x070, 0, 32, .ro, false, false, false, 0⟩
/-- R436 SEC_ID_PUB13 -/
def R.SECG.ID_PUB13 : Field := ⟨.secG, 0x074, 0, 32, .ro, false, false, false, 0⟩
/-- R436 SEC_ID_PUB14 -/
def R.SECG.ID_PUB14 : Field := ⟨.secG, 0x078, 0, 32, .ro, false, false, false, 0⟩
/-- R436 SEC_DEV_ID -/
def R.SECG.DEV_ID : Field := ⟨.secG, 0x07C, 0, 64, .ro, false, false, true, 0⟩
/-- R436 SEC_PART_CTL.PART -/
def R.SECG.PART_CTL_PART : Field := ⟨.secG, 0x084, 0, 4, .rw, false, false, false, 0⟩
/-- R436 SEC_PART_CTL.CREATE -/
def R.SECG.PART_CTL_CREATE : Field := ⟨.secG, 0x084, 8, 1, .wo, false, false, false, 0⟩
/-- R436 SEC_PART_CTL.DESTROY -/
def R.SECG.PART_CTL_DESTROY : Field := ⟨.secG, 0x084, 9, 1, .wo, false, false, false, 0⟩
/-- R436 SEC_PART_STACKS -/
def R.SECG.PART_STACKS : Field := ⟨.secG, 0x088, 0, 12, .rw, false, false, false, 0⟩
/-- R436 SEC_PART_CORES0.HUB0 -/
def R.SECG.PART_CORES0_HUB0 : Field := ⟨.secG, 0x08C, 0, 12, .rw, false, false, false, 0⟩
/-- R436 SEC_PART_CORES0.HUB1 -/
def R.SECG.PART_CORES0_HUB1 : Field := ⟨.secG, 0x08C, 16, 12, .rw, false, false, false, 0⟩
/-- R436 SEC_PART_CORES1.HUB2 -/
def R.SECG.PART_CORES1_HUB2 : Field := ⟨.secG, 0x090, 0, 12, .rw, false, false, false, 0⟩
/-- R436 SEC_PART_CORES1.HUB3 -/
def R.SECG.PART_CORES1_HUB3 : Field := ⟨.secG, 0x090, 16, 12, .rw, false, false, false, 0⟩
/-- R436 SEC_PART_TAG -/
def R.SECG.PART_TAG : Field := ⟨.secG, 0x094, 0, 64, .rw, false, false, true, 0⟩
/-- R436 SEC_PART_STAT.EXISTS -/
def R.SECG.PART_STAT_EXISTS : Field := ⟨.secG, 0x09C, 0, 12, .ro, false, false, false, 0⟩
/-- R436 SEC_PART_STAT.CLEARING -/
def R.SECG.PART_STAT_CLEARING : Field := ⟨.secG, 0x09C, 16, 12, .ro, false, false, false, 0⟩
/-- R436 SEC_PART_ERR -/
def R.SECG.PART_ERR : Field := ⟨.secG, 0x0A0, 0, 4, .ro, false, false, false, 0⟩
/-- R436 SEC_SESSIONS -/
def R.SECG.SESSIONS : Field := ⟨.secG, 0x0A4, 0, 5, .ro, false, false, false, 0⟩
/-- R436 SEC_PUBKEYS -/
def R.SECG.PUBKEYS : Field := ⟨.secG, 0x0A8, 0, 6, .ro, false, false, false, 0⟩
/-- R436 SEC_NOPART_CNT -/
def R.SECG.NOPART_CNT : Field := ⟨.secG, 0x0AC, 0, 32, .ro, false, true, false, 0⟩
/-- R436 SEC_TEST_REFUSED_CNT -/
def R.SECG.TEST_REFUSED_CNT : Field := ⟨.secG, 0x0B0, 0, 32, .ro, false, true, false, 0⟩
/-- R437 BUSY -/
def R.SEC.STAT_BUSY : Field := ⟨.sec, 0x00C, 0, 1, .ro, false, false, false, 0⟩
/-- R437 CONFIG_REFUSED -/
def R.SEC.EVT_CONFIG_REFUSED : Field := ⟨.sec, 0x010, 0, 1, .ev, false, false, false, 0⟩
/-- R437 READY -/
def R.SEC.EVT_READY : Field := ⟨.sec, 0x010, 1, 1, .ev, false, false, false, 0⟩
/-- R437 SEC_MB_CTL.SEND -/
def R.SEC.MB_CTL_SEND : Field := ⟨.sec, 0x014, 0, 1, .wo, false, false, false, 0⟩
/-- R437 SEC_MB_LEN -/
def R.SEC.MB_LEN : Field := ⟨.sec, 0x018, 0, 12, .rw, false, false, false, 0⟩
/-- R437 SEC_MB_RLEN -/
def R.SEC.MB_RLEN : Field := ⟨.sec, 0x01C, 0, 12, .ro, false, false, false, 0⟩
/-- R437 SEC_KEYS_HELD -/
def R.SEC.KEYS_HELD : Field := ⟨.sec, 0x020, 0, 7, .ro, false, false, false, 0⟩
/-- R457 STEWARD_OK -/
def R.MGT.STAT_STEWARD_OK : Field := ⟨.mgt, 0x00C, 0, 4, .ro, false, false, false, 15⟩
/-- R457 LAN_UP -/
def R.MGT.STAT_LAN_UP : Field := ⟨.mgt, 0x00C, 4, 1, .ro, false, false, false, 0⟩
/-- R457 I3C_ADDR_VALID -/
def R.MGT.STAT_I3C_ADDR_VALID : Field := ⟨.mgt, 0x00C, 5, 1, .ro, false, false, false, 0⟩
/-- R457 CONFIG_REFUSED -/
def R.MGT.EVT_CONFIG_REFUSED : Field := ⟨.mgt, 0x010, 0, 1, .ev, false, false, false, 0⟩
/-- R457 STEWARD_RESET -/
def R.MGT.EVT_STEWARD_RESET : Field := ⟨.mgt, 0x010, 1, 1, .ev, false, false, false, 0⟩
/-- R457 STEWARD_LOST -/
def R.MGT.EVT_STEWARD_LOST : Field := ⟨.mgt, 0x010, 2, 1, .ev, false, false, false, 0⟩
/-- R457 PLDM_EVT_DROP -/
def R.MGT.EVT_PLDM_EVT_DROP : Field := ⟨.mgt, 0x010, 3, 1, .ev, false, false, false, 0⟩
/-- R457 MGT_IRQ_PEND -/
def R.MGT.IRQ_PEND : Field := ⟨.mgt, 0x014, 0, 20, .ro, false, false, false, 0⟩
/-- R457 MGT_IRQ_MASK0 -/
def R.MGT.IRQ_MASK0 : Field := ⟨.mgt, 0x018, 0, 20, .rw, false, false, false, 0xfffff⟩
/-- R457 MGT_IRQ_MASK1 -/
def R.MGT.IRQ_MASK1 : Field := ⟨.mgt, 0x01C, 0, 20, .rw, false, false, false, 0xfffff⟩
/-- R457 MGT_IRQ_MASK2 -/
def R.MGT.IRQ_MASK2 : Field := ⟨.mgt, 0x020, 0, 20, .rw, false, false, false, 0xfffff⟩
/-- R457 MGT_IRQ_MASK3 -/
def R.MGT.IRQ_MASK3 : Field := ⟨.mgt, 0x024, 0, 20, .rw, false, false, false, 0xfffff⟩
/-- R457 MGT_WDOG_MS -/
def R.MGT.WDOG_MS : Field := ⟨.mgt, 0x028, 0, 14, .rw, false, false, false, 2000⟩
/-- R457 MGT_WDOG_KICK -/
def R.MGT.WDOG_KICK : Field := ⟨.mgt, 0x02C, 0, 4, .wo, false, false, false, 0⟩
/-- R457 MGT_I3C_STAT.DYN_ADDR -/
def R.MGT.I3C_STAT_DYN_ADDR : Field := ⟨.mgt, 0x030, 0, 7, .ro, false, false, false, 0⟩
/-- R457 MGT_I3C_STAT.EID -/
def R.MGT.I3C_STAT_EID : Field := ⟨.mgt, 0x030, 8, 8, .ro, false, false, false, 0⟩
/-- R457 MGT_LAN_MAC -/
def R.MGT.LAN_MAC : Field := ⟨.mgt, 0x034, 0, 48, .rw, true, false, true, 0⟩
/-- R457 MGT_LAN_IP6_0 -/
def R.MGT.LAN_IP6_0 : Field := ⟨.mgt, 0x03C, 0, 32, .rw, true, false, false, 0⟩
/-- R457 MGT_LAN_IP6_1 -/
def R.MGT.LAN_IP6_1 : Field := ⟨.mgt, 0x040, 0, 32, .rw, true, false, false, 0⟩
/-- R457 MGT_LAN_IP6_2 -/
def R.MGT.LAN_IP6_2 : Field := ⟨.mgt, 0x044, 0, 32, .rw, true, false, false, 0⟩
/-- R457 MGT_LAN_IP6_3 -/
def R.MGT.LAN_IP6_3 : Field := ⟨.mgt, 0x048, 0, 32, .rw, true, false, false, 0⟩
/-- R457 MGT_LAN_DEST_0 -/
def R.MGT.LAN_DEST_0 : Field := ⟨.mgt, 0x04C, 0, 32, .rw, true, false, false, 0⟩
/-- R457 MGT_LAN_DEST_1 -/
def R.MGT.LAN_DEST_1 : Field := ⟨.mgt, 0x050, 0, 32, .rw, true, false, false, 0⟩
/-- R457 MGT_LAN_DEST_2 -/
def R.MGT.LAN_DEST_2 : Field := ⟨.mgt, 0x054, 0, 32, .rw, true, false, false, 0⟩
/-- R457 MGT_LAN_DEST_3 -/
def R.MGT.LAN_DEST_3 : Field := ⟨.mgt, 0x058, 0, 32, .rw, true, false, false, 0⟩
/-- R457 MGT_LAN_GW_0 -/
def R.MGT.LAN_GW_0 : Field := ⟨.mgt, 0x05C, 0, 32, .rw, true, false, false, 0⟩
/-- R457 MGT_LAN_GW_1 -/
def R.MGT.LAN_GW_1 : Field := ⟨.mgt, 0x060, 0, 32, .rw, true, false, false, 0⟩
/-- R457 MGT_LAN_GW_2 -/
def R.MGT.LAN_GW_2 : Field := ⟨.mgt, 0x064, 0, 32, .rw, true, false, false, 0⟩
/-- R457 MGT_LAN_GW_3 -/
def R.MGT.LAN_GW_3 : Field := ⟨.mgt, 0x068, 0, 32, .rw, true, false, false, 0⟩
/-- R457 MGT_LAN_IP4 -/
def R.MGT.LAN_IP4 : Field := ⟨.mgt, 0x06C, 0, 32, .rw, true, false, false, 0⟩
/-- R457 MGT_LAN_PORT -/
def R.MGT.LAN_PORT : Field := ⟨.mgt, 0x070, 0, 16, .rw, true, false, false, 19287⟩
/-- R457 MGT_LAN_CTL.FEC -/
def R.MGT.LAN_CTL_FEC : Field := ⟨.mgt, 0x074, 0, 1, .rw, true, false, false, 1⟩
/-- R457 MGT_LAN_PERIOD -/
def R.MGT.LAN_PERIOD : Field := ⟨.mgt, 0x078, 0, 14, .rw, false, false, false, 1000⟩
/-- R457 MGT_STEWARD_RST_CNT -/
def R.MGT.STEWARD_RST_CNT : Field := ⟨.mgt, 0x07C, 0, 32, .ro, false, true, false, 0⟩
/-- R457 MGT_MCTP_DROP_CNT -/
def R.MGT.MCTP_DROP_CNT : Field := ⟨.mgt, 0x080, 0, 32, .ro, false, true, false, 0⟩
/-- R457 MGT_PLDM_EVT_DROP_CNT -/
def R.MGT.PLDM_EVT_DROP_CNT : Field := ⟨.mgt, 0x084, 0, 32, .ro, false, true, false, 0⟩
/-- R457 MGT_LAN_TX_CNT -/
def R.MGT.LAN_TX_CNT : Field := ⟨.mgt, 0x088, 0, 32, .ro, false, true, false, 0⟩
/-- R457 MGT_LAN_RESEND_CNT -/
def R.MGT.LAN_RESEND_CNT : Field := ⟨.mgt, 0x08C, 0, 32, .ro, false, true, false, 0⟩
/-- R457 MGT_LAN_DROP_CNT -/
def R.MGT.LAN_DROP_CNT : Field := ⟨.mgt, 0x090, 0, 32, .ro, false, true, false, 0⟩
/-- R458 CONFIG_REFUSED -/
def R.BST.EVT_CONFIG_REFUSED : Field := ⟨.bst, 0x010, 0, 1, .ev, false, false, false, 0⟩
/-- R458 DONE -/
def R.BST.EVT_DONE : Field := ⟨.bst, 0x010, 1, 1, .ev, false, false, false, 0⟩
/-- R458 FAIL -/
def R.BST.EVT_FAIL : Field := ⟨.bst, 0x010, 2, 1, .ev, false, false, false, 0⟩
/-- R458 REFUSED -/
def R.BST.EVT_REFUSED : Field := ⟨.bst, 0x010, 3, 1, .ev, false, false, false, 0⟩
/-- R458 ABORTED -/
def R.BST.EVT_ABORTED : Field := ⟨.bst, 0x010, 4, 1, .ev, false, false, false, 0⟩
/-- R458 LOG_FULL -/
def R.BST.EVT_LOG_FULL : Field := ⟨.bst, 0x010, 5, 1, .ev, false, false, false, 0⟩
/-- R458 BST_CTL.TEST -/
def R.BST.CTL_TEST : Field := ⟨.bst, 0x014, 0, 2, .rw, false, false, false, 0⟩
/-- R458 BST_CTL.GO -/
def R.BST.CTL_GO : Field := ⟨.bst, 0x014, 8, 1, .wo, false, false, false, 0⟩
/-- R458 BST_CTL.ABORT -/
def R.BST.CTL_ABORT : Field := ⟨.bst, 0x014, 9, 1, .wo, false, false, false, 0⟩
/-- R458 BST_UNITS -/
def R.BST.UNITS : Field := ⟨.bst, 0x018, 0, 16, .rw, false, false, false, 0⟩
/-- R458 BST_STAT.STATE -/
def R.BST.STAT_STATE : Field := ⟨.bst, 0x01C, 0, 2, .ro, false, false, false, 0⟩
/-- R458 BST_STAT.REASON -/
def R.BST.STAT_REASON : Field := ⟨.bst, 0x01C, 8, 3, .ro, false, false, false, 0⟩
/-- R458 BST_LOG_ADDR -/
def R.BST.LOG_ADDR : Field := ⟨.bst, 0x020, 0, 64, .rw, false, false, true, 0⟩
/-- R458 BST_LOG_CAP -/
def R.BST.LOG_CAP : Field := ⟨.bst, 0x028, 0, 20, .rw, false, false, false, 0⟩
/-- R458 BST_LOG_COUNT -/
def R.BST.LOG_COUNT : Field := ⟨.bst, 0x02C, 0, 20, .ro, false, false, false, 0⟩
/-- R458 BST_FAULT_CNT -/
def R.BST.FAULT_CNT : Field := ⟨.bst, 0x030, 0, 32, .ro, false, true, false, 0⟩
/-- R458 BST_FAIL_UNITS -/
def R.BST.FAIL_UNITS : Field := ⟨.bst, 0x034, 0, 16, .ro, false, false, false, 0⟩
/-- R458 BST_COVER -/
def R.BST.COVER : Field := ⟨.bst, 0x038, 0, 10, .ro, false, false, false, 0⟩
/-- R458 BST_ELAPSED_MS -/
def R.BST.ELAPSED_MS : Field := ⟨.bst, 0x03C, 0, 32, .ro, false, false, false, 0⟩
/-- R458 BST_RUN_CNT -/
def R.BST.RUN_CNT : Field := ⟨.bst, 0x040, 0, 32, .ro, false, true, false, 0⟩
/-- R474 RESET_CAUSE -/
def R.GLBG.STAT_RESET_CAUSE : Field := ⟨.glbG, 0x00C, 0, 2, .ro, false, false, false, 0⟩
/-- R474 CONFIG_REFUSED -/
def R.GLBG.EVT_CONFIG_REFUSED : Field := ⟨.glbG, 0x010, 0, 1, .ev, false, false, false, 0⟩
/-- R474 UNMAPPED -/
def R.GLBG.EVT_UNMAPPED : Field := ⟨.glbG, 0x010, 1, 1, .ev, false, false, false, 0⟩
/-- R474 GLB_DEVTIME -/
def R.GLBG.DEVTIME : Field := ⟨.glbG, 0x014, 0, 64, .ro, false, false, true, 0⟩
/-- R474 GLB_PART_NO.MODEL -/
def R.GLBG.PART_NO_MODEL : Field := ⟨.glbG, 0x01C, 0, 16, .ro, false, false, false, 48⟩
/-- R474 GLB_PART_NO.FAMILY -/
def R.GLBG.PART_NO_FAMILY : Field := ⟨.glbG, 0x01C, 16, 16, .ro, false, false, false, 19287⟩
/-- R474 GLB_STRAP.POSITION -/
def R.GLBG.STRAP_POSITION : Field := ⟨.glbG, 0x020, 0, 5, .ro, false, false, false, 0⟩
/-- R474 GLB_PARTS -/
def R.GLBG.PARTS : Field := ⟨.glbG, 0x024, 0, 12, .ro, false, false, false, 0⟩
/-- R474 GLB_UNMAPPED_CNT -/
def R.GLBG.UNMAPPED_CNT : Field := ⟨.glbG, 0x028, 0, 32, .ro, false, true, false, 0⟩
/-- Fields of the page, piece 0. -/
def R.AFD.fields0 : List Field := [
  R.AFD.STAT_CALIBRATED, R.AFD.STAT_THERMAL_HALVED, R.AFD.STAT_BUSY, R.AFD.EVT_CONFIG_REFUSED,
  R.AFD.EVT_NOT_CALIBRATED, R.AFD.EVT_GUARD_LIMIT, R.AFD.EVT_READ_SPLIT, R.AFD.EVT_SIGN_FALLBACK,
  R.AFD.EVT_MAP_SWAPPED, R.AFD.CAP_CAP, R.AFD.CAP_EFF_CAP, R.AFD.GUARD_GUARD_CODE,
  R.AFD.SPLIT_CNT, R.AFD.READ_SPLIT_CNT, R.AFD.SIGN_FALLBACK_CNT, R.AFD.TIER_SWITCH_CNT,
  R.AFD.MAP_ADDR_ARRAY, R.AFD.MAP_ADDR_ENTRY, R.AFD.MAP_ADDR_TABLE, R.AFD.MAP_ADDR_BUF,
  R.AFD.MAP_DATA, R.AFD.MAP_SWAP_SWAP, R.AFD.MAP_SWAP_PENDING]
/-- Fields of the page, piece 0. -/
def R.CNV.fields0 : List Field := [
  R.CNV.EVT_CONFIG_REFUSED, R.CNV.EVT_SELFCAL_DONE, R.CNV.EVT_SELFCAL_FAIL, R.CNV.EVT_TRIM_SWAPPED,
  R.CNV.SELFCAL_START, R.CNV.SELFCAL_SCOPE, R.CNV.SELFCAL_TILE, R.CNV.SELFCAL_STAT_BUSY,
  R.CNV.SELFCAL_STAT_DONE, R.CNV.SELFCAL_STAT_FAILED, R.CNV.SETTLE_SETTLE, R.CNV.TIMER_DELAY,
  R.CNV.TRIM_CTL_ACTIVE_BUF, R.CNV.TRIM_CTL_PENDING, R.CNV.TRIM_CTL_SWAP, R.CNV.TRIM_ADDR_ARRAY,
  R.CNV.TRIM_ADDR_CONV, R.CNV.TRIM_DATA0, R.CNV.TRIM_DATA1, R.CNV.ABORT_REPEAT_CNT]
/-- Fields of the page, piece 0. -/
def R.DCP.fields0 : List Field := [
  R.DCP.EVT_ESC_EXHAUSTED, R.DCP.EVT_INVALID_BLOCK, R.DCP.ESC_CTL_TOP_RUNG, R.DCP.ESC_CTL_LAYER_MODE,
  R.DCP.ESC_CTL_LAYER_THRESH, R.DCP.ESC_RUNG1_CNT, R.DCP.ESC_RUNG2_CNT, R.DCP.ESC_RUNG3_CNT,
  R.DCP.ESC_EXHAUST_CNT, R.DCP.SAT_BLOCK_CNT, R.DCP.INVALID_BLOCK_CNT, R.DCP.ZERO_BLOCK_CNT,
  R.DCP.STAT_BUSY, R.DCP.STAT_DRIFT_PENDING, R.DCP.EVT_CONFIG_REFUSED, R.DCP.EVT_CK_ALARM,
  R.DCP.EVT_RANGE_RESAT, R.DCP.EVT_DRIFT_LIMIT, R.DCP.EVT_DRIFT_FROZEN, R.DCP.EVT_CORR_POISON,
  R.DCP.EVT_BUDGET_REFUSED, R.DCP.CK_CTL_CK_EN, R.DCP.CK_CTL_CK_WIDEN, R.DCP.CK_CTL_CK_TOL,
  R.DCP.CK_CTL_CK_RES, R.DCP.DRIFT_CTL_DRIFT_EN, R.DCP.DRIFT_CTL_DRIFT_SHIFT, R.DCP.DRIFT_CTL_DRIFT_ZMIN,
  R.DCP.CK_ALARM_CNT, R.DCP.CK_CHECK_CNT, R.DCP.CK_SKIP_CNT, R.DCP.RANGE_PASS_CNT,
  R.DCP.RANGE_RESAT_CNT, R.DCP.DRIFT_LIMIT_CNT, R.DCP.DRIFT_FROZEN_CNT, R.DCP.CORR_POISON_CNT,
  R.DCP.CORR_MISSING_CNT, R.DCP.CORR_BYTES, R.DCP.CORR_LIMIT, R.DCP.DRIFT_ADDR_ARRAY]
/-- Fields of the page, piece 1. -/
def R.DCP.fields1 : List Field := [
  R.DCP.DRIFT_ADDR_TIER, R.DCP.DRIFT_ADDR_STACK, R.DCP.DRIFT_DATA]
/-- Fields of the page, piece 0. -/
def R.ACU.fields0 : List Field := [
  R.ACU.STAT_BUSY, R.ACU.STAT_REPLAY_ACTIVE, R.ACU.EVT_CONFIG_REFUSED, R.ACU.EVT_SLOT_SAT,
  R.ACU.EVT_WIDE_LIMIT, R.ACU.EVT_WINDOW_REFUSED, R.ACU.EVT_BUSY_WRITE, R.ACU.EVT_TOPK_DESC_ERR,
  R.ACU.EVT_TOPK_POISON, R.ACU.PROMO_CADENCE, R.ACU.SAT_CNT, R.ACU.REPLAY_CNT,
  R.ACU.PROMO_CNT, R.ACU.WIDE_LIMIT_CNT, R.ACU.BUSY_WRITE_CNT, R.ACU.WINDOW_REFUSED_CNT,
  R.ACU.TOPK_CNT, R.ACU.TOPK_ERR_CNT, R.ACU.TOPK_POISON_CNT, R.ACU.MARKED_CNT,
  R.ACU.WIN_BASE]
/-- Fields of the page, piece 0. -/
def R.WLDG.fields0 : List Field := [
  R.WLDG.STAT_PROGRAMMING, R.WLDG.EVT_CONFIG_REFUSED, R.WLDG.EVT_WEAR_REACHED, R.WLDG.EVT_PROG_CELL_FAIL,
  R.WLDG.PROG_RATE_RATE, R.WLDG.WEAR_ADDR_ARRAY, R.WLDG.WEAR_ADDR_TIER, R.WLDG.WEAR_ADDR_STACK,
  R.WLDG.WEAR_DATA_COUNT, R.WLDG.WEAR_DATA_WORN, R.WLDG.WEAR_LIMIT, R.WLDG.TRAINS,
  R.WLDG.PROG_FAIL_CNT, R.WLDG.REFETCH_CNT, R.WLDG.FETCH_BYTES, R.WLDG.FAULT_OVF_CNT]
/-- Fields of the page, piece 0. -/
def R.WLD.fields0 : List Field := [
  R.WLD.STAT_LOADING, R.WLD.STAT_SWITCH_PENDING, R.WLD.STAT_ACTIVE_BUF, R.WLD.STAT_SLOWER_TIER,
  R.WLD.STAT_HAS_MODEL, R.WLD.EVT_CONFIG_REFUSED, R.WLD.EVT_LOAD_DONE, R.WLD.EVT_LOAD_FAILED,
  R.WLD.EVT_LOAD_REFUSED, R.WLD.EVT_SWITCHED, R.WLD.EVT_SWITCH_REFUSED, R.WLD.LOAD_PTR,
  R.WLD.LOAD_CTL_START, R.WLD.LOAD_CTL_ABORT, R.WLD.LOAD_CTL_RETIRE, R.WLD.LOAD_STAT_STATUS,
  R.WLD.SHARDS_DONE, R.WLD.SHARDS_TOTAL, R.WLD.FAIL_SHARD, R.WLD.PLACE_A,
  R.WLD.PLACE_B, R.WLD.SWITCH_SWITCH, R.WLD.SWITCH_MODE, R.WLD.GEN,
  R.WLD.PLACE_COLLIDE, R.WLD.DIGITAL_LAYERS, R.WLD.CARRIED_TIERS, R.WLD.SKIPPED_SHARDS]
/-- Fields of the page, piece 0. -/
def R.DCR.fields0 : List Field := [
  R.DCR.STAT_RUNNING, R.DCR.STAT_VERIFYING, R.DCR.STAT_VERIFIED, R.DCR.STAT_HALTED,
  R.DCR.EVT_CONFIG_REFUSED, R.DCR.EVT_SET_OK, R.DCR.EVT_SET_REJECTED, R.DCR.EVT_CORE_FAULT,
  R.DCR.EVT_STEP_HALTED, R.DCR.EVT_INT_SAT, R.DCR.EVT_SCRATCH_PARITY, R.DCR.SET_ADDR,
  R.DCR.SET_CTL_VERIFY, R.DCR.SET_STAT_CODE, R.DCR.SET_STAT_SECTION, R.DCR.SET_ERR_OFF,
  R.DCR.VER_GEN, R.DCR.CORE_SET0_HUB0, R.DCR.CORE_SET0_HUB1, R.DCR.CORE_SET1_HUB2,
  R.DCR.CORE_SET1_HUB3, R.DCR.STEP_TMO, R.DCR.FAULT_INFO_CAUSE, R.DCR.FAULT_INFO_HUB,
  R.DCR.FAULT_INFO_CORE, R.DCR.FAULT_INFO_GROUP, R.DCR.FAULT_PC, R.DCR.FAULT_CLR_CLR,
  R.DCR.ISSUE, R.DCR.MMA, R.DCR.FAULT_CNT, R.DCR.ESC_CALL_CNT,
  R.DCR.INT_SAT_CNT, R.DCR.PARITY_CNT]
/-- Fields of the page, piece 0. -/
def R.KVE.fields0 : List Field := [
  R.KVE.STAT_BUSY, R.KVE.STAT_PRESSURE, R.KVE.STAT_FLUSH_PENDING, R.KVE.EVT_CONFIG_REFUSED,
  R.KVE.EVT_PAGE_PRESSURE, R.KVE.EVT_LOW_WATER, R.KVE.EVT_MASK_EMPTY, R.KVE.EVT_PAGE_POISON,
  R.KVE.EVT_COLLIDE, R.KVE.EVT_INSERT_SKIP, R.KVE.EVT_OP_ERR, R.KVE.EVT_FLUSHED,
  R.KVE.POOL_BASE, R.KVE.PAGE_COUNT, R.KVE.GEOM_POS_LAYER_BYTES, R.KVE.GEOM_LAYERS,
  R.KVE.NODE_BASE, R.KVE.NODE_COUNT, R.KVE.BUCKET_CTL_BUCKET_LOG2, R.KVE.TBL_BASE,
  R.KVE.TBL_COUNT, R.KVE.SEQ_BASE, R.KVE.MASK_TBL, R.KVE.HASH_SEED,
  R.KVE.BOUND0, R.KVE.BOUND1, R.KVE.BOUND2, R.KVE.BOUND3,
  R.KVE.BOUND4, R.KVE.BOUND5, R.KVE.BOUND6, R.KVE.SHARE_CTL_SHARE_EN,
  R.KVE.LOW_WATER, R.KVE.BKT_BASE, R.KVE.TREE_CTL_FLUSH, R.KVE.PAGES_FREE,
  R.KVE.PAGES_TREE, R.KVE.NODES_UNREF, R.KVE.SEQS, R.KVE.HIT_PAGES]
/-- Fields of the page, piece 1. -/
def R.KVE.fields1 : List Field := [
  R.KVE.LOOKUP_PAGES, R.KVE.COLLIDE_CNT, R.KVE.INSERT_SKIP_CNT, R.KVE.EVICT_CNT,
  R.KVE.PARK_CNT, R.KVE.MASK_EMPTY_CNT, R.KVE.SPEC_NODES_CNT, R.KVE.SPEC_ACCEPT_CNT,
  R.KVE.PAGE_POISON_CNT, R.KVE.OP_ERR_CNT, R.KVE.STEP_COUNT]
/-- Fields of the page, piece 0. -/
def R.SRV.fields0 : List Field := [
  R.SRV.STAT_STEP_RUNNING, R.SRV.STAT_IDLE, R.SRV.EVT_CONFIG_REFUSED, R.SRV.EVT_WRONG_STATE,
  R.SRV.EVT_REJECTED, R.SRV.EVT_PREEMPT_DONE, R.SRV.EVT_PREEMPT_REFUSED, R.SRV.EVT_INTERNAL_END,
  R.SRV.HAMPER_BASE, R.SRV.CNT_BASE, R.SRV.RING_BASE, R.SRV.RING_SIZE,
  R.SRV.TOK_BASE, R.SRV.STEP_BASE, R.SRV.LOGITS, R.SRV.VOCAB,
  R.SRV.LIMIT, R.SRV.FORM_STEP_MAX, R.SRV.FORM_PREFILL_MAX, R.SRV.FORM_CHUNK,
  R.SRV.PREEMPT_SLOT, R.SRV.PREEMPT_GO, R.SRV.END_SLOT, R.SRV.END_GO,
  R.SRV.LIVE, R.SRV.ADMIT, R.SRV.TOKENS, R.SRV.STEPS,
  R.SRV.REJECT_CNT, R.SRV.WRONG_STATE_CNT, R.SRV.CANCEL_CNT, R.SRV.DEADLINE_CNT,
  R.SRV.PREEMPT_CNT, R.SRV.INTERNAL_CNT]
/-- Fields of the page, piece 0. -/
def R.MEM.fields0 : List Field := [
  R.MEM.STAT_TRAINED, R.MEM.STAT_CLEARING, R.MEM.STAT_FRAME_PENDING, R.MEM.STAT_STACK_FAIL,
  R.MEM.EVT_CONFIG_REFUSED, R.MEM.EVT_CE, R.MEM.EVT_UE, R.MEM.EVT_FRAME_SWAPPED,
  R.MEM.EVT_FRAME_REFUSED, R.MEM.EVT_FORCED_REFRESH, R.MEM.EVT_PACE_OVERRUN, R.MEM.EVT_WB_OVERFLOW,
  R.MEM.EVT_CLEAR_DONE, R.MEM.EVT_TRAIN_FAIL, R.MEM.EVT_SCRUB_PASS, R.MEM.TRAIN_START,
  R.MEM.CH_OK0, R.MEM.CH_OK1, R.MEM.CH_OK2, R.MEM.CH_OK3,
  R.MEM.CH_EN0, R.MEM.CH_EN1, R.MEM.CH_EN2, R.MEM.CH_EN3,
  R.MEM.CAP, R.MEM.FRAME_ADDR, R.MEM.FRAME_DATA, R.MEM.FRAME_CTL_LEN,
  R.MEM.FRAME_CTL_SWAP, R.MEM.FRAME_CTL_ACTIVE_BUF, R.MEM.FRAME_ERR_SLOT, R.MEM.FRAME_ERR_REASON,
  R.MEM.REF_TMAX, R.MEM.PART_SEL, R.MEM.PART_BASE, R.MEM.PART_SIZE,
  R.MEM.PART_CTL_APPLY, R.MEM.PART_CTL_CLEARING, R.MEM.CE_CNT, R.MEM.UE_CNT]
/-- Fields of the page, piece 1. -/
def R.MEM.fields1 : List Field := [
  R.MEM.POISON_READ_CNT, R.MEM.POISON_WRITE_CNT, R.MEM.WB_OVF_CNT, R.MEM.FORCED_REF_CNT,
  R.MEM.PACE_OVERRUN_CNT, R.MEM.SCRUB_PASS_CNT, R.MEM.ERR_ADDR, R.MEM.ERR_INFO_CHANNEL]
/-- Fields of the page, piece 0. -/
def R.GLB.fields0 : List Field := [
  R.GLB.STAT_LOCKED, R.GLB.STAT_ROLL_WAIT, R.GLB.EVT_CONFIG_REFUSED, R.GLB.EVT_CFG_ID_CHANGED,
  R.GLB.EVT_ND_EVENT, R.GLB.EVT_DISTURBED, R.GLB.EVT_PACE_UNLOCK, R.GLB.EVT_ROLL_FAIL,
  R.GLB.EVT_EXACT_UNSURE, R.GLB.EXACT_MODE, R.GLB.EXACT_GRID_EXP, R.GLB.CFG_ID,
  R.GLB.CFG_GEN, R.GLB.ND_CNT, R.GLB.ND_READ_SPLIT, R.GLB.ND_ESCALATE,
  R.GLB.ND_SLOT_SAT, R.GLB.ND_FORCED_REF, R.GLB.ND_PACE_OVERRUN, R.GLB.ND_BALANCE,
  R.GLB.ND_EXACT_GUARD, R.GLB.DISTURB_CNT, R.GLB.EXACT_UNSURE_CNT, R.GLB.STEP_DIGEST,
  R.GLB.STEP_HC, R.GLB.STEP_FLAGS, R.GLB.SPAN_CTL_SPAN_EN, R.GLB.SPAN_CTL_SIZE,
  R.GLB.SPAN_CTL_BAL_EN, R.GLB.SPAN_CTL_ROLL_RETRY, R.GLB.SPAN_CTL_POSITION, R.GLB.ROLL_TMO,
  R.GLB.ROLL_CNT, R.GLB.ROLL_FAIL_CNT]
/-- Fields of the page, piece 0. -/
def R.RELG.fields0 : List Field := [
  R.RELG.STAT_FATAL, R.RELG.STAT_COMMITTING, R.RELG.STAT_WINDOWS_OPEN, R.RELG.EVT_CONFIG_REFUSED,
  R.RELG.EVT_DETECTED, R.RELG.EVT_OVERFLOW, R.RELG.EVT_BB_COMMITTED, R.RELG.EVT_FATAL_EVT,
  R.RELG.CTL_HOST_COPY, R.RELG.BB_CTL_COMMIT, R.RELG.BB_SLOT, R.RELG.BB_ADDR,
  R.RELG.BB_DATA, R.RELG.BB_VALID, R.RELG.FW_REC0, R.RELG.FW_REC1,
  R.RELG.FW_REC2, R.RELG.FW_REC3, R.RELG.FW_REC4, R.RELG.FW_REC5,
  R.RELG.FW_CTL_PUSH, R.RELG.DETECTED_CNT, R.RELG.REPLAY_CNT, R.RELG.TRANSIENT_CNT,
  R.RELG.PERM_CNT, R.RELG.RECORDS, R.RELG.COALESCED_CNT, R.RELG.OVF_CNT,
  R.RELG.BB_COMMIT_CNT]
/-- Fields of the page, piece 0. -/
def R.REL.fields0 : List Field := [
  R.REL.STAT_REPAIRING, R.REL.STAT_MASKED_ANY, R.REL.EVT_CONFIG_REFUSED, R.REL.EVT_VERDICT,
  R.REL.EVT_QUEUE_FULL, R.REL.EVT_COVER_READY, R.REL.EVT_REPAIR_FAILED, R.REL.EVT_SPARE_DONE,
  R.REL.EVT_SPARE_FAIL, R.REL.EVT_SPARE_REFUSED, R.REL.EVT_WITHDRAWN, R.REL.CTL_AUTO_REPAIR,
  R.REL.CTL_REPLAY_MAX, R.REL.COVER_BASE, R.REL.COVER_SLOTS, R.REL.VERDICT_COUNT,
  R.REL.VERDICT_POP, R.REL.VERDICT0_ARRAY, R.REL.VERDICT0_STACK, R.REL.VERDICT0_TIER,
  R.REL.VERDICT0_GROUP, R.REL.VERDICT0_CAUSE, R.REL.VERDICT1_COVER, R.REL.VERDICT1_SLOT,
  R.REL.VERDICT_STEP, R.REL.SPARE_CTL_ARRAY, R.REL.SPARE_CTL_STACK, R.REL.SPARE_CTL_MODE,
  R.REL.SPARE_CTL_GO, R.REL.SPARE_PHYS, R.REL.SPARE_STAT_STATE, R.REL.SPARE_STAT_FAILED,
  R.REL.UNAVAIL_EXPERT, R.REL.UNAVAIL_LAYER, R.REL.UNAVAIL_CTL_SET, R.REL.UNAVAIL_CTL_CLEAR,
  R.REL.UNAVAIL_BASE, R.REL.MASK_CTL_ARRAY, R.REL.MASK_CTL_STACK, R.REL.MASK_CTL_CLEAR]
/-- Fields of the page, piece 1. -/
def R.REL.fields1 : List Field := [
  R.REL.MASKED_ARRAYS, R.REL.WITHDRAW_CNT, R.REL.COVER_MACS]
/-- Fields of the page, piece 0. -/
def R.THC.fields0 : List Field := [
  R.THC.STAT_HUB_LEVEL, R.THC.STAT_STACK_LEVEL, R.THC.STAT_MEM_LEVEL, R.THC.STAT_CALIBRATING,
  R.THC.EVT_CONFIG_REFUSED, R.THC.EVT_CAUTION, R.THC.EVT_ACT, R.THC.EVT_TRIP,
  R.THC.EVT_LOWERED, R.THC.EVT_SUSPECT, R.THC.EVT_REINSTATED, R.THC.EVT_RECAL_DONE,
  R.THC.EVT_FOLD_FAIL, R.THC.LIM_HUB_CAUTION, R.THC.LIM_HUB_ACT, R.THC.LIM_HUB_TRIP,
  R.THC.LIM_ARR_CAUTION, R.THC.LIM_ARR_ACT, R.THC.LIM_ARR_TRIP, R.THC.LIM_MEM_CAUTION,
  R.THC.LIM_MEM_TRIP, R.THC.LIM_RATE_CAUTION, R.THC.LIM_RATE_ACT, R.THC.LIM_RATE_TRIP,
  R.THC.HOLD, R.THC.ACT_PACE_DROP, R.THC.RECAL_DT, R.THC.CAL_CTL_WIN,
  R.THC.CAL_CTL_PAR, R.THC.SENS_ADDR_INDEX, R.THC.SENS_ADDR_UNIT, R.THC.SENS_DATA_READING,
  R.THC.SENS_DATA_SUSPECT, R.THC.SENS_DATA_FW_EXCL, R.THC.SENS_EFF_EFFECTIVE, R.THC.SENS_EFF_RISE,
  R.THC.SENS_CTL_EXCLUDE, R.THC.SENS_CTL_REINSTATE, R.THC.TILE_ADDR_TILE, R.THC.TILE_ADDR_STACK]
/-- Fields of the page, piece 1. -/
def R.THC.fields1 : List Field := [
  R.THC.TILE_DATA_T_CAL, R.THC.TILE_DATA_QUEUED, R.THC.TILE_DATA_REASON, R.THC.TILE_DATA_FOLD_FAIL,
  R.THC.RECAL_REQ_TILE, R.THC.RECAL_REQ_STACK, R.THC.RECAL_REQ_GO, R.THC.MAX_HUB,
  R.THC.MAX_MEM, R.THC.MAX_STACK0, R.THC.MAX_STACK1, R.THC.MAX_STACK2,
  R.THC.QUEUED, R.THC.CAUTION_CNT, R.THC.ACT_CNT, R.THC.TRIP_CNT,
  R.THC.SUSPECT_CNT, R.THC.RECAL_CNT, R.THC.FOLD_FAIL_CNT, R.THC.WIN_US]
/-- Fields of the page, piece 0. -/
def R.PWR.fields0 : List Field := [
  R.PWR.STAT_MOD_STATE, R.PWR.STAT_PFW, R.PWR.STAT_LIMITING, R.PWR.STAT_TRANSITION,
  R.PWR.EVT_CONFIG_REFUSED, R.PWR.EVT_STATE_REFUSED, R.PWR.EVT_STATE_DONE, R.PWR.EVT_PFW_ASSERT,
  R.PWR.EVT_PFW_DEASSERT, R.PWR.EVT_LIMIT_STEP, R.PWR.EVT_OVER_LIMIT, R.PWR.MOD_CTL_DOZE,
  R.PWR.MOD_CTL_WAKE, R.PWR.PART_CTL_PART, R.PWR.PART_CTL_QUIET, R.PWR.PART_CTL_ACTIVE,
  R.PWR.PART_STATE, R.PWR.STACK_STATE, R.PWR.CAP_W, R.PWR.LIMIT_W,
  R.PWR.PIN_W, R.PWR.VIN_MV, R.PWR.IIN, R.PWR.PACE_ADDR_DOMAIN,
  R.PWR.PACE_TGT, R.PWR.PACE_EFF_EFF, R.PWR.PACE_EFF_D_LIM, R.PWR.PACE_STAT_VOLT,
  R.PWR.PACE_STAT_LOCK, R.PWR.LIMIT_CNT, R.PWR.PFW_CNT, R.PWR.ENERGY]
/-- Fields of the page, piece 0. -/
def R.NOC.fields0 : List Field := [
  R.NOC.STAT_HUB_LINK_UP, R.NOC.STAT_STACK_LINK_UP, R.NOC.EVT_CONFIG_REFUSED, R.NOC.EVT_PARITY,
  R.NOC.EVT_LANE_REPAIRED, R.NOC.EVT_LINK_FAIL, R.NOC.LANE_STAT, R.NOC.LAT_HC,
  R.NOC.PARITY_CNT, R.NOC.MSG_BYTES]
/-- Fields of the page, piece 0. -/
def R.FAB.fields0 : List Field := [
  R.FAB.STAT_LINK_UP, R.FAB.STAT_TRAINING, R.FAB.STAT_VERSION, R.FAB.EVT_CONFIG_REFUSED,
  R.FAB.EVT_LINK_UP_EVT, R.FAB.EVT_LINK_DOWN, R.FAB.EVT_VERSION_FAIL, R.FAB.EVT_FEC_UNCORR,
  R.FAB.EVT_LATE_FLIT, R.FAB.EVT_DROP, R.FAB.PORT_CFG_MODE, R.FAB.PORT_CFG_VERSIONS,
  R.FAB.PORT_CFG_OWNERS, R.FAB.MAC, R.FAB.IP6_0, R.FAB.IP6_1,
  R.FAB.IP6_2, R.FAB.IP6_3, R.FAB.GW_IP6_0, R.FAB.GW_IP6_1,
  R.FAB.GW_IP6_2, R.FAB.GW_IP6_3, R.FAB.IP4, R.FAB.VLAN_VID,
  R.FAB.VLAN_PCP, R.FAB.VLAN_TAG_EN, R.FAB.ETH_CTL_PFC_PRIO, R.FAB.ETH_CTL_PFC_EN,
  R.FAB.ETH_CTL_ECN_EN, R.FAB.PEER_POS_POS, R.FAB.PEER_POS_VALID, R.FAB.LINK_LAT,
  R.FAB.FEC_CORR, R.FAB.FEC_UNCORR_CNT, R.FAB.CRC_FLIT_CNT, R.FAB.RETRY_CNT,
  R.FAB.LATE_CNT, R.FAB.DROP_CNT, R.FAB.CNP_CNT, R.FAB.TX_BYTES]
/-- Fields of the page, piece 1. -/
def R.FAB.fields1 : List Field := [
  R.FAB.RX_BYTES]
/-- Fields of the page, piece 0. -/
def R.FABS.fields0 : List Field := [
  R.FABS.STAT_FORMED, R.FABS.EVT_CONFIG_REFUSED, R.FABS.EVT_FORMED_EVT, R.FABS.EVT_FORM_FAIL,
  R.FABS.EVT_SPAN_REPLAY, R.FABS.EVT_BAL_MOVE, R.FABS.PART_TAG0, R.FABS.PART_TAG1,
  R.FABS.PART_TAG2, R.FABS.PART_TAG3, R.FABS.PART_TAG4, R.FABS.PART_TAG5,
  R.FABS.PART_TAG6, R.FABS.PART_TAG7, R.FABS.PART_TAG8, R.FABS.PART_TAG9,
  R.FABS.PART_TAG10, R.FABS.PART_TAG11, R.FABS.ROUTE_ADDR, R.FABS.ROUTE_DATA_PORT,
  R.FABS.ROUTE_DATA_HOPS, R.FABS.ROUTE_DATA_VALID, R.FABS.ROUTE_LAT, R.FABS.DELIVER_HC,
  R.FABS.SPAN_CTL_FORM, R.FABS.FORM_ERR_MEMBER, R.FABS.FORM_ERR_REASON, R.FABS.BAL_BASE,
  R.FABS.BAL_CTL_THRESH_US, R.FABS.BAL_CTL_MAX_MOVES, R.FABS.SPAN_REPLAY_CNT, R.FABS.BAL_MOVE_CNT]
/-- Fields of the page, piece 0. -/
def R.HLK.fields0 : List Field := [
  R.HLK.STAT_LINK_UP, R.HLK.STAT_TRAINING, R.HLK.STAT_VERSION, R.HLK.STAT_FORMAT,
  R.HLK.STAT_HOST_LOST, R.HLK.EVT_CONFIG_REFUSED, R.HLK.EVT_LINK_UP_EVT, R.HLK.EVT_LINK_DOWN,
  R.HLK.EVT_RETRAIN, R.HLK.EVT_NEG_FAIL, R.HLK.EVT_FRAME_DISCARD, R.HLK.EVT_REG_REFUSED,
  R.HLK.EVT_EVT_DROP, R.HLK.EVT_HOST_LOST_EVT, R.HLK.EVT_FEC_UNCORR, R.HLK.CTL_VERSIONS,
  R.HLK.CTL_FORMATS, R.HLK.DOWN_TMO, R.HLK.HOST_PARTS, R.HLK.RSP_SEL_PART,
  R.HLK.RSP_BASE, R.HLK.RSP_MIB, R.HLK.RSP_USED, R.HLK.FEC_CORR,
  R.HLK.FEC_UNCORR_CNT, R.HLK.CRC_FLIT_CNT, R.HLK.RESEND_CNT, R.HLK.RETRAIN_CNT,
  R.HLK.DISCARD_CNT, R.HLK.REG_REFUSED_CNT, R.HLK.EVT_DROP_CNT, R.HLK.RX_FRAMES,
  R.HLK.TX_FRAMES]
/-- Fields of the page, piece 0. -/
def R.SECG.fields0 : List Field := [
  R.SECG.STAT_LC_STATE, R.SECG.STAT_BOOT_SLOT, R.SECG.STAT_RECOVERY, R.SECG.STAT_ID_EXISTS,
  R.SECG.STAT_LC_PENDING, R.SECG.EVT_CONFIG_REFUSED, R.SECG.EVT_LC_DONE, R.SECG.EVT_LC_REFUSED,
  R.SECG.EVT_PART_DONE, R.SECG.EVT_PART_REFUSED, R.SECG.EVT_SVN_DONE, R.SECG.EVT_VERIFY_DONE,
  R.SECG.SVN_FUSED, R.SECG.SVN_RUNNING, R.SECG.SVN_CTL_COMMIT, R.SECG.LC_CTL_TARGET,
  R.SECG.LC_CTL_GO, R.SECG.LC_TOKEN_ADDR, R.SECG.KEY_REVOKE_SLOT, R.SECG.KEY_REVOKE_GO,
  R.SECG.KEY_STAT_REVOKED, R.SECG.VERIFY_ADDR, R.SECG.VERIFY_GO, R.SECG.VERIFY_RESULT,
  R.SECG.ID_CTL_CREATE, R.SECG.ID_PUB0, R.SECG.ID_PUB1, R.SECG.ID_PUB2,
  R.SECG.ID_PUB3, R.SECG.ID_PUB4, R.SECG.ID_PUB5, R.SECG.ID_PUB6,
  R.SECG.ID_PUB7, R.SECG.ID_PUB8, R.SECG.ID_PUB9, R.SECG.ID_PUB10,
  R.SECG.ID_PUB11, R.SECG.ID_PUB12, R.SECG.ID_PUB13, R.SECG.ID_PUB14]
/-- Fields of the page, piece 1. -/
def R.SECG.fields1 : List Field := [
  R.SECG.DEV_ID, R.SECG.PART_CTL_PART, R.SECG.PART_CTL_CREATE, R.SECG.PART_CTL_DESTROY,
  R.SECG.PART_STACKS, R.SECG.PART_CORES0_HUB0, R.SECG.PART_CORES0_HUB1, R.SECG.PART_CORES1_HUB2,
  R.SECG.PART_CORES1_HUB3, R.SECG.PART_TAG, R.SECG.PART_STAT_EXISTS, R.SECG.PART_STAT_CLEARING,
  R.SECG.PART_ERR, R.SECG.SESSIONS, R.SECG.PUBKEYS, R.SECG.NOPART_CNT,
  R.SECG.TEST_REFUSED_CNT]
/-- Fields of the page, piece 0. -/
def R.SEC.fields0 : List Field := [
  R.SEC.STAT_BUSY, R.SEC.EVT_CONFIG_REFUSED, R.SEC.EVT_READY, R.SEC.MB_CTL_SEND,
  R.SEC.MB_LEN, R.SEC.MB_RLEN, R.SEC.KEYS_HELD]
/-- Fields of the page, piece 0. -/
def R.MGT.fields0 : List Field := [
  R.MGT.STAT_STEWARD_OK, R.MGT.STAT_LAN_UP, R.MGT.STAT_I3C_ADDR_VALID, R.MGT.EVT_CONFIG_REFUSED,
  R.MGT.EVT_STEWARD_RESET, R.MGT.EVT_STEWARD_LOST, R.MGT.EVT_PLDM_EVT_DROP, R.MGT.IRQ_PEND,
  R.MGT.IRQ_MASK0, R.MGT.IRQ_MASK1, R.MGT.IRQ_MASK2, R.MGT.IRQ_MASK3,
  R.MGT.WDOG_MS, R.MGT.WDOG_KICK, R.MGT.I3C_STAT_DYN_ADDR, R.MGT.I3C_STAT_EID,
  R.MGT.LAN_MAC, R.MGT.LAN_IP6_0, R.MGT.LAN_IP6_1, R.MGT.LAN_IP6_2,
  R.MGT.LAN_IP6_3, R.MGT.LAN_DEST_0, R.MGT.LAN_DEST_1, R.MGT.LAN_DEST_2,
  R.MGT.LAN_DEST_3, R.MGT.LAN_GW_0, R.MGT.LAN_GW_1, R.MGT.LAN_GW_2,
  R.MGT.LAN_GW_3, R.MGT.LAN_IP4, R.MGT.LAN_PORT, R.MGT.LAN_CTL_FEC,
  R.MGT.LAN_PERIOD, R.MGT.STEWARD_RST_CNT, R.MGT.MCTP_DROP_CNT, R.MGT.PLDM_EVT_DROP_CNT,
  R.MGT.LAN_TX_CNT, R.MGT.LAN_RESEND_CNT, R.MGT.LAN_DROP_CNT]
/-- Fields of the page, piece 0. -/
def R.BST.fields0 : List Field := [
  R.BST.EVT_CONFIG_REFUSED, R.BST.EVT_DONE, R.BST.EVT_FAIL, R.BST.EVT_REFUSED,
  R.BST.EVT_ABORTED, R.BST.EVT_LOG_FULL, R.BST.CTL_TEST, R.BST.CTL_GO,
  R.BST.CTL_ABORT, R.BST.UNITS, R.BST.STAT_STATE, R.BST.STAT_REASON,
  R.BST.LOG_ADDR, R.BST.LOG_CAP, R.BST.LOG_COUNT, R.BST.FAULT_CNT,
  R.BST.FAIL_UNITS, R.BST.COVER, R.BST.ELAPSED_MS, R.BST.RUN_CNT]
/-- Fields of the page, piece 0. -/
def R.GLBG.fields0 : List Field := [
  R.GLBG.STAT_RESET_CAUSE, R.GLBG.EVT_CONFIG_REFUSED, R.GLBG.EVT_UNMAPPED, R.GLBG.DEVTIME,
  R.GLBG.PART_NO_MODEL, R.GLBG.PART_NO_FAMILY, R.GLBG.STRAP_POSITION, R.GLBG.PARTS,
  R.GLBG.UNMAPPED_CNT]

/-- The fields of a page, in the order of its chapter's table. -/
def Page.fields : Page → List Field
  | .afd => R.AFD.fields0
  | .cnv => R.CNV.fields0
  | .dcp => R.DCP.fields0 ++ R.DCP.fields1
  | .acu => R.ACU.fields0
  | .wldG => R.WLDG.fields0
  | .wld => R.WLD.fields0
  | .dcr => R.DCR.fields0
  | .kve => R.KVE.fields0 ++ R.KVE.fields1
  | .srv => R.SRV.fields0
  | .mem => R.MEM.fields0 ++ R.MEM.fields1
  | .glb => R.GLB.fields0
  | .relG => R.RELG.fields0
  | .rel => R.REL.fields0 ++ R.REL.fields1
  | .thc => R.THC.fields0 ++ R.THC.fields1
  | .pwr => R.PWR.fields0
  | .noc => R.NOC.fields0
  | .fab => R.FAB.fields0 ++ R.FAB.fields1
  | .fabS => R.FABS.fields0
  | .hlk => R.HLK.fields0
  | .secG => R.SECG.fields0 ++ R.SECG.fields1
  | .sec => R.SEC.fields0
  | .mgt => R.MGT.fields0
  | .bst => R.BST.fields0
  | .glbG => R.GLBG.fields0

/-- Every page kind. -/
def allPages : List Page :=
  [.afd, .cnv, .dcp, .acu, .wldG, .mem, .noc, .fab, .fabS, .hlk, .pwr, .thc, .secG, .mgt, .bst, .glbG, .relG,
   .dcr, .kve, .srv, .wld, .sec, .glb, .rel]

/-- Number of instances of a page kind (R460; partition pages: 12 partitions). -/
def Page.count : Page → Nat
  | .afd => 12 | .cnv => 12 | .dcp => 4 | .acu => 4 | .wldG => 1 | .mem => 4 | .noc => 4 | .fab => 16 | .fabS => 1
  | .hlk => 1 | .pwr => 1 | .thc => 4 | .secG => 1 | .mgt => 4 | .bst => 1 | .glbG => 1 | .relG => 4
  | .dcr => 12 | .kve => 12 | .srv => 12 | .wld => 12 | .sec => 12 | .glb => 12 | .rel => 12

end Sys2Proof.Machine
end

