-- ==== Sys2Proof/Machine/State.lean ====
section
/-! DEFINITION. The state of the module, all of it plain data: register fields, memory, non-volatile cells, array stacks,
accumulator files, digital cores, partitions with their serving and key-value records, and the units around them. A
sparse map lists only what differs from its default. -/
namespace Sys2Proof.Machine

/-- Reasons for which the machine stops with a fault. No meaning raises one: every event of the manual is a next state.
Safe. -/
inductive Fault
  /-- Not raised by any command; safe. -/
  | none
  deriving DecidableEq, Repr

/-- Reasons for which a command has no meaning. -/
inductive Refusal
  /-- A command whose meaning is not written yet; safe: the machine stops. -/
  | notModelled (mnemonic : String)
  /-- An instruction that verification rejects (R185, R193) or that has no effect in the spec, issued all the same; raised
  by the meanings of the core instructions. Safe: no verified set holds it. -/
  | rejectedAtVerification (mnemonic : String)
  deriving DecidableEq, Repr

/-! ### Memory (R272, R283, R462) -/

/-- Bytes of memory in strictly rising address order; an unlisted address reads 0. -/
abbrev Memory := List Host.Cell

/-- What a byte of memory reads as that nothing has written (DESIGN CHOICE, log entry 2). -/
def memDefault : Byte := 0

/-- Is the memory in canonical form: addresses strictly rising, no entry equal to what an unlisted address reads as. -/
def Memory.wf (m : Memory) : Bool := AMap.sorted m && m.all (fun e => e.2 != memDefault)

/-! ### Array stacks (R27 to R68, R107 to R112) -/

/-- AMODE of R62. -/
inductive AMode
  | a4 | a6 | a8h | a8l
  deriving DecidableEq, Repr

/-- One converted pass of an evaluation. -/
structure PassRes where
  /-- did the pass fire anything (R35) -/
  fired : Bool
  /-- signed codes of the 2,112 physical columns -/
  codes : List Int
  eNet : Int
  /-- E_2 of R114 -/
  e2 : Nat
  /-- edges of the rows driven in the pass -/
  edges : List Int
  deriving DecidableEq, Repr

/-- An evaluation waiting under R19, or the next pass of one that fires in several (R38). -/
structure EvalItem where
  /-- number of the ACALL -/
  job : Nat
  /-- descriptor of R62 -/
  desc : Nat
  mode : AMode
  /-- a range-pass evaluation (R103) -/
  range : Bool
  /-- place in its run: a repeat keeps the place of what it repeats (R19) -/
  ord : Nat := 0
  /-- 0 while the guard has not decided, else 1, 2 or 4 -/
  passes : Nat := 0
  pass : Nat := 0
  got : List PassRes := []
  /-- a verdict repeat of R320: judged, not accumulated -/
  verdict : Bool := false
  /-- edges of the whole input vector, held in the row drivers from the first arm phase on (R57) -/
  vec : Option (List Int) := none
  deriving DecidableEq, Repr

/-- An evaluation in progress on an array (R48). -/
structure Firing where
  item : EvalItem
  tile : Nat
  /-- tile of the logical array, which gets the vector as well (R46) -/
  home : Nat
  phys : Nat
  tier : Nat
  lane : Nat
  row : Nat
  rowblk : Nat
  /-- signed timing (R32, R36) -/
  signed : Bool
  /-- edges of the rows the pass drives -/
  edges : List Int
  /-- sampled and waiting for, or in, its conversion round (R50) -/
  held : Bool := false
  /-- accumulated delay of the round in hc (R56, R57): that of its converters but those listed, and theirs -/
  delay : Nat := 0
  delays : AMap Nat := []
  /-- physical columns converted by a priority read -/
  early : List Nat := []
  deriving DecidableEq, Repr

/-- A checksum group that alarmed: physical array, tier, group (R116, R320). -/
structure AlarmAt where
  stack : Nat
  array : Nat
  tier : Nat
  group : Nat
  deriving DecidableEq, Repr

/-- Stage of the run of an ACALL's present row. -/
inductive RunStage
  /-- waiting for its slot pair (R130) -/
  | waiting
  /-- evaluations outstanding -/
  | running
  /-- promoted; waits for readout or window release (R135) -/
  | ready
  /-- the chain runs at the digital rung; waits for EPUT (R208) -/
  | digital
  deriving DecidableEq, Repr

/-- An ACALL in flight on its stack's tile sequencer (R206). -/
structure Job where
  id : Nat
  part : Nat
  src : GroupRef
  tok : Nat
  /-- chain record index -/
  chain : Nat
  /-- tensor descriptor index of the input -/
  tensor : Nat
  row0 : Nat
  n : Nat
  /-- rows whose run has left the accumulator -/
  cur : Nat := 0
  /-- rows written to OUT_TENSOR -/
  written : Nat := 0
  stage : RunStage := .waiting
  rung : Nat
  /-- replay at cadence 1 (R133) -/
  cad1 : Bool := false
  todo : List EvalItem := []
  inFlight : Nat := 0
  /-- A8 evaluations accepted in this run, main and range: pass pairs and range-pass pairs of R300 are halves of these -/
  accepted : Nat := 0
  acceptedRange : Nat := 0
  /-- groups that alarmed at the previous rung, awaiting the verdict of the repeat -/
  suspects : List AlarmAt := []
  /-- groups that alarmed in this run -/
  alarmed : List AlarmAt := []
  /-- the evaluations of this run that alarmed, until their verdict repeat is queued (R320) -/
  alarmItems : List EvalItem := []
  /-- groups that a verdict repeat judges, and those that alarmed in it (R320) -/
  repSuspects : List AlarmAt := []
  repAlarmed : List AlarmAt := []
  /-- row blocks whose invalid blocks are counted for the present row, whose blocks are counted as quantized in this run, and
  whose range passes are counted as saturated again (R78, R79, R97, R104) -/
  seenInvalid : List Nat := []
  quant : List Nat := []
  resat : List Nat := []
  /-- an alarm or clip has called for escalation -/
  escalate : Bool := false
  exhausted : Bool := false
  /-- some block of the run is invalid (R79) -/
  invalid : Bool := false
  /-- largest widening w of R86 met, in 1/2 LSB -/
  widen : Nat := 0
  /-- exact charges T_c of masked arrays (R324), by column; [] where none -/
  cover : List Int := []
  /-- poison origins of the driven row blocks and of the cover slots used (R184, R316) -/
  poison : Nat := 0
  /-- column sums and S_E of the analogue run that escalated to the digital rung when it was complete (R310) -/
  sums : List Int := []
  sE : Int := 0
  deriving DecidableEq, Repr

/-- An accumulator slot pair (R126). Columns are listed from 0; a missing column is 0. -/
structure Pair where
  /-- 0 IDLE, 1 ACCUM, 2 READY, 3 REPLAY (R130) -/
  st : Nat := 0
  job : Nat := 0
  full : List Int := []
  short : List Int := []
  sE : Int := 0
  flags : List Nat := []
  startFull : List Int := []
  startE : Int := 0
  startFlags : List Nat := []
  /-- poison origins behind the POISON flags, and those of the start copy (R316) -/
  origins : Nat := 0
  startOrigins : Nat := 0
  /-- passes accepted since the last promotion -/
  since : Nat := 0
  deriving DecidableEq, Repr

/-- Drift statistics of an array-tier (R109). The sums are exact, in units of 2^-m and 2^-2m, kept over a common
denominator of 2^30: z = E_net / 2^m with m at most 15. -/
structure DriftStat where
  n : Nat := 0
  szy : Int := 0
  szz : Int := 0
  sz : Int := 0
  sy : Int := 0
  deriving DecidableEq, Repr

/-- A temperature sensor (R338 to R343), in 1/16 °C. -/
structure Sensor where
  own : Int := 0
  eff : Int := 0
  /-- the last 51 effective readings, the present one first -/
  hist : List Int := []
  /-- consecutive readings more than 5 °C from the neighbour median, and within 2 °C of it -/
  far : Nat := 0
  near : Nat := 0
  suspect : Bool := false
  fwExcl : Bool := false
  /-- readings for which the rise is not evaluated (R342) -/
  mute : Nat := 0
  /-- consecutive readings that met the ACT and the TRIP condition -/
  actRun : Nat := 0
  tripRun : Nat := 0
  deriving DecidableEq, Repr

/-- A self-calibration in progress (R59): whole stack, or one tile. -/
inductive SelfCal
  | stack
  | tile (t : Nat)
  deriving DecidableEq, Repr

/-- One array stack with its converters and accumulator files. -/
structure StackSt where
  /-- selector bias: tier + 1 by physical array; unlisted: released (R30) -/
  bias : AMap Nat := []
  firing : List Firing := []
  jobs : List Job := []
  nextJob : Nat := 1
  /-- arming stopped by a thermal trip (R345) or by power handling -/
  stopArm : Bool := false
  /-- tile sensors (R338) -/
  sens : AMap Sensor := []
  /-- T_CAL of each tile, 1/16 °C (R352) -/
  tcal : AMap Int := []
  /-- tiles queued for recalibration, with the reason (R349) -/
  recalQ : AMap Nat := []
  /-- recalibration pieces done, by tile (R347) -/
  calDone : AMap Nat := []
  /-- tiles with a piece running, and the effective reading at the start of their sweep piece -/
  calRun : List Nat := []
  /-- tiles whose ninth piece has ended in the open window: adopted at its end (R352) -/
  adopt : List Nat := []
  calTemp : AMap Int := []
  /-- a step waits for the pieces that run, so that no other starts (R351) -/
  calHold : Bool := false
  /-- tiles whose last adoption had an unfolded array (R355), and those whose last sweep left one -/
  foldFail : AMap Nat := []
  foldNew : AMap Nat := []
  /-- slot pairs by 16 × tile + slot -/
  pairs : AMap Pair := []
  /-- column remap buffers 0 and 1: entry word by 32 × physical array + entry (R64) -/
  colMap0 : AMap Nat := []
  colMap1 : AMap Nat := []
  /-- array remap buffers 0 and 1: entry word by logical array (R64) -/
  arrMap0 : AMap Nat := []
  arrMap1 : AMap Nat := []
  /-- index of the active remap buffer -/
  mapBuf : Nat := 0
  mapPend : Bool := false
  /-- trim records by 264 × array + converter (R67, R68); an unlisted one holds 0 while nothing has written it, else what the
  self-calibration found that last covered it: the draw of its free values, by 8 × tile + piece (R347; log entry 30) -/
  trim0 : AMap Nat := []
  trim1 : AMap Nat := []
  trimDef0 : AMap Nat := []
  trimDef1 : AMap Nat := []
  /-- tiles whose active trim buffer is 1 (R60) -/
  trimSel : AMap Nat := []
  trimPend : Bool := false
  /-- tiles whose exchange waits for a boundary (R60) -/
  tilePend : List Nat := []
  /-- converters marked failed, 264 × array + converter (R61) -/
  failed : AMap Nat := []
  /-- groups of converters, 8 × tile + piece, of which all are marked failed but those listed (R67) -/
  failAll : AMap (List Nat) := []
  selfcal : Option SelfCal := none
  /-- active drift records, word of R125 by 16 × array + tier; an unlisted record holds `driftBase`: unity, or 0 once the
  stack's partition has been destroyed (R432) -/
  drift : AMap Nat := []
  driftBase : Nat := 0x8000
  /-- inactive records that wait for adoption (R110) -/
  driftNext : AMap Nat := []
  /-- statistics of the running step and of the step before -/
  stat : AMap DriftStat := []
  statPrev : AMap DriftStat := []
  /-- arrays with frozen drift records (R112) -/
  frozen : AMap Nat := []
  /-- logical arrays masked for repair (R323) -/
  masked : AMap Nat := []
  /-- array-tiers being programmed, 16 × array + tier -/
  programming : AMap Nat := []
  /-- µs left of the calibration window that is open, its PAR, and whether it was opened at the present commit point (R350, R355) -/
  winLeft : Nat := 0
  winPar : Nat := 0
  winDone : Bool := false
  /-- the lifting of a thermal act waits for the partition's boundary (R344) -/
  liftPend : Bool := false
  /-- converters re-biased to the reduced-power setting by a thermal action (R55, R344) -/
  reduced : Bool := false
  /-- programming on the stack pauses from a thermal trip until the act is lifted (R173) -/
  progHold : Bool := false
  /-- parity failures of its tables and records found while the stack was idle, acted on when it next evaluates (R314) -/
  idleErr : List Origin := []
  deriving DecidableEq, Repr

/-! ### Weights in the arrays and the loader (R151 to R175) -/

/-- Programmed content of one array-tier: WMODE and the packed signed values of its LEVELS block (R151), or nothing. The
levels of all its cells follow from it (`TierCells.level`). -/
structure TierCells where
  wmode : Nat := 0
  vals : List Byte := []
  /-- spare columns programmed with it: (data column, spare) (R163) -/
  spares : List (Nat × Nat) := []
  /-- physical columns with cells left at their last level, how many (R164), and the draw that stands for which and at what
  level (log entry 99) -/
  failed : List (Nat × Nat × Nat) := []
  deriving DecidableEq, Repr

/-- Residency record of an array-tier (R483): bytes 0 to 7 and bytes 8 to 15. -/
structure Residency where
  id : Nat
  tag : Nat
  deriving DecidableEq, Repr

/-- A placement entry (R167). -/
structure PlEntry where
  layer : Nat
  expert : Nat
  matrix : Nat
  flags : Nat
  rowblk : Nat
  colblk : Nat
  stack : Nat
  tier : Nat
  array : Nat
  deriving DecidableEq, Repr

/-- A block record of a manifest (R151), with the address at which the loader placed it. -/
structure Blk where
  layer : Nat
  expert : Nat
  matrix : Nat
  kind : Nat
  bfmt : Nat
  rowblk : Nat
  colblk : Nat
  shard : Nat
  offset : Nat
  length : Nat
  /-- which image of the placement the block comes from -/
  img : Nat := 0
  /-- memory address of the block in a hub region; 0 for LEVELS -/
  addr : Nat := 0
  /-- is the block in its place -/
  resident : Bool := false
  /-- carried over or carried (R168, R484) -/
  carried : Bool := false
  deriving DecidableEq, Repr

/-- A shard entry of a manifest (R151). -/
structure ShardEntry where
  length : Nat
  offset : Nat
  digest : List Byte
  nonce : List Byte
  deriving DecidableEq, Repr

/-- An image that a placement's blocks come from. -/
structure ImageInfo where
  image : List Byte
  encrypted : Bool
  shards : List ShardEntry
  deriving DecidableEq, Repr

/-- A source record (R157). -/
structure SourceRec where
  addr : List Byte
  port : Nat
  nsid : Nat
  nqn : List Byte
  deriving DecidableEq, Repr

/-- Source records, key handle and timeout of the load that built a placement (R321). -/
structure FetchInfo where
  sources : List SourceRec := []
  keyHandle : Nat := 0
  shardTmo : Nat := 0
  deriving DecidableEq, Repr

/-- A placement with the blocks of its model (R167). -/
structure Placement where
  generation : Nat := 0
  /-- IMAGE_ID -/
  image : List Byte := []
  setAddr : Nat := 0
  /-- base and size of the four hub regions -/
  regions : List (Nat × Nat) := []
  entries : List PlEntry := []
  blocks : List Blk := []
  images : List ImageInfo := []
  fetch : FetchInfo := {}
  /-- header and entry bytes as they lay in memory (identity item 2 of R293) -/
  bytes : List Byte := []
  deriving DecidableEq, Repr

/-- A Read of the NVMe over Fabrics host that has not completed (R159 to R161): its number among those of what it fetches, the source
asked, and the bytes on the source. -/
structure ReadCmd where
  what : FetchOf
  index : Nat
  source : Nat
  offset : Nat
  len : Nat
  /-- number of the I/O queue pair that carries it; none while it waits for a place in its queue -/
  queue : Option Nat := none
  /-- device time at which it was sent -/
  since : Nat := 0
  deriving DecidableEq, Repr

/-- A shard that holds a place in the staging area (R160, R162). -/
structure ShardSt where
  /-- source asked -/
  source : Nat
  /-- attempts made, the first one included -/
  attempts : Nat := 1
  /-- device time of the first request (R161) -/
  since : Nat := 0
  accepted : Bool := false
  /-- place in the staging area, in units of 256 MiB -/
  slot : Nat
  deriving DecidableEq, Repr

/-- A running load (R156 to R165). -/
structure Load where
  mode : Nat
  kind : Nat
  stageAddr : Nat
  stageBytes : Nat
  faultAddr : Nat
  faultCap : Nat
  faultUsed : Nat := 0
  manifestOff : Nat
  fetch : FetchInfo
  manifestOk : Bool := false
  /-- PUBLISHER_KEY_ID -/
  keyId : List Byte := []
  placement : Placement := {}
  /-- shards not requested yet, ascending -/
  todo : List Nat := []
  shards : AMap ShardSt := []
  /-- device time of the start (R158), and the attempts made for shards that have left staging (R160) -/
  started : Nat := 0
  again : AMap Nat := []
  /-- LEVELS block of each placement entry, by entry index: 0 not staged, 1 staged, 3 done or not needed, 4 + 16 × physical
  array + tier while it is programmed -/
  levels : AMap Nat := []
  /-- what the programmer has read of a block that it programs, by entry index (R163) -/
  taken : AMap (List Byte) := []
  deriving DecidableEq, Repr

/-! ### Step-program sets (R198 to R204) -/

/-- A group entry (R200). -/
structure GroupEntry where
  entry : Nat
  tiles : Nat
  start : Bool
  esc : Bool
  deriving DecidableEq, Repr

/-- A chain record (R201). -/
structure ChainRec where
  descFirst : Nat
  descCount : Nat
  stack : Nat
  flags : Nat
  cadence : Nat
  sref : Nat
  rung : Nat
  fused : Nat
  outFmt : Nat
  collHub : Nat
  chain : Nat
  layer : Nat
  expert : Nat
  matrix : Nat
  colblk : Nat
  outTensor : Nat
  opndTensor : Nat
  consChain : Nat
  digTensor : Nat
  deriving DecidableEq, Repr

/-- A tensor descriptor (R202). -/
structure TensorRec where
  base : Nat
  scaleBase : Nat
  fmt : Nat
  rows : Nat
  cols : Nat
  stride : Nat
  deriving DecidableEq, Repr

/-- The contents of one bank of every store (R199). -/
structure StepSet where
  generation : Nat := 0
  image : List Byte := []
  /-- instruction words by 192 × hub + core -/
  code : AMap (List Nat) := []
  groups : AMap (List GroupEntry) := []
  /-- evaluation descriptors by stack -/
  descs : AMap (List Nat) := []
  chains : List ChainRec := []
  tensors : List TensorRec := []
  /-- call records of R142, 48 bytes each -/
  topk : List (List Byte) := []
  /-- SLOTPLAN section of each hub (R280) -/
  plan : List (Nat × List Byte) := []
  /-- the set as it lay in memory (identity item 1 of R293) -/
  bytes : List Byte := []
  deriving DecidableEq, Repr

/-! ### Digital cores (R176 to R197) -/

/-- A value with its poison origins (R184, R316): bit 0 ONDIE, bit 1 SHARED, bit 2 REQUEST; 0 is unpoisoned. -/
structure PVal where
  v : Nat := 0
  o : Nat := 0
  deriving DecidableEq, Repr

/-- What a group waits for (R179). -/
inductive Waiting
  | none
  | token (t : Nat)
  | barrier (n : Nat)
  | event (e v : Nat)
  | waypoint (k : Nat)
  deriving DecidableEq, Repr

/-- A thread group. -/
structure Group where
  running : Bool := false
  pc : Nat := 0
  /-- lane registers by 32 × register + lane -/
  v : AMap PVal := []
  /-- scalar registers -/
  s : AMap PVal := []
  /-- predicates p1 to p7: mask of 32 lanes by register -/
  p : AMap Nat := []
  /-- poison origins of predicates by 32 × register + lane -/
  pp : AMap Nat := []
  ret : List Nat := []
  /-- pending tokens -/
  toks : Nat := 0
  wait : Waiting := .none
  /-- program counter and scalars saved at the last waypoint (R189) -/
  savedPc : Nat := 0
  savedS : AMap PVal := []
  savedRet : List Nat := []
  /-- started with the step, so that a replay resumes it (R205, R210) -/
  saved : Bool := false
  deriving DecidableEq, Repr

/-- Kinds of transfer (R182, R192, R230). -/
inductive XferKind
  | load | store
  /-- to the scratch of another core of the hub -/
  | copy (core : Nat)
  /-- to the scratch of a core of another span member, delivered at an hc count, with the bytes taken at issue (R389) -/
  | remote (member hub core deliver : Nat)
  /-- gather: list of row addresses -/
  | gather (rows : List Nat)
  /-- APPEND of `count` entries of a layer from offset k (R230) -/
  | append (entry layer k count : Nat)
  /-- FETCH of a page ordinal (none: the candidate page) for queries from k (R230) -/
  | fetch (entry layer : Nat) (ord : Option Nat) (k count : Nat)
  /-- QEND of a query's output (R231) -/
  | qend (entry layer k bytes : Nat)
  deriving DecidableEq, Repr

/-- A transfer queued on a plan entry (R182, R183). -/
structure Xfer where
  src : GroupRef
  tok : Nat
  plan : Nat
  kind : XferKind
  scr : Nat
  mem : Nat
  len : Nat
  /-- 64-byte bursts moved so far, by their number in the transfer -/
  moved : List Nat := []
  part : Nat
  deriving DecidableEq, Repr

/-- One digital core. -/
structure CoreSt where
  /-- scratch bytes -/
  scratch : AMap Byte := []
  /-- poison origins by scratch word -/
  scrPoi : AMap Nat := []
  /-- accumulator tiles: 512 words by tile -/
  tiles : AMap (List PVal) := []
  groups : AMap Group := []
  /-- arrivals at barriers 0 to 15 (R187) -/
  bars : AMap Nat := []
  xfers : List Xfer := []
  deriving DecidableEq, Repr

/-! ### Hubs (R135 to R147, R208, R329 to R333) -/

/-- A chain's readout for one row, waiting at its collecting hub (R135, R139). -/
structure ChainVal where
  part : Nat
  chain : Nat
  row : Nat
  job : Nat
  rung : Nat
  /-- V_c by column, or the FP32 values that EPUT delivered -/
  vals : List Int
  flags : List Nat
  /-- S_c and S_E, kept for R300 -/
  sums : List Int := []
  sE : Int := 0
  pairs : Nat := 0
  rangePairs : Nat := 0
  widen : Nat := 0
  cover : List Int := []
  /-- tensor descriptor index of the input -/
  tensor : Nat
  /-- sent to the digital rung by the exact guard (R301) or for poisoned correction data (R119) -/
  asked : Bool := false
  /-- delivered by EPUT: FP32 patterns with poison -/
  dig : Option (List PVal) := none
  /-- poison origins of the input (R316) -/
  poison : Nat := 0
  exhausted : Bool := false
  deriving DecidableEq, Repr

/-- A queued digital-rung invocation (R208). -/
structure EscCall where
  part : Nat
  chain : Nat
  row : Nat
  tensor : Nat
  dig : Nat
  job : Nat
  deriving DecidableEq, Repr

/-- A top-k call on its way through its home hub (R142, R147): the record, its number in the step, and who waits. -/
structure TopkCall where
  part : Nat
  call : List Byte
  no : Nat
  src : GroupRef
  tok : Nat
  deriving DecidableEq, Repr

/-- A report record in assembly or emitted (R328). -/
structure Report where
  time : Nat
  unit : Nat
  inst : Nat
  loc : Nat
  kind : Nat
  sev : Nat
  count : Nat
  parts : Nat
  detail : Nat
  deriving DecidableEq, Repr

/-- A coalescing window (R329). -/
structure Window where
  opened : Nat
  rep : Report
  deriving DecidableEq, Repr

/-- The last row of results that the epilogue formed for a chain group, as a top-k call may take it (R142, SRC 0). -/
structure StreamRow where
  part : Nat
  layer : Nat
  expert : Nat
  matrix : Nat
  colblk : Nat
  vals : List PVal
  deriving DecidableEq, Repr

/-- One hub die's units. -/
structure HubSt where
  vals : List ChainVal := []
  esc : List EscCall := []
  topk : List TopkCall := []
  streams : List StreamRow := []
  /-- event counters by 256 × partition + event (R188) -/
  events : AMap Nat := []
  windows : List Window := []
  overflow : Option Window := none
  /-- black-box ring, oldest first, at most 4,096 records (R331) -/
  ring : List (List Byte) := []
  /-- a commit in progress: trigger time, cause, snapshot (R332) -/
  commit : Option (Nat × Nat × List (List Byte)) := none
  /-- the 64 hub sensors and the readouts of the 4 memory stacks (R338) -/
  sens : AMap Sensor := []
  mems : AMap Sensor := []
  /-- consecutive readings that met R343, by domain: 0 hub, 1 to 3 array stacks, 4 to 7 memory stacks -/
  hold : AMap Nat := []
  /-- frame buffers 0 and 1 (R276): entries that are not 0x0F, and lengths -/
  frame0 : AMap Nat := []
  frame1 : AMap Nat := []
  len0 : Nat := 1024
  len1 : Nat := 1024
  /-- slot of the active frame that runs or, at the start of a cycle, comes next; whether it has begun; next bank to refresh, and
  slots taken for a forced refresh by channel -/
  slotPos : Nat := 0
  begun : Bool := false
  /-- channels on which the slot that has begun, a SCRUB slot, has been used -/
  used : List Nat := []
  bank : Nat := 0
  taken : AMap Nat := []
  /-- device time of each channel's last refresh (R278) -/
  lastRef : AMap Nat := []
  /-- training runs (R271) -/
  training : Bool := false
  /-- a pace overrun has been counted in this frame cycle (R290) -/
  overrun : Bool := false
  /-- next patrol burst of each channel, as its number in the channel -/
  patrol : AMap Nat := []
  /-- MEM_PART_BASE and MEM_PART_SIZE as written, by partition (R274) -/
  partRegs : AMap (Nat × Nat) := []
  /-- partitions whose range clears (R275) -/
  clearing : List Nat := []
  /-- key slots of the hub's controllers: 0 to 11 for the partitions, 12 for firmware memory (R289) -/
  keys : AMap (List Byte) := []
  deriving DecidableEq, Repr

/-! ### Serving control and the key-value engine (R213 to R268) -/

/-- Parameters of a REQUEST that its hamper copies (R239, R244). -/
structure ReqParams where
  cls : Nat
  flags : Nat
  reqId : Nat
  seed : Nat
  deadline : Nat
  maxTokens : Nat
  temp : Nat
  topP : Nat
  topK : Nat
  rep : Nat
  presence : Nat
  frequency : Nat
  specNodes : Nat
  /-- stop sequences -/
  stops : List (List Nat)
  deriving DecidableEq, Repr

/-- A REQUEST or CANCEL frame accepted and not processed yet, with the device time of its acceptance and the request-frame format that
the link then had (R239, R259, R402). -/
structure InFrame where
  req : Bool
  time : Nat
  format : Nat := 0
  bytes : List Byte
  deriving DecidableEq, Repr

/-- A hamper (R244). State codes of R248: 1 QUEUED, 2 PREFILL, 3 DECODE, 4 ENDING. -/
structure Hamper where
  q : ReqParams
  admSeq : Nat
  admTime : Nat
  state : Nat
  cancelSeen : Bool := false
  /-- CANCELs waiting for the commit (R262) -/
  cancels : Nat := 0
  maskPend : Bool := false
  countFull : Bool := false
  preempted : Bool := false
  endPend : Bool := false
  promptLen : Nat
  /-- the prompt's token IDs -/
  prompt : List Nat
  outIndex : Nat := 0
  lastToken : Nat := 0
  ringOff : Option Nat
  generation : Nat
  /-- candidate tree record for the next step: 576 bytes, [] when none -/
  tree : List Byte := []
  /-- the last emitted tokens, newest first, as far as a stop sequence can reach -/
  recent : List Nat := []
  /-- count table: (token, count) in ascending token order (R245) -/
  counts : List (Nat × Nat) := []
  preemptReq : Bool := false
  deriving DecidableEq, Repr

/-- A prompt ring extent (R246). -/
structure Extent where
  off : Nat
  len : Nat
  slot : Nat
  released : Bool := false
  deriving DecidableEq, Repr

/-- A sequence record with its page table (R215). -/
structure Seq where
  live : Bool := true
  len : Nat := 0
  /-- table block of the directory, and table blocks of the leaves, in order -/
  dir : Option Nat := none
  leaves : List Nat := []
  /-- page by ordinal -/
  pages : List Nat := []
  /-- tree nodes of ordinals 0 to SHARED - 1 -/
  nodes : List Nat := []
  lastHash : Nat := 0
  cand : Option Nat := none
  share : Bool := false
  maskEmpty : Bool := false
  /-- poison origins held with the record (R317) -/
  poison : Nat := 0
  parked : Bool := false
  /-- the chain of inserts is broken (R222) -/
  broken : Bool := false
  /-- no lookup has succeeded in getting pages yet -/
  isNew : Bool := true
  deriving DecidableEq, Repr

/-- A prefix-tree node (R220). -/
structure Node where
  hash : Nat
  parent : Option Nat
  page : Nat
  refcnt : Nat
  children : Nat
  lastUse : Nat
  unshareable : Bool := false
  tokens : List Nat
  deriving DecidableEq, Repr

/-- A free list that is a stack (R217): released items on top, then the items `next` to `count` - 1 never taken. -/
structure FreeList where
  top : List Nat := []
  next : Nat := 0
  count : Nat := 0
  deriving DecidableEq, Repr

/-- A step-table entry (R251). -/
structure StepEntry where
  slot : Nat
  first : Nat
  n : Nat
  prefill : Bool
  sample : Bool
  /-- PARENT and TOKEN of each candidate node; [] without a tree -/
  tree : List (Nat × Nat) := []
  /-- the hamper's tree broke R233 -/
  badTree : Bool := false
  depth : Nat := 0
  cancelled : Bool := false
  tokAddr : Nat
  treeAddr : Nat := 0
  logitRow : Option Nat := none
  sampled : Nat := 0xFFFFFFFF
  /-- tokens drawn along the tree, the accepted node path, and how the draws ended -/
  drawn : List Nat := []
  path : List Nat := []
  /-- status that the draws give the request: 0 none, else a code of R240 -/
  bad : Nat := 0
  /-- a KVOP of the entry was in error, and one was when the latest waypoint was held (R232) -/
  opErr : Bool := false
  opErrHeld : Bool := false
  deriving DecidableEq, Repr

/-- A remote write on its way over a span (R389): 64 bytes of a partition to the scratch of a core of a member. -/
structure SpanWrite where
  member : Nat
  hub : Nat
  core : Nat
  scr : Nat
  deliver : Nat
  data : List Byte
  poison : Bool := false
  sig : Option Nat := none
  deriving DecidableEq, Repr

/-- Phase of a partition's step. -/
inductive StepPhase
  | idle
  /-- the step program runs -/
  | running
  /-- sampled; the commit cut may follow -/
  | sampled
  /-- cut made; resolution follows -/
  | cut
  deriving DecidableEq, Repr

/-- The running step of a partition. -/
structure StepSt where
  phase : StepPhase := .idle
  entries : List StepEntry := []
  rows : Nat := 0
  started : Nat := 0
  cutTime : Nat := 0
  halted : Bool := false
  /-- no timing-dependent choice and no disturbance so far, no unsure column, and pace locked throughout (R298) -/
  clean : Bool := true
  sure : Bool := true
  locked : Bool := true
  /-- top-k calls of the step: number of the next, positions returned by number, first number after the last waypoint
  (R147, R298) -/
  topkNext : Nat := 0
  topkRes : List (Nat × List Nat) := []
  topkKeep : Nat := 0
  /-- numbers of sampling's draws: the first, and the one after the last (R267, R298) -/
  draws : Option (Nat × Nat) := none
  replays : Nat := 0
  coreFaults : Nat := 0
  /-- origins of the detected errors of the step (R315) -/
  errors : List Origin := []
  /-- the mask table as read at formation (R228) -/
  masks : List Nat := []
  /-- escalated chains of the step: (layer, count, rung) (R93) -/
  layers : List (Nat × Nat × Nat) := []
  /-- rows raised in layer mode: (layer, tensor descriptor, row, rung) (R93) -/
  raised : List (Nat × Nat × Nat × Nat) := []
  /-- present waypoint number -/
  wpt : Nat := 0
  /-- frames accepted before the cut that are not processed yet (R259) -/
  cutFrames : Nat := 0
  deriving DecidableEq, Repr

/-- A waiting verdict (R320). -/
structure Verdict where
  stack : Nat
  array : Nat
  tier : Nat
  group : Nat
  cause : Nat
  step : Nat
  /-- 0 none, 1 fetching, 2 ready, 3 failed -/
  cover : Nat := 0
  slot : Nat := 0
  /-- its cover has been released: none is fetched for it again (R326) -/
  released : Bool := false
  deriving DecidableEq, Repr

/-- A cover slot in use (R321). -/
structure Cover where
  stack : Nat
  array : Nat
  ready : Bool := false
  masked : Bool := false
  /-- device time at which its fetch began, and failed attempts by shard + 262,144 × image (R160, R161, R321) -/
  since : Nat := 0
  tries : AMap Nat := []
  /-- LEVELS blocks held: (tier, WMODE, packed values) -/
  tiers : List (Nat × Nat × List Byte) := []
  deriving DecidableEq, Repr

/-- Values of one 32-element activation block as its producer formed them, with its range-pass record (R78, R100), and where its elements
lie: a write over them or over its scale byte ends the record (R79, R90). -/
structure BlockRec where
  addr : Nat
  len : Nat
  vals : List Nat
  rem : List Nat
  saturated : Bool
  deriving DecidableEq, Repr

/-- Items of a configuration identity as it was last computed (R292, R293). -/
structure CfgItems where
  set : List Byte := []
  placement : List Byte := []
  /-- register words in address order, then ranges as (base, size) of hubs 0 to 3 -/
  words : List Nat := []
  /-- (hub, frame entries, MEM_CH_EN) of each hub with slots -/
  frames : List (Nat × List Nat × List Nat) := []
  /-- (stack, valid column entries, valid array entries, failed converters, masked arrays) of each stack -/
  maps : List (Nat × AMap Nat × AMap Nat × List Nat × List Nat) := []
  /-- unavailable experts: (layer, expert) -/
  unavail : List (Nat × Nat) := []
  deriving DecidableEq, Repr

/-- Roll call and span step of a partition (R305 to R307, R389 to R392). -/
structure RollSt where
  /-- leader: members whose READY it holds, with the device time of arrival -/
  ready : List (Nat × Nat) := []
  /-- GO has come and the equalising delay runs -/
  delay : Bool := false
  /-- no span step until ROLL_RETRY -/
  failed : Bool := false
  /-- device time of the member's own boundary, from which GLB_ROLL_TMO counts (R307) -/
  since : Nat := 0
  /-- moves that the GO carried: (group, member) -/
  moves : List (Nat × Nat) := []
  /-- step count last seen in span-sequencer hc, and whether a REPLAY has been acted on in this step -/
  count : Nat := 0
  replayed : Bool := false
  deriving DecidableEq, Repr

/-- One partition. -/
structure PartSt where
  /-- mask of the array stacks it owns (R20, R430) -/
  stks : Nat := 0
  /-- core-set masks of hubs 0 to 3 (R177, R430) -/
  sets : List Nat := []
  /-- owner tag (R430) -/
  tag : Nat := 0
  /-- memory ranges in force: (hub, base in GiB, size in GiB) (R274) -/
  ranges : List (Nat × Nat × Nat) := []
  /-- switched placement pointer: 0 A, 1 B (R167) -/
  actBuf : Nat := 0
  active : Option Placement := none
  load : Option Load := none
  /-- a load whose checks wait for the clear of the partition's ranges (R487) -/
  loadWait : Bool := false
  /-- a load that reached DONE and waits for the switch -/
  loaded : Option Placement := none
  switchPend : Option Bool := none
  /-- ADM_SEQ at the accepted DRAIN SWITCH -/
  drainSeq : Nat := 0
  setAct : StepSet := {}
  setNew : StepSet := {}
  /-- address latched by a running verification (R203) -/
  verifying : Option Nat := none
  stepsSinceSwitch : Nat := 0
  admSeq : Nat := 0
  hampers : AMap Hamper := []
  /-- frames accepted and not processed yet (R259, R408), oldest first -/
  inbox : List InFrame := []
  /-- frames that wait for room in the response ring (R408), and where the next frame is written in it -/
  respWait : List (List Byte) := []
  respHead : Nat := 0
  ring : List Extent := []
  ringHead : Nat := 0
  seqs : AMap Seq := []
  nodes : AMap Node := []
  buckets : AMap (List Nat) := []
  pageFree : FreeList := {}
  tblFree : FreeList := {}
  nodeFree : FreeList := {}
  /-- token IDs of pages (R247) -/
  tokens : AMap (List Nat) := []
  /-- 4 KiB blocks of the pool that the engine has written since KVE was enabled (R214, log entry 15) -/
  kvWritten : AMap Nat := []
  step : StepSt := {}
  stepNo : Nat := 0
  /-- a step has been formed since creation (R481) -/
  stepped : Bool := false
  /-- a step's commit point: whether another step follows is not decided yet (R350, R351) -/
  between : Bool := false
  /-- image keys by handle (R429) -/
  imgKeys : AMap (List Byte) := []
  /-- XTS key pair in key slot n of every memory controller (R289, R431) -/
  memKey : List Byte := []
  /-- stacks whose clear at creation has not ended: 1 while it runs, 0 while it waits for a self-calibration (R431, R482) -/
  clear : AMap Nat := []
  /-- mailbox buffer, by byte (R437) -/
  mbox : AMap Byte := []
  verdicts : List Verdict := []
  covers : AMap Cover := []
  /-- spare programming that runs: stack, masked array, physical array; with MODE 1 the spare columns that it programs, as (data column,
  spare) (R325) -/
  spareRun : Option (Nat × Nat × Nat) := none
  spareCols : Option (List (Nat × Nat)) := none
  maskLift : List (Nat × Nat) := []
  /-- pending unavailability changes (layer, expert, set) -/
  unavailPend : List (Nat × Nat × Bool) := []
  unavail : List (Nat × Nat) := []
  /-- pending writes of 0 to EN: page index and instance -/
  disPend : List (Nat × Nat) := []
  /-- DCP and ACU pages whose disabling holds the partition's steps: page index and hub (R472) -/
  hold : List (Nat × Nat) := []
  cfg : CfgItems := {}
  flushPend : Bool := false
  quietPend : Bool := false
  /-- memory blocks found poisoned that the repair path fetches again (R119, R319): their addresses -/
  repairs : List Nat := []
  /-- the fetches of those that have not failed: failed attempts, and when they began, by address (R160, R161) -/
  repairTry : AMap (Nat × Nat) := []
  /-- Reads sent or waiting, oldest first (R159) -/
  reads : List ReadCmd := []
  /-- remote writes received that wait for their DELIVER count (R389) -/
  spanIn : List SpanWrite := []
  roll : RollSt := {}
  /-- frames in the response ring, oldest first: whole frames, header included (R408), and how many of them have been sent -/
  resp : List (List Byte) := []
  respSent : Nat := 0
  deriving DecidableEq, Repr

/-- The host link (R397 to R411). -/
structure LinkSt where
  /-- FEC lock on the 8 lanes -/
  trained : Bool := false
  /-- the peer's OFFER of this training, and whether its CONFIRM has come and ours has gone -/
  offer : Option (List Byte) := none
  confirmIn : Bool := false
  confirmOut : Bool := false
  /-- next FSEQ to send and to expect; whether one has been received since the reset -/
  txSeq : Nat := 0
  rxNext : Nat := 0
  rxValid : Bool := false
  nak : Bool := false
  /-- flits sent and not acknowledged, oldest first, with the partitions whose frames end in them -/
  replay : List (List Byte × List Nat) := []
  /-- flits of the replay buffer to be sent again, and resends of its oldest flit -/
  resend : Nat := 0
  fails : Nat := 0
  /-- device time from which the wait for an acknowledgement counts (R399), and since which the link is down (R411) -/
  since : Nat := 0
  downAt : Nat := 0
  /-- flits sent, oldest first, and the partition whose ring is served next -/
  out : List (List Byte) := []
  rr : Nat := 0
  /-- received frame stream not yet taken, and bytes of it to skip -/
  stream : List Byte := []
  skip : Nat := 0
  /-- the same of the flits of a link that trains (R400, R404) -/
  trainIn : List Byte := []
  trainSkip : Nat := 0
  /-- bytes of the frame being sent, and the partition whose ring it came from -/
  sending : List Byte := []
  sendPart : Option Nat := none
  /-- LINK, REG_COMPLETION and EVENT frames to send, and RESPONSE frames that belong to no partition -/
  linkOut : List (List Byte) := []
  comps : List (List Byte) := []
  /-- EVENT frames by hub -/
  evts : List (Nat × List Byte) := []
  resp0 : List (List Byte) := []
  /-- have credit pools been exchanged since the module's reset (R404); credits of the peer by channel, and credits to return -/
  pools : Bool := false
  credits : List Nat := [0, 0, 0]
  creditRet : List Nat := [0, 0, 0]
  deriving DecidableEq, Repr

/-! ### Network ports and spans (R377 to R396) -/

/-- A command of the NVMe over Fabrics host (R159): admin queue 0 or an I/O queue from 1 on; a Read gives the byte offset and the length. -/
inductive NvmeCmd
  | connect
  | propertyGet
  | identify (namespace_ : Bool)
  | keepAlive
  | read (offset len : Nat)
  deriving DecidableEq, Repr

/-- What a packet that a port sends carries beside its content. -/
structure IpMark where
  /-- ECT(0) (R381) -/
  ect : Bool := false
  /-- DF, set on every IPv4 packet (R379) -/
  df : Bool := false
  /-- address of the next hop, for a packet that is no answer to a station -/
  hop : Option Nat := none
  deriving DecidableEq, Repr

/-- What a network port or the management port sends besides its transport streams, as the model records it. -/
inductive NetOut
  | flit (bytes : List Byte)
  /-- an ARP reply to a station that asked for the port's address -/
  | arpReply (mac ip : List Byte)
  /-- a neighbour advertisement for the address asked for -/
  | advert (dest addr : List Byte) (ip : IpMark)
  /-- an echo reply with the data of its request -/
  | echoReply (dest data : List Byte) (ip : IpMark)
  /-- a congestion notification to the sender of a marked packet -/
  | cnp (dest : List Byte) (ip : IpMark)
  /-- a command of a partition to a source's queue -/
  | nvme (part source queue : Nat) (cmd : NvmeCmd) (ip : IpMark)
  deriving DecidableEq, Repr

/-- One network port. -/
structure PortSt where
  /-- next LSEQ to send and to expect, flits not acknowledged (at most 512), resends of the oldest, flits that wait -/
  txSeq : Nat := 0
  rxNext : Nat := 0
  replay : List (List Byte) := []
  resends : Nat := 0
  wait : List (List Byte) := []
  /-- device time from which the wait for an acknowledgement counts (R385) -/
  since : Nat := 0
  /-- what the port has sent, oldest first -/
  out : List NetOut := []
  /-- device time until which a PFC frame stops its packets, and what waits for that, with its bytes (R379) -/
  pausedTo : Nat := 0
  held : List (NetOut × Nat) := []
  /-- send rates that are not the line rate, in bit/s by queue pair (R381) -/
  rates : AMap Nat := []
  /-- device time of a queue pair's last notification or raise of its rate (R381) -/
  rateAt : AMap Nat := []
  deriving DecidableEq, Repr

/-- Route to a span member (R388). -/
structure Route where
  port : Nat := 0
  valid : Bool := false
  hops : Nat := 0
  lat : Nat := 0
  deriving DecidableEq, Repr

/-- A queue pair of the NVMe over Fabrics host (R159, R380). -/
structure QpSt where
  port : Nat
  /-- closed by a WRITE outside the areas of its partition -/
  closed : Bool := false
  /-- device time of the last command sent on it -/
  since : Nat := 0
  deriving DecidableEq, Repr

/-- The network ports, the queue pairs by number (log entry 49) and the span table. -/
structure FabSt where
  ports : AMap PortSt := []
  qps : AMap QpSt := []
  routes : AMap Route := []
  deriving DecidableEq, Repr

/-! ### Non-volatile cells (R166, R333, R415, R483) -/

/-- A black-box commit slot (R333). -/
structure BbSlot where
  seq : Nat
  bytes : List Byte
  deriving DecidableEq, Repr

/-- An identity seed bank (R425): 57-byte seed, 4-byte check, valid fuse. -/
structure SeedBank where
  seed : List Byte
  check : List Byte
  valid : Bool
  deriving DecidableEq, Repr

/-- A firmware slot (R420): header and code of each stage; [] where nothing is held. -/
structure FwSlot where
  stage1 : List Byte := []
  stage2 : List Byte := []
  deriving DecidableEq, Repr

/-- What outlives a reset and a loss of supply: the cells of the arrays, their reserved areas, and the fuses. -/
structure NonVol where
  /-- wear counters by 655,360 × stack + 16 × physical array + tier (R166); an unlisted counter has its stack's base -/
  wear : AMap Nat := []
  wearBase : AMap Nat := []
  /-- programmed tiers; an unlisted tier has data, checksum and spare columns at level 0 (R504), or unknown levels in the
  stacks of `unknown` (R456) -/
  cells : AMap TierCells := []
  unknown : AMap Nat := []
  residency : AMap Residency := []
  /-- marks of R348 that are clear: value 0 by key; an unlisted mark is set (R504) -/
  refMark : AMap Nat := []
  /-- owner tags of stacks (R431) -/
  tags : AMap Nat := []
  /-- life-cycle fuses, copies 0 to 2 (R415) -/
  lc : List Nat := [0, 0, 0]
  /-- life-cycle states whose clear at their first reset has ended (R419) -/
  lcCleared : List Nat := []
  /-- device identifier, key digests of slots 0 to 3, revoke fuses and burned SVN steps (R421, R423, R424, R436) -/
  devId : Nat := 0
  keyDigests : List (List Byte) := []
  revoked : Nat := 0
  svn : Nat := 0
  /-- seed banks that are not blank (R425) -/
  banks : AMap SeedBank := []
  /-- firmware slots 0 (A) and 1 (B), and the certificate kept in them (R420, R425) -/
  fw : AMap FwSlot := []
  cert : List Byte := []
  /-- publisher keys: Ed448 public keys in the order in which they were added (R429) -/
  pubKeys : List (List Byte) := []
  /-- commit slots by 4 × stack + slot (R332) -/
  bb : AMap BbSlot := []
  /-- stacks whose log field failed its last write (R332) -/
  logBad : AMap Nat := []
  deriving DecidableEq, Repr

/-! ### The module -/

/-- Device time and its reference (R7, R506). -/
structure Clk where
  devTime : Nat := 0
  /-- place in the group of five reference periods -/
  phase : Nat := 0
  refOn : Bool := true
  /-- reset released (R477, R494) -/
  released : Bool := false
  /-- reset is asserted and waits for a commit to end (R494) -/
  resetHeld : Bool := false
  /-- RESET_CAUSE of the next release: 1 power-on, 2 reset input -/
  cause : Nat := 1
  deriving DecidableEq, Repr

/-- Supplies and the pace governor (R356 to R371). -/
structure PwrSt where
  /-- consecutive 10 ms periods below 0.97 L, and above 4,400 W with every EFF at 32 (R362, R363) -/
  lowRun : Nat := 0
  overRun : Nat := 0
  /-- input energy below 1 J, in mJ -/
  energyMj : Nat := 0
  /-- last ring count, supply in 0.5 mV and consecutive windows out of the lock band, by pace domain (R303, R359) -/
  count : AMap Nat := []
  volt : AMap Nat := []
  outRun : AMap Nat := []
  /-- device time at which the power-fail warning was last deasserted -/
  pfwEnd : Option Nat := none
  /-- partitions on their way to ACTIVE; module transition: 1 into DOZE, 2 out of it, 3 out of it until a
  power-fail warning came (R372) -/
  rising : List Nat := []
  move : Nat := 0
  deriving DecidableEq, Repr

/-- Where an SPDM connection stands (R427): nothing agreed, then version, capabilities and algorithms. -/
structure SpdmConn where
  stage : Nat := 0
  /-- messages of the negotiation, and of the measurement exchange, as signatures cover them -/
  vca : List Byte := []
  meas : List Byte := []
  /-- request in chunks: bytes got and number of the next chunk; answer in chunks: bytes left and next number -/
  inBuf : List Byte := []
  inNext : Nat := 0
  outBuf : List Byte := []
  outNext : Nat := 0
  deriving DecidableEq, Repr

/-- An SPDM session (R427). -/
structure Session where
  /-- transport: partition of the mailbox, or 12 for MCTP -/
  via : Nat
  /-- FINISH has been accepted -/
  open_ : Bool := false
  /-- transcript of the key exchange, and the shared secret -/
  th : List Byte := []
  secret : List Byte := []
  /-- key updates of each direction, and records received and sent under the present keys -/
  reqGen : Nat := 0
  rspGen : Nat := 0
  rx : Nat := 0
  tx : Nat := 0
  deriving DecidableEq, Repr

/-- A written CREATE or DESTROY with what SEC_PART_CTL, SEC_PART_STACKS, SEC_PART_CORES0 and 1 and SEC_PART_TAG held then (R430, R432). -/
structure PartReq where
  create : Bool
  part : Nat
  stackSet : Nat
  sets : List Nat
  tag : Nat
  deriving DecidableEq, Repr

/-- The security block and the trailhead (R415 to R437). -/
structure SecSt where
  /-- header and code of the stages that run; [] before they are accepted -/
  stage1 : List Byte := []
  stage2 : List Byte := []
  /-- stacks whose clear of R419 runs at this reset -/
  retClear : List Nat := []
  /-- seed of the alias key (R426) -/
  alias_ : List Byte := []
  /-- SPDM connections by transport, 0 to 11 mailboxes and 12 MCTP, and sessions by ID -/
  conns : AMap SpdmConn := []
  sessions : AMap Session := []
  /-- partitions whose mailbox sessions end at the next access to the mailbox: the host lost them meanwhile (R435) -/
  lostHost : List Nat := []
  /-- XTS key pair of firmware memory (R289) -/
  fwKey : List Byte := []
  /-- CREATE and DESTROY that wait for the clears of an earlier CREATE, in write order (R435) -/
  partQ : List PartReq := []
  deriving DecidableEq, Repr

/-- Management: the lantern, the I3C port and its MCTP endpoint (R438 to R449). -/
structure MgtSt where
  /-- record sequence last given, lantern sequence last used, and the last 4,096 emitted records, newest first -/
  recSeq : Nat := 0
  lanSeq : Nat := 0
  held : List (List Byte) := []
  /-- records of the last 1 ms that wait for their datagram: emission time of the first, and the records -/
  lanOpen : Option (Nat × List (List Byte)) := none
  /-- copies of records of severity 3 still to be sent: when, record sequence, record (R449) -/
  lanAgain : List (Nat × Nat × List Byte) := []
  /-- datagrams sent, oldest first, each with the address of the station it went to: the collector, or the gateway (R447) -/
  lanOut : List (Nat × List Byte) := []
  /-- endpoint of the event receiver, and platform events not acknowledged: severity and record (R445) -/
  receiver : Option Nat := none
  evts : List (Nat × List Byte) := []
  /-- device times at which the events were last sent and the last HEARTBEAT went (R445, R449) -/
  evtAt : Nat := 0
  beatAt : Nat := 0
  /-- mandatory data bytes of the in-band interrupts raised, oldest first (R441) -/
  ibi : List Byte := []
  /-- MCTP messages queued for the bus owner (R442) -/
  mctpOut : List (List Byte) := []
  /-- what the management port answers to its neighbours (R448) -/
  net : List NetOut := []
  /-- device time of the last kick of each steward core, and of its watchdog resets, newest first, by 4 × hub + core (R440) -/
  kicks : AMap Nat := []
  resets : AMap (List Nat) := []
  /-- offset in steward memory at which a stage is entered, and the address at which each core that runs has last started, by
  4 × hub + core (R422, R440) -/
  entry : Nat := 0
  started : AMap Nat := []
  /-- I3C events that the controller has disabled, and answers to CCCs (R441) -/
  i3cOff : Nat := 0
  i3cOut : List (List Byte) := []
  /-- PLDM terminus ID -/
  tid : Nat := 0
  /-- an update has begun, and the checks of VerifyComplete have passed (R446) -/
  upd : Bool := false
  updOk : Bool := false
  deriving DecidableEq, Repr

/-- The self-test engine (R453): pattern passes of a full test that have begun. -/
structure BstSt where
  pass : Nat := 0
  /-- array-tiers that its passes have left out, by key, with the first pass that did (R453) -/
  skipped : List (Nat × Nat) := []
  deriving DecidableEq, Repr

/-- The whole module, with the queue of commands that wait. -/
structure State where
  clk : Clk
  /-- register fields by key; unlisted: the reset value of the field -/
  regs : AMap Nat
  /-- read and write shadows of each requester (R469) -/
  shadowR : AMap Nat
  shadowW : AMap Nat
  /-- what the last read of each requester brought it; 2^64 stands for an access-fault exception (R463) -/
  rdVal : AMap Nat
  mem : Memory
  /-- poisoned 64-byte bursts of memory by burst number, value 1 (R283, R316) -/
  poi : AMap Nat
  /-- activation blocks with the values that their producer formed, by the address of their scale byte -/
  blks : AMap BlockRec
  /-- steward memory of each hub: 64 MiB × hub + offset (R438, R462) -/
  stew : AMap Byte
  /-- bytes of steward memory whose parity bit fails, value 1 (R438) -/
  stewBad : AMap Nat
  nv : NonVol
  stks : AMap StackSt
  hubs : AMap HubSt
  parts : AMap PartSt
  cores : AMap CoreSt
  link : LinkSt
  fab : FabSt
  pwr : PwrSt
  mgt : MgtSt
  sec : SecSt
  bst : BstSt
  /-- error patterns of stored bursts: XOR by symbol number, by burst (R284) -/
  memErr : AMap (AMap Nat)
  /-- write-backs that wait, by 128 × hub + channel, oldest first: burst number, and whether it is written with POISON
  (R279, R284) -/
  memWb : AMap (List (Nat × Bool))
  /-- the model's own: counter from which free values are drawn (log entry 3) -/
  free : Nat
  /-- commands that wait, first in, first out -/
  pending : List Instr
  deriving DecidableEq, Repr

/-- The module at the moment its supply has come up and reset is held: every register field at its reset value, nothing
in memory, nothing programmed. -/
def State.reset : State where
  clk := {}
  regs := []
  shadowR := []
  shadowW := []
  rdVal := []
  mem := []
  poi := []
  blks := []
  stew := []
  stewBad := []
  nv := {}
  stks := []
  hubs := []
  parts := []
  cores := []
  link := {}
  fab := {}
  pwr := {}
  mgt := {}
  sec := {}
  bst := {}
  memErr := []
  memWb := []
  free := 0
  pending := []

end Sys2Proof.Machine
end

