-- ==== Sys2Proof/Machine/Flags.lean ====
section
/-! DEFINITION. Register fields, event flags and counters: the one place in which they are read and written. -/
namespace Sys2Proof.Machine

/-- Key of a field of one page instance in the field store. -/
def Field.key (f : Field) (i : Nat) : Nat := ((f.page.idx * 32 + i) * 4096 + f.off) * 32 + f.lo

/-- Value of a field. -/
def State.rd (s : State) (f : Field) (i : Nat) : Nat := AMap.getD s.regs (f.key i) f.reset

/-- Store a field's value, cut to its width. -/
def State.wr (f : Field) (i v : Nat) (s : State) : State :=
  { s with regs := AMap.put s.regs (f.key i) (v % 2 ^ f.width) f.reset }

/-- Is a one-bit field 1. -/
def State.is (s : State) (f : Field) (i : Nat) : Bool := s.rd f i != 0

/-- Store a Bool in a one-bit field. -/
def State.wrB (f : Field) (i : Nat) (b : Bool) (s : State) : State := s.wr f i (if b then 1 else 0)

/-- Set an event flag (R468): a flag that is 1 stays 1. -/
def State.raise (f : Field) (i : Nat) (s : State) : State := s.wr f i 1

/-- Add to a counter, which stops at its largest value (R65, R97, R124, R150, R469). -/
def State.bump (f : Field) (i n : Nat) (s : State) : State := s.wr f i (min (s.rd f i + n) (2 ^ f.width - 1))

/-- Count one occurrence. -/
def State.count (f : Field) (i : Nat) (s : State) : State := s.bump f i 1

/-- Set CONFIG_REFUSED and count the refused write (R466, R470). -/
def State.refuseWrite (p : Page) (i : Nat) (s : State) : State :=
  (s.raise (fieldConfigRefused p) i).count (fieldRefusedCnt p) i

/-- Is BLOCK_CTL.EN of a page 1. -/
def State.en (s : State) (p : Page) (i : Nat) : Bool := s.is (fieldEN p) i

/-- Apply a function when a condition holds. -/
def State.whenB (b : Bool) (f : State → State) (s : State) : State := if b then f s else s

/-- Apply a function for each element, in order. -/
def State.each {α : Type} (l : List α) (f : α → State → State) (s : State) : State := l.foldl (fun t x => f x t) s

/-! ### Unit records -/

/-- Record of an array stack. -/
def State.stk (s : State) (k : Nat) : StackSt := AMap.getD s.stks k {}
/-- Change the record of an array stack. -/
def State.onStk (k : Nat) (f : StackSt → StackSt) (s : State) : State :=
  { s with stks := AMap.put s.stks k (f (s.stk k)) {} }
/-- Record of a hub. -/
def State.hub (s : State) (h : Nat) : HubSt := AMap.getD s.hubs h {}
/-- Change the record of a hub. -/
def State.onHub (h : Nat) (f : HubSt → HubSt) (s : State) : State :=
  { s with hubs := AMap.put s.hubs h (f (s.hub h)) {} }
/-- Record of a partition. -/
def State.part (s : State) (p : Nat) : PartSt := AMap.getD s.parts p {}
/-- Change the record of a partition. -/
def State.onPart (p : Nat) (f : PartSt → PartSt) (s : State) : State :=
  { s with parts := AMap.put s.parts p (f (s.part p)) {} }
/-- Change the running step of a partition. -/
def State.onStep (p : Nat) (f : StepSt → StepSt) (s : State) : State :=
  s.onPart p (fun q => { q with step := f q.step })
/-- Record of a digital core: 192 × hub + core. -/
def State.core (s : State) (c : Nat) : CoreSt := AMap.getD s.cores c {}
/-- Change the record of a digital core. -/
def State.onCore (c : Nat) (f : CoreSt → CoreSt) (s : State) : State :=
  { s with cores := AMap.put s.cores c (f (s.core c)) {} }

/-- Number of a core in the module. -/
def coreNo (g : GroupRef) : Nat := 192 * g.hub.val + g.core.val

/-- Record of a thread group. -/
def State.grp (s : State) (g : GroupRef) : Group := AMap.getD (s.core (coreNo g)).groups g.group.val {}
/-- Change the record of a thread group. -/
def State.onGrp (g : GroupRef) (f : Group → Group) (s : State) : State :=
  s.onCore (coreNo g) (fun c => { c with groups := AMap.put c.groups g.group.val (f (AMap.getD c.groups g.group.val {})) {} })

/-- The next free value (log entry 3); the counter advances. -/
def State.takeFree (s : State) : Nat × State := (Config.freeNat s.free, { s with free := s.free + 1 })

/-- Have `ns` nanoseconds of device time passed since a moment (R9). -/
def State.passed (s : State) (since ns : Nat) : Bool := decide (since + ns ≤ s.clk.devTime)

/-- A draw of values that belong together (`Config.freeAt`); never 0. -/
def State.takeDraw (s : State) : Nat × State := (s.free + 1, { s with free := s.free + 2 })

/-- Change the non-volatile cells. -/
def State.onNv (f : NonVol → NonVol) (s : State) : State := { s with nv := f s.nv }

/-! ### Which units belong together -/

/-- The hub of an array stack: three stacks per hub (R16). -/
def hubOfStack (k : Nat) : Nat := k / 3

/-- Does partition p exist (SEC_PART_STAT.EXISTS). -/
def State.partExists (s : State) (p : Nat) : Bool := (s.rd R.SECG.PART_STAT_EXISTS 0).testBit p

/-- Record in an event flag and a counter at once. -/
def State.flagCount (f c : Field) (i : Nat) (s : State) : State := (s.raise f i).count c i

/-- An access to the page of a partition that does not exist (R433). -/
def State.noPart (s : State) : State := s.count R.SECG.NOPART_CNT 0

/-- An action that a write to a page of a partition starts: none where the partition does not exist (R433). -/
def State.ofPart (p : Nat) (act : State → State) (s : State) : State := if s.partExists p then act s else s.noPart

/-- Note something about the step that runs in a partition, if one does. -/
def State.noteStep (p : Nat) (f : StepSt → StepSt) (s : State) : State :=
  s.whenB ((s.part p).step.phase != .idle) (fun s => s.onStep p f)

/-- One timing-dependent choice of a partition, with the counter of its cause (R296); its step is not clean (R298). -/
def State.nonDet (p : Nat) (cause : Field) (s : State) : State :=
  (((s.count R.GLB.ND_CNT p).count cause p).raise R.GLB.EVT_ND_EVENT p).noteStep p (fun t => { t with clean := false })

/-- One disturbance of a partition (R297); its step is not clean (R298). -/
def State.disturb (p : Nat) (s : State) : State :=
  ((s.count R.GLB.DISTURB_CNT p).raise R.GLB.EVT_DISTURBED p).noteStep p (fun t => { t with clean := false })

/-! ### State codes (R373) -/

/-- State code of a partition: 1 ACTIVE, 2 QUIET, 0 none. -/
def State.partState (s : State) (p : Nat) : Nat := bits (s.rd R.PWR.PART_STATE 0) (2 * p) 2
/-- Store a partition's state code. -/
def State.setPartState (p v : Nat) (s : State) : State := s.wr R.PWR.PART_STATE 0 (setBits (s.rd R.PWR.PART_STATE 0) (2 * p) 2 v)
/-- State code of an array stack. -/
def State.stackState (s : State) (k : Nat) : Nat := bits (s.rd R.PWR.STACK_STATE 0) (2 * k) 2
/-- Store a stack's state code. -/
def State.setStackState (k v : Nat) (s : State) : State := s.wr R.PWR.STACK_STATE 0 (setBits (s.rd R.PWR.STACK_STATE 0) (2 * k) 2 v)

end Sys2Proof.Machine
end

