-- ==== Sys2Proof/Machine/Fp32.lean ====
section
/-! DEFINITION. Binary floating point, exactly: FP32 and BF16 arithmetic with round to nearest-even (R84, R194), the
element formats of R81 and the scale byte SB8 of R69. A value is taken apart into sign, significand and exponent, the
operation is formed on integers without error, and one rounding ends it. -/
namespace Sys2Proof.Machine

/-- A floating-point value taken apart. -/
inductive FV
  | nan
  | inf (neg : Bool)
  /-- (-1)^neg × m × 2^e -/
  | fin (neg : Bool) (m : Nat) (e : Int)
  deriving DecidableEq, Repr

/-- The quiet NaN of R194. -/
def qNaN : Nat := 0x7FC00000

/-- The value of an FP32 bit pattern (IEEE 754 binary32). -/
def fpDec (b : Nat) : FV :=
  let neg := b.testBit 31
  let ex := (b >>> 23) % 256
  let fr := b % 0x800000
  if ex = 255 then (if fr = 0 then .inf neg else .nan)
  else if ex = 0 then .fin neg fr (-149)
  else .fin neg (fr + 0x800000) ((ex : Int) - 150)

/-- The sign bit of an FP32 pattern. -/
def signBit (neg : Bool) : Nat := if neg then 0x80000000 else 0

/-- m / 2^sh rounded to nearest-even; `sticky` says that the exact value lies strictly above m, by less than one. -/
def shrRNE (m sh : Nat) (sticky : Bool) : Nat :=
  if sh = 0 then m
  else
    let q := m >>> sh
    let r := m % 2 ^ sh
    let h := 2 ^ (sh - 1)
    if r > h || (r == h && (sticky || q % 2 == 1)) then q + 1 else q

/-- Significand and exponent of m × 2^e rounded to `p` bits, the least exponent being `emin`. -/
def roundSig (p : Nat) (emin : Int) (m : Nat) (e : Int) (sticky : Bool) : Nat × Int :=
  if m = 0 then (0, emin)
  else
    let l : Int := (Nat.log2 m : Int) + 1
    let te := max (e + l - (p : Int)) emin
    let q := if te ≤ e then m <<< (e - te).toNat else shrRNE m (te - e).toNat sticky
    if q = 2 ^ p then (2 ^ (p - 1), te + 1) else (q, te)

/-- The FP32 pattern nearest to (-1)^neg × m × 2^e, ties to even; overflow gives an infinity. -/
def fpEnc (neg : Bool) (m : Nat) (e : Int) (sticky : Bool := false) : Nat :=
  let (q, te) := roundSig 24 (-149) m e sticky
  if te > 104 then signBit neg + 0x7F800000
  else if q < 0x800000 then signBit neg + q
  else signBit neg + ((te + 150).toNat <<< 23) + (q - 0x800000)

/-- Encode a taken-apart value; a NaN result is the quiet NaN of R194. -/
def fpPack : FV → Nat
  | .nan => qNaN
  | .inf n => signBit n + 0x7F800000
  | .fin n m e => fpEnc n m e

/-- The FP32 pattern nearest to an integer × 2^e. -/
def fpOfInt (x e : Int) : Nat := fpEnc (x < 0) x.natAbs e

/-- The FP32 pattern nearest to a quotient n / d of integers × 2^e, d above 0. -/
def fpOfRat (n : Int) (d : Nat) (e : Int) : Nat :=
  let k : Nat := 64 + Nat.log2 d
  let a := n.natAbs <<< k
  fpEnc (n < 0) (a / d) (e - k) (a % d != 0)

/-- Signed significand of a finite value. -/
def sgn (neg : Bool) (m : Nat) : Int := if neg then -(m : Int) else (m : Int)

/-- Exact sum of two finite values over a common exponent. -/
def exactAdd (n1 : Bool) (m1 : Nat) (e1 : Int) (n2 : Bool) (m2 : Nat) (e2 : Int) : Int × Int :=
  let e := min e1 e2
  (sgn n1 m1 * (2 ^ (e1 - e).toNat : Nat) + sgn n2 m2 * (2 ^ (e2 - e).toNat : Nat), e)

/-- Sum of two taken-apart values, rounded once to FP32. -/
def fvAdd : FV → FV → Nat
  | .nan, _ => qNaN
  | _, .nan => qNaN
  | .inf a, .inf b => if a = b then signBit a + 0x7F800000 else qNaN
  | .inf a, _ => signBit a + 0x7F800000
  | _, .inf b => signBit b + 0x7F800000
  | .fin n1 m1 e1, .fin n2 m2 e2 =>
    let (x, e) := exactAdd n1 m1 e1 n2 m2 e2
    if x = 0 then (if n1 && n2 then 0x80000000 else 0) else fpOfInt x e

/-- Exact product of two taken-apart values. -/
def fvMul : FV → FV → FV
  | .nan, _ => .nan
  | _, .nan => .nan
  | .inf a, .inf b => .inf (a != b)
  | .inf a, .fin n m _ => if m = 0 then .nan else .inf (a != n)
  | .fin n m _, .inf b => if m = 0 then .nan else .inf (n != b)
  | .fin n1 m1 e1, .fin n2 m2 e2 => .fin (n1 != n2) (m1 * m2) (e1 + e2)

/-- FP32 addition (R194). -/
def fpAdd (a b : Nat) : Nat := fvAdd (fpDec a) (fpDec b)
/-- FP32 negation of a pattern. -/
def fpNeg (a : Nat) : Nat := a ^^^ 0x80000000
/-- FP32 subtraction. -/
def fpSub (a b : Nat) : Nat := fpAdd a (fpNeg b)
/-- FP32 multiplication (R194). -/
def fpMul (a b : Nat) : Nat := fpPack (fvMul (fpDec a) (fpDec b))
/-- A × B + C with one rounding (R192, R194). -/
def fpFma (a b c : Nat) : Nat := fvAdd (fvMul (fpDec a) (fpDec b)) (fpDec c)

/-- Quotient of two taken-apart values in FP32. -/
def fvDiv : FV → FV → Nat
  | .nan, _ => qNaN
  | _, .nan => qNaN
  | .inf _, .inf _ => qNaN
  | .inf a, .fin n _ _ => signBit (a != n) + 0x7F800000
  | .fin n _ _, .inf b => signBit (n != b)
  | .fin n1 m1 e1, .fin n2 m2 e2 =>
    if m2 = 0 then (if m1 = 0 then qNaN else signBit (n1 != n2) + 0x7F800000)
    else if m1 = 0 then signBit (n1 != n2)
    else
      let k : Nat := 64 + Nat.log2 m2
      let a := m1 <<< k
      fpEnc (n1 != n2) (a / m2) (e1 - e2 - k) (a % m2 != 0)

/-- FP32 division, correctly rounded. -/
def fpDiv (a b : Nat) : Nat := fvDiv (fpDec a) (fpDec b)

/-- FP32 one. -/
def fpOne : Nat := 0x3F800000

/-- FRCP of R194. -/
def fpRcp (a : Nat) : Nat := fpDiv fpOne a

/-- FRSQ of R194: 1/√A correctly rounded; a negative non-zero argument gives NaN, a zero an infinity of its sign. -/
def fpRsq (a : Nat) : Nat :=
  match fpDec a with
  | .nan => qNaN
  | .inf n => if n then qNaN else 0
  | .fin n m e =>
    if m = 0 then signBit n + 0x7F800000
    else if n then qNaN
    else
      -- make the exponent even, then 1/√(m·2^e) = √(2^(2k)/m)·2^(-k-e/2)
      let (m, e) := if e % 2 = 0 then (m, e) else (m * 2, e - 1)
      let k : Nat := 64 + Nat.log2 m
      let x := (2 ^ (2 * k)) / m
      let r := Nat.sqrt x
      fpEnc false r (-(k : Int) - e / 2) (r * r * m != 2 ^ (2 * k))

/-- ln 2 in units of 2^-160. -/
def ln2Fix : Nat := 1013035739299659071135698605846798551586536899366

/-- exp of x·2^-160 by its series, `n` terms, in units of 2^-160. -/
def expSeries (x : Nat) : Nat → Nat → Nat → Nat
  | 0, _, _ => 0
  | n + 1, k, t => t + expSeries x n (k + 1) ((t * x / 2 ^ 160) / k)

/-- 2^(f·2^-150) for a fraction f below 2^150, in units of 2^-160. -/
def exp2Frac (f : Nat) : Nat := expSeries (f * ln2Fix / 2 ^ 150) 48 1 (2 ^ 160)

/-- FEX2 of R194: 2^A correctly rounded, subnormal results kept. The fixed-point error is below 2^-140, far inside the
distance of any FP32 argument's value from a rounding boundary (DEDUCED). -/
def fpEx2 (a : Nat) : Nat :=
  match fpDec a with
  | .nan => qNaN
  | .inf n => if n then 0 else 0x7F800000
  | .fin n m e =>
    if m = 0 then fpOne
    else
      let l : Int := (Nat.log2 m : Int) + e
      if l ≥ 8 then (if n then 0 else 0x7F800000)
      else if l < -40 then fpOne
      else
        let fx : Int := sgn n m * (2 ^ (e + 150).toNat : Nat)
        let ip := fx.fdiv (2 ^ 150 : Nat)
        let f := (fx - ip * (2 ^ 150 : Nat)).toNat
        if f = 0 then fpEnc false 1 ip else fpEnc false (exp2Frac f) (ip - 160) true

/-- Fraction bits of log2 by repeated squaring: y is in units of 2^-320, in [1, 2). -/
def log2Bits : Nat → Nat → Nat → Nat
  | 0, _, acc => acc
  | n + 1, y, acc =>
    let z := y * y / 2 ^ 320
    if z ≥ 2 ^ 321 then log2Bits n (z / 2) (2 * acc + 1) else log2Bits n z (2 * acc)

/-- FLG2 of R194: log₂ A correctly rounded; a negative non-zero argument gives NaN, a zero minus infinity. 120 fraction
bits are formed (DEDUCED: past every rounding boundary of an FP32 argument). -/
def fpLg2 (a : Nat) : Nat :=
  match fpDec a with
  | .nan => qNaN
  | .inf n => if n then qNaN else 0x7F800000
  | .fin n m e =>
    if m = 0 then 0xFF800000
    else if n then qNaN
    else
      let l := Nat.log2 m
      let y := m <<< (320 - l)
      let fr := if y = 2 ^ 320 then 0 else log2Bits 120 y 0
      let v : Int := ((l : Int) + e) * (2 ^ 120 : Nat) + fr
      if v = 0 then 0
      else if fr = 0 then fpOfInt v (-120)
      else if v < 0 then fpEnc true (2 * v.natAbs - 1) (-121) true
      else fpEnc false v.natAbs (-120) true

/-- Total order key of comparable FP32 values: equal zeros. -/
def fpLt (a b : Nat) : Bool :=
  match fpDec a, fpDec b with
  | .nan, _ => false
  | _, .nan => false
  | .inf n, .inf k => n && !k
  | .inf n, _ => n
  | _, .inf k => !k
  | .fin n1 m1 e1, .fin n2 m2 e2 => decide ((exactAdd n1 m1 e1 (!n2) m2 e2).1 < 0)

/-- FP32 equality: zeros of either sign are equal, a NaN equals nothing. -/
def fpEq (a b : Nat) : Bool :=
  match fpDec a, fpDec b with
  | .nan, _ => false
  | _, .nan => false
  | .inf n, .inf k => n == k
  | .fin n1 m1 e1, .fin n2 m2 e2 => decide ((exactAdd n1 m1 e1 (!n2) m2 e2).1 = 0)
  | _, _ => false

/-- Is the pattern a NaN. -/
def fpIsNaN (a : Nat) : Bool := match fpDec a with | .nan => true | _ => false
/-- Is the pattern a NaN or an infinity. -/
def fpNonFinite (a : Nat) : Bool := match fpDec a with | .fin _ _ _ => false | _ => true
/-- Is the pattern a zero of either sign. -/
def fpIsZero (a : Nat) : Bool := match fpDec a with | .fin _ m _ => m == 0 | _ => false

/-- FMAX of R192: NaN if either operand is NaN; −0 orders below +0. -/
def fpMax (a b : Nat) : Nat :=
  if fpIsNaN a || fpIsNaN b then qNaN
  else if fpLt a b then b else if fpLt b a then a
  else if a.testBit 31 then b else a
/-- FMIN of R192. -/
def fpMin (a b : Nat) : Nat :=
  if fpIsNaN a || fpIsNaN b then qNaN
  else if fpLt a b then a else if fpLt b a then b
  else if a.testBit 31 then a else b

/-- FP32 magnitude. -/
def fpAbs (a : Nat) : Nat := a % 0x80000000

/-! ### Narrow formats -/

/-- A narrow floating format: exponent bits, fraction bits, bias, and whether the top exponent is reserved for
infinities and NaN (R81: the OCP element encodings). -/
structure NFmt where
  eb : Nat
  fb : Nat
  bias : Nat
  /-- 0: no special codes; 1: E4M3 (only S.1111.111 is NaN); 2: IEEE (infinities and NaN) -/
  special : Nat
  deriving DecidableEq, Repr

/-- BF16. -/
def fmtBF16 : NFmt := ⟨8, 7, 127, 2⟩
/-- FP8 E4M3. -/
def fmtE4M3 : NFmt := ⟨4, 3, 7, 1⟩
/-- FP8 E5M2. -/
def fmtE5M2 : NFmt := ⟨5, 2, 15, 2⟩
/-- FP6 E2M3. -/
def fmtE2M3 : NFmt := ⟨2, 3, 1, 0⟩
/-- FP6 E3M2. -/
def fmtE3M2 : NFmt := ⟨3, 2, 3, 0⟩
/-- FP4 E2M1. -/
def fmtE2M1 : NFmt := ⟨2, 1, 1, 0⟩

/-- Bits of an element of a narrow format. -/
def NFmt.bits (f : NFmt) : Nat := 1 + f.eb + f.fb

/-- The value of a narrow element. -/
def NFmt.dec (f : NFmt) (x : Nat) : FV :=
  let neg := x.testBit (f.eb + f.fb)
  let ex := (x >>> f.fb) % 2 ^ f.eb
  let fr := x % 2 ^ f.fb
  let top := 2 ^ f.eb - 1
  if f.special = 2 && ex = top then (if fr = 0 then .inf neg else .nan)
  else if f.special = 1 && ex = top && fr = 2 ^ f.fb - 1 then .nan
  else if ex = 0 then .fin neg fr (1 - (f.bias : Int) - f.fb)
  else .fin neg (fr + 2 ^ f.fb) ((ex : Int) - f.bias - f.fb)

/-- The largest finite code (magnitude). -/
def NFmt.maxCode (f : NFmt) : Nat :=
  if f.special = 2 then (2 ^ f.eb - 1) * 2 ^ f.fb - 1
  else if f.special = 1 then 2 ^ (f.eb + f.fb) - 2
  else 2 ^ (f.eb + f.fb) - 1

/-- The narrow code nearest to (-1)^neg × m × 2^e. BF16 and E5M2 overflow to an infinity (R83); the other formats have
none and end at the largest finite element. -/
def NFmt.encFin (f : NFmt) (neg : Bool) (m : Nat) (e : Int) (sticky : Bool := false) : Nat :=
  let emin : Int := 1 - (f.bias : Int) - f.fb
  let (q, te) := roundSig (f.fb + 1) emin m e sticky
  let s := if neg then 2 ^ (f.eb + f.fb) else 0
  let mag : Nat := if q < 2 ^ f.fb then q else (te - emin + 1).toNat * 2 ^ f.fb + (q - 2 ^ f.fb)
  if mag > f.maxCode then s + (if f.special = 2 then (2 ^ f.eb - 1) * 2 ^ f.fb else f.maxCode) else s + mag

/-- Conversion of an FP32 pattern to a narrow format, unscaled (R83, FCVT of R192). -/
def NFmt.enc (f : NFmt) (x : Nat) : Nat :=
  match fpDec x with
  | .nan =>
    if f.special = 2 then (2 ^ f.eb - 1) * 2 ^ f.fb + 2 ^ (f.fb - 1)
    else if f.special = 1 then (if x.testBit 31 then 2 ^ (f.eb + f.fb) else 0) + 2 ^ (f.eb + f.fb) - 1
    else 0
  | .inf n =>
    let s := if n then 2 ^ (f.eb + f.fb) else 0
    if f.special = 2 then s + (2 ^ f.eb - 1) * 2 ^ f.fb else s + f.maxCode
  | .fin n m e => f.encFin n m e

/-- Does the spec state the code of this conversion: not for a NaN or an infinity in a format without one, nor for a finite
value beyond the largest element of a format other than BF16 (R83 names only BF16's overflow). -/
def NFmt.stated (f : NFmt) (x : Nat) : Bool :=
  match fpDec x with
  | .nan => f.special != 0
  | .inf _ => f.special == 2
  | .fin _ m e =>
    let emin : Int := 1 - (f.bias : Int) - f.fb
    let (q, te) := roundSig (f.fb + 1) emin m e false
    let mag : Nat := if q < 2 ^ f.fb then q else (te - emin + 1).toNat * 2 ^ f.fb + (q - 2 ^ f.fb)
    f.eb == 8 || (decide (mag ≤ f.maxCode))

/-- BF16() of R100: round to nearest-even, as an FP32 pattern. -/
def bf16Of (x : Nat) : Nat := fmtBF16.enc x <<< 16
/-- FP32 pattern of a BF16 code. -/
def bf16Dec (x : Nat) : Nat := (x % 65536) <<< 16

/-! ### SB8 (R69) -/

/-- The value of an SB8 code as a significand over 2^-17 (codes 0x00 to 0xFE). -/
def sb8Sig (c : Nat) : Nat × Int :=
  let ex := c / 8
  let m := c % 8
  if ex = 0 then (m, -17) else (8 + m, (ex : Int) - 18)

/-- The value of an SB8 code; 0xFF decodes to NaN (R83). -/
def sb8Val (c : Nat) : FV :=
  if c = 0xFF then .nan else let (m, e) := sb8Sig c; .fin false m e

/-- Is SB8 code c at least the exact quotient (m × 2^e) / x. -/
def sb8Ge (c m : Nat) (e : Int) (x : Nat) : Bool :=
  let (sm, se) := sb8Sig c
  -- sm·2^se·x ≥ m·2^e
  let lo := min se e
  decide (m * 2 ^ (e - lo).toNat ≤ sm * x * 2 ^ (se - lo).toNat)

/-- The smallest SB8 code at least (m × 2^e) / (x × 2^xe), or 0xFF when it exceeds 114,688 (R83). -/
def sb8Ceil (m : Nat) (e : Int) (x : Nat) (xe : Int) : Nat :=
  ((List.range 255).find? (fun c => sb8Ge c m (e - xe) x)).getD 0xFF

end Sys2Proof.Machine
end

