-- ==== Sys2Proof/Machine/Hash.lean ====
section
/-! DEFINITION. The digests and check values the spec names: SHAKE256 (R151, R154, R293, R298), SHA3-512 (R425), CRC-32C
(R105, R287, R333) and the Reed–Solomon arithmetic's field GF(2^8) (R283). -/
namespace Sys2Proof.Machine

/-! ### The permutation under SHAKE256 and SHA3-512

The spec names the functions and no text of theirs (PRESUMED, log entry 122). The 1,600-bit state is one number: plane y is its bits 320y to 320y + 319, and
lane x of a plane its bits 64x to 64x + 63. -/

/-- Bits of a plane of five lanes. -/
def planeBits : Nat := 320

/-- Move every lane of a plane k places down: lane x becomes lane x + k of the old plane. -/
def lanesFrom (k p : Nat) : Nat := bits p (64 * k) (planeBits - 64 * k) + bits p 0 (64 * k) * 2 ^ (planeBits - 64 * k)

/-- A lane turned up by r bits. -/
def turnLane (r x : Nat) : Nat := bits (x * 2 ^ r) 0 64 + bits (x * 2 ^ r) 64 64

/-- Every lane of a plane turned up by its own count. -/
def turnPlane (rs : List Nat) (p : Nat) : Nat :=
  ((List.range 5).zip rs).foldr (fun x acc => turnLane x.2 (bits p (64 * x.1) 64) + acc * 2 ^ 64) 0

/-- θ: each plane is changed by the column parities beside it. -/
def thetaPlanes (ps : List Nat) : List Nat :=
  let parity := ps.foldl (· ^^^ ·) 0
  let change := lanesFrom 4 parity ^^^ turnPlane [1, 1, 1, 1, 1] (lanesFrom 1 parity)
  ps.map (· ^^^ change)

/-- Turns of ρ, plane by plane of what π makes: lane x of the new plane y comes from lane x + 3y of plane x. -/
def rhoTurns : List (List Nat) :=
  [[0, 44, 43, 21, 14], [28, 20, 3, 45, 61], [1, 6, 25, 8, 18], [27, 36, 10, 15, 56], [62, 55, 39, 41, 2]]

/-- π and ρ. -/
def piRhoPlanes (ps : List Nat) : List Nat :=
  ((List.range 5).zip rhoTurns).map (fun y =>
    turnPlane y.2 (((List.range 5).zip ps).foldr (fun x acc => bits x.2 (64 * ((x.1 + 3 * y.1) % 5)) 64 + acc * 2 ^ 64) 0))

/-- χ on a plane. -/
def chiPlane (p : Nat) : Nat := p ^^^ ((2 ^ planeBits - 1 - lanesFrom 1 p) &&& lanesFrom 2 p)

/-- ι: a round's constant has bits only at the places 2^j − 1; the numbers of `roundMarks` say for which j from 0 to 6. -/
def iotaOf (marks : Nat) : Nat := (List.range 7).foldl (fun c j => if marks.testBit j then c + 2 ^ (2 ^ j - 1) else c) 0

/-- The marks of the 24 rounds. -/
def roundMarks : List Nat := [1, 26, 94, 112, 31, 33, 121, 85, 14, 12, 53, 38, 63, 79, 93, 83, 82, 72, 22, 102, 121, 88, 33, 116]

/-- The permutation of a state. -/
def permute (st : Nat) : Nat :=
  let planes := (List.range 5).map (fun y => bits st (planeBits * y) planeBits)
  let out := roundMarks.foldl (fun ps m =>
    ((List.range 5).zip ((piRhoPlanes (thetaPlanes ps)).map chiPlane)).map (fun x => if x.1 = 0 then x.2 ^^^ iotaOf m else x.2)) planes
  out.foldr (fun p acc => p + acc * 2 ^ planeBits) 0

/-- A message with its domain bits `dom` and the last bit of the padding, as one number of `n` blocks of `rate` bytes. -/
def paddedNumber (rate dom n : Nat) (m : List Byte) : Nat := leNat m + dom * 256 ^ m.length + 128 * 256 ^ (rate * n - 1)

/-- The first `out` bytes that the states of a sponge give, `rate` bytes from each; `blocks` bounds their number. -/
def drawBytes (rate out : Nat) : Nat → Nat → List Byte
  | 0, _ => []
  | blocks + 1, st => leBytes (min rate out) st ++ drawBytes rate (out - rate) blocks (permute st)

/-- Hash a message: its blocks go into the state one after the other, then `out` bytes are drawn. -/
def hashBytes (rate dom : Nat) (m : List Byte) (out : Nat) : List Byte :=
  let n := m.length / rate + 1
  let msg := paddedNumber rate dom n m
  let st := (List.range n).foldl (fun st i => permute (st ^^^ bits msg (8 * rate * i) (8 * rate))) 0
  drawBytes rate out (cdiv out rate) st

/-- SHAKE256 with `out` bytes of output. -/
def shake256 (m : List Byte) (out : Nat) : List Byte := hashBytes 136 0x1F m out

/-- SHA3-512. -/
def sha3_512 (m : List Byte) : List Byte := hashBytes 72 0x06 m 64

/-- First 8 bytes of SHAKE256, read little-endian (R293, R298). -/
def shake64 (m : List Byte) : Nat := leNat (shake256 m 8)

/-- One bit step of the reflected CRC-32C. -/
def crcBit (c : Nat) : Nat := if c % 2 = 1 then (c / 2) ^^^ 0x82F63B78 else c / 2

/-- CRC-32C over bytes from a running value. -/
def crcStep (c : Nat) (b : Byte) : Nat :=
  let x := c ^^^ b.toNat
  crcBit (crcBit (crcBit (crcBit (crcBit (crcBit (crcBit (crcBit x)))))))

/-- CRC-32C (Castagnoli, reflected, initial and final all ones; R287). -/
def crc32c (m : List Byte) : Nat := (m.foldl crcStep 0xFFFFFFFF) ^^^ 0xFFFFFFFF

end Sys2Proof.Machine
end

