-- ==== Sys2Proof/Machine/Ops.lean ====
section
/-! DEFINITION. Shared operations: memory with its poison marks, partition ranges, ownership, reports. -/
namespace Sys2Proof.Machine

/-! ### Memory -/

/-- `n` bytes from an address. -/
def Memory.read (m : Memory) (a n : Nat) : List Byte :=
  let seg := m.filter (fun e => a ≤ e.1 && e.1 < a + n)
  (List.range n).map (fun i => AMap.getD seg (a + i) memDefault)

/-- The listed cells of a run of bytes from an address. -/
def cellsOf (a : Nat) : List Byte → Memory
  | [] => []
  | b :: t => if b = memDefault then cellsOf (a + 1) t else (a, b) :: cellsOf (a + 1) t

/-- Write a run of bytes from an address. -/
def Memory.write (m : Memory) (a : Nat) (bs : List Byte) : Memory :=
  m.filter (fun e => e.1 < a) ++ cellsOf a bs ++ m.filter (fun e => a + bs.length ≤ e.1)

/-- Make `n` bytes from an address read as nothing written. -/
def Memory.clear (m : Memory) (a n : Nat) : Memory := m.filter (fun e => e.1 < a || a + n ≤ e.1)

/-- First byte of module memory (R272). -/
def memBase : Nat := 0x010000000000
/-- One past the last byte of module memory (R272). -/
def memEnd : Nat := 0x030000000000
/-- Hub that owns a memory address (R272). -/
def hubOfAddr (a : Nat) : Nat := (a - memBase) / 0x8000000000

/-- Read memory. -/
def State.mrd (s : State) (a n : Nat) : List Byte := s.mem.read a n

/-- Little-endian value of `n` bytes of memory. -/
def State.mval (s : State) (a n : Nat) : Nat := leNat (s.mrd a n)

/-- Bursts wholly inside a run of bytes. -/
def wholeBursts (a n : Nat) : List Nat :=
  let lo := cdiv a 64
  let hi := (a + n) / 64
  (List.range (hi - lo)).map (· + lo)

/-- Bursts that a run of bytes touches. -/
def touchedBursts (a n : Nat) : List Nat :=
  if n = 0 then [] else (List.range ((a + n - 1) / 64 - a / 64 + 1)).map (· + a / 64)

/-- Is a burst written whole by a run of `n` bytes from an address. -/
def wholeIn (a n b : Nat) : Bool := decide (a ≤ 64 * b) && decide (64 * b + 64 ≤ a + n)

/-! #### The burst code (R283, R284) -/

/-- Product with the primitive element in GF(2⁸) with polynomial x⁸ + x⁴ + x³ + x² + 1. -/
def gfDouble (a : Nat) : Nat := if a < 128 then 2 * a else (2 * a) ^^^ 0x11D

/-- α^k. -/
def gfPow : Nat → Nat
  | 0 => 1
  | k + 1 => gfDouble (gfPow k)

/-- Product in GF(2⁸). -/
def gfMul (a b : Nat) : Nat :=
  ((List.range 8).foldl (fun (acc : Nat × Nat) i =>
    (if b.testBit i then acc.1 ^^^ acc.2 else acc.1, gfDouble acc.2)) (0, a)).1

/-- Check symbols p₂, p₁, p₀ of a burst of message symbols m₀ to m₆₄: the remainder on division by the generator
(x + 1)(x + α)(x + α²) = x³ + 7x² + 14x + 8 (R283). -/
def rsCheck (m : List Nat) : Nat × Nat × Nat :=
  m.foldl (fun r x =>
    let f := x ^^^ r.1
    (r.2.1 ^^^ gfMul f 7, r.2.2 ^^^ gfMul f 14, gfMul f 8)) (0, 0, 0)

/-- Syndrome j of an error pattern: XOR by symbol number 0 to 67 of the stored burst. The code is linear, so the pattern
alone decides how the burst decodes. -/
def rsSyndrome (e : AMap Nat) (j : Nat) : Nat := e.foldl (fun s x => s ^^^ gfMul x.2 (gfPow (j * (67 - x.1)))) 0

/-- How a burst decodes (R284). -/
inductive BurstRes
  | clean | corrected | failed
  deriving DecidableEq, Repr

/-- Decode an error pattern: no error, one symbol found, or not decodable. -/
def rsDecode (e : AMap Nat) : BurstRes :=
  let s0 := rsSyndrome e 0
  let s1 := rsSyndrome e 1
  let s2 := rsSyndrome e 2
  if s0 = 0 ∧ s1 = 0 ∧ s2 = 0 then .clean
  else if s0 ≠ 0 ∧ (List.range 68).any (fun k => s1 == gfMul s0 (gfPow k) && s2 == gfMul s0 (gfPow (2 * k))) then .corrected
  else .failed

/-- Error pattern of a stored burst. -/
def State.errOf (s : State) (b : Nat) : AMap Nat := AMap.getD s.memErr b []

/-- Write bursts with poison, each counted once in its hub (R285). -/
def State.poisonBursts (bs : List Nat) (s : State) : State :=
  bs.eraseDups.foldl (fun (s : State) b =>
    ({ s with poi := AMap.put s.poi b 1 0 } : State).bump R.MEM.POISON_WRITE_CNT (hubOfAddr (64 * b)) 1) s

/-- Write every burst that a run of bytes touches with poison (R285). -/
def State.mpoison (a n : Nat) (s : State) : State := s.poisonBursts (touchedBursts a n)

/-- Is any burst of a run of bytes delivered with poison: its POISON bit is set, or it does not decode (R284, R285). -/
def State.mbad (s : State) (a n : Nat) : Bool :=
  n != 0 && (s.poi.any (fun e => a / 64 ≤ e.1 && e.1 ≤ (a + n - 1) / 64) ||
    s.memErr.any (fun e => a / 64 ≤ e.1 && e.1 ≤ (a + n - 1) / 64 && rsDecode e.2 == .failed))

/-! ### Partitions, stacks, cores -/

/-- Does partition p own array stack k (R20). -/
def State.owns (s : State) (p k : Nat) : Bool := s.partExists p && (s.part p).stks.testBit k

/-- The partition that owns an array stack (R20). -/
def State.ownerOf (s : State) (k : Nat) : Option Nat := (List.range 12).find? (fun p => s.owns p k)

/-- The partition whose core sets hold a core (R177). -/
def State.partOfCore (s : State) (h c : Nat) : Option Nat :=
  (List.range 12).find? (fun p => s.partExists p && ((s.part p).sets.getD h 0).testBit (c / 16))

/-- Array stacks of a partition, ascending. -/
def State.stacksOf (s : State) (p : Nat) : List Nat := maskBits 12 (s.part p).stks

/-- Hubs in which a partition owns a stack, a core set or memory. -/
def State.hubsOf (s : State) (p : Nat) : List Nat :=
  (List.range 4).filter (fun h =>
    (s.stacksOf p).any (fun k => hubOfStack k == h) || ((s.part p).sets.getD h 0) != 0 ||
    (s.part p).ranges.any (fun r => r.1 == h))

/-- Partitions that a pace domain serves: the owner of the stack, or those with anything in the hub (R304). -/
def State.served (s : State) (d : Nat) : List Nat :=
  (List.range 12).filter (fun p => s.partExists p && (if d < 12 then s.owns p d else (s.hubsOf p).contains (d - 12)))

/-- Pace domains of a partition. -/
def State.domainsOf (s : State) (p : Nat) : List Nat := (List.range 16).filter (fun d => (s.served d).contains p)

/-- Is every pace domain of a partition in pace lock (R303). -/
def State.inLock (s : State) (p : Nat) : Bool := (s.domainsOf p).all (fun d => s.is R.PWR.PACE_STAT_LOCK (1 + d))

/-- Hubs that hold stacks of a partition. -/
def State.stackHubsOf (s : State) (p : Nat) : List Nat :=
  (List.range 4).filter (fun h => (s.stacksOf p).any (fun k => hubOfStack k == h))

/-- First address of a partition's memory range in a hub. -/
def rangeBase (r : Nat × Nat × Nat) : Nat := memBase + r.1 * 0x8000000000 + r.2.1 * 2 ^ 30
/-- Bytes of a memory range. -/
def rangeSize (r : Nat × Nat × Nat) : Nat := r.2.2 * 2 ^ 30

/-- One past the last byte of a partition's memory that a run from an address reaches without leaving its ranges; it has at
most four of them. -/
def State.runEnd (s : State) (p : Nat) : Nat → Nat → Nat
  | 0, a => a
  | k + 1, a =>
    match (s.part p).ranges.find? (fun r => rangeBase r ≤ a && a < rangeBase r + rangeSize r) with
    | some r => State.runEnd s p k (rangeBase r + rangeSize r)
    | none => a

/-- Does a run of bytes lie in a partition's memory, the union of its ranges (R274). -/
def State.inPart (s : State) (p a n : Nat) : Bool :=
  (s.part p).ranges.any (fun r => rangeBase r ≤ a && a + n ≤ rangeBase r + rangeSize r) ||
    (n != 0 && decide (a + n ≤ s.runEnd p 4 a))

/-- The partition in whose memory an address lies. -/
def State.partOfAddr (s : State) (a : Nat) : Option Nat := (List.range 12).find? (fun p => s.inPart p a 1)

/-- Lowest-numbered hub that holds a memory range of a partition (R147). -/
def State.lowHub (s : State) (p : Nat) : Nat :=
  ((List.range 4).find? (fun h => (s.part p).ranges.any (fun r => r.1 == h))).getD 0

/-- The partition's memory base handed to groups in s3 (R205): the first byte of its range in the lowest hub. -/
def State.partBase (s : State) (p : Nat) : Nat :=
  match (s.part p).ranges.find? (fun r => r.1 == s.lowHub p) with
  | some r => rangeBase r
  | none => 0

/-- Does the partition form steps in the sense of R507: its SRV EN is 1. -/
def State.formsSteps (s : State) (p : Nat) : Bool := s.partExists p && s.en .srv p

/-- Does a step of the partition run (from formation to the end of resolution). -/
def State.stepRuns (s : State) (p : Nat) : Bool := (s.part p).step.phase != .idle

/-- Is a partition at a step boundary at every moment: it has formed no step since its creation (R481). -/
def State.unstepped (s : State) (p : Nat) : Bool := !(s.part p).stepped

/-- Does a change on an array stack take effect at once: no partition owns it (R47, R60), or its owner has formed no step
(R481). -/
def State.freeStack (s : State) (k : Nat) : Bool := match s.ownerOf k with | some p => s.unstepped p | none => true

/-! ### Non-volatile records of array-tiers (R166, R348, R483) -/

/-- Key of an array-tier in the maps of its stack. -/
def tierKey (phys tier : Nat) : Nat := 16 * phys + tier
/-- Key of an array-tier in the non-volatile records. -/
def nvKey (k phys tier : Nat) : Nat := 655360 * k + 16 * phys + tier

/-- Wear counter of an array-tier. -/
def State.wearAt (s : State) (key : Nat) : Nat := AMap.getD s.nv.wear key (AMap.getD s.nv.wearBase (key / 655360) 0)

/-- Has an array-tier reached the wear limit (R166). -/
def State.wornKey (s : State) (key : Nat) : Bool := decide (s.rd R.WLDG.WEAR_LIMIT 0 ≤ s.wearAt key)
/-- Has an array-tier reached the wear limit (R166). -/
def State.worn (s : State) (k phys tier : Nat) : Bool := s.wornKey (nvKey k phys tier)

/-- Is the reference mark of an array-tier set (R348). -/
def State.refMarked (s : State) (key : Nat) : Bool := AMap.getD s.nv.refMark key 1 != 0

/-- Wear of an array-tier goes up, and its residency record and reference mark go, before the first train (R166, R348,
R483). -/
def State.wearOut (k phys tier : Nat) (s : State) : State :=
  let key := nvKey k phys tier
  let w := min (s.wearAt key + 1) 65535
  let s := s.onNv (fun n => { n with
    wear := AMap.set n.wear key w, residency := AMap.erase n.residency key, refMark := AMap.set n.refMark key 0 })
  s.whenB (s.worn k phys tier) (fun s => s.raise R.WLDG.EVT_WEAR_REACHED 0)

/-- A counter after n programmings: none goes on from the limit (R166). -/
def wearAfter (lim n w : Nat) : Nat := if lim ≤ w then w else min (w + n) lim

/-- Array-tiers of a stack of which the next n programmings, after the `first`th, leave some out because they are worn: key, and the first
that does. One that was left out before is not given again (R453). -/
def State.leftOut (s : State) (k first n : Nat) : List (Nat × Nat) :=
  let lim := s.rd R.WLDG.WEAR_LIMIT 0
  let out (w : Nat) : Bool := decide (lim - w < n) && (first == 0 || decide (w < lim))
  let base := AMap.getD s.nv.wearBase k 0
  let listed := s.nv.wear.filter (fun e => e.1 / 655360 == k)
  let others := if out base then ((List.range 655360).map (· + 655360 * k)).filter (fun key => !listed.any (fun e => e.1 == key)) else []
  (listed.filter (fun e => out e.2)).map (fun e => (e.1, first + 1 + (lim - e.2))) ++ others.map (fun key => (key, first + 1 + (lim - base)))

/-- Program every array-tier of a stack n times: worn ones are left out; the others lose their residency records (R166, R419,
R453, R483). -/
def State.wearStack (k n : Nat) (s : State) : State :=
  if n = 0 then s
  else
    let lim := s.rd R.WLDG.WEAR_LIMIT 0
    let mine (e : Nat × Nat) : Bool := e.1 / 655360 == k
    let base := AMap.getD s.nv.wearBase k 0
    let hit (w : Nat) : Bool := decide (w < lim) && decide (lim ≤ w + n)
    let reached := hit base || s.nv.wear.any (fun e => mine e && hit e.2)
    let res := s.nv.residency.filter (fun e => e.1 / 655360 != k || s.wornKey e.1)
    let cells := s.nv.cells.filter (fun e => e.1 / 655360 != k || s.wornKey e.1)
    let s := s.onNv (fun v => { v with
      wear := v.wear.map (fun e => if mine e then (e.1, wearAfter lim n e.2) else e)
      wearBase := AMap.put v.wearBase k (wearAfter lim n base) 0, residency := res, cells := cells })
    s.whenB reached (fun s => s.raise R.WLDG.EVT_WEAR_REACHED 0)

/-- The clear of a stack begins (R419, R431): every data, checksum and spare column goes to level 0; reference columns and
their marks stay (DEDUCED, log entry 50). -/
def State.clearStack (k : Nat) (s : State) : State :=
  (s.wearStack k 1).onNv (fun n => { n with unknown := AMap.erase n.unknown k })

/-- Does a clear of a stack run (R419, R431). -/
def State.stackClears (s : State) (k : Nat) : Bool :=
  s.sec.retClear.contains k || (List.range 12).any (fun p => AMap.getD (s.part p).clear k 0 == 1)

/-- BLOCK_STAT.PROGRAMMING of the global page (R174): an array-tier is programmed, a stack clears (R419, R431), or a full self-test
runs, its read-backs and other parts included (DESIGN CHOICE, log entry 116). -/
def State.setProgramming (s : State) : State :=
  s.wrB R.WLDG.STAT_PROGRAMMING 0
    ((List.range 12).any (fun k => !(s.stk k).programming.isEmpty || s.stackClears k) ||
      (s.rd R.BST.STAT_STATE 0 == 1 && s.rd R.BST.CTL_TEST 0 == 2))

/-- Trains of a clear or of a self-test's passes: how many cells need a second one is open, so that the count is a free value (R164,
R174; log entry 116). -/
def State.freeTrains (s : State) : State :=
  let (n, s) := s.takeFree
  s.bump R.WLDG.TRAINS 0 n

/-! ### Steward memory (R438, R462) -/

/-- First address of steward memory in a hub's address space, and its size (R462). -/
def stewBase : Nat := 0x10000000
/-- Bytes of a hub's steward memory (R438). -/
def stewSize : Nat := 0x04000000

/-- Read steward memory of a hub, by offset. -/
def State.stewRd (s : State) (h o n : Nat) : List Byte := (List.range n).map (fun i => AMap.getD s.stew (stewSize * h + o + i) 0)

/-- Does a run of bytes of steward memory fail its parity (R314, R438). -/
def State.stewFails (s : State) (h o n : Nat) : Bool :=
  s.stewBad.any (fun e => decide (stewSize * h + o ≤ e.1) && decide (e.1 < stewSize * h + o + n))

/-- Write steward memory of a hub: each byte gets its parity bit anew. -/
def State.stewWr (h o : Nat) (bs : List Byte) (s : State) : State :=
  let a := stewSize * h + o
  { s with
    stew := ((List.range bs.length).zip bs).foldl (fun m e => AMap.put m (a + e.1) e.2 0) s.stew
    stewBad := s.stewBad.filter (fun e => decide (e.1 < a) || decide (a + bs.length ≤ e.1)) }

/-- A parity failure of a byte of steward memory, which LOCATION names in the hub's memory (R314, R438): it stands until the byte is
written (DESIGN CHOICE, log entry 133). -/
def State.stewardParity (o : Origin) (s : State) : State :=
  { s with stewBad := AMap.put s.stewBad (stewSize * (o.inst % 4) + o.loc % stewSize) 1 0 }

/-! ### Poison origins (R316) -/

/-- Origin bit ONDIE. -/
def oOndie : Nat := 1
/-- Origin bit SHARED. -/
def oShared : Nat := 2
/-- Origin bit REQUEST. -/
def oRequest : Nat := 4

/-- Bytes of a cover slot (R337). -/
def coverSlotBytes : Nat := 0x02008000

/-- Address of a cover slot (R337). -/
def State.coverAddr (s : State) (p slot : Nat) : Nat := s.rd R.REL.COVER_BASE p + slot * coverSlotBytes

/-- Is an address in a hub region of the partition's active or loading placement, or in a cover slot (R316). -/
def State.sharedArea (s : State) (p a : Nat) : Bool :=
  let q := s.part p
  let inReg (pl : Placement) := pl.regions.any (fun r => r.1 ≤ a && a < r.1 + r.2)
  (match q.active with | some pl => inReg pl | none => false) ||
  (match q.load with | some l => inReg l.placement | none => false) ||
  (match q.loaded with | some pl => inReg pl | none => false) ||
  (decide (s.rd R.REL.COVER_BASE p ≤ a) &&
    decide (a < s.rd R.REL.COVER_BASE p + s.rd R.REL.COVER_SLOTS p * coverSlotBytes))

/-- Origins of a poisoned read from memory (R316). -/
def State.memOrigin (s : State) (p a : Nat) : Nat := if s.sharedArea p a then oShared else oRequest

/-- Poison origins of a run of memory as the partition reads it; 0 when clean. -/
def State.readOrigins (s : State) (p a n : Nat) : Nat := if s.mbad a n then s.memOrigin p a else 0

/-! ### Reports (R328, R329) -/

/-- Most windows a coalescer holds (R329). -/
def maxWindows : Nat := 64

/-- Add an occurrence to a record in a window. -/
def Report.again (r : Report) (parts : Nat) : Report :=
  { r with count := min (r.count + 1) 65535, parts := r.parts ||| parts }

/-- Merge into the window of the same origin and kind; none when there is none. -/
def mergeWindow (r : Report) : List Window → Option (List Window)
  | [] => none
  | w :: t =>
    if w.rep.unit = r.unit ∧ w.rep.inst = r.inst ∧ w.rep.loc = r.loc ∧ w.rep.kind = r.kind then
      some ({ w with rep := w.rep.again r.parts } :: t)
    else (mergeWindow r t).map (w :: ·)

/-- Send a report to the coalescer of hub h (R329). -/
def State.report (h : Nat) (r : Report) (s : State) : State :=
  let u := s.hub h
  let now := s.clk.devTime
  let r := { r with time := now, count := 1 }
  match mergeWindow r u.windows with
  | some ws => (s.onHub h (fun u => { u with windows := ws })).count R.RELG.COALESCED_CNT h
  | none =>
    if u.windows.length < maxWindows then
      s.onHub h (fun u => { u with windows := u.windows ++ [{ opened := now, rep := r }] })
    else
      let s := (s.count R.RELG.OVF_CNT h).raise R.RELG.EVT_OVERFLOW h
      match u.overflow with
      | some w =>
        let w' : Window := { w with rep := { w.rep.again r.parts with sev := max w.rep.sev r.sev } }
        s.onHub h (fun u => { u with overflow := some w' })
      | none =>
        let r' : Report := { r with unit := 0xFFFF, inst := h, loc := 0, detail := 0 }
        s.onHub h (fun u => { u with overflow := some { opened := now, rep := r' } })

/-- A report with the fields that a detecting unit gives (R328). -/
def mkReport (unit inst loc kind sev parts detail : Nat) : Report :=
  { time := 0, unit := unit, inst := inst, loc := loc, kind := kind, sev := sev, count := 1, parts := parts, detail := detail }

/-- LOCATION of an array-tier in the model's reports: array in bits [15:0], tier in [19:16] (log entry 11). -/
def locArray (array tier : Nat) : Nat := array + tier * 65536

/-- INSTANCE of a stack: its hub in [1:0], the stack in [15:2] (R328). -/
def instStack (k : Nat) : Nat := hubOfStack k + 4 * k

/-! ### Memory accesses of the units (R273, R279, R282, R284, R285, R290) -/

/-- Fields of MEM_CH_EN. -/
def chEnFields : List Field := [R.MEM.CH_EN0, R.MEM.CH_EN1, R.MEM.CH_EN2, R.MEM.CH_EN3]
/-- Four 32-bit words as one mask of 128 channels: bit 32s + c is channel c of stack s. -/
def State.mask128 (s : State) (fs : List Field) (h : Nat) : Nat :=
  ((List.range 4).zip fs).foldl (fun m x => m + s.rd x.2 h * 2 ^ (32 * x.1)) 0

/-- Enabled channels of a hub, ascending. -/
def State.channels (s : State) (h : Nat) : List Nat := maskBits 128 (s.mask128 chEnFields h)

/-- Offset of an address in its hub's memory. -/
def hubOffset (a : Nat) : Nat := (a - memBase) % 0x8000000000

/-- Channel that holds an address (R273). -/
def State.channelOf (s : State) (a : Nat) : Nat :=
  let cs := s.channels (hubOfAddr a)
  cs.getD (hubOffset a / 4096 % cs.length) 0

/-- Does any memory range of a partition clear. -/
def State.clears (s : State) (p : Nat) : Bool := (List.range 4).any (fun h => (s.hub h).clearing.contains p)

/-- Does an address lie in a partition's range that clears (R275). -/
def State.clearsAt (s : State) (a : Nat) : Bool :=
  match s.partOfAddr a with
  | some p => (s.hub (hubOfAddr a)).clearing.contains p
  | none => false

/-- Write-backs that a channel's queue holds (R279). -/
def wbDepth : Nat := 16

/-- Queue a write-back: one that waits for the same burst is replaced by one with poison; a full queue drops it; one into a
range that clears is cancelled (R279, R284, R290). -/
def State.queueWb (b : Nat) (poison : Bool) (s : State) : State :=
  let h := hubOfAddr (64 * b)
  let key := 128 * h + s.channelOf (64 * b)
  let q := AMap.getD s.memWb key []
  if s.clearsAt (64 * b) then s
  else if q.any (fun x => x.1 == b) then
    { s with memWb := AMap.put s.memWb key (q.map (fun x => if x.1 = b then (b, x.2 || poison) else x)) [] }
  else if wbDepth ≤ q.length then s.flagCount R.MEM.EVT_WB_OVERFLOW R.MEM.WB_OVF_CNT h
  else { s with memWb := AMap.put s.memWb key (q ++ [(b, poison)]) [] }

/-- What a controller does on reading a burst: counts, flags, write-backs and the report (R284, R285). -/
def State.decodeBurst (b : Nat) (s : State) : State :=
  let a := 64 * b
  let h := hubOfAddr a
  match rsDecode (s.errOf b) with
  | .clean => if AMap.getD s.poi b 0 != 0 then s.count R.MEM.POISON_READ_CNT h else s
  | .corrected =>
    let s := (s.flagCount R.MEM.EVT_CE R.MEM.CE_CNT h).queueWb b (AMap.getD s.poi b 0 != 0)
    if AMap.getD s.poi b 0 != 0 then s.count R.MEM.POISON_READ_CNT h else s
  | .failed =>
    let ch := s.channelOf a
    let s := ((s.flagCount R.MEM.EVT_UE R.MEM.UE_CNT h).wr R.MEM.ERR_ADDR h a).wr R.MEM.ERR_INFO_CHANNEL h ch
    let ps := match s.partOfAddr a with | some p => 2 ^ p | none => 0
    (s.queueWb b true).report h (mkReport 9 h ch 0x04 2 ps a)

/-- Does a run of bytes touch a burst. -/
def touchedIn (a n b : Nat) : Bool := n != 0 && decide (a / 64 ≤ b) && decide (b ≤ (a + n - 1) / 64)

/-- Bursts that a run of bytes touches whose stored symbols hold an error or whose POISON bit is set, ascending. -/
def State.dirtyIn (s : State) (a n : Nat) : List Nat :=
  sortBy (fun x y => decide (x ≤ y))
    (((s.memErr.map (·.1)) ++ ((s.poi.map (·.1)).filter (fun b => (AMap.get? s.memErr b).isNone))).filter (touchedIn a n))

/-- A unit reads a run of bytes: the controllers decode its bursts (R284, R285). What it gets is `mrd`, with poison where
`mbad` says so. -/
def State.touch (a n : Nat) (s : State) : State := s.each (s.dirtyIn a n) (fun b s => s.decodeBurst b)

/-- A unit of a partition reads a run of bytes, if it lies in the partition's memory. -/
def State.touchOf (p a n : Nat) (s : State) : State := s.whenB (s.inPart p a n) (fun s => s.touch a n)

/-- Bursts of which a run of bytes writes only a part. -/
def partBursts (a n : Nat) : List Nat :=
  if n = 0 then [] else [a / 64, (a + n - 1) / 64].eraseDups.filter (fun b => !wholeIn a n b)

/-- Does a write of a run of bytes leave the record of a block: it touches neither the block's scale byte nor its elements. -/
def BlockRec.outside (r : BlockRec) (scale a n : Nat) : Bool :=
  (decide (scale < a) || decide (a + n ≤ scale)) && (decide (r.addr + r.len ≤ a) || decide (a + n ≤ r.addr))

/-- Write memory, in whole bursts (R282): the bytes; the error of every burst written goes, a write-back that waits for it is
cancelled, and its POISON bit is 1 exactly when it holds poisoned data (R285, R290): the bursts `ps` do by what is written. A
burst of which the run fills a part is read first, and the rest keeps its poison mark (log entry 112). -/
def State.mwrP (a : Nat) (bs : List Byte) (ps : List Nat) (s : State) : State :=
  let n := bs.length
  let dirty := (partBursts a n).filter (fun b => (s.dirtyIn (64 * b) 64).contains b)
  let keep := dirty.filter (fun b => s.mbad (64 * b) 64)
  let s := s.each dirty (fun b s => s.decodeBurst b)
  let s : State := { s with
    mem := s.mem.write a bs
    blks := s.blks.filter (fun e => n == 0 || e.2.outside e.1 a n)
    poi := s.poi.filter (fun e => !touchedIn a n e.1)
    memErr := s.memErr.filter (fun e => !touchedIn a n e.1)
    memWb := s.memWb.map (fun e => (e.1, e.2.filter (fun x => !touchedIn a n x.1))) }
  s.poisonBursts (keep ++ ps)

/-- Cancel the write-backs of a run of bytes (R275, R290). -/
def State.cancelWb (a n : Nat) (s : State) : State :=
  { s with memWb := s.memWb.map (fun e => (e.1, e.2.filter (fun x => !wholeIn a n x.1))) }

/-- Make a run of bytes zeros without poison or error; what waits to be written back into it is cancelled. -/
def State.zeroMem (a n : Nat) (s : State) : State :=
  let s := s.cancelWb a n
  { s with
    mem := s.mem.clear a n
    blks := s.blks.filter (fun e => n == 0 || e.2.outside e.1 a n)
    poi := s.poi.filter (fun e => !wholeIn a n e.1)
    memErr := s.memErr.filter (fun e => !wholeIn a n e.1) }

/-- Write clean data. -/
def State.mwr (a : Nat) (bs : List Byte) (s : State) : State := s.mwrP a bs []

/-- Write data of the given poison origins: every burst written is poisoned when it has any. -/
def State.mput (a : Nat) (bs : List Byte) (o : Nat) (s : State) : State :=
  s.mwrP a bs (if o = 0 then [] else touchedBursts a bs.length)

/-- The step starts, or none is to start after all: the commit point of the step before is over, and idle stacks go on with their
pieces. -/
def State.freePieces (p : Nat) (s : State) : State :=
  (s.each (s.stacksOf p) (fun k s => s.onStk k (fun u => { u with calHold := false, winDone := false }))).onPart p
    (fun q => { q with between := false })

end Sys2Proof.Machine
end

