-- ==== Sys2Proof/Machine/Operands.lean ====
section
/-! DEFINITION. Operand forms: elements of the formats of R81, block scales (R75, R83), tensors in memory (R82, R202),
scratch and registers of a digital core with their poison (R181, R184), and the fields of core instructions. -/
namespace Sys2Proof.Machine

/-! ### Element formats (R81 to R83) -/

/-- Element width of a format code (R81). -/
def fmtBits (f : Nat) : Nat :=
  match f with
  | 0 => 32 | 1 => 16 | 2 => 8 | 3 => 8 | 4 => 6 | 5 => 6 | 6 => 4 | 7 => 4 | 8 => 6 | 9 => 8
  | _ => 0

/-- The narrow floating format of a code. -/
def fmtN (f : Nat) : Option NFmt :=
  match f with
  | 1 => some fmtBF16 | 2 => some fmtE4M3 | 3 => some fmtE5M2 | 4 => some fmtE2M3 | 5 => some fmtE3M2
  | 6 => some fmtE2M1
  | _ => none

/-- Is the code a block format (R81). -/
def fmtBlock (f : Nat) : Bool := 2 ≤ f && f ≤ 9

/-- Largest finite element as significand and exponent (R81). -/
def fmtMax (f : Nat) : Nat × Int :=
  match f with
  | 2 => (7, 6) | 3 => (7, 13) | 4 => (15, -1) | 5 => (7, 2) | 6 => (3, 1) | 7 => (7, 0) | 8 => (31, 0)
  | 9 => (127, 0)
  | _ => (1, 0)

/-- The unscaled value of an element code. -/
def elemFV (f x : Nat) : FV :=
  if f = 0 then fpDec x
  else match fmtN f with
    | some n => n.dec x
    | none => let v := sx x (fmtBits f); .fin (v < 0) v.natAbs 0

/-- Element i of packed bytes (R82): bits [w i + w − 1 : w i] of the block read as one little-endian integer. -/
def unpackElem (w : Nat) (bs : List Byte) (i : Nat) : Nat :=
  let bit0 := w * i
  bits (fieldLE bs (bit0 / 8) 5) (bit0 % 8) w

/-- Pack element codes from bit 0 upwards (R82). -/
def packElems (w : Nat) (cs : List Nat) : List Byte :=
  leBytes (cdiv (w * cs.length) 8) (cs.foldr (fun c acc => (c % 2 ^ w) + acc * 2 ^ w) 0)

/-- FP32 value of an element under its block scale (R83: 0xFF gives a quiet NaN). -/
def decodeElem (f x sb8 : Nat) : Nat :=
  if fmtBlock f then
    (if sb8 = 0xFF then qNaN else if sb8 = 0 then 0 else fpPack (fvMul (elemFV f x) (sb8Val sb8)))
  else if f = 1 then bf16Dec x
  else x % 2 ^ 32

/-- Largest magnitude of finite values, as an FP32 pattern. -/
def maxAbs (vs : List Nat) : Nat := vs.foldl (fun a v => max a (fpAbs v)) 0

/-- v / (m × 2^e) rounded half to even to an integer. -/
def rneQuot (v m : Nat) (e : Int) : Int :=
  match fpDec v with
  | .fin n k ek =>
    let d := ek - e
    if d ≥ 0 then rneDiv (sgn n (k * 2 ^ d.toNat)) m else rneDiv (sgn n k) (m * 2 ^ (-d).toNat)
  | _ => 0

/-- Code of v divided by the scale m × 2^e in format f (R83). -/
def quantElem (f v m : Nat) (e : Int) : Nat :=
  match fmtN f with
  | some n =>
    match fpDec v with
    | .fin neg k ek =>
      let a := k <<< 64
      n.encFin neg (a / m) (ek - e - 64) (a % m != 0)
    | _ => 0
  | none => ux (rneQuot v m e) (fmtBits f)

/-- Conversion of 32 FP32 values to a block format (R83): codes and SB8. `fill` gives the element bits of a 0xFF block,
which the spec leaves open. The last component says that the block left the range of SB8. -/
def quantBlock (f : Nat) (vs : List Nat) (fill : Nat) : List Nat × Nat × Bool :=
  let w := fmtBits f
  let open_ := (List.range vs.length).map (fun i => bits fill (w * i) w)
  let zero := vs.map (fun _ => 0)
  if vs.any fpNonFinite then (open_, 0xFF, false)
  else
    let a := maxAbs vs
    match fpDec a with
    | .fin _ m e =>
      if m = 0 then (zero, 0, false)
      else
        let (xm, xe) := fmtMax f
        let sc := sb8Ceil m e xm xe
        if sc = 0xFF then (open_, 0xFF, true)
        else
          let (sm, se) := sb8Sig sc
          let cs := vs.map (fun v => quantElem f v sm se)
          if cs.all (fun c => c % 2 ^ (w - 1) == 0 && (fmtN f).isSome || c == 0) then (zero, 0, false) else (cs, sc, false)
    | _ => (zero, 0, false)

/-! ### Array input blocks (R73 to R79) -/

/-- Element maximum of an array input mode used for scale choice: INT4, INT6, INT8 stand for A4, A6, A8. -/
def modeMax (f : Nat) : Nat := if f = 7 then 7 else if f = 8 then 31 else 127

/-- Stretch codes allowed by R75, ascending; A6 ends at 64. -/
def stretchCodes (f : Nat) : List Nat :=
  let all := [4, 5, 6, 7, 8, 9, 10, 11, 12, 13, 14, 15, 16, 18, 20, 22, 24, 26, 28, 30, 32, 36, 40, 44, 48, 52, 56, 60, 64]
  if f = 8 then all else all ++ [72, 80, 88, 96]

/-- Largest stretch of a mode (R75, R78). -/
def stretchMax (f : Nat) : Nat := if f = 8 then 64 else 96

/-- Exponent of s_ref: s_ref = 2^(E − 15) (R74). -/
def srefExp (sref : Nat) : Int := ((sref / 8 : Nat) : Int) - 15

/-- Is a byte one of the s_ref codes of R74. -/
def srefOk (c : Nat) : Bool := c % 8 == 0 && 0x28 ≤ c && c ≤ 0xF8

/-- SB8 code of s_ref × k / 64. -/
def sb8OfStretch (sref k : Nat) : Nat :=
  let j := Nat.log2 k
  let m := if j ≥ 3 then k / 2 ^ (j - 3) - 8 else k * 2 ^ (3 - j) - 8
  8 * (sref / 8 + j - 6) + m

/-- Stretch code 64 × s_b / s_ref of an SB8 code when it is one of R75, else none. -/
def stretchOfSb8 (f sref c : Nat) : Option Nat :=
  (stretchCodes f).find? (fun k => sb8OfStretch sref k == c)

/-- A quantized array input block. -/
structure ABlock where
  sb8 : Nat
  k : Nat
  codes : List Int
  saturated : Bool := false
  invalid : Bool := false
  /-- FP32 remainders of limited elements (R78) -/
  rem : List Nat := []
  deriving DecidableEq, Repr

/-- Choose scale and codes of an array input block (R75, R78, R79): mode `f`, reference scale 2^er whose code is `sref`,
values, and for each element whether it is a declared outlier (R99). `fill` gives the codes of an invalid block. -/
def arrayBlock (f sref : Nat) (er : Int) (vs : List Nat) (outl : List Bool) (fill : Nat) : ABlock :=
  let tagged := vs.zip (outl ++ List.replicate vs.length false)
  let driven := tagged.map (fun x => if x.2 then 0 else x.1)
  let x := modeMax f
  if driven.any fpNonFinite then
    { sb8 := 0xFF, k := 0, invalid := true,
      codes := (List.range vs.length).map (fun i => sx (bits fill (8 * i) (fmtBits f)) (fmtBits f)) }
  else
    let a := maxAbs driven
    match fpDec a with
    | .fin _ m e =>
      if m = 0 then { sb8 := 0, k := 0, codes := driven.map (fun _ => 0) }
      else
        -- smallest k with k × X × 2^er ≥ 64 × a
        let lo := min er e
        let ok (k : Nat) := decide (64 * m * 2 ^ (e - lo).toNat ≤ k * x * 2 ^ (er - lo).toNat)
        match (stretchCodes f).find? ok with
        | some k =>
          let cs := driven.map (fun v => rneQuot v k (er - 6))
          if cs.all (· == 0) then { sb8 := 0, k := 0, codes := cs }
          else { sb8 := sb8OfStretch sref k, k := k, codes := cs }
        | none =>
          let k := stretchMax f
          let raw := driven.map (fun v => rneQuot v k (er - 6))
          let lim := raw.map (clampI (-(x : Int) - 1) x)
          let rem := (driven.zip (raw.zip lim)).map (fun t =>
            if t.2.1 = t.2.2 then 0 else fpSub t.1 (fpOfInt (t.2.2 * (k : Int)) (er - 6)))
          { sb8 := 0xFF, k := k, codes := lim, saturated := true, rem := rem }
    | _ => { sb8 := 0, k := 0, codes := driven.map (fun _ => 0) }

/-- Low slice of an A8 element (R73). -/
def a8Low (x : Int) : Int := (x + 8) % 16 - 8
/-- High slice of an A8 element (R73). -/
def a8High (x : Int) : Int := (x - a8Low x) / 16

/-- Edge count of an element code under stretch k (R31, R73). -/
def edgeOf (md : AMode) (x : Int) (k : Nat) : Int :=
  match md with
  | .a4 => x * k
  | .a6 => rneDiv (x * (3 * (k : Int))) 8
  | .a8h => a8High x * k
  | .a8l => a8Low x * k

/-- Format code of the input elements of an array mode. -/
def AMode.fmt : AMode → Nat
  | .a4 => 7 | .a6 => 8 | .a8h => 9 | .a8l => 9

/-! ### Tensors (R82, R202) -/

/-- Bytes of the packed elements of a row. -/
def TensorRec.rowBytes (t : TensorRec) : Nat := cdiv (fmtBits t.fmt * t.cols) 8

/-- Address of the byte in which element (r, c) begins. -/
def TensorRec.addr (t : TensorRec) (r c : Nat) : Nat := t.base + r * t.stride + fmtBits t.fmt * c / 8

/-- Address of the scale byte of block b of row r: one byte per block, in block order, row by row (R82). -/
def TensorRec.scaleAddr (t : TensorRec) (r b : Nat) : Nat := t.scaleBase + r * cdiv t.cols 32 + b

/-- Codes of elements c to c + n − 1 of a row, c a multiple of 8. -/
def State.tensorCodes (s : State) (t : TensorRec) (r c n : Nat) : List Nat :=
  let bs := s.mrd (t.addr r c) (cdiv (fmtBits t.fmt * n) 8)
  (List.range n).map (unpackElem (fmtBits t.fmt) bs)

/-- FP32 values of elements c to c + n − 1 of a row, c a multiple of 32. -/
def State.tensorVals (s : State) (t : TensorRec) (r c n : Nat) : List Nat :=
  let cs := s.tensorCodes t r c n
  let sc := if fmtBlock t.fmt then (s.mrd (t.scaleAddr r (c / 32)) (cdiv n 32)).map BitVec.toNat else []
  (List.range n).zip cs |>.map (fun x => decodeElem t.fmt x.2 (sc.getD (x.1 / 32) 0))

/-- Is any byte of a row segment or of its scales poisoned, with the origins (R316). -/
def State.tensorOrigins (s : State) (p : Nat) (t : TensorRec) (r c n : Nat) : Nat :=
  s.readOrigins p (t.addr r c) (cdiv (fmtBits t.fmt * n) 8) |||
    (if fmtBlock t.fmt then s.readOrigins p (t.scaleAddr r (c / 32)) (cdiv n 32) else 0)

/-- The controllers decode what a unit reads of a row segment and of its scales. -/
def State.touchRow (t : TensorRec) (r c n : Nat) (s : State) : State :=
  let s := s.touch (t.addr r c) (cdiv (fmtBits t.fmt * n) 8)
  s.whenB (fmtBlock t.fmt) (fun s => s.touch (t.scaleAddr r (c / 32)) (cdiv n 32))

/-- Bursts that hold a part of element (r, c) itself. A poisoned element is written with poison (R141); the scale byte of its block
is not marked (DEDUCED, log entry 119). -/
def TensorRec.elemBursts (t : TensorRec) (r c : Nat) : List Nat :=
  touchedBursts (t.addr r c) (((fmtBits t.fmt * c) % 8 + fmtBits t.fmt + 7) / 8)

/-- Cut a row into its blocks of 32. -/
def rowBlocks (vs : List Nat) : List (List Nat) := (List.range (cdiv vs.length 32)).map (fun b => (vs.drop (32 * b)).take 32)

/-- Convert the blocks of a row one after the other; a block that has open bits takes a free value. -/
def State.quantBlocks (conv : Nat → List Nat → Nat → ABlock) (open_ : List Nat → Bool) (vs : List Nat) (s : State) :
    List ABlock × State :=
  ((List.range (cdiv vs.length 32)).zip (rowBlocks vs)).foldl (fun acc x =>
    let (fill, s) := if open_ x.2 then acc.2.takeFree else (0, acc.2)
    (acc.1 ++ [conv x.1 x.2 fill], s)) ([], s)

/-- `quantBlock` as a block: one beyond the range of SB8 counts as saturated (R97). -/
def plainBlock (f : Nat) (vs : List Nat) (fill : Nat) : ABlock :=
  let (cs, sc, sat) := quantBlock f vs fill
  { sb8 := sc, k := 0, codes := cs.map Int.ofNat, saturated := sat }

/-- Does a block carry open element bits: its scale is 0xFF (R83). -/
def plainOpen (f : Nat) (vs : List Nat) : Bool := (quantBlock f vs 0).2.1 == 0xFF

/-- Write the blocks of a row from block column b: all codes, then all scale bytes; the bursts `ps` hold poison. Blocks beyond the
range are counted on hub `h` (R97). -/
def State.putBlocks (h : Nat) (t : TensorRec) (r b : Nat) (qs : List ABlock) (ps : List Nat) (s : State) : State :=
  let w := fmtBits t.fmt
  let s := s.mwrP (t.addr r (32 * b)) (packElems w (qs.flatMap (fun q => q.codes.map (fun x => ux x w)))) ps
  let s := s.mwr (t.scaleAddr r b) (qs.map (fun q => BitVec.ofNat 8 q.sb8))
  s.bump R.DCP.SAT_BLOCK_CNT h (qs.filter (·.saturated)).length

/-- Write FP32 values as elements of a row from column c (a multiple of 32), converted under R83; `ps` are the bursts written with
poison. A block that has no stated codes takes a free value. -/
def State.tensorPut (h : Nat) (t : TensorRec) (r c : Nat) (vs : List Nat) (ps : List Nat) (s : State) : State :=
  if fmtBlock t.fmt then
    let (qs, s) := s.quantBlocks (fun _ => plainBlock t.fmt) (plainOpen t.fmt) vs
    s.putBlocks h t r (c / 32) qs ps
  else if t.fmt = 1 then s.mwrP (t.addr r c) (packElems 16 (vs.map fmtBF16.enc)) ps
  else s.mwrP (t.addr r c) (vs.flatMap (leBytes 4)) ps

/-! ### Registers and scratch of a core (R176, R184) -/

/-- The unpoisoned zero. -/
def pv0 : PVal := {}

/-- Lane register. -/
def Group.vreg (g : Group) (r lane : Nat) : PVal := AMap.getD g.v (32 * r + lane) pv0
/-- Scalar register. -/
def Group.sreg (g : Group) (r : Nat) : PVal := AMap.getD g.s r pv0
/-- Predicate register as a mask of 32 lanes; p0 always reads 1 (R176). -/
def Group.preg (g : Group) (r : Nat) : Nat := if r = 0 then 0xFFFFFFFF else AMap.getD g.p r 0
/-- Write a lane register. -/
def Group.setV (r lane : Nat) (x : PVal) (g : Group) : Group :=
  { g with v := AMap.put g.v (32 * r + lane) { x with v := x.v % 2 ^ 32 } pv0 }
/-- Write a scalar register. -/
def Group.setS (r : Nat) (x : PVal) (g : Group) : Group :=
  { g with s := AMap.put g.s r { x with v := x.v % 2 ^ 64 } pv0 }
/-- Poison origins of one lane of a predicate. -/
def Group.ppoi (g : Group) (r lane : Nat) : Nat := AMap.getD g.pp (32 * r + lane) 0
/-- Write one lane of a predicate register with its poison; p0 is not written (R176). -/
def Group.setP (r lane : Nat) (b : Bool) (o : Nat) (g : Group) : Group :=
  if r = 0 then g
  else
    let m := g.preg r
    { g with p := AMap.put g.p r (setBits m lane 1 (if b then 1 else 0)) 0, pp := AMap.put g.pp (32 * r + lane) o 0 }

/-- Is a lane active under the instruction's predicate (R185). -/
def Group.active (g : Group) (c : Common) (lane : Nat) : Bool := (g.preg c.pr.val).testBit lane != c.pn

/-- Does the instruction carry no predicate: p0 with PN 0 (R185). -/
def Common.plain (c : Common) : Bool := c.pr.val == 0 && !c.pn

/-- Bytes of a core's scratch (R176). -/
def scratchBytes : Nat := 1048576

/-- Read scratch bytes. -/
def CoreSt.rd (c : CoreSt) (a n : Nat) : List Byte :=
  let seg := c.scratch.filter (fun e => a ≤ e.1 && e.1 < a + n)
  (List.range n).map (fun i => AMap.getD seg (a + i) (0 : Byte))

/-- Poison origins of the scratch words that a run of bytes touches. -/
def CoreSt.poi (c : CoreSt) (a n : Nat) : Nat :=
  if n = 0 then 0
  else (c.scrPoi.filter (fun e => a / 4 ≤ e.1 && e.1 ≤ (a + n - 1) / 4)).foldl (fun o e => o ||| e.2) 0

/-- Scratch words that a run of bytes touches. -/
def scrWords (a n : Nat) : List Nat := if n = 0 then [] else (List.range ((a + n - 1) / 4 - a / 4 + 1)).map (· + a / 4)

/-- A store is to write runs of scratch, (address, bytes) each: the poison of their words gives way to that of the results (R184). -/
def CoreSt.unpoison (l : List (Nat × Nat)) (c : CoreSt) : CoreSt :=
  { c with scrPoi := (l.flatMap (fun x => scrWords x.1 x.2)).foldl (fun m w => AMap.put m w 0 0) c.scrPoi }

/-- Write scratch bytes and give the words written whole the poison `o`; a word written in part keeps its own poison too, be it that of a
neighbouring result of the same store, whose words `unpoison` has cleared, or of a neighbouring burst of the same transfer. -/
def CoreSt.wr (c : CoreSt) (a : Nat) (bs : List Byte) (o : Nat) : CoreSt :=
  let n := bs.length
  { c with
    scratch := c.scratch.filter (fun e => e.1 < a) ++
      ((List.range n).zip bs).filterMap (fun e => if e.2 = 0 then none else some (a + e.1, e.2)) ++
      c.scratch.filter (fun e => a + n ≤ e.1)
    scrPoi := (scrWords a n).foldl (fun m w =>
      let whole := decide (a ≤ 4 * w) && decide (4 * w + 4 ≤ a + n)
      AMap.put m w (if whole then o else o ||| AMap.getD m w 0) 0) c.scrPoi }

/-- Write scratch of a core. -/
def State.scrWr (cn a : Nat) (bs : List Byte) (o : Nat) (s : State) : State := s.onCore cn (fun c => c.wr a bs o)

end Sys2Proof.Machine
end

