-- ==== Sys2Proof/Machine/Fetch.lean ====
section
/-! DEFINITION. The ports, and the NVMe over Fabrics host of the loader: its queue pairs, its Reads, and what covers and repairs fetch (R159
to R161, R319, R321, R322, R377, R380, R393). -/
namespace Sys2Proof.Machine

/-! ### Ports -/

/-- Record of a network port. -/
def State.port (s : State) (n : Nat) : PortSt := AMap.getD s.fab.ports n {}
/-- Change the record of a network port. -/
def State.onPort (n : Nat) (f : PortSt → PortSt) (s : State) : State :=
  { s with fab := { s.fab with ports := AMap.put s.fab.ports n (f (s.port n)) {} } }
/-- Is a port's link up in a mode: 0 Ethernet, 1 fabric. -/
def State.portUp (s : State) (n mode : Nat) : Bool := s.is R.FAB.STAT_LINK_UP n && s.rd R.FAB.PORT_CFG_MODE n == mode
/-- Record something that a port sends. -/
def State.portOut (n : Nat) (x : NetOut) (s : State) : State := s.onPort n (fun q => { q with out := q.out ++ [x] })

/-- Does a PFC frame stop a port's packets (R379). -/
def State.pfcStops (s : State) (n : Nat) : Bool := decide (s.clk.devTime < (s.port n).pausedTo)

/-- A port in Ethernet mode sends something of a number of bytes, or holds it while a PFC frame stops it (R379). All that the port sends is
of its one priority (DESIGN CHOICE, log entry 135). -/
def State.send (n : Nat) (x : NetOut) (bytes : Nat) (s : State) : State :=
  if s.pfcStops n then s.onPort n (fun q => { q with held := q.held ++ [(x, bytes)] }) else (s.portOut n x).bump R.FAB.TX_BYTES n bytes

/-- What waits on a port leaves, unless a PFC frame still stops it. -/
def State.goOn (n : Nat) (s : State) : State :=
  if s.pfcStops n then s
  else
    let l := (s.port n).held
    s.each l (fun x s => s.portOut n x.1 |>.bump R.FAB.TX_BYTES n x.2) |>.onPort n (fun q => { q with held := [] })

/-- IPv4 address of a port; 16 is the management port. -/
def State.ip4Of (s : State) (n : Nat) : Nat := if n < 16 then s.rd R.FAB.IP4 n else s.rd R.MGT.LAN_IP4 0

/-- Four words of a page as one number, word 0 least significant. -/
def State.addrOf (s : State) (fs : List Field) (i : Nat) : Nat := (fs.map (fun f => s.rd f i)).foldr (fun x a => x + 2 ^ 32 * a) 0

/-- IPv6 address of a port as a number, word 0 least significant. -/
def State.ip6Of (s : State) (n : Nat) : Nat :=
  if n < 16 then s.addrOf [R.FAB.IP6_0, R.FAB.IP6_1, R.FAB.IP6_2, R.FAB.IP6_3] n
  else s.addrOf [R.MGT.LAN_IP6_0, R.MGT.LAN_IP6_1, R.MGT.LAN_IP6_2, R.MGT.LAN_IP6_3] 0

/-- FAB_GW_IP6 of a port. -/
def State.gwOf (s : State) (n : Nat) : Nat := s.addrOf [R.FAB.GW_IP6_0, R.FAB.GW_IP6_1, R.FAB.GW_IP6_2, R.FAB.GW_IP6_3] n

/-- Is an address an IPv4-mapped IPv6 address (R157). -/
def isV4 (a : Nat) : Bool := a / 2 ^ 32 == 0xFFFF

/-- Marks of an answer that a port sends to a station: ECT(0) with ECN_EN (R381), DF on IPv4 (R379). The management port knows no ECN. -/
def State.ipMark (s : State) (n : Nat) (v4 : Bool) : IpMark := { ect := decide (n < 16) && s.is R.FAB.ETH_CTL_ECN_EN n, df := v4 }

/-- Marks of a packet to a source: its next hop is the gateway, when there is one and the address is off-link. Which addresses are on-link
the spec leaves open (R379, R395; log entry 134). -/
def State.ipTo (s : State) (n a : Nat) : IpMark :=
  { s.ipMark n (isV4 a) with hop := some (if s.gwOf n = 0 || isV4 a || Config.onLink (s.ip6Of n) a then a else s.gwOf n) }

/-! ### Placements and what is fetched for them (R167, R321) -/

/-- Served on the slower tier: no array-tier. -/
def PlEntry.digital (e : PlEntry) : Bool := e.flags.testBit 0

/-- Sort key of the entry order (R167). -/
def coordKey (layer expert matrix rowblk colblk : Nat) : Nat := (((layer * 65536 + expert) * 256 + matrix) * 65536 + rowblk) * 65536 + colblk
/-- Coordinates of an entry. -/
def PlEntry.coord (e : PlEntry) : Nat := coordKey e.layer e.expert e.matrix e.rowblk e.colblk
/-- Coordinates of a block. -/
def Blk.coord (b : Blk) : Nat := coordKey b.layer b.expert b.matrix b.rowblk b.colblk

/-- The LEVELS block of a placement entry. -/
def Placement.levelsBlk (pl : Placement) (e : PlEntry) : Option Blk := pl.blocks.find? (fun b => b.kind == 0 && b.coord == e.coord)

/-- Number of a block's shard among those of a placement's images. -/
def Blk.shardKey (b : Blk) : Nat := b.shard + 262144 * b.img

/-- Change the running load of a partition. -/
def State.onLoad (p : Nat) (f : Load → Load) (s : State) : State := s.onPart p (fun q => { q with load := q.load.map f })

/-- The entry of a shard of the image being loaded. -/
def Load.shardEntry (l : Load) (i : Nat) : Option ShardEntry :=
  match l.placement.images with
  | im :: _ => im.shards[i]?
  | [] => none

/-- LEVELS blocks that the active placement holds on an array's footprint: (tier, block). -/
def State.footprintBlks (s : State) (p k array : Nat) : List (Nat × Blk) :=
  match (s.part p).active with
  | none => []
  | some pl => (pl.entries.filter (fun e => !e.digital && e.stack == k && e.array == array)).filterMap (fun e =>
      (pl.levelsBlk e).map (fun b => (e.tier, b)))

/-- The images of a partition's placements, the active one's first and then those of a loaded one, each with the key handle of its load
(R321). -/
def State.fetchImages (s : State) (p : Nat) : List (ImageInfo × Nat) :=
  let of (x : Option Placement) : List (ImageInfo × Nat) := match x with | some pl => pl.images.map (fun i => (i, pl.fetch.keyHandle)) | none => []
  of (s.part p).active ++ of (s.part p).loaded

/-- Source records and timeout that the partition's placements retain (R321). -/
def State.fetchInfo (s : State) (p : Nat) : FetchInfo :=
  match (s.part p).active, (s.part p).loaded with
  | some pl, _ => pl.fetch
  | none, some pl => pl.fetch
  | none, none => {}

/-- Blocks under repair, with the number of each one's shard: shard + 262,144 × image, as `fetchImages` lists them. -/
def State.repairBlocks (s : State) (p : Nat) : List (Nat × Blk) :=
  let q := s.part p
  let n := match q.active with | some pl => pl.images.length | none => 0
  let of (x : Option Placement) (o : Nat) : List (Nat × Blk) := match x with
    | some pl => (pl.blocks.filter (fun b => b.resident && q.repairs.contains b.addr)).map (fun b => (b.shardKey + 262144 * o, b))
    | none => []
  of q.active 0 ++ of q.loaded n

/-- Shards that covers and repairs still want, each once. A repair whose fetch has failed wants none. -/
def State.wantedKeys (s : State) (p : Nat) : List Nat :=
  let q := s.part p
  let ofCover (c : Cover) : List Nat := if c.ready then []
    else ((s.footprintBlks p c.stack c.array).filter (fun x => !c.tiers.any (fun t => t.1 == x.1))).map (·.2.shardKey)
  let repairs := (s.repairBlocks p).filter (fun x => (AMap.get? q.repairTry x.2.addr).isSome)
  (q.covers.flatMap (fun e => ofCover e.2) ++ repairs.map (·.1)).eraseDups

/-! ### Queue pairs (R159, R380) -/

/-- Ethernet-mode ports that are up and that a partition owns (R380). -/
def State.loadPorts (s : State) (p : Nat) : List Nat :=
  (List.range 16).filter (fun n => s.portUp n 0 && (s.rd R.FAB.PORT_CFG_OWNERS n).testBit p)

/-- Number of a queue pair: 68 for each partition, 34 for each set, 0 the load's and 1 that of cover fetches, 17 for each source, 0 for the
admin queue and 1 to 16 for the I/O queues (R380; the numbering is the model's, log entry 49). -/
def qpNo (p set src queue : Nat) : Nat := 68 * p + 34 * set + 17 * src + queue

/-- The partition whose queue pair a number names: 68 numbers for each partition (R380; the numbering is the model's, log
entry 49). -/
def qpPart (qp : Nat) : Nat := qp / 68

/-- Change the fabric's record. -/
def State.onFab (f : FabSt → FabSt) (s : State) : State := { s with fab := f s.fab }

/-- Send a command on a queue pair. How many bytes it takes on the port is not stated: a free number (log entry 117). -/
def State.sendCmd (p src no : Nat) (c : NvmeCmd) (s : State) : State :=
  match AMap.get? s.fab.qps no with
  | none => s
  | some q =>
    let (n, s) := s.takeFree
    let s := s.onFab (fun f => { f with qps := AMap.set f.qps no { q with since := s.clk.devTime } })
    let srcs := if no / 34 % 2 = 0 then (match (s.part p).load with | some l => l.fetch.sources | none => []) else (s.fetchInfo p).sources
    let a := match srcs[src]? with | some x => leNat x.addr.reverse | none => 0
    s.send q.port (.nvme p src (no % 17) c (s.ipTo q.port a)) n

/-- Open the queues of a source: the admin queue pair on the lowest-numbered port that is up, and one I/O queue pair on each (R159, R380). -/
def State.openSource (p set src : Nat) (s : State) : State :=
  let ports := s.loadPorts p
  if ports.isEmpty then s
  else
    let no := qpNo p set src
    let io := (List.range ports.length).zip ports
    let s := s.onFab (fun f => { f with
      qps := io.foldl (fun m x => AMap.set m (no (x.1 + 1)) { port := x.2 }) (AMap.set f.qps (no 0) { port := ports.headD 0 }) })
    let s := s.each [NvmeCmd.connect, .propertyGet, .identify false, .identify true] (fun c s => s.sendCmd p src (no 0) c)
    s.each io (fun x s => s.sendCmd p src (no (x.1 + 1)) .connect)

/-- Has a partition any queue pair of a set to a source. -/
def State.sourceOpen (s : State) (p set src : Nat) : Bool := s.fab.qps.any (fun e => e.1 / 17 == qpNo p set src 0 / 17)

/-- I/O queue pairs to a source that are open, in ascending port order. -/
def State.ioQueues (s : State) (p set src : Nat) : List Nat :=
  (s.fab.qps.filter (fun e => e.1 / 17 == qpNo p set src 0 / 17 && e.1 % 17 != 0 && !e.2.closed)).map (·.1)

/-- Source of a partition's running load that a source of its retained records is, when the load reaches the same one (R380). -/
def State.sameSource (s : State) (p src : Nat) : Option Nat :=
  match (s.part p).load, (s.fetchInfo p).sources[src]? with
  | some l, some x => l.fetch.sources.findIdx? (· == x)
  | _, _ => none

/-- Set and source whose queues carry a Read (R380): those of the load, or for a cover fetch the load's where it reaches the same source,
else a set of its own. -/
def State.readPath (s : State) (p : Nat) (r : ReadCmd) : Nat × Nat :=
  match r.what with
  | .fetch _ => match s.sameSource p r.source with | some i => (0, i) | none => (1, r.source)
  | _ => (0, r.source)

/-- Can shards be fetched for a cover or a repair: a port is up (R380), and the image keys that they need are held (R322). -/
def State.canFetch (s : State) (p : Nat) (keys : List Nat) : Bool :=
  !(s.loadPorts p).isEmpty && keys.all (fun key => match (s.fetchImages p)[key / 262144]? with
    | some (im, handle) => !im.encrypted || (AMap.get? (s.part p).imgKeys handle).isSome
    | none => false)

/-! ### Reads (R159 to R161) -/

/-- Most bytes of a Read (R159). -/
def maxRead : Nat := 2 ^ 20

/-- Depth of an I/O queue (R159). -/
def queueDepth : Nat := 128

/-- Send the Read at place i of a partition's list, if it waits and its queue has room: round robin over the queues by its number (R380). -/
def State.sendRead (p i : Nat) (s : State) : State :=
  let l := (s.part p).reads
  match l[i]? with
  | none => s
  | some r =>
    let (set, src) := s.readPath p r
    let qs := s.ioQueues p set src
    let no := qs.getD (r.index % qs.length) 0
    if r.queue.isSome || qs.isEmpty || decide (queueDepth ≤ (l.filter (fun x => x.queue == some no)).length) then s
    else
      let s := s.onPart p (fun q => { q with reads := q.reads.set i { r with queue := some no, since := s.clk.devTime } })
      s.sendCmd p src no (.read r.offset r.len)

/-- Send every Read that may go. -/
def State.pumpReads (p : Nat) (s : State) : State := s.each (List.range (s.part p).reads.length) (fun i s => s.sendRead p i)

/-- Ask a source for a run of bytes, in Reads numbered from `first` on. -/
def State.askBytes (p : Nat) (what : FetchOf) (first src offset len : Nat) (s : State) : State :=
  let new := (List.range (cdiv len maxRead)).map (fun j =>
    ({ what := what, index := first + j, source := src, offset := offset + maxRead * j, len := min maxRead (len - maxRead * j) } : ReadCmd))
  (s.onPart p (fun q => { q with reads := q.reads ++ new })).pumpReads p

/-- The Reads of something are no longer wanted, or all complete. -/
def State.endReads (p : Nat) (gone : FetchOf → Bool) (s : State) : State :=
  (s.onPart p (fun q => { q with reads := q.reads.filter (fun r => !gone r.what) })).pumpReads p

/-- Number of sources for what a Read fetches. -/
def State.sourcesFor (s : State) (p : Nat) : FetchOf → Nat
  | .fetch _ => (s.fetchInfo p).sources.length
  | _ => match (s.part p).load with | some l => l.fetch.sources.length | none => 0

/-- A Read goes to the other source: it waits again for a place in a queue (R161). -/
def State.reissue (s : State) (p : Nat) (r : ReadCmd) : ReadCmd :=
  { r with source := (r.source + 1) % max 1 (s.sourcesFor p r.what), queue := none }

/-- Queue pairs of a partition's fetches for covers and repairs are open to every source that its load does not reach (R380). -/
def State.openFetch (p : Nat) (s : State) : State :=
  s.each (List.range (s.fetchInfo p).sources.length) (fun i s =>
    s.whenB ((s.sameSource p i).isNone && !s.sourceOpen p 1 i) (fun s => s.openSource p 1 i))

/-- Ask for a shard that a cover or a repair wants, at attempt `n`, unless its Reads are on their way (R160, R321). -/
def State.askShard (p key n : Nat) (s : State) : State :=
  if (s.part p).reads.any (fun r => r.what == .fetch key) then s
  else
    match (s.fetchImages p)[key / 262144]?.bind (fun x => x.1.shards[key % 262144]?) with
    | some e => (s.openFetch p).askBytes p (.fetch key) 0 ((key % 262144 + n - 1) % max 1 (s.fetchInfo p).sources.length) e.offset e.length
    | none => s

/-- Queue pairs of a partition's set leave. -/
def State.closeSet (p set : Nat) (s : State) : State :=
  s.onFab (fun f => { f with qps := f.qps.filter (fun e => e.1 / 34 != 2 * p + set) })

/-- Reads for shards that nothing wants any more end; with none left, the queue pairs of their own close (R380). -/
def State.pruneReads (p : Nat) (s : State) : State :=
  let want := s.wantedKeys p
  let s := s.endReads p (fun x => match x with | .fetch key => !want.contains key | _ => false)
  s.whenB (!(s.part p).reads.any (fun r => match r.what with | .fetch _ => true | _ => false)) (fun s => s.closeSet p 1)

/-- The Reads and queue pairs of a partition's load end; Reads of covers that used them go on over queue pairs of their own (R380). -/
def State.closeLoad (p : Nat) (s : State) : State :=
  let s := s.closeSet p 0
  let s := s.onPart p (fun q => { q with reads := q.reads.filterMap (fun r => match r.what with
    | .fetch _ => some (if r.queue.any (fun no => (AMap.get? s.fab.qps no).isNone) then { r with queue := none } else r)
    | _ => none) })
  (s.whenB (!(s.part p).reads.isEmpty) (fun s => s.openFetch p)).pumpReads p

/-- Fetches for covers and repairs begin anew: the placement that numbers their shards and gives their sources has changed (log entry
132). -/
def State.refetch (p : Nat) (s : State) : State :=
  let s := s.onPart p (fun q => { q with
    reads := q.reads.filter (fun r => match r.what with | .fetch _ => false | _ => true)
    covers := q.covers.map (fun e => (e.1, { e.2 with tries := [] })) })
  let s := s.closeSet p 1
  s.each (s.wantedKeys p) (fun key s => s.askShard p key 1)

/-- A port's queue pairs are lost: the Reads on it are reissued on the other ports (R393). -/
def State.losePort (n : Nat) (s : State) : State :=
  let lost := (s.fab.qps.filter (fun e => e.2.port == n)).map (·.1)
  let s := s.onFab (fun f => { f with qps := f.qps.filter (fun e => e.2.port != n) })
  s.each (((lost.map qpPart)).eraseDups) (fun p s =>
    (s.onPart p (fun q => { q with reads := q.reads.map (fun r =>
      if r.queue.any lost.contains then s.reissue p r else r) })).pumpReads p)

/-- The Read that a command names, once it has failed: it returned an error, or 2 s have passed since it was sent (R161). -/
def State.failedRead (s : State) (p : Nat) (x : ReadRef) : Option Nat :=
  (s.part p).reads.findIdx? (fun r => r.what == x.what && r.index == x.index && r.queue.isSome && (x.error || s.passed r.since 2000000000))

/-- READ_TIMEOUT: a Read that returned an error, or got no completion within 2 s, goes to the other source; it counts as no re-fetch (R161).
-/
def execReadTimeout (part : Fin 12) (read : ReadRef) (s : State) : Host.Outcome State Fault Refusal :=
  let p := part.val
  match s.failedRead p read with
  | none => .next s
  | some i =>
    .next ((s.onPart p (fun q => { q with reads := q.reads.modify i (s.reissue p) })).pumpReads p)

/-- A Keep Alive goes on every admin queue on which nothing has been sent for the interval, which the spec leaves open (R159; DESIGN CHOICE,
log entry 117). -/
def State.keepAlives (s : State) : State :=
  s.each (s.fab.qps.filter (fun e => e.1 % 17 == 0 && !e.2.closed && s.passed e.2.since Config.keepAliveNs)) (fun e s =>
    s.sendCmd (qpPart e.1) (e.1 / 17 % 2) e.1 .keepAlive)

/-- Ports whose PFC stop is over send what waits (R379). -/
def State.portsGoOn (s : State) : State := s.each ((List.range 16).filter (fun n => !(s.port n).held.isEmpty)) State.goOn

end Sys2Proof.Machine
end

