-- ==== Sys2Proof/Machine/Arrays.lean ====
section
/-! DEFINITION. Array fields: evaluations from their descriptors to accepted rounds (R27 to R57), the range guard, drift
correction, checksum, accumulator slots, replay and escalation (R89 to R96, R103 to R116, R126 to R135, R320). -/
namespace Sys2Proof.Machine

/-! ### Descriptor fields (R62) -/

/-- ARRAY of a descriptor. -/
def dArray (d : Nat) : Nat := bits d 0 16
/-- TIER. -/
def dTier (d : Nat) : Nat := bits d 16 4
/-- WMODE. -/
def dWmode (d : Nat) : Nat := bits d 20 2
/-- AMODE. -/
def dAmode (d : Nat) : AMode :=
  match bits d 22 2 with | 0 => .a4 | 1 => .a6 | 2 => .a8h | _ => .a8l
/-- UNSIGNED. -/
def dUnsigned (d : Nat) : Bool := d.testBit 24
/-- FS_EXP. -/
def dFsExp (d : Nat) : Nat := bits d 25 4
/-- TRIG. -/
def dTrig (d : Nat) : Nat := bits d 29 1
/-- LANE. -/
def dLane (d : Nat) : Nat := bits d 30 2
/-- CHAIN. -/
def dChain (d : Nat) : Nat := bits d 32 8
/-- SLOT. -/
def dSlot (d : Nat) : Nat := bits d 40 4
/-- LAST. -/
def dLast (d : Nat) : Bool := d.testBit 44

/-- Level gain g of a weight mode (R27). -/
def levelGain (w : Nat) : Nat := match w with | 0 => 1 | 1 => 2 | 2 => 4 | _ => 7

/-- Level stored for a signed weight value (R27). -/
def levelOf (w : Nat) (v : Int) : Int := 8 + (levelGain w : Int) * v

/-- Is a value in the range of its weight mode (R27, R152). -/
def valueOk (w : Nat) (v : Int) : Bool :=
  match w with
  | 0 => decide (-8 ≤ v) && decide (v ≤ 7)
  | 1 => decide (-4 ≤ v) && decide (v ≤ 3)
  | 2 => decide (-2 ≤ v) && decide (v ≤ 1)
  | _ => decide (-1 ≤ v) && decide (v ≤ 1)

/-- Mean of a group of levels, rounded half to even (R113). -/
def meanLevel (l : List Int) : Int := rneDiv (l.foldl (· + ·) 0) l.length

/-! ### Physical places (R41 to R47) -/

/-- Data columns of an array. -/
def dataCols : Nat := 2048
/-- Physical columns of an array (R41). -/
def physCols : Nat := 2112

/-- Home physical array of a logical index (R45). -/
def homeArray (l : Nat) : Nat :=
  let g := l / 304
  let r := l % 304
  let j := min (r / 61) 4
  64 * (5 * g + j) + (r - 61 * j)

/-- Home tile of a logical index (R45). -/
def homeTile (l : Nat) : Nat := homeArray l / 64

/-- Is a physical array a spare (R45). -/
def isSpare (a : Nat) : Bool :=
  decide (a < 40960) && decide ((if (a / 64) % 5 = 4 then 60 else 61) ≤ a % 64)

/-- Active column remap buffer (R47). -/
def StackSt.colMap (u : StackSt) : AMap Nat := if u.mapBuf = 0 then u.colMap0 else u.colMap1
/-- Active array remap buffer. -/
def StackSt.arrMap (u : StackSt) : AMap Nat := if u.mapBuf = 0 then u.arrMap0 else u.arrMap1
/-- Inactive column remap buffer. -/
def StackSt.colMapIn (u : StackSt) : AMap Nat := if u.mapBuf = 0 then u.colMap1 else u.colMap0
/-- Inactive array remap buffer. -/
def StackSt.arrMapIn (u : StackSt) : AMap Nat := if u.mapBuf = 0 then u.arrMap1 else u.arrMap0

/-- Physical array that serves a logical index: the home array, or its substitute (R46). -/
def StackSt.physOf (u : StackSt) (l : Nat) : Nat :=
  let e := AMap.getD u.arrMap l 0
  if e.testBit 31 then bits e 0 16 else homeArray l

/-- Valid column remap entries of an array: (data column, spare) (R44, R64). -/
def colEntries (m : AMap Nat) (phys : Nat) : List (Nat × Nat) :=
  (m.filter (fun e => 32 * phys ≤ e.1 && e.1 < 32 * phys + 32 && e.2.testBit 31)).map
    (fun e => (bits e.2 0 11, bits e.2 11 5))

/-- The physical column whose code stands at data column c (R44). -/
def placedCol (ents : List (Nat × Nat)) (c : Nat) : Nat :=
  match ents.find? (fun e => e.1 == c) with
  | some e => 2080 + e.2
  | none => c

/-- Group of a converter, 264 × physical array + converter, among those of its tile that one piece of a recalibration covers:
8 × tile + piece (R347; DEDUCED: ascending, log entry 110). -/
def convGroup (key : Nat) : Nat := 8 * (key / 264 / 64) + key % 264 / 33

/-- Has converter `conv` of a physical array failed (R61): marked by itself, or with all of its group but some (R67). -/
def StackSt.convFailed (u : StackSt) (phys conv : Nat) : Bool :=
  AMap.getD u.failed (264 * phys + conv) 0 != 0 ||
  match AMap.get? u.failAll (convGroup (264 * phys + conv)) with
  | some but => !but.contains (264 * phys + conv)
  | none => false

/-- Converters of a group: 33 of each of the 64 arrays of its tile. -/
def groupKeys (g : Nat) : List Nat :=
  (List.range 64).flatMap (fun a => (List.range 33).map (fun c => 264 * (64 * (g / 8) + a) + 33 * (g % 8) + c))

/-- Keys of the failed converters of a stack, 264 × physical array + converter. -/
def StackSt.failedKeys (u : StackSt) : List Nat :=
  (u.failed.filter (fun e => !(AMap.get? u.failAll (convGroup e.1)).isSome)).map (·.1) ++
  u.failAll.flatMap (fun t => (groupKeys t.1).filter (fun key => !t.2.contains key || AMap.getD u.failed key 0 != 0))

/-- Converters marked failed in a stack (R66). -/
def StackSt.failedCount (u : StackSt) : Nat :=
  (u.failed.filter (fun e => match AMap.get? u.failAll (convGroup e.1) with | some but => but.contains e.1 | none => true)).length +
  u.failAll.foldl (fun n t => n + (2112 - t.2.length)) 0

/-! ### Levels and charges (R27, R37, R42, R43, R113, R163, R164) -/

/-- Level that data column c of a tier was programmed at, at a row. -/
def TierCells.dataLevel (t : TierCells) (row c : Nat) : Int := levelOf t.wmode (sx (unpackElem 4 t.vals (2048 * row + c)) 4)

/-- Level that a programmed tier's cell was given: data columns the block's, reference columns 0, 5, 10 and 15, checksum columns the
rounded mean of their group, spare columns that of the data column they replace; an unmapped spare column is not programmed. -/
def TierCells.target (t : TierCells) (row col : Nat) : Int :=
  if col < 2048 then t.dataLevel row col
  else if col < 2064 then 5 * ((col - 2048) / 4 : Nat)
  else if col < 2080 then meanLevel ((List.range 128).map (fun i => t.dataLevel row (128 * (col - 2064) + i)))
  else match t.spares.find? (fun e => e.2 == col - 2080) with
    | some e => t.dataLevel row e.1
    | none => 0

/-- Level of a cell of a programmed tier. A cell that did not verify stays at its last level: which cells of the column they are, and
at which level, are free values (R164, log entry 99). -/
def TierCells.level (t : TierCells) (row col : Nat) : Int :=
  match t.failed.find? (fun e => e.1 == col) with
  | none => t.target row col
  | some e =>
    if (List.range e.2.1).any (fun i => Config.freeAt e.2.2 (4096 * col + i) % 2048 == row)
    then ((Config.freeAt e.2.2 (4096 * (4096 + col) + row) % 16 : Nat) : Int)
    else t.target row col

/-- Level of a cell of an array-tier. One that nothing has programmed since the last clear holds level 0 on data, checksum and spare
columns (R419, R504); in a stack left by an interrupted self-test the levels are free values (R456). -/
def State.cellLevel (s : State) (k phys tier row col : Nat) : Int :=
  match AMap.get? s.nv.cells (655360 * k + 16 * phys + tier) with
  | some t => t.level row col
  | none =>
    let d := AMap.getD s.nv.unknown k 0
    if d != 0 then ((Config.freeAt d ((655360 * k + 16 * phys + tier) * 4325376 + 2112 * row + col) % 16 : Nat) : Int)
    else if 2048 ≤ col ∧ col < 2064 then 5 * ((col - 2048) / 4 : Nat)
    else 0

/-- Charge Q_c of a physical column: the sum of edges times levels, in edge-level units (R37). -/
def State.charge (s : State) (k phys tier : Nat) (edges : List Int) (col : Nat) : Int :=
  if !(AMap.get? s.nv.cells (655360 * k + 16 * phys + tier)).isSome && AMap.getD s.nv.unknown k 0 == 0 && !(2048 ≤ col && col < 2064) then 0
  else ((List.range edges.length).zip edges).foldl (fun a x => if x.2 = 0 then a else a + x.2 * s.cellLevel k phys tier x.1 col) 0

/-! ### Program data of a partition -/

/-- A chain record of the active set. -/
def State.chainRec (s : State) (p i : Nat) : Option ChainRec := (s.part p).setAct.chains[i]?

/-- A tensor descriptor of the active set. -/
def State.tensorRec (s : State) (p i : Nat) : Option TensorRec := (s.part p).setAct.tensors[i]?

/-- The descriptors of a chain (R201). -/
def State.chainDescs (s : State) (p : Nat) (c : ChainRec) : List Nat :=
  ((AMap.getD (s.part p).setAct.descs c.stack []).drop c.descFirst).take c.descCount

/-- The placement entry of an array-tier (R206). -/
def State.plEntryAt (s : State) (p k array tier : Nat) : Option PlEntry :=
  match (s.part p).active with
  | some pl => pl.entries.find? (fun e => e.stack == k && e.array == array && e.tier == tier && e.flags % 2 == 0)
  | none => none

/-- Row block of a descriptor (R206). -/
def State.rowBlkOf (s : State) (p k d : Nat) : Nat :=
  match s.plEntryAt p k (dArray d) (dTier d) with | some e => e.rowblk | none => 0

/-- A resident block of the active placement by kind and coordinates. -/
def State.blkAt (s : State) (p kind : Nat) (layer expert matrix rowblk colblk : Nat) : Option Blk :=
  match (s.part p).active with
  | some pl => pl.blocks.find? (fun b => b.kind == kind && b.layer == layer && b.expert == expert &&
      b.matrix == matrix && b.rowblk == rowblk && b.colblk == colblk)
  | none => none

/-- CRC-32C of each 4 KiB of a block, the last piece filled with zeros (R287). -/
def crcPieces (bs : List Byte) : List Nat :=
  (List.range (cdiv bs.length 4096)).map (fun i =>
    let x := (bs.drop (4096 * i)).take 4096
    crc32c (x ++ List.replicate (4096 - x.length) 0))

/-- Is a block correction data, with check values (R121, R287): outlier rows and sparse lists. -/
def Blk.checked (b : Blk) : Bool := b.kind == 3 || b.kind == 4

/-- Where the check values of a block of correction data lie: after its bytes, in the loader's own layout (R287; log entry 39). -/
def Blk.chkAddr (b : Blk) : Nat := b.addr + b.length

/-- 4 KiB pieces of a block. -/
def Blk.pieces (b : Blk) : Nat := cdiv b.length 4096

/-- Is a resident block poisoned, or does it fail its check values (R119, R288). -/
def State.blkBad (s : State) (b : Blk) : Bool :=
  s.mbad b.addr b.length ||
  (b.checked && (s.mbad b.chkAddr (4 * b.pieces) || leWords 4 b.pieces (s.mrd b.chkAddr (4 * b.pieces)) != crcPieces (s.mrd b.addr b.length)))

/-- A unit reads a resident block with its check values: the controllers decode their bursts (R284, R288). -/
def State.touchBlk (b : Blk) (s : State) : State :=
  (s.touch b.addr b.length).whenB b.checked (fun s => s.touch b.chkAddr (4 * b.pieces))

/-- Write a block in its place, with its check values (R287, R319). -/
def State.putBlk (b : Blk) (bytes : List Byte) (s : State) : State :=
  (s.mwr b.addr bytes).whenB b.checked (fun s => s.mwr b.chkAddr ((crcPieces bytes).flatMap (leBytes 4)))

/-- Declared outlier channels of the tensor that a matrix reads, ascending (R98, KIND 2 of R151). -/
def State.outliers (s : State) (p : Nat) (c : ChainRec) : List Nat :=
  match (s.part p).active with
  | some pl =>
    (pl.blocks.filter (fun b => b.kind == 2 && b.layer == c.layer && b.expert == c.expert && b.matrix == c.matrix)).flatMap
      (fun b => leWords 2 (b.length / 2) (s.mrd b.addr b.length))
  | none => []

/-! ### Driving an input row (R31 to R36, R52, R73 to R79, R102) -/

/-- What the row drivers make of one row block. -/
structure Driven where
  edges : List Int
  /-- invalid blocks among the 64 (R79) -/
  invalid : Nat
  /-- does a block saturate, so that a range pass follows -/
  saturated : Bool
  /-- range-pass blocks that saturate again (R104) -/
  resat : Nat
  /-- blocks newly quantized that saturated or became zero, for the counters of R78 and R97 -/
  nSat : Nat
  nZero : Nat
  deriving DecidableEq, Repr

/-- One 32-element block of an input row in the form a pass drives: (codes, stretch, invalid, saturated, remainder,
counts as newly saturated, newly zero). `native`: the rung for which the tensor's codes were made. -/
def State.inBlock (s : State) (t : TensorRec) (row b : Nat) (md : AMode) (native : Bool) (sref : Nat)
    (outl : List Nat) : ABlock :=
  let sa := t.scaleAddr row b
  let sc := s.mval sa 1
  let rc := AMap.get? s.blks sa
  let isOut := (List.range 32).map (fun i => outl.contains (32 * b + i))
  let codes := (s.tensorCodes t row (32 * b) 32).map (fun c => sx c (fmtBits t.fmt))
  let mask (cs : List Int) := (cs.zip isOut).map (fun x => if x.2 then 0 else x.1)
  if native then
    if sc = 0 then { sb8 := 0, k := 0, codes := mask (codes.map (fun _ => 0)) }
    else if sc = 0xFF then
      match rc with
      | some r => if r.saturated then
          { sb8 := 0xFF, k := stretchMax t.fmt, codes := mask codes, saturated := true, rem := r.rem }
        else { sb8 := 0xFF, k := 0, codes := mask (codes.map (fun _ => 0)), invalid := true }
      | none => { sb8 := 0xFF, k := 0, codes := mask (codes.map (fun _ => 0)), invalid := true }
    else
      -- a scale that R75 does not allow has no stated stretch: a free value in the range of R31 (log entry 12)
      let k := (stretchOfSb8 t.fmt sref sc).getD (4 + Config.freeAt sa sc % (stretchMax t.fmt - 3))
      { sb8 := sc, k := k, codes := mask codes }
  else
    let vals := match rc with
      | some r => r.vals
      | none => s.tensorVals t row (32 * b) 32
    let q := arrayBlock md.fmt sref (srefExp sref) vals isOut 0
    if q.invalid then { q with k := 0, codes := q.codes.map (fun _ => 0) } else q

/-- The range-pass block of a block (R102, R104): remainders quantized with 16 × s_ref. -/
def rangeBlock (md : AMode) (sref : Nat) (outl : List Bool) (b : ABlock) : ABlock :=
  if !b.saturated then { sb8 := 0, k := 0, codes := b.codes.map (fun _ => 0) }
  else arrayBlock md.fmt sref (srefExp sref + 4) b.rem outl 0

/-- The edges of row block `rb` of a row (R31, R34), for a pass in mode `md`, main or range. -/
def State.drive (s : State) (t : TensorRec) (row rb : Nat) (md : AMode) (native range : Bool) (sref : Nat)
    (outl : List Nat) : Driven :=
  let bs := (List.range 64).map (fun j => (j, s.inBlock t row (64 * rb + j) md native sref outl))
  let rs := bs.map (fun x =>
    if range then rangeBlock md sref ((List.range 32).map (fun i => outl.contains (32 * (64 * rb + x.1) + i))) x.2 else x.2)
  { edges := rs.flatMap (fun b => b.codes.map (fun x => edgeOf md x b.k))
    invalid := (bs.filter (fun x => x.2.invalid)).length
    saturated := bs.any (fun x => x.2.saturated)
    resat := if range then (rs.filter (fun b => b.saturated)).length else 0
    nSat := if native || range then 0 else (bs.filter (fun x => x.2.saturated)).length
    nZero := if native || range then 0 else (bs.filter (fun x => x.2.sb8 == 0)).length }

/-- E_P and E_N over rows [lo, lo + n) (R33). -/
def bankSums (e : List Int) (lo n : Nat) : Nat × Nat :=
  ((e.drop lo).take n).foldl (fun a x => if x > 0 then (a.1 + x.toNat, a.2) else (a.1, a.2 + (-x).toNat)) (0, 0)

/-- Predicted charge of a bank: ⌈G × 15 × max(E_P, E_N)⌉ with G = (code + 1)/16 (R38). -/
def predicted (code : Nat) (e : Nat × Nat) : Nat := cdiv ((code + 1) * 15 * max e.1 e.2) 16

/-- Do all banks of a pass count fit the range 511 × 2^m (R38). -/
def passesFit (code m : Nat) (e : List Int) (n : Nat) : Bool :=
  (List.range n).all (fun i => decide (predicted code (bankSums e (2048 / n * i) (2048 / n)) ≤ 511 * 2 ^ m))

/-- The guard's pass count, and whether the range could not be reached (R38, R40). -/
def guardPasses (code m : Nat) (e : List Int) : Nat × Bool :=
  if passesFit code m e 1 then (1, false)
  else if passesFit code m e 2 then (2, false)
  else if passesFit code m e 4 then (4, false) else (4, true)

/-- Edges of one pass: the rows of its bank, the others idle. -/
def bankEdges (e : List Int) (passes pass : Nat) : List Int :=
  let w := 2048 / passes
  ((List.range e.length).zip e).map (fun x => if w * pass ≤ x.1 && x.1 < w * (pass + 1) then x.2 else 0)

/-! ### Concurrency (R19, R50 to R52) -/

/-- The cap in force on a stack (R51). -/
def State.effCap (s : State) (k : Nat) : Nat :=
  let cap := min (s.rd R.AFD.CAP_CAP k) 384
  if s.is R.AFD.STAT_THERMAL_HALVED k then cap / 2 else cap

/-- Evaluations that hold a place: in their evaluation interval, not yet sampled (R48). -/
def StackSt.evaluating (u : StackSt) : List Firing := u.firing.filter (fun f => !f.held)

/-- Do two evaluations share one input vector (R52). -/
def sameVector (f : Firing) (it : EvalItem) (row rowblk : Nat) : Bool :=
  f.item.job == it.job && f.row == row && f.rowblk == rowblk && f.item.mode == it.mode && f.item.range == it.range &&
    f.lane == dLane it.desc

/-- The job of a stack with a number. -/
def StackSt.job? (u : StackSt) (id : Nat) : Option Job := u.jobs.find? (fun j => j.id == id)

/-- Change one job. -/
def StackSt.onJob (u : StackSt) (id : Nat) (f : Job → Job) : StackSt :=
  { u with jobs := u.jobs.map (fun j => if j.id = id then f j else j) }

/-- Change one job of a stack of the module. -/
def State.onJob (k id : Nat) (f : Job → Job) (s : State) : State := s.onStk k (fun u => u.onJob id f)

/-- Key of a job's slot pair: home tile and SLOT of its first descriptor (R126, R128; DESIGN CHOICE where the descriptors name several SLOTs,
log entry 139). -/
def State.pairKey (s : State) (j : Job) : Nat :=
  match s.chainRec j.part j.chain with
  | some c => match s.chainDescs j.part c with
    | d :: _ => 16 * homeTile (dArray d) + dSlot d
    | [] => 0
  | none => 0

/-- A slot pair. -/
def StackSt.pair (u : StackSt) (key : Nat) : Pair := AMap.getD u.pairs key {}

/-- Change a slot pair. -/
def State.onPair (k key : Nat) (f : Pair → Pair) (s : State) : State :=
  s.onStk k (fun u => { u with pairs := AMap.modify u.pairs key {} f })

/-- Row of the input tensor that a job runs now. -/
def Job.row (j : Job) : Nat := j.row0 + j.cur

/-- A drive that brings no news of its blocks. -/
def Driven.of (edges : List Int) : Driven := { edges := edges, invalid := 0, saturated := false, resat := 0, nSat := 0, nZero := 0 }

/-- Input of a waiting evaluation, and its row block. A later pass or a repeat drives the vector that the row drivers still hold
(R39, R57). -/
def State.driveOf (s : State) (k : Nat) (j : Job) (it : EvalItem) : Driven × Nat :=
  match s.chainRec j.part j.chain, s.tensorRec j.part j.tensor with
  | some c, some t =>
    let rb := s.rowBlkOf j.part k it.desc
    match it.vec with
    | some e => (Driven.of e, rb)
    | none => (s.drive t j.row rb it.mode (j.rung == c.rung) it.range c.sref (s.outliers j.part c), rb)
  | _, _ => (Driven.of [], 0)

/-- Does a job still need its slot pair: for the present row, unless that is at the digital rung, or for a later one. -/
def Job.needsPair (j : Job) : Bool := decide (j.cur + 1 < j.n) || (decide (j.cur < j.n) && j.stage != .digital)

/-- Is a job the first of its stack that needs its slot pair: chains on one pair take it in step-program order (R130). -/
def State.firstOnPair (s : State) (k : Nat) (j : Job) : Bool :=
  match (s.stk k).jobs.find? (fun o => o.needsPair && s.pairKey o == s.pairKey j) with
  | some o => o.id == j.id
  | none => false

/-- May an evaluation of a job go forward at all: its run has its slot pair (R130), range passes after LAST (R103). -/
def State.itemReady (s : State) (k : Nat) (j : Job) (it : EvalItem) : Bool :=
  (match j.stage with
   | .waiting => ((s.stk k).pair (s.pairKey j)).st == 0 && s.firstOnPair k j
   | .running => true
   | _ => false) &&
  (!it.range || j.todo.all (fun x => x.range || x.verdict))

/-- Tiles that get an evaluation's input vector: that of the physical array, and the home tile of a substituted one (R46). -/
def StackSt.vectorTiles (u : StackSt) (it : EvalItem) : List Nat := [u.physOf (dArray it.desc) / 64, homeTile (dArray it.desc)]

/-- Is an evaluation's lane free in every tile that gets its vector, or does it carry that vector (R52). -/
def StackSt.laneFree (u : StackSt) (j : Job) (it : EvalItem) (rb : Nat) : Bool :=
  u.evaluating.all (fun f => f.lane != dLane it.desc || sameVector f it j.row rb ||
    !(u.vectorTiles it).any (fun t => t == f.tile || t == f.home))

/-- May it arm now: array free and biased on its tier, a hold capacitor free, a place under the cap and in the tile, its lane
free (R19, R28, R29, R50 to R52). An evaluation that fires nothing holds no place under the cap (R35), but a cap of 0 stops it as well
(R63). -/
def State.canArm (s : State) (k : Nat) (j : Job) (it : EvalItem) (rb : Nat) (fires : Bool) : Bool :=
  let u := s.stk k
  let phys := u.physOf (dArray it.desc)
  let ev := u.evaluating
  !u.stopArm && s.en .afd k && s.itemReady k j it &&
  ev.all (fun f => f.phys != phys) && AMap.getD u.bias phys 0 == dTier it.desc + 1 &&
  decide ((u.firing.filter (fun f => f.phys == phys && f.held)).length < 2) &&
  (if fires then decide (ev.length < s.effCap k) else s.effCap k != 0) &&
  decide ((ev.filter (fun f => f.tile == phys / 64)).length < 2) && u.laneFree j it rb

/-- Do two waiting evaluations of a stack want the same thing, so that the earlier one goes first: one array (R28), or one lane of a
tile with different vectors (R52). -/
def State.contend (s : State) (k : Nat) (x y : Job × EvalItem) : Bool :=
  let u := s.stk k
  u.physOf (dArray x.2.desc) == u.physOf (dArray y.2.desc) ||
  (dLane x.2.desc == dLane y.2.desc && (u.vectorTiles x.2).any (fun t => (u.vectorTiles y.2).contains t) &&
    !(x.1.id == y.1.id && x.1.row == y.1.row && x.2.mode == y.2.mode && x.2.range == y.2.range &&
      s.rowBlkOf x.1.part k x.2.desc == s.rowBlkOf y.1.part k y.2.desc))

/-- All waiting evaluations of a stack in step-program order (R19). -/
def StackSt.waitingItems (u : StackSt) : List (Job × EvalItem) := u.jobs.flatMap (fun j => j.todo.map (fun it => (j, it)))

/-- Put a waiting evaluation in its place among the others of its run (R19). -/
def placeItem (it : EvalItem) (l : List EvalItem) : List EvalItem :=
  l.takeWhile (fun x => decide (x.ord < it.ord)) ++ it :: l.dropWhile (fun x => decide (x.ord < it.ord))

/-- A job with an evaluation put back to wait. -/
def Job.putItem (j : Job) (it : EvalItem) : Job := { j with todo := placeItem it j.todo }

/-- Has no evaluation of a job's present run armed yet. -/
def Job.unarmed (j : Job) : Bool := j.stage == .waiting && j.inFlight == 0 && j.todo.all (fun it => it.vec.isNone)

/-- Drop the first waiting item of a job that equals `it`. -/
def Job.dropItem (j : Job) (it : EvalItem) : Job := { j with todo := j.todo.erase it }

/-! ### Runs of a chain (R90, R103, R129, R208) -/

/-- The evaluations of one run of a chain at a rung: the descriptors in order, then the range passes of those whose row
block saturates (R73, R90, R103). -/
def State.runItems (s : State) (k : Nat) (j : Job) (rung : Nat) : List EvalItem :=
  match s.chainRec j.part j.chain with
  | none => []
  | some c =>
    let ds := s.chainDescs j.part c
    let mk (d : Nat) (md : AMode) : EvalItem := { job := j.id, desc := d, mode := md, range := false }
    let number (l : List EvalItem) := ((List.range l.length).zip l).map (fun (x : Nat × EvalItem) => { x.2 with ord := x.1 })
    let main :=
      if rung = c.rung then ds.map (fun d => mk d (dAmode d))
      else if rung = 1 then ds.map (fun d => mk d .a6)
      else if c.rung = 2 then ds.map (fun d => mk d (dAmode d))
      else ds.flatMap (fun d => [mk d .a8h, mk d .a8l])
    let sat (it : EvalItem) := (s.driveOf k { j with rung := rung } it).1.saturated
    number (main ++ (main.filter sat).map (fun it => { it with range := true }))

/-- Has a run an invalid block in a row block that it drives (R79). -/
def State.runInvalid (s : State) (k : Nat) (j : Job) (rung : Nat) (items : List EvalItem) : Bool :=
  items.any (fun it => (s.driveOf k { j with rung := rung } it).1.invalid != 0)

/-- Has a step-program set the digital rung for a chain, given the core sets of its partition (R208): a DIGITAL block, and an
ESC group on a core of the collecting hub. -/
def StepSet.digitalFor (z : StepSet) (sets : List Nat) (c : ChainRec) : Bool :=
  c.digTensor != 0xFFFFFFFF &&
  z.groups.any (fun e => e.1 / 192 == c.collHub && e.2.any (fun g => g.esc) && (sets.getD c.collHub 0).testBit (e.1 % 192 / 16))

/-- Is the digital rung available for a chain of the active set: under R208, and with the digital weights of its row blocks resident in
memory (R91, R172). -/
def State.digitalAvail (s : State) (p : Nat) (c : ChainRec) : Bool :=
  (s.part p).setAct.digitalFor (s.part p).sets c &&
  ((s.chainDescs p c).map (s.rowBlkOf p c.stack)).all (fun rb =>
    match s.blkAt p 5 c.layer c.expert c.matrix rb c.colblk with | some b => b.resident | none => false)

/-- Queue the digital-rung invocation of a chain's present row (R208). -/
def State.queueEsc (j : Job) (c : ChainRec) (s : State) : State :=
  s.onHub c.collHub (fun u => { u with
    esc := u.esc ++ [{ part := j.part, chain := j.chain, row := j.row, tensor := j.tensor, dig := c.digTensor, job := j.id }] })

/-- The escalation record of a layer in the running step: (chains escalated, highest rung) (R93). -/
def StepSt.layerEsc (t : StepSt) (layer : Nat) : Nat × Nat :=
  match t.layers.find? (fun x => x.1 == layer) with | some x => x.2 | none => (0, 0)

/-- Correction blocks and column scales of a chain in the active placement (R98, R105, R151). -/
def State.chainBlks (s : State) (p : Nat) (c : ChainRec) : List Blk :=
  match (s.part p).active with
  | none => []
  | some pl =>
    let rbs := (s.chainDescs p c).map (s.rowBlkOf p c.stack)
    pl.blocks.filter (fun b => b.layer == c.layer && b.expert == c.expert && b.matrix == c.matrix &&
      (b.kind == 2 || ((b.kind == 1 || b.kind == 3 || b.kind == 4) && b.colblk == c.colblk && rbs.contains b.rowblk)))

/-- All data of a chain in memory: also its digital weights. -/
def State.chainData (s : State) (p : Nat) (c : ChainRec) : List Blk :=
  s.chainBlks p c ++ ((s.chainDescs p c).map (s.rowBlkOf p c.stack)).eraseDups.filterMap
    (fun rb => s.blkAt p 5 c.layer c.expert c.matrix rb c.colblk)

/-- Does a chain need a correction block that is under repair (R119). -/
def State.needsRepair (s : State) (p : Nat) (c : ChainRec) : Bool :=
  !(s.part p).repairs.isEmpty && (s.chainBlks p c).any (fun b => b.kind != 1 && (s.part p).repairs.contains b.addr)

/-- Are weights or correction data of a chain poisoned or under repair, so that no alarm escalates it (R96, R120). -/
def State.chainBad (s : State) (p : Nat) (c : ChainRec) : Bool :=
  (s.chainData p c).any (fun b => (s.part p).repairs.contains b.addr || s.blkBad b)

/-- The fetch of a block for its repair has failed: the block stays poisoned (R319). -/
def State.repairLost (p : Nat) (b : Blk) (s : State) : State :=
  let s := (s.onPart p (fun q => { q with repairTry := AMap.erase q.repairTry b.addr })).pruneReads p
  (s.raise R.REL.EVT_REPAIR_FAILED p).report (hubOfAddr b.addr) (mkReport 8 (hubOfAddr b.addr) 0 0x0A 2 (2 ^ p) b.addr)

/-- Start the repair of a memory block found poisoned: counted and reported once (R119, R319), on the hub whose memory holds it
(DESIGN CHOICE, log entry 130), and its shard is asked for (R321). -/
def State.startRepair (p : Nat) (b : Blk) (s : State) : State :=
  if (s.part p).repairs.contains b.addr then s
  else
    let h := hubOfAddr b.addr
    let s := s.onPart p (fun q => { q with
      repairs := q.repairs ++ [b.addr], repairTry := AMap.set q.repairTry b.addr (0, s.clk.devTime) })
    let s := s.whenB (b.kind == 2 || b.kind == 3 || b.kind == 4)
      (fun s => (s.count R.DCP.CORR_POISON_CNT h).raise R.DCP.EVT_CORR_POISON h)
    let s := s.report h (mkReport 8 h 0 0x06 2 (2 ^ p) b.addr)
    let keys := ((s.repairBlocks p).filter (fun x => x.2.addr == b.addr)).map (·.1)
    if s.canFetch p keys then s.each keys (fun key s => s.askShard p key 1) else s.repairLost p b

/-- A patrol has found a burst poisoned: the blocks of active and loaded placements that lie in it are repaired (R119, R173, R319). -/
def State.foundPoison (b : Nat) (s : State) : State :=
  if !s.mbad (64 * b) 64 then s
  else
    s.each (List.range 12) (fun p s =>
      let q := s.part p
      let bs := (match q.active with | some x => x.blocks | none => []) ++ (match q.loaded with | some x => x.blocks | none => [])
      s.each (bs.filter (fun x => x.resident && x.kind != 0 && touchedIn x.addr x.length b)) (fun x s =>
        s.startRepair p x))

/-- A rung that a chain is raised to: at most the highest that its hub allows, the digital rung only where it is available, and never
below the compiled rung (R91, R97). -/
def State.capRung (s : State) (p : Nat) (c : ChainRec) (rung : Nat) : Nat :=
  let r := min rung (s.rd R.DCP.ESC_CTL_TOP_RUNG (hubOfStack c.stack))
  max c.rung (if 3 ≤ r && !s.digitalAvail p c then 2 else r)

/-- Rung of a layer once LAYER_THRESH of its chains have escalated in the step (R93); 0 before. -/
def State.layerRung (s : State) (p : Nat) (c : ChainRec) : Nat :=
  let th := s.rd R.DCP.ESC_CTL_LAYER_THRESH (hubOfStack c.stack)
  let (n, r) := (s.part p).step.layerEsc c.layer
  if th != 0 && th ≤ n then r else 0

/-- Rung to which layer mode has raised a row of a layer's input (R93); 0 where it has not. -/
def StepSt.raisedRung (t : StepSt) (layer tensor row : Nat) : Nat :=
  (t.raised.filter (fun x => x.1 == layer && x.2.1 == tensor && x.2.2.1 == row)).foldl (fun m x => max m x.2.2.2) 0

/-- Rung at which a chain's run starts: the compiled rung, or a higher one that R93 raises it to, 3 in DIGITAL mode (R302) and while a
correction block that it needs is under repair and its digital rung is available (R119). -/
def State.startRung (s : State) (j : Job) (c : ChainRec) : Nat :=
  if s.rd R.GLB.EXACT_MODE j.part = 2 || (s.needsRepair j.part c && s.digitalAvail j.part c) then 3
  else s.capRung j.part c (max (s.layerRung j.part c) ((s.part j.part).step.raisedRung c.layer j.tensor j.row))

/-- Prepare the run of a job's present row at a rung. What an earlier run of the row left of alarms, clips and exhaustion goes; it comes
back only if this run meets its cause (R133, R134). -/
def State.startRunAt (k id rung : Nat) (s : State) : State :=
  match (s.stk k).job? id with
  | none => s
  | some j =>
    match s.chainRec j.part j.chain with
    | none => s
    | some c =>
      if rung ≥ 3 then
        (s.queueEsc j c).onJob k id (fun j => { j with stage := .digital, rung := 3, todo := [], inFlight := 0 })
      else
        let items := s.runItems k j rung
        s.onJob k id (fun j => { j with
          rung := rung, todo := items, inFlight := 0, accepted := 0, acceptedRange := 0, escalate := false, exhausted := false
          alarmed := [], alarmItems := [], repSuspects := [], repAlarmed := [], quant := [], resat := []
          invalid := s.runInvalid k j rung items, poison := 0, cover := [] })

/-- Begin the run of a job's present row. -/
def State.startRun (k id : Nat) (s : State) : State :=
  match (s.stk k).job? id with
  | none => s
  | some j =>
    match s.chainRec j.part j.chain with
    | none => s
    | some c =>
      let s := s.onJob k id (fun j => { j with stage := .waiting, cad1 := false, suspects := [], seenInvalid := [], sums := [], widen := 0 })
      s.startRunAt k id (s.startRung j c)

/-! ### Verdicts (R320) -/

/-- A token of a group is complete: a group that waits for it goes on (R179, R183). -/
def State.completeToken (g : GroupRef) (t : Nat) (s : State) : State :=
  s.onGrp g (fun r => { r with toks := setBits r.toks t 1 0, wait := if r.wait = .token t then .none else r.wait })

/-- A job leaves its tile sequencer. -/
def State.dropJob (k id : Nat) (s : State) : State :=
  s.onStk k (fun u => { u with jobs := u.jobs.filter (fun j => j.id != id) })

/-- Depth of a partition's verdict queue (R320). -/
def verdictDepth : Nat := 64

/-- Has an array a queued verdict or a mask, so that it gets no new verdict (R320, R335). -/
def State.judged (s : State) (p : Nat) (a : AlarmAt) : Bool :=
  (s.part p).verdicts.any (fun v => v.stack == a.stack && v.array == a.array) || AMap.getD (s.stk a.stack).masked a.array 0 != 0

/-- A TRANSIENT verdict. -/
def State.verdictTransient (p : Nat) (a : AlarmAt) (s : State) : State :=
  if s.judged p a then s
  else (s.count R.RELG.TRANSIENT_CNT (hubOfStack a.stack)).report (hubOfStack a.stack)
    (mkReport 1 (instStack a.stack) (locArray a.array a.tier) 0x08 1 (2 ^ p) a.group)

/-- A PERMANENT verdict with its cause: 1 alarm repeat, 2 verdict repeat, 3 converter failed. -/
def State.verdictPermanent (p : Nat) (a : AlarmAt) (cause : Nat) (s : State) : State :=
  if s.judged p a then s
  else
    let h := hubOfStack a.stack
    let s := (s.count R.RELG.PERM_CNT h).report h
      (mkReport 1 (instStack a.stack) (locArray a.array a.tier) 0x09 2 (2 ^ p) a.group)
    if verdictDepth ≤ (s.part p).verdicts.length then s.raise R.REL.EVT_QUEUE_FULL p
    else
      (s.onPart p (fun q => { q with verdicts := q.verdicts ++
        [{ stack := a.stack, array := a.array, tier := a.tier, group := a.group, cause := cause, step := q.stepNo }] })).raise
        R.REL.EVT_VERDICT p

/-- Judge the suspects of a job's earlier alarm by the alarms of the repeat: those repeated are PERMANENT, the others
TRANSIENT. -/
def State.judge (p cause : Nat) (suspects alarmed : List AlarmAt) (s : State) : State :=
  s.each suspects (fun a s => if alarmed.contains a then s.verdictPermanent p a cause else s.verdictTransient p a)

/-! ### Replay and escalation (R90 to R96, R133, R134) -/

/-- Sum of two column lists. -/
def addCols (a b : List Int) : List Int := (List.range dataCols).map (fun c => a.getD c 0 + b.getD c 0)

/-- Flag bit SATURATED (R136). -/
def fSaturated : Nat := 32

/-- Hold a value of S_E in its 48 bits. A KEEP preload can carry it beyond them, and the spec states no result there: a free value
(DESIGN CHOICE, log entry 101). -/
def State.hold48 (s : State) (x : Int) : Int :=
  if -140737488355328 ≤ x ∧ x < 140737488355328 then x else sx (Config.freeNat s.free % 2 ^ 48) 48

/-- Restore a pair from its start copy and put it in REPLAY; SATURATED flags stay (R133 step 5, R134). -/
def Pair.restore (q : Pair) : Pair :=
  let n := max q.flags.length q.startFlags.length
  { q with st := 3, origins := q.startOrigins, full := q.startFull, sE := q.startE, short := [], since := 0,
           flags := (List.range n).map (fun i => q.startFlags.getD i 0 ||| (q.flags.getD i 0 &&& fSaturated)) }

/-- Evaluations of a job's run leave the arrays: their rounds are discarded. -/
def State.dropFiring (k id : Nat) (s : State) : State :=
  s.onStk k (fun u => { u with firing := u.firing.filter (fun f => f.item.job != id) })

/-- Run a job's present row again at a rung, from the start copy (R133, R134). -/
def State.rerun (k id rung : Nat) (cad1 : Bool) (s : State) : State :=
  match (s.stk k).job? id with
  | none => s
  | some j =>
    let key := s.pairKey j
    let opened := j.stage == .running || j.stage == .ready
    let s := s.dropFiring k id
    let s := s.whenB opened (fun s => s.onPair k key Pair.restore)
    let s := s.onJob k id (fun j => { j with cad1 := cad1, stage := if j.stage == .ready then .running else j.stage })
    let s := s.startRunAt k id rung
    -- at the digital rung nothing more comes to the pair: it is free again (log entry 13)
    s.whenB (rung ≥ 3 && opened) (fun s => s.onPair k key (fun q => { q with st := 0 }))

/-- Is the pair of a job's present run in REPLAY, so that a further repeat goes on at cadence 1 (R149); else a repeat has its chain's own
cadence (R134). -/
def State.inReplay (s : State) (k : Nat) (j : Job) : Bool := j.stage == .running && ((s.stk k).pair (s.pairKey j)).st == 3

/-- Add one escalation of a layer to the step's record (R93). -/
def StepSt.addEsc (t : StepSt) (layer rung : Nat) : StepSt :=
  let (n, r) := t.layerEsc layer
  { t with layers := (layer, n + 1, max r rung) :: t.layers.filter (fun x => x.1 != layer) }

/-- Counter of escalations to a rung (R97). -/
def escCounter (rung : Nat) : Field :=
  if rung = 1 then R.DCP.ESC_RUNG1_CNT else if rung = 2 then R.DCP.ESC_RUNG2_CNT else R.DCP.ESC_RUNG3_CNT

/-- Do something with every ACALL of a partition whose present row is not read out, on all its stacks. -/
def State.eachOpen (p : Nat) (f : Nat → Job → ChainRec → State → State) (s : State) : State :=
  s.each (s.stacksOf p) (fun k s =>
    s.each ((s.stk k).jobs.map (·.id)) (fun id s =>
      match (s.stk k).job? id with
      | none => s
      | some o => match s.chainRec o.part o.chain with
        | some c => s.whenB (o.part == p && decide (o.cur < o.n)) (f k o c)
        | none => s))

/-- Layer mode of R93: every chain of the layer that has not been read out for the row runs for it at least at the new rung: an open or
READY chain repeats, one that waits or comes later starts there. A chain that ends in the window is read out when its pair is READY.
Chains raised so are no escalations of R97 and R296, and do not count for LAYER_THRESH (DESIGN CHOICE, log entry 100). -/
def State.raiseLayer (j : Job) (layer rung : Nat) (s : State) : State :=
  let s := s.onStep j.part (fun t => { t with raised := (layer, j.tensor, j.row, rung) :: t.raised })
  s.eachOpen j.part (fun k o c s =>
    let rg := s.capRung o.part c rung
    s.whenB (c.layer == layer && o.tensor == j.tensor && o.row == j.row && decide (o.rung < rg) &&
        (o.stage == .running || o.stage == .waiting || (o.stage == .ready && !c.flags.testBit 1)))
      (fun s => s.rerun k o.id rg (s.inReplay k o)))

/-- Once LAYER_THRESH is reached, the chains of the layer that have not begun start at the layer's highest rung (R93). -/
def State.raiseWaiting (p layer : Nat) (s : State) : State :=
  s.eachOpen p (fun k o c s =>
    let rg := s.capRung p c (s.layerRung p c)
    s.whenB (c.layer == layer && o.unarmed && decide (o.rung < rg)) (fun s => s.startRunAt k o.id rg))

/-- The verdict repeat of an evaluation that alarmed: the same evaluation, from its arm phase, judged alone. -/
def EvalItem.verdictRepeat (it : EvalItem) : EvalItem :=
  { job := it.job, desc := it.desc, mode := it.mode, range := it.range, verdict := true, ord := it.ord + 2 ^ 16 }

/-- Verdict repeats of the evaluations of a run that alarmed, one for each, behind the run's other evaluations, with their groups `alarms`
(R320). The repeats of a run count once as a timing-dependent choice. -/
def State.addRepeats (k id : Nat) (alarms : List AlarmAt) (s : State) : State :=
  match (s.stk k).job? id with
  | none => s
  | some j =>
    let s := s.whenB (!alarms.isEmpty && j.repSuspects.isEmpty) (fun s => s.nonDet j.part R.GLB.ND_ESCALATE)
    s.onJob k id (fun j => { j with
      repSuspects := (j.repSuspects ++ alarms).eraseDups, alarmItems := []
      todo := j.alarmItems.foldl (fun l it => placeItem it.verdictRepeat l) j.todo })

/-- Do all evaluations of a job's run that name an array-tier have their codes accepted. -/
def State.ranOn (s : State) (k : Nat) (j : Job) (a : AlarmAt) : Bool :=
  let on (it : EvalItem) : Bool := dArray it.desc == a.array && dTier it.desc == a.tier
  !j.todo.any on && !(s.stk k).firing.any (fun f => f.item.job == j.id && on f.item)

/-- The ladder is exhausted: the result of the last rung stands, marked, and the groups that alarmed get a verdict repeat (R92, R320). -/
def State.exhaust (k : Nat) (j : Job) (s : State) : State :=
  let s := s.flagCount R.DCP.EVT_ESC_EXHAUSTED R.DCP.ESC_EXHAUST_CNT (hubOfStack k)
  let s := s.onJob k j.id (fun j => { j with exhausted := true, escalate := false })
  s.addRepeats k j.id j.alarmed

/-- A chain escalates (R89, R90) or has come to the end of its ladder (R92). The suspects of the rung before that this run has repeated are
judged; those that it has not yet repeated stay suspects: of the next rung's run, or of this one where the ladder ends (R320). -/
def State.escalate (k id : Nat) (s : State) : State :=
  match (s.stk k).job? id with
  | none => s
  | some j =>
    match s.chainRec j.part j.chain with
    | none => s
    | some c =>
      let h := hubOfStack k
      let next := j.rung + 1
      -- verdicts on the groups that this run repeated
      let ran (a : AlarmAt) : Bool := j.alarmed.contains a || s.ranOn k j a
      let s := s.judge j.part 1 (j.suspects.filter ran) j.alarmed
      let left := j.suspects.filter (fun a => !ran a)
      let s := s.onJob k id (fun j => { j with suspects := left })
      if s.rd R.DCP.ESC_CTL_TOP_RUNG h < next || (next = 3 && !s.digitalAvail j.part c) then s.exhaust k j
      else
        let s := (s.count (escCounter next) h).nonDet j.part R.GLB.ND_ESCALATE
        let s := s.onStep j.part (fun t => t.addEsc c.layer next)
        let q := (s.stk k).pair (s.pairKey j)
        let s := s.whenB (next == 3 && j.todo.isEmpty && j.inFlight == 0) (fun s =>
          s.onJob k id (fun o => { o with sums := addCols q.full q.short, sE := q.sE }))
        let s := s.rerun k id next (s.inReplay k j)
        let s := s.onJob k id (fun o => { o with suspects := left ++ j.alarmed })
        -- rung 3 produces no analogue code: nothing repeats the alarm there
        let s := s.whenB (next = 3) (fun s => (s.judge j.part 1 (left ++ j.alarmed) []).onJob k id (fun o => { o with suspects := [] }))
        let s := s.whenB (s.is R.DCP.ESC_CTL_LAYER_MODE h) (fun s => s.raiseLayer j c.layer next)
        s.raiseWaiting j.part c.layer

/-! ### Accepting passes (R108, R113 to R116, R127 to R133) -/

/-- Column c of a column list. -/
def colAt (l : List Int) (c : Nat) : Int := l.getD c 0

/-- Flag byte c of a flag list. -/
def flagAt (l : List Nat) (c : Nat) : Nat := l.getD c 0

/-- Set flag bits on columns. -/
def setFlags (l : List Nat) (f : Nat → Nat) : List Nat := (List.range dataCols).map (fun c => flagAt l c ||| f c)

/-- Drift-corrected code (R108): record word of R125. -/
def correct (rec : Nat) (c : Int) : Int :=
  clampI (-1024) 1023 (rneDiv ((256 * c - sx (bits rec 16 16) 16) * (bits rec 0 16 : Nat)) (2 ^ 23))

/-- A drift record at unity (R107). -/
def driftUnity : Nat := 0x8000

/-- Pass weight (R127). -/
def passWeight (md : AMode) (range : Bool) : Int :=
  (if md = .a8h then 16 else 1) * (if range then 16 else 1)

/-- Widening w of R86 for a tile in 1/32 LSB: 0.5 × (ΔT − 4) with ΔT in 1/16 °C. -/
def StackSt.widening (u : StackSt) (tile : Nat) : Nat :=
  let d := ((AMap.getD u.sens tile {}).eff - AMap.getD u.tcal tile 0).natAbs
  d - 64

/-- Smallest integer whose square is at least n. -/
def ceilSqrt (n : Nat) : Nat := let r := Nat.sqrt n; if r * r = n then r else r + 1

/-- Tolerance T of R114 in 1/16 LSB-equivalent, rounded up; `w` in 1/32 LSB. -/
def ckTolerance (tol res w e2 m : Nat) : Nat :=
  let a2 := 8 * tol + w
  let y := cdiv (ceilSqrt (4 * (res * res * e2))) (2 ^ m)
  cdiv (a2 + y) 2

/-- Outcome of one checksum group. -/
inductive CkResult
  | skip | ok | alarm
  deriving DecidableEq, Repr

/-- Check group j of a pass (R114, R115). -/
def State.ckGroup (s : State) (k phys tile m : Nat) (ents : List (Nat × Nat)) (maskedArr : Bool) (r : PassRes) (j : Nat) :
    CkResult :=
  let u := s.stk k
  let h := hubOfStack k
  let cols := (List.range 128).map (fun i => placedCol ents (128 * j + i))
  let ck := 2064 + j
  let lim (x : Int) := x == 511 || x == -512
  let codes := cols.map (colAt r.codes)
  if !s.is R.DCP.CK_CTL_CK_EN h || maskedArr || u.convFailed phys (ck / 8) ||
     cols.any (fun c => u.convFailed phys (c / 8)) || lim (colAt r.codes ck) || codes.any lim then .skip
  else
    let d := (128 * colAt r.codes ck - codes.foldl (· + ·) 0).natAbs
    let w := if s.is R.DCP.CK_CTL_CK_WIDEN h then u.widening tile else 0
    let t := ckTolerance (s.rd R.DCP.CK_CTL_CK_TOL h) (s.rd R.DCP.CK_CTL_CK_RES h) w r.e2 m
    if 128 * t < 16 * d then .alarm else .ok

/-- Drift statistics with one qualifying evaluation added (R109). -/
def DriftStat.add (d : DriftStat) (m : Nat) (r : PassRes) : DriftStat :=
  let y (l : Nat) : Int := (List.range 4).foldl (fun a i => a + colAt r.codes (2048 + 4 * l + i)) 0
  let z : Int := r.eNet * (2 ^ (15 - m) : Nat)
  { n := d.n + 1
    szy := d.szy + z * (-3 * y 0 - y 1 + y 2 + 3 * y 3)
    szz := d.szz + z * z
    sz := d.sz + z
    sy := d.sy + (y 0 + y 1 + y 2 + y 3) }

/-- Promote a pair (R131, R132): new pair and columns limited. -/
def Pair.promote (q : Pair) : Pair × Nat :=
  let sums := (List.range dataCols).map (fun c => colAt q.full c + colAt q.short c)
  let lim (x : Int) := decide (x < -2147483648) || decide (2147483647 < x)
  ({ q with full := sums.map (clampI (-2147483648) 2147483647), short := [], since := 0,
            flags := if sums.any lim then setFlags q.flags (fun c => if lim (colAt sums c) then 64 else 0) else q.flags },
   (sums.filter lim).length)

/-- Promotion on a stack, with its counters. -/
def State.promote (k key : Nat) (s : State) : State :=
  let h := hubOfStack k
  let (q, n) := ((s.stk k).pair key).promote
  let s := (s.onPair k key (fun _ => q)).count R.ACU.PROMO_CNT h
  s.whenB (n != 0) (fun s => (s.bump R.ACU.WIDE_LIMIT_CNT h n).raise R.ACU.EVT_WIDE_LIMIT h)

/-- Cadence of a chain (R129); 1 in a replay (R133). -/
def State.cadence (s : State) (k : Nat) (j : Job) (c : ChainRec) : Nat :=
  if j.cad1 then 1 else if c.cadence = 0 then s.rd R.ACU.PROMO_CADENCE (hubOfStack k) else c.cadence

/-- Take the present widening of the chains' tiles into the largest that each chain has met (R300). What counts is the time from a chain's
first arm phase to the promotion that completes it, repeats of its row included (DEDUCED, log entry 131). -/
def State.noteWiden (k : Nat) (s : State) : State :=
  s.onStk k (fun u => { u with jobs := u.jobs.map (fun j =>
    if j.stage == .running || !j.unarmed && j.stage == .waiting then { j with widen := max j.widen (u.widening (s.pairKey j / 16)) } else j) })

/-- Open a chain at its first accepted evaluation (R129). -/
def State.openChain (k : Nat) (j : Job) (c : ChainRec) (s : State) : State :=
  let key := s.pairKey j
  let keep := c.flags.testBit 0
  let s := s.onPair k key (fun q =>
    let q : Pair := if keep then q else { q with full := [], sE := 0, flags := [], origins := 0 }
    { q with st := 1, job := j.id, short := [], since := 0, startFull := q.full, startE := q.sE, startFlags := q.flags
             startOrigins := q.origins })
  s.onJob k j.id (fun j => { j with stage := .running })

/-- Saturation of a short slot: replay at cadence 1 (R133). -/
def State.saturate (k : Nat) (j : Job) (cols : Nat → Bool) (s : State) : State :=
  let h := hubOfStack k
  let key := s.pairKey j
  let s := (s.flagCount R.ACU.EVT_SLOT_SAT R.ACU.SAT_CNT h).nonDet j.part R.GLB.ND_SLOT_SAT
  let s := s.onPair k key (fun q => { q with flags := setFlags q.flags (fun c => if cols c then fSaturated else 0) })
  (s.rerun k j.id j.rung true).count R.ACU.REPLAY_CNT h

/-- Add one pass to a job's slot pair. Answers the state and whether the slot saturated. A pass that fires nothing adds nothing and is no
accepted pass of the cadence (R127; DESIGN CHOICE, log entry 102). -/
def State.addPass (k : Nat) (j : Job) (c : ChainRec) (it : EvalItem) (phys : Nat) (clipped : Bool) (r : PassRes)
    (s : State) : State × Bool :=
  if !r.fired then (s, false)
  else
    let u := s.stk k
    let key := s.pairKey j
    let ents := colEntries u.colMap phys
    let isMasked := AMap.getD u.masked (dArray it.desc) 0 != 0
    let rec_ := AMap.getD u.drift (16 * phys + dTier it.desc) u.driftBase
    let w := passWeight it.mode it.range
    let q := u.pair key
    let raw := (List.range dataCols).map (fun i => colAt r.codes (placedCol ents i))
    let add (i : Nat) : Int :=
      if isMasked then 0 else w * correct rec_ (colAt raw i)
    let sums := (List.range dataCols).map (fun i => colAt q.short i + add i)
    let past (x : Int) := decide (x < -524288) || decide (524287 < x)
    let flag (i : Nat) : Nat :=
      (if clipped && (colAt raw i == 511 || colAt raw i == -512) then 1 else 0) |||
      (if u.convFailed phys (placedCol ents i / 8) then 1 else 0) ||| (if isMasked then 4 else 0) ||| (if j.invalid then 2 else 0)
    let s := s.onPair k key (fun q => { q with
      short := sums.map (clampI (-524288) 524287), sE := s.hold48 (q.sE + w * r.eNet), since := q.since + 1
      flags := setFlags q.flags flag })
    let s : State := { s with free := s.free + 1 }
    if sums.any past then (s.saturate k j (fun i => past (colAt sums i)), true)
    else
      let s := s.whenB ((s.cadence k j c) ≤ ((s.stk k).pair key).since) (fun s => s.promote k key)
      (s, false)

/-- Exact charge of a masked array for one pass, by column: w × Σ e_i × L_i,c from the cover levels (R324). -/
def coverCharge (wmode : Nat) (vals : List Byte) (edges : List Int) (w : Int) : List Int :=
  (List.range dataCols).map (fun c =>
    w * ((List.range 2048).zip edges).foldl (fun a x =>
      a + x.2 * levelOf wmode (sx (unpackElem 4 vals (2048 * x.1 + c)) 4)) 0)

/-- The cover of a masked array-tier: the slot number and WMODE with the packed values (R321, R324). -/
def State.coverTier (s : State) (k : Nat) (j : Job) (it : EvalItem) : Option (Nat × Nat × List Byte) :=
  if AMap.getD (s.stk k).masked (dArray it.desc) 0 = 0 then none
  else
    match (s.part j.part).covers.find? (fun e => e.2.stack == k && e.2.array == dArray it.desc) with
    | none => none
    | some e => (e.2.tiers.find? (fun t => t.1 == dTier it.desc)).map (fun t => (e.1, t.2))

/-- Add the cover charge of an accepted pass of a masked array (R324). -/
def State.coverPass (k : Nat) (j : Job) (it : EvalItem) (r : PassRes) (s : State) : State :=
  match s.coverTier k j it with
  | some t =>
    s.whenB r.fired (fun s => s.onJob k j.id (fun j =>
      { j with cover := addCols j.cover (coverCharge t.2.1 t.2.2 r.edges (passWeight it.mode it.range)) }))
  | none => s

/-- Count the MACs of a masked evaluation, 4,194,304 whatever its passes, and take the poison of the cover slot that it reads (R316,
R324). -/
def State.coverEval (k : Nat) (j : Job) (it : EvalItem) (s : State) : State :=
  match s.coverTier k j it with
  | some t =>
    let o := if s.mbad (s.coverAddr j.part t.1 + 0x200000 * dTier it.desc) 0x200000 then oShared else 0
    s.whenB (it.got.any (·.fired)) (fun s =>
      (s.bump R.REL.COVER_MACS j.part 4194304).onJob k j.id (fun j => { j with poison := j.poison ||| o }))
  | none => s

/-- Is a physical column's code a limit code that counts: data columns in place, reference and checksum columns of
converters that have not failed (R37, R39, R61). -/
def State.limitCode (s : State) (k phys : Nat) (r : PassRes) : Bool :=
  let u := s.stk k
  let ents := colEntries u.colMap phys
  let cols := (List.range dataCols).map (placedCol ents) ++ (List.range 32).map (2048 + ·)
  cols.any (fun c => !u.convFailed phys (c / 8) && (colAt r.codes c == 511 || colAt r.codes c == -512))

/-- Checksum checks of one pass: counters, and the alarmed groups (R114 to R116). Where a substitute in another tile runs the evaluation,
w is taken from the home tile, the chain's tile of R300 (DESIGN CHOICE, log entry 103). -/
def State.checkPass (k : Nat) (it : EvalItem) (phys : Nat) (r : PassRes) (s : State) : State × List AlarmAt :=
  if !r.fired then (s, [])
  else
    let u := s.stk k
    let h := hubOfStack k
    let ents := colEntries u.colMap phys
    let isMasked := AMap.getD u.masked (dArray it.desc) 0 != 0
    let rs := (List.range 16).map (fun j => (j, s.ckGroup k phys (homeTile (dArray it.desc)) (dFsExp it.desc) ents isMasked r j))
    let alarms := rs.filter (fun x => x.2 == .alarm)
    let s := s.bump R.DCP.CK_SKIP_CNT h (rs.filter (fun x => x.2 == .skip)).length
    let s := s.bump R.DCP.CK_CHECK_CNT h (rs.filter (fun x => x.2 != .skip)).length
    let s := s.whenB (!alarms.isEmpty) (fun s => (s.bump R.DCP.CK_ALARM_CNT h alarms.length).raise R.DCP.EVT_CK_ALARM h)
    (s, alarms.map (fun x => { stack := k, array := dArray it.desc, tier := dTier it.desc, group := x.1 }))

/-- Gather drift statistics of an accepted pass (R109): each pass of an evaluation in several passes counts in n and in the sums by
itself (DESIGN CHOICE, log entry 104). -/
def State.gatherDrift (k : Nat) (it : EvalItem) (phys : Nat) (r : PassRes) (s : State) : State :=
  let u := s.stk k
  let m := dFsExp it.desc
  let zmin := s.rd R.DCP.DRIFT_CTL_DRIFT_ZMIN (hubOfStack k)
  if u.convFailed phys 256 || u.convFailed phys 257 || AMap.getD u.masked (dArray it.desc) 0 != 0 ||
     decide (r.eNet.natAbs < zmin * 2 ^ m) then s
  else s.onStk k (fun u => { u with stat := AMap.modify u.stat (16 * phys + dTier it.desc) {} (fun d => d.add m r) })

/-- The last pass of a run is in: final promotion, verdicts on the suspects, READY (R130, R131, R320). With nothing added since the last
promotion the final one is not made (DESIGN CHOICE, log entry 102). -/
def State.finishRun (k id : Nat) (s : State) : State :=
  match (s.stk k).job? id with
  | none => s
  | some j =>
    if j.stage != .running || !j.todo.isEmpty || j.inFlight != 0 then s
    else
      let key := s.pairKey j
      let s := s.whenB (((s.stk k).pair key).since != 0) (fun s => s.promote k key)
      let s := (s.judge j.part 1 j.suspects j.alarmed).judge j.part 2 j.repSuspects j.repAlarmed
      -- marks of the whole result: INVALID (R79), POISON (R316), ESC_EXHAUSTED (R92)
      let mark := (if j.invalid then 2 else 0) ||| (if j.poison != 0 then 8 else 0) ||| (if j.exhausted then 16 else 0)
      let s := s.whenB (mark != 0) (fun s => s.onPair k key (fun q => { q with flags := setFlags q.flags (fun _ => mark) }))
      let s := s.onPair k key (fun q => { q with st := 2, origins := q.origins ||| j.poison })
      let s := s.onJob k id (fun j => { j with stage := .ready, suspects := [], alarmed := [], repSuspects := [], repAlarmed := [] })
      -- a chain that ends in the window completes its ACALL when the last run's pair is READY (R206)
      match s.chainRec j.part j.chain with
      | some c => s.whenB (c.flags.testBit 1 && decide (j.n ≤ j.cur + 1)) (fun s => s.completeToken j.src j.tok)
      | none => s

/-- Does an evaluation count for the pass pairs of R300: an A8 slice (DESIGN CHOICE where it fires nothing or fires in several passes: log
entry 105). -/
def EvalItem.slice (it : EvalItem) : Nat := if it.mode = .a8h ∨ it.mode = .a8l then 1 else 0

/-- Accept a whole evaluation: its passes are added, checked and judged (R109, R114 to R116, R127 to R134). `phys` is the
array that ran it. -/
def State.accept (k id : Nat) (it : EvalItem) (phys : Nat) (s : State) : State :=
  match (s.stk k).job? id with
  | none => s
  | some j0 =>
    match s.chainRec j0.part j0.chain with
    | none => s
    | some c =>
      let chk := it.got.foldl (fun (a : State × List AlarmAt) r =>
        let (s', al) := a.1.checkPass k it phys r
        (s', a.2 ++ al)) (s, [])
      let (s, alarms) := chk
      let clipped := it.passes == 4 && it.got.any (fun r => s.limitCode k phys r)
      -- a masked array raises no alarm (R335)
      let maskedArr := AMap.getD (s.stk k).masked (dArray it.desc) 0 != 0
      let s := s.whenB clipped (fun s => s.raise R.AFD.EVT_GUARD_LIMIT k)
      let s := s.each it.got (fun r s => s.gatherDrift k it phys r)
      if it.verdict then
        -- judged, not accumulated (R320)
        (s.onJob k id (fun j => { j with repAlarmed := j.repAlarmed ++ alarms })).finishRun k id
      else
        let s := (s.whenB (j0.stage == .waiting) (fun s => s.openChain k j0 c)).noteWiden k
        let s := s.coverEval k j0 it
        let added := it.got.foldl (fun (a : State × Bool) r =>
          if a.2 then a
          else
            let j := ((a.1.stk k).job? id).getD j0
            (a.1.coverPass k j it r).addPass k j c it phys clipped r) (s, false)
        let (s, sat) := added
        if sat then s
        else
          let s := s.onJob k id (fun j => { j with
            accepted := j.accepted + (if it.range then 0 else it.slice), acceptedRange := j.acceptedRange + (if it.range then it.slice else 0)
            alarmed := j.alarmed ++ alarms, alarmItems := if alarms.isEmpty then j.alarmItems else j.alarmItems ++ [it]
            escalate := j.escalate || !alarms.isEmpty || (clipped && !maskedArr) })
          let j := ((s.stk k).job? id).getD j0
          let s :=
            if j.exhausted then s.addRepeats k id alarms
            else if !j.escalate || j.invalid then s
            else if s.chainBad j.part c then
              -- no escalation on poisoned weights or correction data: their repair starts (R96)
              (s.each ((s.chainData j.part c).filter s.blkBad) (fun b s => s.startRepair j.part b)).onJob k id
                (fun j => { j with escalate := false })
            else s.escalate k id
          s.finishRun k id

/-! ### Commands of the tile sequencer -/

/-- Poison origins of a driven row block (R184, R316). -/
def State.drivePoison (s : State) (j : Job) (rb : Nat) : Nat :=
  match s.tensorRec j.part j.tensor with
  | some t => s.tensorOrigins j.part t j.row (2048 * rb) 2048
  | none => 0

/-- Counters of the blocks that an evaluation drives (R78, R79, R97, R104): a row block's invalid blocks count once for the row, its
newly quantized ones once for the run, when it first reads the row block, its range blocks that saturate again once for the run
(DESIGN CHOICE for replays and escalations, which quantize again: log entry 106). -/
def State.countBlocks (k : Nat) (j : Job) (it : EvalItem) (dr : Driven) (rb : Nat) (s : State) : State :=
  let h := hubOfStack k
  let s := s.whenB (dr.invalid != 0 && !j.seenInvalid.contains rb) (fun s =>
    ((s.bump R.DCP.INVALID_BLOCK_CNT h dr.invalid).raise R.DCP.EVT_INVALID_BLOCK h).onJob k j.id
      (fun j => { j with invalid := true, seenInvalid := rb :: j.seenInvalid }))
  let s := s.whenB (!it.range && !j.quant.contains rb) (fun s =>
    let s := match s.tensorRec j.part j.tensor with
      | some t => s.touchRow t j.row (2048 * rb) 2048
      | none => s
    ((s.bump R.DCP.SAT_BLOCK_CNT h dr.nSat).bump R.DCP.ZERO_BLOCK_CNT h dr.nZero).onJob k j.id
      (fun j => { j with quant := rb :: j.quant }))
  s.whenB (it.range && dr.resat != 0) (fun s => s.onJob k j.id (fun j => { j with escalate := true }) |>.whenB (!j.resat.contains rb) (fun s =>
    ((s.bump R.DCP.RANGE_RESAT_CNT h dr.resat).raise R.DCP.EVT_RANGE_RESAT h).onJob k j.id (fun j => { j with resat := rb :: j.resat })))

/-- Arm one evaluation: guard decision, sign fallback, counters of its input blocks (R35, R36, R38, R48). -/
def State.armItem (k : Nat) (j : Job) (it : EvalItem) (dr : Driven) (rb : Nat) (s : State) : State :=
  let h := hubOfStack k
  let u := s.stk k
  let m := dFsExp it.desc
  let phys := u.physOf (dArray it.desc)
  let s := s.onJob k j.id (fun j => j.dropItem it)
  let s := s.countBlocks k j it dr rb
  let s := s.whenB (s.drivePoison j rb != 0) (fun s => s.onJob k j.id (fun i => { i with poison := i.poison ||| s.drivePoison j rb }))
  let s := s.whenB (it.passes == 0 && it.range) (fun s => s.count R.DCP.RANGE_PASS_CNT h)
  let (ep, en) := bankSums dr.edges 0 2048
  if ep = 0 ∧ en = 0 then
    -- nothing fires: code 0 everywhere, no conversion, no place (R35)
    s.accept k j.id { it with passes := 1, got := [{ fired := false, codes := [], eNet := 0, e2 := 0, edges := [] }] } phys
  else
    let neg := dUnsigned it.desc && en != 0
    let s := s.whenB (neg && it.passes == 0) (fun s => s.flagCount R.AFD.EVT_SIGN_FALLBACK R.AFD.SIGN_FALLBACK_CNT k)
    let (n, lim) := if it.passes = 0 then guardPasses (s.rd R.AFD.GUARD_GUARD_CODE k) m dr.edges else (it.passes, false)
    let s := s.whenB lim (fun s => s.raise R.AFD.EVT_GUARD_LIMIT k)
    let s := s.whenB (it.passes == 0 && decide (1 < n)) (fun s => s.count R.AFD.SPLIT_CNT k)
    let it' : EvalItem := { it with passes := n, vec := some dr.edges }
    let f : Firing := { item := it', tile := phys / 64, home := homeTile (dArray it.desc), phys := phys, tier := dTier it.desc
                        lane := dLane it.desc, row := j.row, rowblk := rb, signed := !dUnsigned it.desc || neg
                        edges := bankEdges dr.edges n it.pass }
    ((s.onStk k (fun u => { u with firing := u.firing ++ [f] })).onJob k j.id (fun j => { j with inFlight := j.inFlight + 1 })).noteWiden k

/-- The first of the waiting evaluations `l` that may arm; those in `before` precede it and wait. -/
def State.firstArm (s : State) (k : Nat) : List (Job × EvalItem) → List (Job × EvalItem) → Option (Job × EvalItem × Driven × Nat)
  | _, [] => none
  | before, x :: l =>
    if !s.itemReady k x.1 x.2 then s.firstArm k before l
    else
      let (dr, rb) := s.driveOf k x.1 x.2
      if s.canArm k x.1 x.2 rb (dr.edges.any (· != 0)) && !before.any (fun y => s.contend k y x) then some (x.1, x.2, dr, rb)
      else s.firstArm k (x :: before) l

/-- The next evaluation of a stack to arm: the first in step-program order that may, none passing an earlier one that waits for the same
array or lane (R19, R28, R52; log entry 107): its job, item, drive and row block. -/
def State.nextArm (s : State) (k : Nat) : Option (Job × EvalItem × Driven × Nat) := s.firstArm k [] (s.stk k).waitingItems

/-- The first of the waiting evaluations `l` whose array is free and biased on another tier, with no earlier one, in `before`, for that
array. -/
def State.firstRebias (s : State) (k : Nat) : List Nat → List (Job × EvalItem) → Option (Nat × Nat)
  | _, [] => none
  | before, x :: l =>
    let u := s.stk k
    let phys := u.physOf (dArray x.2.desc)
    if !s.itemReady k x.1 x.2 || before.contains phys then s.firstRebias k before l
    else if u.evaluating.all (fun f => f.phys != phys) && AMap.getD u.bias phys 0 != dTier x.2.desc + 1 then some (phys, dTier x.2.desc)
    else s.firstRebias k (phys :: before) l

/-- The next re-bias of a stack, in step-program order (R28, R29): array and tier. -/
def State.nextRebias (s : State) (k : Nat) : Option (Nat × Nat) :=
  if !(s.stk k).stopArm && s.en .afd k then s.firstRebias k [] (s.stk k).waitingItems else none

/-- TIER_REBIAS: an array's selectors go to the tier that its next evaluation names (R29, R30). -/
def execTierRebias (stack : Fin 12) (s : State) : Host.Outcome State Fault Refusal :=
  match s.nextRebias stack.val with
  | some (phys, tier) =>
    .next ((s.onStk stack.val (fun u => { u with bias := AMap.put u.bias phys (tier + 1) 0 })).count
      R.AFD.TIER_SWITCH_CNT stack.val)
  | none => .next s

/-- Evaluations in flight or waiting that are later passes of the same evaluation. -/
def EvalItem.follows (it x : EvalItem) : Bool := x.job == it.job && x.ord == it.ord && decide (it.pass < x.pass)

/-- Take the later passes of an evaluation back: it goes again from the pass that failed. -/
def State.dropLater (k : Nat) (it : EvalItem) (s : State) : State :=
  let n := ((s.stk k).firing.filter (fun f => it.follows f.item)).length
  (s.onStk k (fun u => { u with firing := u.firing.filter (fun f => !it.follows f.item) })).onJob k it.job (fun j =>
    { j with todo := j.todo.filter (fun x => !it.follows x), inFlight := j.inFlight - n })

/-- Give an evaluation's later passes the codes of one of its passes. -/
def State.passDone (k : Nat) (it : EvalItem) (r : PassRes) (s : State) : State :=
  let add (x : EvalItem) : EvalItem := if it.follows x then { x with got := x.got ++ [r] } else x
  (s.onStk k (fun u => { u with firing := u.firing.map (fun f => { f with item := add f.item }) })).onJob k it.job
    (fun j => { j with todo := j.todo.map add })

/-- SAMPLE_AND_HOLD: all columns of the array sample, and those of an array that shares its input vector (R53, R54); the
evaluation interval ends. The next pass of an evaluation in several passes waits from now on in the evaluation's place (R19, R38). -/
def execSampleAndHold (stack : Fin 12) (array : Nat) (s : State) : Host.Outcome State Fault Refusal :=
  let k := stack.val
  match (s.stk k).evaluating.find? (fun f => f.phys == array) with
  | none => .next s
  | some g =>
    let hit (f : Firing) : Bool := !f.held && f.tile == g.tile && (f.phys == g.phys || sameVector f g.item g.row g.rowblk)
    let more := ((s.stk k).firing.filter (fun f => hit f && decide (f.item.pass + 1 < f.item.passes))).map (·.item)
    let s := s.onStk k (fun u => { u with firing := u.firing.map (fun f => if hit f then { f with held := true } else f) })
    .next (s.each more (fun it s => s.onJob k it.job (fun j => j.putItem { it with pass := it.pass + 1 })))

/-- The codes of a round as the converters return them (R37, R44, R61): the rounded charge with what the analogue circuits deviate from
it, in ten bits; 0 for a failed converter and for a spare column that is not fired. -/
def State.roundCodes (s : State) (k phys tier m : Nat) (edges devs : List Int) : List Int :=
  let u := s.stk k
  let ents := colEntries u.colMap phys
  (List.range physCols).map (fun c =>
    if u.convFailed phys (c / 8) || (decide (2080 ≤ c) && !ents.any (fun e => e.2 == c - 2080)) then 0
    else clampI (-512) 511 (rneDiv (s.charge k phys tier edges c) (2 ^ m) + colAt devs c))

/-- Σ e² of edges. -/
def sumSq (e : List Int) : Nat := e.foldl (fun a x => a + x.natAbs * x.natAbs) 0

/-- CONVERSION_ROUND_END: the oldest held charge of the array has been converted (R37 to R40, R127). `devs` says by how much each
column's code deviates from the exact charge, in LSB (R85; log entry 10). -/
def execConversionRoundEnd (stack : Fin 12) (array : Nat) (devs : List Int) (s : State) :
    Host.Outcome State Fault Refusal :=
  let k := stack.val
  let u := s.stk k
  match u.firing.find? (fun f => f.phys == array && f.held) with
  | none => .next s
  | some f =>
    let s := s.onStk k (fun u => { u with firing := u.firing.erase f })
    let s := s.onJob k f.item.job (fun j => { j with inFlight := j.inFlight - 1 })
    let (ep, en) := bankSums f.edges 0 2048
    let r : PassRes := { fired := ep != 0 || en != 0, codes := s.roundCodes k f.phys f.tier (dFsExp f.item.desc) f.edges devs, eNet := (ep : Int) - en,
                         e2 := sumSq f.edges, edges := f.edges }
    let it : EvalItem := { f.item with got := f.item.got ++ [r] }
    if s.limitCode k f.phys r && decide (it.passes < 4) then
      -- the codes are discarded and the evaluation runs in more passes (R39)
      let s := s.flagCount R.AFD.EVT_READ_SPLIT R.AFD.READ_SPLIT_CNT k
      let s := match (u.job? f.item.job) with | some j => s.nonDet j.part R.GLB.ND_READ_SPLIT | none => s
      .next ((s.dropLater k it).onJob k it.job (fun j => j.putItem { it with passes := 2 * it.passes, pass := 0, got := [] }))
    else if it.pass + 1 < it.passes then .next (s.passDone k it r)
    else .next (s.accept k f.item.job it f.phys)

/-- Discard a held round and repeat the evaluation from its arm phase, with the inputs that the row drivers hold (R57): an evaluation in
several passes from the pass whose round it was (log entry 107). -/
def State.abortRepeat (k : Nat) (f : Firing) (s : State) : State :=
  let s := (s.onStk k (fun u => { u with firing := u.firing.erase f })).dropLater k f.item
  (s.onJob k f.item.job (fun j => { j.putItem f.item with inFlight := j.inFlight - 1 })).count R.CNV.ABORT_REPEAT_CNT k

/-- Accumulated delay of one converter's round (R56). -/
def Firing.delayOf (f : Firing) (conv : Nat) : Nat := (AMap.get? f.delays conv).getD f.delay

/-- Largest accumulated delay of a round's converters. -/
def Firing.worst (f : Firing) : Nat := f.delays.foldl (fun m e => max m e.2) f.delay

/-- Change one firing of a stack. -/
def StackSt.onFiring (u : StackSt) (f g : Firing) : StackSt := { u with firing := u.firing.map (fun x => if x = f then g else x) }

/-- PRIORITY_READ: a reference or checksum column is converted ahead of slot order (R55 to R57); it concerns only the converter of that
column. `slot` is the running slot and `ran` the hc it has run. -/
def execPriorityRead (stack : Fin 12) (array column : Nat) (slot : Fin 8) (ran : Fin 28) (s : State) :
    Host.Outcome State Fault Refusal :=
  let k := stack.val
  if column < 2048 ∨ 2080 ≤ column then .next s
  else
    match (s.stk k).firing.find? (fun f => f.phys == array && f.held) with
    | none => .next s
    | some f =>
      if column % 8 < slot.val || f.early.contains column then .next s
      else if 56 < f.delayOf (column / 8) + ran.val then .next (s.abortRepeat k f)
      else
        .next (s.onStk k (fun u => u.onFiring f
          { f with delays := AMap.set f.delays (column / 8) (f.delayOf (column / 8) + ran.val), early := column :: f.early }))

/-- Rounds that run on a stack: of each array the oldest held charge (R50). -/
def StackSt.rounds (u : StackSt) : List Firing :=
  u.firing.filter (fun f => f.held && (u.firing.find? (fun g => g.phys == f.phys && g.held)) == some f)

/-- A round with every converter's slot stopped by a thermal action: 14 ns for the re-bias beyond what its slot had run (R55, R56). How
far the slots had run at that moment is open: a free value below 28 hc for each round, and for each converter that a priority read has
put out of step with the others. -/
def Firing.stopped (d : Nat) (f : Firing) : Firing :=
  let ran (c : Nat) : Nat := Config.freeAt d (265 * f.phys + c) % 28
  { f with delay := f.delay + ran 264 + 28, delays := f.delays.map (fun e => (e.1, e.2 + ran e.1 + 28)) }

/-- A thermal action stops the slots of every converter of a stack (R55 to R57); `d` is the draw of what they had run. A round past two
slots is repeated, a disturbance (R297). -/
def State.thermalUrgent (k d : Nat) (s : State) : State :=
  let p? := s.ownerOf k
  let s := s.each (s.stk k).rounds (fun f s =>
    let g := f.stopped d
    if 56 < g.worst then
      let s := s.abortRepeat k f
      match p? with | some p => s.disturb p | none => s
    else s.onStk k (fun u => u.onFiring f g))
  s.onStk k (fun u => { u with reduced := true })

/-- The next row of a job, or its end: called when its slot pair is free again. -/
def State.nextRow (k id : Nat) (s : State) : State :=
  match (s.stk k).job? id with
  | none => s
  | some j =>
    let s := s.onJob k id (fun j => { j with cur := j.cur + 1 })
    if j.cur + 1 < j.n then s.startRun k id
    else
      let window := match s.chainRec j.part j.chain with | some c => c.flags.testBit 1 | none => false
      if window then s.dropJob k id else s.onJob k id (fun j => { j with stage := .ready, todo := [] })

/-- READOUT: a READY pair whose chain goes to the epilogue is read out to the collecting hub (R135). -/
def execReadout (stack : Fin 12) (tile : Nat) (slot : Fin 16) (s : State) : Host.Outcome State Fault Refusal :=
  let k := stack.val
  let key := 16 * tile + slot.val
  let q := (s.stk k).pair key
  match (s.stk k).job? q.job with
  | none => .next s
  | some j =>
    match s.chainRec j.part j.chain with
    | none => .next s
    | some c =>
      if q.st != 2 || c.flags.testBit 1 then .next s
      else
        let m := match s.chainDescs j.part c with | d :: _ => dFsExp d | [] => 0
        let cv : ChainVal :=
          { part := j.part, chain := j.chain, row := j.row, job := j.id, rung := j.rung
            vals := (List.range dataCols).map (fun i => (2 ^ m : Nat) * colAt q.full i - 8 * q.sE)
            flags := q.flags, sums := q.full, sE := q.sE, pairs := j.accepted / 2, rangePairs := j.acceptedRange / 2
            poison := q.origins, widen := j.widen, cover := j.cover, exhausted := j.exhausted, tensor := j.tensor }
        let s := s.onHub c.collHub (fun u => { u with vals := u.vals ++ [cv] })
        let s := s.onPair k key (fun q => { q with st := 0 })
        .next (s.nextRow k j.id)

/-! ### The accumulator window (R136, R137) -/

/-- First address of the accumulator window (R136, R462). -/
def winBase : Nat := 0x8000000000
/-- Bytes of the window of a hub: three stacks (R462). -/
def winBytes : Nat := 0x3C000000

/-- Stack of the hub, tile, and offset in the tile's window of a window address (R136). -/
def winPlace (h a : Nat) : Nat × Nat × Nat :=
  let o := a - winBase
  (3 * h + o / 0x14000000, o % 0x14000000 / 0x80000, o % 0x80000)

/-- Byte of the window (R136): the contents at the moment of the read. -/
def StackSt.winByte (u : StackSt) (tile o : Nat) : Byte :=
  let pr (j : Nat) := u.pair (16 * tile + j)
  if o < 0x20000 then (leBytes 4 (ux (colAt (pr (o / 0x2000)).full (o % 0x2000 / 4)) 32)).getD (o % 4) 0
  else if o < 0x40000 then
    let o := o - 0x20000
    (leBytes 4 (ux (colAt (pr (o / 0x2000)).short (o % 0x2000 / 4)) 32)).getD (o % 4) 0
  else if o < 0x48000 then
    let o := o - 0x40000
    BitVec.ofNat 8 (flagAt (pr (o / 0x800)).flags (o % 0x800))
  else if o < 0x48080 then
    let o := o - 0x48000
    (leBytes 8 (ux (pr (o / 8)).sE 64)).getD (o % 8) 0
  else if o < 0x48090 then BitVec.ofNat 8 (pr (o - 0x48080)).st
  else 0

/-- Bytes of the window, at the moment of the read. -/
def State.winRead (s : State) (h a n : Nat) : List Byte :=
  (List.range n).map (fun i =>
    let (k, tile, o) := winPlace h (a + i)
    (s.stk k).winByte tile o)

/-- Replace one byte of a two's complement number of `n` bytes. -/
def putByte (n : Nat) (x : Int) (i : Nat) (b : Byte) : Int := sx (setBits (ux x (8 * n)) (8 * i) 8 b.toNat) (8 * n)

/-- Replace one entry of a column list. -/
def setCol (l : List Int) (c : Nat) (x : Int) : List Int := (List.range dataCols).map (fun i => if i = c then x else colAt l i)

/-- What a write of one window byte does: none when the pair's state does not allow it (R137). -/
def StackSt.winPut (u : StackSt) (tile o : Nat) (b : Byte) : Option StackSt :=
  let put (j : Nat) (f : Pair → Pair) : StackSt := { u with pairs := AMap.modify u.pairs (16 * tile + j) {} f }
  if o < 0x20000 then
    let j := o / 0x2000
    let c := o % 0x2000 / 4
    if (u.pair (16 * tile + j)).st = 0 then
      some (put j (fun q => { q with full := setCol q.full c (putByte 4 (colAt q.full c) (o % 4) b) }))
    else none
  else if o < 0x48000 then none
  else if o < 0x48080 then
    let j := (o - 0x48000) / 8
    if (u.pair (16 * tile + j)).st = 0 then
      -- S_E has 48 bits (R126)
      some (put j (fun q => { q with sE := sx (ux (putByte 8 q.sE (o % 8) b) 48) 48 }))
    else none
  else if o < 0x48090 then
    let j := o - 0x48080
    if (u.pair (16 * tile + j)).st = 2 ∧ b = 0 then some (put j (fun q => { q with st := 0 })) else none
  else some u

/-- One window read of a unit of hub h that acts for partition p: on a stack of another partition it brings zeros, and is counted (R137). -/
def State.winReadBy (h p a n : Nat) (s : State) : List Byte × State :=
  if s.owns p (winPlace h a).1 then (s.winRead h a n, s)
  else (List.replicate n 0, s.flagCount R.ACU.EVT_WINDOW_REFUSED R.ACU.WINDOW_REFUSED_CNT h)

/-- One window write of a unit of hub h that acts for partition p (R137). A write that the pairs' states allow only in part is dropped
whole and counted once (DESIGN CHOICE, log entry 108). -/
def State.winWrite (h p a : Nat) (data : List Byte) (s : State) : State :=
  let (k, tile, o) := winPlace h a
  if !(decide (winBase ≤ a) && decide (a + data.length ≤ winBase + winBytes)) then s
  else if !s.owns p k then s.flagCount R.ACU.EVT_WINDOW_REFUSED R.ACU.WINDOW_REFUSED_CNT h
  else
    let u0 := s.stk k
    let r := ((List.range data.length).zip data).foldl (fun (a : Option StackSt) x => a.bind (fun u => u.winPut tile (o + x.1) x.2)) (some u0)
    match r with
    | none => s.flagCount R.ACU.EVT_BUSY_WRITE R.ACU.BUSY_WRITE_CNT h
    | some u =>
      let s := s.onStk k (fun _ => u)
      -- a pair released by a state write: its chain's next row may run
      s.each (List.range 16) (fun j s =>
        let key := 16 * tile + j
        if (u0.pair key).st = 2 ∧ (u.pair key).st = 0 then s.nextRow k (u.pair key).job else s)

/-- WINDOW_WRITE: applied when the slot state allows it, else refused or dropped (R137). -/
def execWindowWrite (hub : Fin 4) (part : Fin 12) (addr : Nat) (data : List Byte) (s : State) :
    Host.Outcome State Fault Refusal :=
  .next (s.winWrite hub.val part.val addr data)

end Sys2Proof.Machine
end

