-- ==== Sys2Proof/Machine/Epilogue.lean ====
section
/-! DEFINITION. The epilogue of a collecting hub: chain values, correction terms, the tree, the fused operation and the
output (R98 to R101, R105, R106, R117 to R119, R138 to R141, R300, R301, R324), the drift fit (R110, R111) and the start of
a digital-rung invocation (R208). -/
namespace Sys2Proof.Machine

/-! ### Resident blocks of the active placement -/

/-- Column scales of an array-tier: SB8 codes by data column (R70). A placement without the block states none: a free
value (log entry 3). -/
def State.colScale (s : State) (p : Nat) (c : ChainRec) (rowblk : Nat) : List Nat :=
  match s.blkAt p 1 c.layer c.expert c.matrix rowblk c.colblk with
  | some b => (s.mrd b.addr 2048).map BitVec.toNat
  | none => (List.range dataCols).map (fun i => Config.freeNat (s.free + i) % 255)

/-- Row blocks that a chain evaluates, ascending, each once. -/
def State.chainRowBlks (s : State) (p : Nat) (c : ChainRec) : List Nat :=
  ((s.chainDescs p c).map (s.rowBlkOf p c.stack)).eraseDups |> sortBy (fun a b => decide (a ≤ b))

/-- Values of one 32-element block of an input row as the epilogue produced them (R100). -/
def State.producedVals (s : State) (t : TensorRec) (row b : Nat) : List Nat :=
  match AMap.get? s.blks (t.scaleAddr row b) with
  | some r => r.vals
  | none => s.tensorVals t row (32 * b) 32

/-! ### The chain value (R80, R138) -/

/-- Edge value u over s_ref: 24 for A6 at rung 1, else 64 (R80). -/
def edgeDen (rung : Nat) : Nat := if rung = 1 then 24 else 64

/-- F = RNE(s_col × u / g) (R138). -/
def factorF (scol sref rung wmode : Nat) : Nat :=
  let (m, e) := sb8Sig scol
  fpOfRat m (levelGain wmode * edgeDen rung) (e + srefExp sref)

/-- y = RNE(RNE(V) × F); a column flagged INVALID gives the quiet NaN (R138). -/
def chainY (v : Int) (f flags : Nat) : Nat := if flags.testBit 1 then qNaN else fpMul (fpOfInt v 0) f

/-- Combine chain values in the fixed pairwise tree, one level (R139). -/
def treeLevel : List Nat → List Nat
  | a :: b :: t => fpAdd a b :: treeLevel t
  | l => l

/-- The fixed tree of R139 over a list of at most 2^n values. -/
def fixedTree : Nat → List Nat → Nat
  | _, [] => 0
  | _, [a] => a
  | 0, a :: _ => a
  | n + 1, l => fixedTree n (treeLevel l)

/-! ### Exact requantization (R300, R301) -/

/-- Guard band B: widening in 1/32 LSB. -/
def guardBand (cv : ChainVal) : Nat := 16 * (4 + cdiv cv.widen 32) * (cv.pairs + 16 * cv.rangePairs)

/-- Multiple of G nearest to a quotient n / d. -/
def gridNear (n : Int) (d g : Nat) : Int := rneDiv n (d * g) * g

/-- Does S lie within B of an odd multiple of G/2 (R301). -/
def inGuard (x : Int) (g b : Nat) : Bool :=
  let r := ((x - (g / 2 : Nat)) % (g : Int)).toNat
  decide (min r (g - r) ≤ b)

/-- S* of a delivered digital value: the multiple of G nearest to (y_d / F + 8 × S_E) / 2^m, formed exactly (R301). -/
def gridOfDigital (yd f : Nat) (sE : Int) (m g : Nat) : Option Int :=
  match fpDec yd, fpDec f with
  | .fin n1 k1 e1, .fin n2 k2 e2 =>
    if k2 = 0 then none
    else
      let a : Int := if n1 = n2 then k1 else -(k1 : Int)
      let d := e1 - e2
      -- (a × 2^d / k2 + 8 sE) / 2^m
      if d ≥ 0 then some (gridNear (a * 2 ^ d.toNat + 8 * sE * k2) (k2 * 2 ^ m) g)
      else some (gridNear (a + 8 * sE * k2 * 2 ^ (-d).toNat) (k2 * 2 ^ (-d).toNat * 2 ^ m) g)
  | _, _ => none

/-! ### Correction terms (R100, R106) -/

/-- Product of a BF16-rounded element with an integer × 2^e × an SB8 scale, exact in FP32. -/
def corrProd (a : Nat) (q : Int) (scol : Nat) (e : Int) : Nat :=
  fpPack (fvMul (fpDec (bf16Of a)) (fvMul (.fin (q < 0) q.natAbs e) (sb8Val scol)))

/-- Sum in order, the first term as it is (R100); no term is +0. -/
def seqSum : List Nat → Nat
  | [] => 0
  | a :: t => t.foldl fpAdd a

/-- What the correction engine reads for one output row: for each declared channel its element, its row and the scales;
and for each evaluated array-tier of the column its entries. -/
structure CorrData where
  /-- (a_o, INT8 row, scales of the array-tier whose row the channel would occupy) -/
  chans : List (Nat × List Byte × List Nat) := []
  /-- (row elements of the row block, entries, scales), in ascending ROWBLK -/
  sparse : List (List Nat × List Nat × List Nat) := []
  deriving DecidableEq, Repr

/-- Outlier term of a column (R100). -/
def CorrData.outlierTerm (d : CorrData) (col : Nat) : Nat :=
  seqSum (d.chans.map (fun x => corrProd x.1 (sx (byteAt x.2.1 col) 8) (x.2.2.getD col 0) (-4)))

/-- Sparse term of a column (R106): one sequence from +0. -/
def CorrData.sparseTerm (d : CorrData) (col : Nat) : Nat :=
  d.sparse.foldl (fun acc x =>
    (x.2.1.filter (fun e => bits e 11 11 == col)).foldl (fun acc e =>
      fpAdd acc (corrProd (x.1.getD (bits e 0 11) 0) (sx (bits e 22 10) 10) (x.2.2.getD col 0) (-2))) acc) 0

/-! ### One chain group's row -/

/-- The chains of a chain group: (index, record), in ascending CHAIN (R139, R201). -/
def State.chainGroup (s : State) (p : Nat) (c : ChainRec) : List (Nat × ChainRec) :=
  let cs := (s.part p).setAct.chains
  sortBy (fun a b => decide (a.2.chain ≤ b.2.chain)) ((List.range cs.length).zip cs |>.filter (fun x =>
    x.2.layer == c.layer && x.2.expert == c.expert && x.2.matrix == c.matrix && x.2.colblk == c.colblk))

/-- A chain's value that waits at its collecting hub. -/
def State.chainVal (s : State) (p h chain row : Nat) : Option ChainVal :=
  (s.hub h).vals.find? (fun v => v.part == p && v.chain == chain && v.row == row)

/-- Change a waiting chain value. -/
def State.onVal (h : Nat) (v : ChainVal) (f : ChainVal → ChainVal) (s : State) : State :=
  s.onHub h (fun u => { u with vals := u.vals.map (fun w =>
    if w.part = v.part ∧ w.chain = v.chain ∧ w.row = v.row then f w else w) })

/-- Does the epilogue use a delivered value in place of y (R207): the chain ran at rung 3. -/
def ChainVal.digital (v : ChainVal) : Bool := v.rung == 3

/-- Waits for EPUT. -/
def ChainVal.awaits (v : ChainVal) : Bool := v.asked && v.dig.isNone

/-- Correction blocks that a live chain needs: kinds 2, 3 and 4 of its row blocks and column block. -/
def State.corrBlocks (s : State) (p : Nat) (c : ChainRec) : List Blk :=
  match (s.part p).active with
  | none => []
  | some pl =>
    let rbs := s.chainRowBlks p c
    pl.blocks.filter (fun b => b.layer == c.layer && b.expert == c.expert && b.matrix == c.matrix &&
      (b.kind == 2 || ((b.kind == 3 || b.kind == 4) && b.colblk == c.colblk && rbs.contains b.rowblk)))

/-- Input elements of a row block of a chain's row. -/
def State.rowInputs (s : State) (t : TensorRec) (row rb : Nat) : List Nat :=
  (List.range 64).flatMap (fun j => s.producedVals t row (64 * rb + j))

/-- Correction blocks that the engine reads for a chain's row: a sparse list only when some input of its row block is not zero (R106). -/
def State.corrRead (s : State) (p : Nat) (x : ChainRec × ChainVal) : List Blk :=
  match s.tensorRec p x.2.tensor with
  | none => []
  | some t => (s.corrBlocks p x.1).filter (fun b => b.kind != 4 || !(s.rowInputs t x.2.row b.rowblk).all fpIsZero)

/-- What the engine reads for a group's row: live chains (not at the digital rung), blocks in good order. The number of entries of a
sparse list follows from its block's LENGTH; the list header's count and CRC-32C are not read (DESIGN CHOICE, log entry 111). -/
def State.corrData (s : State) (p : Nat) (live : List (ChainRec × ChainVal)) : CorrData :=
  let perChain := live.map (fun x =>
    let c := x.1
    let good (b : Blk) := !s.blkBad b
    let t? := s.tensorRec p x.2.tensor
    let rbs := s.chainRowBlks p c
    match t? with
    | none => ([], [])
    | some t =>
      let ok := (s.corrBlocks p c).all (fun b => b.kind != 2 || good b)
      let outl := if ok then s.outliers p c else []
      let chans := rbs.flatMap (fun rb =>
        let os := outl.filter (fun o => o / 2048 == rb)
        match s.blkAt p 3 c.layer c.expert c.matrix rb c.colblk with
        | some b =>
          if good b then
            let sc := s.colScale p c rb
            ((List.range os.length).zip os).map (fun (y : Nat × Nat) =>
              (y.2, ((s.producedVals t x.2.row (y.2 / 32)).getD (y.2 % 32) 0, s.mrd (b.addr + 2048 * y.1) 2048, sc)))
          else []
        | none => [])
      let sparse := rbs.flatMap (fun rb =>
        match s.blkAt p 4 c.layer c.expert c.matrix rb c.colblk with
        | some b =>
          let ins := s.rowInputs t x.2.row rb
          if good b && !ins.all fpIsZero then
            [(rb, (ins, leWords 4 ((b.length - 16) / 4) (s.mrd (b.addr + 16) (b.length - 16)), s.colScale p c rb))]
          else []
        | none => [])
      (chans, sparse))
  let byKey {α : Type} (l : List (Nat × α)) : List α := (sortBy (fun a b => decide (a.1 ≤ b.1)) l).map (·.2)
  { chans := byKey (perChain.flatMap (·.1)), sparse := byKey (perChain.flatMap (·.2)) }

/-- One chain's FP32 value of a column, with whether the exact guard left it unsure (R138, R300, R301, R324). -/
def chainColumn (exact : Bool) (g : Nat) (c : ChainRec) (m wmode : Nat) (scol : List Nat) (cv : ChainVal) (i : Nat) : Nat × Bool :=
  let fl := flagAt cv.flags i
  let f := factorF (scol.getD i 0) c.sref cv.rung wmode
  if cv.digital then (((cv.dig.getD []).getD i {}).v, false)
  else
    let t := if fl.testBit 2 then colAt cv.cover i else 0
    if !exact then (chainY (colAt cv.vals i + t) f fl, false)
    else if fpIsZero f then (if fl.testBit 1 then qNaN else 0, false)
    else
      let x := colAt cv.sums i
      let out (star : Int) := chainY ((2 ^ m : Nat) * star - 8 * cv.sE + t) f fl
      let near := gridNear x 1 g
      if !inGuard x g (guardBand cv) then (out near, false)
      else match cv.dig with
        | some d => match gridOfDigital ((d.getD i {}).v) f cv.sE m g with
          | some star => (out star, false)
          | none => (out near, true)
        | none => (out near, true)

/-- Does a column's value rest on the value that EPUT delivered: at the digital rung, or as the source of S* under the exact guard (R207,
R301). -/
def usesDig (exact : Bool) (g : Nat) (c : ChainRec) (wmode : Nat) (scol : List Nat) (cv : ChainVal) (i : Nat) : Bool :=
  cv.digital || (exact && cv.dig.isSome && !fpIsZero (factorF (scol.getD i 0) c.sref cv.rung wmode) &&
    inGuard (colAt cv.sums i) g (guardBand cv))

/-- Columns of a chain value that the exact guard must judge by the digital rung (R301). -/
def guardColumns (g : Nat) (c : ChainRec) (wmode : Nat) (scol : List Nat) (cv : ChainVal) : List Nat :=
  (List.range dataCols).filter (fun i =>
    !fpIsZero (factorF (scol.getD i 0) c.sref cv.rung wmode) && inGuard (colAt cv.sums i) g (guardBand cv))

/-- First descriptor of a chain: FS_EXP and WMODE hold for all of them (R128). -/
def State.chainHead (s : State) (p : Nat) (c : ChainRec) : Nat := (s.chainDescs p c).headD 0

/-- Send a chain's value to the digital rung (R119, R301). -/
def State.askDigital (h : Nat) (c : ChainRec) (v : ChainVal) (rung : Nat) (s : State) : State :=
  (s.onVal h v (fun v => { v with asked := true, rung := rung })).onHub h (fun u => { u with
    esc := u.esc ++ [{ part := v.part, chain := v.chain, row := v.row, tensor := v.tensor, dig := c.digTensor, job := v.job }] })

/-- One row of a chain's ACALL is written: the call completes with its last row (R206). -/
def State.rowWritten (k id : Nat) (s : State) : State :=
  match (s.stk k).job? id with
  | none => s
  | some j =>
    if j.n ≤ j.written + 1 then (s.completeToken j.src j.tok).dropJob k id
    else s.onJob k id (fun j => { j with written := j.written + 1 })

/-- The fused operation (R140). -/
def fusedOp (op y b : Nat) : Nat := if op = 1 then fpAdd y b else if op = 2 then fpMul y b else y

/-- Bursts of an output row that hold a poisoned element (R141, R285). -/
def poisonedBursts (t : TensorRec) (row : Nat) (ys : List PVal) : List Nat :=
  ((List.range ys.length).zip ys).flatMap (fun x => if x.2.o = 0 then [] else t.elemBursts row x.1)

/-- Write one result row of a chain group to its output tensor (R141): array input blocks of the consuming chain, whose s_ref and
outlier columns they take (R75, R99), or the tensor's format. -/
def State.writeRow (p h : Nat) (c : ChainRec) (t : TensorRec) (row : Nat) (ys : List PVal) (s : State) : State :=
  let ys := ys.take t.cols
  let vs := ys.map (·.v)
  if c.flags.testBit 2 then
    match s.chainRec p c.consChain with
    | none => s
    | some k =>
      let outl := s.outliers p k
      let conv (b : Nat) (seg : List Nat) (fill : Nat) : ABlock := arrayBlock t.fmt k.sref (srefExp k.sref) seg
        ((List.range 32).map (fun i => outl.contains (2048 * c.colblk + 32 * b + i))) fill
      let (qs, s) := s.quantBlocks conv (fun seg => seg.any fpNonFinite) vs
      let s := s.putBlocks h t row 0 qs (poisonedBursts t row ys)
      let s := s.bump R.DCP.ZERO_BLOCK_CNT h (qs.filter (·.sb8 == 0)).length
      s.each ((List.range qs.length).zip (qs.zip (rowBlocks vs))) (fun x s => { s with
        blks := AMap.set s.blks (t.scaleAddr row x.1)
          { addr := t.addr row (32 * x.1), len := cdiv (fmtBits t.fmt * x.2.2.length) 8, vals := x.2.2, rem := x.2.1.rem
            saturated := x.2.1.saturated } })
  else
    let t := { t with fmt := if fmtBlock c.outFmt || c.outFmt ≤ 1 then c.outFmt else t.fmt }
    s.tensorPut h t row 0 vs (poisonedBursts t row ys)

/-- COLUMN_RESULT: once every chain of the group has delivered the row, the epilogue combines and writes it (R117). Columns whose correction
data is missing count on the page of the collecting hub, which forms them (R119; DESIGN CHOICE, log entry 130). -/
def State.columnResult (p chain row : Nat) (s : State) : State :=
  match s.chainRec p chain with
  | none => s
  | some c =>
    let h := c.collHub
    let grp := s.chainGroup p c
    let got := grp.filterMap (fun x => (s.chainVal p h x.1 row).map (fun v => (x.2, v)))
    if got.length ≠ grp.length || got.any (fun x => x.2.awaits) then s
    else
      let scales := got.map (fun x => s.colScale p x.1 ((s.chainRowBlks p x.1).headD 0))
      let all := got.zip scales
      let g := 16 * 2 ^ s.rd R.GLB.EXACT_GRID_EXP p
      let exact := s.rd R.GLB.EXACT_MODE p == 1
      -- poisoned or failed correction data (R119)
      let live := got.filter (fun x => !x.2.digital)
      let bad (x : ChainRec × ChainVal) := (s.corrRead p x).filter s.blkBad
      let scaleBad (x : ChainRec × ChainVal) : List Blk := (s.chainRowBlks p x.1).filterMap (fun rb =>
        (s.blkAt p 1 x.1.layer x.1.expert x.1.matrix rb x.1.colblk).filter s.blkBad)
      let s := s.each (live.flatMap (fun x => bad x ++ scaleBad x)) (fun b s => s.startRepair p b)
      let toDig := live.filter (fun x => !(bad x).isEmpty && s.digitalAvail p x.1)
      -- columns whose rounding could depend on analogue error (R301)
      let guards := all.filterMap (fun x =>
        if exact && !x.1.2.digital && x.1.2.dig.isNone && s.digitalAvail p x.1.1 then
          let n := (guardColumns g x.1.1 (dWmode (s.chainHead p x.1.1)) x.2 x.1.2).length
          if n = 0 then none else some (x.1, n)
        else none)
      if !toDig.isEmpty then s.each toDig (fun x s => s.askDigital h x.1 x.2 3)
      else if !guards.isEmpty then
        s.each guards (fun x s =>
          (s.each (List.range x.2) (fun _ s => s.nonDet p R.GLB.ND_EXACT_GUARD)).askDigital h x.1.1 x.1.2 x.1.2.rung)
      else
        let corr := s.corrData p live
        let read := (live.flatMap (fun x => s.corrRead p x ++ (s.chainRowBlks p x.1).filterMap (fun rb =>
          s.blkAt p 1 x.1.layer x.1.expert x.1.matrix rb x.1.colblk))).eraseDups
        let missing := live.any (fun x => !(bad x).isEmpty)
        let anyScaleBad := live.any (fun x => !(scaleBad x).isEmpty)
        let heads := all.map (fun x => (x, s.chainHead p x.1.1))
        let opnd := if c.fused = 0 then none else s.tensorRec p c.opndTensor
        let ovals := match opnd with
          | some o => (List.range 64).flatMap (fun b => s.tensorVals o row (32 * b) 32)
          | none => []
        let cols := (List.range dataCols).map (fun i =>
          let vs := heads.map (fun x => chainColumn exact g x.1.1.1 (dFsExp x.2) (dWmode x.2) x.1.2 x.1.1.2 i)
          let ya := fixedTree 9 (vs.map (·.1))
          let y := if live.isEmpty then ya else fpAdd (fpAdd ya (corr.outlierTerm i)) (corr.sparseTerm i)
          let fl := got.foldl (fun a x => a ||| flagAt x.2.flags i) 0
          let digPoi := heads.foldl (fun a x =>
            a ||| (if usesDig exact g x.1.1.1 (dWmode x.2) x.1.2 x.1.1.2 i then ((x.1.1.2.dig.getD []).getD i {}).o else 0)) 0
          let opPoi := match opnd with
            | some o => s.readOrigins p (o.addr row i) (cdiv (fmtBits o.fmt) 8) |||
                (if fmtBlock o.fmt then s.readOrigins p (o.scaleAddr row (i / 32)) 1 else 0)
            | none => 0
          let o := (got.foldl (fun a x => a ||| (if (flagAt x.2.flags i).testBit 3 then x.2.poison else 0)) 0) ||| digPoi ||| opPoi ||| (if anyScaleBad then oShared else 0)
          (({ v := fusedOp c.fused y (ovals.getD i 0), o := o } : PVal), (vs.filter (·.2)).length, fl))
        let unsure := cols.foldl (fun a x => a + x.2.1) 0
        -- CLIPPED, MASKED, ESC_EXHAUSTED, SATURATED, WIDE_LIMIT and correction-missing end here (R141)
        let width := match s.tensorRec p c.outTensor with | some t => t.cols | none => dataCols
        let marked := ((cols.take width).filter (fun x => x.2.2 &&& 0x75 != 0 || missing)).length
        -- a chain that escalated to the digital rung counts the columns that its last sums left to the exact guard too (R310)
        let both := all.flatMap (fun x =>
          if exact && x.1.2.digital && !x.1.2.asked && !x.1.2.sums.isEmpty then guardColumns g x.1.1 (dWmode (s.chainHead p x.1.1)) x.2 x.1.2 else [])
        let s := s.each read (fun b s => s.touchBlk b)
        let s := match opnd with
          | some o => s.touchRow o row 0 o.cols
          | none => s
        let s := s.each both (fun _ s => s.nonDet p R.GLB.ND_EXACT_GUARD)
        let s := s.whenB (unsure != 0) (fun s => ((s.bump R.GLB.EXACT_UNSURE_CNT p unsure).raise R.GLB.EVT_EXACT_UNSURE p).noteStep p
          (fun t => { t with sure := false }))
        let s := s.bump R.ACU.MARKED_CNT h marked
        let s := s.whenB missing (fun s => s.bump R.DCP.CORR_MISSING_CNT h dataCols)
        let row' := cols.map (·.1)
        let s := match s.tensorRec p c.outTensor with
          | some t => s.writeRow p h c t row row'
          | none => s
        let s := s.onHub h (fun u => { u with
          streams := { part := p, layer := c.layer, expert := c.expert, matrix := c.matrix, colblk := c.colblk, vals := row' } ::
            u.streams.filter (fun r => !(r.part == p && r.layer == c.layer && r.expert == c.expert && r.matrix == c.matrix &&
              r.colblk == c.colblk))
          vals := u.vals.filter (fun v => !(v.part == p && v.row == row && grp.any (fun x => x.1 == v.chain))) })
        s.each got (fun x s => s.rowWritten x.1.stack x.2.job)

/-- COLUMN_RESULT (R117). -/
def execColumnResult (part : Fin 12) (chain row : Nat) (s : State) : Host.Outcome State Fault Refusal :=
  .next (s.columnResult part.val chain row)

/-! ### The drift fit (R110, R111) -/

/-- The fitted record of an array-tier: (a_meas, b_meas, a_new, b_new), each FP32, in the order written (R110). -/
def driftFitFp (d : DriftStat) (rec_ shift : Nat) : Nat × Nat × Nat × Nat :=
  let f (x : Int) (e : Int) := fpOfInt x e
  let n200 := f 200 0
  let am := fpDiv (f d.szy (-15)) (fpMul n200 (f d.szz (-30)))
  let bm := fpDiv (fpSub (f d.sy 0) (fpMul (fpMul (f 120 0) am) (f d.sz (-15)))) (fpMul (f 16 0) (f d.n 0))
  let a := fpOfRat 32768 (bits rec_ 0 16) 0
  let b := fpOfInt (sx (bits rec_ 16 16) 16) (-8)
  let k := f (2 ^ shift : Nat) 0
  (am, bm, fpAdd a (fpDiv (fpSub am a) k), fpAdd b (fpDiv (fpSub bm b) k))

/-- IGAIN of a_new: 2^15 / a_new rounded and kept in its range (R107, R111); none when no quotient is stated. -/
def igainOf (a : Nat) : Option Int :=
  match fpDec a with
  | .fin false m e =>
    if m = 0 then some 0x9249
    else
      -- 2^15 / (m × 2^e)
      some (clampI 0x71C7 0x9249 (if e ≤ 15 then rneDiv (2 ^ (15 - e).toNat) m else 0))
  | .fin true _ _ => some 0x71C7
  | .inf _ => some 0x71C7
  | .nan => none

/-- OFFS of b_new in 1/256 LSB, rounded and kept in its range. -/
def offsOf (b : Nat) : Option Int :=
  match fpDec b with
  | .fin n m e => some (clampI (-4096) 4096 (rneQuot (fpPack (.fin n m e)) 1 (-8)))
  | .inf n => some (if n then -4096 else 4096)
  | .nan => none

/-- Does a fit lie outside its limits (R111): a_meas outside 0.875 to 1.125, or |b_meas| above 16. -/
def fitOut (am bm : Nat) : Bool :=
  fpLt am 0x3F600000 || fpLt 0x3F900000 am || fpIsNaN am || fpLt 0x41800000 (fpAbs bm) || fpIsNaN bm

/-- Queue a tile for recalibration (R349): one entry per tile, reasons 2 and 3 stand over the others. -/
def State.queueRecal (k tile reason : Nat) (s : State) : State :=
  s.onStk k (fun u =>
    let old := AMap.getD u.recalQ tile 0
    if old = 2 ∨ old = 3 ∨ (old ≠ 0 ∧ reason ≠ 2 ∧ reason ≠ 3) then u
    else { u with recalQ := AMap.put u.recalQ tile reason 0 })

/-- Fit one array-tier: the record goes to the inactive buffer (R110). -/
def State.fitOne (k key : Nat) (d : DriftStat) (s : State) : State :=
  let h := hubOfStack k
  let u := s.stk k
  let phys := key / 16
  if d.n = 0 || !s.is R.DCP.DRIFT_CTL_DRIFT_EN h || AMap.getD u.frozen phys 0 != 0 then s
  else
    let (am, bm, an, bn) := driftFitFp d (AMap.getD u.drift key u.driftBase) (s.rd R.DCP.DRIFT_CTL_DRIFT_SHIFT h)
    let (fr, s) := if (igainOf an).isNone || (offsOf bn).isNone then s.takeFree else (0, s)
    let ig := (igainOf an).getD (0x71C7 + fr % (0x9249 - 0x71C7 + 1))
    let of_ := (offsOf bn).getD ((fr % 8193 : Nat) - 4096)
    let word := ux ig 16 + ux of_ 16 * 65536
    let s := s.onStk k (fun u => { u with driftNext := AMap.set u.driftNext key word })
    s.whenB (fitOut am bm) (fun s =>
      ((s.count R.DCP.DRIFT_LIMIT_CNT h).raise R.DCP.EVT_DRIFT_LIMIT h).queueRecal k (phys / 64) 2)

/-- Fit the statistics that a stack gathered in the step before. -/
def State.fitStack (k : Nat) (s : State) : State :=
  let st := (s.stk k).statPrev
  (s.each st (fun e s => s.fitOne k e.1 e.2)).onStk k (fun u => { u with statPrev := [] })

/-- Fit the statistics that the stacks of a hub gathered in the step before: during the following step (R110). -/
def State.fitHub (h : Nat) (s : State) : State :=
  s.each [3 * h, 3 * h + 1, 3 * h + 2] (fun k s => s.whenB ((s.ownerOf k).any s.stepRuns) (fun s => s.fitStack k))

/-- DRIFT_FIT (R110): fits the statistics of the step before. -/
def execDriftFit (hub : Fin 4) (s : State) : Host.Outcome State Fault Refusal := .next (s.fitHub hub.val)

/-! ### Digital-rung invocations (R208) -/

/-- The lowest-numbered ESC group of a hub that serves a partition and does not run: (core, group, ENTRY). -/
def State.freeEscGroup (s : State) (h p : Nat) : Option (Nat × Nat × Nat) :=
  (s.part p).setAct.groups.findSome? (fun e =>
    if e.1 / 192 == h && ((s.part p).sets.getD h 0).testBit (e.1 % 192 / 16) then
      ((List.range e.2.length).zip e.2).findSome? (fun g =>
        if g.2.esc && !(AMap.getD (s.core e.1).groups g.1 {}).running then some (e.1, g.1, g.2.entry) else none)
    else none)

/-- Take the oldest invocation of a hub whose partition has a free ESC group, and start the group (R208): its other registers are zero, and
the tiles stay (DESIGN CHOICE, log entry 144). -/
def State.escStart (h : Nat) (s : State) : State :=
  match (s.hub h).esc.findSome? (fun e => (s.freeEscGroup h e.part).map (fun g => (e, g))) with
  | none => s
  | some (e, core, group, entry) =>
    let g : Group := { running := true, pc := entry
                       s := [(0, e.chain), (1, e.row), (2, e.tensor), (3, e.dig)].foldl
                         (fun m x => AMap.put m x.1 { v := x.2 } pv0) [] }
    let s := s.onCore core (fun c => { c with groups := AMap.put c.groups group g {} })
    let s := s.onHub h (fun u => { u with esc := u.esc.erase e })
    s.count R.DCR.ESC_CALL_CNT e.part

/-- ESC_INVOCATION (R208). -/
def execEscInvocation (hub : Fin 4) (s : State) : Host.Outcome State Fault Refusal := .next (s.escStart hub.val)

end Sys2Proof.Machine
end

