-- ==== Sys2Proof/Machine/TopK.lean ====
section
/-! DEFINITION. The streaming top-k reducer (R142 to R147). -/
namespace Sys2Proof.Machine

/-- Fields of a call record (R142). -/
structure TopkRec where
  n : Nat
  k : Nat
  src : Nat
  flags : Nat
  inAddr : Nat
  adjAddr : Nat
  exclAddr : Nat
  outAddr : Nat
  adjCount : Nat
  resv : Nat
  deriving DecidableEq, Repr

/-- Read a call record of 48 bytes. -/
def TopkRec.ofBytes (b : List Byte) : TopkRec :=
  { n := fieldLE b 0 4, k := fieldLE b 4 2, src := byteAt b 6, flags := byteAt b 7, inAddr := fieldLE b 8 8
    adjAddr := fieldLE b 16 8, exclAddr := fieldLE b 24 8, outAddr := fieldLE b 32 8, adjCount := fieldLE b 40 4
    resv := fieldLE b 44 4 }

/-- EXCL_EN. -/
def TopkRec.exclEn (r : TopkRec) : Bool := r.flags.testBit 0
/-- ADJ_EN. -/
def TopkRec.adjEn (r : TopkRec) : Bool := r.flags.testBit 1

/-- Is a record in error by its own fields (R143). -/
def TopkRec.bad (r : TopkRec) : Bool :=
  !(decide (1 ≤ r.n) && decide (r.n ≤ 16777216)) || !(decide (1 ≤ r.k) && decide (r.k ≤ 256)) || decide (4096 < r.adjCount) ||
  decide (2 < r.src) || decide (3 < r.flags) || r.resv != 0 || (r.exclEn && decide (65536 < r.n))

/-- An adjustment entry (R144). -/
structure Adj where
  pos : Nat
  fpos : Nat
  fneg : Nat
  sub : Nat
  deriving DecidableEq, Repr

/-- The adjustment list of a call: none listed when ADJ_EN is 0. -/
def State.topkAdj (s : State) (r : TopkRec) : List Adj :=
  if !r.adjEn then []
  else (List.range r.adjCount).map (fun i =>
    let b := s.mrd (r.adjAddr + 16 * i) 16
    { pos := fieldLE b 0 4, fpos := fieldLE b 4 4, fneg := fieldLE b 8 4, sub := fieldLE b 12 4 })

/-- Are positions strictly ascending and below n. -/
def ascBelow (n : Nat) : List Nat → Bool
  | [] => true
  | a :: t => decide (a < n) && t.head?.all (fun b => decide (a < b)) && ascBelow n t

/-- Adjusted value (R144). -/
def adjValue (a : Adj) (v : Nat) : Nat :=
  fpSub (fpMul v (if fpLt v 0 then a.fneg else a.fpos)) a.sub

/-- Does (v, p) rank strictly before (w, q) among numbers (R145). -/
def ranksBefore (v p w q : Nat) : Bool := fpLt w v || (!fpLt v w && decide (p < q))

/-- Insert into a list of at most k entries in rank order. -/
def insertTop (v p : Nat) : Nat → List (Nat × Nat) → List (Nat × Nat)
  | 0, _ => []
  | _ + 1, [] => [(v, p)]
  | k + 1, (w, q) :: t => if ranksBefore v p w q then (v, p) :: (((w, q) :: t).take k) else (w, q) :: insertTop v p k t

/-- The best k numbers of a list of (value, position), in rank order (R145). -/
def topNumbers (k : Nat) (l : List (Nat × Nat)) : List (Nat × Nat) :=
  l.foldl (fun acc x => if fpIsNaN x.1 then acc else insertTop x.1 x.2 k acc) []

/-- Header flag bits of a result (R142). -/
def tkNanFill : Nat := 1
/-- ALL_EXCLUDED. -/
def tkAllExcluded : Nat := 2
/-- POISON. -/
def tkPoison : Nat := 4
/-- DESC_ERR. -/
def tkDescErr : Nat := 8

/-- Rank eligible (value, position) pairs: the entries and the flags NAN_FILL and ALL_EXCLUDED (R145). NAN_FILL is set only when a NaN
entry is returned: with too few numbers and no NaN position nothing is filled (DESIGN CHOICE, log entry 125). -/
def rankTop (k : Nat) (l : List (Nat × Nat)) : List (Nat × Nat) × Nat :=
  if l.isEmpty then ([], tkAllExcluded)
  else
    let nums := topNumbers k l
    let nans := ((l.filter (fun x => fpIsNaN x.1)).take (k - nums.length)).map (fun x => (qNaN, x.2))
    (nums ++ nans, if nans.isEmpty then 0 else tkNanFill)

/-- The result of a call: entries (value, position), flags, poison origins. -/
structure TopkResult where
  entries : List (Nat × Nat) := []
  flags : Nat := 0
  origins : Nat := 0
  deriving DecidableEq, Repr

/-- Input values of a call with their origins: a tensor in memory, or the epilogue stream of a hub (log entry 14). -/
def State.topkInput (s : State) (p h : Nat) (r : TopkRec) : List Nat × Nat :=
  if r.src = 1 then (leWords 4 r.n (s.mrd r.inAddr (4 * r.n)), s.readOrigins p r.inAddr (4 * r.n))
  else if r.src = 2 then ((leWords 2 r.n (s.mrd r.inAddr (2 * r.n))).map bf16Dec, s.readOrigins p r.inAddr (2 * r.n))
  else
    match s.chainRec p r.inAddr with
    | none => ([], 0)
    | some c =>
      let rows := sortBy (fun a b => decide (a.colblk ≤ b.colblk)) ((s.hub h).streams.filter (fun x =>
        x.part == p && x.layer == c.layer && x.expert == c.expert && x.matrix == c.matrix))
      let vs := (rows.flatMap (·.vals)).take r.n
      (vs.map (·.v), vs.foldl (fun a x => a ||| x.o) 0)

/-- Is a call in error (R143). -/
def State.topkErr (s : State) (r : TopkRec) : Bool := r.bad || !ascBelow r.n ((s.topkAdj r).map (·.pos))

/-- Compute a call that reads for partition p with home hub h (R143 to R146). -/
def State.topkEval (s : State) (p h : Nat) (r : TopkRec) : TopkResult :=
  let adj := s.topkAdj r
  if s.topkErr r then { flags := tkDescErr }
  else
    let (vs, o0) := s.topkInput p h r
    let o := o0 ||| (if r.adjEn then s.readOrigins p r.adjAddr (16 * r.adjCount) else 0) |||
      (if r.exclEn then s.readOrigins p r.exclAddr (cdiv r.n 8) else 0)
    let bm := if r.exclEn then s.mval r.exclAddr (cdiv r.n 8) else 0
    let elig := ((List.range vs.length).zip vs).filterMap (fun x =>
      if bm.testBit x.1 then none
      else some ((match adj.find? (fun a => a.pos == x.1) with | some a => adjValue a x.2 | none => x.2), x.1))
    let (es, fl) := rankTop r.k elig
    { entries := es, flags := fl ||| (if o = 0 then 0 else tkPoison), origins := o }

/-- Bytes of a result (R142). -/
def TopkResult.bytes (t : TopkResult) : List Byte :=
  leBytes 4 t.entries.length ++ leBytes 4 t.flags ++ leBytes 8 0 ++
    t.entries.flatMap (fun e => leBytes 4 e.1 ++ leBytes 4 e.2)

/-- Count a call once on the page of its home hub (R143, R146, R147). -/
def State.topkCount (h : Nat) (t : TopkResult) (s : State) : State :=
  let s := s.count R.ACU.TOPK_CNT h
  let s := s.whenB (t.flags.testBit 3) (fun s => (s.count R.ACU.TOPK_ERR_CNT h).raise R.ACU.EVT_TOPK_DESC_ERR h)
  s.whenB (t.flags.testBit 2) (fun s => (s.count R.ACU.TOPK_POISON_CNT h).raise R.ACU.EVT_TOPK_POISON h)

/-- Home hub of a step program's call (R147): `issuer` is the hub of the issuing core, which also takes a call whose stream names no chain
(DESIGN CHOICE, log entry 14). -/
def State.topkHome (s : State) (p issuer : Nat) (b : List Byte) : Nat :=
  let r := TopkRec.ofBytes b
  if s.topkErr r then issuer
  else if r.src = 0 then (match s.chainRec p r.inAddr with | some c => c.collHub | none => issuer)
  else min 3 (hubOfAddr r.inAddr)

/-- Has every position of an epilogue stream been produced. A stream that names no chain has nothing to wait for: the call is ready, with
an empty input (DESIGN CHOICE, log entry 14). -/
def State.topkReady (s : State) (h : Nat) (c : TopkCall) : Bool :=
  let r := TopkRec.ofBytes c.call
  s.topkErr r || r.src != 0 || decide (r.n ≤ (s.topkInput c.part h r).1.length) || (s.chainRec c.part r.inAddr).isNone

/-- What a call reads (R142 to R144): the controllers decode its bursts. -/
def State.topkTouch (r : TopkRec) (s : State) : State :=
  let s := s.whenB (r.adjEn && !r.bad) (fun s => s.touch r.adjAddr (16 * r.adjCount))
  s.whenB (!s.topkErr r) (fun s =>
    (s.whenB (r.src != 0) (fun s => s.touch r.inAddr ((if r.src = 1 then 4 else 2) * r.n))).whenB r.exclEn
      (fun s => s.touch r.exclAddr (cdiv r.n 8)))

/-- Write a result with its poison (R146). -/
def State.topkWrite (out : Nat) (t : TopkResult) (s : State) : State :=
  s.mwrP out t.bytes (if t.origins = 0 then [] else touchedBursts (out + 16) (8 * t.entries.length))

/-- Complete the oldest call of a hub that is ready (R147). -/
def State.topkMerge (h : Nat) (s : State) : State :=
  match (s.hub h).topk.find? (s.topkReady h) with
  | none => s
  | some c =>
    let r := TopkRec.ofBytes c.call
    let t := s.topkEval c.part h r
    let s := s.onHub h (fun u => { u with topk := u.topk.erase c })
    let s := ((s.topkTouch r).topkCount h t).topkWrite r.outAddr t
    let s := s.onStep c.part (fun st => { st with topkRes := st.topkRes ++ [(c.no, t.entries.map (·.2))] })
    s.completeToken c.src c.tok

/-- TOPK_MERGE (R147). -/
def execTopkMerge (hub : Fin 4) (s : State) : Host.Outcome State Fault Refusal := .next (s.topkMerge hub.val)

end Sys2Proof.Machine
end

