-- ==== Sys2Proof/Machine/Stop.lean ====
section
/-! DEFINITION. Starting, stopping and replaying the work of a partition's step (R23, R189, R205, R210, R313). -/
namespace Sys2Proof.Machine

/-- Cores of a partition's active set that the partition holds: (core number, group entries). -/
def State.setCores (s : State) (p : Nat) : List (Nat × List GroupEntry) :=
  (s.part p).setAct.groups.filter (fun e => ((s.part p).sets.getD (e.1 / 192) 0).testBit (e.1 % 192 / 16))

/-- The members of the module's cores that a partition holds. -/
def State.ownCores (s : State) (p : Nat) : List Nat :=
  (s.cores.map (·.1)).filter (fun c => ((s.part p).sets.getD (c / 192) 0).testBit (c % 192 / 16))

/-- A group as the start of a step leaves it: at its ENTRY with s0 to s3 set, everything else zero, and held as the first
waypoint (R205). -/
def startedGroup (entry s0 s1 s2 s3 : Nat) : Group :=
  let sc := [(0, s0), (1, s1), (2, s2), (3, s3)].foldl (fun m x => AMap.put m x.1 ({ v := x.2 } : PVal) {}) []
  { running := true, pc := entry, s := sc, savedPc := entry, savedS := sc, saved := true }

/-- Start every START group of a partition's cores (R205): all tiles zero, all event counters zero. A core that the set gives no group
keeps none of an earlier set. -/
def State.startGroups (p table : Nat) (s : State) : State :=
  let q := s.part p
  let base := s.partBase p
  let s := s.each (s.ownCores p) (fun c s => s.onCore c (fun u => { u with groups := [] }))
  let s := s.each (s.setCores p) (fun e s =>
    s.onCore e.1 (fun c => { c with
      tiles := [], bars := [], xfers := []
      groups := ((List.range e.2.length).zip e.2).foldl (fun m g =>
        if g.2.start then
          AMap.put m g.1 (startedGroup g.2.entry table q.stepsSinceSwitch (e.1 / 192 + e.1 % 192 * 256 + g.1 * 65536) base) {}
        else m) [] }))
  s.each (List.range 4) (fun h s =>
    s.onHub h (fun u => { u with events := u.events.filter (fun e => e.1 / 256 != p) }))

/-- Is the step program done: every started group has ended and no token is pending (R205). -/
def State.programDone (s : State) (p : Nat) : Bool :=
  (s.ownCores p).all (fun c => (s.core c).groups.all (fun g => !g.2.running && g.2.toks == 0)) &&
  (s.stacksOf p).all (fun k => (s.stk k).jobs.all (fun j => j.part != p)) &&
  (List.range 4).all (fun h => (s.hub h).topk.all (fun c => c.part != p) && (s.hub h).esc.all (fun e => e.part != p))

/-- Restore a pair from its start copy and free it (R313 step 3). -/
def Pair.undo (q : Pair) : Pair :=
  { q with st := 0, full := q.startFull, short := [], sE := q.startE, flags := q.startFlags, since := 0 }

/-- Stop every group, chain, call and transfer of a partition: rounds not accepted are discarded, pairs in ACCUM or REPLAY
go back to their start copies, READY pairs of stopped calls are freed (step 1 of R210, R313). -/
def State.stopWork (p : Nat) (s : State) : State :=
  let s := s.each (s.ownCores p) (fun c s =>
    s.onCore c (fun r => { r with
      xfers := [], bars := []
      groups := r.groups.map (fun g => (g.1, { g.2 with running := false, toks := 0, wait := .none })) }))
  let s := s.each (s.stacksOf p) (fun k s =>
    s.onStk k (fun u => { u with
      jobs := u.jobs.filter (fun j => j.part != p)
      firing := []
      pairs := u.pairs.map (fun e => (e.1, if e.2.st = 1 ∨ e.2.st = 3 then e.2.undo else { e.2 with st := 0 })) }))
  s.each (List.range 4) (fun h s =>
    s.onHub h (fun u => { u with
      vals := u.vals.filter (fun v => v.part != p), esc := u.esc.filter (fun e => e.part != p)
      topk := u.topk.filter (fun c => c.part != p), streams := u.streams.filter (fun r => r.part != p) }))

/-- What a replay keeps of an entry: nothing that sampling gave it, and the KVOP errors of the work before the waypoint (R232, R267). -/
def StepEntry.replayed (e : StepEntry) : StepEntry :=
  { e with sampled := 0xFFFFFFFF, drawn := [], path := [], bad := 0, opErr := e.opErrHeld }

/-- Is a call number one of sampling's draws. -/
def StepSt.drew (t : StepSt) (n : Nat) : Bool := match t.draws with | some (a, b) => decide (a ≤ n) && decide (n < b) | none => false

/-- A step that starts again from its latest waypoint: the calls after it and sampling's draws are to come again. Draws made before the
waypoint keep their numbers, so that each call enters the digest in its place (R267, R298). -/
def StepSt.restarted (t : StepSt) : StepSt :=
  { t with
    phase := .running, entries := t.entries.map StepEntry.replayed
    topkRes := t.topkRes.filter (fun x => decide (x.1 < t.topkKeep) && !t.drew x.1), topkNext := t.topkKeep
    draws := t.draws.filter (fun d => decide (d.1 < t.topkKeep)) }

/-- Resume the started groups at the latest waypoint: saved program counters, scalars and return stacks; vector registers,
predicates and tiles zero; scratch kept (step 2 of R210, R313). Sampling is to come again, and with it the event 255 (R256, R267); the
other event counters stand, for the spec names none that a replay restores (log entry 19). -/
def State.resumeWork (p : Nat) (s : State) : State :=
  let s := s.each (s.ownCores p) (fun c s =>
    s.onCore c (fun r => { r with
      tiles := []
      groups := r.groups.map (fun g => (g.1,
        if g.2.saved then { g.2 with running := true, pc := g.2.savedPc, s := g.2.savedS, ret := g.2.savedRet, v := [], p := [], pp := [] }
        else { running := false })) }))
  let s := s.each (List.range 4) (fun h s => s.onHub h (fun u => { u with events := AMap.erase u.events (256 * p + 255) }))
  s.onStep p StepSt.restarted |>.onStep p (fun t => { t with started := s.clk.devTime })

end Sys2Proof.Machine
end

