-- ==== Sys2Proof/Machine/Kve.lean ====
section
/-! DEFINITION. The key-value engine: pages, tables, the prefix tree, allocation, masks and the KVOP operations (R213 to
R234). The records are structured in the state and copied to memory at every change (log entry 16). -/
namespace Sys2Proof.Machine

/-! ### Free lists (R217) -/

/-- Items on a free list. -/
def FreeList.size (f : FreeList) : Nat := f.top.length + (f.count - f.next)
/-- Take the item on top. -/
def FreeList.pop (f : FreeList) : Option (Nat × FreeList) :=
  match f.top with
  | x :: t => some (x, { f with top := t })
  | [] => if f.next < f.count then some (f.next, { f with next := f.next + 1 }) else none
/-- Put an item on top. -/
def FreeList.push (f : FreeList) (x : Nat) : FreeList := { f with top := x :: f.top }
/-- Take n items, first taken first; the list is long enough. -/
def FreeList.popN : Nat → FreeList → List Nat × FreeList
  | 0, f => ([], f)
  | n + 1, f =>
    match f.pop with
    | some (x, g) => let (l, h) := FreeList.popN n g; (x :: l, h)
    | none => ([], f)

/-! ### Geometry (R213, R214) -/

/-- POS_LAYER_BYTES. -/
def State.kvPlb (s : State) (p : Nat) : Nat := s.rd R.KVE.GEOM_POS_LAYER_BYTES p
/-- LAYERS. -/
def State.kvLayers (s : State) (p : Nat) : Nat := s.rd R.KVE.GEOM_LAYERS p
/-- PAGE_BYTES. -/
def State.pageBytes (s : State) (p : Nat) : Nat := s.kvLayers p * 64 * s.kvPlb p
/-- First byte of a page. -/
def State.pageAddr (s : State) (p page : Nat) : Nat := s.rd R.KVE.POOL_BASE p + page * s.pageBytes p
/-- Address of the entry of a layer at a slot of a page. -/
def State.kvEntryAddr (s : State) (p page layer slot : Nat) : Nat := s.pageAddr p page + (64 * layer + slot) * s.kvPlb p
/-- The check array of the pool (R287). -/
def State.kvCheckBase (s : State) (p : Nat) : Nat := s.rd R.KVE.POOL_BASE p + s.rd R.KVE.PAGE_COUNT p * s.pageBytes p

/-- The engine reads a 4 KiB block of the pool with its check value. -/
def State.kvTouch (p b : Nat) (s : State) : State :=
  (s.touch (s.rd R.KVE.POOL_BASE p + 4096 * b) 4096).touch (s.kvCheckBase p + 4 * b) 4

/-- Blocks of the pool that a run of bytes touches. -/
def State.kvBlocks (s : State) (p a n : Nat) : List Nat :=
  let o := a - s.rd R.KVE.POOL_BASE p
  (List.range (cdiv (o + n) 4096 - o / 4096)).map (· + o / 4096)

/-- New check values of the 4 KiB blocks that a write has touched (R214, R288). -/
def State.kvRecheck (p a n : Nat) (s : State) : State :=
  let base := s.rd R.KVE.POOL_BASE p
  s.each (s.kvBlocks p a n) (fun b s =>
    (s.mwr (s.kvCheckBase p + 4 * b) (leBytes 4 (crc32c (s.mrd (base + 4096 * b) 4096)))).onPart p
      (fun q => { q with kvWritten := AMap.set q.kvWritten b 1 }))

/-- Is a 4 KiB block of the pool poisoned, or does it fail its check (R214, R288). -/
def State.kvBlockBad (s : State) (p b : Nat) : Bool :=
  let a := s.rd R.KVE.POOL_BASE p + 4096 * b
  let c := s.kvCheckBase p + 4 * b
  s.mbad a 4096 || (AMap.getD (s.part p).kvWritten b 0 != 0 && (s.mbad c 4 || crc32c (s.mrd a 4096) != s.mval c 4))

/-! ### Records in memory (R215, R220) -/

/-- All ones in 32 bits: "none" in the records. -/
def none32 : Nat := 0xFFFFFFFF

/-- SHARED of a sequence. -/
def Seq.shared (q : Seq) : Nat := q.nodes.length

/-- The 64-byte sequence record (R215); one that is not live has been cleared apart from PARKED (R218). -/
def Seq.image (q : Seq) : List Byte :=
  let fl := (if q.live then 1 else 0) + (if q.share then 2 else 0) + (if q.maskEmpty then 4 else 0) +
    (if q.poison != 0 then 8 else 0) + (if q.parked then 16 else 0)
  if !q.live then leBytes 32 0 ++ leBytes 1 (if q.parked then 16 else 0) ++ leBytes 31 0
  else leBytes 4 q.len ++ leBytes 4 (q.dir.getD 0) ++ leBytes 4 q.pages.length ++ leBytes 4 q.shared ++
    leBytes 4 (q.nodes.getLast?.getD none32) ++ leBytes 8 q.lastHash ++ leBytes 4 (q.cand.getD none32) ++ leBytes 1 fl ++ leBytes 31 0

/-- 256 table entries of 4 bytes: bit 31 VALID (R215). -/
def tableImage (l : List Nat) : List Byte :=
  (List.range 256).flatMap (fun i => leBytes 4 (match l[i]? with | some x => x + 2 ^ 31 | none => 0))

/-- Address of a sequence record. -/
def State.seqAddr (s : State) (p slot : Nat) : Nat := s.rd R.KVE.SEQ_BASE p + 64 * slot

/-- A sequence. -/
def State.seq (s : State) (p slot : Nat) : Option Seq := AMap.get? (s.part p).seqs slot

/-- Store a sequence, with its record and table blocks in memory. -/
def State.putSeq (p slot : Nat) (q : Seq) (s : State) : State :=
  let s := s.onPart p (fun r => { r with seqs := AMap.set r.seqs slot q })
  let s := s.mwr (s.seqAddr p slot) q.image
  let tb (b : Nat) := s.rd R.KVE.TBL_BASE p + 1024 * b
  let s := match q.dir with
    | some d => s.mwr (tb d) (tableImage q.leaves)
    | none => s
  s.each ((List.range q.leaves.length).zip q.leaves) (fun x s => s.mwr (tb x.2) (tableImage ((q.pages.drop (256 * x.1)).take 256)))

/-- Change a sequence. -/
def State.onSeq (p slot : Nat) (f : Seq → Seq) (s : State) : State :=
  match s.seq p slot with
  | some q => s.putSeq p slot (f q)
  | none => s

/-- Clear a sequence record. -/
def State.dropSeq (p slot : Nat) (s : State) : State :=
  (s.onPart p (fun r => { r with seqs := AMap.erase r.seqs slot })).mwr (s.seqAddr p slot) (leBytes 64 0)

/-- The 320-byte node record (R220). -/
def Node.image (n : Node) : List Byte :=
  leBytes 8 n.hash ++ leBytes 4 (n.parent.getD none32) ++ leBytes 4 n.page ++ leBytes 4 n.refcnt ++ leBytes 4 n.children ++
    leBytes 8 n.lastUse ++ leBytes 1 (1 + (if n.unshareable then 2 else 0)) ++ leBytes 31 0 ++ n.tokens.flatMap (leBytes 4)

/-- Store a node. -/
def State.putNode (p i : Nat) (n : Node) (s : State) : State :=
  (s.onPart p (fun r => { r with nodes := AMap.set r.nodes i n })).mwr (s.rd R.KVE.NODE_BASE p + 320 * i) n.image

/-- Change a node. -/
def State.onNode (p i : Nat) (f : Node → Node) (s : State) : State :=
  match AMap.get? (s.part p).nodes i with
  | some n => s.putNode p i (f n)
  | none => s

/-- Bucket of a hash (R220). -/
def State.bucketOf (s : State) (p h : Nat) : Nat := h % 2 ^ s.rd R.KVE.BUCKET_CTL_BUCKET_LOG2 p

/-- Node numbers of a bucket. -/
def State.bucket (s : State) (p b : Nat) : List Nat := AMap.getD (s.part p).buckets b []

/-- Store a bucket. A place without a node is zero: the spec gives no mark for it (DESIGN CHOICE, log entry 16). -/
def State.putBucket (p b : Nat) (l : List Nat) (s : State) : State :=
  let base := s.rd R.KVE.NODE_BASE p + 320 * s.rd R.KVE.NODE_COUNT p
  (s.onPart p (fun r => { r with buckets := AMap.put r.buckets b l [] })).mwr (base + 32 * b)
    ((List.range 8).flatMap (fun i => leBytes 4 (l.getD i 0)))

/-- Change the partition's page free list. -/
def State.onPages (p : Nat) (f : FreeList → FreeList) (s : State) : State :=
  s.onPart p (fun r => { r with pageFree := f r.pageFree })

/-! ### The prefix tree (R219 to R226) -/

/-- Chained hash of a full page of token IDs (R219). -/
def pageHash (prev : Nat) (toks : List Nat) : Nat := shake64 (leBytes 8 prev ++ toks.flatMap (leBytes 4))

/-- Remove a node: its page and record are free, it leaves its bucket and its parent's count. -/
def State.removeNode (p i : Nat) (s : State) : State :=
  match AMap.get? (s.part p).nodes i with
  | none => s
  | some n =>
    let b := s.bucketOf p n.hash
    let s := s.putBucket p b ((s.bucket p b).filter (· != i))
    let s := match n.parent with | some k => s.onNode p k (fun m => { m with children := m.children - 1 }) | none => s
    let s := s.onPart p (fun r => { r with nodes := AMap.erase r.nodes i, nodeFree := r.nodeFree.push i,
                                           pageFree := r.pageFree.push n.page })
    s.mwr (s.rd R.KVE.NODE_BASE p + 320 * i + 32) [0]

/-- The node that is evicted next: REFCNT and CHILDREN 0, oldest LAST_USE, then lowest number (R226). -/
def State.evictable (s : State) (p : Nat) : Option Nat :=
  ((s.part p).nodes.foldl (fun (b : Option (Nat × Nat)) e =>
    if e.2.refcnt = 0 ∧ e.2.children = 0 then
      match b with
      | some (_, u) => if e.2.lastUse < u then some (e.1, e.2.lastUse) else b
      | none => some (e.1, e.2.lastUse)
    else b) none).map (·.1)

/-- Evict one node. -/
def State.evictOne (p : Nat) (s : State) : State :=
  match s.evictable p with
  | some i => (s.removeNode p i).count R.KVE.EVICT_CNT p
  | none => s

/-- Evict until n pages are free, or none can be evicted. -/
def State.evictPages (p n : Nat) : Nat → State → State
  | 0, s => s
  | fuel + 1, s =>
    if n ≤ (s.part p).pageFree.size || (s.evictable p).isNone then s else State.evictPages p n fuel (s.evictOne p)

/-- Subtract one reference of a node; an UNSHAREABLE node without references is removed (R223). -/
def State.derefNode (p i : Nat) (s : State) : State :=
  let s := s.onNode p i (fun n => { n with refcnt := n.refcnt - 1 })
  match AMap.get? (s.part p).nodes i with
  | some n => if n.unshareable ∧ n.refcnt = 0 then s.removeNode p i else s
  | none => s

/-- Look up the ordinals of a prompt from n on (R221): `left` ordinals remain under the limit. -/
def State.lookupFrom (p slot : Nat) (prompt : List Nat) : Nat → Nat → State → State
  | 0, _, s => s
  | left + 1, n, s =>
    match s.seq p slot with
    | none => s
    | some q =>
      let toks := (prompt.drop (64 * n)).take 64
      let h := pageHash q.lastHash toks
      let s := s.count R.KVE.LOOKUP_PAGES p
      let cands := (s.bucket p (s.bucketOf p h)).filterMap (fun i => (AMap.get? (s.part p).nodes i).map (fun m => (i, m)))
      let near := cands.filter (fun x => x.2.hash == h && x.2.parent == q.nodes.getLast?)
      let clash := (near.filter (fun x => x.2.tokens != toks)).length
      let s := s.whenB (clash != 0) (fun s => (s.bump R.KVE.COLLIDE_CNT p clash).raise R.KVE.EVT_COLLIDE p)
      match near.find? (fun x => x.2.tokens == toks && !x.2.unshareable) with
      | none => s
      | some (i, m) =>
        let s := s.count R.KVE.HIT_PAGES p
        let s := s.onNode p i (fun m => { m with refcnt := m.refcnt + 1, lastUse := s.rd R.KVE.STEP_COUNT p })
        let s := s.onSeq p slot (fun q => { q with nodes := q.nodes ++ [i], pages := q.pages ++ [m.page], lastHash := h,
                                                   len := 64 * (n + 1) })
        State.lookupFrom p slot prompt left (n + 1) s

/-- The prefix lookup of a new sequence (R221). -/
def State.lookup (p slot : Nat) (prompt : List Nat) (s : State) : State :=
  match s.seq p slot with
  | some q =>
    if q.isNew && q.share && s.is R.KVE.SHARE_CTL_SHARE_EN p then
      s.lookupFrom p slot prompt ((prompt.length - 1) / 64) 0
    else s
  | none => s

/-! ### Allocation (R216, R218) -/

/-- An empty record of a sequence. -/
def State.freshSeq (s : State) (p : Nat) (share : Bool) : Seq := { share := share, lastHash := s.rd R.KVE.HASH_SEED p }

/-- The cleared record of a new sequence that is parked (R218). -/
def parkedSeq : Seq := { live := false, parked := true }

/-- Park an entry: a new sequence's lookup is undone and its record cleared (R218). -/
def State.park (p slot : Nat) (s : State) : State :=
  let s := match s.seq p slot with
    | some q =>
      if q.isNew then
        (s.each q.nodes (fun i s => s.derefNode p i)).putSeq p slot parkedSeq
      else s.putSeq p slot { q with parked := true }
    | none => s
  (s.count R.KVE.PARK_CNT p).raise R.KVE.EVT_PAGE_PRESSURE p

/-- Allocate the pages, candidate page and table blocks of an entry whose last position with candidates is `last`, all or
none. Answers whether it has them. -/
def State.allocEntry (p slot last : Nat) (tree : Bool) (s : State) : State × Bool :=
  match s.seq p slot with
  | none => (s, false)
  | some q0 =>
    let target := max (last / 64 + 1) q0.pages.length
    let pgs := target - q0.pages.length
    let need := pgs + (if tree then 1 else 0)
    let leaves := cdiv target 256 - q0.leaves.length
    let blks := leaves + (if q0.dir.isNone then 1 else 0)
    let s := s.evictPages p need (s.part p).nodes.length
    let r := s.part p
    if r.pageFree.size < need || r.tblFree.size < blks then (s.park p slot, false)
    else
      let (ps, pf) := r.pageFree.popN pgs
      let (cs, pf) := pf.popN (need - pgs)
      let (ls, tf) := r.tblFree.popN leaves
      let (ds, tf) := tf.popN (blks - leaves)
      let s := s.onPart p (fun r => { r with pageFree := pf, tblFree := tf })
      (s.onSeq p slot (fun q => { q with
        pages := q.pages ++ ps, cand := cs.head?, leaves := q.leaves ++ ls
        dir := (match q.dir with | some d => some d | none => ds.head?), parked := false, isNew := false }), true)

/-! ### Release (R225) -/

/-- Release the candidate page of a sequence. -/
def State.releaseCand (p slot : Nat) (s : State) : State :=
  match (s.seq p slot).bind (·.cand) with
  | some c => (s.onSeq p slot (fun q => { q with cand := none })).onPages p (·.push c)
  | none => s

/-- Release a sequence: pages by ordinal, then the leaves, then the directory (R225 step 4). -/
def State.releaseSeq (p slot : Nat) (s : State) : State :=
  let s := s.releaseCand p slot
  match s.seq p slot with
  | none => s
  | some q =>
    let s := s.each ((List.range q.pages.length).zip q.pages) (fun x s =>
      match q.nodes[x.1]? with
      | some i => s.derefNode p i
      | none => s.onPages p (·.push x.2))
    let s := s.onPart p (fun r => { r with
      tblFree := (match q.dir with | some d => [d] | none => []).foldl FreeList.push (q.leaves.foldl FreeList.push r.tblFree) })
    s.dropSeq p slot

/-- Release every page at an ordinal wholly beyond LEN − 1 (R234 step 4). -/
def State.trimPages (p slot : Nat) (s : State) : State :=
  match s.seq p slot with
  | none => s
  | some q =>
    let keep := cdiv q.len 64
    let drop := q.pages.drop keep
    if drop.isEmpty then s
    else (s.onPart p (fun r => { r with pageFree := drop.foldl FreeList.push r.pageFree })).putSeq p slot
      { q with pages := q.pages.take keep }

/-! ### Insert (R222) -/

/-- A skipped insert: the chain of the sequence is broken. -/
def State.insertSkip (p slot : Nat) (s : State) : State :=
  ((s.onSeq p slot (fun q => { q with broken := true })).count R.KVE.INSERT_SKIP_CNT p).raise R.KVE.EVT_INSERT_SKIP p

/-- Insert the next full ordinal of a sequence as a tree node (R222). -/
def State.insertOne (p slot : Nat) (s : State) : State :=
  match s.seq p slot with
  | none => s
  | some q =>
    let page := q.pages.getD q.shared 0
    let toks := AMap.getD (s.part p).tokens page []
    let h := pageHash q.lastHash toks
    let b := s.bucketOf p h
    let twin := (s.bucket p b).any (fun i => match AMap.get? (s.part p).nodes i with
      | some m => m.hash == h && m.parent == q.nodes.getLast? && m.tokens == toks
      | none => false)
    if twin then s.insertSkip p slot
    else if 8 ≤ (s.bucket p b).length then s.insertSkip p slot
    else
      let s := if (s.part p).nodeFree.size = 0 then s.evictOne p else s
      match (s.part p).nodeFree.pop with
      | none => s.insertSkip p slot
      | some (i, nf) =>
        if 8 ≤ (s.bucket p b).length then s.insertSkip p slot
        else
          let s := s.onPart p (fun r => { r with nodeFree := nf })
          let s := s.putNode p i { hash := h, parent := q.nodes.getLast?, page := page, refcnt := 1, children := 0,
                                   lastUse := s.rd R.KVE.STEP_COUNT p, tokens := toks }
          let s := s.putBucket p b (s.bucket p b ++ [i])
          let s := match q.nodes.getLast? with | some k => s.onNode p k (fun m => { m with children := m.children + 1 }) | none => s
          s.onSeq p slot (fun q => { q with nodes := q.nodes ++ [i], lastHash := h })

/-- Insert every full committed ordinal whose chain is unbroken. -/
def State.insertFull (p slot : Nat) : Nat → State → State
  | 0, s => s
  | fuel + 1, s =>
    match s.seq p slot with
    | some q =>
      if q.share && s.is R.KVE.SHARE_CTL_SHARE_EN p && !q.broken && decide (64 * (q.shared + 1) ≤ q.len) then
        State.insertFull p slot fuel (s.insertOne p slot)
      else s
    | none => s

/-! ### Flush and enable (R217, R224, R238) -/

/-- Remove every node without references, and make the others UNSHAREABLE (R224). -/
def State.flushTree (p : Nat) (s : State) : State :=
  let s := s.each ((s.part p).nodes.filter (fun e => e.2.refcnt == 0)) (fun e s => s.removeNode p e.1)
  let s := s.each (s.part p).nodes (fun e s => s.onNode p e.1 (fun n => { n with unshareable := true }))
  (s.onPart p (fun r => { r with flushPend := false })).raise R.KVE.EVT_FLUSHED p

/-- Set up the engine at an accepted write of 1 to EN (R217, R238): free lists, and an empty tree, sequence records and table blocks in
memory. -/
def State.kveInit (p : Nat) (s : State) : State :=
  let s := s.zeroMem (s.rd R.KVE.SEQ_BASE p) (64 * 65536)
  let s := s.zeroMem (s.rd R.KVE.NODE_BASE p) (320 * s.rd R.KVE.NODE_COUNT p + 32 * 2 ^ s.rd R.KVE.BUCKET_CTL_BUCKET_LOG2 p)
  let s := s.zeroMem (s.rd R.KVE.TBL_BASE p) (1024 * s.rd R.KVE.TBL_COUNT p)
  (s.onPart p (fun r => { r with
    seqs := [], nodes := [], buckets := [], kvWritten := [], flushPend := false
    pageFree := { count := s.rd R.KVE.PAGE_COUNT p }, tblFree := { count := s.rd R.KVE.TBL_COUNT p }
    nodeFree := { count := s.rd R.KVE.NODE_COUNT p } })).wr R.KVE.STEP_COUNT p 0

/-! ### Masks (R228) -/

/-- WINDOW of a mask entry. -/
def maskWindow (m : Nat) : Nat := bits m 0 23
/-- NOSELF of a mask entry. -/
def maskNoself (m : Nat) : Bool := m.testBit 24

/-- P_last of an entry. -/
def StepEntry.last (e : StepEntry) : Nat := e.first + e.n - 1

/-- Depth of a candidate node: children of the root have depth 1 (R233). -/
def treeDepth (tree : List (Nat × Nat)) : Nat → Nat → Nat
  | 0, _ => 0
  | fuel + 1, i =>
    match tree[i]? with
    | some (par, _) => if par = 0xFF then 1 else treeDepth tree fuel par + 1
    | none => 0

/-- Depth of node i of an entry's tree. -/
def StepEntry.depthOf (e : StepEntry) (i : Nat) : Nat := treeDepth e.tree 65 i

/-- Is node a an ancestor of node i. -/
def isAncestor (tree : List (Nat × Nat)) : Nat → Nat → Nat → Bool
  | 0, _, _ => false
  | fuel + 1, a, i =>
    match tree[i]? with
    | some (par, _) => par != 0xFF && (par == a || isAncestor tree fuel a par)
    | none => false

/-- Position of a query: a real position, or a candidate node with its position. -/
def StepEntry.queryPos (e : StepEntry) (k : Nat) : Nat :=
  if k < e.n then e.first + k else e.last + e.depthOf (k - e.n)

/-- Is a position inside the window of a query. -/
def inWindow (m p q : Nat) : Bool := maskWindow m == 0 || decide (p < q + maskWindow m)

/-- May query k attend to real position q (R228). -/
def StepEntry.mayReal (e : StepEntry) (m k q : Nat) : Bool :=
  let p := e.queryPos k
  inWindow m p q &&
    (if k < e.n then decide (q < p) || (q == p && !maskNoself m) else decide (q ≤ e.last))

/-- May query k attend to candidate node j (R228). -/
def StepEntry.mayNode (e : StepEntry) (m k j : Nat) : Bool :=
  decide (e.n ≤ k) && decide (j < e.tree.length) &&
    (let i := k - e.n
     inWindow m (e.queryPos k) (e.last + e.depthOf j) &&
       (isAncestor e.tree 65 j i || (j == i && !maskNoself m)))

/-- The mask of a query over a page: sequence page of an ordinal, or the candidate page. -/
def StepEntry.mask (e : StepEntry) (m k : Nat) (ord : Option Nat) : Nat :=
  maskOf ((List.range 64).filter (fun j => match ord with
    | some n => e.mayReal m k (64 * n + j)
    | none => e.mayNode m k j))

/-- Is the mask of a query over the whole sequence empty (R231). -/
def StepEntry.maskEmpty (e : StepEntry) (m k : Nat) : Bool :=
  let p := e.queryPos k
  let top : Option Nat := if k < e.n then (if maskNoself m then (if p = 0 then none else some (p - 1)) else some p) else some e.last
  let real := match top with
    | some q => inWindow m p q
    | none => false
  !real && (List.range e.tree.length).all (fun j => !e.mayNode m k j)

/-! ### KVOP operations (R230 to R232) -/

/-- A KVOP in error: counted, and the entry's request ends at commit (R232). -/
def State.kvError (p entry : Nat) (s : State) : State :=
  let s := (s.count R.KVE.OP_ERR_CNT p).raise R.KVE.EVT_OP_ERR p
  s.onStep p (fun t => { t with entries := (List.range t.entries.length).zip t.entries |>.map (fun x =>
    if x.1 = entry then { x.2 with opErr := true } else x.2) })

/-- Mask entry of a layer as read at formation. -/
def State.layerMask (s : State) (p layer : Nat) : Nat := (s.part p).step.masks.getD layer 0

/-- Record poison consumed by an entry (R317). -/
def State.consume (p slot o : Nat) (s : State) : State :=
  if o = 0 then s else s.onSeq p slot (fun q => { q with poison := q.poison ||| o })

/-- Page and slot of an append offset: real positions in their pages, candidate nodes in the candidate page. -/
def Seq.place (q : Seq) (e : StepEntry) (k : Nat) : Option (Nat × Nat) :=
  if k < e.n then
    let pos := e.first + k
    if pos / 64 < q.shared then none else (q.pages[pos / 64]?).map (fun pg => (pg, pos % 64))
  else q.cand.map (fun pg => (pg, k - e.n))

/-- Pages and slots of an APPEND's entries; none when the operation is in error (R232). -/
def State.appendPlaces (s : State) (p : Nat) (e : StepEntry) (layer k count : Nat) : Option (List (Nat × Nat)) :=
  match s.seq p e.slot with
  | none => none
  | some q =>
    let places := (List.range count).map (fun i => q.place e (k + i))
    if decide (s.kvLayers p ≤ layer) || decide (e.n + e.tree.length < k + count) || places.any (·.isNone) || count = 0 ||
       decide (4096 < count) then none
    else some (places.filterMap id)

/-- Bursts that an APPEND writes, in order. -/
def State.appendBursts (s : State) (p entry layer k count : Nat) : List Nat :=
  match (s.part p).step.entries[entry]? with
  | none => []
  | some e => ((s.appendPlaces p e layer k count).getD []).flatMap (fun x =>
      touchedBursts (s.kvEntryAddr p x.1 layer x.2) (s.kvPlb p))

/-- Write one entry from scratch with the poison of each of its bursts (R285). -/
def State.appendOne (p cn src a : Nat) (s : State) : State :=
  let plb := s.kvPlb p
  let c := s.core cn
  let ps := (List.range (plb / 64)).filter (fun i => c.poi (src + 64 * i) 64 != 0)
  (s.mwrP a (c.rd src plb) (ps.map (· + a / 64))).kvRecheck p a plb

/-- APPEND (R230): entries from scratch go to their slots. -/
def State.kvAppend (p cn scr entry layer k count : Nat) (s : State) : State :=
  match (s.part p).step.entries[entry]? with
  | none => (s.count R.KVE.OP_ERR_CNT p).raise R.KVE.EVT_OP_ERR p
  | some e =>
    match s.appendPlaces p e layer k count with
    | none => s.kvError p entry
    | some places =>
      let plb := s.kvPlb p
      s.each ((List.range count).zip places) (fun x s =>
        let src := scr + plb * x.1
        (s.appendOne p cn src (s.kvEntryAddr p x.2.1 layer x.2.2)).consume p e.slot ((s.core cn).poi src plb))

/-- A bad block of a page: counted, and a tree page's node becomes UNSHAREABLE (R214, R223). -/
def State.pagePoison (p page : Nat) (s : State) : State :=
  let s := (s.count R.KVE.PAGE_POISON_CNT p).raise R.KVE.EVT_PAGE_POISON p
  match (s.part p).nodes.find? (fun e => e.2.page == page) with
  | some e => s.onNode p e.1 (fun n => { n with unshareable := true })
  | none => s

/-- Zero masks of a FETCH (R232). -/
def State.zeroMasks (p cn scr count : Nat) (s : State) : State :=
  s.scrWr cn (scr + 64 * s.kvPlb p) (leBytes (8 * count) 0) 0

/-- The page of a FETCH; none when the operation is in error (R232). -/
def State.fetchPage (s : State) (p : Nat) (e : StepEntry) (layer : Nat) (ord : Option Nat) (k count : Nat) : Option Nat :=
  if decide (s.kvLayers p ≤ layer) || decide (e.n + e.tree.length < k + count) || count = 0 || decide (64 < count) then none
  else (s.seq p e.slot).bind (fun q => match ord with | some n => q.pages[n]? | none => q.cand)

/-- Masks of a FETCH, one for each query. -/
def State.fetchMasks (s : State) (p : Nat) (e : StepEntry) (layer : Nat) (ord : Option Nat) (k count : Nat) : List Nat :=
  (List.range count).map (fun i => e.mask (s.layerMask p layer) (k + i) ord)

/-- Bursts that a FETCH reads, in order: none when every mask is zero. -/
def State.fetchBursts (s : State) (p entry layer : Nat) (ord : Option Nat) (k count : Nat) : List Nat :=
  match (s.part p).step.entries[entry]? with
  | none => []
  | some e =>
    match s.fetchPage p e layer ord k count with
    | none => []
    | some page =>
      if (s.fetchMasks p e layer ord k count).all (· == 0) then []
      else touchedBursts (s.kvEntryAddr p page layer 0) (64 * s.kvPlb p)

/-- Deliver block b of the pool to scratch, with poison when it is bad (R214, R223). -/
def State.fetchBlock (p cn slot page b dst : Nat) (s : State) : State :=
  let bad := s.kvBlockBad p b
  let s := s.kvTouch p b
  let s := s.scrWr cn dst (s.mrd (s.rd R.KVE.POOL_BASE p + 4096 * b) 4096) (if bad then oRequest else 0)
  s.whenB bad (fun s => (s.pagePoison p page).consume p slot oRequest)

/-- FETCH (R230): the page-layer, then one mask per query; all masks zero: the masks alone. An entry that the running step does not have
concerns no request: the counter and the flag are the only effects (R232). -/
def State.kvFetch (p cn scr entry layer : Nat) (ord : Option Nat) (k count : Nat) (s : State) : State :=
  match (s.part p).step.entries[entry]? with
  | none => (s.count R.KVE.OP_ERR_CNT p).raise R.KVE.EVT_OP_ERR p
  | some e =>
    match s.fetchPage p e layer ord k count with
    | none => (s.kvError p entry).zeroMasks p cn scr count
    | some page =>
      let masks := s.fetchMasks p e layer ord k count
      let plb := s.kvPlb p
      let s :=
        if masks.all (· == 0) then s
        else
          s.each ((List.range (64 * plb / 4096)).zip (s.kvBlocks p (s.kvEntryAddr p page layer 0) (64 * plb))) (fun x s =>
            s.fetchBlock p cn e.slot page x.2 (scr + 4096 * x.1))
      s.scrWr cn (scr + 64 * plb) (masks.flatMap (leBytes 8)) 0

/-- QEND (R231): an empty mask's output becomes +0. -/
def State.kvQend (p cn scr entry layer k bytes : Nat) (s : State) : State :=
  match (s.part p).step.entries[entry]? with
  | none => (s.count R.KVE.OP_ERR_CNT p).raise R.KVE.EVT_OP_ERR p
  | some e =>
    if decide (s.kvLayers p ≤ layer) || decide (e.n + e.tree.length ≤ k) || bytes % 4 != 0 then s.kvError p entry
    else if e.maskEmpty (s.layerMask p layer) k then
      let s := s.scrWr cn scr (leBytes bytes 0) 0
      ((s.onSeq p e.slot (fun q => { q with maskEmpty := true })).count R.KVE.MASK_EMPTY_CNT p).raise R.KVE.EVT_MASK_EMPTY p
    else s

/-! ### The accepted path (R234) -/

/-- Copy the entry of a layer from one page to another (R234): each block read is checked on the way, and one that is bad leaves the
block written poisoned as a whole. A whole block takes its check value with it; a part changes the block, which gets a new value (R288). -/
def State.copyEntry (p src dst : Nat) (s : State) : State :=
  let plb := s.kvPlb p
  let base := s.rd R.KVE.POOL_BASE p
  let bs := s.kvBlocks p src plb
  let bad := bs.filter (s.kvBlockBad p)
  let s := s.each bs (fun b s => s.kvTouch p b)
  let s := s.each bad (fun _ s => (s.count R.KVE.PAGE_POISON_CNT p).raise R.KVE.EVT_PAGE_POISON p)
  let s := (s.mwrP dst (s.mrd src plb)
    (if bad.isEmpty then [] else (s.kvBlocks p dst plb).flatMap (fun b => touchedBursts (base + 4096 * b) 4096))).kvRecheck p dst plb
  if plb = 4096 then
    s.mwr (s.kvCheckBase p + 4 * ((dst - base) / 4096)) (s.mrd (s.kvCheckBase p + 4 * ((src - base) / 4096)) 4)
  else s

/-- Copy the entries of an accepted node path from the candidate page to the positions after P_last, and release it. -/
def State.copyPath (p : Nat) (e : StepEntry) (path : List Nat) (s : State) : State :=
  match s.seq p e.slot with
  | none => s
  | some q =>
    match q.cand with
    | none => s
    | some cp =>
      let s := s.each ((List.range path.length).zip path) (fun x s =>
        let pos := e.last + 1 + x.1
        match q.pages[pos / 64]? with
        | none => s
        | some pg => s.each (List.range (s.kvLayers p)) (fun l s => s.copyEntry p (s.kvEntryAddr p cp l x.2) (s.kvEntryAddr p pg l (pos % 64))))
      let s := (s.bump R.KVE.SPEC_NODES_CNT p e.tree.length).bump R.KVE.SPEC_ACCEPT_CNT p path.length
      s.releaseCand p e.slot

end Sys2Proof.Machine
end

