-- ==== Sys2Proof/Machine/Admission.lean ====
section
/-! DEFINITION. Admission, cancellation, ends and preemption of requests, and the response rings (R239 to R248, R261 to
R266, R408). -/
namespace Sys2Proof.Machine

/-! ### Response rings (R239, R408) -/

/-- A frame of the host link: header, payload, zero padding to 16 bytes (R400). -/
def linkFrame (type tag : Nat) (payload : List Byte) : List Byte :=
  leBytes 4 type ++ leBytes 4 payload.length ++ leBytes 8 tag ++ payload ++
    leBytes ((16 - payload.length % 16) % 16) 0

/-- Bytes of a partition's response ring (HLK_RSP_MIB, banked by partition). -/
def State.ringSize (s : State) (p : Nat) : Nat := s.rd R.HLK.RSP_MIB (1 + p) * 2 ^ 20

/-- Bytes that the frames in a partition's ring take. -/
def State.ringUsed (s : State) (p : Nat) : Nat := (s.part p).resp.foldl (fun a f => a + f.length) 0

/-- Bytes free in a partition's ring. -/
def State.ringFree (s : State) (p : Nat) : Nat := s.ringSize p - s.ringUsed p

/-- Write bytes into the ring from an offset, wrapping at its end. -/
def State.ringWrite (p off : Nat) (bs : List Byte) (s : State) : State :=
  let base := s.rd R.HLK.RSP_BASE (1 + p)
  let first := bs.take (s.ringSize p - off)
  let s := s.mwr (base + off) first
  if bs.length ≤ s.ringSize p - off then s else s.mwr base (bs.drop (s.ringSize p - off))

/-- Put a frame into the partition's ring, or let it wait for room (R408). -/
def State.pushFrame (p : Nat) (f : List Byte) (s : State) : State :=
  if (s.part p).respWait.isEmpty ∧ f.length ≤ s.ringFree p then
    let off := (s.part p).respHead
    (s.ringWrite p off f).onPart p (fun q => { q with resp := q.resp ++ [f], respHead := (off + f.length) % (s.ringSize p) })
  else s.onPart p (fun q => { q with respWait := q.respWait ++ [f] })

/-- Frames that waited go into the ring while there is room. -/
def State.drainWait (p : Nat) : Nat → State → State
  | 0, s => s
  | fuel + 1, s =>
    match (s.part p).respWait with
    | [] => s
    | f :: t =>
      if f.length ≤ s.ringFree p then
        let off := (s.part p).respHead
        State.drainWait p fuel ((s.ringWrite p off f).onPart p (fun q => { q with
          resp := q.resp ++ [f], respWait := t, respHead := (off + f.length) % (s.ringSize p) }))
      else s

/-- RESPONSE kinds. -/
def kTokens : Nat := 0
/-- FINAL. -/
def kFinal : Nat := 1
/-- CANCEL_RESULT. -/
def kCancelResult : Nat := 2

/-- Payload of a RESPONSE (R239). -/
def respPayload (reqId kind status flags outIndex time part : Nat) (toks : List Nat) : List Byte :=
  leBytes 8 reqId ++ leBytes 1 kind ++ leBytes 1 status ++ leBytes 1 flags ++ leBytes 1 toks.length ++ leBytes 4 outIndex ++
    leBytes 8 time ++ leBytes 1 part ++ leBytes 7 0 ++ toks.flatMap (leBytes 4)

/-- Serving control produces a RESPONSE frame for a partition (R239, R408). -/
def State.respond (p : Nat) (payload : List Byte) (s : State) : State := s.pushFrame p (linkFrame 6 0 payload)

/-! ### Status codes (R240) -/

/-- STOP. -/
def stStop : Nat := 0x00
/-- MAX. -/
def stMax : Nat := 0x01
/-- LENGTH. -/
def stLength : Nat := 0x02
/-- CANCELLED. -/
def stCancelled : Nat := 0x10
/-- DEADLINE. -/
def stDeadline : Nat := 0x11
/-- ENDED. -/
def stEnded : Nat := 0x12
/-- ALREADY_FINISHED. -/
def stAlready : Nat := 0x13
/-- POISONED. -/
def stPoisoned : Nat := 0x20
/-- INTERNAL. -/
def stInternal : Nat := 0x21
/-- NUMERIC. -/
def stNumeric : Nat := 0x22
/-- REJ_FORMAT. -/
def stRejFormat : Nat := 0x30
/-- WRONG_STATE. -/
def stWrongState : Nat := 0x31
/-- REJ_FULL. -/
def stRejFull : Nat := 0x32
/-- REJ_DUP_ID. -/
def stRejDup : Nat := 0x33
/-- REJ_PROMPT_SPACE. -/
def stRejSpace : Nat := 0x34

/-! ### Hampers (R244, R245) -/

/-- SHARE. -/
def Hamper.share (h : Hamper) : Bool := h.q.flags.testBit 0
/-- SPEC. -/
def Hamper.spec (h : Hamper) : Bool := h.q.flags.testBit 2
/-- NODES of the candidate tree record. -/
def Hamper.nodes (h : Hamper) : Nat := fieldLE h.tree 0 4

/-- A list of bytes cut or filled with zeros to n bytes. -/
def padTo (n : Nat) (l : List Byte) : List Byte := l.take n ++ leBytes (n - l.length) 0

/-- The 4,096 bytes of a hamper (R244). -/
def Hamper.image (h : Hamper) (endPend : Bool) : List Byte :=
  let fl := h.q.flags % 8 + (if h.cancelSeen then 8 else 0) + (if h.maskPend then 16 else 0) +
    (if h.countFull then 32 else 0) + (if h.preempted then 64 else 0) + (if endPend then 128 else 0)
  leBytes 8 h.q.reqId ++ leBytes 8 h.admSeq ++ leBytes 8 h.q.deadline ++ leBytes 8 h.q.seed ++ leBytes 8 h.admTime ++
    leBytes 1 h.state ++ leBytes 1 h.q.cls ++ leBytes 1 fl ++ leBytes 1 h.q.stops.length ++ leBytes 4 h.promptLen ++
    leBytes 4 h.q.maxTokens ++ leBytes 4 h.outIndex ++ leBytes 4 h.lastToken ++ leBytes 4 h.q.temp ++ leBytes 4 h.q.topP ++
    leBytes 2 h.q.topK ++ leBytes 2 h.q.specNodes ++ leBytes 4 h.q.rep ++ leBytes 4 h.q.presence ++ leBytes 4 h.q.frequency ++
    leBytes 4 h.counts.length ++
    leBytes 8 (match h.ringOff with | some o => 64 * o | none => 2 ^ 64 - 1) ++ leBytes 8 h.generation ++ leBytes 152 0 ++
    padTo 16 (h.q.stops.map (fun x => BitVec.ofNat 8 x.length)) ++
    padTo 1024 (h.q.stops.flatMap (fun x => padTo 64 (x.flatMap (leBytes 4)))) ++ padTo 576 h.tree ++ leBytes 2224 0

/-- Address of a hamper. -/
def State.hamperAddr (s : State) (p slot : Nat) : Nat := s.rd R.SRV.HAMPER_BASE p + 4096 * slot

/-- A hamper of a partition. -/
def State.hamper (s : State) (p slot : Nat) : Option Hamper := AMap.get? (s.part p).hampers slot

/-- Store a hamper, its bytes in memory with it (log entry 16). -/
def State.putHamper (p slot : Nat) (h : Hamper) (s : State) : State :=
  (s.onPart p (fun q => { q with hampers := AMap.set q.hampers slot h })).mwr (s.hamperAddr p slot) (h.image h.endPend)

/-- Requests of a partition that meet a test, in the order of ADM_SEQ (R243): (slot, hamper). -/
def PartSt.byAdm (q : PartSt) (f : Nat → Hamper → Bool) : List (Nat × Hamper) :=
  sortBy (fun a b => decide (a.2.admSeq ≤ b.2.admSeq)) (q.hampers.filter (fun e => f e.1 e.2))

/-- Change a hamper. -/
def State.onHamper (p slot : Nat) (f : Hamper → Hamper) (s : State) : State :=
  match s.hamper p slot with
  | some h => s.putHamper p slot (f h)
  | none => s

/-- Add one to a token's count (R245): a count stops at 255, and a table of 4,096 entries takes no new token. Answers the
table and whether a token was left out. -/
def countIn (tok : Nat) (l : List (Nat × Nat)) : List (Nat × Nat) × Bool :=
  if l.any (fun e => e.1 == tok) then (l.map (fun e => if e.1 = tok then (e.1, min 255 (e.2 + 1)) else e), false)
  else if l.length < 4096 then (insertBy (fun a b => decide (a.1 ≤ b.1)) (tok, 1) l, false)
  else (l, true)

/-- Count a token for a request. -/
def Hamper.countTok (tok : Nat) (h : Hamper) : Hamper :=
  let (l, full) := countIn tok h.counts
  { h with counts := l, countFull := h.countFull || full }

/-- Write a request's count table to memory (R245). -/
def State.putCounts (p slot : Nat) (h : Hamper) (s : State) : State :=
  s.mwr (s.rd R.SRV.CNT_BASE p + 16384 * slot) (h.counts.flatMap (fun e => leBytes 4 (e.1 % 2 ^ 24 + e.2 * 2 ^ 24)))

/-! ### The prompt ring (R246) -/

/-- The place of an extent of u units: none when neither place has room. An empty ring has room wherever the extent fits
(DEDUCED, log entry 17). -/
def PartSt.extentAt (q : PartSt) (size u : Nat) : Option Nat :=
  match q.ring with
  | [] => if u ≤ size then (if q.ringHead + u ≤ size then some q.ringHead else some 0) else none
  | t :: _ =>
    if t.off < q.ringHead then
      (if q.ringHead + u ≤ size then some q.ringHead else if u ≤ t.off then some 0 else none)
    else if q.ringHead + u ≤ t.off then some q.ringHead else none

/-- Take an extent for a slot and write its tokens. -/
def State.takeExtent (p slot off : Nat) (toks : List Nat) (s : State) : State :=
  let u := cdiv (4 * toks.length) 64
  (s.onPart p (fun q => { q with ring := q.ring ++ [{ off := off, len := u, slot := slot }], ringHead := off + u })).mwr
    (s.rd R.SRV.RING_BASE p + 64 * off) (toks.flatMap (leBytes 4))

/-- Drop released extents at the tail. -/
def dropReleased : List Extent → List Extent
  | [] => []
  | e :: t => if e.released then dropReleased t else e :: t

/-- Release a request's extent; the tail passes released extents (R246). -/
def State.releaseExtent (p slot : Nat) (s : State) : State :=
  match (s.hamper p slot).bind (·.ringOff) with
  | none => s
  | some o =>
    let s := s.onPart p (fun q => { q with
      ring := dropReleased (q.ring.map (fun e => if e.slot = slot ∧ e.off = o then { e with released := true } else e)) })
    s.onHamper p slot (fun h => { h with ringOff := none })

/-! ### Ends of requests -/

/-- The entry of a slot in the running step. -/
def State.entryOf (s : State) (p slot : Nat) : Option Nat :=
  if s.stepRuns p then (s.part p).step.entries.findIdx? (fun e => e.slot == slot) else none

/-- FLAGS of a request's next RESPONSE (R239). -/
def Hamper.respFlags (h : Hamper) : Nat :=
  (if h.maskPend then 1 else 0) + (if h.countFull then 2 else 0) + (if h.preempted then 4 else 0)

/-- Free a hamper: its sequence and ring extent are released (R225, R246, R260). A preemption that waits for the slot is refused, for
its request has ended (R264, R267). -/
def State.freeHamper (p slot : Nat) (s : State) : State :=
  let s := match s.hamper p slot with
    | some h => s.whenB h.preemptReq (fun s => s.raise R.SRV.EVT_PREEMPT_REFUSED p)
    | none => s
  ((s.releaseSeq p slot).releaseExtent p slot).onPart p (fun q => { q with hampers := AMap.erase q.hampers slot })

/-- Counters and flags of an end (R268). -/
def State.countEnd (p status : Nat) (s : State) : State :=
  let s := s.whenB (status == stCancelled) (fun s => s.count R.SRV.CANCEL_CNT p)
  let s := s.whenB (status == stDeadline) (fun s => s.count R.SRV.DEADLINE_CNT p)
  let s := s.whenB (status == stInternal || status == stNumeric || status == stPoisoned) (fun s => s.count R.SRV.INTERNAL_CNT p)
  s.whenB (status == stInternal || status == stNumeric) (fun s => s.raise R.SRV.EVT_INTERNAL_END p)

/-- Send a request's FINAL with its tokens and put it in ENDING (R248, R260). `first` is the output index of the first
token. -/
def State.finalise (p slot status time first : Nat) (toks : List Nat) (s : State) : State :=
  match s.hamper p slot with
  | none => s
  | some h =>
    let s := (s.respond p (respPayload h.q.reqId kFinal status h.respFlags first time p toks)).countEnd p status
    s.putHamper p slot { h with state := 4, maskPend := false, preempted := false }

/-- Send a CANCEL_RESULT; every RESPONSE of a request whose count table has been full says so (R245). -/
def State.cancelResult (p reqId status time : Nat) (full : Bool) (s : State) : State :=
  s.respond p (respPayload reqId kCancelResult status (if full then 2 else 0) 0 time p [])

/-- End a request with its FINAL and a CANCEL_RESULT for each CANCEL that waited for its end (R260, R262); its extent is released then
(R246). -/
def State.endReq (p slot status time first : Nat) (toks : List Nat) (s : State) : State :=
  match s.hamper p slot with
  | none => s
  | some h =>
    let s := s.finalise p slot status time first toks
    let s := s.each (List.range h.cancels) (fun _ s => s.cancelResult p h.q.reqId status time h.countFull)
    (s.onHamper p slot (fun h => { h with cancels := 0 })).releaseExtent p slot

/-- A request ends at once, without tokens; its hamper is freed now when no step runs, else at the next commit (R248, R261). -/
def State.endNow (p slot status time : Nat) (s : State) : State :=
  match s.hamper p slot with
  | none => s
  | some h =>
    let s := s.endReq p slot status time h.outIndex []
    if s.stepRuns p then s else s.freeHamper p slot

/-! ### Admission (R241 to R246) -/

/-- a ≤ b for numbers. -/
def fpLe (a b : Nat) : Bool := fpLt a b || fpEq a b

/-- Header fields of a REQUEST (R239). -/
structure ReqFrame where
  fmt : Nat
  part : Nat
  stopCount : Nat
  promptLen : Nat
  q : ReqParams
  prompt : List Nat
  deriving DecidableEq, Repr

/-- Read a REQUEST payload. -/
def ReqFrame.ofBytes (b : List Byte) : ReqFrame :=
  let sc := byteAt b 4
  let f2 := byteAt b 0 == 2
  { fmt := byteAt b 0, part := byteAt b 2, stopCount := sc, promptLen := fieldLE b 32 4
    q := { cls := byteAt b 1, flags := byteAt b 3, reqId := fieldLE b 8 8, seed := fieldLE b 16 8, deadline := fieldLE b 24 8
           maxTokens := fieldLE b 36 4, temp := fieldLE b 40 4, topP := fieldLE b 44 4, topK := fieldLE b 48 2
           rep := fieldLE b 52 4, presence := fieldLE b 56 4, frequency := fieldLE b 60 4
           specNodes := if f2 then fieldLE b 96 2 else 0
           stops := (List.range sc).map (fun i => leWords 4 (byteAt b (128 + i)) (b.drop (144 + 64 * i))) }
    prompt := leWords 4 (fieldLE b 32 4) (b.drop (144 + 64 * sc)) }

/-- The vocabulary check of R241. -/
def ReqFrame.vocabOk (r : ReqFrame) (vocab : Nat) : Bool :=
  r.prompt.all (fun t => decide (t < vocab)) && r.q.stops.all (fun x => x.all (fun t => decide (t < vocab)))

/-- Do the fields of a REQUEST hold values of R239. -/
def reqFieldsOk (b : List Byte) (r : ReqFrame) : Bool :=
  let f2 := r.fmt == 2
  (r.fmt == 1 || f2) && decide (r.q.cls ≤ 1) && decide (r.q.flags < (if f2 then 8 else 4)) && decide (r.stopCount ≤ 16) &&
    zerosAt b 5 3 && decide (1 ≤ r.promptLen) && decide (r.promptLen ≤ 1048576) && decide (1 ≤ r.q.maxTokens) &&
    decide (r.q.maxTokens ≤ 4194304) && (fpIsZero r.q.temp || (fpLe 0x3A800000 r.q.temp && fpLe r.q.temp 0x42800000)) &&
    fpLt 0 r.q.topP && fpLe r.q.topP fpOne && decide (1 ≤ r.q.topK) && decide (r.q.topK ≤ 256) && zerosAt b 50 2 &&
    fpLe 0x3E800000 r.q.rep && fpLe r.q.rep 0x41000000 && decide (fpAbs r.q.presence ≤ 0x41800000) &&
    decide (fpAbs r.q.frequency ≤ 0x41800000) && zerosAt b 64 32 &&
    (if f2 then decide (fieldLE b 96 2 ≤ 64) && zerosAt b 98 30 else zerosAt b 96 32) &&
    (List.range 16).all (fun i => let l := byteAt b (128 + i)
                                  if i < r.stopCount then decide (1 ≤ l) && decide (l ≤ 16) else l == 0)

/-- Does a REQUEST that was accepted on a link of a format pass the format check of R239 and R241. -/
def State.reqFormatOk (s : State) (fmt : Nat) (b : List Byte) (r : ReqFrame) : Bool :=
  decide (144 ≤ b.length) && reqFieldsOk b r && b.length == 144 + 64 * r.stopCount + 4 * r.promptLen &&
    r.fmt == fmt && s.partExists r.part && decide (r.part < 12) &&
    (!s.en .srv r.part || r.vocabOk (s.rd R.SRV.VOCAB r.part))

/-- Is the module in DOZE. -/
def State.inDoze (s : State) : Bool := s.rd R.PWR.STAT_MOD_STATE 0 == 3

/-- Is a placement active. -/
def State.hasModel (s : State) (p : Nat) : Bool := (s.part p).active.isSome

/-- Is a REQ_ID of a partition still in use (R248): a request not in ENDING, or a FINAL not yet in the ring. -/
def State.idInUse (s : State) (p id : Nat) : Bool :=
  (s.part p).hampers.any (fun e => e.2.q.reqId == id && e.2.state != 4) ||
    (s.part p).respWait.any (fun f => fieldLE f 16 8 == id && byteAt f 24 == kFinal)

/-- The lowest number from n on that is no key of a rising list. -/
def lowestFree {α : Type} : AMap α → Nat → Nat
  | [], n => n
  | (k, _) :: t, n => if k = n then lowestFree t (n + 1) else n

/-- The status with which a REQUEST is refused (R241), none when it is admitted. -/
def State.refusal (s : State) (fmt : Nat) (b : List Byte) (r : ReqFrame) : Option Nat :=
  let p := r.part
  if !s.reqFormatOk fmt b r then some stRejFormat
  else if !s.en .srv p || !s.hasModel p || s.is R.DCR.STAT_HALTED p || s.inDoze then some stWrongState
  else if s.rd R.SRV.LIMIT p ≤ (s.part p).hampers.length ∨
      262144 ≤ (List.range 12).foldl (fun a i => a + (s.part i).hampers.length) 0 then some stRejFull
  else if s.idInUse p r.q.reqId then some stRejDup
  else if ((s.part p).extentAt (s.rd R.SRV.RING_SIZE p) (cdiv (4 * r.promptLen) 64)).isNone then some stRejSpace
  else none

/-- Is a DRAIN switch pending (R170). -/
def State.drainPend (s : State) (p : Nat) : Bool := (s.part p).switchPend == some false

/-- Generation to which a request that is admitted now belongs (R170, R244). -/
def State.admitGeneration (s : State) (p : Nat) : Nat :=
  let q := s.part p
  let pl := if s.drainPend p then q.loaded else q.active
  match pl with
  | some x => x.generation
  | none => 0

/-- Admit a request (R243 to R246). -/
def State.admitReq (r : ReqFrame) (s : State) : State :=
  let p := r.part
  let slot := lowestFree (s.part p).hampers 0
  let off := ((s.part p).extentAt (s.rd R.SRV.RING_SIZE p) (cdiv (4 * r.promptLen) 64)).getD 0
  let h0 : Hamper := { q := r.q, admSeq := (s.part p).admSeq, admTime := s.clk.devTime, state := 1, promptLen := r.promptLen,
                       prompt := r.prompt, ringOff := some off, generation := s.admitGeneration p }
  let h := if r.q.flags.testBit 1 then r.prompt.foldl (fun h t => h.countTok t) h0 else h0
  let s := s.takeExtent p slot off r.prompt
  let s := s.onPart p (fun q => { q with admSeq := q.admSeq + 1 })
  let s := ((s.putHamper p slot h).putCounts p slot h).count R.SRV.ADMIT p
  if r.q.deadline != 0 && decide (r.q.deadline ≤ s.clk.devTime) then
    s.endNow p slot stDeadline s.clk.devTime
  else s

/-- Process a REQUEST (R241): admit it, or refuse it with one FINAL. A frame whose PART names no partition is answered
outside any ring, and counted nowhere (log entry 18). -/
def State.request (fmt : Nat) (b : List Byte) (s : State) : State :=
  let r := ReqFrame.ofBytes b
  match s.refusal fmt b r with
  | none => s.admitReq r
  | some st =>
    let pl := respPayload r.q.reqId kFinal st 0 0 s.clk.devTime r.part []
    if decide (r.part < 12) && s.partExists r.part then
      let s := s.respond r.part pl
      if st = stWrongState then s.flagCount R.SRV.EVT_WRONG_STATE R.SRV.WRONG_STATE_CNT r.part
      else s.flagCount R.SRV.EVT_REJECTED R.SRV.REJECT_CNT r.part
    else { s with link := { s.link with resp0 := s.link.resp0 ++ [linkFrame 6 0 pl] } }

/-! ### Cancellation (R261, R262, R266) -/

/-- Replace the entry of the running step. -/
def State.onEntry (p i : Nat) (f : StepEntry → StepEntry) (s : State) : State :=
  s.onStep p (fun t => { t with entries := ((List.range t.entries.length).zip t.entries).map (fun x =>
    if x.1 = i then f x.2 else x.2) })

/-- Address of an entry of the step table (R251). -/
def State.entryAddr (s : State) (p i : Nat) : Nat := s.rd R.SRV.STEP_BASE p + 64 + 64 * i

/-- Set CANCELLED in an entry of the running step (R261). -/
def State.cancelEntry (p i : Nat) (s : State) : State :=
  let a := s.entryAddr p i + 12
  (s.onEntry p i (fun e => { e with cancelled := true })).mwr a (leBytes 1 (s.mval a 1 ||| 8))

/-- Process a CANCEL accepted at a device time: its answers carry that time (R239). -/
def State.cancel (b : List Byte) (now : Nat) (s : State) : State :=
  let id := fieldLE b 0 8
  let p := byteAt b 8
  if !(decide (p < 12) && s.partExists p) then
    { s with link := { s.link with resp0 := s.link.resp0 ++
      [linkFrame 6 0 (respPayload id kCancelResult stRejFormat 0 0 now p [])] } }
  else if b.length ≠ 16 || !zerosAt b 9 7 then s.cancelResult p id stRejFormat now false
  else if !s.en .srv p then
    (s.cancelResult p id stWrongState now false).flagCount R.SRV.EVT_WRONG_STATE R.SRV.WRONG_STATE_CNT p
  else
    match (s.part p).hampers.find? (fun e => e.2.q.reqId == id && e.2.state != 4) with
    | none => s.cancelResult p id stAlready now false
    | some (slot, h) =>
      let s := s.whenB (h.q.cls != 0) (fun s => s.onHamper p slot (fun h => { h with cancelSeen := true }))
      match s.entryOf p slot with
      | none => (s.endNow p slot stCancelled now).cancelResult p id stCancelled now h.countFull
      | some i =>
        if h.q.cls = 0 then ((s.cancelEntry p i).endNow p slot stCancelled now).cancelResult p id stCancelled now h.countFull
        else s.onHamper p slot (fun h => { h with cancels := h.cancels + 1 })

/-! ### Frames that wait (R259, R401, R408) -/

/-- Credits that a frame costs (R401). -/
def frameCredits (len : Nat) : Nat := cdiv (16 + cdiv len 16 * 16) 64

/-- Return credits on a channel of the host link. -/
def State.returnCredits (ch n : Nat) (s : State) : State :=
  { s with link := { s.link with creditRet := (List.range 3).map (fun c =>
    s.link.creditRet.getD c 0 + (if c = ch then n else 0)) } }

/-- The partition that a frame names. -/
def framePart (req : Bool) (b : List Byte) : Nat := if req then byteAt b 2 else byteAt b 8

/-- Process one frame; its credits go back (R401). -/
def State.takeFrame (f : InFrame) (s : State) : State :=
  ((if f.req then s.request f.format f.bytes else s.cancel f.bytes f.time)).returnCredits (if f.req then 0 else 1) (frameCredits f.bytes.length)

/-- Process the waiting frames of a partition: none while a commit resolves, but for those accepted before its cut, none while its ring
has less than 320 bytes free (R259, R408), and none while a range of the partition clears, for what they write waits (R275). -/
def State.drainInbox (p : Nat) : Nat → State → State
  | 0, s => s
  | fuel + 1, s =>
    match (s.part p).inbox with
    | [] => s
    | f :: t =>
      let st := (s.part p).step
      if s.clears p || (st.phase == .cut && st.cutFrames == 0) || s.ringFree p < 320 || !(s.part p).respWait.isEmpty then s
      else
        let s := s.onPart p (fun q => { q with inbox := t, step := { q.step with cutFrames := q.step.cutFrames - 1 } })
        State.drainInbox p fuel (s.takeFrame f)

/-- Accept a REQUEST or CANCEL frame (R402): it joins the frames of its partition in order. -/
def State.acceptFrame (req : Bool) (b : List Byte) (s : State) : State :=
  let p := framePart req b
  let f : InFrame := { req := req, time := s.clk.devTime, format := s.rd R.HLK.STAT_FORMAT 0, bytes := b }
  if decide (p < 12) && s.partExists p then
    let s := s.onPart p (fun q => { q with inbox := q.inbox ++ [f] })
    s.drainInbox p (s.part p).inbox.length
  else s.takeFrame f

/-- A frame from the host is discarded (R403). -/
def State.discardFrame (s : State) : State := s.flagCount R.HLK.EVT_FRAME_DISCARD R.HLK.DISCARD_CNT 0

/-- Largest LENGTH of a type that the host may send while the link is up (R403); none for any other type. -/
def frameMax (type : Nat) : Option Nat :=
  match type with
  | 0 => some 0 | 2 => some 4195472 | 3 => some 16 | 4 => some 8 | 5 => some 8 | _ => none

/-- Channel of a type (R400); none for PAD, LINK and reserved types. -/
def frameChannel (type : Nat) : Option Nat :=
  match type with
  | 2 => some 0 | 6 => some 0 | 3 => some 1 | 7 => some 1 | 4 => some 2 | 5 => some 2 | 8 => some 2 | _ => none

/-- Discard a frame unread: its credits go back (R403). -/
def State.unread (type len : Nat) (s : State) : State :=
  (match frameChannel type with
    | some c => s.returnCredits c (frameCredits len)
    | none => s).discardFrame

/-- A whole frame of a type with its payload from the host, while the link is up: counted as received, and discarded when it is longer
than its type allows. Below that no frame arrives (R403, R480). -/
def State.fromHost (type : Nat) (b : List Byte) (f : State → State) (s : State) : State :=
  if !s.is R.HLK.STAT_LINK_UP 0 then s
  else if (frameMax type).any (fun m => decide (m < b.length)) then (s.count R.HLK.RX_FRAMES 0).unread type b.length
  else f (s.count R.HLK.RX_FRAMES 0)

/-- REQUEST (R241). -/
def execRequest (payload : List Byte) (s : State) : Host.Outcome State Fault Refusal :=
  .next (s.fromHost 2 payload (State.acceptFrame true payload))

/-- CANCEL (R261, R262). -/
def execCancel (payload : List Byte) (s : State) : Host.Outcome State Fault Refusal :=
  .next (s.fromHost 3 payload (State.acceptFrame false payload))

/-! ### Preemption and ends by firmware (R264, R265) -/

/-- A command in the wrong state (R266). -/
def State.wrongState (p : Nat) (s : State) : State := s.flagCount R.SRV.EVT_WRONG_STATE R.SRV.WRONG_STATE_CNT p

/-- Token IDs of positions 0 to n − 1 of a sequence, from the token blocks (R247). -/
def State.history (s : State) (p slot n : Nat) : List Nat :=
  match s.seq p slot with
  | some q => (List.range n).map (fun i => (AMap.getD (s.part p).tokens (q.pages.getD (i / 64) 0) []).getD (i % 64) 0)
  | none => []

/-- A preemption takes effect (R264). -/
def State.preemptNow (p slot : Nat) (s : State) : State :=
  let refuse (s : State) : State :=
    (s.onHamper p slot (fun h => { h with preemptReq := false })).raise R.SRV.EVT_PREEMPT_REFUSED p
  match s.hamper p slot with
  | none => s.raise R.SRV.EVT_PREEMPT_REFUSED p
  | some h =>
    let done (s : State) : State :=
      ((s.onHamper p slot (fun h => { h with state := 1, preempted := true, preemptReq := false })).count
        R.SRV.PREEMPT_CNT p).raise R.SRV.EVT_PREEMPT_DONE p
    if h.state = 2 then done (s.releaseSeq p slot)
    else if h.state = 3 then
      let len := match s.seq p slot with | some q => q.len | none => 0
      let toks := s.history p slot len ++ [h.lastToken]
      match (s.part p).extentAt (s.rd R.SRV.RING_SIZE p) (cdiv (4 * toks.length) 64) with
      | none => refuse s
      | some off =>
        let s := s.takeExtent p slot off toks
        let s := (s.releaseExtent p slot).releaseSeq p slot
        done (s.onHamper p slot (fun h => { h with promptLen := len + 1, prompt := toks, ringOff := some off }))
    else refuse s

/-- SRV_PREEMPT.GO (R264, R266). -/
def State.actPreempt (p : Nat) (s : State) : State :=
  let slot := s.rd R.SRV.PREEMPT_SLOT p
  match s.hamper p slot with
  | none => s.raise R.SRV.EVT_PREEMPT_REFUSED p
  | some h =>
    if h.preemptReq then s.wrongState p
    else if s.stepRuns p then s.onHamper p slot (fun h => { h with preemptReq := true })
    else s.preemptNow p slot

/-- SRV_END.GO (R265, R266). -/
def State.actEnd (p : Nat) (s : State) : State :=
  let slot := s.rd R.SRV.END_SLOT p
  match s.hamper p slot with
  | none => s.wrongState p
  | some h =>
    if h.state = 4 || h.endPend then s.wrongState p
    else match s.entryOf p slot with
      | some _ => s.onHamper p slot (fun h => { h with endPend := true })
      | none => s.endNow p slot stEnded s.clk.devTime

/-- KVE_TREE_CTL.FLUSH (R224): at the next step boundary; a partition that has formed no step is at its boundary (R481). -/
def State.actFlush (p : Nat) (s : State) : State :=
  s.whenB (s.en .kve p) (fun s => if s.unstepped p then s.flushTree p else s.onPart p (fun q => { q with flushPend := true }))

/-- SRV_PREEMPT (R264). -/
def execSrvPreempt (part : Fin 12) (s : State) : Host.Outcome State Fault Refusal := .next (s.ofPart part.val (State.actPreempt part.val))
/-- SRV_END (R265). -/
def execSrvEnd (part : Fin 12) (s : State) : Host.Outcome State Fault Refusal := .next (s.ofPart part.val (State.actEnd part.val))
/-- KVE_FLUSH (R224). -/
def execKveFlush (part : Fin 12) (s : State) : Host.Outcome State Fault Refusal := .next (s.ofPart part.val (State.actFlush part.val))

/-- DEADLINE_CHECK (R263): while no step runs, every request whose deadline has passed ends. -/
def execDeadlineCheck (part : Fin 12) (s : State) : Host.Outcome State Fault Refusal :=
  let p := part.val
  let now := s.clk.devTime
  if s.stepRuns p then .next s
  else .next (s.each ((s.part p).byAdm (fun _ h => h.state != 4 && h.q.deadline != 0 && decide (h.q.deadline ≤ now)))
    (fun e s => s.endNow p e.1 stDeadline now))

end Sys2Proof.Machine
end

