-- ==== Sys2Proof/Machine/Serving.lean ====
section
/-! DEFINITION. Forming a step, sampling, the commit cut and commit resolution (R249 to R260, R298, R318). -/
namespace Sys2Proof.Machine

/-! ### Candidate trees (R233) -/

/-- PARENT and TOKEN of the nodes of a tree record. -/
def treeNodes (rec_ : List Byte) : List (Nat × Nat) :=
  (List.range (fieldLE rec_ 0 4)).map (fun i => (byteAt rec_ (64 + 8 * i + 4), fieldLE rec_ (64 + 8 * i) 4))

/-- Does a tree keep the rules of R233. -/
def treeOk (t : List (Nat × Nat)) : Bool :=
  decide (1 ≤ t.length) && decide (t.length ≤ 64) &&
    ((List.range t.length).zip t).all (fun x => x.2.1 == 0xFF || decide (x.2.1 < x.1))

/-- Depth D of a tree. -/
def treeD (t : List (Nat × Nat)) : Nat := (List.range t.length).foldl (fun a i => max a (treeDepth t 65 i)) 0

/-! ### Formation (R249 to R252) -/

/-- The longest sequence (R235). -/
def maxPositions : Nat := 4194304

/-- What formation has built so far. -/
structure FormAcc where
  s : State
  entries : List StepEntry
  left : Nat
  pre : Nat
  stop : Bool

/-- Form a decode entry (R249, R233). -/
def FormAcc.decode (p slot : Nat) (h : Hamper) (a : FormAcc) : FormAcc :=
  if a.left = 0 then { a with stop := true }
  else
    let len := match a.s.seq p slot with | some q => q.len | none => 0
    let want := h.spec && decide (1 ≤ h.nodes) && decide (h.nodes ≤ h.q.specNodes)
    let t := if want then treeNodes h.tree else []
    let bad := want && !treeOk t
    let fits := want && !bad && decide (1 + t.length ≤ a.left) && decide (len + treeD t < maxPositions)
    let s := a.s.whenB (want && !bad && !fits) (fun s => s.onHamper p slot (fun h => { h with tree := [] }))
    let t := if fits then t else []
    let (s, got) := s.allocEntry p slot (len + treeD t) (!t.isEmpty)
    let a := { a with left := a.left - (1 + t.length) }
    if got then
      let e : StepEntry := { slot := slot, first := len, n := 1, prefill := false, sample := true, tree := t, badTree := bad,
                             depth := treeD t, tokAddr := s.hamperAddr p slot + 56
                             treeAddr := if t.isEmpty then 0 else s.hamperAddr p slot + 1296 }
      { a with s := s, entries := a.entries ++ [e] }
    else { a with s := s }

/-- Form a prefill entry (R249, R221). -/
def FormAcc.prefill (p slot : Nat) (h : Hamper) (a : FormAcc) : FormAcc :=
  if a.left = 0 ∨ a.pre = 0 then { a with stop := true }
  else
    let held := match a.s.seq p slot with | some q => q.live | none => false
    let s := if held then a.s else a.s.putSeq p slot (a.s.freshSeq p h.share)
    let s := s.lookup p slot h.prompt
    let len := match s.seq p slot with | some q => q.len | none => 0
    let n := min (min (h.promptLen - len) (s.rd R.SRV.FORM_CHUNK p)) (min a.left a.pre)
    let (s, got) := s.allocEntry p slot (len + n - 1) false
    let a := { a with left := a.left - n, pre := a.pre - n }
    if got then
      let s := s.onHamper p slot (fun h => { h with state := 2 })
      let e : StepEntry := { slot := slot, first := len, n := n, prefill := true, sample := len + n == h.promptLen,
                             tokAddr := s.rd R.SRV.RING_BASE p + 64 * h.ringOff.getD 0 + 4 * len }
      { a with s := s, entries := a.entries ++ [e] }
    else { a with s := s }

/-- Take one candidate, unless formation has stopped. -/
def FormAcc.take (p slot : Nat) (decode : Bool) (a : FormAcc) : FormAcc :=
  if a.stop then a
  else match a.s.hamper p slot with
    | none => a
    | some h => if decode then a.decode p slot h else a.prefill p slot h

/-- Candidates of formation in the order of the four passes: (slot, decode) (R249). -/
def State.candidates (s : State) (p : Nat) : List (Nat × Bool) :=
  let q := s.part p
  let l := q.byAdm (fun _ h => h.state != 4 && !(s.drainPend p && decide (q.drainSeq ≤ h.admSeq)))
  let pass (decode : Bool) (cls : Nat) : List (Nat × Bool) :=
    (l.filter (fun e => (e.2.state == 3) == decode && e.2.q.cls == cls)).map (fun e => (e.1, decode))
  pass true 0 ++ pass true 1 ++ pass false 0 ++ pass false 1

/-- Give SAMPLE entries their logits rows in order (R251). -/
def assignRows : Nat → List StepEntry → List StepEntry × Nat
  | n, [] => ([], n)
  | n, e :: t =>
    if e.sample then let (l, m) := assignRows (n + 1 + e.tree.length) t; ({ e with logitRow := some n } :: l, m)
    else let (l, m) := assignRows n t; (e :: l, m)

/-- The 64 bytes of a step-table entry (R251). -/
def StepEntry.image (e : StepEntry) : List Byte :=
  leBytes 4 e.slot ++ leBytes 4 e.first ++ leBytes 4 e.n ++
    leBytes 1 ((if e.prefill then 1 else 0) + (if e.sample then 2 else 0) + (if e.tree.isEmpty then 0 else 4) +
      (if e.cancelled then 8 else 0)) ++
    leBytes 1 e.depth ++ leBytes 2 e.tree.length ++ leBytes 8 e.tokAddr ++ leBytes 4 (e.logitRow.getD none32) ++
    leBytes 4 e.sampled ++ leBytes 8 e.treeAddr ++ leBytes 24 0

/-- Context length C of an entry (R227). -/
def StepEntry.context (e : StepEntry) : Nat := e.last + 1 + e.depth

/-- Length bucket of an entry (R227). -/
def State.lengthBucket (s : State) (p : Nat) (e : StepEntry) : Nat :=
  let bounds := [s.rd R.KVE.BOUND0 p, s.rd R.KVE.BOUND1 p, s.rd R.KVE.BOUND2 p, s.rd R.KVE.BOUND3 p, s.rd R.KVE.BOUND4 p,
                 s.rd R.KVE.BOUND5 p, s.rd R.KVE.BOUND6 p]
  (bounds.findIdx? (fun b => decide (e.context ≤ b))).getD 7

/-- The bucket list: start and count of buckets 0 to 7, then entry indices bucket by bucket (R227). -/
def State.bucketList (s : State) (p : Nat) (es : List StepEntry) : List Byte :=
  let idx := (List.range es.length).zip es
  let bs := (List.range 8).map (fun b => (idx.filter (fun x => s.lengthBucket p x.2 == b)).map (·.1))
  let hdr := (bs.foldl (fun (a : List Byte × Nat) l => (a.1 ++ leBytes 4 a.2 ++ leBytes 4 l.length, a.2 + l.length)) ([], 0)).1
  hdr ++ bs.flatMap (fun l => l.flatMap (leBytes 4))

/-- Address of an entry's record in the next-tree area (R251). -/
def State.treeSlot (s : State) (p i : Nat) : Nat := s.rd R.SRV.STEP_BASE p + 1048640 + 576 * i

/-- Write the step table (R251): header, entries, and a next-tree record without nodes for each entry. -/
def State.writeStepTable (p : Nat) (s : State) : State :=
  let st := (s.part p).step
  let gen := match (s.part p).active with | some x => x.generation | none => 0
  let pos := st.entries.foldl (fun a e => a + e.n + e.tree.length) 0
  let hdr := leBytes 8 (s.part p).stepNo ++ leBytes 4 st.entries.length ++ leBytes 4 pos ++ leBytes 4 st.rows ++ leBytes 4 0 ++
    leBytes 8 gen ++ leBytes 32 0
  (s.mwr (s.rd R.SRV.STEP_BASE p) (hdr ++ st.entries.flatMap StepEntry.image)).zeroMem (s.treeSlot p 0) (576 * st.entries.length)

/-- Form the partition's next step and start its program (R216, R249 to R251, R205). No entry: no step. -/
def State.formStep (p : Nat) (s : State) : State :=
  let a0 : FormAcc := { s := s, entries := [], left := s.rd R.SRV.FORM_STEP_MAX p, pre := s.rd R.SRV.FORM_PREFILL_MAX p,
                        stop := false }
  let a := (s.candidates p).foldl (fun a c => a.take p c.1 c.2) a0
  let s := a.s
  let s := s.whenB (decide ((s.part p).pageFree.size < s.rd R.KVE.LOW_WATER p)) (fun s => s.raise R.KVE.EVT_LOW_WATER p)
  if a.entries.isEmpty then s
  else
    let (es, rows) := assignRows 0 a.entries
    let s := s.touch (s.rd R.KVE.MASK_TBL p) (4 * s.kvLayers p)
    let masks := leWords 4 (s.kvLayers p) (s.mrd (s.rd R.KVE.MASK_TBL p) (4 * s.kvLayers p))
    let st : StepSt := { phase := .running, entries := es, rows := rows, started := s.clk.devTime
                         locked := s.inLock p, masks := masks }
    let s := s.onPart p (fun q => { q with step := st, stepped := true })
    let s := s.writeStepTable p
    let s := s.mwr (s.rd R.KVE.BKT_BASE p) (s.bucketList p es)
    s.startGroups p (s.rd R.SRV.STEP_BASE p)

/-! ### Sampling (R253 to R257) -/

/-- Draw u of an output index (R255). -/
def drawU (seed n : Nat) : Nat := fpOfInt (leNat ((shake256 (leBytes 8 seed ++ leBytes 4 n) 32).take 3) : Nat) (-24)

/-- log₂ e / TEMP to the nearest FP32 value (R254 step 3). -/
def tempFactor (temp : Nat) : Nat :=
  match fpDec temp with
  | .fin _ m e => fpOfRat ((2 : Int) ^ 160) (ln2Fix * m) (-e)
  | _ => 0

/-- Cumulative sums in ascending order, rounded at each addition. -/
def cumSums : Nat → List Nat → List Nat
  | _, [] => []
  | a, w :: t => let b := fpAdd a w; b :: cumSums b t

/-- The entry that a draw selects, none when the sums order with none (R254 steps 2 to 5). -/
def selectEntry (temp topP u : Nat) (vs : List Nat) : Option Nat :=
  if fpIsZero temp then some 0
  else
    let c := tempFactor temp
    let v0 := vs.headD 0
    let sums := cumSums 0 (vs.map (fun v => if fpIsNaN v then 0 else fpEx2 (fpMul (fpSub v v0) c)))
    let goal := fpMul topP (sums.getLastD 0)
    match sums.findIdx? (fun x => fpLe goal x) with
    | none => none
    | some j =>
      let r := fpMul u (sums.getD j 0)
      some (((sums.take (j + 1)).findIdx? (fun x => fpLt r x)).getD j)

/-- What a draw gives: a token, or the status that ends the request. -/
inductive DrawRes
  | token (t : Nat)
  | bad (status : Nat)
  deriving DecidableEq, Repr

/-- One sampling call and draw (R253, R254): `row` is the logits row, `counts` the count table of the draw. -/
def State.draw (p : Nat) (e : StepEntry) (h : Hamper) (counts : List (Nat × Nat)) (row n : Nat) (s : State) : DrawRes × State :=
  let vocab := s.rd R.SRV.VOCAB p
  match s.tensorRec p (s.rd R.SRV.LOGITS p) with
  | none => (.bad stInternal, s)
  | some t =>
    if 1 < t.fmt ∨ t.cols ≠ vocab ∨ t.rows ≤ row then (.bad stInternal, s)
    else
      let a := t.addr row 0
      let size := cdiv (fmtBits t.fmt * vocab) 8
      let o := s.readOrigins p a size ||| s.readOrigins p (s.rd R.SRV.CNT_BASE p + 16384 * e.slot) (4 * counts.length) |||
        s.readOrigins p (s.hamperAddr p e.slot) 256
      let vs := if t.fmt = 0 then leWords 4 vocab (s.mrd a size) else (leWords 2 vocab (s.mrd a size)).map bf16Dec
      let sub (n : Nat) := fpAdd h.q.presence (fpMul (fpOfInt (n : Int) 0) h.q.frequency)
      let adj : List Adj := counts.map (fun c => { pos := c.1, fpos := fpRcp h.q.rep, fneg := h.q.rep, sub := sub c.2 })
      let elig := ((List.range vs.length).zip vs).map (fun x =>
        ((match adj.find? (fun y => y.pos == x.1) with | some y => adjValue y x.2 | none => x.2), x.1))
      let (es, fl) := rankTop h.q.topK elig
      let res : TopkResult := { entries := es, flags := fl ||| (if o = 0 then 0 else tkPoison), origins := o }
      let s := (s.touch (s.rd R.SRV.CNT_BASE p + 16384 * e.slot) (4 * counts.length)).touch (s.hamperAddr p e.slot) 256
      let s := (s.topkCount (min 3 (hubOfAddr a)) res).consume p e.slot o
      let s := s.onStep p (fun st => { st with topkRes := st.topkRes ++ [(st.topkNext, es.map (·.2))], topkNext := st.topkNext + 1 })
      match es with
      | [] => (.bad stInternal, s)
      | (v0, p0) :: _ =>
        if fpIsNaN v0 then (.bad stNumeric, s)
        else
          match selectEntry h.q.temp h.q.topP (drawU h.q.seed n) (es.map (·.1)) with
          | some i => (.token ((es.getD i (0, p0)).2), s)
          | none => let (f, s) := s.takeFree; (.token ((es.getD (f % es.length) (0, p0)).2), s)

/-- The child of a node (none: of the root) that carries a token, lowest index first (R257). -/
def childWith (t : List (Nat × Nat)) (cur : Option Nat) (tok : Nat) : Option Nat :=
  t.findIdx? (fun x => x.1 == (match cur with | some i => i | none => 0xFF) && x.2 == tok)

/-- Draw at the entry's last position and on along its tree (R257). -/
def State.drawWalk (p i : Nat) (h : Hamper) : Nat → List (Nat × Nat) → Nat → Option Nat → State → State
  | 0, _, _, _, s => s
  | fuel + 1, counts, n, cur, s =>
    match (s.part p).step.entries[i]? with
    | none => s
    | some e =>
      let row := e.logitRow.getD 0 + (match cur with | some k => 1 + k | none => 0)
      match s.draw p e h counts row n with
      | (.bad st, s) => s.onEntry p i (fun e => { e with bad := if e.bad = 0 then st else e.bad })
      | (.token tok, s) =>
        let s := s.onEntry p i (fun e => { e with drawn := e.drawn ++ [tok],
                                                  sampled := if cur.isNone then tok else e.sampled })
        match childWith e.tree cur tok with
        | none => s
        | some k =>
          let s := s.onEntry p i (fun e => { e with path := e.path ++ [k] })
          State.drawWalk p i h fuel (countIn tok counts).1 (n + 1) (some k) s

/-- Add 1 to event counter e of a partition on a hub; groups that wait for the value reached go on (R188). -/
def State.signal (p h e : Nat) (s : State) : State :=
  let n := (AMap.getD (s.hub h).events (256 * p + e) 0 + 1) % 2 ^ 32
  let s := s.onHub h (fun u => { u with events := AMap.put u.events (256 * p + e) n 0 })
  s.each ((s.ownCores p).filter (fun c => c / 192 == h)) (fun c s =>
    s.onCore c (fun r => { r with groups := r.groups.map (fun g => (g.1, match g.2.wait with
      | .event f v => if f = e ∧ v ≤ n then { g.2 with wait := .none } else g.2
      | _ => g.2)) }))

/-- May sampling run: the step program is done, or waits for nothing but the SAMPLED event 255 (R253, R256; DEDUCED, log
entry 19). -/
def State.samplable (s : State) (p : Nat) : Bool :=
  let st := (s.part p).step
  st.phase == .running && !st.halted &&
    (s.ownCores p).all (fun c => (s.core c).groups.all (fun g => g.2.toks == 0 &&
      (!g.2.running || (match g.2.wait with | .event 255 _ => true | _ => false)))) &&
    (s.stacksOf p).all (fun k => (s.stk k).jobs.all (fun j => j.part != p)) &&
    (List.range 4).all (fun h => (s.hub h).topk.all (fun c => c.part != p) && (s.hub h).esc.all (fun e => e.part != p))

/-- The logits rows of an entry are read; poison in any of them counts as consumed (R317). -/
def State.readLogits (p : Nat) (e : StepEntry) (s : State) : State :=
  match s.tensorRec p (s.rd R.SRV.LOGITS p), e.logitRow with
  | some t, some r =>
    let size := cdiv (fmtBits t.fmt * t.cols) 8
    s.each (List.range (1 + e.tree.length)) (fun i s =>
      let a := t.addr (r + i) 0
      (s.consume p e.slot (s.readOrigins p a size)).touch a size)
  | _, _ => s

/-- Sampling of a step (R253, R256). Draws that a replay repeats take the numbers that they had (R298). -/
def State.sampling (p : Nat) (s : State) : State :=
  if !s.samplable p then s
  else
    let n := (s.part p).step.entries.length
    let next := (s.part p).step.topkNext
    let first := match (s.part p).step.draws with | some d => d.1 | none => next
    let s := s.onStep p (fun t => { t with topkNext := first })
    let s := s.each (List.range n) (fun i s =>
      match (s.part p).step.entries[i]? with
      | none => s
      | some e =>
        match s.hamper p e.slot with
        | none => s
        | some h =>
          let s := if e.sample && !e.cancelled && h.state != 4 then
              (s.readLogits p e).drawWalk p i h (e.tree.length + 1) h.counts h.outIndex none
            else s
          let tok := match (s.part p).step.entries[i]? with | some e => e.sampled | none => none32
          s.mwr (s.entryAddr p i + 28) (leBytes 4 tok))
    let s := s.each (s.hubsOf p) (fun h s => s.signal p h 255)
    s.onStep p (fun t => { t with phase := .sampled, draws := some (first, t.topkNext), topkNext := max next t.topkNext })

/-- SAMPLING (R253 to R257). -/
def execSampling (part : Fin 12) (s : State) : Host.Outcome State Fault Refusal := .next (s.sampling part.val)

/-! ### The commit cut (R259, R298) -/

/-- May the commit cut be made: sampled and the program done, or the step halted (R210). -/
def State.mayCut (s : State) (p : Nat) : Bool :=
  let st := (s.part p).step
  (st.phase == .sampled && s.programDone p) || (st.phase == .running && st.halted)

/-- Bytes of the step digest (R298). -/
def StepSt.digestBytes (t : StepSt) : List Byte :=
  let calls := sortBy (fun a b => decide (a.1 ≤ b.1)) t.topkRes
  calls.flatMap (fun c => c.2.flatMap (leBytes 4)) ++ (t.entries.filter (·.sample)).flatMap (fun e => leBytes 4 e.sampled)

/-- What a step has sent on the message lanes of a hub of a partition with several (R374, R394). The length of a message is not stated:
the bytes are a free number, counted at the cut (DESIGN CHOICE, log entry 94). -/
def State.laneBytes (p : Nat) (s : State) : State :=
  s.whenB (decide (1 < (s.hubsOf p).length)) (fun s => s.each (s.hubsOf p) (fun h s =>
    let (n, s) := s.takeFree
    s.bump R.NOC.MSG_BYTES h n))

/-- The commit cut: its device time, and the digest, hc count and flags of the step (R298). -/
def State.commitCut (p hc : Nat) (s : State) : State :=
  if !s.mayCut p then s
  else
    let st := (s.part p).step
    let fl := (if st.clean then 1 else 0) + (if st.locked then 2 else 0) + (if st.sure then 4 else 0)
    -- detected errors that did not come again in the replay were transient (R315)
    let s := s.each (if st.halted then [] else st.errors) (fun o s => s.count R.RELG.TRANSIENT_CNT (o.inst % 4))
    let s := (((s.laneBytes p).wr R.GLB.STEP_DIGEST p (shake64 st.digestBytes)).wr R.GLB.STEP_HC p hc).wr R.GLB.STEP_FLAGS p fl
    s.onPart p (fun q => { q with
      step := { q.step with phase := .cut, cutTime := s.clk.devTime, cutFrames := q.inbox.length } })

/-- COMMIT_CUT (R259). `hc` is the count of serving-control hc from formation to the cut. -/
def execCommitCut (part : Fin 12) (hc : Nat) (s : State) : Host.Outcome State Fault Refusal := .next (s.commitCut part.val hc)

/-! ### Commit resolution (R258, R260) -/

/-- Do the last emitted tokens (newest first) complete a stop sequence (R258). -/
def stopHit (stops : List (List Nat)) (recent : List Nat) : Bool :=
  stops.any (fun x => decide (x.length ≤ recent.length) && (recent.take x.length).reverse == x)

/-- Emit drawn tokens in order until one finishes the request (R258): the hamper, the tokens emitted, the status. `pos` is
the position count that the first token completes. -/
def emitTokens (pos : Nat) : List Nat → Hamper → List Nat → Hamper × List Nat × Option Nat
  | [], h, acc => (h, acc, none)
  | t :: rest, h, acc =>
    let h := h.countTok t
    let h := { h with recent := (t :: h.recent).take 16, lastToken := t, outIndex := h.outIndex + 1 }
    let acc := acc ++ [t]
    if stopHit h.q.stops h.recent then (h, acc, some stStop)
    else if h.outIndex = h.q.maxTokens then (h, acc, some stMax)
    else if pos = maxPositions then (h, acc, some stLength)
    else emitTokens (pos + 1) rest h acc

/-- Write a committed position's token ID into its page's block (R247). -/
def State.putToken (p slot pos tok : Nat) (s : State) : State :=
  match (s.seq p slot).bind (fun q => q.pages[pos / 64]?) with
  | none => s
  | some pg =>
    let old := AMap.getD (s.part p).tokens pg []
    let new := (List.range 64).map (fun i => if i = pos % 64 then tok else old.getD i 0)
    let s := s.onPart p (fun q => { q with tokens := AMap.set q.tokens pg new })
    s.mwr (s.rd R.SRV.TOK_BASE p + 256 * pg + 4 * (pos % 64)) (leBytes 4 tok)

/-- Has an entry's request a deadline that has passed at the cut (R263). -/
def Hamper.late (h : Hamper) (t : Nat) : Bool := h.q.deadline != 0 && decide (h.q.deadline ≤ t)

/-- The hamper's TREE takes NODES 0: no tree is copied into it (R256). -/
def State.noTree (p slot : Nat) (s : State) : State := s.onHamper p slot (fun h => { h with tree := [] })

/-- End an entry's request with nothing committed (R260 rows 1 to 6). -/
def State.endEntry (p slot status time : Nat) (h : Hamper) (s : State) : State :=
  (s.noTree p slot).endReq p slot status time h.outIndex []

/-- Commit an entry: positions, tokens, pages and tree nodes (R225, R234, R247, R256 to R258, rows 7 and 8 of R260). -/
def State.commitEntry (p i : Nat) (e : StepEntry) (h : Hamper) (s : State) : State :=
  let t := (s.part p).step.cutTime
  let first := h.outIndex
  let (h', toks, fin) := emitTokens (e.last + 1) (if e.sample then e.drawn else []) h []
  -- the path is cut to the tokens emitted
  let path := if e.sample then e.path.take (toks.length - 1) else []
  let ids := if e.prefill then (h.prompt.drop e.first).take e.n else [h.lastToken]
  let ids := ids ++ path.map (fun k => (e.tree.getD k (0, 0)).2)
  let s := s.copyPath p e path
  let s := s.onSeq p e.slot (fun q => { q with len := e.first + e.n + path.length })
  let s := s.each ((List.range ids.length).zip ids) (fun x s => s.putToken p e.slot (e.first + x.1) x.2)
  let s := s.insertFull p e.slot (match s.seq p e.slot with | some q => q.pages.length | none => 0)
  let s := s.trimPages p e.slot
  let s := s.onSeq p e.slot (fun q => { q with maskEmpty := false, poison := 0 })
  let s := s.bump R.SRV.TOKENS p toks.length
  let done := e.prefill && decide (h.promptLen ≤ e.first + e.n)
  let status := match fin with
    | some st => some st
    | none => if h.q.cls = 1 ∧ h.late t then some stDeadline else none
  -- the next-tree record is read where the request goes on (R256)
  let next := s.mrd (s.treeSlot p i) 576
  let s := s.whenB (status.isNone && h.spec) (fun s => s.touch (s.treeSlot p i) 576)
  let keep := status.isNone && h.spec && decide (1 ≤ fieldLE next 0 4) && decide (fieldLE next 0 4 ≤ h.q.specNodes)
  let h' := { h' with tree := if keep then next else [], state := if toks.isEmpty then h'.state else 3 }
  let s := s.putHamper p e.slot h'
  let s := if done then s.releaseExtent p e.slot else s
  let s := s.putCounts p e.slot h'
  match status with
  | some st => s.endReq p e.slot st t first toks
  | none =>
    if toks.isEmpty then s
    else
      let s := s.respond p (respPayload h.q.reqId kTokens 0 h'.respFlags first t p toks)
      s.onHamper p e.slot (fun h => { h with maskPend := false, preempted := false })

/-- Withdraw an entry: as parked for the step (R318). -/
def State.withdraw (p : Nat) (e : StepEntry) (s : State) : State :=
  let s := s.releaseCand p e.slot
  let s := s.onSeq p e.slot (fun q => { q with poison := 0, maskEmpty := false })
  s.flagCount R.REL.EVT_WITHDRAWN R.REL.WITHDRAW_CNT p

/-- Resolve one entry (R260, R318). An entry whose origins are SHARED alone is withdrawn; its request is then one that is not in the
step, which a cancel, an end or a deadline ends, and which else is formed again (R335; log entry 20). -/
def State.resolveEntry (p i : Nat) (s : State) : State :=
  let st := (s.part p).step
  match st.entries[i]? with
  | none => s
  | some e =>
    match s.hamper p e.slot with
    | none => s
    | some h0 =>
      let q := s.seq p e.slot
      let o := match q with | some q => q.poison | none => 0
      let maskPend := match q with | some q => q.maskEmpty | none => false
      let h := if maskPend then { h0 with maskPend := true } else h0
      let s := if maskPend then s.putHamper p e.slot h else s
      let t := st.cutTime
      let shared := o != 0 && o &&& (oRequest ||| oOndie) == 0
      if h.state = 4 then (s.noTree p e.slot).releaseCand p e.slot
      else if e.bad = stNumeric then s.endEntry p e.slot stNumeric t h
      else if st.halted || e.badTree || e.opErr || e.bad != 0 then s.endEntry p e.slot stInternal t h
      else if o &&& (oRequest ||| oOndie) != 0 then s.endEntry p e.slot stPoisoned t h
      else
        let s := s.whenB shared (fun s => s.withdraw p e)
        if h.cancelSeen then s.endEntry p e.slot stCancelled t h
        else if h.endPend then s.endEntry p e.slot stEnded t h
        else if h.late t && (h.q.cls == 0 || shared) then s.endEntry p e.slot stDeadline t h
        else if shared then s
        else s.commitEntry p i e h

/-- Resolution of a commit point (R260): entries in order, then the deadlines of the other requests; ended requests are
freed, and the step is over. -/
def State.resolveCommit (p : Nat) (s : State) : State :=
  let st := (s.part p).step
  let s := s.each ((List.range st.entries.length).zip st.entries) (fun x s =>
    let s := s.resolveEntry p x.1
    match s.hamper p x.2.slot with
    | some h => if h.state = 4 then s.freeHamper p x.2.slot else s
    | none => s)
  let s := s.each ((s.part p).byAdm (fun slot h => h.state != 4 && h.late st.cutTime && !st.entries.any (fun x => x.slot == slot)))
    (fun e s => s.endReq p e.1 stDeadline st.cutTime e.2.outIndex [])
  let s := s.each ((s.part p).hampers.filter (fun e => e.2.state == 4)) (fun e s => s.freeHamper p e.1)
  let s := (s.count R.SRV.STEPS p).count R.KVE.STEP_COUNT p
  -- the statistics of this step are fitted during the next one (R110)
  let s := s.each (s.stacksOf p) (fun k s =>
    (s.fitStack k).onStk k (fun u => { u with statPrev := u.stat, stat := [] }))
  let s := s.onPart p (fun q => { q with step := {}, between := true, stepNo := q.stepNo + 1, stepsSinceSwitch := q.stepsSinceSwitch + 1 })
  s.drainInbox p (s.part p).inbox.length

/-- COMMIT_RESOLUTION (R260): once the cut is made and the frames accepted before it are processed. -/
def execCommitResolution (part : Fin 12) (s : State) : Host.Outcome State Fault Refusal :=
  let st := (s.part part.val).step
  if st.phase == .cut && st.cutFrames == 0 then .next (s.resolveCommit part.val) else .next s

end Sys2Proof.Machine
end

