-- ==== Sys2Proof/Machine/CoreOps.lean ====
section
/-! DEFINITION. What all core instructions share: issue, the fault of R210, operands and results with their poison, scratch
addresses (R179 to R185, R190 to R194, R210). -/
namespace Sys2Proof.Machine

/-! ### Words of instructions (R190, R191) -/

/-- Fields laid out from a place on: (place, value). -/
def fieldsAt (l : List (Nat × Nat)) : Nat := l.foldl (fun w x => w + x.2 * 2 ^ x.1) 0

/-- One bit of a word. -/
def flagBit (b : Bool) : Nat := if b then 1 else 0

/-- Bits common to all formats (R190). -/
def wordCommon (c : Common) (op : Nat) : Nat := fieldsAt [(0, c.pr.val), (3, flagBit c.pn), (4, op), (12, c.ty.val)]
/-- A word of format V. -/
def wordV (f : VFmt) (op : Nat) : Nat :=
  wordCommon f.toCommon op + fieldsAt [(16, f.d.val), (21, f.a.val), (26, f.b.val), (31, f.c.val), (36, flagBit f.dsc), (37, flagBit f.asc),
    (38, flagBit f.bsc), (39, flagBit f.csc), (40, f.pd.val)]
/-- A word of format I. -/
def wordI (f : IFmt) (op : Nat) : Nat :=
  wordCommon f.toCommon op + fieldsAt [(16, f.d.val), (21, f.a.val), (26, flagBit f.dsc), (27, flagBit f.asc), (32, f.imm.toNat)]
/-- A word of format S. -/
def wordS (f : SFmt) (op : Nat) : Nat :=
  wordCommon f.toCommon op + fieldsAt [(16, f.d.val), (21, f.a.val), (26, flagBit f.asc), (27, f.size.val), (29, flagBit f.sext), (32, f.off.toNat)]
/-- A word of format M. -/
def wordM (f : MFmt) (op : Nat) : Nat :=
  wordCommon f.toCommon op + fieldsAt [(16, f.sa.val), (20, f.sm.val), (24, f.sl.val), (28, f.tok.val), (32, f.plan.val), (40, f.sx.val)]
/-- A word of format T. -/
def wordT (f : TFmt) (op : Nat) : Nat :=
  wordCommon f.toCommon op + fieldsAt [(16, f.at_.val), (21, f.sa.val), (25, f.sb.val), (29, f.ssa.val), (33, f.ssb.val), (37, flagBit f.usa),
    (38, flagBit f.usb), (39, flagBit f.clr)]
/-- A word of format B. -/
def wordB (f : BFmt) (op : Nat) : Nat := wordCommon f.toCommon op + fieldsAt [(16, f.mode.val), (21, f.sc.val), (32, f.tgt.toNat)]
/-- A word of format X. -/
def wordX (f : XFmt) (op : Nat) : Nat :=
  wordCommon f.toCommon op + fieldsAt [(16, f.s1.val), (20, f.s2.val), (24, f.s3.val), (28, f.tok.val), (32, f.imm.toNat)]

/-- The group and the word of a core instruction (R190 to R192); none for another command. -/
def coreWord (i : Instr) : Option (GroupRef × Nat) :=
  match i with
  | .coreIadd g f => some (g, wordV f 0x00)
  | .coreIsub g f => some (g, wordV f 0x01)
  | .coreImul g f => some (g, wordV f 0x02)
  | .coreImad g f => some (g, wordV f 0x03)
  | .coreAnd g f => some (g, wordV f 0x04)
  | .coreOr g f => some (g, wordV f 0x05)
  | .coreXor g f => some (g, wordV f 0x06)
  | .coreShl g f => some (g, wordV f 0x07)
  | .coreShr g f => some (g, wordV f 0x08)
  | .coreSar g f => some (g, wordV f 0x09)
  | .coreImin g f => some (g, wordV f 0x0A)
  | .coreImax g f => some (g, wordV f 0x0B)
  | .coreIcmp g f => some (g, wordV f 0x0C)
  | .coreSel g f => some (g, wordV f 0x0D)
  | .coreMov g f => some (g, wordV f 0x0E)
  | .coreMovi g f => some (g, wordI f 0x10)
  | .coreIaddi g f => some (g, wordI f 0x11)
  | .coreLaneid g f => some (g, wordV f 0x12)
  | .coreShfl g f => some (g, wordV f 0x13)
  | .coreFadd g f => some (g, wordV f 0x20)
  | .coreFmul g f => some (g, wordV f 0x21)
  | .coreFfma g f => some (g, wordV f 0x22)
  | .coreFmin g f => some (g, wordV f 0x23)
  | .coreFmax g f => some (g, wordV f 0x24)
  | .coreFcmp g f => some (g, wordV f 0x25)
  | .coreFcvt g f => some (g, wordV f 0x26)
  | .coreFex2 g f => some (g, wordV f 0x27)
  | .coreFlg2 g f => some (g, wordV f 0x28)
  | .coreFrcp g f => some (g, wordV f 0x29)
  | .coreFrsq g f => some (g, wordV f 0x2A)
  | .coreFred g f => some (g, wordV f 0x2B)
  | .coreFrmax g f => some (g, wordV f 0x2C)
  | .coreQblk g f => some (g, wordV f 0x2D)
  | .coreQarr g f => some (g, wordV f 0x2E)
  | .coreLds g f => some (g, wordS f 0x40)
  | .coreSts g f => some (g, wordS f 0x41)
  | .coreAadd g f => some (g, wordS f 0x42)
  | .coreXld g f => some (g, wordM f 0x60)
  | .coreXst g f => some (g, wordM f 0x61)
  | .coreXcp g f => some (g, wordM f 0x62)
  | .coreXgth g f => some (g, wordM f 0x63)
  | .coreWait g f => some (g, wordX f 0x64)
  | .coreMma g f => some (g, wordT f 0x80)
  | .coreAld g f => some (g, wordT f 0x81)
  | .coreAst g f => some (g, wordT f 0x82)
  | .coreAz g f => some (g, wordT f 0x83)
  | .coreBr g f => some (g, wordB f 0xA0)
  | .coreLoop g f => some (g, wordB f 0xA1)
  | .coreCall g f => some (g, wordB f 0xA2)
  | .coreRet g f => some (g, wordB f 0xA3)
  | .coreEnd g f => some (g, wordB f 0xA4)
  | .coreBar g f => some (g, wordX f 0xC0)
  | .coreSig g f => some (g, wordX f 0xC1)
  | .coreWev g f => some (g, wordX f 0xC2)
  | .coreWpt g f => some (g, wordX f 0xC3)
  | .coreAcall g f => some (g, wordX f 0xE0)
  | .coreTopk g f => some (g, wordX f 0xE1)
  | .coreAppend g f => some (g, wordX f 0xE2)
  | .coreFetch g f => some (g, wordX f 0xE2)
  | .coreQend g f => some (g, wordX f 0xE2)
  | .coreEput g f => some (g, wordX f 0xE3)
  | _ => none

/-- Does a group come to an instruction next: its word stands at the group's index in the core's instruction store, so the group issues
its instructions in program order (R180). -/
def State.comesTo (s : State) (i : Instr) : Bool :=
  match coreWord i with
  | none => false
  | some (g, w) =>
    match s.partOfCore g.hub.val g.core.val with
    | none => false
    | some p => (AMap.getD (s.part p).setAct.code (coreNo g) [])[(s.grp g).pc]? == some w

/-! ### Issue -/

/-- The partition for which a group may issue: its step runs, the group runs and does not wait (R177, R179). -/
def State.canIssue (s : State) (g : GroupRef) : Option Nat :=
  match s.partOfCore g.hub.val g.core.val with
  | none => none
  | some p =>
    let st := (s.part p).step
    let r := s.grp g
    if (st.phase == .running || st.phase == .sampled) && !st.halted && r.running && r.wait == .none then some p else none

/-- Issue an instruction: counted, then its effect. `ok` says that verification accepts its shape (R185, R193). A group that
cannot issue it, or that comes to another instruction first, leaves the module as it is. -/
def issue (i : Instr) (mn : String) (ok : Bool) (g : GroupRef) (f : Nat → State → State) (s : State) : Host.Outcome State Fault Refusal :=
  if !ok then .refused (.rejectedAtVerification mn)
  else match s.canIssue g with
    | none => .next s
    | some p => if s.comesTo i then .next (f p (s.count R.DCR.ISSUE p)) else .next s

/-- The group's next instruction is the one that follows. -/
def Group.advance (r : Group) : Group := { r with pc := r.pc + 1 }

/-- Change the group and advance it. -/
def State.retire (g : GroupRef) (f : Group → Group) (s : State) : State := s.onGrp g (fun r => (f r).advance)

/-! ### Faults (R210) -/

/-- Record the first fault (R210, R212). -/
def State.recordFault (p cause hub core group pc : Nat) (s : State) : State :=
  if s.rd R.DCR.FAULT_INFO_CAUSE p ≠ 0 then s
  else
    let s := (s.wr R.DCR.FAULT_INFO_CAUSE p cause).wr R.DCR.FAULT_INFO_HUB p hub
    ((s.wr R.DCR.FAULT_INFO_CORE p core).wr R.DCR.FAULT_INFO_GROUP p group).wr R.DCR.FAULT_PC p pc

/-- Halt the partition's step (step 3 of R210): no further step is formed until DCR_FAULT_CLR. The report is of the unit, instance
and location in which the fault lies, and goes to the coalescer of its hub (R328, R329). -/
def State.haltStep (p kind : Nat) (o : Origin) (s : State) : State :=
  let s := ((s.stopWork p).onStep p (fun t => { t with halted := true })).wr R.DCR.STAT_HALTED p 1
  (s.raise R.DCR.EVT_STEP_HALTED p).report (o.inst % 4) (mkReport o.unit o.inst o.loc kind 2 (2 ^ p) 0)

/-- Steps 1 to 3 of R210 after the fault is recorded: stop, then one replay, or halt when a core fault has already been
replayed in this step. -/
def State.faultAct (p : Nat) (o : Origin) (s : State) : State :=
  let s := (s.count R.DCR.FAULT_CNT p).raise R.DCR.EVT_CORE_FAULT p
  if (s.part p).step.coreFaults = 0 then
    let s := ((s.stopWork p).disturb p).resumeWork p
    s.onStep p (fun t => { t with coreFaults := 1 })
  else s.haltStep p 0x10 o

/-- A group as the origin of a report: unit DCR, its hub, and its core and group in LOCATION [7:0] and [13:8] (R328; log entry 11). -/
def coreOrigin (hub core group : Nat) : Origin := { unit := 5, inst := hub, loc := core + 256 * group }

/-- A group faults (R210). -/
def State.coreFault (g : GroupRef) (p cause : Nat) (s : State) : State :=
  (s.recordFault p cause g.hub.val g.core.val g.group.val (s.grp g).pc).faultAct p (coreOrigin g.hub.val g.core.val g.group.val)

/-! ### Operands (R176, R184, R191) -/

/-- A register field selected as scalar names s0 to s15 (R191, R193). -/
def selOk (sc : Bool) (r : Fin 32) : Bool := !sc || decide (r.val < 16)

/-- Source of a lane: the lane register, or the low 32 bits of a scalar register. -/
def Group.src (r : Group) (sc : Bool) (x : Fin 32) (lane : Nat) : PVal :=
  if sc then { r.sreg x.val with v := (r.sreg x.val).v % 2 ^ 32 } else r.vreg x.val lane

/-- Poison of a lane from the instruction's own predicate. -/
def Group.predPoi (r : Group) (c : Common) (lane : Nat) : Nat := if c.pr.val = 0 then 0 else r.ppoi c.pr.val lane

/-- Union of the poison of a vector register's lanes. -/
def Group.vPoi (r : Group) (x : Nat) : Nat := (List.range 32).foldl (fun o i => o ||| (r.vreg x i).o) 0

/-- Poison of an operand taken whole. -/
def Group.poi (r : Group) (sc : Bool) (x : Fin 32) : Nat := if sc then (r.sreg x.val).o else r.vPoi x.val

/-- Write a lane operation's result in every active lane (R185). `o` is the poison of the operands. -/
def Group.lanes (r : Group) (c : Common) (d : Nat) (f : Nat → PVal) : Group :=
  (List.range 32).foldl (fun (acc : Group) i =>
    if r.active c i then
      let x := f i
      acc.setV d i { x with o := x.o ||| r.predPoi c i }
    else acc) r

/-- Write a compare's predicate in every active lane. -/
def Group.lanesP (r : Group) (c : Common) (pd : Nat) (f : Nat → Bool × Nat) : Group :=
  (List.range 32).foldl (fun (acc : Group) i =>
    if r.active c i then let x := f i; acc.setP pd i x.1 (x.2 ||| r.predPoi c i) else acc) r

/-- How many of the operands A, B, C an operation reads. -/
abbrev Arity := Nat

/-- Shape of a V instruction that computes D from n sources: scalar fields in range, and no predicate on a scalar
destination (R185, R193). -/
def vOk (f : VFmt) (n : Arity) : Bool :=
  selOk f.dsc f.d && (decide (n < 1) || selOk f.asc f.a) && (decide (n < 2) || selOk f.bsc f.b) &&
    (decide (n < 3) || selOk f.csc f.c) && (!f.dsc || Common.plain f.toCommon)

/-- Shape of a compare. -/
def vOkP (f : VFmt) : Bool := selOk f.asc f.a && selOk f.bsc f.b && decide (f.c.val ≤ 6) && f.pd.val != 0

/-- Are the sources of a scalar result scalars too: the spec states no result for the others (log entry 21). -/
def vAllScalar (f : VFmt) (n : Arity) : Bool := (decide (n < 1) || f.asc) && (decide (n < 2) || f.bsc) && (decide (n < 3) || f.csc)

/-- Poison of the sources. -/
def Group.srcPoi (r : Group) (f : VFmt) (n : Arity) : Nat :=
  (if n < 1 then 0 else r.poi f.asc f.a) ||| (if n < 2 then 0 else r.poi f.bsc f.b) ||| (if n < 3 then 0 else r.poi f.csc f.c)

/-- A scalar result the spec does not state: a free value with the poison of the sources. -/
def State.freeScalar (g : GroupRef) (d o : Nat) (s : State) : State :=
  let (x, s) := s.takeFree
  s.retire g (fun r => r.setS d { v := x, o := o })

/-- A V instruction that computes D: `lane` gives a lane's 32-bit result, `scal` the result in a scalar register. -/
def State.computeD (g : GroupRef) (f : VFmt) (n : Arity) (lane : Nat → Nat → Nat → Nat) (scal : Nat → Nat → Nat → Nat)
    (s : State) : State :=
  let r := s.grp g
  if f.dsc then
    if vAllScalar f n then
      s.retire g (fun r => r.setS f.d.val
        { v := scal (r.sreg f.a.val).v (r.sreg f.b.val).v (r.sreg f.c.val).v, o := r.srcPoi f n })
    else s.freeScalar g f.d.val (r.srcPoi f n)
  else s.retire g (fun r => r.lanes f.toCommon f.d.val (fun i =>
    let a := r.src f.asc f.a i
    let b := r.src f.bsc f.b i
    let c := r.src f.csc f.c i
    { v := lane a.v b.v c.v,
      o := (if n < 1 then 0 else a.o) ||| (if n < 2 then 0 else b.o) ||| (if n < 3 then 0 else c.o) }))

/-! ### Scratch addresses and transfers -/

/-- Is any byte of a scratch access at or above 1 MiB (cause 1 of R210). -/
def scratchOut (a n : Nat) : Bool := decide (scratchBytes < a + n) || decide (scratchBytes ≤ a)

/-- A token of a group becomes pending. -/
def State.takeToken (g : GroupRef) (t : Nat) (s : State) : State :=
  s.retire g (fun r => { r with toks := setBits r.toks t 1 1 })

/-- Is a token of a group pending. -/
def State.tokPending (s : State) (g : GroupRef) (t : Nat) : Bool := (s.grp g).toks.testBit t

/-- Queue a transfer of a core on its plan entry. -/
def State.queueXfer (g : GroupRef) (x : Xfer) (s : State) : State :=
  (s.onCore (coreNo g) (fun c => { c with xfers := c.xfers ++ [x] })).takeToken g x.tok

end Sys2Proof.Machine
end

