-- ==== Sys2Proof/Machine/CoreInt.lean ====
section
/-! DEFINITION. Integer instructions and register moves of the digital cores (R192, R194). -/
namespace Sys2Proof.Machine

/-- Width of an integer type: I32, U32, I64, U64 (R192). -/
def intWidth (ty : Nat) : Nat := if 2 ≤ ty then 64 else 32

/-- Is an integer type signed. -/
def intSigned (ty : Nat) : Bool := ty % 2 == 0

/-- The number that a register value stands for. -/
def intVal (ty x : Nat) : Int := if intSigned ty then sx x (intWidth ty) else ((x % 2 ^ intWidth ty : Nat) : Int)

/-- A result in a scalar register: an I32 result is sign-extended, a U32 result has zeros above (DEDUCED, log entry 22). -/
def toScalar (ty x : Nat) : Nat :=
  if ty = 0 then ux (sx x 32) 64 else x % 2 ^ intWidth ty

/-- Integer types of a result D: 64-bit types only with a scalar destination (R192). -/
def vOkInt (f : VFmt) (n : Arity) : Bool := decide (f.ty.val < 4) && (decide (f.ty.val < 2) || f.dsc) && vOk f n

/-- An integer instruction over values of its type, wrapping (R194). -/
def State.intOp (g : GroupRef) (f : VFmt) (n : Arity) (op : Int → Int → Int → Int) (s : State) : State :=
  let ty := f.ty.val
  let w := intWidth ty
  let go (a b c : Nat) : Nat := ux (op (intVal ty a) (intVal ty b) (intVal ty c)) w
  s.computeD g f n go (fun a b c => toScalar ty (go a b c))

/-- An integer instruction on bits. -/
def State.bitOp (g : GroupRef) (f : VFmt) (n : Arity) (op : Nat → Nat → Nat → Nat → Nat) (s : State) : State :=
  let ty := f.ty.val
  let w := intWidth ty
  let go (a b c : Nat) : Nat := op w (a % 2 ^ w) (b % 2 ^ w) (c % 2 ^ w) % 2 ^ w
  s.computeD g f n go (fun a b c => toScalar ty (go a b c))

/-- IADD. -/
def execCoreIadd (g : GroupRef) (f : VFmt) (s : State) : Host.Outcome State Fault Refusal :=
  issue (.coreIadd g f) "IADD" (vOkInt f 2) g (fun _ s => s.intOp g f 2 (fun a b _ => a + b)) s
/-- ISUB. -/
def execCoreIsub (g : GroupRef) (f : VFmt) (s : State) : Host.Outcome State Fault Refusal :=
  issue (.coreIsub g f) "ISUB" (vOkInt f 2) g (fun _ s => s.intOp g f 2 (fun a b _ => a - b)) s
/-- IMUL. -/
def execCoreImul (g : GroupRef) (f : VFmt) (s : State) : Host.Outcome State Fault Refusal :=
  issue (.coreImul g f) "IMUL" (vOkInt f 2) g (fun _ s => s.intOp g f 2 (fun a b _ => a * b)) s
/-- IMAD: A × B + C. -/
def execCoreImad (g : GroupRef) (f : VFmt) (s : State) : Host.Outcome State Fault Refusal :=
  issue (.coreImad g f) "IMAD" (vOkInt f 3) g (fun _ s => s.intOp g f 3 (fun a b c => a * b + c)) s
/-- AND. -/
def execCoreAnd (g : GroupRef) (f : VFmt) (s : State) : Host.Outcome State Fault Refusal :=
  issue (.coreAnd g f) "AND" (vOkInt f 2) g (fun _ s => s.bitOp g f 2 (fun _ a b _ => a &&& b)) s
/-- OR. -/
def execCoreOr (g : GroupRef) (f : VFmt) (s : State) : Host.Outcome State Fault Refusal :=
  issue (.coreOr g f) "OR" (vOkInt f 2) g (fun _ s => s.bitOp g f 2 (fun _ a b _ => a ||| b)) s
/-- XOR. -/
def execCoreXor (g : GroupRef) (f : VFmt) (s : State) : Host.Outcome State Fault Refusal :=
  issue (.coreXor g f) "XOR" (vOkInt f 2) g (fun _ s => s.bitOp g f 2 (fun _ a b _ => a ^^^ b)) s
/-- SHL: by B mod the width. -/
def execCoreShl (g : GroupRef) (f : VFmt) (s : State) : Host.Outcome State Fault Refusal :=
  issue (.coreShl g f) "SHL" (vOkInt f 2) g (fun _ s => s.bitOp g f 2 (fun w a b _ => a <<< (b % w))) s
/-- SHR: logical. -/
def execCoreShr (g : GroupRef) (f : VFmt) (s : State) : Host.Outcome State Fault Refusal :=
  issue (.coreShr g f) "SHR" (vOkInt f 2) g (fun _ s => s.bitOp g f 2 (fun w a b _ => a >>> (b % w))) s
/-- SAR: the sign bit fills. -/
def execCoreSar (g : GroupRef) (f : VFmt) (s : State) : Host.Outcome State Fault Refusal :=
  issue (.coreSar g f) "SAR" (vOkInt f 2) g (fun _ s => s.bitOp g f 2 (fun w a b _ => ux ((sx a w).fdiv (2 ^ (b % w))) w)) s
/-- IMIN. -/
def execCoreImin (g : GroupRef) (f : VFmt) (s : State) : Host.Outcome State Fault Refusal :=
  issue (.coreImin g f) "IMIN" (vOkInt f 2) g (fun _ s => s.intOp g f 2 (fun a b _ => min a b)) s
/-- IMAX. -/
def execCoreImax (g : GroupRef) (f : VFmt) (s : State) : Host.Outcome State Fault Refusal :=
  issue (.coreImax g f) "IMAX" (vOkInt f 2) g (fun _ s => s.intOp g f 2 (fun a b _ => max a b)) s

/-- Condition codes of R191 on ordered numbers: 0 EQ, 1 NE, 2 LT, 3 LE, 4 GT, 5 GE, 6 UNORD. -/
def condOf (c : Nat) (lt eq : Bool) : Bool :=
  match c with
  | 0 => eq
  | 1 => !eq
  | 2 => lt
  | 3 => lt || eq
  | 4 => !lt && !eq
  | 5 => !lt
  | _ => false

/-- ICMP: PD = A cond B. -/
def execCoreIcmp (g : GroupRef) (f : VFmt) (s : State) : Host.Outcome State Fault Refusal :=
  issue (.coreIcmp g f) "ICMP" (decide (f.ty.val < 2) && vOkP f) g (fun _ s =>
    s.retire g (fun r => r.lanesP f.toCommon f.pd.val (fun i =>
      let a := r.src f.asc f.a i
      let b := r.src f.bsc f.b i
      let x := intVal f.ty.val a.v
      let y := intVal f.ty.val b.v
      (condOf f.c.val (decide (x < y)) (x == y), a.o ||| b.o)))) s

/-- SEL: D = A where predicate C is true, else B. A scalar D has no lane to judge by: a free choice (log entry 21). -/
def execCoreSel (g : GroupRef) (f : VFmt) (s : State) : Host.Outcome State Fault Refusal :=
  issue (.coreSel g f) "SEL" (vOkInt f 2 && decide (f.c.val < 8)) g (fun _ s =>
    let r := s.grp g
    if f.dsc then s.freeScalar g f.d.val (r.srcPoi f 2)
    else s.retire g (fun r => r.lanes f.toCommon f.d.val (fun i =>
      let x := if (r.preg f.c.val).testBit i then r.src f.asc f.a i else r.src f.bsc f.b i
      { x with o := x.o ||| r.ppoi f.c.val i }))) s

/-- MOV. -/
def execCoreMov (g : GroupRef) (f : VFmt) (s : State) : Host.Outcome State Fault Refusal :=
  issue (.coreMov g f) "MOV" (vOkInt f 1) g (fun _ s => s.bitOp g f 1 (fun _ a _ _ => a)) s

/-- Shape of an I instruction. -/
def iOk (f : IFmt) (useA : Bool) : Bool :=
  decide (f.ty.val < 4) && (decide (f.ty.val < 2) || f.dsc) && selOk f.dsc f.d && (!useA || selOk f.asc f.a) && (!f.dsc || Common.plain f.toCommon)

/-- D = op(A, IMM), IMM a signed number. -/
def State.immOp (g : GroupRef) (f : IFmt) (useA : Bool) (op : Int → Int → Int) (s : State) : State :=
  let ty := f.ty.val
  let go (a : Nat) : Nat := ux (op (intVal ty a) f.imm.toInt) (intWidth ty)
  if f.dsc then
    if useA && !f.asc then s.freeScalar g f.d.val ((s.grp g).vPoi f.a.val)
    else s.retire g (fun r => r.setS f.d.val
      { v := toScalar ty (go (r.sreg f.a.val).v), o := if useA then (r.sreg f.a.val).o else 0 })
  else s.retire g (fun r => r.lanes f.toCommon f.d.val (fun i =>
    let a := r.src f.asc f.a i
    { v := go a.v, o := if useA then a.o else 0 }))

/-- MOVI: D = IMM. -/
def execCoreMovi (g : GroupRef) (f : IFmt) (s : State) : Host.Outcome State Fault Refusal :=
  issue (.coreMovi g f) "MOVI" (iOk f false) g (fun _ s => s.immOp g f false (fun _ i => i)) s
/-- IADDI: D = A + IMM. -/
def execCoreIaddi (g : GroupRef) (f : IFmt) (s : State) : Host.Outcome State Fault Refusal :=
  issue (.coreIaddi g f) "IADDI" (iOk f true) g (fun _ s => s.immOp g f true (fun a i => a + i)) s

/-- LANEID: D = lane number; a scalar D has none (log entry 21). -/
def execCoreLaneid (g : GroupRef) (f : VFmt) (s : State) : Host.Outcome State Fault Refusal :=
  issue (.coreLaneid g f) "LANEID" (vOkInt f 0) g (fun _ s =>
    if f.dsc then s.freeScalar g f.d.val 0
    else s.retire g (fun r => r.lanes f.toCommon f.d.val (fun i => { v := i }))) s

/-- SHFL: D = A of lane B mod 32. -/
def execCoreShfl (g : GroupRef) (f : VFmt) (s : State) : Host.Outcome State Fault Refusal :=
  issue (.coreShfl g f) "SHFL" (vOkInt f 2) g (fun _ s =>
    let pick (r : Group) (b : PVal) : PVal := let x := r.src f.asc f.a (b.v % 32); { x with o := x.o ||| b.o }
    if f.dsc then
      if f.bsc then s.retire g (fun r =>
        let x := pick r (r.sreg f.b.val)
        r.setS f.d.val { x with v := toScalar f.ty.val x.v })
      else s.freeScalar g f.d.val ((s.grp g).srcPoi f 2)
    else s.retire g (fun r => r.lanes f.toCommon f.d.val (fun i => pick r (r.src f.bsc f.b i)))) s

end Sys2Proof.Machine
end

