-- ==== Sys2Proof/Machine/CoreFp.lean ====
section
/-! DEFINITION. Floating-point, reduction and quantization instructions of the digital cores (R192, R194, R196). -/
namespace Sys2Proof.Machine

/-- FP32 value of an operand of type TY: FP32 or BF16 (R192). -/
def fpIn (ty x : Nat) : Nat := if ty = 1 then bf16Dec x else x % 2 ^ 32

/-- A result placed in its register: FP32, or BF16 rounded once in bits [15:0] (R194). -/
def fpOut (ty x : Nat) : Nat := if ty = 1 then fmtBF16.enc x else x

/-- Shape of a floating-point instruction with n sources. -/
def vOkFp (f : VFmt) (n : Arity) : Bool := decide (f.ty.val < 2) && vOk f n

/-- A floating-point instruction; a scalar result stands in the low 32 bits (DEDUCED, log entry 22). -/
def State.fpOp (g : GroupRef) (f : VFmt) (n : Arity) (op : Nat → Nat → Nat → Nat) (s : State) : State :=
  let ty := f.ty.val
  let go (a b c : Nat) : Nat := fpOut ty (op (fpIn ty a) (fpIn ty b) (fpIn ty c))
  s.computeD g f n go go

/-- FADD. -/
def execCoreFadd (g : GroupRef) (f : VFmt) (s : State) : Host.Outcome State Fault Refusal :=
  issue (.coreFadd g f) "FADD" (vOkFp f 2) g (fun _ s => s.fpOp g f 2 (fun a b _ => fpAdd a b)) s
/-- FMUL. -/
def execCoreFmul (g : GroupRef) (f : VFmt) (s : State) : Host.Outcome State Fault Refusal :=
  issue (.coreFmul g f) "FMUL" (vOkFp f 2) g (fun _ s => s.fpOp g f 2 (fun a b _ => fpMul a b)) s
/-- FFMA: A × B + C with one rounding. -/
def execCoreFfma (g : GroupRef) (f : VFmt) (s : State) : Host.Outcome State Fault Refusal :=
  issue (.coreFfma g f) "FFMA" (vOkFp f 3) g (fun _ s => s.fpOp g f 3 fpFma) s
/-- FMIN. -/
def execCoreFmin (g : GroupRef) (f : VFmt) (s : State) : Host.Outcome State Fault Refusal :=
  issue (.coreFmin g f) "FMIN" (vOkFp f 2) g (fun _ s => s.fpOp g f 2 (fun a b _ => fpMin a b)) s
/-- FMAX. -/
def execCoreFmax (g : GroupRef) (f : VFmt) (s : State) : Host.Outcome State Fault Refusal :=
  issue (.coreFmax g f) "FMAX" (vOkFp f 2) g (fun _ s => s.fpOp g f 2 (fun a b _ => fpMax a b)) s

/-- Condition of FCMP: a NaN is unordered, so only NE and UNORD hold. -/
def fpCond (c a b : Nat) : Bool :=
  if fpIsNaN a || fpIsNaN b then c == 1 || c == 6 else condOf c (fpLt a b) (fpEq a b)

/-- FCMP: PD = A cond B. -/
def execCoreFcmp (g : GroupRef) (f : VFmt) (s : State) : Host.Outcome State Fault Refusal :=
  issue (.coreFcmp g f) "FCMP" (decide (f.ty.val < 2) && vOkP f) g (fun _ s =>
    s.retire g (fun r => r.lanesP f.toCommon f.pd.val (fun i =>
      let a := r.src f.asc f.a i
      let b := r.src f.bsc f.b i
      (fpCond f.c.val (fpIn f.ty.val a.v) (fpIn f.ty.val b.v), a.o ||| b.o)))) s

/-- FEX2. -/
def execCoreFex2 (g : GroupRef) (f : VFmt) (s : State) : Host.Outcome State Fault Refusal :=
  issue (.coreFex2 g f) "FEX2" (vOkFp f 1) g (fun _ s => s.fpOp g f 1 (fun a _ _ => fpEx2 a)) s
/-- FLG2. -/
def execCoreFlg2 (g : GroupRef) (f : VFmt) (s : State) : Host.Outcome State Fault Refusal :=
  issue (.coreFlg2 g f) "FLG2" (vOkFp f 1) g (fun _ s => s.fpOp g f 1 (fun a _ _ => fpLg2 a)) s
/-- FRCP. -/
def execCoreFrcp (g : GroupRef) (f : VFmt) (s : State) : Host.Outcome State Fault Refusal :=
  issue (.coreFrcp g f) "FRCP" (vOkFp f 1) g (fun _ s => s.fpOp g f 1 (fun a _ _ => fpRcp a)) s
/-- FRSQ. -/
def execCoreFrsq (g : GroupRef) (f : VFmt) (s : State) : Host.Outcome State Fault Refusal :=
  issue (.coreFrsq g f) "FRSQ" (vOkFp f 1) g (fun _ s => s.fpOp g f 1 (fun a _ _ => fpRsq a)) s

/-! ### FCVT -/

/-- Code of a value in a format (R83, unscaled): none where the spec states no code. -/
def cvtTo (fmt : Nat) (v : FV) : Option Nat :=
  if fmt = 0 then some (fpPack v)
  else match fmtN fmt with
    | some n => if n.stated (fpPack v) then some (match v with | .fin neg m e => n.encFin neg m e | _ => n.enc (fpPack v)) else none
    | none =>
      match v with
      | .fin neg m e =>
        let x := if e ≥ 0 then sgn neg (m * 2 ^ e.toNat) else rneDiv (sgn neg m) (2 ^ (-e).toNat)
        let w := fmtBits fmt
        if -(2 ^ (w - 1) : Int) ≤ x ∧ x < 2 ^ (w - 1) then some (ux x w) else none
      | _ => none

/-- Conversion of a code of one format to another: a NaN keeps its sign in E4M3, S.1111.111 (R83). -/
def cvtCode (src dst a : Nat) : Option Nat :=
  let a := a % 2 ^ fmtBits src
  match elemFV src a, fmtN dst with
  | .nan, some n => if n.special = 1 then some (n.enc (qNaN + 2 ^ 31 * (a / 2 ^ (fmtBits src - 1)))) else cvtTo dst .nan
  | v, _ => cvtTo dst v

/-- FCVT: from format TY to format C[3:0]; a conversion without a stated code gives a free one (log entry 21). -/
def execCoreFcvt (g : GroupRef) (f : VFmt) (s : State) : Host.Outcome State Fault Refusal :=
  let dst := f.c.val % 16
  issue (.coreFcvt g f) "FCVT" (decide (f.ty.val < 10) && decide (dst < 10) && vOk f 1) g (fun _ s =>
    let (fr, s) := s.takeFree
    let go (lane a : Nat) : Nat :=
      match cvtCode f.ty.val dst a with
      | some x => x
      | none => bits fr (32 * lane) (fmtBits dst)
    if f.dsc then
      if f.asc then s.retire g (fun r => r.setS f.d.val { v := go 0 (r.sreg f.a.val).v, o := (r.sreg f.a.val).o })
      else s.freeScalar g f.d.val ((s.grp g).vPoi f.a.val)
    else s.retire g (fun r => r.lanes f.toCommon f.d.val (fun i =>
      let a := r.src f.asc f.a i
      { v := go i a.v, o := a.o }))) s

/-! ### Reductions (R196) -/

/-- One level of the fixed tree: neighbours in pairs. -/
def pairLevel (op : PVal → PVal → PVal) : List PVal → List PVal
  | a :: b :: t => op a b :: pairLevel op t
  | l => l

/-- The fixed tree over 32 lanes. -/
def laneTree (op : PVal → PVal → PVal) (l : List PVal) : PVal :=
  (pairLevel op (pairLevel op (pairLevel op (pairLevel op (pairLevel op l))))).headD {}

/-- Reduce A over the lanes: inactive lanes contribute +0 (R196). -/
def State.reduce (g : GroupRef) (f : VFmt) (op : Nat → Nat → Nat) (s : State) : State :=
  let ty := f.ty.val
  s.retire g (fun r =>
    let lanes := (List.range 32).map (fun i =>
      if r.active f.toCommon i then
        let a := r.src f.asc f.a i
        ({ v := fpIn ty a.v, o := a.o ||| r.predPoi f.toCommon i } : PVal)
      else { o := r.predPoi f.toCommon i })
    let x := laneTree (fun a b => { v := fpIn ty (fpOut ty (op a.v b.v)), o := a.o ||| b.o }) lanes
    let x : PVal := { x with v := fpOut ty x.v }
    if f.dsc then r.setS f.d.val x else r.lanes f.toCommon f.d.val (fun _ => x))

/-- FRED. -/
def execCoreFred (g : GroupRef) (f : VFmt) (s : State) : Host.Outcome State Fault Refusal :=
  issue (.coreFred g f) "FRED" (vOkFp f 1) g (fun _ s => s.reduce g f fpAdd) s
/-- FRMAX. -/
def execCoreFrmax (g : GroupRef) (f : VFmt) (s : State) : Host.Outcome State Fault Refusal :=
  issue (.coreFrmax g f) "FRMAX" (vOkFp f 1) g (fun _ s => s.reduce g f fpMax) s

/-! ### Quantization (R75, R83, R192) -/

/-- QBLK: the 32 lanes of A to block format TY: code to D, SB8 to scalar C. -/
def execCoreQblk (g : GroupRef) (f : VFmt) (s : State) : Host.Outcome State Fault Refusal :=
  issue (.coreQblk g f) "QBLK" (fmtBlock f.ty.val && !f.dsc && selOk f.asc f.a && decide (f.c.val < 16)) g (fun _ s =>
    let (fr, s) := s.takeFree
    let r := s.grp g
    let vs := (List.range 32).map (fun i => (r.src f.asc f.a i).v)
    let (cs, sc, sat) := quantBlock f.ty.val vs fr
    let o := r.poi f.asc f.a
    let s := s.whenB sat (fun s => s.count R.DCP.SAT_BLOCK_CNT g.hub.val)
    s.retire g (fun r => (r.lanes f.toCommon f.d.val (fun i => { v := cs.getD i 0, o := o })).setS f.c.val { v := sc, o := o })) s

/-- QARR: the 32 lanes of A to array input mode TY with s_ref in scalar B; inactive lanes are declared outliers. Code to D,
remainder to D + 1, SB8 and k to scalar C. A scalar B that is no code of R74 gives free results (log entry 21). -/
def execCoreQarr (g : GroupRef) (f : VFmt) (s : State) : Host.Outcome State Fault Refusal :=
  issue (.coreQarr g f) "QARR" (decide (7 ≤ f.ty.val) && decide (f.ty.val ≤ 9) && !f.dsc && selOk f.asc f.a && decide (f.b.val < 16) &&
      decide (f.c.val < 16) && decide (f.d.val < 31)) g (fun _ s =>
    let (fr, s) := s.takeFree
    let r := s.grp g
    let sref := (r.sreg f.b.val).v
    let vs := (List.range 32).map (fun i => (r.src f.asc f.a i).v)
    let outl := (List.range 32).map (fun i => !r.active f.toCommon i)
    let w := fmtBits f.ty.val
    let q := arrayBlock f.ty.val sref (srefExp sref) vs outl fr
    let o := r.poi f.asc f.a ||| (r.sreg f.b.val).o
    let known := srefOk sref
    let code (i : Nat) : Nat := if known then ux (q.codes.getD i 0) w else bits fr (64 * i) w
    let rem (i : Nat) : Nat := if known then q.rem.getD i 0 else bits fr (64 * i + 32) 32
    let meta_ : Nat := if known then q.sb8 + 256 * q.k else fr % 65536
    let s := s.whenB (known && q.saturated) (fun s => s.count R.DCP.SAT_BLOCK_CNT g.hub.val)
    let s := s.whenB (known && q.sb8 == 0) (fun s => s.count R.DCP.ZERO_BLOCK_CNT g.hub.val)
    s.retire g (fun r =>
      let r := r.lanes f.toCommon f.d.val (fun i => { v := code i, o := o })
      let r := r.lanes f.toCommon (f.d.val + 1) (fun i => { v := rem i, o := o })
      r.setS f.c.val { v := meta_, o := o })) s

end Sys2Proof.Machine
end

