-- ==== Sys2Proof/Machine/Detect.lean ====
section
/-! DEFINITION. A detected error in a unit that works for a step: replay, or a permanent fault (R312, R313, R315). -/
namespace Sys2Proof.Machine

/-- Replay the partition's step from its latest waypoint (R313 step 3); sampling has to run again. -/
def State.replayStep (p : Nat) (s : State) : State :=
  let s := ((s.stopWork p).disturb p).resumeWork p
  s.onStep p (fun t => { t with replays := t.replays + 1 })

/-- A parity failure of a core's scratch (R184, R312): the word carries poison of origin ONDIE from then on, and the failure is
counted. LOCATION of unit DCR holds the core in [7:0] and the word in [25:8] (DESIGN CHOICE, log entry 113). -/
def State.scratchParity (p : Nat) (o : Origin) (s : State) : State :=
  let s := s.onCore (192 * (o.inst % 4) + bits o.loc 0 8) (fun c =>
    let w := bits o.loc 8 18
    { c with scrPoi := AMap.put c.scrPoi w (AMap.getD c.scrPoi w 0 ||| oOndie) 0 })
  s.flagCount R.DCR.EVT_SCRATCH_PARITY R.DCR.PARITY_CNT p

/-- What a parity failure does in its own unit: scratch marks the word and counts (R184), a die-to-die link counts (R394). LOCATION
[31:26] of unit DCR names the store, 0 scratch; a failure of the instruction, group, descriptor, chain, tensor or top-k store is a detected
error alone (R312). Other units' data in flight would be marked, but the replay discards them (DESIGN CHOICE, log entry 113). -/
def State.parityOf (p : Nat) (o : Origin) (s : State) : State :=
  if o.unit = 5 then s.whenB (bits o.loc 26 6 == 0) (fun s => s.scratchParity p o)
  else if o.unit = 10 then s.flagCount R.NOC.EVT_PARITY R.NOC.PARITY_CNT (o.inst % 4)
  else s

/-- Count and report a detected error (R313 steps 1 and 2). -/
def State.noteError (p : Nat) (o : Origin) (s : State) : State :=
  let h := o.inst % 4
  let s := s.parityOf p o
  (s.flagCount R.RELG.EVT_DETECTED R.RELG.DETECTED_CNT h).report h (mkReport o.unit o.inst o.loc 0x01 1 (2 ^ p) 0)

/-- Does the partition's step run and has it not reached its cut. -/
def State.beforeCut (s : State) (p : Nat) : Bool :=
  let st := (s.part p).step
  (st.phase == .running || st.phase == .sampled) && !st.halted

/-- A detected error while the step has not reached its cut: replayed, or permanent when the same origin has failed before in
the step or the step has used its REPLAY_MAX replays (R315). -/
def State.stepError (p : Nat) (o : Origin) (s : State) : State :=
  let h := o.inst % 4
  let st := (s.part p).step
  if st.errors.contains o || decide (clampN 1 7 (s.rd R.REL.CTL_REPLAY_MAX p) ≤ st.replays) then
    (s.count R.RELG.PERM_CNT h).haltStep p 0x02 o
  else ((s.count R.RELG.REPLAY_CNT h).replayStep p).onStep p (fun t => { t with errors := t.errors ++ [o] })

/-- Arm an evaluation; where a parity failure of the stack's tables and records waits, it is acted on in place of that, the oldest first
(R314). -/
def State.armChecked (k : Nat) (j : Job) (it : EvalItem) (dr : Driven) (rb : Nat) (s : State) : State :=
  match (s.stk k).idleErr with
  | [] => s.armItem k j it dr rb
  | o :: t => (s.onStk k (fun u => { u with idleErr := t })).stepError j.part o

/-- EVALUATION_ARM: the next evaluation gets a place and a lane, and arms (R48). Where none can, or a range pass comes next, nothing
changes. -/
def execEvaluationArm (stack : Fin 12) (s : State) : Host.Outcome State Fault Refusal :=
  match s.nextArm stack.val with
  | some (j, it, dr, rb) => if it.range then .next s else .next (s.armChecked stack.val j it dr rb)
  | none => .next s

/-- RANGE_PASS: after LAST, the next range-pass evaluation fires (R103). Where another evaluation comes next, nothing changes. -/
def execRangePass (stack : Fin 12) (s : State) : Host.Outcome State Fault Refusal :=
  match s.nextArm stack.val with
  | some (j, it, dr, rb) => if it.range then .next (s.armChecked stack.val j it dr rb) else .next s
  | none => .next s

end Sys2Proof.Machine
end

