-- ==== Sys2Proof/Machine/Wentar.lean ====
section
/-! DEFINITION. Wentar flits: building, sending with replay, receiving in order, routes, and late flits (R383 to R391). -/
namespace Sys2Proof.Machine

/-! ### Ports -/

/-- Route to a member. -/
def State.route (s : State) (m : Nat) : Route := AMap.getD s.fab.routes m {}
/-- Change the route to a member. -/
def State.onRoute (m : Nat) (f : Route → Route) (s : State) : State :=
  { s with fab := { s.fab with routes := AMap.put s.fab.routes m (f (s.route m)) {} } }

/-! ### Flits (R384) -/

/-- Flit types. -/
def ftLink : Nat := 1
/-- ROLL. -/
def ftRoll : Nat := 2
/-- WRITE. -/
def ftWrite : Nat := 3
/-- BAL, of version 2.0 (R383). -/
def ftBal : Nat := 4

/-- A flit without its link fields: bytes 0 to 7 and 12 to 283, with zeros for LSEQ and LACK. -/
def mkFlit (type flags tag dest src len deliver addr evt : Nat) (payload : List Byte) : List Byte :=
  leBytes 1 type ++ leBytes 1 flags ++ leBytes 2 tag ++ leBytes 1 dest ++ leBytes 1 src ++ leBytes 2 len ++ leBytes 4 0 ++
    leBytes 4 deliver ++ leBytes 8 addr ++ leBytes 4 evt ++ padTo 256 payload

/-- Put LSEQ, LACK and the CRC into a flit. -/
def sealFlit (lseq lack : Nat) (f : List Byte) : List Byte :=
  let b := f.take 8 ++ leBytes 2 lseq ++ leBytes 2 lack ++ (f.drop 12).take 272
  b ++ leBytes 4 (crc32c b)

/-- Is a flit whole: 288 bytes with their CRC. -/
def flitOk (f : List Byte) : Bool := f.length == 288 && fieldLE f 284 4 == crc32c (f.take 284)

/-- TYPE of a flit. -/
def flitType (f : List Byte) : Nat := byteAt f 0

/-- Does a flit carry a reserved encoding: FLAGS [3:2], for a WRITE the other bits of ADDR and an EVT past 255 with SIG, for a ROLL flit a
code that R391 does not list (R15, R384). Such a flit is rejected: dropped and counted (R387). -/
def flitReserved (f : List Byte) : Bool :=
  bits (byteAt f 1) 2 2 != 0 || (flitType f == ftRoll && !(decide (1 ≤ fieldLE f 24 4) && decide (fieldLE f 24 4 ≤ 4))) ||
    (flitType f == ftWrite && (bits (fieldLE f 16 8) 30 34 != 0 || ((byteAt f 1).testBit 1 && decide (255 < fieldLE f 24 4))))

/-- Flits a replay buffer holds (R385). -/
def replayDepth : Nat := 512

/-- Send what waits as far as the replay buffer has room. -/
def State.pumpPort (n : Nat) : Nat → State → State
  | 0, s => s
  | fuel + 1, s =>
    let q := s.port n
    match q.wait with
    | [] => s
    | f :: t =>
      if replayDepth ≤ q.replay.length then s
      else
        let b := sealFlit q.txSeq ((q.rxNext + 65535) % 65536) f
        let s := s.onPort n (fun q => { q with
          wait := t, since := if q.replay.isEmpty then s.clk.devTime else q.since, replay := q.replay ++ [b], txSeq := (q.txSeq + 1) % 65536, out := q.out ++ [.flit b] })
        State.pumpPort n fuel (s.bump R.FAB.TX_BYTES n 288)

/-- Send a flit on a port: ROLL flits go before WRITE flits that wait (R391). -/
def State.sendFlit (n : Nat) (f : List Byte) (s : State) : State :=
  let s := s.onPort n (fun q =>
    if flitType f = ftRoll then { q with wait := q.wait.filter (fun x => flitType x == ftRoll) ++ [f] ++ q.wait.filter (fun x => flitType x != ftRoll) }
    else { q with wait := q.wait ++ [f] })
  s.pumpPort n (s.port n).wait.length

/-- Send a LINK flit: it takes no sequence number (DESIGN CHOICE, log entry 44). -/
def State.linkOn (n : Nat) (f : List Byte) (s : State) : State :=
  let q := s.port n
  (s.portOut n (.flit (sealFlit q.txSeq ((q.rxNext + 65535) % 65536) f))).bump R.FAB.TX_BYTES n 288

/-- A LINK flit without payload asks for the flits after LACK (DESIGN CHOICE, log entry 44). -/
def State.askResend (n : Nat) (s : State) : State := s.linkOn n (mkFlit ftLink 0 0 0 0 0 0 0 0 [])

/-- A measuring flit (R386, R388): a LINK flit whose payload is the device time of its sending; EVT is 0 on the way out and 1 in the answer
(DESIGN CHOICE, log entry 44). -/
def measuringFlit (dest src evt : Nat) (stamp : List Byte) : List Byte := mkFlit ftLink 0 0 dest src stamp.length 0 0 evt stamp

/-- Can a flit for a member be sent: its route is set and the link is up. -/
def State.routeUp (s : State) (m : Nat) : Bool := (s.route m).valid && s.portUp (s.route m).port 1

/-- Send a flit to another member, when its route is up. -/
def State.sendTo (m : Nat) (f : List Byte) (s : State) : State := s.whenB (s.routeUp m) (fun s => s.sendFlit (s.route m).port f)

/-! ### Roll-call flits (R305, R390, R391) -/

/-- Span position of a partition's module. -/
def State.spanPos (s : State) (p : Nat) : Nat := s.rd R.GLB.SPAN_CTL_POSITION p
/-- Members of a partition's span: outside 1 to 32 it acts as the nearest limit. -/
def State.spanSize (s : State) (p : Nat) : Nat := clampN 1 32 (s.rd R.GLB.SPAN_CTL_SIZE p)
/-- Is a partition a span partition. -/
def State.isSpan (s : State) (p : Nat) : Bool := s.is R.GLB.SPAN_CTL_SPAN_EN p
/-- Parent of a member in the tree. -/
def rollParent (j : Nat) : Nat := (j - 1) / 2
/-- Children of a member of a span. -/
def rollKids (size j : Nat) : List Nat := [2 * j + 1, 2 * j + 2].filter (fun k => decide (k < size))

/-- FAB_PART_TAG fields by partition. -/
def tagFields : List Field :=
  [R.FABS.PART_TAG0, R.FABS.PART_TAG1, R.FABS.PART_TAG2, R.FABS.PART_TAG3, R.FABS.PART_TAG4, R.FABS.PART_TAG5, R.FABS.PART_TAG6,
   R.FABS.PART_TAG7, R.FABS.PART_TAG8, R.FABS.PART_TAG9, R.FABS.PART_TAG10, R.FABS.PART_TAG11]
/-- Span tag of a partition; 0 none. -/
def State.spanTag (s : State) (p : Nat) : Nat := match tagFields[p]? with | some f => s.rd f 0 | none => 0

/-- ROLL codes (R391). -/
def rcReady : Nat := 1
/-- GO. -/
def rcGo : Nat := 2
/-- ABORT. -/
def rcAbort : Nat := 3
/-- REPLAY. -/
def rcReplay : Nat := 4

/-- Send a ROLL flit of a partition to a member. -/
def State.sendRoll (p code dest src : Nat) (payload : List Byte) (s : State) : State :=
  s.sendTo dest (mkFlit ftRoll 0 (s.spanTag p) dest src payload.length 0 0 code payload)

/-- Send a code down the tree. -/
def State.rollDown (p code : Nat) (payload : List Byte) (s : State) : State :=
  s.each (rollKids (s.spanSize p) (s.spanPos p)) (fun k s => s.sendRoll p code k (s.spanPos p) payload)

/-- Change the roll record of a partition. -/
def State.onRoll (p : Nat) (f : RollSt → RollSt) (s : State) : State := s.onPart p (fun q => { q with roll := f q.roll })

/-- A member acts on ABORT, or on missing codes (R307); no step starts, so that pieces of recalibration go on (R351). -/
def State.rollFail (p : Nat) (s : State) : State :=
  let s := s.onRoll p (fun r => { r with failed := true, delay := false, ready := [], moves := [] })
  ((s.flagCount R.GLB.EVT_ROLL_FAIL R.GLB.ROLL_FAIL_CNT p).wr R.GLB.STAT_ROLL_WAIT p 0).freePieces p

/-- The leader ends the roll call or the span step with ABORT. -/
def State.leaderAbort (p : Nat) (s : State) : State := (s.rollDown p rcAbort []).rollFail p

/-- A member acts on REPLAY (R390): before its cut it replays, once in a step; past its cut it ignores it, and a leader past
its cut ends the span step. -/
def State.spanReplay (p : Nat) (s : State) : State :=
  if s.beforeCut p then
    if (s.part p).roll.replayed then s
    else
      let s := (s.replayStep p).onRoll p (fun r => { r with replayed := true })
      s.flagCount R.FABS.EVT_SPAN_REPLAY R.FABS.SPAN_REPLAY_CNT 0
  else s.whenB (s.spanPos p == 0) (fun s => s.leaderAbort p)

/-- The leader has a REPLAY to act on: it forwards it down the tree. -/
def State.leaderReplay (p : Nat) (s : State) : State := (s.rollDown p rcReplay []).spanReplay p

/-- Tell the leader to replay the step. -/
def State.askReplay (p : Nat) (s : State) : State :=
  if s.spanPos p = 0 then s.leaderReplay p else s.sendRoll p rcReplay 0 (s.spanPos p) []

/-- A late flit (R390): counted on its port, a detected error of unit FAB, and REPLAY to the leader. A replay that the error
starts stands for the REPLAY's, and the other way round (R393); the same origin again is a permanent fault (R315). A member past its cut
ignores the flit, and the leader, which learns of it by ABORT, ends the span step (R390, R393; DESIGN CHOICE, log entry 136). -/
def State.lateFlit (p port : Nat) (s : State) : State :=
  let s := s.flagCount R.FAB.EVT_LATE_FLIT R.FAB.LATE_CNT port
  let o : Origin := { unit := 11, inst := port / 4 + 4 * port, loc := 0 }
  let s := s.noteError p o
  let st := (s.part p).step
  let s :=
    if !s.beforeCut p then s
    else if (s.part p).roll.replayed && !st.errors.contains o then s.onStep p (fun t => { t with errors := t.errors ++ [o] })
    else (s.stepError p o).onRoll p (fun r => { r with replayed := true })
  if s.beforeCut p then s.askReplay p
  else if s.spanPos p = 0 then s.leaderAbort p else s.sendRoll p rcAbort 0 (s.spanPos p) []

/-- Send a remote write on a route that is up. -/
def State.sendWrite (p : Nat) (w : SpanWrite) (s : State) : State :=
  let fl := (if w.poison then 1 + 16 else 0) + (if w.sig.isSome then 2 else 0)
  s.sendTo w.member (mkFlit ftWrite fl (s.spanTag p) w.member (s.spanPos p) w.data.length w.deliver
    (w.scr + w.core * 2 ^ 20 + w.hub * 2 ^ 28) (w.sig.getD 0) w.data)

/-- Send the remote writes of one copy to a member; with its route down the copy is late on the sender's side (R390). -/
def State.sendWrites (p member : Nat) (ws : List SpanWrite) (s : State) : State :=
  if s.routeUp member then s.each ws (fun w s => s.sendWrite p w) else s.lateFlit p (s.route member).port

/-! ### Links going down, and receiving (R385, R386, R390, R393) -/

/-- Drop a frame or flit. -/
def State.dropOn (n : Nat) (s : State) : State := s.flagCount R.FAB.EVT_DROP R.FAB.DROP_CNT n

/-- The span partition whose step a WRITE flit of this module belongs to. -/
def State.writerOf (s : State) (f : List Byte) : Option Nat :=
  if flitType f = ftWrite ∧ byteAt f 5 = s.rd R.GLBG.STRAP_POSITION 0 then
    (List.range 12).find? (fun p => s.spanTag p != 0 && s.spanTag p == fieldLE f 2 2 && s.isSpan p && s.stepRuns p)
  else none

/-- A port's link goes down: LINK_DOWN, and FORMED clears when a route names the port. WRITE flits of the module that wait there or are not
acknowledged cannot be sent on their route: in a span step they are late on the sender's side (R390, R393). -/
def State.portDown (n : Nat) (s : State) : State :=
  let cut := (s.port n).replay ++ (s.port n).wait
  let s := s.onPort n (fun q => { q with txSeq := 0, rxNext := 0, replay := [], resends := 0, wait := [], pausedTo := 0, held := [] })
  let s := ((s.wr R.FAB.STAT_LINK_UP n 0).wr R.FAB.STAT_VERSION n 0).wr R.FAB.PEER_POS_VALID n 0
  let s := ((s.raise R.FAB.EVT_LINK_DOWN n).wrB R.FAB.STAT_TRAINING n (s.en .fab n)).losePort n
  let s := s.whenB (s.fab.routes.any (fun r => r.2.valid && r.2.port == n)) (fun s => s.wr R.FABS.STAT_FORMED 0 0)
  s.each cut (fun f s => match s.writerOf f with | some p => s.lateFlit p n | none => s)

/-- Send again every flit that is not acknowledged; after 8 resends of one LSEQ the link goes down (R385). -/
def State.resendPort (n : Nat) (s : State) : State :=
  let q := s.port n
  if q.replay.isEmpty then s
  else if 8 ≤ q.resends then s.portDown n
  else
    let s := s.onPort n (fun q => { q with resends := q.resends + 1, since := s.clk.devTime, out := q.out ++ q.replay.map NetOut.flit })
    (s.bump R.FAB.RETRY_CNT n q.replay.length).bump R.FAB.TX_BYTES n (288 * q.replay.length)

/-- Flits that one LACK acknowledges at most: 8 from version 1.1 on, and one in version 1.0 (R383; DEDUCED, log entry 136). -/
def State.ackMost (s : State) (n : Nat) : Nat := if s.rd R.FAB.STAT_VERSION n = 1 then 1 else 8

/-- Take the acknowledgement in a flit: what it acknowledges up to LACK leaves the replay buffer. -/
def State.takeLack (n lack : Nat) (s : State) : State :=
  let q := s.port n
  let first := (q.txSeq + 65536 - q.replay.length) % 65536
  let k := (lack + 1 + 65536 - first) % 65536
  if 0 < k ∧ k ≤ q.replay.length then
    let s := s.onPort n (fun q => { q with replay := q.replay.drop (min k (s.ackMost n)), resends := 0, since := s.clk.devTime })
    s.pumpPort n (s.port n).wait.length
  else s

/-- Receive a flit on a link: CRC, then order; one that fails is discarded and a resend is asked for (R385). Answers whether
the flit goes on. -/
def State.linkReceive (n : Nat) (f : List Byte) (s : State) : Bool × State :=
  if !s.portUp n 1 then (false, s)
  else
    let s := s.bump R.FAB.RX_BYTES n f.length
    if !flitOk f || (flitType f != ftLink && fieldLE f 8 2 != (s.port n).rxNext) then (false, (s.count R.FAB.CRC_FLIT_CNT n).askResend n)
    else
      let s := s.whenB (flitType f != ftLink) (fun s => s.onPort n (fun q => { q with rxNext := (q.rxNext + 1) % 65536 }))
      (true, s.takeLack n (fieldLE f 10 2))

/-- The partition that accepts a flit addressed to this module (R387). -/
def State.flitPart (s : State) (f : List Byte) : Option Nat :=
  let tag := fieldLE f 2 2
  (List.range 12).find? (fun p => !flitReserved f && tag != 0 && s.spanTag p == tag && s.partExists p && s.isSpan p && decide (byteAt f 5 < s.spanSize p))

/-- A flit that the link has handed on goes on to the member that it names: forwarded on its route (R386), which drops it where the route is
down, or taken here by a partition that accepts it (R387). -/
def State.handFlit (n : Nat) (f : List Byte) (act : Nat → State → State) (s : State) : State :=
  if byteAt f 4 ≠ s.rd R.GLBG.STRAP_POSITION 0 then (if s.routeUp (byteAt f 4) then s.sendTo (byteAt f 4) f else s.dropOn n)
  else match s.flitPart f with
    | none => s.dropOn n
    | some p => act p s

end Sys2Proof.Machine
end

