-- ==== Sys2Proof/Machine/CoreMem.lean ====
section
/-! DEFINITION. Scratch accesses, transfers and tokens of the digital cores (R181 to R184, R192, R281, R282, R389). -/
namespace Sys2Proof.Machine

/-! ### Scratch accesses -/

/-- Bytes of an access by SIZE (R191). -/
def accBytes (f : SFmt) : Nat := 2 ^ (if f.size.val = 3 then 4 else f.size.val)

/-- Shape of an S instruction: a 128-bit access names D to D + 3 (R193). -/
def sOk (f : SFmt) : Bool := selOk f.asc f.a && (f.size.val != 3 || decide (f.d.val ≤ 28))

/-- Address of a lane: A + OFF modulo the width of A. -/
def Group.addrOf (r : Group) (f : SFmt) (lane : Nat) : PVal :=
  if f.asc then
    let a := r.sreg f.a.val
    { a with v := (a.v + f.off.toNat + (if f.off.msb then 2 ^ 64 - 2 ^ 32 else 0)) % 2 ^ 64 }
  else
    let a := r.vreg f.a.val lane
    { a with v := (a.v + f.off.toNat) % 2 ^ 32 }

/-- Cause of the fault of a scratch access of n bytes, if any: poison, range, alignment of 128 bits (R210). -/
def accFault (a : PVal) (n : Nat) : Option Nat :=
  if a.o ≠ 0 then some 4 else if scratchOut a.v n then some 1 else if n = 16 ∧ a.v % 16 ≠ 0 then some 2 else none

/-- Active lanes of an instruction. -/
def Group.activeLanes (r : Group) (c : Common) : List Nat := (List.range 32).filter (fun i => r.active c i)

/-- An access of the active lanes, or the fault of the first lane that has one. -/
def State.scratchAccess (g : GroupRef) (p : Nat) (f : SFmt) (n : Nat) (act : Group → State → State) (s : State) : State :=
  let r := s.grp g
  match (r.activeLanes f.toCommon).findSome? (fun i => accFault (r.addrOf f i) n) with
  | some cause => s.coreFault g p cause
  | none => act r s

/-- LDS. -/
def execCoreLds (g : GroupRef) (f : SFmt) (s : State) : Host.Outcome State Fault Refusal :=
  let n := accBytes f
  issue (.coreLds g f) "LDS" (sOk f) g (fun p s => s.scratchAccess g p f n (fun r s =>
    let c := s.core (coreNo g)
    let word (i j : Nat) : PVal :=
      let a := (r.addrOf f i).v + 4 * j
      let w := min n 4
      let x := leNat (c.rd a w)
      { v := if f.sext then ux (sx x (8 * w)) 32 else x, o := c.poi a w ||| r.predPoi f.toCommon i }
    s.retire g (fun r => (List.range (if f.size.val = 3 then 4 else 1)).foldl (fun (acc : Group) j =>
      acc.lanes f.toCommon (f.d.val + j) (fun i => word i j)) r))) s

/-- Bytes that a lane stores with their poison. -/
def Group.storeOf (r : Group) (f : SFmt) (lane : Nat) : Nat × List Byte × Nat :=
  let n := accBytes f
  let ws := (List.range (if f.size.val = 3 then 4 else 1)).map (fun j => r.vreg (f.d.val + j) lane)
  ((r.addrOf f lane).v, (ws.flatMap (fun w => leBytes 4 w.v)).take n,
    ws.foldl (fun o w => o ||| w.o) (r.predPoi f.toCommon lane))

/-- Addresses that more than one lane writes. -/
def clashes (l : List (Nat × List Byte × Nat)) : List Nat :=
  let all := l.flatMap (fun x => (List.range x.2.1.length).map (· + x.1))
  (all.filter (fun a => decide (1 < (all.filter (· == a)).length))).eraseDups

/-- STS: lanes that name one byte leave a free value there (the spec states no order of lanes, log entry 21). -/
def execCoreSts (g : GroupRef) (f : SFmt) (s : State) : Host.Outcome State Fault Refusal :=
  issue (.coreSts g f) "STS" (sOk f) g (fun p s => s.scratchAccess g p f (accBytes f) (fun r s =>
    let l := (r.activeLanes f.toCommon).map (fun i => r.storeOf f i)
    let s := s.onCore (coreNo g) (CoreSt.unpoison (l.map (fun x => (x.1, x.2.1.length))))
    let s := s.each l (fun x s => s.scrWr (coreNo g) x.1 x.2.1 x.2.2)
    let s := s.each (clashes l) (fun a s =>
      let (fr, s) := s.takeFree
      s.scrWr (coreNo g) a [BitVec.ofNat 8 fr] ((l.filter (fun x => x.1 ≤ a && a < x.1 + x.2.1.length)).foldl (fun o x => o ||| x.2.2) 0))
    s.retire g id)) s

/-- Shape of AADD: an integer instruction with a lane destination, I32 or U32 (R192, R193). -/
def aaddOk (f : SFmt) : Bool := selOk f.asc f.a && decide (f.ty.val < 2)

/-- AADD: every active lane adds D to its scratch word and receives the old value; lanes that share a word receive free
values, for the spec states no order of lanes (log entry 21). -/
def execCoreAadd (g : GroupRef) (f : SFmt) (s : State) : Host.Outcome State Fault Refusal :=
  issue (.coreAadd g f) "AADD" (aaddOk f) g (fun p s => s.scratchAccess g p f 4 (fun r s =>
    let cn := coreNo g
    let c := s.core cn
    let l := (r.activeLanes f.toCommon).map (fun i => (i, (r.addrOf f i).v))
    let shared (a : Nat) : Bool := decide (1 < (l.filter (fun x => x.2 < a + 4 && a < x.2 + 4)).length)
    let (fr, s) := s.takeFree
    let s := s.each l (fun x s =>
      let k := s.core cn
      let d := r.vreg f.d.val x.1
      s.scrWr cn x.2 (leBytes 4 (leNat (k.rd x.2 4) + d.v)) (k.poi x.2 4 ||| d.o ||| r.predPoi f.toCommon x.1))
    s.retire g (fun r => r.lanes f.toCommon f.d.val (fun i =>
      let a := (r.addrOf f i).v
      { v := if shared a then bits fr (32 * i) 32 else leNat (c.rd a 4), o := c.poi a 4 })))) s

/-! ### Transfers -/

/-- Does a run of bytes lie in the accumulator window (R462). -/
def inWin (a n : Nat) : Bool := decide (winBase ≤ a) && decide (a + n ≤ winBase + winBytes)

/-- Is a plan entry of a hub of KIND 5 for a core (R280, R281). -/
def State.planCore (s : State) (p hub entry : Nat) (g : GroupRef) : Bool :=
  match (s.part p).setAct.plan.find? (fun x => x.1 == hub) with
  | none => false
  | some x =>
    let w := fieldLE x.2 (64 + 4 * entry) 4
    decide (entry < 255) && bits w 0 4 == 5 && bits w 4 2 == g.hub.val && bits w 6 8 == g.core.val

/-- May a core move a run of memory on a plan entry: in the partition, and where the run touches another hub, that hub's entry is the
core's (R274, R281). -/
def State.xferMemOk (s : State) (p : Nat) (g : GroupRef) (plan a n : Nat) : Bool :=
  inWin a n || (s.inPart p a n && (List.range 4).all (fun h =>
    h == g.hub.val || n == 0 || decide (h < hubOfAddr a) || decide (hubOfAddr (a + n - 1) < h) || s.planCore p h plan g))

/-- What a burst of a transfer touches besides scratch: memory at an address, or the accumulator window, and whether it writes there. -/
inductive XBurst
  | mem (a : Nat) (write : Bool)
  | win (write : Bool)
  | scratch
  deriving DecidableEq, Repr

/-- A burst at an address of the hub address space. -/
def xburst (a : Nat) (write : Bool) : XBurst := if inWin a 64 then .win write else .mem a write

/-- Address of burst i of a gather; its `mem` holds the row size. -/
def gatherAddr (x : Xfer) (rows : List Nat) (i : Nat) : Nat := rows.getD (64 * i / x.mem) 0 + 64 * i % x.mem

/-- The bursts of a transfer, in order. A remote copy has none: its data leaves as remote writes (R389). -/
def State.xferBursts (s : State) (x : Xfer) : List XBurst :=
  match x.kind with
  | .load => (List.range (cdiv x.len 64)).map (fun i => xburst (x.mem + 64 * i) false)
  | .store => (List.range (cdiv x.len 64)).map (fun i => xburst (x.mem + 64 * i) true)
  | .gather rows => (List.range (cdiv x.len 64)).map (fun i => xburst (gatherAddr x rows i) false)
  | .copy _ => (List.range (cdiv x.len 64)).map (fun _ => .scratch)
  | .append e l k n => (s.appendBursts x.part e l k n).map (fun b => .mem (64 * b) true)
  | .fetch e l o k n => (s.fetchBursts x.part e l o k n).map (fun b => .mem (64 * b) false)
  | _ => []

/-- Bursts of a transfer that have not moved. -/
def State.xferLeft (s : State) (x : Xfer) : List Nat :=
  (List.range (s.xferBursts x).length).filter (fun i => !x.moved.contains i)

/-- Cause of the fault of a memory transfer, if any. -/
def State.xferFault (s : State) (p : Nat) (g : GroupRef) (f : MFmt) (scr mem len : PVal) : Option Nat :=
  if scr.o ≠ 0 ∨ mem.o ≠ 0 ∨ len.o ≠ 0 then some 4
  else if scratchOut scr.v len.v then some 1
  else if mem.v % 64 ≠ 0 ∨ len.v % 64 ≠ 0 then some 2
  else if !s.xferMemOk p g f.plan.val mem.v len.v then some 3
  else none

/-- A token-issuing instruction waits while its token is pending (R193): nothing happens yet. -/
def issueTok (i : Instr) (mn : String) (ok : Bool) (g : GroupRef) (t : Nat) (f : Nat → State → State) (s : State) :
    Host.Outcome State Fault Refusal :=
  if ok && s.tokPending g t then .next s else issue i mn ok g f s

/-- Transfers carry no predicate (R185). -/
def mOk (f : MFmt) : Bool := Common.plain f.toCommon

/-- Queue a load or a store. -/
def State.memXfer (g : GroupRef) (p : Nat) (f : MFmt) (k : XferKind) (s : State) : State :=
  let r := s.grp g
  let scr := r.sreg f.sa.val
  let mem := r.sreg f.sm.val
  let len := r.sreg f.sl.val
  match s.xferFault p g f scr mem len with
  | some c => s.coreFault g p c
  | none => s.queueXfer g { src := g, tok := f.tok.val, plan := f.plan.val, kind := k, scr := scr.v, mem := mem.v, len := len.v, part := p }

/-- XLD. -/
def execCoreXld (g : GroupRef) (f : MFmt) (s : State) : Host.Outcome State Fault Refusal :=
  issueTok (.coreXld g f) "XLD" (mOk f) g f.tok.val (fun p s => s.memXfer g p f .load) s
/-- XST. -/
def execCoreXst (g : GroupRef) (f : MFmt) (s : State) : Host.Outcome State Fault Refusal :=
  issueTok (.coreXst g f) "XST" (mOk f) g f.tok.val (fun p s => s.memXfer g p f .store) s

/-- Queue a remote copy: its bursts become remote writes with the DELIVER count of R389. The hc count at issue is a free value that is not
below the count last seen in the step, and stands as seen from then on (log entry 23). -/
def State.remoteCopy (g : GroupRef) (p : Nat) (f : MFmt) (scr sm len : Nat) (s : State) : State :=
  let member := bits sm 56 5
  let hub := bits sm 48 2
  let core := bits sm 40 8
  let dst := bits sm 0 20
  if len % 64 ≠ 0 then s.coreFault g p 2
  else if member = s.rd R.GLB.SPAN_CTL_POSITION p ∨ s.rd R.GLB.SPAN_CTL_SIZE p ≤ member then s.coreFault g p 3
  else if scratchOut dst len then s.coreFault g p 1
  else
    let (fr, s) := s.takeFree
    let now := (s.part p).roll.count + fr
    let s := s.onPart p (fun q => { q with roll := { q.roll with count := now } })
    let deliver := now + s.rd R.FABS.DELIVER_HC 0
    let c := s.core (coreNo g)
    let ws : List SpanWrite := (List.range (len / 64)).map (fun i =>
      { member := member, hub := hub, core := core, scr := dst + 64 * i, deliver := deliver
        data := c.rd (scr + 64 * i) 64, poison := c.poi (scr + 64 * i) 64 != 0 })
    let s := s.queueXfer g { src := g, tok := f.tok.val, plan := f.plan.val, kind := .remote member hub core deliver, scr := scr,
                             mem := sm, len := len, part := p }
    s.sendWrites p member ws

/-- XCP: to the scratch of another core of the hub and partition, or of a span member (R182, R389). -/
def execCoreXcp (g : GroupRef) (f : MFmt) (s : State) : Host.Outcome State Fault Refusal :=
  issueTok (.coreXcp g f) "XCP" (mOk f) g f.tok.val (fun p s =>
    let r := s.grp g
    let scr := r.sreg f.sa.val
    let sm := r.sreg f.sm.val
    let len := r.sreg f.sl.val
    if scr.o ≠ 0 ∨ sm.o ≠ 0 ∨ len.o ≠ 0 then s.coreFault g p 4
    else if scratchOut scr.v len.v then s.coreFault g p 1
    else if sm.v.testBit 63 then s.remoteCopy g p f scr.v sm.v len.v
    else
      let core := bits sm.v 40 8
      let dst := bits sm.v 0 20
      if scratchOut dst len.v then s.coreFault g p 1
      else if 192 ≤ core ∨ s.partOfCore g.hub.val core ≠ some p then s.coreFault g p 3
      else s.queueXfer g { src := g, tok := f.tok.val, plan := f.plan.val, kind := .copy core, scr := scr.v, mem := dst,
                           len := len.v, part := p }) s

/-- XGTH: gathers SL[47:32] rows of SL[23:0] bytes from SM + index × SL[23:0], with 32-bit indices in scratch at SX. -/
def execCoreXgth (g : GroupRef) (f : MFmt) (s : State) : Host.Outcome State Fault Refusal :=
  issueTok (.coreXgth g f) "XGTH" (mOk f) g f.tok.val (fun p s =>
    let r := s.grp g
    let scr := r.sreg f.sa.val
    let sm := r.sreg f.sm.val
    let sl := r.sreg f.sl.val
    let sx := r.sreg f.sx.val
    let rows := bits sl.v 32 16
    let rb := bits sl.v 0 24
    let c := s.core (coreNo g)
    if scr.o ≠ 0 ∨ sm.o ≠ 0 ∨ sl.o ≠ 0 ∨ sx.o ≠ 0 then s.coreFault g p 4
    else if scratchOut scr.v (rows * rb) ∨ scratchOut sx.v (4 * rows) then s.coreFault g p 1
    else if c.poi sx.v (4 * rows) ≠ 0 then s.coreFault g p 4
    else
      let addrs := (List.range rows).map (fun i => sm.v + leNat (c.rd (sx.v + 4 * i) 4) * rb)
      if rb % 64 ≠ 0 ∨ sm.v % 64 ≠ 0 then s.coreFault g p 2
      else if addrs.any (fun a => !s.xferMemOk p g f.plan.val a rb) then s.coreFault g p 3
      else s.queueXfer g { src := g, tok := f.tok.val, plan := f.plan.val, kind := .gather addrs, scr := scr.v, mem := rb,
                           len := rows * rb, part := p }) s

/-! ### Movement and completion -/

/-- Write 64 bytes to scratch with the poison of the block they come from: every 32-bit word of it (R184). -/
def State.toScratch (cn scr : Nat) (bs : List Byte) (o : Nat) (s : State) : State := s.scrWr cn scr bs o

/-- Read a burst for a core: memory, which the controller decodes, or the window. -/
def State.readBurst (p h a : Nat) (s : State) : (List Byte × Nat) × State :=
  if inWin a 64 then
    let (bs, s) := s.winReadBy h p a 64
    ((bs, 0), s)
  else
    let o := s.readOrigins p a 64
    ((s.mrd a 64, o), s.touch a 64)

/-- Write a burst for a core. -/
def State.writeBurst (p h a : Nat) (bs : List Byte) (o : Nat) (s : State) : State :=
  if inWin a 64 then s.winWrite h p a bs else s.mput a bs o

/-- A core has read SHARED poison: the block of the active placement in which it lies is fetched again (R319). -/
def State.noteShared (p a o : Nat) (s : State) : State :=
  if o &&& oShared = 0 then s
  else
    match (s.part p).active with
    | none => s
    | some pl =>
      match pl.blocks.find? (fun b => b.resident && decide (b.addr ≤ a + 63) && decide (a < b.addr + b.length)) with
      | some b => s.startRepair p b
      | none => s

/-- A core reads a burst into its scratch. -/
def State.loadBurst (cn p a scr : Nat) (s : State) : State :=
  let (d, s) := s.readBurst p (cn / 192) a
  (s.toScratch cn scr d.1 d.2).noteShared p a d.2

/-- Move burst i of a transfer of core cn. What a KVOP moves is done as a whole with its completion: R183 leaves open which bursts have
arrived before. -/
def State.moveBurst (cn : Nat) (x : Xfer) (i : Nat) (s : State) : State :=
  match x.kind with
  | .load => s.loadBurst cn x.part (x.mem + 64 * i) (x.scr + 64 * i)
  | .store =>
    let c := s.core cn
    s.writeBurst x.part (cn / 192) (x.mem + 64 * i) (c.rd (x.scr + 64 * i) 64) (c.poi (x.scr + 64 * i) 64)
  | .copy core =>
    let c := s.core cn
    let n := min 64 (x.len - 64 * i)
    s.scrWr (192 * (cn / 192) + core) (x.mem + 64 * i) (c.rd (x.scr + 64 * i) n) (c.poi (x.scr + 64 * i) n)
  | .gather rows => s.loadBurst cn x.part (gatherAddr x rows i) (x.scr + 64 * i)
  | _ => s

/-- Finish a transfer: a key-value operation is done, and the token is complete (R183, R230). -/
def State.finishXfer (cn : Nat) (x : Xfer) (s : State) : State :=
  let s := s.onCore cn (fun c => { c with xfers := c.xfers.erase x })
  let s := match x.kind with
    | .append e l k n => s.kvAppend x.part cn x.scr e l k n
    | .fetch e l o k n => s.kvFetch x.part cn x.scr e l o k n
    | .qend e l k b => s.kvQend x.part cn x.scr e l k b
    | _ => s
  s.completeToken x.src x.tok

/-- Has a transfer reached the count at which its token completes: for a remote copy the DELIVER of its last flit (R389). -/
def State.countReached (s : State) (x : Xfer) : Bool :=
  match x.kind with
  | .remote _ _ _ d => decide (d ≤ (s.part x.part).roll.count)
  | _ => true

/-- TRANSFER_COMPLETE: the last burst of the transfer that a token stands for is written. A transfer with a burst that no slot has moved
yet, or behind another of its plan entry, is not due (R182, R183), nor a remote copy before its count (R389). -/
def execTransferComplete (g : GroupRef) (token : Fin 16) (s : State) : Host.Outcome State Fault Refusal :=
  let cn := coreNo g
  let l := (s.core cn).xfers
  match l.find? (fun x => x.src == g && x.tok == token.val) with
  | none => .next s
  | some x =>
    if (s.xferLeft x).isEmpty && (l.find? (fun y => y.plan == x.plan)) == some x && s.countReached x then .next (s.finishXfer cn x) else .next s

/-- WAIT: until token TOK is complete (R192). -/
def execCoreWait (g : GroupRef) (f : XFmt) (s : State) : Host.Outcome State Fault Refusal :=
  issue (.coreWait g f) "WAIT" (Common.plain f.toCommon) g (fun _ s =>
    s.retire g (fun r => if r.toks.testBit f.tok.val then { r with wait := .token f.tok.val } else r)) s

end Sys2Proof.Machine
end

