-- ==== Sys2Proof/Machine/CoreTensor.lean ====
section
/-! DEFINITION. The tensor instructions of the digital cores (R192, R195). -/
namespace Sys2Proof.Machine

/-- K of an MMA by format code (R195). -/
def mmaK (ty : Nat) : Nat := if ty = 1 then 8 else if ty = 6 ∨ ty = 7 then 32 else 16

/-- Is the format of an MMA an integer format. -/
def mmaInt (ty : Nat) : Bool := 7 ≤ ty && ty ≤ 9

/-- An accumulator tile: 512 words, row by row. -/
def CoreSt.tile (c : CoreSt) (a : Nat) : List PVal := AMap.getD c.tiles a []

/-- Element (i, j) of a tile. -/
def tileAt (t : List PVal) (i j : Nat) : PVal := t.getD (32 * i + j) {}

/-- Store a tile. -/
def State.putTile (cn a : Nat) (t : List PVal) (s : State) : State :=
  s.onCore cn (fun c => { c with tiles := AMap.put c.tiles a t [] })

/-- Exact sum of taken-apart values and an FP32 value, rounded once (R195): any NaN, or infinities of both signs, give NaN. -/
def exactSum (l : List FV) : Nat :=
  if l.any (fun v => match v with | .nan => true | _ => false) then qNaN
  else
    let pinf := l.any (fun v => match v with | .inf false => true | _ => false)
    let ninf := l.any (fun v => match v with | .inf true => true | _ => false)
    if pinf && ninf then qNaN
    else if pinf then fpPack (.inf false)
    else if ninf then fpPack (.inf true)
    else
      let e0 := l.foldl (fun (a : Int) v => match v with | .fin _ m e => if m = 0 then a else min a e | _ => a) 0
      fpOfInt (l.foldl (fun (a : Int) v => match v with | .fin n m e => a + sgn n (m * 2 ^ (e - e0).toNat) | _ => a) 0) e0

/-- Limit to INT32, with whether the limit acted. -/
def limit32 (x : Int) : Int × Bool :=
  let y := clampI (-2147483648) 2147483647 x
  (y, y != x)

/-- Operands of an MMA as they lie in scratch. -/
structure MmaIn where
  ty : Nat
  sa : Nat
  sb : Nat
  ssa : Nat
  ssb : Nat
  usa : Bool
  usb : Bool

/-- Bytes of one packed row of A, or column of B. -/
def MmaIn.lineBytes (m : MmaIn) : Nat := mmaK m.ty * fmtBits m.ty / 8

/-- Unscaled element k of line i from a base. -/
def MmaIn.elem (m : MmaIn) (c : CoreSt) (base i k : Nat) : Nat :=
  unpackElem (fmtBits m.ty) (c.rd (base + i * m.lineBytes) m.lineBytes) k

/-- Scale of a line: its SB8 byte, or 1. -/
def mmaScale (c : CoreSt) (use : Bool) (base i : Nat) : FV :=
  if use then sb8Val ((c.rd (base + i) 1).headD 0).toNat else .fin false 1 0

/-- Poison of the operands of element (i, j). -/
def MmaIn.poi (m : MmaIn) (c : CoreSt) (i j : Nat) : Nat :=
  c.poi (m.sa + i * m.lineBytes) m.lineBytes ||| c.poi (m.sb + j * m.lineBytes) m.lineBytes |||
    (if m.usa then (if mmaInt m.ty then c.poi (m.ssa + 2 * i) 2 else c.poi (m.ssa + i) 1) else 0) |||
    (if m.usb then c.poi (m.ssb + j) 1 else 0)

/-- New element (i, j) of a tile, with whether INT32 limited it (R195). -/
def MmaIn.update (m : MmaIn) (c : CoreSt) (old : PVal) (i j : Nat) : PVal × Bool :=
  let ks := List.range (mmaK m.ty)
  let o := old.o ||| m.poi c i j
  if mmaInt m.ty then
    let w := fmtBits m.ty
    let dot := ks.foldl (fun (a : Int) k => a + sx (m.elem c m.sa i k) w * sx (m.elem c m.sb j k) w) 0
    let mul : Int := if m.usa then sx (leNat (c.rd (m.ssa + 2 * i) 2)) 16 else 1
    let (x, lim) := limit32 (sx old.v 32 + mul * dot)
    ({ v := ux x 32, o := o }, lim)
  else
    let sc := fvMul (mmaScale c m.usa m.ssa i) (mmaScale c m.usb m.ssb j)
    let terms := ks.map (fun k => fvMul (fvMul (elemFV m.ty (m.elem c m.sa i k)) (elemFV m.ty (m.elem c m.sb j k))) sc)
    -- a scale of 0xFF gives NaN whatever the elements
    ({ v := exactSum (fpDec old.v :: sc' sc ++ terms), o := o }, false)
where
  /-- A NaN scale as a term of its own; none otherwise. -/
  sc' (sc : FV) : List FV := match sc with | .nan => [.nan] | _ => []

/-- Range, alignment or poison fault of an MMA's operand addresses (R210). -/
def mmaFault (r : Group) (f : TFmt) : Option Nat :=
  let bytes := mmaK f.ty.val * fmtBits f.ty.val / 8
  let sa := r.sreg f.sa.val
  let sb := r.sreg f.sb.val
  let ssa := r.sreg f.ssa.val
  let ssb := r.sreg f.ssb.val
  if sa.o ≠ 0 ∨ sb.o ≠ 0 ∨ (f.usa ∧ ssa.o ≠ 0) ∨ (f.usb ∧ ssb.o ≠ 0) then some 4
  else if scratchOut sa.v (16 * bytes) ∨ scratchOut sb.v (32 * bytes) ∨
      (f.usa ∧ scratchOut ssa.v (if mmaInt f.ty.val then 32 else 16)) ∨ (f.usb ∧ scratchOut ssb.v 32) then some 1
  else if sa.v % 64 ≠ 0 ∨ sb.v % 64 ≠ 0 then some 2
  else none

/-- Row and column of a tile word. -/
def tileIdx : List (Nat × Nat) := (List.range 16).flatMap (fun i => (List.range 32).map (fun j => (i, j)))

/-- MMA (R195). -/
def execCoreMma (g : GroupRef) (f : TFmt) (s : State) : Host.Outcome State Fault Refusal :=
  issue (.coreMma g f) "MMA" (Common.plain f.toCommon && decide (1 ≤ f.ty.val) && decide (f.ty.val ≤ 9) && !(f.usb && mmaInt f.ty.val)) g
    (fun p s =>
      let s := s.count R.DCR.MMA p
      let r := s.grp g
      match mmaFault r f with
      | some cause => s.coreFault g p cause
      | none =>
        let c := s.core (coreNo g)
        let m : MmaIn := { ty := f.ty.val, sa := (r.sreg f.sa.val).v, sb := (r.sreg f.sb.val).v, ssa := (r.sreg f.ssa.val).v,
                           ssb := (r.sreg f.ssb.val).v, usa := f.usa, usb := f.usb }
        let old := if f.clr then [] else c.tile f.at_.val
        let new := tileIdx.map (fun x => m.update c (tileAt old x.1 x.2) x.1 x.2)
        let lim := (new.filter (·.2)).length
        let s := s.whenB (lim != 0) (fun s => (s.bump R.DCR.INT_SAT_CNT p lim).raise R.DCR.EVT_INT_SAT p)
        (s.putTile (coreNo g) f.at_.val (new.map (·.1))).retire g id) s

/-- Fault of a tile load or store of n bytes at SA: aligned to 64 bytes (DEDUCED, log entry 22). -/
def tileFault (a : PVal) (n : Nat) : Option Nat :=
  if a.o ≠ 0 then some 4 else if scratchOut a.v n then some 1 else if a.v % 64 ≠ 0 then some 2 else none

/-- ALD: tile AT from scratch at SA, row-major. -/
def execCoreAld (g : GroupRef) (f : TFmt) (s : State) : Host.Outcome State Fault Refusal :=
  issue (.coreAld g f) "ALD" (Common.plain f.toCommon) g (fun p s =>
    let a := (s.grp g).sreg f.sa.val
    match tileFault a 2048 with
    | some cause => s.coreFault g p cause
    | none =>
      let c := s.core (coreNo g)
      let t := (List.range 512).map (fun i => ({ v := leNat (c.rd (a.v + 4 * i) 4), o := c.poi (a.v + 4 * i) 4 } : PVal))
      (s.putTile (coreNo g) f.at_.val t).retire g id) s

/-- AST: tile AT to scratch at SA, as FP32 or BF16. -/
def execCoreAst (g : GroupRef) (f : TFmt) (s : State) : Host.Outcome State Fault Refusal :=
  issue (.coreAst g f) "AST" (Common.plain f.toCommon && decide (f.ty.val ≤ 1)) g (fun p s =>
    let a := (s.grp g).sreg f.sa.val
    let w := if f.ty.val = 1 then 2 else 4
    match tileFault a (512 * w) with
    | some cause => s.coreFault g p cause
    | none =>
      let t := (s.core (coreNo g)).tile f.at_.val
      let s := s.onCore (coreNo g) (CoreSt.unpoison [(a.v, 512 * w)])
      let s := s.each (List.range 512) (fun i s =>
        let x := t.getD i {}
        s.scrWr (coreNo g) (a.v + w * i) (leBytes w (if f.ty.val = 1 then fmtBF16.enc x.v else x.v)) x.o)
      s.retire g id) s

/-- AZ: tile AT to +0. -/
def execCoreAz (g : GroupRef) (f : TFmt) (s : State) : Host.Outcome State Fault Refusal :=
  issue (.coreAz g f) "AZ" (Common.plain f.toCommon) g (fun _ s => (s.putTile (coreNo g) f.at_.val []).retire g id) s

end Sys2Proof.Machine
end

