-- ==== Sys2Proof/Machine/CoreCtl.lean ====
section
/-! DEFINITION. Control flow, synchronization and unit calls of the digital cores, and the step timeout (R186 to R189, R206
to R208, R210, R230). -/
namespace Sys2Proof.Machine

/-! ### Branches (R186) -/

/-- Target of a branch: relative to its own index (DEDUCED, log entry 22). -/
def branchTo (r : Group) (f : BFmt) : Int := (r.pc : Int) + f.tgt.toInt

/-- Does a target lie in the core's instruction store (R193, R199). -/
def targetOk (x : Int) : Bool := decide (0 ≤ x) && decide (x < 16384)

/-- Is the target of a group's branch in the code section. -/
def State.brOk (s : State) (g : GroupRef) (f : BFmt) : Bool := targetOk (branchTo (s.grp g) f)

/-- Poison of a branch condition: of the predicate in any lane. -/
def Group.condPoi (r : Group) (c : Common) : Nat := (List.range 32).foldl (fun o i => o ||| r.predPoi c i) 0

/-- BR: one path for the whole group. -/
def execCoreBr (g : GroupRef) (f : BFmt) (s : State) : Host.Outcome State Fault Refusal :=
  issue (.coreBr g f) "BR" (decide (f.mode.val < 3) && s.brOk g f) g (fun p s =>
    let r := s.grp g
    let n := (r.activeLanes f.toCommon).length
    if r.condPoi f.toCommon ≠ 0 then s.coreFault g p 4
    else
      let taken := if f.mode.val = 0 then n != 0 else if f.mode.val = 1 then n == 32 else n == 0
      s.onGrp g (fun r => if taken then { r with pc := (branchTo r f).toNat } else r.advance)) s

/-- LOOP: decrements the scalar register SC and branches when it is not zero. -/
def execCoreLoop (g : GroupRef) (f : BFmt) (s : State) : Host.Outcome State Fault Refusal :=
  issue (.coreLoop g f) "LOOP" (decide (f.sc.val < 16) && Common.plain f.toCommon && s.brOk g f) g (fun p s =>
    let x := (s.grp g).sreg f.sc.val
    if x.o ≠ 0 then s.coreFault g p 4
    else
      let v := (x.v + (2 ^ 64 - 1)) % 2 ^ 64
      s.onGrp g (fun r =>
        let r' := r.setS f.sc.val { v := v }
        if v ≠ 0 then { r' with pc := (branchTo r f).toNat } else r'.advance)) s

/-- Does the predicate of a CALL or RET let it act: true in any lane, as in BR with MODE ANY (R185; log entry 22). -/
def Group.acts (r : Group) (c : Common) : Bool := !(r.activeLanes c).isEmpty

/-- CALL: a full return stack is a fault. -/
def execCoreCall (g : GroupRef) (f : BFmt) (s : State) : Host.Outcome State Fault Refusal :=
  issue (.coreCall g f) "CALL" (s.brOk g f) g (fun p s =>
    let r := s.grp g
    if r.condPoi f.toCommon ≠ 0 then s.coreFault g p 4
    else if !r.acts f.toCommon then s.retire g id
    else if 8 ≤ r.ret.length then s.coreFault g p 5
    else s.onGrp g (fun r => { r with ret := (r.pc + 1) :: r.ret, pc := (branchTo r f).toNat })) s

/-- RET: an empty return stack is a fault. -/
def execCoreRet (g : GroupRef) (f : BFmt) (s : State) : Host.Outcome State Fault Refusal :=
  issue (.coreRet g f) "RET" true g (fun p s =>
    let r := s.grp g
    if r.condPoi f.toCommon ≠ 0 then s.coreFault g p 4
    else if !r.acts f.toCommon then s.retire g id
    else match r.ret with
      | [] => s.coreFault g p 5
      | x :: t => s.onGrp g (fun r => { r with pc := x, ret := t })) s

/-- END: the group ends. -/
def execCoreEnd (g : GroupRef) (f : BFmt) (s : State) : Host.Outcome State Fault Refusal :=
  issue (.coreEnd g f) "END" (Common.plain f.toCommon) g (fun _ s => s.onGrp g (fun r => { r with running := false })) s

/-! ### Synchronization (R187 to R189) -/

/-- BAR n, c: the c-th arrival releases all. -/
def execCoreBar (g : GroupRef) (f : XFmt) (s : State) : Host.Outcome State Fault Refusal :=
  let n := bits f.imm.toNat 0 4
  let c := bits f.imm.toNat 8 7
  issue (.coreBar g f) "BAR" (Common.plain f.toCommon && decide (1 ≤ c) && decide (c ≤ 64)) g (fun _ s =>
    let cn := coreNo g
    let a := AMap.getD (s.core cn).bars n 0 + 1
    let s := s.retire g id
    if c ≤ a then
      s.onCore cn (fun k => { k with
        bars := AMap.put k.bars n 0 0
        groups := k.groups.map (fun e => (e.1, if e.2.wait = .barrier n then { e.2 with wait := .none } else e.2)) })
    else (s.onCore cn (fun k => { k with bars := AMap.put k.bars n a 0 })).onGrp g (fun r => { r with wait := .barrier n })) s

/-- SIG e, m. -/
def execCoreSig (g : GroupRef) (f : XFmt) (s : State) : Host.Outcome State Fault Refusal :=
  issue (.coreSig g f) "SIG" (Common.plain f.toCommon) g (fun p s =>
    (s.each (maskBits 4 (bits f.imm.toNat 8 4)) (fun h s => s.signal p h (bits f.imm.toNat 0 8))).retire g id) s

/-- WEV e, s: until counter e of the group's own hub is at least the low 32 bits of S1. -/
def execCoreWev (g : GroupRef) (f : XFmt) (s : State) : Host.Outcome State Fault Refusal :=
  issue (.coreWev g f) "WEV" (Common.plain f.toCommon) g (fun p s =>
    let x := (s.grp g).sreg f.s1.val
    let e := bits f.imm.toNat 0 8
    if x.o ≠ 0 then s.coreFault g p 4
    else
      let n := AMap.getD (s.hub g.hub.val).events (256 * p + e) 0
      s.retire g (fun r => if x.v % 2 ^ 32 ≤ n then r else { r with wait := .event e (x.v % 2 ^ 32) })) s

/-- Release a waypoint that every started group has reached: program counters, scalars and return stacks are saved (R189). -/
def State.releaseWpt (p k : Nat) (s : State) : State :=
  let started := (s.ownCores p).flatMap (fun c => ((s.core c).groups.map (·.2)).filter (·.saved))
  if started.all (fun r => r.wait == .waypoint k) then
    let s := s.each (s.ownCores p) (fun c s => s.onCore c (fun u => { u with groups := u.groups.map (fun e => (e.1,
      if e.2.saved then { e.2 with wait := .none, savedPc := e.2.pc, savedS := e.2.s, savedRet := e.2.ret } else e.2)) }))
    s.onStep p (fun t => { t with
      wpt := k, topkKeep := t.topkNext, entries := t.entries.map (fun e => { e with opErrHeld := e.opErr }) })
  else s

/-- WPT k. -/
def execCoreWpt (g : GroupRef) (f : XFmt) (s : State) : Host.Outcome State Fault Refusal :=
  issue (.coreWpt g f) "WPT" (Common.plain f.toCommon) g (fun p s =>
    let k := bits f.imm.toNat 0 16
    (s.retire g (fun r => { r with wait := .waypoint k })).releaseWpt p k) s

/-! ### Unit calls -/

/-- Is the input tensor of an ACALL wide enough for the row blocks of the chain (R206). -/
def State.acallWide (s : State) (p : Nat) (c : ChainRec) (t : TensorRec) : Bool :=
  (s.chainDescs p c).all (fun d => decide (2048 * (s.rowBlkOf p c.stack d + 1) ≤ t.cols))

/-- ACALL (R206): the chain joins its stack's tile sequencer, once for each row. Cause 6 of a row count or format that R206 does not allow is
the model's reading (DEDUCED, log entry 143). -/
def execCoreAcall (g : GroupRef) (f : XFmt) (s : State) : Host.Outcome State Fault Refusal :=
  issueTok (.coreAcall g f) "ACALL" (Common.plain f.toCommon) g f.tok.val (fun p s =>
    let r := s.grp g
    let s1 := r.sreg f.s1.val
    let s2 := r.sreg f.s2.val
    let s3 := r.sreg f.s3.val
    let n := bits s3.v 0 16
    if s1.o ≠ 0 ∨ s2.o ≠ 0 ∨ s3.o ≠ 0 then s.coreFault g p 4
    else match s.chainRec p s1.v, s.tensorRec p s2.v with
      | some c, some t =>
        if !s.owns p c.stack || !(decide (7 ≤ t.fmt) && decide (t.fmt ≤ 9)) || !s.acallWide p c t || n = 0 ||
            decide (16384 < n) then s.coreFault g p 6
        else
          let k := c.stack
          let id := (s.stk k).nextJob
          let j : Job := { id := id, part := p, src := g, tok := f.tok.val, chain := s1.v, tensor := s2.v
                           row0 := bits s3.v 16 32, n := n, rung := c.rung }
          let s := s.takeToken g f.tok.val
          (s.onStk k (fun u => { u with jobs := u.jobs ++ [j], nextJob := id + 1 })).startRun k id
      | _, _ => s.coreFault g p 6) s

/-- Do the areas that a call record names lie in the partition (R274). -/
def State.topkAreasOk (s : State) (p : Nat) (r : TopkRec) : Bool :=
  s.inPart p r.outAddr (16 + 8 * r.k) && (r.src == 0 || s.inPart p r.inAddr ((if r.src = 1 then 4 else 2) * r.n)) &&
    (!r.adjEn || r.adjCount == 0 || s.inPart p r.adjAddr (16 * r.adjCount)) && (!r.exclEn || s.inPart p r.exclAddr (cdiv r.n 8))

/-- TOPK (R207): queued on its home hub. Cause 3 of an index outside the TOPK section is the model's reading (DEDUCED, log entry 143). -/
def execCoreTopk (g : GroupRef) (f : XFmt) (s : State) : Host.Outcome State Fault Refusal :=
  issueTok (.coreTopk g f) "TOPK" (Common.plain f.toCommon) g f.tok.val (fun p s =>
    let x := (s.grp g).sreg f.s1.val
    if x.o ≠ 0 then s.coreFault g p 4
    else
      let rec? : Option (List Byte) :=
        if f.imm.toNat.testBit 0 then (s.part p).setAct.topk[x.v]? else if s.inPart p x.v 48 then some (s.mrd x.v 48) else none
      match rec? with
      | none => s.coreFault g p 3
      | some b =>
        let r := TopkRec.ofBytes b
        if !f.imm.toNat.testBit 0 && s.mbad x.v 48 then s.coreFault g p 4
        else if (r.bad && !s.inPart p r.outAddr 16) || (!r.bad && !s.topkAreasOk p r) then s.coreFault g p 3
        else
          let call : TopkCall := { part := p, call := b, no := (s.part p).step.topkNext, src := g, tok := f.tok.val }
          let h := s.topkHome p g.hub.val b
          let s := s.whenB (!f.imm.toNat.testBit 0) (fun s => s.touch x.v 48)
          let s := (s.takeToken g f.tok.val).onStep p (fun t => { t with topkNext := t.topkNext + 1 })
          s.onHub h (fun u => { u with topk := u.topk ++ [call] })) s

/-- Deliver a digital-rung result (R207, R208): to the value that the epilogue sent to the digital rung, or as the value of
the run that waits at rung 3. -/
def State.deliver (p chain row : Nat) (c : ChainRec) (vals : List PVal) (s : State) : State :=
  let h := c.collHub
  match (s.hub h).vals.find? (fun v => v.part == p && v.chain == chain && v.row == row && v.asked) with
  | some v => s.onVal h v (fun v => { v with dig := some vals })
  | none =>
    match (s.stk c.stack).jobs.find? (fun j => j.part == p && j.chain == chain && j.row == row && j.stage == .digital) with
    | none => s
    | some j =>
      let s := if c.flags.testBit 1 then s
        else
          let cv : ChainVal := { part := p, chain := chain, row := row, job := j.id, rung := 3, vals := [], flags := [],
                                 tensor := j.tensor, dig := some vals, sums := j.sums, sE := j.sE
                                 pairs := j.accepted / 2, rangePairs := j.acceptedRange / 2, widen := j.widen }
          s.onHub h (fun u => { u with vals := u.vals ++ [cv] })
      if j.cur + 1 < j.n ∨ !c.flags.testBit 1 then s.nextRow c.stack j.id
      else (s.completeToken j.src j.tok).nextRow c.stack j.id

/-- EPUT (R207): COLS values of scratch become the chain's value for the row. The token is complete with it. Cause 6 of a chain
outside the set is the model's reading (DEDUCED, log entry 143). -/
def execCoreEput (g : GroupRef) (f : XFmt) (s : State) : Host.Outcome State Fault Refusal :=
  issueTok (.coreEput g f) "EPUT" (Common.plain f.toCommon) g f.tok.val (fun p s =>
    let r := s.grp g
    let s1 := r.sreg f.s1.val
    let s2 := r.sreg f.s2.val
    let s3 := r.sreg f.s3.val
    if s1.o ≠ 0 ∨ s2.o ≠ 0 ∨ s3.o ≠ 0 then s.coreFault g p 4
    else match s.chainRec p s1.v with
      | none => s.coreFault g p 6
      | some c =>
        let cols := match s.tensorRec p c.outTensor with | some t => min t.cols dataCols | none => dataCols
        if scratchOut s3.v (4 * cols) then s.coreFault g p 1
        else
          let k := s.core (coreNo g)
          let vals := (List.range cols).map (fun i => ({ v := leNat (k.rd (s3.v + 4 * i) 4), o := k.poi (s3.v + 4 * i) 4 } : PVal))
          (s.deliver p s1.v s2.v c vals).retire g id) s

/-- Shape of a KVOP with function fn: other IMM bits 0 (R230). -/
def kvopOk (f : XFmt) (fn : Nat) : Bool := Common.plain f.toCommon && f.imm.toNat % 256 == fn && decide (f.imm.toNat < 65536)

/-- May a core use a plan entry for a burst of memory: its own hub's, and in another hub one that is the core's (R281). -/
def State.burstOk (s : State) (p : Nat) (g : GroupRef) (plan : Nat) (b : XBurst) : Bool :=
  match b with
  | .mem a _ => hubOfAddr a == g.hub.val || s.planCore p (hubOfAddr a) plan g
  | _ => true

/-- Queue a KVOP: poisoned operands, scratch ranges and the plan entries of its bursts are judged first (R210, R281). -/
def State.kvop (g : GroupRef) (p : Nat) (f : XFmt) (bytes : Nat → Nat) (kind : Nat → Nat → XferKind) (s : State) : State :=
  let r := s.grp g
  let s1 := r.sreg f.s1.val
  let s2 := r.sreg f.s2.val
  let s3 := r.sreg f.s3.val
  let x : Xfer := { src := g, tok := f.tok.val, plan := bits f.imm.toNat 8 8, kind := kind s2.v s3.v, scr := s1.v, mem := 0,
                    len := bytes s3.v, part := p }
  if s1.o ≠ 0 ∨ s2.o ≠ 0 ∨ s3.o ≠ 0 then s.coreFault g p 4
  else if scratchOut s1.v (bytes s3.v) then s.coreFault g p 1
  else if !(s.xferBursts x).all (s.burstOk p g x.plan) then s.coreFault g p 3
  else s.queueXfer g x

/-- APPEND (R230). -/
def execCoreAppend (g : GroupRef) (f : XFmt) (s : State) : Host.Outcome State Fault Refusal :=
  issueTok (.coreAppend g f) "APPEND" (kvopOk f 1) g f.tok.val (fun p s =>
    s.kvop g p f (fun x => bits x 24 16 * s.kvPlb p) (fun e x => .append e (bits x 0 8) (bits x 8 16) (bits x 24 16))) s

/-- FETCH (R230). -/
def execCoreFetch (g : GroupRef) (f : XFmt) (s : State) : Host.Outcome State Fault Refusal :=
  issueTok (.coreFetch g f) "FETCH" (kvopOk f 2) g f.tok.val (fun p s =>
    s.kvop g p f (fun x => 64 * s.kvPlb p + 8 * bits x 48 8) (fun e x =>
      .fetch e (bits x 0 8) (if bits x 8 24 = 0xFFFFFF then none else some (bits x 8 24)) (bits x 32 16) (bits x 48 8))) s

/-- QEND (R231). -/
def execCoreQend (g : GroupRef) (f : XFmt) (s : State) : Host.Outcome State Fault Refusal :=
  issueTok (.coreQend g f) "QEND" (kvopOk f 3) g f.tok.val (fun p s =>
    s.kvop g p f (fun x => bits x 24 16) (fun e x => .qend e (bits x 0 8) (bits x 8 16) (bits x 24 16))) s

/-! ### Timeout and release of a halted partition (R210) -/

/-- Has the step, or its replay, run for DCR_STEP_TMO ms of device time (R210). -/
def State.stepLate (s : State) (p : Nat) : Bool :=
  s.passed (s.part p).step.started (1000000 * s.rd R.DCR.STEP_TMO p)

/-- STEP_TIMEOUT: cause 7, once the time has run out. No group faults, so the record's group and index are open: free values (log entry
24). -/
def execStepTimeout (part : Fin 12) (s : State) : Host.Outcome State Fault Refusal :=
  let p := part.val
  let st := (s.part p).step
  if (st.phase == .running || st.phase == .sampled) && !st.halted && s.stepLate p then
    let (fr, s) := s.takeFree
    let (hub, core, group) := (bits fr 0 2, bits fr 2 8 % 192, bits fr 10 6)
    .next ((s.recordFault p 7 hub core group (bits fr 16 14)).faultAct p (coreOrigin hub core group))
  else .next s

/-- DCR_FAULT_CLR (R210, R212): the fault record is free and HALTED clears. -/
def State.actFaultClr (p : Nat) (s : State) : State :=
  let s := (s.wr R.DCR.FAULT_INFO_CAUSE p 0).wr R.DCR.FAULT_INFO_HUB p 0
  let s := ((s.wr R.DCR.FAULT_INFO_CORE p 0).wr R.DCR.FAULT_INFO_GROUP p 0).wr R.DCR.FAULT_PC p 0
  s.wr R.DCR.STAT_HALTED p 0

/-- FAULT_CLR. -/
def execFaultClr (part : Fin 12) (s : State) : Host.Outcome State Fault Refusal := .next (s.ofPart part.val (State.actFaultClr part.val))

end Sys2Proof.Machine
end

