-- ==== Sys2Proof/Machine/Reports.lean ====
section
/-! DEFINITION. Report records, their emission, the black box and fatal events (R328 to R334, R409, R445, R448, R449). -/
namespace Sys2Proof.Machine

/-! ### Emission (R330) -/

/-- The 32 bytes of a report record (R328). -/
def Report.image (r : Report) : List Byte :=
  leBytes 8 r.time ++ leBytes 2 r.unit ++ leBytes 2 r.inst ++ leBytes 4 r.loc ++ leBytes 1 r.kind ++ leBytes 1 r.sev ++
    leBytes 2 r.count ++ leBytes 2 r.parts ++ leBytes 2 0 ++ leBytes 8 r.detail

/-- Records a black-box ring holds (R331). -/
def ringRecords : Nat := 4096

/-- Append a record to a hub's ring; a full ring loses its oldest. -/
def State.ringPut (h : Nat) (b : List Byte) (s : State) : State :=
  s.onHub h (fun u => { u with ring := (u.ring ++ [b]).drop ((u.ring.length + 1) - ringRecords) })

/-- Copy a record to the host link: an EVENT frame, dropped below version 1.1 or when the hub's queue of 256 is full
(R405, R409). -/
def State.hostCopy (h : Nat) (b : List Byte) (s : State) : State :=
  if s.rd R.RELG.CTL_HOST_COPY h = 0 then s
  else if s.rd R.HLK.STAT_VERSION 0 < 2 ∨ 256 ≤ (s.link.evts.filter (fun e => e.1 == h)).length then
    s.flagCount R.HLK.EVT_EVT_DROP R.HLK.EVT_DROP_CNT 0
  else { s with link := { s.link with evts := s.link.evts ++ [(h, linkFrame 7 0 b)] } }

/-- Change the management record. -/
def State.onMgt (f : MgtSt → MgtSt) (s : State) : State := { s with mgt := f s.mgt }

/-- The mandatory data byte of an in-band interrupt: that of a pending read of MCTP (R441; PRESUMED, log entry 57). -/
def ibiByte : Byte := 0xAE
/-- Raise an in-band interrupt. -/
def State.raiseIbi (s : State) : State := s.onMgt (fun m => { m with ibi := m.ibi ++ [ibiByte] })
/-- Queue a message for the bus owner, with an in-band interrupt unless the controller has disabled them (R441, R442). -/
def State.mctpSend (b : List Byte) (s : State) : State :=
  (s.onMgt (fun m => { m with mctpOut := m.mctpOut ++ [b] })).whenB (s.mgt.i3cOff % 2 == 0) State.raiseIbi

/-- Header of a lantern datagram (R448). -/
def State.lanHeader (s : State) (kind count seq : Nat) : List Byte :=
  ascii "KWLANTRN" ++ leBytes 1 kind ++ leBytes 1 1 ++ leBytes 2 count ++ leBytes 4 0 ++ leBytes 8 (s.rd R.SECG.DEV_ID 0) ++
    leBytes 8 s.clk.devTime ++ leBytes 8 (s.mgt.lanSeq + 1) ++ leBytes 8 seq ++ leBytes 16 0

/-- Collector address. -/
def State.lanDest (s : State) : Nat := s.addrOf [R.MGT.LAN_DEST_0, R.MGT.LAN_DEST_1, R.MGT.LAN_DEST_2, R.MGT.LAN_DEST_3] 0
/-- Gateway. -/
def State.lanGw (s : State) : Nat := s.addrOf [R.MGT.LAN_GW_0, R.MGT.LAN_GW_1, R.MGT.LAN_GW_2, R.MGT.LAN_GW_3] 0
/-- The lantern's own address. -/
def State.lanIp6 (s : State) : Nat := s.ip6Of 16

/-- The station to which the lantern sends: the collector, or the gateway when that is off-link (R447, R457). -/
def State.lanHop (s : State) : Nat := if s.lanGw = 0 || Config.onLink s.lanIp6 s.lanDest then s.lanDest else s.lanGw

/-- Send a lantern datagram. -/
def State.lanSend (kind count seq : Nat) (payload : List Byte) (s : State) : State :=
  let d := s.lanHeader kind count seq ++ payload
  (s.onMgt (fun m => { m with lanOut := m.lanOut ++ [(s.lanHop, d)], lanSeq := m.lanSeq + 1 })).count R.MGT.LAN_TX_CNT 0

/-- Does the lantern send records: MGT EN of hub 0, outside RECOVERY and SCRAP (R449). -/
def State.lantern (s : State) : Bool := s.en .mgt 0 && !s.is R.SECG.STAT_RECOVERY 0 && s.rd R.SECG.STAT_LC_STATE 0 != 4

/-- A PLDM request or answer as an MCTP message of type 1: instance byte, type, command, data (log entry 57). -/
def pldmMsg (inst type cmd : Nat) (data : List Byte) : List Byte :=
  [1, BitVec.ofNat 8 inst, BitVec.ofNat 8 type, BitVec.ofNat 8 cmd] ++ data

/-- PlatformEventMessage of class 0xF0 with a record (R445). -/
def State.eventMsg (s : State) (b : List Byte) : List Byte := pldmMsg 0x80 2 0x0A ([1, BitVec.ofNat 8 s.mgt.tid, 0xF0] ++ b)

/-- Send the records of the last 1 ms that wait (R449). -/
def State.lanFlush (s : State) : State :=
  match s.mgt.lanOpen with
  | none => s
  | some (_, rs) =>
    let s := s.onMgt (fun m => { m with lanOpen := none })
    if s.lantern then s.lanSend 2 rs.length (s.mgt.recSeq + 1 - rs.length) rs.flatten else s

/-- Nanoseconds between the copies of a record of severity 3 (R449). -/
def lanSpacing : Nat := 100000

/-- What the lantern has to send at the present device time: the records of a 1 ms that has passed, and copies (R449). -/
def State.lanDue (s : State) : State :=
  let s := match s.mgt.lanOpen with
    | some (t, _) => s.whenB (s.passed t 1000000) State.lanFlush
    | none => s
  let (now, later) := s.mgt.lanAgain.partition (fun x => decide (x.1 ≤ s.clk.devTime))
  let s := s.onMgt (fun m => { m with lanAgain := later })
  s.whenB s.lantern (fun s => s.each now (fun x s => s.lanSend 2 1 x.2.1 x.2.2))

/-- Give an emitted record to the lantern: it joins the datagram of its 1 ms, or one of severity 3 goes at once, three
times (R449). The record has the sequence in `recSeq`. -/
def State.lanRecord (b : List Byte) (sev : Nat) (s : State) : State :=
  let now := s.clk.devTime
  let s := s.lanDue
  if sev = 3 then
    let s := s.lanFlush
    let seq := s.mgt.recSeq + 1
    let s := s.onMgt (fun m => { m with
      recSeq := m.recSeq + 1, held := (b :: m.held).take ringRecords
      lanAgain := m.lanAgain ++ [(now + lanSpacing, seq, b), (now + 2 * lanSpacing, seq, b)] })
    s.whenB s.lantern (fun s => s.lanSend 2 1 seq b)
  else
    let s := match s.mgt.lanOpen with
      | some (_, rs) => s.whenB (decide (40 ≤ rs.length)) State.lanFlush
      | none => s
    s.onMgt (fun m => { m with
      recSeq := m.recSeq + 1, held := (b :: m.held).take ringRecords
      lanOpen := match m.lanOpen with | some (t, rs) => some (t, rs ++ [b]) | none => some (now, [b]) })

/-- Queue a platform event for a record of severity 2 or 3 (R445): at most 64; a full queue drops its oldest message of
severity 2; with none to drop, the new message is not queued (DESIGN CHOICE, log entry 124). -/
def State.pldmEvent (b : List Byte) (sev : Nat) (s : State) : State :=
  if s.mgt.receiver.isNone ∨ sev < 2 then s
  else if s.mgt.evts.length < 64 then (s.onMgt (fun m => { m with
    evts := m.evts ++ [(sev, b)], evtAt := if m.evts.isEmpty then s.clk.devTime else m.evtAt })).mctpSend (s.eventMsg b)
  else
    let s := s.flagCount R.MGT.EVT_PLDM_EVT_DROP R.MGT.PLDM_EVT_DROP_CNT 0
    match s.mgt.evts.find? (fun e => e.1 == 2) with
    | some e => (s.onMgt (fun m => { m with evts := m.evts.erase e ++ [(sev, b)] })).mctpSend (s.eventMsg b)
    | none => s

/-- Emit a record of a hub (R330). -/
def State.emitRec (h : Nat) (b : List Byte) (sev : Nat) (s : State) : State :=
  ((((s.count R.RELG.RECORDS h).lanRecord b sev).pldmEvent b sev).ringPut h b).hostCopy h b

/-- Close every open window of a hub, in the order in which they opened, the overflow window last (R329, R330). -/
def State.closeAll (h : Nat) (s : State) : State :=
  let u := s.hub h
  let ws := u.windows ++ u.overflow.toList
  let s := s.onHub h (fun u => { u with windows := [], overflow := none })
  s.each ws (fun w s => s.emitRec h w.rep.image w.rep.sev)

/-! ### Stopping a self-test (R456) -/

/-- Does a self-test run (R451). -/
def State.testing (s : State) : Bool := s.rd R.BST.STAT_STATE 0 == 1

/-- The pattern passes of a running full test go on to the `n`th (R453): each counts wear before its first train (R166), and the tiers
then hold levels that nothing states until the test ends (R456). -/
def State.testTo (n : Nat) (s : State) : State :=
  let more := n - s.bst.pass
  if more = 0 then s
  else
    let (d, s) := s.takeDraw
    let out := (maskBits 12 (s.rd R.BST.UNITS 0)).flatMap (fun k => s.leftOut k s.bst.pass more)
    let s := s.each (maskBits 12 (s.rd R.BST.UNITS 0)) (fun k s =>
      (s.wearStack k more).onNv (fun v => { v with unknown := AMap.set v.unknown k d }))
    { s with bst := { pass := n, skipped := s.bst.skipped ++ out } }.freeTrains

/-- How far a running full test has come by now: how long a pass takes is not stated, so that it is a free value, no less than before
(log entry 116). -/
def State.testGoesOn (s : State) : State :=
  if s.testing && s.rd R.BST.CTL_TEST 0 == 2 then
    let (n, s) := s.takeFree
    s.testTo (s.bst.pass + n % (7 - s.bst.pass))
  else s

/-- Stop the running self-test: its results are discarded. Of a full test, the passes begun count wear, and the tiers hold unknown
levels (R456). Of a memory test, what the named stacks hold is left as it was (DESIGN CHOICE, log entry 51). -/
def State.stopTest (s : State) : State :=
  if !s.testing then s
  else ((s.testGoesOn.wr R.BST.STAT_STATE 0 3).raise R.BST.EVT_ABORTED 0).setProgramming

/-! ### The black box (R331 to R333) -/

/-- Start a commit of a hub's ring; a trigger during a commit starts none (R332). -/
def State.startCommit (h cause : Nat) (s : State) : State :=
  if (s.hub h).commit.isSome then s
  else
    let s := s.closeAll h
    (s.onHub h (fun u => { u with commit := some (s.clk.devTime, cause, u.ring) })).wr R.RELG.STAT_COMMITTING h 1

/-- Send a report of severity 3: every window of its hub closes at once, and the hub commits (R330, R332). -/
def State.reportSevere (h : Nat) (r : Report) (cause : Nat) (s : State) : State :=
  ((s.report h { r with sev := 3 }).closeAll h).startCommit h cause

/-- Close one window of a hub: an open window by its place, or the overflow window at 64 (R329). -/
def State.closeWindow (h w : Nat) (s : State) : State :=
  let u := s.hub h
  let x? := if w < 64 then u.windows[w]? else u.overflow
  match x? with
  | none => s
  | some x =>
    let s := s.onHub h (fun u => if w < 64 then { u with windows := u.windows.eraseIdx w } else { u with overflow := none })
    let s := s.emitRec h x.rep.image x.rep.sev
    if x.rep.sev = 3 then (s.closeAll h).startCommit h 1 else s

/-- Device time at which a window of a hub opened. -/
def State.windowOpened (s : State) (h w : Nat) : Nat :=
  match (if w < 64 then (s.hub h).windows[w]? else (s.hub h).overflow) with
  | some x => x.opened
  | none => 0

/-- COALESCING_WINDOW_CLOSE: a window closes 1 ms of device time after it opened (R329). -/
def execCoalescingWindowClose (hub : Fin 4) (window : Nat) (s : State) : Host.Outcome State Fault Refusal :=
  .next (s.whenB (s.passed (s.windowOpened hub.val window) 1000000) (fun s => s.closeWindow hub.val window))

/-- Bytes of a firmware record: stamped with TIME, UNIT 0xFFFE and KIND 0x30 (R331). -/
def State.fwRecord (s : State) (h : Nat) : List Byte :=
  let w := [R.RELG.FW_REC0, R.RELG.FW_REC1, R.RELG.FW_REC2, R.RELG.FW_REC3, R.RELG.FW_REC4, R.RELG.FW_REC5].flatMap
    (fun f => leBytes 4 (s.rd f h))
  leBytes 8 s.clk.devTime ++ leBytes 2 0xFFFE ++ (w.drop 2).take 6 ++ leBytes 1 0x30 ++ w.drop 9

/-- REL_FW_CTL.PUSH: the record is emitted at once and not coalesced (R331). -/
def State.actPush (h : Nat) (s : State) : State :=
  let b := s.fwRecord h
  let sev := byteAt b 17
  let s := s.emitRec h b sev
  if sev = 3 then (s.closeAll h).startCommit h 3 else s

/-- PUSH. -/
def execPush (hub : Fin 4) (s : State) : Host.Outcome State Fault Refusal := .next (s.actPush hub.val)

/-- COMMIT: REL_BB_CTL.COMMIT, a commit of cause 3 (R332). -/
def execCommit (hub : Fin 4) (s : State) : Host.Outcome State Fault Refusal := .next (s.startCommit hub.val 3)

/-- The array stack whose log field takes a hub's commit (R332): the lowest-numbered whose log field passed its last write. Where none
did, the lowest-numbered one (DESIGN CHOICE, log entry 25). -/
def State.logStack (s : State) (h : Nat) : Nat :=
  ([3 * h, 3 * h + 1, 3 * h + 2].find? (fun k => AMap.getD s.nv.logBad k 0 == 0)).getD (3 * h)

/-- A commit slot of a hub (R333): the slot of the hub's log stack. -/
def State.bbSlot (s : State) (h i : Nat) : Option BbSlot := AMap.get? s.nv.bb (4 * s.logStack h + i)

/-- The oldest of the 4 commit slots: a slot never written, else the one of lowest SEQ. -/
def State.oldestSlot (s : State) (h : Nat) : Nat :=
  let age (i : Nat) : Nat := match s.bbSlot h i with | some x => x.seq + 1 | none => 0
  (List.range 4).foldl (fun b i => if age i < age b then i else b) 0

/-- Highest SEQ in a hub's slots. -/
def State.topSeq (s : State) (h : Nat) : Nat :=
  (List.range 12).foldl (fun m j => match AMap.get? s.nv.bb (12 * h + j) with | some x => max m x.seq | none => m) 0

/-- The module in reset: every volatile field as at reset, the non-volatile cells kept (R364, R369, R494). A full self-test that
ran is cut short. -/
def State.toReset (cause : Nat) (s : State) : State :=
  let s := s.stopTest
  { State.reset with nv := s.nv, free := s.free, pending := s.pending, clk := { cause := cause, refOn := s.clk.refOn } }

/-- A reset that waits for commits happens when the last has ended (R494). -/
def State.resetDue (s : State) : State :=
  if s.clk.resetHeld && (List.range 4).all (fun h => (s.hub h).commit.isNone) then s.toReset 2 else s

/-- BB_COMMITTED: the snapshot is in the oldest slot (R332, R333). What fills the places of records that the ring did not
hold is open: free values; so is whether the log field passes the write (log entry 25). -/
def execBbCommitted (hub : Fin 4) (s : State) : Host.Outcome State Fault Refusal :=
  let h := hub.val
  let k := s.logStack h
  match (s.hub h).commit with
  | some (t, cause, recs) =>
    let seq := s.topSeq h + 1
    let hdr := ascii "KWBLKBOX" ++ leBytes 8 seq ++ leBytes 8 t ++ leBytes 1 cause ++ leBytes 1 h ++ leBytes 2 recs.length ++ leBytes 32 0
    let (fr, s) := s.takeFree
    let body := recs.flatten ++ leBytes (32 * (ringRecords - recs.length)) fr
    let img := hdr ++ leBytes 4 (crc32c (hdr ++ body)) ++ body
    let i := s.oldestSlot h
    let (ok, s) := s.takeFree
    let s := s.onNv (fun n => { n with
      bb := AMap.set n.bb (4 * k + i) { seq := seq, bytes := img }, logBad := AMap.put n.logBad k (ok % 2) 0 })
    let s := (s.onHub h (fun u => { u with commit := none })).wr R.RELG.STAT_COMMITTING h 0
    .next (s.flagCount R.RELG.EVT_BB_COMMITTED R.RELG.BB_COMMIT_CNT h).resetDue
  | none => .next s

/-! ### Fatal events (R334) -/

/-- A fatal event found in a unit of hub h: no partition forms a step from now on, every hub commits, and FATAL is set in
every hub's page (DEDUCED, log entry 26). -/
def State.fatal (h : Nat) (r : Report) (s : State) : State :=
  let s := (s.reportSevere h { r with kind := 0x12 } 1).stopTest
  s.each (List.range 4) (fun g s => ((s.startCommit g 1).wr R.RELG.STAT_FATAL g 1).raise R.RELG.EVT_FATAL_EVT g)

/-- Has a fatal event stopped the module. -/
def State.isFatal (s : State) : Bool := (List.range 4).any (fun h => s.is R.RELG.STAT_FATAL h)

/-- SECURITY_PARITY_FAILURE: in security or life-cycle state (R334). -/
def execSecurityParityFailure (hub : Fin 4) (detail : Nat) (s : State) : Host.Outcome State Fault Refusal :=
  .next (s.fatal hub.val (mkReport 15 hub.val 0 0x12 3 0 detail))

/-- INPUT_OVERVOLTAGE: above 59.5 V for 10 µs is a fatal event (R357). -/
def execInputOvervoltage (mv : Nat) (s : State) : Host.Outcome State Fault Refusal :=
  if 59500 < mv then .next ((s.wr R.PWR.VIN_MV 0 (mv / 10)).fatal 0 (mkReport 13 0 0 0x12 3 0 mv)) else .next s

/-- RAIL_FAULT: a regulated rail more than 8 % from its setpoint is a fatal event (R357). -/
def execRailFault (hub : Fin 4) (rail : Nat) (s : State) : Host.Outcome State Fault Refusal :=
  .next (s.fatal hub.val (mkReport 13 hub.val rail 0x12 3 0 0))

end Sys2Proof.Machine
end

