-- ==== Sys2Proof/Machine/Clock.lean ====
section
/-! DEFINITION. Device time (R7): what passes when no command waits. -/
namespace Sys2Proof.Machine

/-- Nanoseconds that the reference period at a place of the group of five adds: 7, 6, 7, 6, 6 (R7). -/
def periodNs (phase : Nat) : Nat := if phase = 0 ∨ phase = 2 then 7 else 6

/-- The clock one reference period later. -/
def Clk.next (c : Clk) : Clk := { c with devTime := (c.devTime + periodNs c.phase) % 2 ^ 64, phase := (c.phase + 1) % 5 }

/-- One period of the reference clock: device time runs while the reset is released and the reference is present (R7, R8,
R506). With it go what the lantern owes (R449), Keep Alive commands (R159) and what a PFC frame has held back (R379); nothing else depends on
elapsed time alone: a timeout is a command of its own (log entry 1). -/
def State.tick (s : State) : State :=
  if s.clk.released && s.clk.refOn then ({ s with clk := s.clk.next } : State).lanDue.keepAlives.portsGoOn else s

end Sys2Proof.Machine
end

