-- ==== Sys2Proof/Machine/Conv.lean ====
section
/-! DEFINITION. Remap and trim buffers, self-calibration and the sweep that folds tier factors into trims (R47, R58 to R68,
R348, R352). -/
namespace Sys2Proof.Machine

/-! ### Remap buffers (R47, R64) -/

/-- Has a list a repeated element. -/
def hasDup : List Nat → Bool
  | [] => false
  | a :: t => t.contains a || hasDup t

/-- May the inactive remap buffer be exchanged in (R64). -/
def StackSt.mapOk (u : StackSt) : Bool :=
  let cols := u.colMapIn.filter (fun e => e.2.testBit 31)
  let arrs := u.arrMapIn.filter (fun e => e.2.testBit 31)
  !hasDup (cols.map (fun e => e.1 / 32 * 64 + bits e.2 11 5)) && !hasDup (cols.map (fun e => e.1 / 32 * 4096 + bits e.2 0 11)) &&
    !hasDup (arrs.map (fun e => bits e.2 0 16)) && arrs.all (fun e => isSpare (bits e.2 0 16))

/-- BLOCK_STAT.REPAIRING, MASKED_ANY and REL_MASKED_ARRAYS (R337). -/
def State.setRepairStat (p : Nat) (s : State) : State :=
  let q := s.part p
  let s := s.wrB R.REL.STAT_REPAIRING p (q.covers.any (fun e => !e.2.ready) || q.spareRun.isSome)
  let n := (s.stacksOf p).foldl (fun a k => a + (s.stk k).masked.length) 0
  (s.wr R.REL.MASKED_ARRAYS p n).wrB R.REL.STAT_MASKED_ANY p (n != 0)

/-- The cover of a queued verdict's array is released: the verdict shows none, and gets no other (R326, R337). -/
def State.releaseVerdict (p k array : Nat) (s : State) : State :=
  s.onPart p (fun q => { q with verdicts := q.verdicts.map (fun x =>
    if x.stack = k ∧ x.array = array then { x with cover := 0, slot := 0, released := true } else x) })

/-- Lift the mask of an array and release its cover slot; what was fetched for it alone is no longer wanted (R326). -/
def State.liftMask (p k array : Nat) (s : State) : State :=
  let s := s.onStk k (fun u => { u with masked := AMap.erase u.masked array })
  let s := s.onPart p (fun q => { q with covers := q.covers.filter (fun e => !(e.2.stack == k && e.2.array == array && e.2.masked)) })
  ((s.releaseVerdict p k array).setRepairStat p).pruneReads p

/-- Masked arrays for which an exchange has made a new array remap entry valid lose their mask (R326); `old` is the table before it. -/
def State.liftSubstituted (k : Nat) (old : AMap Nat) (s : State) : State :=
  match s.ownerOf k with
  | none => s
  | some p =>
    let u := s.stk k
    s.each (u.masked.filter (fun e => (AMap.getD u.arrMap e.1 0).testBit 31 && AMap.getD u.arrMap e.1 0 != AMap.getD old e.1 0))
      (fun e s => s.liftMask p k e.1)

/-- Exchange a stack's remap buffers, or refuse (R64); masks of arrays that get a substitute go (R326). -/
def State.mapExchange (k : Nat) (s : State) : State :=
  let s := s.onStk k (fun u => { u with mapPend := false })
  let old := (s.stk k).arrMap
  if (s.stk k).mapOk then
    ((s.onStk k (fun u => { u with mapBuf := 1 - u.mapBuf })).raise R.AFD.EVT_MAP_SWAPPED k).liftSubstituted k old
  else s.refuseWrite .afd k

/-- AFD_MAP_SWAP (R47): at the owner's next boundary, or at once (R481). -/
def State.actMapSwap (k : Nat) (s : State) : State :=
  if s.freeStack k then s.mapExchange k else s.onStk k (fun u => { u with mapPend := true })

/-- MAP_SWAP. -/
def execMapSwap (stack : Fin 12) (s : State) : Host.Outcome State Fault Refusal := .next (s.actMapSwap stack.val)

/-- AFD_CAP: the firmware cap applies from the next arm decision (R63). -/
def execAfdCap (stack : Fin 12) (cap : Fin 512) (s : State) : Host.Outcome State Fault Refusal :=
  .next (s.wr R.AFD.CAP_CAP stack.val cap.val)

/-! ### Trim records (R60, R61, R67) -/

/-- Converters of an array. -/
def convs : Nat := 264

/-- Tile of a trim record's key, 264 × physical array + converter. -/
def tileOfConv (key : Nat) : Nat := key / convs / 64

/-- Is buffer 1 the active trim buffer of a tile (R60). -/
def StackSt.trimBuf (u : StackSt) (tile : Nat) : Nat := AMap.getD u.trimSel tile 0

/-- GAIN of a record: DATA0 in bits [31:0], DATA1 in bits [63:32] (R67). -/
def trimGain (w : Nat) : Nat := bits w 40 12
/-- OFFSET of a record in 1/8 LSB. -/
def trimOffset (w : Nat) : Int := sx (bits w 52 8) 8
/-- Cells that a record selects. -/
def trimCells (w : Nat) : Nat := (maskBits 40 (bits w 0 40)).length

/-- Is a record valid: 32 cells, GAIN in 0x400 to 0xBFF (R67). -/
def trimOk (w : Nat) : Bool := trimCells w == 32 && decide (0x400 ≤ trimGain w) && decide (trimGain w ≤ 0xBFF)

/-- A record that a self-calibration finds for a converter that the command does not list: any valid one (log entry 30). The record that
stands for an invalid draw selects cells 0 to 31 with gain 1 and offset 0. -/
def freeTrim (fr : Nat) : Nat := if trimOk (fr % 2 ^ 60) then fr % 2 ^ 60 else 0x800 * 2 ^ 40 + (2 ^ 32 - 1)

/-- What the inactive buffer's map says of a converter that it does not list: the draw of its record, or 0 where nothing has written it. -/
def StackSt.trimDrawIn (u : StackSt) (key : Nat) : Nat :=
  AMap.getD (if u.trimBuf (tileOfConv key) = 0 then u.trimDef1 else u.trimDef0) (convGroup key) 0

/-- Record in the inactive buffer of a converter (R60, R67). -/
def StackSt.trimIn (u : StackSt) (key : Nat) : Nat :=
  match AMap.get? (if u.trimBuf (tileOfConv key) = 0 then u.trim1 else u.trim0) key with
  | some w => w
  | none => let d := u.trimDrawIn key; if d = 0 then 0 else freeTrim (Config.freeAt d key)

/-- Write the inactive buffer of a converter (R60, R68). -/
def StackSt.putTrim (key word : Nat) (u : StackSt) : StackSt :=
  if u.trimBuf (tileOfConv key) = 0 then { u with trim1 := AMap.set u.trim1 key word }
  else { u with trim0 := AMap.set u.trim0 key word }

/-- Fill the inactive buffer of a group of converters with records found by a self-calibration, the free values of a draw. -/
def StackSt.fillTrims (g draw : Nat) (u : StackSt) : StackSt :=
  let other (m : AMap Nat) : AMap Nat := m.filter (fun e => convGroup e.1 != g)
  if u.trimBuf (g / 8) = 0 then { u with trim1 := other u.trim1, trimDef1 := AMap.set u.trimDef1 g draw }
  else { u with trim0 := other u.trim0, trimDef0 := AMap.set u.trimDef0 g draw }

/-- Logical array that a physical array serves: a substitute's, or its own (R45, R46). -/
def StackSt.logicalOf (u : StackSt) (phys : Nat) : Option Nat :=
  match u.arrMap.find? (fun e => e.2.testBit 31 && bits e.2 0 16 == phys) with
  | some e => some e.1
  | none =>
    if isSpare phys then none
    else
      let l := 304 * (phys / 64 / 5) + 61 * (phys / 64 % 5) + phys % 64
      if u.physOf l = phys then some l else none

/-- An array of a stack has a converter newly marked failed: SELFCAL_FAIL is set, drift records freeze when a reference converter is one
of them, what waited to be adopted there goes (R112), and an array that serves gets the verdict PERMANENT at once (R320). Which tier that
verdict names is open: a free value. -/
def State.failNote (k phys : Nat) (isRef : Bool) (s : State) : State :=
  let u := s.stk k
  let s := s.raise R.CNV.EVT_SELFCAL_FAIL k
  let s := s.whenB (isRef && AMap.getD u.frozen phys 0 == 0) (fun s =>
    (s.onStk k (fun u => { u with
      frozen := AMap.put u.frozen phys 1 0
      driftNext := u.driftNext.filter (fun e => e.1 / 16 != phys) })).flagCount R.DCP.EVT_DRIFT_FROZEN R.DCP.DRIFT_FROZEN_CNT (hubOfStack k))
  match s.ownerOf k, u.logicalOf phys with
  | some p, some l =>
    if s.hasModel p then
      let (fr, s) := s.takeFree
      s.verdictPermanent p { stack := k, array := l, tier := fr % 16, group := 0 } 3
    else s
  | _, _ => s

/-- A converter fails (R61): SELFCAL_FAIL is set each time, the rest follows when it is newly marked. Nothing lifts the mark, a later good
self-calibration neither (DESIGN CHOICE, log entry 82). -/
def State.failConv (k key : Nat) (s : State) : State :=
  if (s.stk k).convFailed (key / convs) (key % convs) then s.raise R.CNV.EVT_SELFCAL_FAIL k
  else
    (s.onStk k (fun u => { u with failed := AMap.put u.failed key 1 0 })).failNote k (key / convs)
      (key % convs == 256 || key % convs == 257)

/-- All converters of a group fail but some, as nothing has written their records (R67): SELFCAL_FAIL is set each time, the rest follows
for those newly marked. -/
def State.failGroup (k g : Nat) (but : List Nat) (s : State) : State :=
  let c0 := 33 * (g % 8)
  let arrays := (List.range 64).map (64 * (g / 8) + ·)
  let news := arrays.filter (fun a => (List.range 33).any (fun c => !but.contains (convs * a + c0 + c) && !(s.stk k).convFailed a (c0 + c)))
  let refs (a : Nat) : Bool := g % 8 == 256 / 33 && !(but.contains (convs * a + 256) && but.contains (convs * a + 257))
  let keep := match AMap.get? (s.stk k).failAll g with | some b => b.filter but.contains | none => but
  let s := s.whenB (decide (but.length < 2112)) (fun s => s.raise R.CNV.EVT_SELFCAL_FAIL k)
  let s := s.onStk k (fun u => { u with failAll := AMap.set u.failAll g keep })
  s.each news (fun a s => s.failNote k a (refs a))

/-- Groups of converters of some tiles. -/
def groupsOf (tiles : List Nat) : List Nat := tiles.flatMap (fun t => (List.range 8).map (8 * t + ·))

/-- Records that the inactive buffers of some tiles list. -/
def StackSt.listedTrims (u : StackSt) (tiles : List Nat) : AMap Nat :=
  (u.trim1.filter (fun e => tiles.contains (tileOfConv e.1) && u.trimBuf (tileOfConv e.1) == 0)) ++
  (u.trim0.filter (fun e => tiles.contains (tileOfConv e.1) && u.trimBuf (tileOfConv e.1) != 0))

/-- Exchange the trim buffers of some tiles (R60): converters whose newly active record is not valid fail, those of a buffer that nothing
has written too, since its records read 0 (R67). -/
def State.exchangeTrims (k : Nat) (tiles : List Nat) (s : State) : State :=
  let u := s.stk k
  let listed := u.listedTrims tiles
  let blank := (groupsOf tiles).filter (fun g =>
    AMap.getD (if u.trimBuf (g / 8) = 0 then u.trimDef1 else u.trimDef0) g 0 == 0)
  let s := s.onStk k (fun u => { u with
    trimSel := tiles.foldl (fun m t => AMap.put m t (1 - AMap.getD m t 0) 0) u.trimSel })
  let s := s.each (listed.filter (fun e => !trimOk e.2)) (fun e s => s.failConv k e.1)
  let s := s.each blank (fun g s => s.failGroup k g ((listed.filter (fun e => trimOk e.2 && convGroup e.1 == g)).map (·.1)))
  s.raise R.CNV.EVT_TRIM_SWAPPED k

/-- CNV_TRIM_CTL.SWAP (R60): every converter of the stack, at the owner's next boundary or at once. -/
def State.actTrimSwap (k : Nat) (s : State) : State :=
  if s.freeStack k then s.exchangeTrims k (List.range 640) else s.onStk k (fun u => { u with trimPend := true })

/-- TRIM_SWAP. -/
def execTrimSwap (stack : Fin 12) (s : State) : Host.Outcome State Fault Refusal := .next (s.actTrimSwap stack.val)

/-! ### Self-calibration (R58 to R61, R353) -/

/-! #### Pieces of recalibration (R347 to R351) -/

/-- Order in which a stack's queued tiles are served (R349). -/
def StackSt.recalOrder (u : StackSt) : List Nat :=
  let far (t : Nat) : Nat := ((AMap.getD u.sens t {}).eff - AMap.getD u.tcal t 0).natAbs
  let first (r : Nat) : Bool := r == 2 || r == 3
  (sortBy (fun a b => (first a.2 && !first b.2) || (first a.2 == first b.2 && decide (far b.1 ≤ far a.1))) u.recalQ).map (·.1)

/-- PAR (R355). A value outside 1 to 64 acts as it stands (DESIGN CHOICE, log entry 123). -/
def State.calPar (s : State) (h : Nat) : Nat := s.rd R.THC.CAL_CTL_PAR h

/-- Tiles that a stack recalibrates together: those begun first, then the queue, at most `par`. -/
def StackSt.batch (u : StackSt) (par : Nat) : List Nat :=
  let begun := (u.calDone.map (·.1)).filter (fun t => AMap.getD u.recalQ t 0 != 0 && !u.adopt.contains t)
  (begun ++ u.recalOrder.filter (fun t => !begun.contains t && !u.adopt.contains t)).take par

/-- The batch of a stack outside a window. -/
def State.calBatch (s : State) (k : Nat) : List Nat := (s.stk k).batch (s.calPar (hubOfStack k))

/-- May a stack recalibrate at all: ACTIVE, not in DOZE, and rotation enabled (R346, R351). -/
def State.calAllowed (s : State) (k : Nat) : Bool := s.stackState k == 1 && !s.inDoze && s.en .thc (hubOfStack k)

/-- Is a stack idle in the sense of R351: owned by no partition, or by one that forms no step. At the commit point of a step, as long as it
is not decided whether another follows, a stack is not idle: pieces run in the window only (R350). -/
def State.calIdle (s : State) (k : Nat) : Bool :=
  match s.ownerOf k with
  | none => true
  | some p => !s.stepRuns p && !(s.part p).between

/-- Tiles of a stack with a piece in progress (R350, R351): those of an open window; on an idle stack, where pieces run continuously, the
batch that is served, until a step waits for them. -/
def State.pieces (s : State) (k : Nat) : List Nat :=
  let u := s.stk k
  if !u.calRun.isEmpty then u.calRun else if s.calIdle k && s.calAllowed k && !u.calHold then s.calBatch k else []

/-- CNV_SELFCAL.START: judged by scope (R59). BUSY is 1 from the accepted START on, also while a stack-scope one waits for a clear of
its stack (R482; DESIGN CHOICE, log entry 109). -/
def State.actSelfcal (k : Nat) (tileScope : Bool) (s : State) : State :=
  let u := s.stk k
  let t := s.rd R.CNV.SELFCAL_TILE k
  let ok := u.selfcal.isNone && (if tileScope then decide (t < 640) && (s.pieces k).contains t else !s.en .afd k)
  if ok then
    (s.onStk k (fun u => { u with selfcal := some (if tileScope then .tile t else .stack) })).wr R.CNV.SELFCAL_STAT_BUSY k 1
  else s.refuseWrite .cnv k

/-- STACK_SELFCAL. -/
def execStackSelfcal (stack : Fin 12) (s : State) : Host.Outcome State Fault Refusal := .next (s.actSelfcal stack.val false)

/-- TILE_SELFCAL. -/
def execTileSelfcal (stack : Fin 12) (s : State) : Host.Outcome State Fault Refusal := .next (s.actSelfcal stack.val true)

/-- Records for every converter of some groups in their inactive buffers, as a self-calibration finds them: free values (log entry 30). -/
def State.freshTrims (k : Nat) (groups : List Nat) (s : State) : State :=
  let (d, s) := s.takeDraw
  s.onStk k (fun u => groups.foldl (fun u g => u.fillTrims g d) u)

/-- Write the records that a self-calibration found into the inactive buffers of the converters that it covers, and mark those that
failed. -/
def State.selfcalResults (k : Nat) (covers : Nat → Bool) (trims : List (Nat × Nat)) (bad : List Nat) (s : State) : State :=
  let s := s.onStk k (fun u => (trims.filter (fun e => covers e.1)).foldl (fun u e => u.putTrim e.1 e.2) u)
  s.each (bad.filter covers) (fun c s => s.failConv k c)

/-- Statistics of one tier's sweep: 4 evaluations with z of 4, 8, 12 and 16, and for each the sums of the four reference
codes at levels 0, 5, 10 and 15 (R109, R348). -/
def sweepStat (ys : List Int) : DriftStat :=
  (List.range 4).foldl (fun (d : DriftStat) (i : Nat) =>
    let z : Int := 4 * ((i : Int) + 1)
    let y (j : Nat) : Int := ys.getD (4 * i + j) 0
    { n := d.n + 1
      szy := d.szy + 2 ^ 15 * z * (-3 * y 0 - y 1 + y 2 + 3 * y 3)
      szz := d.szz + 2 ^ 30 * z * z
      sz := d.sz + 2 ^ 15 * z
      sy := d.sy + y 0 + y 1 + y 2 + y 3 }) {}

/-- Mean of FP32 values: summed in ascending tier order, then divided (DEDUCED, log entry 31). -/
def fpMean (l : List Nat) : Nat := fpDiv (l.foldl fpAdd 0) (fpOfInt (l.length : Nat) 0)

/-- GAIN_sc / a rounded half to even, for a positive finite a. -/
def foldGain (g a : Nat) : Option Int :=
  match fpDec a with
  | .fin false m e => if m = 0 then none else some (if e ≤ 0 then rneDiv (g * 2 ^ (-e).toNat) m else rneDiv g (m * 2 ^ e.toNat))
  | _ => none

/-- Folded record of a converter, if all of it lies in range (R67, R348). -/
def foldTrim (w a b : Nat) : Option Nat :=
  match foldGain (trimGain w) a, fpDec b with
  | some g, .fin n m e =>
    let o := trimOffset w + rneQuot (fpPack (.fin n m e)) 1 (-3)
    if 0x400 ≤ g ∧ g ≤ 0xBFF ∧ -128 ≤ o ∧ o ≤ 127 then some (setBits (setBits w 40 12 g.toNat) 52 8 (ux o 8)) else none
  | _, _ => none

/-- The 16 reference codes that the sweep finds for a tier: those of the command, or free ones where it lists none (log entry 31). -/
def sweepCodes (refs : List (Nat × List Int)) (draw key : Nat) : List Int :=
  match refs.find? (fun e => e.1 == key) with
  | some e => e.2
  | none => (List.range 16).map (fun j => sx (Config.freeAt draw (16 * key + j) % 1024) 10)

/-- Fold one swept array (R348): the inactive records of its converters become folded ones, or stay as they are. Answers
whether the array is left unfolded, as when it has no covered tier or a failed reference converter; only a refused fold is counted. -/
def State.foldArray (k phys : Nat) (refs : List (Nat × List Int)) (draw : Nat) (s : State) : State × Bool :=
  let u := s.stk k
  let tiers := ((List.range 16).filter (fun t => s.refMarked (nvKey k phys t))).map (fun t =>
    driftFitFp (sweepStat (sweepCodes refs draw (16 * phys + t))) driftUnity 0)
  if tiers.isEmpty || u.convFailed phys 256 || u.convFailed phys 257 then (s, true)
  else
    let a := fpMean (tiers.map (·.1))
    let b := fpMean (tiers.map (·.2.1))
    let keys := (List.range convs).map (fun c => convs * phys + c)
    let new := keys.map (fun key => (key, foldTrim (u.trimIn key) a b))
    if fitOut a b || new.any (fun e => e.2.isNone) then
      (s.flagCount R.THC.EVT_FOLD_FAIL R.THC.FOLD_FAIL_CNT (hubOfStack k), true)
    else (s.onStk k (fun u => new.foldl (fun u e => u.putTrim e.1 (e.2.getD 0)) u), false)

/-- The sweep of a tile: every physical array but masked ones (R348), whose trims stay unfolded too. -/
def State.sweepTile (k tile : Nat) (refs : List (Nat × List Int)) (s : State) : State :=
  let masked := (s.stk k).masked.map (fun e => (s.stk k).physOf e.1)
  let arrays := ((List.range 64).map (64 * tile + ·)).filter (fun a => !masked.contains a)
  let (draw, s) := s.takeDraw
  let r := arrays.foldl (fun (acc : State × Bool) a =>
    let x := acc.1.foldArray k a refs draw
    (x.1, acc.2 || x.2)) (s, decide (arrays.length < 64))
  r.1.onStk k (fun u => { u with foldNew := AMap.put u.foldNew tile (if r.2 then 1 else 0) 0 })

/-- Adopt a tile's recalibration: its buffers are exchanged, its drift records are unity again and its statistics clear
(R60, R112, R352); FOLD_FAIL shows whether the adoption had an unfolded array (R355). -/
def State.adoptTile (k tile temp : Nat) (s : State) : State :=
  let inTile (key : Nat) : Bool := key / 16 / 64 == tile
  let s := s.exchangeTrims k [tile]
  s.onStk k (fun u => { u with
    drift := (if u.driftBase = driftUnity then u.drift.filter (fun e => !inTile e.1)
      else (List.range 1024).foldl (fun m i => AMap.set m (1024 * tile + i) driftUnity) u.drift)
    driftNext := u.driftNext.filter (fun e => !inTile e.1)
    stat := u.stat.filter (fun e => !inTile e.1), statPrev := u.statPrev.filter (fun e => !inTile e.1)
    tcal := AMap.put u.tcal tile (sx temp 16) 0
    foldFail := AMap.put u.foldFail tile (AMap.getD u.foldNew tile 0) 0 })

/-- A tile's recalibration is adopted, and the tile leaves the queue (R352). A sweep whose start has no reading of its own, on an idle
stack, began within the present reading's period (log entry 110). -/
def State.calAdopt (k tile : Nat) (s : State) : State :=
  let u := s.stk k
  let s := s.adoptTile k tile (ux ((AMap.get? u.calTemp tile).getD (AMap.getD u.sens tile {}).eff) 16)
  let s := s.onStk k (fun u => { u with
    recalQ := AMap.erase u.recalQ tile, calDone := AMap.erase u.calDone tile, calTemp := AMap.erase u.calTemp tile })
  s.flagCount R.THC.EVT_RECAL_DONE R.THC.RECAL_CNT (hubOfStack k)

/-- A window has ended: the tiles whose ninth piece ended in it are adopted (R352). -/
def State.adoptAll (k : Nat) (s : State) : State :=
  (s.each (s.stk k).adopt (fun t s => s.calAdopt k t)).onStk k (fun u => { u with adopt := [] })

/-- Adopt what a window has left, unless pieces of it still run. -/
def State.windowEnded (k : Nat) (s : State) : State := s.whenB (s.stk k).calRun.isEmpty (fun s => s.adoptAll k)

/-- Effective reading of a tile as a 16-bit pattern. -/
def StackSt.tileTemp (u : StackSt) (t : Nat) : Nat := ux (AMap.getD u.sens t {}).eff 16

/-- Stack-scope self-calibration ends with the sweep of every tile and the exchange of every buffer; after the fold, drift
correction restarts from unity (R60, R348, R353). -/
def State.stackCalDone (k : Nat) (refs : List (Nat × List Int)) (s : State) : State :=
  let s := s.each (List.range 640) (fun t s => s.sweepTile k t refs)
  let s := s.exchangeTrims k (List.range 640)
  let s := s.onStk k (fun u => { u with
    tcal := (List.range 640).foldl (fun m t => AMap.put m t (AMap.getD u.sens t {}).eff 0) u.tcal
    drift := [], driftBase := driftUnity, driftNext := [], stat := [], statPrev := [], adopt := [], foldFail := u.foldNew })
  (s.wr R.CNV.SELFCAL_STAT_DONE k 1).wr R.AFD.STAT_CALIBRATED k 1

/-- SELFCAL_COMPLETE: one of stack scope waits while the stack clears (R482). `trims` are records found, `bad` the converters that failed,
`refs` the reference codes of the sweep by 16 × array + tier. -/
def execSelfcalComplete (stack : Fin 12) (trims : List (Nat × Nat)) (bad : List Nat) (refs : List (Nat × List Int)) (s : State) :
    Host.Outcome State Fault Refusal :=
  let k := stack.val
  let finish (s : State) : State :=
    ((s.onStk k (fun u => { u with selfcal := none })).wr R.CNV.SELFCAL_STAT_BUSY k 0).raise R.CNV.EVT_SELFCAL_DONE k
  match (s.stk k).selfcal with
  | none => .next s
  | some .stack =>
    if s.stackClears k then .next s
    else .next (finish (((s.freshTrims k (groupsOf (List.range 640))).selfcalResults k (fun _ => true) trims bad).stackCalDone k refs))
  | some (.tile t) =>
    let s := finish ((s.freshTrims k (groupsOf [t])).selfcalResults k (fun c => tileOfConv c == t) trims bad)
    if s.freeStack k then .next (s.exchangeTrims k [t]) else .next (s.onStk k (fun u => { u with tilePend := u.tilePend ++ [t] }))

end Sys2Proof.Machine
end

