-- ==== Sys2Proof/Machine/Power.lean ====
section
/-! DEFINITION. Pace targets and the governor, the power limiter, and the power states of partitions and stacks (R303,
R304, R345, R358 to R366, R372, R373). -/
namespace Sys2Proof.Machine

/-- Change the supply record. -/
def State.onPwr (f : PwrSt → PwrSt) (s : State) : State := { s with pwr := f s.pwr }

/-- BLOCK_STAT.TRANSITION: a state change of the module or of a partition runs. -/
def State.setTransition (s : State) : State := s.wrB R.PWR.STAT_TRANSITION 0 (s.pwr.move != 0 || !s.pwr.rising.isEmpty)

/-- A report of a power-state change (R328, kind STATE). -/
def State.stateReport (h parts : Nat) (s : State) : State := s.report h (mkReport 13 h 0 0x20 0 parts 0)

/-! ### Pace (R303, R304, R358 to R360) -/

/-- The hub whose thermal page and governor a pace domain belongs to: domains 0 to 11 are array stacks, 12 to 15 hubs. -/
def hubOfDomain (d : Nat) : Nat := if d < 12 then d / 3 else d - 12

/-- PACE_DROP in force in a hub: below 4 acts as 4 (R355). -/
def State.paceDrop (s : State) (h : Nat) : Nat := max 4 (s.rd R.THC.ACT_PACE_DROP h)

/-- D_th of a domain (R344, R360). -/
def State.dTh (s : State) (d : Nat) : Nat :=
  let on := if d < 12 then s.is R.AFD.STAT_THERMAL_HALVED d else decide (2 ≤ s.rd R.THC.STAT_HUB_LEVEL (d - 12))
  if on then s.paceDrop (hubOfDomain d) else 0

/-- PACE_TGT of a domain: outside 32 to 67 it acts as the nearest limit (R373). -/
def State.paceTgt (s : State) (d : Nat) : Nat := clampN 32 67 (s.rd R.PWR.PACE_TGT (1 + d))

/-- D_lim (R362). -/
def State.dLim (s : State) : Nat := s.rd R.PWR.PACE_EFF_D_LIM 0

/-- Effective target of a domain in 1/64 of reference pace (R360). -/
def State.eff (s : State) (d : Nat) : Nat := max 32 (s.paceTgt d - s.dTh d - s.dLim)

/-- Ring count at the effective target. A ring count is given in units of which reference pace makes 64,000 in a window
(log entry 27). -/
def State.targetCount (s : State) (d : Nat) : Nat := 1000 * s.eff d

/-- Distance of two numbers. -/
def dist (a b : Nat) : Nat := (a - b) + (b - a)

/-- Is a count in the lock band of ±1.5 % of a target (R303). -/
def inBand (c t : Nat) : Bool := decide (200 * dist c t ≤ 3 * t)

/-- Is a domain's rail on and not at retention (R358): none in OFF; a tile base from the return of its partition to ACTIVE on (step 2 of
R366), a hub from the wake on (step 1 of R368). -/
def State.domainOn (s : State) (d : Nat) : Bool :=
  s.clk.released && (if d < 12 then s.rd R.PWR.STAT_MOD_STATE 0 == 1 && (s.stackState d == 1 || s.pwr.rising.any (fun p => s.owns p d))
    else s.rd R.PWR.STAT_MOD_STATE 0 == 1 || decide (2 ≤ s.pwr.move))

/-- Range of a domain's supply in 0.5 mV (R358). -/
def voltRange (d : Nat) : Nat × Nat := if d < 12 then (1100, 1700) else (1200, 1800)

/-- Retention voltage of a domain in 0.5 mV (R358). -/
def retention (d : Nat) : Nat := if d < 12 then 900 else 1000

/-- The governor's move: 2.5 mV, or none within 0.25 % of the target (R359). -/
def governor (d v c t : Nat) : Nat :=
  let (lo, hi) := voltRange d
  let v' := if 400 * dist c t ≤ t then v else if c < t then v + 5 else v - 5
  clampN lo hi v'

/-- A domain has been out of its band for 10 windows (R304). -/
def State.unlock (d : Nat) (s : State) : State :=
  let ps := s.served d
  let s := s.each ps (fun p s => (s.raise R.GLB.EVT_PACE_UNLOCK p).wr R.GLB.STAT_LOCKED p 0)
  let h := hubOfDomain d
  s.report h (mkReport 13 h d 0x0F 1 (maskOf ps) 0)

/-- One window of one domain. A domain without clock is in no lock: LOCKED of the partitions it serves clears, without the event of R304
(DESIGN CHOICE, log entry 121). -/
def State.window (d c : Nat) (s : State) : State :=
  if !s.domainOn d then
    let s := s.each (s.served d) (fun p s => s.wr R.GLB.STAT_LOCKED p 0)
    ((s.onPwr (fun w => { w with count := AMap.put w.count d 0 0, volt := AMap.put w.volt d (retention d) 0, outRun := AMap.put w.outRun d 0 0 })).wr
      R.PWR.PACE_STAT_VOLT (1 + d) (retention d / 2)).wr R.PWR.PACE_STAT_LOCK (1 + d) 0
  else
    let t := s.targetCount d
    let v := governor d (AMap.getD s.pwr.volt d 0) c t
    let lock := inBand c t
    let run := if lock then 0 else min (AMap.getD s.pwr.outRun d 0 + 1) 10
    let unl := !lock && run == 10 && AMap.getD s.pwr.outRun d 0 == 9
    let s := s.onPwr (fun w => { w with
      count := AMap.put w.count d c 0, volt := AMap.put w.volt d v 0, outRun := AMap.put w.outRun d run 0 })
    -- how an odd number of half millivolts reads is open
    let (r, s) := if v % 2 = 0 then (0, s) else s.takeFree
    let s := (s.wr R.PWR.PACE_STAT_VOLT (1 + d) (v / 2 + r % 2)).wrB R.PWR.PACE_STAT_LOCK (1 + d) lock
    s.whenB unl (fun s => s.unlock d)

/-- Lock state of the partitions after a window: LOCKED returns when every domain is in lock, and a step notes any loss
(R298, R304). -/
def State.judgeLock (p : Nat) (s : State) : State :=
  if s.inLock p then s.wr R.GLB.STAT_LOCKED p 1
  else s.onStep p (fun t => if t.phase = .idle then t else { t with locked := false })

/-- PACE_WINDOW: the counts of domains 0 to 15. A domain without a count keeps its supply. -/
def execPaceWindow (counts : List Nat) (s : State) : Host.Outcome State Fault Refusal :=
  let s := s.each ((List.range (min 16 counts.length)).zip counts) (fun x s => s.window x.1 x.2)
  .next (s.each ((List.range 12).filter s.partExists) State.judgeLock)

/-- Does a hub's pace run more than 5 % faster than reference (R270). -/
def State.tooFast (s : State) (h : Nat) : Bool := decide (67200 < AMap.getD s.pwr.count (12 + h) 0)

/-! ### Stopping a step and QUIET (R345, R364, R365) -/

/-- Stop a step that has not reached its cut: its work stops and every entry is withdrawn, with no request ended and no
token emitted (R345 step 2). Requests that had ended during the step leave, as no step runs any more (R261). -/
def State.abortStep (p : Nat) (s : State) : State :=
  let es := (s.part p).step.entries
  let s := s.stopWork p
  let s := s.each es (fun e s =>
    match s.hamper p e.slot with
    | some h => if h.state = 4 then s.releaseCand p e.slot else s.withdraw p e
    | none => s)
  let s := s.each ((s.part p).byAdm (fun _ h => h.state == 4)) (fun e s => s.freeHamper p e.1)
  let s := s.onPart p (fun q => { q with step := {} })
  s.drainInbox p (s.part p).inbox.length

/-- A stack at QUIET: selector bias released, drive off, base rails at retention; running pieces are discarded (R351,
R365), and tiles whose ninth piece had ended in the window are adopted, as the window ends (R352). -/
def State.quietStack (k : Nat) (s : State) : State :=
  ((s.adoptAll k).onStk k (fun u => { u with bias := [], stopArm := true, calRun := [], calDone := [], calTemp := [], calHold := false })).setStackState k 2

/-- A partition enters QUIET (R365). -/
def State.enterQuiet (p : Nat) (s : State) : State :=
  let s := s.each (s.stacksOf p) State.quietStack
  let s := s.onPart p (fun q => { q with quietPend := false })
  let s := (s.onPwr (fun w => { w with rising := w.rising.filter (· != p) })).setTransition
  ((s.setPartState p 2).raise R.PWR.EVT_STATE_DONE 0).stateReport (s.lowHub p) (2 ^ p)

/-- Take a partition to QUIET at once (steps 1 to 4 of R345): a step before its cut stops, a step after it is resolved
first. -/
def State.toQuiet (p : Nat) (s : State) : State :=
  let s := s.each (s.stacksOf p) (fun k s => s.onStk k (fun u => { u with stopArm := true }))
  match (s.part p).step.phase with
  | .cut => s.onPart p (fun q => { q with quietPend := true })
  | .idle => if s.partState p = 2 && !s.pwr.rising.contains p then s else s.enterQuiet p
  | _ => (s.abortStep p).enterQuiet p

/-- The partition that PWR_PART_CTL.PART names, if it exists. -/
def State.pwrPart (s : State) : Option Nat :=
  let p := s.rd R.PWR.PART_CTL_PART 0
  if p < 12 ∧ s.partExists p then some p else none

/-- Set STATE_REFUSED. -/
def State.refuseState (s : State) : State := s.raise R.PWR.EVT_STATE_REFUSED 0

/-- PWR_PART_CTL.QUIET (R365): at the next boundary, or at once when no step runs; a return to ACTIVE that runs is given up. A PART that
names no partition, or one that is in the state already, needs no change (DEDUCED, log entry 28). -/
def State.actQuiet (s : State) : State :=
  match s.pwrPart with
  | none => s
  | some p =>
    if s.partState p = 2 && !s.pwr.rising.contains p then s
    else if s.stepRuns p then s.onPart p (fun q => { q with quietPend := true })
    else s.enterQuiet p

/-- QUIET. -/
def execQuiet (s : State) : Host.Outcome State Fault Refusal := .next s.actQuiet

/-- Level of a memory stack of a hub (R341). -/
def State.memLevel (s : State) (h i : Nat) : Nat := bits (s.rd R.THC.STAT_MEM_LEVEL h) (2 * i) 2
/-- Level of an array stack. -/
def State.stackLevel (s : State) (k : Nat) : Nat := bits (s.rd R.THC.STAT_STACK_LEVEL (k / 3)) (2 * (k % 3)) 2

/-- Is any stack, hub or memory stack that R345 names for a partition at TRIP. -/
def State.tripped (s : State) (p : Nat) : Bool :=
  (s.stacksOf p).any (fun k => s.stackLevel k == 3) ||
  (s.hubsOf p).any (fun h => s.rd R.THC.STAT_HUB_LEVEL h == 3 || (List.range 4).any (fun i => s.memLevel h i == 3))

/-- PWR_PART_CTL.ACTIVE (R366): refused, or the rails start to rise; a field test of the partition's stacks stops (R456). A PART that names
no partition has none to return (DEDUCED, log entry 28). -/
def State.actActive (s : State) : State :=
  match s.pwrPart with
  | none => s
  | some p =>
    if s.tripped p || s.rd R.PWR.STAT_MOD_STATE 0 == 3 || s.pwr.move != 0 || s.is R.PWR.STAT_PFW 0 ||
        (match s.pwr.pfwEnd with | some t => decide (s.clk.devTime < t + 10000000) | none => false) ||
        (s.is R.PWR.EVT_OVER_LIMIT 0 && decide (97 * 4400 < 100 * s.rd R.PWR.PIN_W 0)) then s.refuseState
    else
    let s := s.whenB (s.testing && s.rd R.BST.CTL_TEST 0 == 1 && (s.stacksOf p).any (s.rd R.BST.UNITS 0).testBit) State.stopTest
    if s.partState p = 1 then s
    else (s.onPwr (fun w => { w with rising := w.rising.filter (· != p) ++ [p] })).setTransition

/-- ACTIVE. -/
def execActive (s : State) : Host.Outcome State Fault Refusal := .next s.actActive

/-- A partition has returned to ACTIVE (R366). -/
def State.activeDone (p : Nat) (s : State) : State :=
  if !s.pwr.rising.contains p then s
  else
    let s := (s.onPwr (fun w => { w with rising := w.rising.filter (· != p) })).setTransition
    let s := s.each (s.stacksOf p) (fun k s => (s.onStk k (fun u => { u with stopArm := false })).setStackState k 1)
    ((s.setPartState p 1).raise R.PWR.EVT_STATE_DONE 0).stateReport (s.lowHub p) (2 ^ p)

/-! ### Limiting (R362, R363) -/

/-- L of R362: a cap above 4,400 acts as 4,400, below 1,000 as 1,000 (R373). -/
def State.capW (s : State) : Nat := clampN 1000 4400 (s.rd R.PWR.CAP_W 0)

/-- The limiter at the end of a 10 ms period. Each fall needs a new 100 ms (DEDUCED, log entry 29). -/
def State.limiter (w : Nat) (s : State) : State :=
  let l := s.capW
  let d := s.dLim
  let s :=
    if l < w then
      let s := s.onPwr (fun x => { x with lowRun := 0 })
      if d < 35 then (((s.wr R.PWR.PACE_EFF_D_LIM 0 (d + 1)).count R.PWR.LIMIT_CNT 0).raise R.PWR.EVT_LIMIT_STEP 0) else s
    else if 100 * w < 97 * l then
      if 9 ≤ s.pwr.lowRun then (s.wr R.PWR.PACE_EFF_D_LIM 0 (d - 1)).onPwr (fun x => { x with lowRun := 0 })
      else s.onPwr (fun x => { x with lowRun := x.lowRun + 1 })
    else s.onPwr (fun x => { x with lowRun := 0 })
  s.wrB R.PWR.STAT_LIMITING 0 (s.dLim != 0)

/-- The limit cannot be held by pace: every partition goes to QUIET (R363). -/
def State.overLimit (s : State) : State :=
  let ps := (List.range 12).filter s.partExists
  let s := s.each ps State.toQuiet
  (s.raise R.PWR.EVT_OVER_LIMIT 0).stateReport 0 (maskOf ps)

/-- LIMITER_PERIOD: mean input power over the 10 ms, input voltage in mV, current in mA. -/
def execLimiterPeriod (watts mv ma : Nat) (s : State) : Host.Outcome State Fault Refusal :=
  let s := ((s.wr R.PWR.PIN_W 0 (min watts 8191)).wr R.PWR.VIN_MV 0 (min (mv / 10) 65535)).wr R.PWR.IIN 0 (min (ma / 10) 65535)
  let e := s.pwr.energyMj + 10 * watts
  let s := (s.bump R.PWR.ENERGY 0 (e / 1000)).onPwr (fun w => { w with energyMj := e % 1000 })
  let floor := (List.range 16).all (fun d => s.eff d == 32)
  let s := s.limiter watts
  if floor && decide (4400 < watts) then
    if s.pwr.overRun = 9 then .next (s.overLimit.onPwr (fun w => { w with overRun := 10 }))
    else .next (s.onPwr (fun w => { w with overRun := min (w.overRun + 1) 10 }))
  else .next (s.onPwr (fun w => { w with overRun := 0 }))

end Sys2Proof.Machine
end

