-- ==== Sys2Proof/Machine/Thermal.lean ====
section
/-! DEFINITION. Sensors, thermal levels and their actions, and calibration rotation (R338 to R355). -/
namespace Sys2Proof.Machine

/-! ### Readings (R338 to R340) -/

/-- Neighbours of a sensor in a grid (R339): one outside the grid is replaced by the sensor at distance 2 on the other side. -/
def neighbours (rows cols i : Nat) : List Nat :=
  let r := i / cols
  let c := i % cols
  let at_ (r c : Nat) : Nat := r * cols + c
  [at_ (if r = 0 then 2 else r - 1) c, at_ (if r + 1 = rows then r - 2 else r + 1) c,
   at_ r (if c = 0 then 2 else c - 1), at_ r (if c + 1 = cols then c - 2 else c + 1)]

/-- Half of a sum, rounded up. -/
def halfUp (x : Int) : Int := (x + 1).fdiv 2

/-- Median of up to four readings (R340): none for an empty list. -/
def medianOf (l : List Int) : Option Int :=
  match sortBy (fun a b => decide (a ≤ b)) l with
  | [] => none
  | [a] => some a
  | [a, b] => some (halfUp (a + b))
  | [_, b, _] => some b
  | _ :: b :: c :: _ => some (halfUp (b + c))

/-- Is a sensor out of service. -/
def Sensor.excluded (x : Sensor) : Bool := x.suspect || x.fwExcl

/-- Readings before a rise is known (R341). -/
def riseSpan : Nat := 50

/-- Rise: the effective reading now less that 50 readings earlier; 0 until there is one. -/
def Sensor.rise (x : Sensor) : Int := match x.hist[riseSpan]? with | some y => x.eff - y | none => 0

/-- A sensor's next state from its own reading and its neighbour median (R340, R342). The history has the present
effective reading first. -/
def Sensor.next (x : Sensor) (own med : Int) : Sensor :=
  let d := (own - med).natAbs
  let far := if 80 < d then min (x.far + 1) 3 else 0
  let newly := !x.suspect && far == 3
  let near := if x.suspect then (if d ≤ 32 then x.near + 1 else 0) else 0
  let back := x.suspect && near == 1000
  let suspect := (x.suspect || newly) && !back
  let eff := if suspect || x.fwExcl then med else own
  { x with
    own := own, eff := eff, far := if newly then 0 else far, near := if back then 0 else near, suspect := suspect
    hist := (eff :: x.hist).take (riseSpan + 1), mute := if newly || back then riseSpan else x.mute - 1 }

/-- One reading of a grid of sensors. With no neighbour in service the highest effective reading of the grid stands for the
median. -/
def readGrid (rows cols : Nat) (old : List Sensor) (own : List Int) : List Sensor :=
  let n := rows * cols
  let at_ (i : Nat) : Sensor := old.getD i {}
  let med (i : Nat) : Option Int :=
    medianOf (((neighbours rows cols i).filter (fun j => !(at_ j).excluded)).map (fun j => own.getD j 0))
  let known := (List.range n).filterMap (fun i => if (at_ i).excluded then med i else some (own.getD i 0))
  let top := known.foldl max (known.headD 0)
  (List.range n).map (fun i => (at_ i).next (own.getD i 0) ((med i).getD top))

/-- Sensors of a map as a list. -/
def sensList (m : AMap Sensor) (n : Nat) : List Sensor := (List.range n).map (fun i => AMap.getD m i {})
/-- A list of sensors as a map. -/
def sensMap (l : List Sensor) : AMap Sensor := ((List.range l.length).zip l).filter (fun e => e.2 != {})

/-! ### Levels (R341 to R343) -/

/-- Thresholds of a domain in 1/16 °C; none where the table has none. Order: caution, act, trip. -/
structure Limits where
  abs : List (Option Int)
  rise : List (Option Int)

/-- A threshold in force: a value above the reset value acts as the reset value (R346). -/
def State.limit (s : State) (h : Nat) (f : Field) (unit : Int) : Option Int := some ((min (s.rd f h) f.reset : Nat) * unit)

/-- Rise thresholds of a hub's domains. -/
def State.riseLimits (s : State) (h : Nat) : List (Option Int) :=
  [R.THC.LIM_RATE_CAUTION, R.THC.LIM_RATE_ACT, R.THC.LIM_RATE_TRIP].map (fun f => s.limit h f 1)
/-- Limits of a hub die. -/
def State.hubLimits (s : State) (h : Nat) : Limits :=
  { abs := [R.THC.LIM_HUB_CAUTION, R.THC.LIM_HUB_ACT, R.THC.LIM_HUB_TRIP].map (fun f => s.limit h f 16), rise := s.riseLimits h }
/-- Limits of an array stack. -/
def State.arrLimits (s : State) (h : Nat) : Limits :=
  { abs := [R.THC.LIM_ARR_CAUTION, R.THC.LIM_ARR_ACT, R.THC.LIM_ARR_TRIP].map (fun f => s.limit h f 16), rise := s.riseLimits h }
/-- Limits of a memory stack: absolute, and no ACT. -/
def State.memLimits (s : State) (h : Nat) : Limits :=
  { abs := [s.limit h R.THC.LIM_MEM_CAUTION 16, none, s.limit h R.THC.LIM_MEM_TRIP 16], rise := [none, none, none] }

/-- Does a sensor meet the condition of a level, 1 to 3. -/
def Limits.met (l : Limits) (level : Nat) (x : Sensor) : Bool :=
  (match (l.abs.getD (level - 1) none) with | some t => decide (t ≤ x.eff) | none => false) ||
  (x.mute == 0 && match (l.rise.getD (level - 1) none) with | some t => decide (t ≤ x.rise) | none => false)

/-- Has a sensor fallen clear of a level (R343): more than 3 °C below its threshold, and its rise below half of it. A
threshold that the table lacks, and a rise that is not evaluated, do not hold the level (log entry 32). -/
def Limits.clear (l : Limits) (level : Nat) (x : Sensor) : Bool :=
  (match (l.abs.getD (level - 1) none) with | some t => decide (x.eff < t - 48) | none => true) &&
  (x.mute != 0 || match (l.rise.getD (level - 1) none) with | some t => decide (2 * x.rise < t) | none => true)

/-- Runs of the conditions of ACT and TRIP after a reading. -/
def Limits.runs (l : Limits) (x : Sensor) : Sensor :=
  { x with actRun := if l.met 2 x then min (x.actRun + 1) 3 else 0, tripRun := if l.met 3 x then min (x.tripRun + 1) 3 else 0 }

/-- Highest level that the sensors of a domain call for (R342). -/
def Limits.onset (l : Limits) (xs : List Sensor) : Nat :=
  if xs.any (fun x => x.tripRun == 3) then 3 else if xs.any (fun x => x.actRun == 3) then 2 else if xs.any (l.met 1) then 1 else 0

/-- A thermal domain of a hub. -/
inductive Dom
  | hub
  | stack (i : Nat)
  | mem (i : Nat)
  deriving DecidableEq, Repr

/-- Number of a domain in the hold counters. -/
def Dom.no : Dom → Nat
  | .hub => 0 | .stack i => 1 + i | .mem i => 4 + i

/-- Level of a domain. -/
def State.level (s : State) (h : Nat) : Dom → Nat
  | .hub => s.rd R.THC.STAT_HUB_LEVEL h
  | .stack i => s.stackLevel (3 * h + i)
  | .mem i => s.memLevel h i

/-- Store a domain's level. -/
def State.setLevel (h : Nat) (d : Dom) (v : Nat) (s : State) : State :=
  match d with
  | .hub => s.wr R.THC.STAT_HUB_LEVEL h v
  | .stack i => s.wr R.THC.STAT_STACK_LEVEL h (setBits (s.rd R.THC.STAT_STACK_LEVEL h) (2 * i) 2 v)
  | .mem i => s.wr R.THC.STAT_MEM_LEVEL h (setBits (s.rd R.THC.STAT_MEM_LEVEL h) (2 * i) 2 v)

/-! ### Actions (R344, R345) -/

/-- Partitions that a trip or an act of a domain affects (R345). -/
def State.affected (s : State) (h : Nat) : Dom → List Nat
  | .stack i => (s.ownerOf (3 * h + i)).toList
  | _ => (List.range 12).filter (fun p => s.partExists p && (s.hubsOf p).contains h)

/-- Report of kind THERMAL: the instance names the hub with the stack, LOCATION which kind of domain (log entry 11). -/
def State.thermalReport (h : Nat) (d : Dom) (sev : Nat) (s : State) : State :=
  let ps := maskOf (s.affected h d)
  match d with
  | .hub => s.report h (mkReport 14 h 1 0x0E sev ps 0)
  | .stack i => s.report h (mkReport 14 (instStack (3 * h + i)) 0 0x0E sev ps 0)
  | .mem i => s.report h (mkReport 14 (h + 4 * i) 2 0x0E sev ps 0)

/-- What an act sets going (R344): an array stack's cap halves, its converters re-bias (R55), its pace target drops; a hub's pace target drops with its level. -/
def State.actOn (h : Nat) (d : Dom) (s : State) : State :=
  match d with
  | .stack i =>
    let k := 3 * h + i
    let (d, s) := s.takeDraw
    ((s.onStk k (fun u => { u with liftPend := false })).wr R.AFD.STAT_THERMAL_HALVED k 1).thermalUrgent k d
  | _ => s

/-- The lifting of an act on an array stack takes effect. -/
def State.liftAct (k : Nat) (s : State) : State :=
  (s.onStk k (fun u => { u with liftPend := false, reduced := false, progHold := false })).wr R.AFD.STAT_THERMAL_HALVED k 0

/-- A trip stops the self-calibration of its stack; DONE stays 0 (R487). -/
def State.stopSelfcal (k : Nat) (s : State) : State :=
  if (s.stk k).selfcal.isNone then s else (s.onStk k (fun u => { u with selfcal := none })).wr R.CNV.SELFCAL_STAT_BUSY k 0

/-- Onset of a level (R344, R345). -/
def State.levelOnset (h : Nat) (d : Dom) (v : Nat) (s : State) : State :=
  let s := s.setLevel h d v
  if v = 1 then s.flagCount R.THC.EVT_CAUTION R.THC.CAUTION_CNT h
  else if v = 2 then
    let s := ((s.flagCount R.THC.EVT_ACT R.THC.ACT_CNT h).thermalReport h d 1).actOn h d
    match d with
    | .stack _ => s.each (s.affected h d) State.disturb
    | _ => s
  else
    let s := (((s.flagCount R.THC.EVT_TRIP R.THC.TRIP_CNT h).thermalReport h d 2).actOn h d).stopTest
    let s := match d with
      | .stack i => (s.onStk (3 * h + i) (fun u => { u with progHold := true })).stopSelfcal (3 * h + i)
      | _ => s
    let ps := s.affected h d
    let s := s.each ps (fun p s => (s.disturb p).toQuiet p)
    match d with
    | .stack i => if ps.isEmpty then s.quietStack (3 * h + i) else s
    | _ => s

/-- A level falls by one (R343, R344). -/
def State.levelFall (h : Nat) (d : Dom) (v : Nat) (s : State) : State :=
  let s := (s.setLevel h d (v - 1)).raise R.THC.EVT_LOWERED h
  match d with
  | .stack i =>
    if v = 2 then
      let k := 3 * h + i
      let s := s.each (s.affected h d) State.disturb
      match s.ownerOf k with
      | some p => if s.stepRuns p then s.onStk k (fun u => { u with liftPend := true }) else s.liftAct k
      | none => s.liftAct k
    else s
  | _ => s

/-- THC_HOLD in force (R355). -/
def State.holdTime (s : State) (h : Nat) : Nat := clampN 10 10000 (s.rd R.THC.HOLD h)

/-- Decide a domain's level from its sensors (R342, R343). -/
def State.judgeLevel (h : Nat) (d : Dom) (l : Limits) (xs : List Sensor) (s : State) : State :=
  let v := s.level h d
  let on := l.onset xs
  let hold (n : Nat) (s : State) : State := s.onHub h (fun u => { u with hold := AMap.put u.hold d.no n 0 })
  if v < on then (hold 0 s).levelOnset h d on
  else if v = 0 then s
  else if xs.all (l.clear v) then
    let n := AMap.getD (s.hub h).hold d.no 0 + 1
    if s.holdTime h ≤ n then (hold 0 s).levelFall h d v else hold n s
  else hold 0 s

/-- Highest of readings. -/
def highest (xs : List Sensor) : Int := (xs.map (·.eff)).foldl max ((xs.headD {}).eff)

/-- Count the sensors that became suspect, and note those that returned (R340). -/
def State.noteSuspects (h : Nat) (old new : List Sensor) (s : State) : State :=
  let z := old.zip new
  let n := (z.filter (fun e => !e.1.suspect && e.2.suspect)).length
  let s := s.whenB (n != 0) (fun s => (s.bump R.THC.SUSPECT_CNT h n).raise R.THC.EVT_SUSPECT h)
  s.whenB (z.any (fun e => e.1.suspect && !e.2.suspect)) (fun s => s.raise R.THC.EVT_REINSTATED h)

/-- Queue the tiles of a stack that have moved from their calibration temperature (reason 1 of R349). -/
def State.queueMoved (k : Nat) (s : State) : State :=
  let dt : Int := 16 * (s.rd R.THC.RECAL_DT (hubOfStack k) : Nat)
  let u := s.stk k
  s.each ((List.range 640).filter (fun t =>
    decide (dt < ((AMap.getD u.sens t {}).eff - AMap.getD u.tcal t 0).natAbs))) (fun t s => s.queueRecal k t 1)

/-- Readings of a hub domain: three stacks of 640 tiles, 64 hub sensors, 4 memory stacks. -/
def readingsPerHub : Nat := 1988

/-- A reading as the sensors of tiles and hubs cover it: −40 °C to 150 °C (R338). -/
def sensorRange (x : Int) : Int := clampI (-640) 2400 x

/-- SENSOR_READING: every sensor of a hub domain is read and tested, the levels are decided, the actions taken. -/
def State.sensorReading (h : Nat) (readings : List Nat) (s : State) : State :=
  let r := readings.map (fun x => sx x 16)
  -- R340 for the tiles and the hub sensors
  let s := s.each (List.range 3) (fun i s =>
    let k := 3 * h + i
    let old := sensList (s.stk k).sens 640
    let new := (readGrid 20 32 old (((r.drop (640 * i)).take 640).map sensorRange)).map (s.arrLimits h).runs
    ((s.onStk k (fun u => { u with sens := sensMap new })).noteWiden k).noteSuspects h old new)
  let old := sensList (s.hub h).sens 64
  let new := (readGrid 8 8 old (((r.drop 1920).take 64).map sensorRange)).map (s.hubLimits h).runs
  let s := (s.onHub h (fun u => { u with sens := sensMap new })).noteSuspects h old new
  -- memory stacks are not cross-checked; in DOZE they are in power-down and read 0 (R444)
  let mems := (List.range 4).map (fun i =>
    let x := AMap.getD (s.hub h).mems i {}
    let v := if s.inDoze then 0 else r.getD (1984 + i) 0
    (s.memLimits h).runs { x with own := v, eff := v, hist := (v :: x.hist).take (riseSpan + 1) })
  let s := s.onHub h (fun u => { u with mems := sensMap mems })
  -- levels
  let s := s.each (List.range 3) (fun i s => s.judgeLevel h (.stack i) (s.arrLimits h) (sensList (s.stk (3 * h + i)).sens 640))
  let s := s.judgeLevel h .hub (s.hubLimits h) new
  let s := s.each (List.range 4) (fun i s => s.judgeLevel h (.mem i) (s.memLimits h) [mems.getD i {}])
  -- what the readings show
  let s := (s.wr R.THC.MAX_HUB h (ux (highest new) 16)).wr R.THC.MAX_MEM h (ux (highest mems) 16)
  let top (i : Nat) : Nat := ux (highest (sensList (s.stk (3 * h + i)).sens 640)) 16
  let s := ((s.wr R.THC.MAX_STACK0 h (top 0)).wr R.THC.MAX_STACK1 h (top 1)).wr R.THC.MAX_STACK2 h (top 2)
  let s := s.wr R.MEM.REF_TMAX h (if decide (85 * 16 < highest mems) then 195 else 390)
  s.each [3 * h, 3 * h + 1, 3 * h + 2] State.queueMoved

/-- SENSOR_READING. A list of another length is no reading of this hub. -/
def execSensorReading (hub : Fin 4) (readings : List Nat) (s : State) : Host.Outcome State Fault Refusal :=
  if readings.length = readingsPerHub then .next (s.sensorReading hub.val readings) else .next s

/-! ### Sensors taken out of service by firmware (R340) -/

/-- Grid of the addressed unit: rows and columns. -/
def gridOf (unit : Nat) : Nat × Nat := if unit < 3 then (20, 32) else (8, 8)

/-- Sensors of the addressed unit. -/
def State.unitSens (s : State) (h unit : Nat) : List Sensor :=
  if unit < 3 then sensList (s.stk (3 * h + unit)).sens 640 else sensList (s.hub h).sens 64

/-- Change one sensor of a unit. -/
def State.onSensor (h unit i : Nat) (f : Sensor → Sensor) (s : State) : State :=
  if unit < 3 then s.onStk (3 * h + unit) (fun u => { u with sens := AMap.put u.sens i (f (AMap.getD u.sens i {})) {} })
  else s.onHub h (fun u => { u with sens := AMap.put u.sens i (f (AMap.getD u.sens i {})) {} })

/-- Does every sensor keep two neighbours in service when one more is excluded. -/
def keepsTwo (rows cols : Nat) (xs : List Sensor) (i : Nat) : Bool :=
  (List.range (rows * cols)).all (fun j =>
    decide (2 ≤ ((neighbours rows cols j).filter (fun n => n != i && !(xs.getD n {}).excluded)).length))

/-- Is the addressed sensor a tile or hub sensor. -/
def sensAddrOk (unit i : Nat) : Bool := (decide (unit < 3) && decide (i < 640)) || (unit == 3 && decide (i < 64))

/-- THC_SENS_CTL.EXCLUDE: refused when a sensor would keep fewer than two neighbours. An address that is no tile or hub
sensor is refused too (log entry 33). -/
def State.actExclude (h : Nat) (s : State) : State :=
  let unit := s.rd R.THC.SENS_ADDR_UNIT h
  let i := s.rd R.THC.SENS_ADDR_INDEX h
  let (rows, cols) := gridOf unit
  if sensAddrOk unit i && keepsTwo rows cols (s.unitSens h unit) i then s.onSensor h unit i (fun x => { x with fwExcl := true })
  else s.refuseWrite .thc h

/-- EXCLUDE. -/
def execExclude (hub : Fin 4) (s : State) : Host.Outcome State Fault Refusal := .next (s.actExclude hub.val)

/-- THC_SENS_CTL.REINSTATE: the sensor is in service again; its rise is not evaluated for 50 readings (R342). -/
def State.actReinstate (h : Nat) (s : State) : State :=
  let unit := s.rd R.THC.SENS_ADDR_UNIT h
  let i := s.rd R.THC.SENS_ADDR_INDEX h
  if !sensAddrOk unit i then s
  else
    let was := ((s.unitSens h unit).getD i {}).suspect
    let s := s.onSensor h unit i (fun x => { x with suspect := false, fwExcl := false, far := 0, near := 0, mute := riseSpan + 1 })
    s.whenB was (fun s => s.raise R.THC.EVT_REINSTATED h)

/-- REINSTATE. -/
def execReinstate (hub : Fin 4) (s : State) : Host.Outcome State Fault Refusal := .next (s.actReinstate hub.val)

/-! ### Calibration rotation (R347 to R352) -/

/-- THC_RECAL_REQ.GO: queue a tile with reason 3 (R349). -/
def State.actRecalReq (h : Nat) (s : State) : State :=
  let t := s.rd R.THC.RECAL_REQ_TILE h
  let i := s.rd R.THC.RECAL_REQ_STACK h
  if t < 640 ∧ i < 3 then s.queueRecal (3 * h + i) t 3 else s

/-- RECAL_REQ. -/
def execRecalReq (hub : Fin 4) (s : State) : Host.Outcome State Fault Refusal := .next (s.actRecalReq hub.val)

/-- Time of a tile's next piece in µs: 250, or 260 for the sweep (R347). -/
def StackSt.pieceUs (u : StackSt) (t : Nat) : Nat := if AMap.getD u.calDone t 0 = 8 then 260 else 250

/-- Start the pieces of a batch that end within the time left of the window (R350). -/
def State.startPieces (k : Nat) (s : State) : State :=
  let u := s.stk k
  let b := (u.batch u.winPar).filter (fun t => decide (u.pieceUs t ≤ u.winLeft))
  if b.isEmpty then s
  else
    let temps := b.filter (fun t => AMap.getD u.calDone t 0 == 8)
    let us := b.foldl (fun m t => max m (u.pieceUs t)) 0
    s.onStk k (fun u => { u with
      calRun := b, winLeft := u.winLeft - us
      calTemp := temps.foldl (fun m t => AMap.set m t (AMap.getD u.sens t {}).eff) u.calTemp })

/-- The pieces of a batch have ended: the next batch of the window starts; with none the window ends. -/
def State.nextPieces (k : Nat) (s : State) : State :=
  let s := s.startPieces k
  s.windowEnded k

/-- WIN of a hub in µs: 0 to 4,000 (R350, R355). -/
def State.calWin (s : State) (h : Nat) : Nat := min (s.rd R.THC.CAL_CTL_WIN h) 4000

/-- Stacks of a partition with queued tiles that a window may recalibrate (R350). -/
def State.windowStacks (s : State) (p : Nat) : List Nat :=
  (s.stacksOf p).filter (fun k => s.calAllowed k && !(s.stk k).recalQ.isEmpty && s.calWin (hubOfStack k) != 0)

/-- Those of one hub on which no window has been opened at this commit point. -/
def State.windowOf (s : State) (p h : Nat) : List Nat :=
  (s.windowStacks p).filter (fun k => hubOfStack k == h && (s.stk k).calRun.isEmpty && !(s.stk k).winDone)

/-- Length of a window of `us` µs: at most the largest WIN of the hubs that have queued tiles (R350). -/
def State.windowLen (s : State) (p us : Nat) : Nat := min us ((s.windowStacks p).foldl (fun m k => max m (s.calWin (hubOfStack k))) 0)

/-- CALIBRATION_WINDOW: at a commit point, between resolution and formation, the window of a partition for one hub, which starts pieces
within its own WIN, as many at once as PAR says then, on every stack of the partition with queued tiles, and counts the window's length
(R350, R355; DEDUCED, log entry 126). -/
def execCalibrationWindow (part : Fin 12) (hub : Fin 4) (us : Nat) (s : State) : Host.Outcome State Fault Refusal :=
  let p := part.val
  let h := hub.val
  let ks := s.windowOf p h
  if !(s.part p).between || ks.isEmpty then .next s
  else
    let len := s.windowLen p us
    let left := min len (s.calWin h)
    let par := s.calPar h
    .next ((s.bump R.THC.WIN_US h len).each ks (fun k s =>
      (s.onStk k (fun u => { u with winLeft := left, winPar := par, winDone := true })).nextPieces k))

/-- Is a converter one of the 33 of its array that piece n of a tile's recalibration covers (R347). -/
def inPiece (tile n key : Nat) : Bool := convGroup key == 8 * tile + n

/-- CAL_PIECE_END: a piece of a tile ends, in a window, or on an idle stack, where pieces run continuously (R351). `trims`
and `bad` are what a self-calibration piece found, `refs` the reference codes of the sweep. Pieces neither show in
CNV_SELFCAL_STAT.BUSY nor set SELFCAL_DONE (DESIGN CHOICE, log entry 109). -/
def execCalPieceEnd (stack : Fin 12) (tile : Nat) (trims : List (Nat × Nat)) (bad : List Nat) (refs : List (Nat × List Int)) (s : State) :
    Host.Outcome State Fault Refusal :=
  let k := stack.val
  let u := s.stk k
  if !(s.pieces k).contains tile then .next s
  else
    let n := AMap.getD u.calDone tile 0
    let s := s.onStk k (fun u => { u with calRun := u.calRun.filter (· != tile) })
    let s :=
      if n < 8 then
        let s := s.freshTrims k [8 * tile + n]
        let s := (s.selfcalResults k (inPiece tile n) trims bad).onStk k (fun u => { u with calDone := AMap.put u.calDone tile (n + 1) 0 })
        -- an idle stack goes on with the sweep at once: its temperature is taken now
        s.whenB (u.calRun.isEmpty && n == 7) (fun s => s.onStk k (fun u => { u with
          calTemp := AMap.set u.calTemp tile (AMap.getD u.sens tile {}).eff }))
      else
        -- the fold is written now; in a window the tile is adopted at its end, in idle at once (R352)
        let s := s.sweepTile k tile refs
        if u.calRun.isEmpty then s.calAdopt k tile else s.onStk k (fun u => { u with adopt := u.adopt ++ [tile] })
    .next (s.whenB (!u.calRun.isEmpty && (s.stk k).calRun.isEmpty) (fun s => s.nextPieces k))

/-- Do pieces run on a partition's stacks, so that the start of a step waits for them (R351). -/
def State.piecesRun (s : State) (p : Nat) : Bool := (s.stacksOf p).any (fun k => !(s.pieces k).isEmpty)

/-- A step waits for the pieces in progress: an open window runs to its end (R350), the pieces of an idle stack end, and no other starts
before the step does (R351). -/
def State.holdPieces (p : Nat) (s : State) : State :=
  s.each (s.stacksOf p) (fun k s => s.onStk k (fun u => { u with
    calRun := s.pieces k, calHold := true, winLeft := if u.calRun.isEmpty then 0 else u.winLeft }))

end Sys2Proof.Machine
end

