-- ==== Sys2Proof/Machine/MemCtl.lean ====
section
/-! DEFINITION. Memory controllers: training, ranges, frames and slots, refresh, scrub and the burst code at work (R269 to
R291). -/
namespace Sys2Proof.Machine

/-! ### Channels (R271, R273) -/

/-- Fields of MEM_CH_OK. -/
def chOkFields : List Field := [R.MEM.CH_OK0, R.MEM.CH_OK1, R.MEM.CH_OK2, R.MEM.CH_OK3]

/-- Bursts of a channel: 4 GiB of 64 bytes. -/
def channelBursts : Nat := 67108864

/-- Burst number of place i of a channel's patrol order: its blocks in ascending order (R273, R279). -/
def State.patrolBurst (s : State) (h ch i : Nat) : Nat :=
  let cs := s.channels h
  (memBase + h * 0x8000000000 + (i / 64 * cs.length + cs.idxOf ch) * 4096) / 64 + i % 64

/-- MEM_TRAIN.START: only while EN is 0, and one training at a time (R271). -/
def State.actTrain (h : Nat) (s : State) : State :=
  if s.en .mem h || (s.hub h).training then s.refuseWrite .mem h else s.onHub h (fun u => { u with training := true })

/-- MEM_TRAIN. -/
def execMemTrain (hub : Fin 4) (s : State) : Host.Outcome State Fault Refusal := .next (s.actTrain hub.val)

/-- The boot frame (R479): entries that are not IDLE. -/
def bootFrame : AMap Nat :=
  (List.range 4).flatMap (fun q =>
    [(256 * q, 0x0D)] ++ (List.range 122).map (fun i => (256 * q + 1 + i, 0x0C)) ++
      (List.range 122).map (fun i => (256 * q + 126 + i, 0x1C)) ++ (if q = 0 then [(251, 0x0E)] else []))

/-- TRAINING_END: `ok` has bit 32s + c for each channel that passed (R271). -/
def execTrainingEnd (hub : Fin 4) (ok : BitVec 128) (s : State) : Host.Outcome State Fault Refusal :=
  let h := hub.val
  if !(s.hub h).training then .next s
  else
    let m := ok.toNat
    let s := (s.onHub h (fun u => { u with training := false, frame0 := bootFrame, frame1 := bootFrame, len0 := 1024, len1 := 1024 })).wr
      R.MEM.STAT_TRAINED h 1
    let s := s.each ((List.range 4).zip chOkFields) (fun x s => s.wr x.2 h (bits m (32 * x.1) 32))
    let dead := (List.range 4).filter (fun i => bits m (32 * i) 32 == 0)
    let s := s.wr R.MEM.STAT_STACK_FAIL h (maskOf dead)
    .next (s.whenB (m != 2 ^ 128 - 1) (fun s => s.raise R.MEM.EVT_TRAIN_FAIL h))

/-! ### Ranges (R274, R275) -/

/-- MEM_PART_BASE and MEM_PART_SIZE of a partition, in GiB. -/
def State.partRange (s : State) (h p : Nat) : Nat × Nat := AMap.getD (s.hub h).partRegs p (0, 0)

/-- Do two runs overlap. -/
def overlaps (a m b n : Nat) : Bool := m != 0 && n != 0 && decide (a < b + n) && decide (b < a + m)

/-- BLOCK_STAT.CLEARING. -/
def State.setClearing (h : Nat) (s : State) : State := s.wrB R.MEM.STAT_CLEARING h (!(s.hub h).clearing.isEmpty)

/-- Does a load run in a partition. -/
def State.loading (s : State) (p : Nat) : Bool := (s.part p).load.isSome || (s.part p).loadWait

/-- May the selected range be applied (R275). -/
def State.applyOk (s : State) (h p : Nat) : Bool :=
  let (b, n) := s.partRange h p
  let other := (List.range 12).any (fun q => q != p && (s.part q).ranges.any (fun r => r.1 == h && overlaps b n r.2.1 r.2.2))
  decide (p < 12) && !other && (n == 0 || decide (b + n ≤ s.rd R.MEM.CAP h)) && !s.en .srv p && !s.loading p

/-- What a run of bytes reads as once another key stands for it: its bursts, stored under the one key, opened with the other (R289). A
burst of which the model lists no byte reads as before (log entry 4). -/
def State.rekey (old new : List Byte) (a n : Nat) (s : State) : State :=
  if old = new then s
  else
    let bs := ((s.mem.filter (fun e => a ≤ e.1 && e.1 < a + n)).map (fun e => e.1 / 64)).eraseDups
    let s : State := { s with blks := s.blks.filter (fun e => e.2.outside e.1 a n) }
    s.each bs (fun b s =>
      let d := Config.xtsOpen new b (Config.xtsSeal old b (s.mrd (64 * b) 64))
      { s with mem := s.mem.write (64 * b) ((d ++ List.replicate 64 0).take 64) })

/-- Key of a slot of a hub's controllers. -/
def State.keySlot (s : State) (h i : Nat) : List Byte := AMap.getD (s.hub h).keys i []

/-- A range leaves a partition: it is firmware memory from now on (R274, R289). -/
def State.dropRange (p : Nat) (r : Nat × Nat × Nat) (s : State) : State :=
  s.rekey (s.keySlot r.1 p) (s.keySlot r.1 12) (rangeBase r) (rangeSize r)

/-- MEM_PART_CTL.APPLY (R275): pending write-backs go, the old range's contents stay under the key that it had, and the new range
takes the key that the security block holds for the partition (R289, R431). -/
def State.actApply (h : Nat) (s : State) : State :=
  let p := s.rd R.MEM.PART_SEL h
  if !s.applyOk h p then s.refuseWrite .mem h
  else
    let (b, n) := s.partRange h p
    let old := (s.part p).ranges.filter (fun r => r.1 == h)
    let new : Nat × Nat × Nat := (h, b, n)
    let s := s.each (new :: old) (fun r s => s.cancelWb (rangeBase r) (rangeSize r))
    let s := s.each old (fun r s => s.dropRange p r)
    let s := s.onHub h (fun u => { u with keys := AMap.set u.keys p (s.part p).memKey })
    let s := s.onPart p (fun q => { q with
      ranges := sortBy (fun a b => decide (a.1 ≤ b.1)) ((if n = 0 then [] else [new]) ++ q.ranges.filter (fun r => r.1 != h)) })
    let s := s.onHub h (fun u => { u with
      clearing := (if n = 0 then [] else [p]) ++ u.clearing.filter (· != p) })
    s.setClearing h

/-- APPLY. -/
def execApply (hub : Fin 4) (s : State) : Host.Outcome State Fault Refusal := .next (s.actApply hub.val)

/-- The clear of a partition's range in a hub ends (R275). -/
def State.clearDone (h p : Nat) (s : State) : State :=
  let rs := (s.part p).ranges.filter (fun r => r.1 == h)
  let s := s.each rs (fun r s => s.zeroMem (rangeBase r) (rangeSize r))
  let s := (s.onHub h (fun u => { u with clearing := u.clearing.filter (· != p) })).setClearing h
  (s.raise R.MEM.EVT_CLEAR_DONE h).drainInbox p (s.part p).inbox.length

/-! ### Frames (R276, R277) -/

/-- Entry of a slot that nothing has written: IDLE. -/
def idleEntry : Nat := 0x0F
/-- OWNER of a frame entry. -/
def feOwner (e : Nat) : Nat := bits e 0 4
/-- DIR. -/
def feDir (e : Nat) : Nat := bits e 4 1
/-- USE. -/
def feUse (e : Nat) : Nat := bits e 5 3

/-- Entries and length of a frame. -/
structure Frame where
  ent : AMap Nat
  len : Nat
  deriving DecidableEq, Repr

/-- Frame buffer b of a hub. -/
def HubSt.frame (u : HubSt) (b : Nat) : Frame := if b = 0 then ⟨u.frame0, u.len0⟩ else ⟨u.frame1, u.len1⟩
/-- Entry of a slot. -/
def Frame.at (f : Frame) (i : Nat) : Nat := AMap.getD f.ent i idleEntry
/-- Entries in slot order. -/
def Frame.entries (f : Frame) : List Nat := (List.range f.len).map f.at

/-- Active frame of a hub. -/
def State.frameAct (s : State) (h : Nat) : Frame := (s.hub h).frame (s.rd R.MEM.FRAME_CTL_ACTIVE_BUF h)
/-- Inactive frame of a hub. -/
def State.frameIn (s : State) (h : Nat) : Frame := (s.hub h).frame (1 - s.rd R.MEM.FRAME_CTL_ACTIVE_BUF h)

/-- Does the active frame of a hub give a partition a write slot, of any USE (R275, R482). -/
def State.writeSlots (s : State) (h p : Nat) : Bool := (s.frameAct h).entries.any (fun e => feOwner e == p && feDir e == 1)

/-- Write an entry of the inactive frame (MEM_FRAME_DATA). -/
def State.frameWrite (h i v : Nat) (s : State) : State :=
  if s.rd R.MEM.FRAME_CTL_ACTIVE_BUF h = 0 then s.onHub h (fun u => { u with frame1 := AMap.put u.frame1 i (v % 256) idleEntry })
  else s.onHub h (fun u => { u with frame0 := AMap.put u.frame0 i (v % 256) idleEntry })

/-- Set the length of the inactive frame (MEM_FRAME_CTL.LEN). -/
def State.frameSetLen (h n : Nat) (s : State) : State :=
  if s.rd R.MEM.FRAME_CTL_ACTIVE_BUF h = 0 then s.onHub h (fun u => { u with len1 := n })
  else s.onHub h (fun u => { u with len0 := n })

/-- STEP slots of a partition in a frame, in slot order. -/
def Frame.stepSlots (f : Frame) (p : Nat) : List Nat :=
  (List.range f.len).filter (fun i => feOwner (f.at i) == p && feUse (f.at i) == 0)

/-- Does a partition own a slot of a frame. -/
def Frame.ownedBy (f : Frame) (p : Nat) : Bool := f.entries.any (fun e => feOwner e == p)

/-- Largest number of slots between two REFRESH slots, counted cyclically; none without a REFRESH slot. -/
def Frame.refreshGap (f : Frame) : Option Nat :=
  let r := (List.range f.len).filter (fun i => feOwner (f.at i) == 13)
  match r with
  | [] => none
  | a :: t => some (((r.zip (t ++ [a + f.len])).map (fun x => x.2 - x.1 - 1)).foldl max 0)

/-- Slots that carry data, in order, with how many IDLE slots precede each since the one before, starting from a count. -/
def turnSlots : Nat → List (Nat × Nat) → List (Nat × Nat × Nat)
  | _, [] => []
  | idle, (i, e) :: t =>
    if feOwner e = 15 then turnSlots (idle + 1) t
    else if feOwner e = 13 then turnSlots idle t
    else (i, e, idle) :: turnSlots 0 t

/-- Slots that break the turnaround rule: fewer than 3 IDLE slots between a read and a write slot, or beside a SCRUB slot
(reason 4). -/
def Frame.badTurns (f : Frame) : List Nat :=
  let es := (List.range f.len).zip f.entries
  let data := turnSlots 0 es
  let tail := ((es.reverse.takeWhile (fun x => feOwner x.2 == 15 || feOwner x.2 == 13)).filter (fun x => feOwner x.2 == 15)).length
  match data.reverse with
  | [] => []
  | last :: _ =>
    let pairs := match data with
      | [] => []
      | a :: t => (last, (a.1, a.2.1, a.2.2 + tail)) :: data.zip t
    (pairs.filter (fun x =>
      let scrub := feOwner x.1.2.1 == 14 || feOwner x.2.2.1 == 14
      (scrub || feDir x.1.2.1 != feDir x.2.2.1) && decide (x.2.2.2 < 3))).map (fun x => x.2.1)

/-- Is an entry a reserved encoding (reason 5). -/
def feReserved (e : Nat) : Bool :=
  (decide (13 ≤ feOwner e) && feDir e != 0) || (decide (12 ≤ feOwner e) && feUse e != 0) || (decide (feOwner e < 12) && decide (4 < feUse e))

/-- Does a slot change for a partition that serves (reason 6). -/
def State.movesSlot (s : State) (old new : Frame) (i : Nat) : Bool :=
  let a := if i < old.len then old.at i else idleEntry
  let b := if i < new.len then new.at i else idleEntry
  a != b && ((decide (feOwner a < 12) && s.en .srv (feOwner a)) || (decide (feOwner b < 12) && s.en .srv (feOwner b)))

/-- Does the number of a partition's STEP slots change where it must not (reason 7). -/
def State.movesSteps (s : State) (old new : Frame) : Bool :=
  (List.range 12).any (fun p => (s.is R.DCR.STAT_VERIFIED p || s.hasModel p) && (old.stepSlots p).length != (new.stepSlots p).length)

/-- Why the inactive frame is refused: the slot (none where the reason names none) and the reason of R277. Reasons of the
whole frame come before those of a slot; of the slots the first, with its lowest reason (DEDUCED, log entry 34). -/
def State.frameFault (s : State) (h : Nat) : Option (Option Nat × Nat) :=
  let f := s.frameIn h
  let old := s.frameAct h
  if f.len % 64 ≠ 0 ∨ f.len < 1024 ∨ 16384 < f.len then some (none, 1)
  else if (match f.refreshGap with | none => true | some g => decide (256 < g)) then some (none, 2)
  else if f.entries.all (fun e => feOwner e != 14) then some (none, 3)
  else
    let turns := f.badTurns
    let why (i : Nat) : Option Nat :=
      if turns.contains i then some 4 else if i < f.len ∧ feReserved (f.at i) then some 5
      else if s.movesSlot old f i then some 6 else none
    match (List.range (max f.len old.len)).findSome? (fun i => (why i).map (fun r => (some i, r))) with
    | some x => some x
    | none => if s.movesSteps old f then some (none, 7) else none

/-- MEM_FRAME_CTL.SWAP. -/
def State.actSwap (h : Nat) (s : State) : State := s.wr R.MEM.STAT_FRAME_PENDING h 1

/-- FRAME_SWAP. -/
def execFrameSwap (hub : Fin 4) (s : State) : Host.Outcome State Fault Refusal := .next (s.actSwap hub.val)

/-- FRAME_CHECK: a frame cycle starts, and slots of the last one are over (R278); a frame that waits is checked and swapped in or refused
(R277). -/
def execFrameCheck (hub : Fin 4) (s : State) : Host.Outcome State Fault Refusal :=
  let h := hub.val
  let s := s.onHub h (fun u => { u with
    slotPos := 0, begun := false, overrun := false, taken := u.taken.filter (fun e => decide (e.2 ≤ u.slotPos)) })
  if !s.is R.MEM.STAT_FRAME_PENDING h then .next s
  else
    let s := s.wr R.MEM.STAT_FRAME_PENDING h 0
    match s.frameFault h with
    | none => .next ((s.wr R.MEM.FRAME_CTL_ACTIVE_BUF h (1 - s.rd R.MEM.FRAME_CTL_ACTIVE_BUF h)).raise R.MEM.EVT_FRAME_SWAPPED h)
    | some (slot?, r) =>
      let (fr, s) := match slot? with | some i => (i, s) | none => s.takeFree
      .next (((s.wr R.MEM.FRAME_ERR_SLOT h fr).wr R.MEM.FRAME_ERR_REASON h r).raise R.MEM.EVT_FRAME_REFUSED h)

/-! ### Refresh (R278) -/

/-- First slot from a place on, cyclically, whose owner meets a test. -/
def Frame.nextSlot (f : Frame) (from_ : Nat) (ok : Nat → Bool) : Option Nat :=
  ((List.range f.len).map (fun i => (from_ + i) % f.len)).find? (fun i => ok (feOwner (f.at i)))

/-- Slots that a forced refresh took and that pass as another slot begins are over (R278): those from the sequencer's place on, up to it. -/
def HubSt.passTo (u : HubSt) (slot : Nat) : HubSt :=
  let passed (i : Nat) : Bool := if slot < u.slotPos then decide (u.slotPos ≤ i) || decide (i < slot) else decide (u.slotPos ≤ i) && decide (i < slot)
  { u with taken := u.taken.filter (fun e => !passed (e.2 - 1)) }

/-- A slot begins: the sequencer's place, and a pace overrun where pace runs ahead of the interface, counted once per slot, and once
per frame cycle for each partition with STEP slots in the hub (R270, R290). -/
def State.beginSlot (h slot : Nat) (s : State) : State :=
  let u := s.hub h
  if u.begun ∧ u.slotPos = slot then s
  else
    let wrapped := decide (slot < u.slotPos)
    let s := s.onHub h (fun u => { u.passTo slot with slotPos := slot, begun := true, used := [], overrun := u.overrun && !wrapped })
    if !s.tooFast h then s
    else
      let first := !(s.hub h).overrun
      let s := (s.flagCount R.MEM.EVT_PACE_OVERRUN R.MEM.PACE_OVERRUN_CNT h).onHub h (fun u => { u with overrun := true })
      if first then
        s.each ((List.range 12).filter (fun p => !((s.frameAct h).stepSlots p).isEmpty)) (fun p s => s.nonDet p R.GLB.ND_PACE_OVERRUN)
      else s

/-- The slot that follows the one that has begun. -/
def HubSt.comes (u : HubSt) : Nat := if u.begun then u.slotPos + 1 else u.slotPos

/-- Is a channel's slot taken for a forced refresh (R278). -/
def State.isTaken (s : State) (h ch slot : Nat) : Bool := AMap.getD (s.hub h).taken ch 0 == slot + 1

/-- A slot taken for a forced refresh has passed. -/
def State.freeTaken (h ch : Nat) (s : State) : State := s.onHub h (fun u => { u with taken := AMap.erase u.taken ch })

/-- REFRESH_SLOT: the next bank of every channel. -/
def execRefreshSlot (hub : Fin 4) (s : State) : Host.Outcome State Fault Refusal :=
  let h := hub.val
  if !s.en .mem h then .next s
  else
    let now := s.clk.devTime
    let s := match (s.frameAct h).nextSlot (s.hub h).comes (· == 13) with
      | some i => s.beginSlot h i
      | none => s
    .next (s.onHub h (fun u => { u with bank := u.bank + 1, lastRef := (s.channels h).map (fun c => (c, now)) }))

/-- Has MEM_REF_TMAX of device time passed on a channel since its last refresh (R278). -/
def State.refreshLate (s : State) (h ch : Nat) : Bool :=
  s.passed (AMap.getD (s.hub h).lastRef ch 0) (s.rd R.MEM.REF_TMAX h)

/-- FORCED_REFRESH: once MEM_REF_TMAX has passed, the next slot that is not REFRESH is taken on the channel; a partition's slot counts
as a timing-dependent choice (R278, R296). -/
def execForcedRefresh (hub : Fin 4) (channel : Fin 128) (s : State) : Host.Outcome State Fault Refusal :=
  let h := hub.val
  if !s.en .mem h || !(s.channels h).contains channel.val || !s.refreshLate h channel.val then .next s
  else
    let f := s.frameAct h
    let s := s.flagCount R.MEM.EVT_FORCED_REFRESH R.MEM.FORCED_REF_CNT h
    match f.nextSlot (s.hub h).comes (· != 13) with
    | none => .next s
    | some i =>
      let now := s.clk.devTime
      let s := s.onHub h (fun u => { u with
        taken := AMap.put u.taken channel.val (i + 1) 0, lastRef := AMap.set u.lastRef channel.val now })
      .next (s.whenB (decide (feOwner (f.at i) < 12)) (fun s => s.nonDet (feOwner (f.at i)) R.GLB.ND_FORCED_REF))

/-! ### Scrub (R279) -/

/-- Key of the range that holds an address (R289). -/
def State.keyAt (s : State) (a : Nat) : List Byte := s.keySlot (hubOfAddr a) ((s.partOfAddr a).getD 12)

/-- Stored bytes with the errors of their symbols. -/
def withErrors (e : AMap Nat) (bs : List Byte) : List Byte :=
  ((List.range bs.length).zip bs).map (fun x => BitVec.ofNat 8 (x.2.toNat ^^^ AMap.getD e x.1 0))

/-- A burst as its controller reads it, errors and all: the code covers what is stored, under the range's key (R283, R284, R289). -/
def State.asRead (s : State) (b : Nat) : List Byte :=
  let key := s.keyAt (64 * b)
  (Config.xtsOpen key b (withErrors (s.errOf b) (Config.xtsSeal key b (s.mrd (64 * b) 64))) ++ List.replicate 64 0).take 64

/-- Write a burst back: the errors go; a poison write-back sets POISON, and of a burst that does not decode it holds what was read. -/
def State.writeBack (b : Nat) (poison : Bool) (s : State) : State :=
  let s := s.whenB (poison && rsDecode (s.errOf b) == .failed) (fun s => { s with
    mem := s.mem.write (64 * b) (s.asRead b), blks := s.blks.filter (fun e => e.2.outside e.1 (64 * b) 64) })
  let s := { s with memErr := AMap.erase s.memErr b }
  if poison then s.mpoison (64 * b) 64 else s

/-- Next place of a channel's patrol whose burst is not poisoned, with how many places are passed over. -/
def State.patrolNext (s : State) (h ch : Nat) : Nat → Nat → Nat
  | 0, i => i
  | fuel + 1, i => if AMap.getD s.poi (s.patrolBurst h ch (i % channelBursts)) 0 = 0 then i else State.patrolNext s h ch fuel (i + 1)

/-- First channel of the first stack with an enabled channel (R279). -/
def State.firstChannel (s : State) (h : Nat) : Nat := (s.channels h).headD 0 / 32 * 32

/-- What a SCRUB slot does on a channel: the oldest write-back, or the next burst of the patrol. -/
def State.scrub (h ch : Nat) (s : State) : State :=
  let key := 128 * h + ch
  match AMap.getD s.memWb key [] with
  | (b, poison) :: t => { s with memWb := AMap.put s.memWb key t [] }.writeBack b poison
  | [] =>
    let i := s.patrolNext h ch s.poi.length (AMap.getD (s.hub h).patrol ch 0)
    let b := s.patrolBurst h ch (i % channelBursts)
    let s := (s.decodeBurst b).foundPoison b
    let wraps := decide (channelBursts ≤ i + 1)
    let s := s.onHub h (fun u => { u with patrol := AMap.put u.patrol ch ((i + 1) % channelBursts) 0 })
    s.whenB (wraps && ch == s.firstChannel h) (fun s => s.flagCount R.MEM.EVT_SCRUB_PASS R.MEM.SCRUB_PASS_CNT h)

/-- The SCRUB slot that serves a channel now: the one that has begun, once for each channel, else the next of the frame. -/
def State.scrubPlace (s : State) (h ch : Nat) : Nat :=
  let f := s.frameAct h
  let here := (s.hub h).begun && feOwner (f.at (s.hub h).slotPos) == 14 && !(s.hub h).used.contains ch
  if here then (s.hub h).slotPos else (f.nextSlot (s.hub h).comes (· == 14)).getD (s.hub h).slotPos

/-- SCRUB_SLOT: on one channel, unless a forced refresh has taken the slot there (R278, R279). -/
def execScrubSlot (hub : Fin 4) (channel : Fin 128) (s : State) : Host.Outcome State Fault Refusal :=
  let h := hub.val
  let ch := channel.val
  if !s.en .mem h || s.inDoze || !(s.channels h).contains ch then .next s
  else
    let slot := s.scrubPlace h ch
    let s := (s.beginSlot h slot).onHub h (fun u => { u with used := u.used ++ [ch] })
    if s.isTaken h ch slot then .next (s.freeTaken h ch) else .next (s.scrub h ch)

/-! ### STEP slots (R270, R276, R281) -/

/-- Plan entry that a STEP slot serves: by the partition's slot plan, in frame order (R280). -/
def State.planOf (s : State) (h p slot : Nat) : Option Nat :=
  match (s.part p).setAct.plan.find? (fun x => x.1 == h) with
  | none => none
  | some x =>
    let j := (((s.frameAct h).stepSlots p).filter (fun i => decide (i < slot))).length
    let e := byteAt x.2 (64 + 1020 + j)
    if e = 0xFF then none else some e

/-- May a slot of channel ch of hub h with a direction move a burst of a transfer of core cn: one of memory only on the channel that
holds it, in its direction, and not while its range clears (R275, R281); one between scratches, or of the accumulator window, on any
channel of the core's hub, the one in any direction (DESIGN CHOICE, log entry 114). -/
def State.slotFits (s : State) (h ch cn : Nat) (write : Bool) (b : XBurst) : Bool :=
  match b with
  | .mem a w => w == write && hubOfAddr a == h && s.channelOf a == ch && !s.clearsAt a
  | .win w => w == write && cn / 192 == h
  | .scratch => cn / 192 == h

/-- Next burst of a core's transfers on a plan entry that a slot may move: the first in issue order. -/
def State.nextBurst (s : State) (h ch entry : Nat) (write : Bool) (cn : Nat) : Option (Xfer × Nat) :=
  ((s.core cn).xfers.filter (fun x => x.plan == entry)).findSome? (fun x =>
    ((s.xferLeft x).find? (fun i => match (s.xferBursts x)[i]? with
      | some b => s.slotFits h ch cn write b
      | none => false)).map (fun i => (x, i)))

/-- STEP_SLOT: the slot moves the next queued burst of its plan entry on one channel, in its direction; a slot with nothing queued for
its user stays unused. What slots of the other users and of plan entries of KIND 1 to 4 carry moves with the command that completes it:
the slots give it its time alone (log entry 115). -/
def execStepSlot (hub : Fin 4) (channel : Fin 128) (slot : Nat) (s : State) : Host.Outcome State Fault Refusal :=
  let h := hub.val
  let ch := channel.val
  let f := s.frameAct h
  if !s.en .mem h || s.inDoze || !(s.channels h).contains ch || f.len ≤ slot then .next s
  else
    let s := s.beginSlot h slot
    let e := f.at slot
    if s.isTaken h ch slot then .next (s.freeTaken h ch)
    else if 12 ≤ feOwner e ∨ feUse e ≠ 0 then .next s
    else
      let p := feOwner e
      match s.planOf h p slot with
      | none => .next s
      | some entry =>
        match (s.ownCores p).findSome? (fun cn => (s.nextBurst h ch entry (feDir e == 1) cn).map (fun b => (cn, b))) with
        | none => .next s
        | some (cn, x, i) =>
          let s := s.moveBurst cn x i
          .next (s.onCore cn (fun c => { c with
            xfers := c.xfers.map (fun y => if y = x then { y with moved := y.moved ++ [i] } else y) }))

end Sys2Proof.Machine
end

