-- ==== Sys2Proof/Machine/Verify.lean ====
section
/-! DEFINITION. Verification of a step-program set into the inactive banks (R53, R62, R74, R128, R140, R143, R185, R190 to
R193, R198 to R204, R280). -/
namespace Sys2Proof.Machine

/-! ### Instruction words (R190, R191) -/

/-- OP of a word. -/
def wOp (w : Nat) : Nat := bits w 4 8

/-- Predicate and type fields. -/
def wCommon (w : Nat) : Common :=
  { pr := Fin.ofNat 8 (bits w 0 3), pn := w.testBit 3, ty := Fin.ofNat 16 (bits w 12 4) }

/-- Format V. -/
def wV (w : Nat) : VFmt :=
  { toCommon := wCommon w, d := Fin.ofNat 32 (bits w 16 5), a := Fin.ofNat 32 (bits w 21 5), b := Fin.ofNat 32 (bits w 26 5),
    c := Fin.ofNat 32 (bits w 31 5), dsc := w.testBit 36, asc := w.testBit 37, bsc := w.testBit 38, csc := w.testBit 39,
    pd := Fin.ofNat 8 (bits w 40 3) }

/-- Format I. -/
def wI (w : Nat) : IFmt :=
  { toCommon := wCommon w, d := Fin.ofNat 32 (bits w 16 5), a := Fin.ofNat 32 (bits w 21 5), dsc := w.testBit 26,
    asc := w.testBit 27, imm := BitVec.ofNat 32 (bits w 32 32) }

/-- Format S. -/
def wS (w : Nat) : SFmt :=
  { toCommon := wCommon w, d := Fin.ofNat 32 (bits w 16 5), a := Fin.ofNat 32 (bits w 21 5), asc := w.testBit 26,
    size := Fin.ofNat 4 (bits w 27 2), sext := w.testBit 29, off := BitVec.ofNat 32 (bits w 32 32) }

/-- Format M. -/
def wM (w : Nat) : MFmt :=
  { toCommon := wCommon w, sa := Fin.ofNat 16 (bits w 16 4), sm := Fin.ofNat 16 (bits w 20 4), sl := Fin.ofNat 16 (bits w 24 4),
    tok := Fin.ofNat 16 (bits w 28 4), plan := Fin.ofNat 256 (bits w 32 8), sx := Fin.ofNat 16 (bits w 40 4) }

/-- Format T. -/
def wT (w : Nat) : TFmt :=
  { toCommon := wCommon w, at_ := Fin.ofNat 32 (bits w 16 5), sa := Fin.ofNat 16 (bits w 21 4), sb := Fin.ofNat 16 (bits w 25 4),
    ssa := Fin.ofNat 16 (bits w 29 4), ssb := Fin.ofNat 16 (bits w 33 4), usa := w.testBit 37, usb := w.testBit 38, clr := w.testBit 39 }

/-- Format B. -/
def wB (w : Nat) : BFmt :=
  { toCommon := wCommon w, mode := Fin.ofNat 4 (bits w 16 2), sc := Fin.ofNat 32 (bits w 21 5), tgt := BitVec.ofNat 32 (bits w 32 32) }

/-- Format X. -/
def wX (w : Nat) : XFmt :=
  { toCommon := wCommon w, s1 := Fin.ofNat 16 (bits w 16 4), s2 := Fin.ofNat 16 (bits w 20 4), s3 := Fin.ofNat 16 (bits w 24 4),
    tok := Fin.ofNat 16 (bits w 28 4), imm := BitVec.ofNat 32 (bits w 32 32) }

/-- Reserved bits of the word's format are 0. -/
def wResOk (w : Nat) : Bool :=
  let op := wOp w
  if op = 0x10 ∨ op = 0x11 then bits w 28 4 == 0
  else if op < 0x40 then bits w 43 21 == 0
  else if op < 0x60 then bits w 30 2 == 0
  else if op < 0x64 then bits w 44 20 == 0
  else if op = 0x64 then true
  else if op < 0xA0 then bits w 40 24 == 0
  else if op < 0xC0 then bits w 18 3 == 0 && bits w 26 6 == 0
  else true

/-- Is the OP of a word one of the table (R192), and do its fields have a shape that R185 and R193 accept. -/
def wShapeOk (w : Nat) : Bool :=
  let v := wV w
  let plain := Common.plain (wCommon w)
  match wOp w with
  | 0x00 | 0x01 | 0x02 | 0x04 | 0x05 | 0x06 | 0x07 | 0x08 | 0x09 | 0x0A | 0x0B => vOkInt v 2
  | 0x03 => vOkInt v 3
  | 0x0C => decide (v.ty.val < 2) && vOkP v
  | 0x0D => vOkInt v 2 && decide (v.c.val < 8)
  | 0x0E => vOkInt v 1
  | 0x10 => iOk (wI w) false
  | 0x11 => iOk (wI w) true
  | 0x12 => vOkInt v 0
  | 0x13 => vOkInt v 2
  | 0x20 | 0x21 | 0x23 | 0x24 => vOkFp v 2
  | 0x22 => vOkFp v 3
  | 0x25 => decide (v.ty.val < 2) && vOkP v
  | 0x26 => decide (v.ty.val < 10) && decide (v.c.val % 16 < 10) && vOk v 1
  | 0x27 | 0x28 | 0x29 | 0x2A | 0x2B | 0x2C => vOkFp v 1
  | 0x2D => fmtBlock v.ty.val && !v.dsc && selOk v.asc v.a && decide (v.c.val < 16)
  | 0x2E => decide (7 ≤ v.ty.val) && decide (v.ty.val ≤ 9) && !v.dsc && selOk v.asc v.a && decide (v.b.val < 16) &&
      decide (v.c.val < 16) && decide (v.d.val < 31)
  | 0x40 | 0x41 => sOk (wS w)
  | 0x42 => aaddOk (wS w)
  | 0x60 | 0x61 | 0x62 | 0x63 => plain
  | 0x64 => plain
  | 0x80 => plain && decide (1 ≤ v.ty.val) && decide (v.ty.val ≤ 9) && !((wT w).usb && mmaInt v.ty.val)
  | 0x81 | 0x83 => plain
  | 0x82 => plain && decide (v.ty.val ≤ 1)
  | 0xA0 => decide ((wB w).mode.val < 3)
  | 0xA1 => decide ((wB w).sc.val < 16) && plain
  | 0xA2 | 0xA3 => true
  | 0xA4 => plain
  | 0xC0 => plain && decide (1 ≤ bits w 40 7) && decide (bits w 40 7 ≤ 64)
  | 0xC1 | 0xC2 | 0xC3 => plain
  | 0xE0 | 0xE1 | 0xE3 => plain
  | 0xE2 => plain && decide (1 ≤ bits w 32 8) && decide (bits w 32 8 ≤ 3) && bits w 48 16 == 0
  | _ => false

/-- Branch target of the word at index i, for BR, LOOP and CALL. -/
def wTarget (w i : Nat) : Option Int :=
  let op := wOp w
  if op = 0xA0 ∨ op = 0xA1 ∨ op = 0xA2 then some ((i : Int) + (wB w).tgt.toInt) else none

/-- Does the target of a branch lie in the section of n instructions. -/
def wTargetOk (n w i : Nat) : Bool :=
  match wTarget w i with | some t => decide (0 ≤ t) && decide (t < (n : Int)) | none => true

/-- Where control may go from the word at index i. -/
def wNexts (w i : Nat) : List Nat :=
  let op := wOp w
  let t := match wTarget w i with | some t => [t.toNat] | none => []
  if op = 0xA3 ∨ op = 0xA4 then [] else t ++ [i + 1]

/-- Mark what can be reached: indices still to visit, and the set visited. -/
def reach (code : List Nat) : Nat → List Nat → Nat → Nat
  | 0, _, seen => seen
  | _, [], seen => seen
  | fuel + 1, i :: t, seen =>
    if seen.testBit i ∨ code.length ≤ i then reach code fuel t seen
    else reach code fuel (wNexts (code.getD i 0) i ++ t) (seen ||| 1 <<< i)

/-- Indices that a group's entry can reach. -/
def reachFrom (code : List Nat) (entry : Nat) : Nat := reach code (3 * code.length + 2) [entry] 0

/-- Tile that a word names, for MMA, ALD, AST and AZ. -/
def wTile (w : Nat) : Option Nat := if 0x80 ≤ wOp w ∧ wOp w ≤ 0x83 then some (wT w).at_.val else none

/-- Plan entry that a word names. -/
def wPlan (w : Nat) : Option Nat :=
  let op := wOp w
  if 0x60 ≤ op ∧ op ≤ 0x63 then some (bits w 32 8) else if op = 0xE2 then some (bits w 40 8) else none

/-! ### Sections (R198 to R202) -/

/-- A section entry. -/
structure SecEnt where
  typ : Nat
  hub : Nat
  unit : Nat
  count : Nat
  off : Nat
  len : Nat
  res : Nat
  deriving DecidableEq, Repr

/-- Read a section entry of 32 bytes. -/
def SecEnt.ofBytes (b : List Byte) : SecEnt :=
  { typ := byteAt b 0, hub := byteAt b 1, unit := fieldLE b 2 2, count := fieldLE b 4 4, off := fieldLE b 8 8, len := fieldLE b 16 8,
    res := fieldLE b 24 8 }

/-- Bytes of a record of a section; 0 for a SLOTPLAN, which has none of one size. -/
def recBytes (typ : Nat) : Nat :=
  match typ with | 1 => 8 | 2 => 16 | 3 => 8 | 4 => 64 | 5 => 32 | 6 => 48 | _ => 0

/-- Does a section entry name its place as its type asks, lie in the set and hold COUNT records (R198, R199). -/
def SecEnt.ok (e : SecEnt) (setBytes : Nat) : Bool :=
  decide (1 ≤ e.typ) && decide (e.typ ≤ 7) && e.res == 0 && e.off % 64 == 0 && decide (e.off + e.len ≤ setBytes) &&
  (if e.typ = 1 ∨ e.typ = 2 ∨ e.typ = 7 then decide (e.hub < 4) else e.hub == 0xFF) &&
  (if e.typ = 1 ∨ e.typ = 2 then decide (e.unit < 192) else if e.typ = 3 then decide (e.unit < 12) else e.unit == 0) &&
  (e.typ == 7 || e.len == e.count * recBytes e.typ)

/-- Do two sections overlap, or stand for one place. -/
def SecEnt.clash (a b : SecEnt) : Bool :=
  overlaps a.off a.len b.off b.len || (a.typ == b.typ && a.hub == b.hub && a.unit == b.unit)

/-- First section entry that is not as R198 and R199 say. -/
def badEntry (setBytes tableEnd : Nat) : List SecEnt → Nat → List SecEnt → Option Nat
  | _, _, [] => none
  | before, i, e :: t =>
    if !e.ok setBytes || (e.len != 0 && decide (e.off < tableEnd)) || before.any e.clash then some i
    else badEntry setBytes tableEnd (e :: before) (i + 1) t

/-- A set as it lies in memory: its header, entries and bytes. -/
structure SetIn where
  ents : List SecEnt
  bytes : List Byte

/-- Bytes of a section. -/
def SetIn.sec (x : SetIn) (e : SecEnt) : List Byte := (x.bytes.drop e.off).take e.len

/-- Records of a section, each as bytes. -/
def records (n : Nat) : Nat → List Byte → List (List Byte)
  | 0, _ => []
  | c + 1, bs => bs.take n :: records n c (bs.drop n)

/-- Sections of a type. -/
def SetIn.ofType (x : SetIn) (t : Nat) : List SecEnt := x.ents.filter (fun e => e.typ == t)

/-- A group entry from its bytes (R200). -/
def GroupEntry.ofBytes (b : List Byte) : GroupEntry :=
  { entry := fieldLE b 0 4, tiles := fieldLE b 4 4, start := byteAt b 8 % 2 == 1, esc := byteAt b 8 / 2 % 2 == 1 }

/-- A chain record from its bytes (R201). -/
def ChainRec.ofBytes (b : List Byte) : ChainRec :=
  { descFirst := fieldLE b 0 4, descCount := fieldLE b 4 2, stack := byteAt b 6, flags := byteAt b 7, cadence := byteAt b 8,
    sref := byteAt b 9, rung := byteAt b 10, fused := byteAt b 11, outFmt := byteAt b 12, collHub := byteAt b 13,
    chain := byteAt b 14, layer := fieldLE b 16 2, expert := fieldLE b 18 2, matrix := byteAt b 20, colblk := fieldLE b 22 2,
    outTensor := fieldLE b 24 4, opndTensor := fieldLE b 28 4, consChain := fieldLE b 32 4, digTensor := fieldLE b 36 4 }

/-- A tensor descriptor from its bytes (R202). -/
def TensorRec.ofBytes (b : List Byte) : TensorRec :=
  { base := fieldLE b 0 8, scaleBase := fieldLE b 8 8, fmt := byteAt b 16, rows := fieldLE b 20 4, cols := fieldLE b 24 4,
    stride := fieldLE b 28 4 }

/-- The set as the stores hold it (R199). -/
def SetIn.load (x : SetIn) : StepSet :=
  let one (t : Nat) : List (List Byte) := (x.ofType t).flatMap (fun e => records (recBytes t) e.count (x.sec e))
  { generation := fieldLE x.bytes 16 8, image := (x.bytes.drop 24).take 32
    code := (x.ofType 1).foldl (fun m e => AMap.set m (192 * e.hub + e.unit) (leWords 8 e.count (x.sec e))) []
    groups := (x.ofType 2).foldl (fun m e => AMap.set m (192 * e.hub + e.unit) ((records 16 e.count (x.sec e)).map GroupEntry.ofBytes)) []
    descs := (x.ofType 3).foldl (fun m e => AMap.set m e.unit (leWords 8 e.count (x.sec e))) []
    chains := (one 4).map ChainRec.ofBytes
    tensors := (one 5).map TensorRec.ofBytes
    topk := one 6
    plan := sortBy (fun a b => decide (a.1 ≤ b.1)) ((x.ofType 7).map (fun e => (e.hub, x.sec e)))
    bytes := x.bytes }

/-! ### Checks -/

/-- A fault of a set: its code, the section, and the byte offset in it. -/
structure SetFault where
  code : Nat
  sec : Nat
  off : Nat
  deriving DecidableEq, Repr

/-- First record of a list that fails a check. -/
def firstBad {α : Type} (ok : Nat → α → Bool) : Nat → List α → Option Nat
  | _, [] => none
  | i, x :: t => if ok i x then firstBad ok (i + 1) t else some i

/-- Does KIND 5 of a hub's slot plan give an entry to a core (R280, R281). The check holds for the core's own hub. -/
def StepSet.planIsCore (z : StepSet) (hub core entry : Nat) : Bool :=
  match z.plan.find? (fun x => x.1 == hub) with
  | none => false
  | some x =>
    let w := fieldLE x.2 (64 + 4 * entry) 4
    decide (entry < 255) && bits w 0 4 == 5 && bits w 4 2 == hub && bits w 6 8 == core

/-- Groups of a core, those that never run among them, with what their entries reach (R193). -/
def StepSet.runners (z : StepSet) (core : Nat) (code : List Nat) : List (GroupEntry × Nat) :=
  (AMap.getD z.groups core []).map (fun g => (g, reachFrom code g.entry))

/-- Check one instruction of a core (R185, R193). -/
def codeOk (runners : List (GroupEntry × Nat)) (n i w : Nat) : Bool :=
  wResOk w && wShapeOk w && wTargetOk n w i &&
  (match wTile w with
   | some t => runners.all (fun g => !g.2.testBit i || g.1.tiles.testBit t)
   | none => true)

/-- Is a descriptor accepted (R53, R62). -/
def descOk (d : Nat) : Bool :=
  decide (dArray d ≤ 38911) && dTrig d == 0 && decide (dLane d < 2) && bits d 45 19 == 0

/-- Are all elements equal. -/
def allSame : List Nat → Bool
  | [] => true
  | a :: t => t.all (· == a)

/-- Is a chain record accepted by itself (R74, R128, R140, R201). -/
def StepSet.chainOk (z : StepSet) (b : List Byte) : Bool :=
  let c := ChainRec.ofBytes b
  let all := AMap.getD z.descs c.stack []
  let ds := (all.drop c.descFirst).take c.descCount
  let modes := ds.map (fun d => bits d 22 2)
  decide (1 ≤ c.descCount) && decide (c.descCount ≤ 512) && decide (c.descFirst + c.descCount ≤ all.length) && decide (c.stack < 12) &&
  decide (c.flags < 8) && decide (c.cadence ≤ 64) && srefOk c.sref && decide (c.rung ≤ 2) && decide (c.fused ≤ 2) &&
  (c.flags.testBit 2 || decide (c.outFmt < 10)) && decide (c.collHub < 4) && byteAt b 15 == 0 && byteAt b 21 == 0 && zerosAt b 40 24 &&
  ds.all (fun d => dChain d == c.chain) && allSame (ds.map (fun d => homeTile (dArray d))) && allSame (ds.map dFsExp) &&
  allSame (ds.map dWmode) && (if c.rung = 2 then modes.all (fun m => decide (2 ≤ m)) else modes.all (· == c.rung))

/-- Chain group of a record. -/
def ChainRec.group (c : ChainRec) : Nat × Nat × Nat × Nat := (c.layer, c.expert, c.matrix, c.colblk)

/-- Do two chains of one group agree where they must (R201), and not name one slot of one tile: chains of one group are
those that the model takes to be open together (R128; log entry 35). -/
def StepSet.chainPairOk (z : StepSet) (a b : ChainRec) : Bool :=
  if a.group ≠ b.group then true
  else
    let d0 (c : ChainRec) : Nat := (AMap.getD z.descs c.stack []).getD c.descFirst 0
    a.outTensor == b.outTensor && a.opndTensor == b.opndTensor && a.fused == b.fused && a.collHub == b.collHub &&
    a.outFmt == b.outFmt && a.flags.testBit 1 == b.flags.testBit 1 && a.chain != b.chain &&
    !(a.stack == b.stack && homeTile (dArray (d0 a)) == homeTile (dArray (d0 b)) && dSlot (d0 a) == dSlot (d0 b))

/-- Is a fixed call record in error (R143): its fields, and an adjustment list that is not ascending below N. -/
def State.topkRecOk (s : State) (b : List Byte) : Bool :=
  let r := TopkRec.ofBytes b
  !r.bad && ascBelow r.n ((s.topkAdj r).map (·.pos))

/-- Is a tensor descriptor accepted: no reserved code or bits, and inside the partition (R202, R203). -/
def State.tensorOk (s : State) (p : Nat) (b : List Byte) : Bool :=
  let t := TensorRec.ofBytes b
  let rowBytes := cdiv (fmtBits t.fmt * t.cols) 8
  decide (t.fmt < 10) && zerosAt b 17 3 && t.stride % 64 == 0 &&
  (t.rows == 0 || s.inPart p t.base ((t.rows - 1) * t.stride + rowBytes)) &&
  (!fmtBlock t.fmt || t.rows == 0 || s.inPart p t.scaleBase (t.rows * cdiv t.cols 32))

/-- Byte offset of the first fault of a slot plan, if any (R280). -/
def State.planFault (s : State) (p : Nat) (e : SecEnt) (b : List Byte) : Option Nat :=
  let n := ((s.frameAct e.hub).stepSlots p).length
  let ent (i : Nat) : Nat := fieldLE b (64 + 4 * i) 4
  let slots := (b.drop 1084).take n
  if e.len ≠ 1084 + n ∨ fieldLE b 0 4 ≠ n then some 0
  else if !zerosAt b 4 60 then some 4
  else
    match (List.range 255).find? (fun i => decide (5 < bits (ent i) 0 4) || bits (ent i) 14 18 != 0) with
    | some i => some (64 + 4 * i)
    | none =>
      let kinds := slots.map (fun x => if x.toNat = 255 then 0 else bits (ent x.toNat) 0 4)
      if [1, 2, 3, 4].all (fun k => kinds.contains k) then none else some 1084

/-- Capacity of a section's store, and whether a section is over it (R199). Chains count by the hub of their stack. -/
def overCapacity (x : SetIn) (e : SecEnt) : Bool :=
  match e.typ with
  | 1 => decide (16384 < e.count)
  | 2 => decide (64 < e.count)
  | 3 => decide (1048576 < e.count)
  | 4 =>
    let cs := (records 64 e.count (x.sec e)).map ChainRec.ofBytes
    (List.range 4).any (fun h => decide (524288 < (cs.filter (fun c => hubOfStack c.stack == h)).length))
  | 5 => decide (262144 < e.count)
  | 6 => decide (131072 < e.count)
  | _ => false

/-- Does a section name a core or a stack that the partition does not hold (code CORES). -/
def State.notHeld (s : State) (p : Nat) (e : SecEnt) : Bool :=
  if e.typ = 1 ∨ e.typ = 2 then !((s.part p).sets.getD e.hub 0).testBit (e.unit / 16)
  else if e.typ = 3 then !s.owns p e.unit else false

/-- Check the records of one section: the code and offset of its first fault. -/
def State.secFault (s : State) (p : Nat) (x : SetIn) (z : StepSet) (e : SecEnt) : Option (Nat × Nat) :=
  let b := x.sec e
  let at_ (code size : Nat) (r : Option Nat) : Option (Nat × Nat) := r.map (fun i => (code, size * i))
  if overCapacity x e then some (0x16, 0)
  else if s.notHeld p e then some (0x17, 0)
  else match e.typ with
  | 1 =>
    let core := 192 * e.hub + e.unit
    let code := AMap.getD z.code core []
    let rs := z.runners core code
    match firstBad (fun i w => codeOk rs e.count i w) 0 code with
    | some i => some (0x11, 8 * i)
    | none =>
      at_ 0x10 8 (firstBad (fun _ w => match wPlan w with | some en => z.planIsCore e.hub e.unit en | none => true) 0 code)
  | 3 => at_ 0x12 8 (firstBad (fun _ d => descOk d) 0 (leWords 8 e.count b))
  | 4 =>
    let rs := records 64 e.count b
    match firstBad (fun _ r => z.chainOk r) 0 rs with
    | some i => some (0x13, 64 * i)
    | none =>
      let cs := rs.map ChainRec.ofBytes
      at_ 0x13 64 (firstBad (fun i c => (cs.take i).all (fun d => z.chainPairOk d c)) 0 cs)
  | 5 => at_ 0x15 32 (firstBad (fun _ r => s.tensorOk p r) 0 (records 32 e.count b))
  | 6 => at_ 0x14 48 (firstBad (fun _ r => s.topkRecOk r) 0 (records 48 e.count b))
  | 7 => at_ 0x10 1 (s.planFault p e b)
  | _ => none

/-- Offset of the first entry of a group table that breaks R200: by itself, or by sharing a tile with one before it. The table of status
codes names no code for it: the code is a free value (log entry 36). -/
def groupsFault (e : SecEnt) (b : List Byte) : Option Nat :=
  let rs := records 16 e.count b
  (firstBad (fun i r =>
    let g := GroupEntry.ofBytes r
    !(g.start && g.esc) && decide (byteAt r 8 ≤ 3) && zerosAt r 9 7 &&
      (rs.take i).all (fun q => (GroupEntry.ofBytes q).tiles &&& g.tiles == 0)) 0 rs).map (16 * ·)

/-- Header of a set in order (R198). -/
def setHeaderOk (b : List Byte) : Bool :=
  b.take 8 == ascii "KWSTPSET" && fieldLE b 8 2 == 1 && decide (1 ≤ fieldLE b 10 2) && decide (fieldLE b 10 2 ≤ 4096) &&
  fieldLE b 12 4 == 0 && zerosAt b 64 64 && decide (128 + 32 * fieldLE b 10 2 ≤ fieldLE b 56 8)

/-- Result of checking a set at an address: a fault (with no code where the spec names none, and no place where it names
none), or the set. -/
def State.checkSet (s : State) (p a : Nat) : (Option Nat × Option (Nat × Nat)) ⊕ StepSet :=
  let hdr := s.mrd a 128
  if !s.inPart p a 128 || s.mbad a 128 || !setHeaderOk hdr then .inl (some 0x10, none)
  else
    let n := fieldLE hdr 56 8
    if !s.inPart p a n || s.mbad a n then .inl (some 0x10, none)
    else
      let bytes := s.mrd a n
      let cnt := fieldLE hdr 10 2
      let ents := (records 32 cnt (bytes.drop 128)).map SecEnt.ofBytes
      let x : SetIn := ⟨ents, bytes⟩
      match badEntry n (128 + 32 * cnt) [] 0 ents with
      | some i => .inl (some 0x10, some (i, 0))
      | none =>
        let z := x.load
        match ((List.range cnt).zip ents).findSome? (fun y =>
            match s.secFault p x z y.2 with
            | some f => some (some f.1, some (y.1, f.2))
            | none => if y.2.typ = 2 then (groupsFault y.2 (x.sec y.2)).map (fun o => (none, some (y.1, o))) else none) with
        | some f => .inl f
        | none => .inr z

/-! ### Commands -/

/-- DCR_SET_CTL.VERIFY (R203): refused while a verification runs or a switch is pending. VERIFIED of an earlier set falls with it (DEDUCED, log
entry 142). -/
def State.actVerify (p : Nat) (s : State) : State :=
  if (s.part p).verifying.isSome || (s.part p).switchPend.isSome then s.refuseWrite .dcr p
  else
    let a := s.rd R.DCR.SET_ADDR p
    ((s.onPart p (fun q => { q with verifying := some a })).wr R.DCR.SET_STAT_CODE p 1).wr R.DCR.STAT_VERIFIED p 0

/-- VERIFY. -/
def execVerify (part : Fin 12) (s : State) : Host.Outcome State Fault Refusal := .next (s.ofPart part.val (State.actVerify part.val))

/-- A verification ends well: the set is in the inactive banks. -/
def State.setAccepted (p : Nat) (z : StepSet) (s : State) : State :=
  let s := s.onPart p (fun q => { q with setNew := z })
  (((s.wr R.DCR.SET_STAT_CODE p 2).wr R.DCR.STAT_VERIFIED p 1).wr R.DCR.VER_GEN p z.generation).raise R.DCR.EVT_SET_OK p

/-- A verification ends badly. What the spec does not name, a code or a place, is a free value. -/
def State.setRejected (p : Nat) (code : Option Nat) (place : Option (Nat × Nat)) (s : State) : State :=
  let (c, s) := match code with | some c => (c, s) | none => let (f, s) := s.takeFree; (0x10 + f % 8, s)
  let (f, s) := match place with | some x => (x, s) | none => let (f, s) := s.takeFree; ((f % 4096, f / 4096), s)
  let s := s.onPart p (fun q => { q with setNew := {} })
  ((((s.wr R.DCR.SET_STAT_CODE p c).wr R.DCR.SET_STAT_SECTION p f.1).wr R.DCR.SET_ERR_OFF p f.2).wr R.DCR.STAT_VERIFIED p 0).raise
    R.DCR.EVT_SET_REJECTED p

/-- SET_VERIFY_DONE: every check of R203, the set copied into the inactive banks, or the first fault recorded. -/
def execSetVerifyDone (part : Fin 12) (s : State) : Host.Outcome State Fault Refusal :=
  let p := part.val
  match (s.part p).verifying with
  | none => .next s
  | some a =>
    if s.clears p then .next s
    else
      let s := (s.touchOf p a 128).touchOf p a (s.mval (a + 56) 8)
      let r := s.checkSet p a
      let s := s.onPart p (fun q => { q with verifying := none })
      match r with
      | .inr z => .next (s.setAccepted p z)
      | .inl (code, place) => .next (s.setRejected p code place)

end Sys2Proof.Machine
end

