-- ==== Sys2Proof/Machine/Loader.lean ====
section
/-! DEFINITION. The weight loader: descriptors, manifests, the checks of a placement, fetch, staging, programming and the
end of a load (R121, R122, R151 to R169, R173, R174, R175, R287, R483, R484, R487, R488). -/
namespace Sys2Proof.Machine

/-! ### Status (R158) -/

/-- Status codes of a load. -/
def lsRunning : Nat := 0x01
/-- DONE. -/
def lsDone : Nat := 0x02
/-- WRONG_STATE. -/
def lsWrongState : Nat := 0x10
/-- FORMAT. -/
def lsFormat : Nat := 0x11
/-- KEY_UNKNOWN. -/
def lsKeyUnknown : Nat := 0x12
/-- SIG_BAD. -/
def lsSigBad : Nat := 0x13
/-- BASE_MISMATCH. -/
def lsBaseMismatch : Nat := 0x14
/-- NO_FIT. -/
def lsNoFit : Nat := 0x15
/-- BUDGET. -/
def lsBudget : Nat := 0x16
/-- PLACE_BAD. -/
def lsPlaceBad : Nat := 0x17
/-- WEAR. -/
def lsWear : Nat := 0x18
/-- SOURCE_UNREACHABLE. -/
def lsUnreachable : Nat := 0x19
/-- DIGEST_BAD. -/
def lsDigestBad : Nat := 0x1A
/-- SHARD_MISSING. -/
def lsShardMissing : Nat := 0x1B
/-- KEY_MISSING. -/
def lsKeyMissing : Nat := 0x1C
/-- AUTH_FAIL. -/
def lsAuthFail : Nat := 0x1D
/-- ABORTED. -/
def lsAborted : Nat := 0x1E
/-- POWER_FAIL. -/
def lsPowerFail : Nat := 0x1F

/-- Correction data of a block with its check values (R121): outlier rows and sparse lists. -/
def Blk.corrBytes (b : Blk) : Nat := if b.kind = 3 ∨ b.kind = 4 then b.length + 4 * cdiv b.length 4096 else 0

/-- Resident blocks of every placement in the module, each address once. -/
def State.residentBlks (s : State) : List Blk :=
  let all := (List.range 12).flatMap (fun p =>
    let q := s.part p
    (match q.active with | some x => x.blocks | none => []) ++ (match q.loaded with | some x => x.blocks | none => []) ++
      (match q.load with | some x => x.placement.blocks | none => []))
  (all.filter (fun b => b.resident && b.corrBytes != 0)).foldl (fun acc b => if acc.any (fun x => x.addr == b.addr) then acc else b :: acc) []

/-- DCP_CORR_BYTES of every hub (R121). -/
def State.setCorrBytes (s : State) : State :=
  let bs := s.residentBlks
  s.each (List.range 4) (fun h s =>
    s.wr R.DCP.CORR_BYTES h ((bs.filter (fun b => hubOfAddr b.addr == h)).foldl (fun a b => a + b.corrBytes) 0))

/-- A load ends with a failure status (R158): the placement is dropped, and array-tiers whose programming had begun hold no
block (R173). -/
def State.loadFail (p code : Nat) (shard : Option Nat) (s : State) : State :=
  let mine := match (s.part p).load with
    | some l => l.levels.filter (fun e => decide (4 ≤ e.2)) |>.map (fun e =>
        (((l.placement.entries[e.1]?).map (·.stack)).getD 0, e.2 - 4))
    | none => []
  let s := s.each mine (fun x s => s.onStk x.1 (fun u => { u with programming := AMap.erase u.programming x.2 }))
  let s := (s.onPart p (fun q => { q with load := none, loadWait := false })).closeLoad p
  let s := ((s.wr R.WLD.LOAD_STAT_STATUS p code).wr R.WLD.STAT_LOADING p 0).raise R.WLD.EVT_LOAD_FAILED p
  let s := match shard with | some i => s.wr R.WLD.FAIL_SHARD p i | none => s
  s.setProgramming.setCorrBytes

/-! ### Start (R156, R157) -/

/-- A source record. -/
def SourceRec.ofBytes (b : List Byte) : SourceRec :=
  { addr := b.take 16, port := fieldLE b 16 2, nsid := fieldLE b 20 4, nqn := (b.drop 32).takeWhile (· != 0) }

/-- Does a source record keep its reserved bytes, its name's length and its padding (R15, R157). -/
def sourceOk (b : List Byte) : Bool :=
  let name := (b.drop 32).takeWhile (· != 0)
  zerosAt b 18 2 && zerosAt b 24 8 && decide (name.length ≤ 223) && ((b.drop 32).drop name.length).all (· == 0)

/-- Does a load descriptor hold only the values of R157. -/
def loadDescOk (d : List Byte) : Bool :=
  decide (byteAt d 0 ≤ 3) && decide (byteAt d 1 ≤ 1) && decide (1 ≤ byteAt d 2) && decide (byteAt d 2 ≤ 2) && byteAt d 3 == 0 &&
  decide (1000 ≤ fieldLE d 4 4) && decide (fieldLE d 4 4 ≤ 600000) && fieldLE d 8 8 % 4096 == 0 && fieldLE d 16 8 % 4096 == 0 &&
  decide (2 ^ 30 ≤ fieldLE d 24 8) && decide (fieldLE d 24 8 ≤ 2 ^ 36) && fieldLE d 24 8 % 2 ^ 28 == 0 &&
  decide (fieldLE d 52 4 ≤ 1048576) && fieldLE d 56 8 % 8 == 0 && zerosAt d 64 64

/-- Ask for the shard of a load (R162). -/
def State.readShard (p src i : Nat) (s : State) : State :=
  match (s.part p).load.bind (·.shardEntry i) with
  | some e => (s.endReads p (· == .shard i)).askBytes p (.shard i) 0 src e.offset e.length
  | none => s

/-- Start the load that the descriptor at WLD_LOAD_PTR describes. The kind comes first; a descriptor or source record that
R15 rejects, or that is not in the partition's memory or comes with poison, fails with FORMAT (R157; DEDUCED, log entry 37; DESIGN CHOICE, log entry 140). -/
def State.beginLoad (p : Nat) (s : State) : State :=
  let a := s.rd R.WLD.LOAD_PTR p
  let s := (s.onPart p (fun q => { q with loadWait := false })).touchOf p a 128
  let d := s.mrd a 128
  let srcs := (List.range (min 2 (byteAt d 2))).map (fun i => fieldLE d (32 + 8 * i) 8)
  if !s.inPart p a 128 || s.mbad a 128 then s.loadFail p lsFormat none
  else if (byteAt d 1 == 0 && (s.hasModel p || s.formsSteps p)) || (byteAt d 1 == 1 && !s.hasModel p) then
    s.loadFail p lsWrongState none
  else
  let s := s.each srcs (fun x s => s.touchOf p x 288)
  if !loadDescOk d || srcs.any (fun x => !s.inPart p x 288 || s.mbad x 288 || !sourceOk (s.mrd x 288)) then
    s.loadFail p lsFormat none
  else
    let st := fieldLE d 16 8
    let n := fieldLE d 24 8
    if !s.inPart p st (n + n / 1024) then s.loadFail p lsNoFit none
    else if (s.loadPorts p).isEmpty then s.loadFail p lsUnreachable none
    else
      let f : FetchInfo := { sources := srcs.map (fun x => SourceRec.ofBytes (s.mrd x 288)), keyHandle := fieldLE d 48 4, shardTmo := fieldLE d 4 4 }
      let l : Load := { mode := byteAt d 0, kind := byteAt d 1, stageAddr := st, stageBytes := n, faultAddr := fieldLE d 56 8
                        faultCap := fieldLE d 52 4, manifestOff := fieldLE d 8 8, fetch := f, started := s.clk.devTime }
      let s := s.onPart p (fun q => { q with load := some l })
      -- the manifest's header comes first; it gives the length of the rest (log entry 117)
      (s.each (List.range srcs.length) (fun x s => s.openSource p 0 x)).askBytes p .manifest 0 0 l.manifestOff 128

/-- WLD_LOAD_CTL.START (R157): refused while a load runs; the checks wait while a range of the partition clears (R487). -/
def State.actLoadStart (p : Nat) (s : State) : State :=
  if s.loading p then s.raise R.WLD.EVT_LOAD_REFUSED p
  else
    let s := ((s.wr R.WLD.LOAD_STAT_STATUS p lsRunning).wr R.WLD.STAT_LOADING p 1).wr R.WLD.SHARDS_DONE p 0
    let s := ((s.wr R.WLD.SHARDS_TOTAL p 0).wr R.WLD.FAIL_SHARD p 0xFFFFFFFF).wr R.WLD.CARRIED_TIERS p 0
    let s := s.wr R.WLD.SKIPPED_SHARDS p 0
    if s.clears p then s.onPart p (fun q => { q with loadWait := true }) else s.beginLoad p

/-- LOAD_START. -/
def execLoadStart (part : Fin 12) (s : State) : Host.Outcome State Fault Refusal := .next (s.ofPart part.val (State.actLoadStart part.val))

/-- CLEAR_DONE (R275): the range is zero; a load that waited for it begins its checks (R487). The clear goes on only while MEM EN is 1 and
the active frame gives the partition write slots (R482). -/
def execClearDone (hub : Fin 4) (part : Fin 12) (s : State) : Host.Outcome State Fault Refusal :=
  let p := part.val
  if !(s.hub hub.val).clearing.contains p || !s.en .mem hub.val || !s.writeSlots hub.val p then .next s
  else
    let s := s.clearDone hub.val p
    .next (s.whenB ((s.part p).loadWait && !s.clears p) (fun s => s.beginLoad p))

/-- WLD_LOAD_CTL.ABORT (R173). -/
def State.actLoadAbort (p : Nat) (s : State) : State := s.whenB (s.loading p) (fun s => s.loadFail p lsAborted none)

/-- LOAD_ABORT. -/
def execLoadAbort (part : Fin 12) (s : State) : Host.Outcome State Fault Refusal := .next (s.ofPart part.val (State.actLoadAbort part.val))

/-- Has SHARD_TMO, in ms of device time, passed since a moment (R9, R157). -/
def State.tmoOver (s : State) (f : FetchInfo) (since : Nat) : Bool := s.passed since (1000000 * f.shardTmo)

/-- CONNECT_TIMEOUT: no source completed Connect within SHARD_TMO (R158). -/
def execConnectTimeout (part : Fin 12) (s : State) : Host.Outcome State Fault Refusal :=
  match (s.part part.val).load with
  | some l => .next (s.whenB (!l.manifestOk && s.tmoOver l.fetch l.started) (fun s => s.loadFail part.val lsUnreachable none))
  | none => .next s

/-! ### Manifests (R151, R152) -/

/-- A manifest's header fields, shard entries and block records. -/
structure Manifest where
  delta : Bool
  encrypted : Bool
  image : List Byte
  base : List Byte
  keyId : List Byte
  shards : List ShardEntry
  blocks : List Blk

/-- A shard entry. -/
def ShardEntry.ofBytes (b : List Byte) : ShardEntry :=
  { length := fieldLE b 0 4, offset := fieldLE b 8 8, digest := (b.drop 16).take 64, nonce := (b.drop 80).take 12 }

/-- Does a shard entry hold only values of R151. -/
def shardEntryOk (enc : Bool) (b : List Byte) : Bool :=
  decide (1 ≤ fieldLE b 0 4) && decide (fieldLE b 0 4 ≤ 268435456 + (if enc then 16 else 0)) && zerosAt b 4 4 &&
  fieldLE b 8 8 % 4096 == 0 && (enc || zerosAt b 80 12) && zerosAt b 92 4

/-- A block record. -/
def Blk.ofBytes (b : List Byte) : Blk :=
  { layer := fieldLE b 0 2, expert := fieldLE b 2 2, matrix := byteAt b 4, kind := byteAt b 5, bfmt := byteAt b 6, rowblk := fieldLE b 8 2
    colblk := fieldLE b 10 2, shard := fieldLE b 12 4, offset := fieldLE b 16 4, length := fieldLE b 20 4 }

/-- Bytes 0 to 15 of a block's record. -/
def Blk.head (b : Blk) : List Byte :=
  leBytes 2 b.layer ++ leBytes 2 b.expert ++ leBytes 1 b.matrix ++ leBytes 1 b.kind ++ leBytes 1 b.bfmt ++ leBytes 1 0 ++
    leBytes 2 b.rowblk ++ leBytes 2 b.colblk ++ leBytes 4 b.shard

/-- Bytes that a shard holds when decrypted. -/
def plainLen (enc : Bool) (e : ShardEntry) : Nat := if enc then e.length - 16 else e.length

/-- Does a block record hold only values of R151, with a length that fits its kind, and lie in its shard. -/
def blkOk (enc : Bool) (shards : List ShardEntry) (b : List Byte) : Bool :=
  let k := Blk.ofBytes b
  byteAt b 7 == 0 && zerosAt b 24 8 && k.layer != 0xFFFE && decide (k.kind ≤ 6) && k.offset % 64 == 0 &&
  (if k.kind = 0 then decide (k.bfmt ≤ 3) else if k.kind = 5 ∨ k.kind = 6 then decide (k.bfmt ≤ 9) else k.bfmt == 0) &&
  (match k.kind with
   | 0 => k.length == 2097152
   | 1 => k.length == 2048
   | 2 => k.length % 2 == 0
   | 3 => k.length % 2048 == 0
   | 4 => decide (16 ≤ k.length) && k.length % 4 == 0 && decide ((k.length - 16) / 4 ≤ 4194)
   | _ => true) &&
  (match shards[k.shard]? with | some e => decide (k.offset + k.length ≤ plainLen enc e) | none => false)

/-- Bytes of a manifest, signature included, as its header says (R151). -/
def manifestLen (m : List Byte) : Nat := fieldLE m 24 8

/-- Does a manifest's header hold only values of R151, and the length of its tables. -/
def manifestHeadOk (m : List Byte) : Bool :=
  let sc := fieldLE m 12 4
  let bc := fieldLE m 16 4
  m.take 8 == ascii "BXDRMNF1" && fieldLE m 8 2 == 1 && decide (byteAt m 10 ≤ 1) && decide (byteAt m 11 ≤ 3) && decide (1 ≤ sc) &&
    decide (sc ≤ 262144) && decide (1 ≤ bc) && decide (1 ≤ fieldLE m 20 4) && decide (fieldLE m 20 4 ≤ 65534) &&
    manifestLen m == 128 + 96 * sc + 32 * bc + 114 && zerosAt m 120 8 && (byteAt m 10 == 1 || zerosAt m 64 32)

/-- Read a manifest; none where R151, R152 or R105 fails it. -/
def parseManifest (m : List Byte) : Option Manifest :=
  let sc := fieldLE m 12 4
  let bc := fieldLE m 16 4
  let enc := (byteAt m 11).testBit 0
  if manifestHeadOk m && m.length == manifestLen m then
    let se := records 96 sc (m.drop 128)
    let shards := se.map ShardEntry.ofBytes
    let bs := records 32 bc (m.drop (128 + 96 * sc))
    let blocks := bs.map Blk.ofBytes
    let sparse := (blocks.filter (fun b => b.kind == 4)).foldl (fun a b => a + (b.length - 16) / 4) 0
    let levels := (blocks.filter (fun b => b.kind == 0)).length
    if se.all (shardEntryOk enc) && bs.all (blkOk enc shards) && !(enc && hasDup (shards.map (fun e => leNat e.nonce))) &&
       decide (1000 * sparse ≤ 4194304 * levels) then
      some { delta := byteAt m 10 == 1, encrypted := enc, image := (m.drop 32).take 32, base := (m.drop 64).take 32
             keyId := (m.drop 96).take 16, shards := shards, blocks := blocks }
    else none
  else none

/-- The publisher key with a KEY_ID (R153). -/
def State.pubKey (s : State) (id : List Byte) : Option (List Byte) := s.nv.pubKeys.find? (fun k => shake256 k 16 == id)

/-! ### Placement (R167, R168, R484) -/

/-- A placement entry. -/
def PlEntry.ofBytes (b : List Byte) : PlEntry :=
  { layer := fieldLE b 0 2, expert := fieldLE b 2 2, matrix := byteAt b 4, flags := byteAt b 5, rowblk := fieldLE b 6 2, colblk := fieldLE b 8 2
    stack := byteAt b 10, tier := byteAt b 11, array := fieldLE b 12 2 }

/-- Does an entry hold only values of R167. -/
def PlEntry.ok (e : PlEntry) (b : List Byte) : Bool :=
  decide (e.flags ≤ 3) && decide (e.stack < 12) && decide (e.tier < 16) && decide (e.array ≤ 38911) && zerosAt b 14 2

/-- Is a list strictly rising. -/
def strictlyRising : List Nat → Bool
  | a :: b :: t => decide (a < b) && strictlyRising (b :: t)
  | _ => true

/-- The place of an entry's array-tier. -/
def PlEntry.place (e : PlEntry) : Nat := (e.stack * 65536 + e.array) * 16 + e.tier
/-- The footprint of an entry's array-tier. -/
def PlEntry.foot (e : PlEntry) : Nat := e.stack * 65536 + e.array

/-- Do the LEVELS blocks of each chain lie in one tile, at most 512 of them (R168). -/
def chainsOk (l : List PlEntry) : Bool :=
  l.all (fun e =>
    let mates := l.filter (fun x => x.layer == e.layer && x.expert == e.expert && x.matrix == e.matrix && x.colblk == e.colblk)
    decide (mates.length ≤ 512) && mates.all (fun x => x.stack == e.stack && homeTile x.array == homeTile e.array))

/-- Footprints that hold LEVELS blocks of one layer on more than one tier (R169). -/
def collisions (l : List PlEntry) : Nat :=
  let feet := (l.map PlEntry.foot).eraseDups
  (feet.filter (fun f => let m := l.filter (fun e => e.foot == f); hasDup (m.map (·.layer)))).length

/-- Is an entry of a REPLACE load carried over (R168): identical to an active one, with the same image, or in a delta that
lacks the block. -/
def carriedOver (m : Manifest) (old : Placement) (e : PlEntry) : Bool :=
  old.entries.contains e && (m.image == old.image || (m.delta && !m.blocks.any (fun b => b.coord == e.coord && (b.kind == 0 || b.kind == 5))))

/-- Blocks of the new model: those of carried-over entries as they lie in the active model, and those of the manifest. A
delta also keeps the blocks of its base that belong to no entry and that it lacks (DEDUCED, log entry 38). -/
def newBlocks (m : Manifest) (old : Option Placement) (carry : List PlEntry) : List Blk :=
  match old with
  | none => m.blocks
  | some o =>
    let isCarried (b : Blk) : Bool := b.kind != 2 && b.kind != 6 && carry.any (fun e => e.coord == b.coord)
    let kept := o.blocks.filter (fun b => isCarried b ||
      (m.delta && (b.kind == 2 || b.kind == 6) && !m.blocks.any (fun x => x.kind == b.kind && x.coord == b.coord)))
    kept.map (fun b => { b with img := b.img + 1, carried := true }) ++ m.blocks.filter (fun b => !isCarried b)

/-- The hub region that takes a block: that of its entry's stack. The spec names none for blocks without an entry: they go
to the region of the first entry of their matrix, else to the first region that has a size (DESIGN CHOICE, log entry 39). -/
def hubForBlk (entries : List PlEntry) (regions : List (Nat × Nat)) (b : Blk) : Nat :=
  match entries.find? (fun e => e.coord == b.coord) with
  | some e => hubOfStack e.stack
  | none =>
    match entries.find? (fun e => e.layer == b.layer && e.expert == b.expert && e.matrix == b.matrix) with
    | some e => hubOfStack e.stack
    | none => (regions.findIdx? (fun r => r.2 != 0)).getD 0

/-- Bytes of a region that a block takes: its own and its check values, in whole bursts. -/
def Blk.need (b : Blk) : Nat := 64 * cdiv (b.length + (b.corrBytes - b.length)) 64

/-- Lay blocks out in the hub regions in their order. The spec leaves the places in a region to the loader: each block is
preceded by a free gap of bursts that still leaves room for those after it (log entry 39). -/
def layOut (entries : List PlEntry) (regions : List (Nat × Nat)) (f : Nat → Nat) : Nat → List (Nat × Nat) → List Blk → List Blk
  | _, _, [] => []
  | i, used, b :: t =>
    if b.kind = 0 || b.carried then b :: layOut entries regions f (i + 1) used t
    else
      let h := hubForBlk entries regions b
      let r := regions.getD h (0, 0)
      let u := used.getD h (0, 0)
      let gap := 64 * (f i % ((r.2 - u.1 - u.2) / 64 + 1))
      let at_ := u.1 + gap
      let used' := (List.range 4).map (fun j => if j = h then (at_ + b.need, u.2 - b.need) else used.getD j (0, 0))
      { b with addr := r.1 + at_ } :: layOut entries regions f (i + 1) used' t

/-- Bytes that the new blocks take in a hub's region. -/
def regionNeed (entries : List PlEntry) (regions : List (Nat × Nat)) (blocks : List Blk) (h : Nat) : Nat :=
  ((blocks.filter (fun b => b.kind != 0 && !b.carried && hubForBlk entries regions b == h))).foldl (fun a b => a + b.need) 0

/-- What the checks of a manifest and a placement find: a failure status, a status after the placement has passed with the footprints
counted under R169, or the placement with what is carried. -/
inductive PlanRes
  | bad (code : Nat)
  | late (code collide : Nat)
  | ok (pl : Placement) (levels : AMap Nat) (carried : Nat) (skipped : List Nat)

/-- Address of the inactive placement pointer (R167). -/
def State.loadPlace (s : State) (p : Nat) : Nat :=
  if (s.part p).actBuf = 0 then s.rd R.WLD.PLACE_B p else s.rd R.WLD.PLACE_A p

/-- Residency record that a block receives (R483). -/
def residencyOf (image : List Byte) (b : Blk) (tag : Nat) : Residency :=
  { id := leNat (shake256 (image ++ b.head) 8), tag := tag }

/-- Is the LEVELS block of an entry carried in a COLD load (R484). -/
def State.carries (s : State) (p : Nat) (m : Manifest) (e : PlEntry) : Bool :=
  match m.blocks.find? (fun b => b.kind == 0 && b.coord == e.coord) with
  | none => false
  | some b =>
    let key := nvKey e.stack ((s.stk e.stack).physOf e.array) e.tier
    !e.digital && AMap.get? s.nv.residency key == some (residencyOf m.image b (s.part p).tag) && s.refMarked key

/-- The checks of R168 on entries and header that give PLACE_BAD. -/
def State.placeBad (s : State) (p : Nat) (l : Load) (m : Manifest) (hdr : List Byte) (recs : List (List Byte)) (es : List PlEntry)
    (regions : List (Nat × Nat)) (blocks : List Blk) (toProgram : List PlEntry) : Bool :=
  let old : Option Placement := if l.kind = 1 then (s.part p).active else none
  let arr := es.filter (fun e => !e.digital)
  let has (k : Nat) (e : PlEntry) : Bool := blocks.any (fun b => b.kind == k && b.coord == e.coord)
  let live := regions.filter (fun r => r.2 != 0)
  let others : List (Nat × Nat) := match old with | some o => o.regions.filter (fun (r : Nat × Nat) => r.2 != 0) | none => []
  let clash (a b : Nat × Nat) : Bool := decide (a.1 < b.1 + b.2) && decide (b.1 < a.1 + a.2)
  !((recs.zip es).all (fun x => x.2.ok x.1)) || !strictlyRising (es.map PlEntry.coord) ||
  !blocks.all (fun b => b.kind != 0 || es.any (fun e => e.coord == b.coord)) ||
  es.any (fun e => if e.digital then !has 0 e && !has 5 e else !has 0 e) ||
  es.any (fun e => e.flags != 0 && !has 5 e) ||
  hasDup (arr.map PlEntry.place) || es.any (fun e => !s.owns p e.stack) || !chainsOk arr ||
  !zerosAt hdr 56 8 || (hdr.drop 16).take 32 != m.image ||
  (match (s.part p).active with | some a => decide (fieldLE hdr 8 8 ≤ a.generation) | none => false) ||
  live.any (fun (r : Nat × Nat) => !s.inPart p r.1 r.2) ||
  (List.range live.length).any (fun i => (List.range i).any (fun j => clash (live.getD i (0, 0)) (live.getD j (0, 0)))) ||
  live.any (fun r => others.any (clash r)) ||
  (match old with
   | some o => toProgram.any (fun e => o.entries.any (fun x => !x.digital && x.foot == e.foot))
   | none => false)

/-- Steps 3 to 5 of R158: base and key, placement, wear, budget. A placement table outside the partition's memory, or that comes with poison, is
PLACE_BAD, and a cold load's budget judges the new model alone (R122, R168; DEDUCED, log entry 138; DESIGN CHOICE, log entry 140). -/
def State.plan (s : State) (p : Nat) (l : Load) (m : Manifest) : PlanRes :=
  let q := s.part p
  let old : Option Placement := if l.kind = 1 then q.active else none
  let a := s.loadPlace p
  let hdr := s.mrd a 128
  let n := fieldLE hdr 0 8
  if m.delta && (match q.active with | some o => o.image != m.base | none => true) then .bad lsBaseMismatch
  else if m.encrypted && (AMap.get? q.imgKeys l.fetch.keyHandle).isNone then .bad lsKeyMissing
  else if !s.inPart p a 128 || s.mbad a 128 || decide (2 ^ 40 ≤ n) || !s.inPart p a (128 + 16 * n) || s.mbad a (128 + 16 * n) then
    .bad lsPlaceBad
  else
    let recs := records 16 n (s.mrd (a + 128) (16 * n))
    let es := recs.map PlEntry.ofBytes
    let regions := (List.range 4).map (fun h => (fieldLE hdr (64 + 16 * h) 8, fieldLE hdr (72 + 16 * h) 8))
    let carry := match old with | some o => es.filter (carriedOver m o) | none => []
    let blocks := newBlocks m old carry
    let cold := if l.kind = 0 then es.filter (s.carries p m) else []
    let toProgram := es.filter (fun e => !e.digital && !carry.contains e && !cold.contains e)
    if s.placeBad p l m hdr recs es regions blocks toProgram then .bad lsPlaceBad
    else if (List.range 4).any (fun h => decide ((regions.getD h (0, 0)).2 < regionNeed es regions blocks h)) ||
            (l.mode == 0 && es.any PlEntry.digital) then .bad lsNoFit
    else if toProgram.any (fun e => s.worn e.stack ((s.stk e.stack).physOf e.array) e.tier) then
      .late lsWear (collisions (es.filter (fun e => !e.digital)))
    else
      let used0 := (List.range 4).map (fun h => (0, regionNeed es regions blocks h))
      let placed := layOut es regions (fun i => Config.freeNat (s.free + i)) 0 used0 blocks
      let placed := placed.map (fun b => if b.kind = 0 && cold.any (fun e => e.coord == b.coord) then { b with carried := true } else b)
      let others := if l.kind = 1 then s.residentBlks.filter (fun b => !placed.any (fun x => x.carried && x.addr == b.addr)) else []
      let sum (bs : List Blk) (h : Nat) : Nat := (bs.filter (fun b => hubOfAddr b.addr == h)).foldl (fun t b => t + b.corrBytes) 0
      let corr := (placed ++ others).filter (fun b => b.corrBytes != 0)
      let perHub := (List.range 4).map (sum corr)
      if perHub.any (fun x => decide (96 * 2 ^ 30 < x)) || decide (384 * 2 ^ 30 < perHub.foldl (fun (a b : Nat) => a + b) (0 : Nat)) then
        .late lsBudget (collisions (es.filter (fun e => !e.digital)))
      else
        let pl : Placement := { generation := fieldLE hdr 8 8, image := m.image, setAddr := fieldLE hdr 48 8, regions := regions, entries := es
                                blocks := placed, fetch := l.fetch, bytes := s.mrd a (128 + 16 * n)
                                images := { image := m.image, encrypted := m.encrypted, shards := m.shards } ::
                                  (match old with | some o => o.images | none => []) }
        let levels := ((List.range es.length).zip es).foldl (fun acc x => if toProgram.contains x.2 then acc else AMap.set acc x.1 3) []
        let skip := (List.range m.shards.length).filter (fun i =>
          let bs := m.blocks.filter (fun b => b.shard == i)
          let gone (b : Blk) : Bool := placed.any (fun x => x.carried && x.kind == b.kind && x.coord == b.coord)
          !bs.isEmpty && bs.all gone)
        .ok pl levels cold.length skip

/-! ### Fetch (R160 to R162) -/

/-- Places of the staging area. -/
def Load.places (l : Load) : Nat := l.stageBytes / 2 ^ 28
/-- Address of a place of the staging area. -/
def Load.stageAt (l : Load) (slot : Nat) : Nat := l.stageAddr + 2 ^ 28 * slot
/-- Check array of the staging area (R287). -/
def Load.checkAt (l : Load) (slot : Nat) : Nat := l.stageAddr + l.stageBytes + 4 * (65536 * slot)

/-- Request shards in ascending order while staging has room: shard i from source i mod SOURCES. Which free place a shard
takes is the model's choice (log entry 40). SHARD_TMO of a shard starts with this request (R161; DEDUCED for one that had left staging, log entry
141). -/
def Load.request (l : Load) (now : Nat) : Nat → Load
  | 0 => l
  | fuel + 1 =>
    match l.todo with
    | [] => l
    | i :: t =>
      match (List.range l.places).find? (fun x => !l.shards.any (fun e => e.2.slot == x)) with
      | none => l
      | some x =>
        let n := AMap.getD l.again i 1
        let st : ShardSt := { source := (i + n - 1) % max 1 l.fetch.sources.length, attempts := n, since := now, slot := x }
        Load.request { l with todo := t, shards := AMap.set l.shards i st } now fuel

/-- Request what fits. -/
def State.requestShards (p : Nat) (s : State) : State :=
  match (s.part p).load with
  | none => s
  | some l =>
    let l' := l.request s.clk.devTime l.places
    let s := s.onLoad p (fun _ => l')
    s.each (l'.shards.filter (fun e => l.todo.contains e.1 && !l'.todo.contains e.1)) (fun e s => s.readShard p e.2.source e.1)

/-- Entries of a placement, by index, whose LEVELS block lies in a shard of the image being loaded. -/
def Placement.entriesIn (pl : Placement) (i : Nat) : List Nat :=
  (List.range pl.entries.length).filter (fun j => match pl.entries[j]? with
    | some e => pl.blocks.any (fun b => b.kind == 0 && b.img == 0 && b.shard == i && b.coord == e.coord)
    | none => false)

/-- The copy of an accepted shard is discarded: entries that are not programmed yet wait for it again (R160). -/
def State.discardShard (p i : Nat) (s : State) : State :=
  (s.wr R.WLD.SHARDS_DONE p (s.rd R.WLD.SHARDS_DONE p - 1)).onLoad p (fun l => { l with
    levels := (l.placement.entriesIn i).foldl (fun m j => if AMap.getD m j 0 = 1 then AMap.erase m j else m) l.levels })

/-- A failed digest attempt (R160): the copy is discarded and the shard fetched again from the other source, at most 3 times; one that
has left staging takes its turn again among the shards to request. A shard that has not been requested has no attempt. -/
def State.badAttempt (p i : Nat) (s : State) : State :=
  match (s.part p).load with
  | none => s
  | some l =>
    match AMap.get? l.shards i with
    | some st =>
      if 4 ≤ st.attempts then s.loadFail p lsDigestBad (some i)
      else
        let st' : ShardSt := { st with attempts := st.attempts + 1, source := (st.source + 1) % max 1 l.fetch.sources.length, accepted := false }
        let s := (s.whenB st.accepted (fun s => s.discardShard p i)).onLoad p (fun l => { l with shards := AMap.set l.shards i st' })
        (s.count R.WLDG.REFETCH_CNT 0).readShard p st'.source i
    | none =>
      match AMap.get? l.again i with
      | none => s
      | some n =>
        if l.todo.contains i then s
        else if 4 ≤ n then s.loadFail p lsDigestBad (some i)
        else
          let s := (s.discardShard p i).onLoad p (fun l => { l with
            again := AMap.set l.again i (n + 1), todo := sortBy (fun a b => decide (a ≤ b)) (i :: l.todo) })
          (s.count R.WLDG.REFETCH_CNT 0).requestShards p

/-- Blocks that a load has placed and that are found bad before it is done (R173). -/
def State.newBad (s : State) (l : Load) : List Blk :=
  l.placement.blocks.filter (fun b => b.kind != 0 && b.img == 0 && b.resident && !b.carried && s.blkBad b)

/-- A load with nothing left to fetch or program is DONE (R158); shards of blocks that are found bad in their places are fetched again
first (R160, R173). -/
def State.tryDone (p : Nat) (s : State) : State :=
  match (s.part p).load with
  | none => s
  | some l =>
    let done := (List.range l.placement.entries.length).all (fun i => AMap.getD l.levels i 0 == 3)
    if l.manifestOk && l.todo.isEmpty && l.shards.isEmpty && done then
      match (s.newBad l).map (·.shard) with
      | [] =>
        let s := (s.onPart p (fun q => { q with load := none, loaded := some l.placement })).closeLoad p
        ((s.wr R.WLD.LOAD_STAT_STATUS p lsDone).wr R.WLD.STAT_LOADING p 0).raise R.WLD.EVT_LOAD_DONE p
      | bad => s.each bad.eraseDups (fun i s => s.badAttempt p i)
    else s

/-- The rest of a manifest is read once its 128-byte header, which gives its length, is there, unless it is on its way (R159; DESIGN CHOICE,
log entry 117). -/
def State.askManifest (p : Nat) (l : Load) (head : List Byte) (s : State) : State :=
  if (s.part p).reads.any (fun r => r.what == .manifest && r.index != 0) then s
  else (s.endReads p (· == .manifest)).askBytes p .manifest 1 0 (l.manifestOff + 128) (manifestLen head - 128)

/-- A fetched manifest is checked, and the fetch begins (R158). Of the header alone the length is checked, and the rest is read. -/
def State.manifestCheck (p : Nat) (m : List Byte) (s : State) : State :=
  match (s.part p).load with
  | none => s
  | some l =>
    if l.manifestOk then s
    else if !manifestHeadOk m then s.loadFail p lsFormat none
    else
      let s := s.askManifest p l m
      if m.length = 128 then s
      else
      let s := s.endReads p (· == .manifest)
      match parseManifest m with
      | none => s.loadFail p lsFormat none
      | some x =>
        let s := s.wr R.WLD.SHARDS_TOTAL p x.shards.length
        match s.pubKey x.keyId with
        | none => s.loadFail p lsKeyUnknown none
        | some key =>
          if !Config.ed448Verify key (m.take (m.length - 114)) (m.drop (m.length - 114)) then s.loadFail p lsSigBad none
          else
            let s := s.touchOf p (s.loadPlace p) (128 + 16 * (s.mval (s.loadPlace p) 8 % 2 ^ 40))
            match s.plan p l x with
            | .bad code => s.loadFail p code none
            | .late code collide =>
              let s := s.wr R.WLD.PLACE_COLLIDE p collide
              (s.whenB (code == lsBudget) (fun s => s.each (s.hubsOf p) (fun h s => s.raise R.DCP.EVT_BUDGET_REFUSED h))).loadFail p code none
            | .ok pl levels carried skipped =>
              let s := { s with free := s.free + pl.blocks.length }
              let s := s.onLoad p (fun l => { l with
                manifestOk := true, keyId := x.keyId, placement := pl, levels := levels
                todo := (List.range x.shards.length).filter (fun i => !skipped.contains i) })
              let s := s.wr R.WLD.SHARDS_DONE p skipped.length
              let s := (s.wr R.WLD.CARRIED_TIERS p carried).wr R.WLD.SKIPPED_SHARDS p (if l.kind = 0 then skipped.length else 0)
              let s := s.wr R.WLD.PLACE_COLLIDE p (collisions (pl.entries.filter (fun e => !e.digital)))
              ((s.requestShards p).setCorrBytes).tryDone p

/-- MANIFEST_CHECK. -/
def execManifestCheck (part : Fin 12) (manifest : List Byte) (s : State) : Host.Outcome State Fault Refusal :=
  .next (s.manifestCheck part.val manifest)

/-- Is a LEVELS block in the range of its WMODE (R152). -/
def levelsOk (wmode : Nat) (vals : List Byte) : Bool :=
  vals.all (fun b => valueOk wmode (sx (b.toNat % 16) 4) && valueOk wmode (sx (b.toNat / 16) 4))

/-- Do declared outlier indices ascend, at most 16 in any aligned 2,048 rows (R98, R151). -/
def outlierIdxOk (l : List Nat) : Bool :=
  strictlyRising l && l.all (fun x => decide ((l.filter (fun y => y / 2048 == x / 2048)).length ≤ 16))

/-- Does a sparse list stay off the declared outlier rows (R101). -/
def sparseOk (rowblk : Nat) (outl : List Nat) (list : List Byte) : Bool :=
  (leWords 4 ((list.length - 16) / 4) (list.drop 16)).all (fun e => !outl.contains (2048 * rowblk + bits e 0 11))

/-- Resident blocks that the check of a block's rules reads: column scales of the same columns, the sparse lists that belong to an outlier
index block, and the outlier indices that belong to a sparse list (R71, R101). -/
def besides (all : List Blk) (b : Blk) : List Blk :=
  let there (k : Nat) : List Blk :=
    all.filter (fun x => x.kind == k && x.resident && x.layer == b.layer && x.expert == b.expert && x.matrix == b.matrix && x.addr != b.addr)
  match b.kind with
  | 1 => (there 1).filter (fun x => x.colblk == b.colblk)
  | 2 => there 4
  | 4 => there 2
  | _ => []

/-- Does a block of a shard break an image rule: R15 with R70 (a column scale 0xFF), R71, R98, R101 or R152. Other blocks are read
where they are resident and good. -/
def State.blkRefused (s : State) (all : List Blk) (b : Blk) (bytes : List Byte) : Bool :=
  let good := (besides all b).filter (fun x => !s.blkBad x)
  match b.kind with
  | 0 => !levelsOk b.bfmt bytes
  | 1 => bytes.contains 0xFF || good.any (fun x => s.mrd x.addr 2048 != bytes)
  | 2 =>
    let idx := leWords 2 (bytes.length / 2) bytes
    !outlierIdxOk idx || good.any (fun x => !sparseOk x.rowblk idx (s.mrd x.addr x.length))
  | 4 => good.any (fun x => !sparseOk b.rowblk (leWords 2 (x.length / 2) (s.mrd x.addr x.length)) bytes)
  | _ => false

/-- Put a block of an accepted shard in its place, unless it is refused: (refused, state). -/
def State.placeBlk (p : Nat) (plain : List Byte) (b : Blk) (acc : Bool × State) : Bool × State :=
  let (bad, s) := acc
  if bad then acc
  else
    let bytes := (plain.drop b.offset).take b.length
    let all := match (s.part p).load with | some l => l.placement.blocks | none => []
    let s := s.each (besides all b) (fun x s => s.touchBlk x)
    if s.blkRefused all b bytes then (true, s)
    else if b.kind = 0 then (false, s)
    else
      let b' := { b with resident := true }
      let s := s.putBlk b bytes
      (false, s.onLoad p (fun l => { l with placement := { l.placement with blocks := l.placement.blocks.map (fun x => if x = b then b' else x) } }))

/-- Write a decrypted shard with its check values into its staging place (R162, R287). The last 4 KiB block and the last burst of the
check array are filled with zeros (DESIGN CHOICE, log entry 118). -/
def State.stage (l : Load) (slot : Nat) (plain : List Byte) (s : State) : State :=
  let n := cdiv plain.length 4096
  let vals := (crcPieces plain).flatMap (leBytes 4)
  (s.mwr (l.stageAt slot) (padTo (4096 * n) plain)).mwr (l.checkAt slot) (padTo (64 * cdiv (4 * n) 64) vals)

/-- 4 KiB pieces of a staging place that a block touches: first and how many. -/
def stagedPieces (off len : Nat) : Nat × Nat := (off / 4096, cdiv (off % 4096 + len) 4096)

/-- The programmer reads a staged block with the pieces around it and their check values: the controllers decode the bursts (R284, R285,
R288). -/
def State.touchStaged (l : Load) (slot off len : Nat) (s : State) : State :=
  let (i, n) := stagedPieces off len
  (s.touch (l.stageAt slot + 4096 * i) (4096 * n)).touch (l.checkAt slot + 4 * i) (4 * n)

/-- Is a staged block delivered with poison, or does a 4 KiB piece that it touches fail its check value (R287, R288). -/
def State.stagedBad (s : State) (l : Load) (slot off len : Nat) : Bool :=
  s.mbad (l.stageAt slot + off) len ||
  ((List.range (stagedPieces off len).2).map (· + (stagedPieces off len).1)).any (fun i =>
    s.mbad (l.checkAt slot + 4 * i) 4 || s.mval (l.checkAt slot + 4 * i) 4 != crc32c (s.mrd (l.stageAt slot + 4096 * i) 4096))

/-- A shard whose LEVELS blocks are all programmed leaves staging. -/
def State.releaseShard (p i : Nat) (s : State) : State :=
  s.onLoad p (fun l =>
    match AMap.get? l.shards i with
    | some st => if st.accepted && (l.placement.entriesIn i).all (fun j => AMap.getD l.levels j 0 == 3) then
        { l with shards := AMap.erase l.shards i, again := AMap.set l.again i st.attempts } else l
    | none => l)

/-- Open a stored shard under its image key (R155); none on a tag failure. -/
def openShard (key image : List Byte) (i : Nat) (e : ShardEntry) (stored : List Byte) : Option (List Byte) :=
  Config.gcmOpen key e.nonce (leBytes 4 i ++ image) stored

/-- Take a shard whose digest is right. -/
def State.takeShard (p i slot : Nat) (plain : List Byte) (s : State) : State :=
  match (s.part p).load with
  | none => s
  | some l =>
    let s := s.stage l slot plain
    let mine := l.placement.blocks.filter (fun b => b.img == 0 && b.shard == i && !b.carried)
    let r := mine.foldl (fun acc b => State.placeBlk p plain b acc) (false, s)
    -- the copies are checked on the way (R288)
    if mine.any (fun b => s.stagedBad l slot b.offset b.length) then s.badAttempt p i
    else if r.1 then r.2.loadFail p lsFormat (some i)
    else
      let s := r.2.onLoad p (fun l => { l with
        shards := AMap.modify l.shards i { source := 0, slot := slot } (fun st => { st with accepted := true })
        levels := (l.placement.entriesIn i).foldl (fun m j => if AMap.getD m j 0 = 0 then AMap.set m j 1 else m) l.levels })
      let s := s.count R.WLD.SHARDS_DONE p
      (((s.releaseShard p i).requestShards p).setCorrBytes).tryDone p

/-- SHARD_ACCEPTED: the digest of a fetched shard is checked; it is decrypted and its blocks go to their places. A key that has been
erased since the load began fails it with AUTH_FAIL (R155, R435). -/
def execShardAccepted (part : Fin 12) (shard : Nat) (stored : List Byte) (s : State) : Host.Outcome State Fault Refusal :=
  let p := part.val
  match (s.part p).load with
  | none => .next s
  | some l =>
    match AMap.get? l.shards shard, l.placement.images with
    | some st, img :: _ =>
      if st.accepted then .next s
      else
        let s := (s.bump R.WLDG.FETCH_BYTES 0 stored.length).endReads p (· == .shard shard)
        match img.shards[shard]? with
        | none => .next s
        | some e =>
          if stored.length ≠ e.length || shake256 stored 64 != e.digest then .next (s.badAttempt p shard)
          else if img.encrypted then
            match AMap.get? (s.part p).imgKeys l.fetch.keyHandle with
            | none => .next (s.loadFail p lsAuthFail (some shard))
            | some key =>
              match openShard key img.image shard e stored with
              | none => .next (s.loadFail p lsAuthFail (some shard))
              | some plain => .next (s.takeShard p shard st.slot plain)
          else .next (s.takeShard p shard st.slot stored)
    | _, _ => .next s

/-- SHARD_TIMEOUT: SHARD_TMO has passed since the shard's first request (R161). -/
def execShardTimeout (part : Fin 12) (shard : Nat) (s : State) : Host.Outcome State Fault Refusal :=
  match (s.part part.val).load with
  | some l =>
    match AMap.get? l.shards shard with
    | some st => .next (s.whenB (!st.accepted && s.tmoOver l.fetch st.since) (fun s => s.loadFail part.val lsShardMissing (some shard)))
    | none => .next s
  | none => .next s

/-! ### Programming (R163 to R166, R483) -/

/-- Programming of an array-tier begins on its stack. -/
def State.startProgram (k phys tier : Nat) (s : State) : State :=
  ((s.wearOut k phys tier).onStk k (fun u => { u with programming := AMap.set u.programming (tierKey phys tier) 1 })).setProgramming

/-- First physical column of the reference, checksum and spare columns (R42, R113). -/
def refCol : Nat := 2048

/-- Program-and-verify of an array-tier ends (R163, R164): its cells hold what `cells` gives them, with the failed cells of columns that
were not programmed, but those in `failed`, by physical column, which are left at their last levels; the mark of R348 is set when `refs`, the reference columns, were programmed and no cell
of theirs failed, and the tile is then queued for recalibration (reason 4). -/
def State.endProgram (k phys tier : Nat) (cells : TierCells) (failed : List (Nat × Nat)) (refs : Bool) (s : State) : State :=
  let key := nvKey k phys tier
  let bad := failed.filter (fun x => x.2 != 0)
  let refsGood := refs && !bad.any (fun x => decide (refCol ≤ x.1) && decide (x.1 < refCol + 16))
  let (d, s) := if bad.isEmpty then (0, s) else s.takeDraw
  let cells := { cells with failed := cells.failed ++ bad.map (fun x => (x.1, x.2, d)) }
  let s := s.onNv (fun n => { n with cells := AMap.set n.cells key cells, refMark := if refsGood then AMap.erase n.refMark key else n.refMark })
  let s := (s.onStk k (fun u => { u with programming := AMap.erase u.programming (tierKey phys tier) })).setProgramming
  s.whenB refsGood (fun s => s.queueRecal k (phys / 64) 4)

/-- Count trains and failed cells of a programming (R164, R174). -/
def State.countProgram (trains cells : Nat) (s : State) : State :=
  let s := (s.bump R.WLDG.TRAINS 0 trains).bump R.WLDG.PROG_FAIL_CNT 0 cells
  s.whenB (cells != 0) (fun s => s.raise R.WLDG.EVT_PROG_CELL_FAIL 0)

/-- Is programming on a stack paused: RATE 0 (R174), a thermal trip whose act has not been lifted (R173), or a stack that is not in ACTIVE,
whose array drive is off (R358, R365). -/
def State.progPaused (s : State) (k : Nat) : Bool :=
  s.rd R.WLDG.PROG_RATE_RATE 0 == 0 || (s.stk k).progHold || s.stackState k != 1

/-- PROGRAM_ARRAY_TIER: programming of a staged entry begins. While the partition forms steps no footprint of the active
placement is programmed (R165). -/
def execProgramArrayTier (part : Fin 12) (entry : Nat) (s : State) : Host.Outcome State Fault Refusal :=
  let p := part.val
  match (s.part p).load with
  | none => .next s
  | some l =>
    match l.placement.entries[entry]? with
    | none => .next s
    | some e =>
      match l.placement.levelsBlk e with
      | none => .next s
      | some b =>
        match AMap.get? l.shards b.shard with
        | none => .next s
        | some st =>
          let phys := (s.stk e.stack).physOf e.array
          let busy := s.formsSteps p && (match (s.part p).active with
            | some a => a.entries.any (fun x => !x.digital && x.foot == e.foot) | none => false)
          if AMap.getD l.levels entry 0 ≠ 1 || !st.accepted || s.progPaused e.stack || busy || s.clears p then .next s
          else
            let s := s.touchStaged l st.slot b.offset b.length
            if s.stagedBad l st.slot b.offset b.length then .next (s.badAttempt p b.shard)
            else if s.worn e.stack phys e.tier then .next (s.loadFail p lsWear none)
            else
              let vals := s.mrd (l.stageAt st.slot + b.offset) b.length
              .next ((s.startProgram e.stack phys e.tier).onLoad p (fun l => { l with
                levels := AMap.set l.levels entry (4 + tierKey phys e.tier), taken := AMap.set l.taken entry vals }))

/-- Records of the program fault list (R164): one for each column with failed cells; a full list counts instead, as does a record that would
lie outside the partition's memory (DESIGN CHOICE, log entry 140). -/
def State.faultRecords (p k phys tier : Nat) (failed : List (Nat × Nat)) (s : State) : State :=
  s.each (failed.filter (fun x => x.2 != 0)) (fun x s =>
    match (s.part p).load with
    | none => s
    | some l =>
      let a := l.faultAddr + 8 * l.faultUsed
      if l.faultCap ≤ l.faultUsed || !s.inPart p a 8 then s.count R.WLDG.FAULT_OVF_CNT 0
      else
        let w := phys + tier * 2 ^ 16 + k * 2 ^ 20 + (x.1 % 4096) * 2 ^ 24 + (x.2 % 4096) * 2 ^ 36
        (s.mwr a (leBytes 8 w)).onLoad p (fun l => { l with faultUsed := l.faultUsed + 1 }))

/-- PROGRAM_VERIFY_END: `failed` gives the physical columns with failed cells and how many; `trains` the trains applied. -/
def execProgramVerifyEnd (part : Fin 12) (entry trains : Nat) (failed : List (Nat × Nat)) (s : State) : Host.Outcome State Fault Refusal :=
  let p := part.val
  match (s.part p).load with
  | none => .next s
  | some l =>
    match l.placement.entries[entry]?, AMap.getD l.levels entry 0 with
    | some e, v =>
      match l.placement.levelsBlk e with
      | none => .next s
      | some b =>
        match AMap.get? l.shards b.shard with
        | none => .next s
        | some _ =>
          if v < 4 || s.progPaused e.stack || s.clears p then .next s
          else
            let phys := (v - 4) / 16
            let cells : TierCells := { wmode := b.bfmt, vals := AMap.getD l.taken entry []
                                       spares := colEntries (s.stk e.stack).colMap phys }
            let s := s.countProgram trains (failed.foldl (fun a x => a + x.2) 0)
            let s := s.faultRecords p e.stack phys e.tier failed
            let s := s.endProgram e.stack phys e.tier cells failed true
            let rec_ := residencyOf l.placement.image b (s.part p).tag
            let s := s.onNv (fun n => { n with residency := AMap.set n.residency (nvKey e.stack phys e.tier) rec_ })
            let s := s.onLoad p (fun l => { l with levels := AMap.set l.levels entry 3, taken := AMap.erase l.taken entry })
            .next (((s.releaseShard p b.shard).requestShards p).tryDone p)
    | none, _ => .next s

end Sys2Proof.Machine
end

