-- ==== Sys2Proof/Machine/Repair.lean ====
section
/-! DEFINITION. Detected errors and replay, covers of failed arrays, repair of shared blocks, spare programming, masks and
unavailable experts (R312 to R315, R319, R321 to R327, R335, R337). -/
namespace Sys2Proof.Machine

/-! ### Covers (R321, R322) -/

/-- Set the cover state of a queued verdict. -/
def State.setVerdictCover (p k array v slot : Nat) (s : State) : State :=
  s.onPart p (fun q => { q with verdicts := q.verdicts.map (fun x =>
    if x.stack = k ∧ x.array = array then { x with cover := v, slot := slot } else x) })

/-- A cover fetch or a block repair fails (R319, R322). -/
def State.repairFailed (p k array : Nat) (s : State) : State :=
  (s.raise R.REL.EVT_REPAIR_FAILED p).report (hubOfStack k) (mkReport 1 (instStack k) (locArray array 0) 0x0A 2 (2 ^ p) 0)

/-- The verdict whose cover is fetched next: by ascending stack, then array (R322). -/
def State.nextVerdict (s : State) (p : Nat) : Option Verdict :=
  (sortBy (fun (a b : Verdict) => decide (a.stack * 65536 + a.array ≤ b.stack * 65536 + b.array))
    ((s.part p).verdicts.filter (fun v => v.cover == 0 && !v.released))).head?

/-- COVER_FETCH: the queued verdict whose turn it is takes the lowest free cover slot, with AUTO_REPAIR at 1; the page must be enabled,
so that its cover area has been checked (DEDUCED, log entry 42). Without a port that is up there is no source (R380, R480). -/
def execCoverFetch (part : Fin 12) (s : State) : Host.Outcome State Fault Refusal :=
  let p := part.val
  if !s.is R.REL.CTL_AUTO_REPAIR p || !s.en .rel p || s.clears p then .next s
  else
    match s.nextVerdict p with
    | none => .next s
    | some v =>
      let n := s.rd R.REL.COVER_SLOTS p
      match (List.range n).find? (fun i => (AMap.get? (s.part p).covers i).isNone) with
      | none =>
        if n = 0 then .next ((s.setVerdictCover p v.stack v.array 3 0).repairFailed p v.stack v.array) else .next s
      | some i =>
        let keys := ((s.footprintBlks p v.stack v.array).map (·.2.shardKey)).eraseDups
        if !s.hasModel p || !s.canFetch p keys then
          .next ((s.setVerdictCover p v.stack v.array 3 i).repairFailed p v.stack v.array)
        else
          let c : Cover := { stack := v.stack, array := v.array, since := s.clk.devTime }
          let s := s.onPart p (fun q => { q with covers := AMap.set q.covers i c })
          let s := s.each keys (fun key s => s.askShard p key 1)
          .next ((s.setVerdictCover p v.stack v.array 1 i).setRepairStat p)

/-- What has come of a shard that a fetch wants: nothing, a copy whose digest is wrong or that the key held does not open (R154, R155),
or its plain bytes. -/
inductive ShardGot
  | none
  | bad
  | good (plain : List Byte)
  deriving DecidableEq, Repr

/-- Judge a delivered shard (R321). -/
def State.shardGot (s : State) (p key : Nat) (stored : List (Nat × List Byte)) : ShardGot :=
  match (s.fetchImages p)[key / 262144]?, stored.find? (fun x => x.1 == key) with
  | some (im, handle), some x =>
    match im.shards[key % 262144]? with
    | Option.none => .none
    | some e =>
      if x.2.length ≠ e.length || shake256 x.2 64 != e.digest then .bad
      else if im.encrypted then
        match (AMap.get? (s.part p).imgKeys handle).bind (fun k => openShard k im.image (key % 262144) e x.2) with
        | some plain => .good plain
        | Option.none => .bad
      else .good x.2
  | _, _ => .none

/-- Has a fetch failed over a shard: the fourth failed attempt, or SHARD_TMO (R160, R161). -/
def State.gotFails (s : State) (p failed since : Nat) : ShardGot → Bool
  | .good _ => false
  | .bad => decide (3 ≤ failed)
  | .none => s.tmoOver (s.fetchInfo p) since

/-- Write a block into a cover slot with its check values (R321, R337). -/
def State.putCover (p slot tier : Nat) (bytes : List Byte) (s : State) : State :=
  let a := s.coverAddr p slot
  (s.mwr (a + 0x200000 * tier) bytes).mwr (a + 0x2000000 + 2048 * tier) ((crcPieces bytes).flatMap (leBytes 4))

/-- The fetch of a cover fails: its slot is free again, and the array is not masked (R322). -/
def State.coverFailed (p slot : Nat) (c : Cover) (s : State) : State :=
  let s := (s.onPart p (fun q => { q with covers := AMap.erase q.covers slot })).pruneReads p
  ((s.setVerdictCover p c.stack c.array 3 slot).repairFailed p c.stack c.array).setRepairStat p

/-- A shard that a fetch wants is asked for again from the other source, after `failed` failed attempts (R160, R321). -/
def State.reFetch (p key failed : Nat) (s : State) : State :=
  ((s.count R.WLDG.REFETCH_CNT 0).endReads p (· == .fetch key)).askShard p key (failed + 2)

/-- A cover takes the blocks of the shards that have come; it is ready when every wanted block is there. Shards that failed their digest
or their tag are asked for again (R160, R321). -/
def State.coverTake (p slot : Nat) (c : Cover) (got : Nat → ShardGot) (s : State) : State :=
  let want := (s.footprintBlks p c.stack c.array).filter (fun x => !c.tiers.any (fun t => t.1 == x.1))
  let keys := (want.map (·.2.shardKey)).eraseDups
  let failed (key : Nat) : Nat := AMap.getD c.tries key 0
  if keys.any (fun key => s.gotFails p (failed key) c.since (got key)) then s.coverFailed p slot c
  else
    let new := want.filterMap (fun x => match got x.2.shardKey with
      | .good plain => some (x.1, x.2.bfmt, (plain.drop x.2.offset).take x.2.length)
      | _ => none)
    let again := keys.filter (fun key => got key == .bad)
    let c' : Cover := { c with
      tiers := c.tiers ++ new, ready := new.length == want.length
      tries := again.foldl (fun m key => AMap.set m key (failed key + 1)) c.tries }
    let s := s.each new (fun x s => s.putCover p slot x.1 x.2.2)
    let s := s.onPart p (fun q => { q with covers := AMap.set q.covers slot c' })
    let s := s.each again (fun key s => s.reFetch p key (failed key))
    if c'.ready then ((s.setVerdictCover p c.stack c.array 2 slot).raise R.REL.EVT_COVER_READY p).setRepairStat p else s

/-- The fetch of a block under repair: replaced in its place with its check values, asked for again, or failed; the block then stays
poisoned (R119, R319). -/
def State.repairTake (p : Nat) (x : Nat × Blk) (got : Nat → ShardGot) (s : State) : State :=
  let b := x.2
  match AMap.get? (s.part p).repairTry b.addr with
  | none => s
  | some (failed, since) =>
    if s.gotFails p failed since (got x.1) then s.repairLost p b
    else
      match got x.1 with
      | .good plain =>
        let s := s.putBlk b ((plain.drop b.offset).take b.length)
        let s := s.onPart p (fun q => { q with repairs := q.repairs.filter (· != b.addr), repairTry := AMap.erase q.repairTry b.addr })
        s.report (hubOfAddr b.addr) (mkReport 8 (hubOfAddr b.addr) 0 0x07 0 (2 ^ p) b.addr)
      | .bad =>
        let s := s.onPart p (fun q => { q with repairTry := AMap.set q.repairTry b.addr (failed + 1, since) })
        s.reFetch p x.1 failed
      | .none => s

/-- What the shards delivered for covers and repairs of a partition do: `slot` names the cover. -/
def State.fetched (p slot : Nat) (got : Nat → ShardGot) (s : State) : State :=
  let s := s.each (s.repairBlocks p) (fun x s => s.repairTake p x got)
  match AMap.get? (s.part p).covers slot with
  | some c => (if c.ready then s else s.coverTake p slot c got).pruneReads p
  | none => s.pruneReads p

/-- COVER_READY: shards fetched by the method of R321 have come with their stored bytes, numbered as `repairBlocks` says: for a cover, and
for blocks under repair. -/
def execCoverReady (part : Fin 12) (slot : Fin 32) (stored : List (Nat × List Byte)) (s : State) : Host.Outcome State Fault Refusal :=
  let p := part.val
  if s.clears p then .next s
  else
    let s := s.bump R.WLDG.FETCH_BYTES 0 (stored.foldl (fun a x => a + x.2.length) 0)
    .next (s.fetched p slot.val (fun key => s.shardGot p key stored))

/-- A parity failure of the loader while it fetches for covers and repairs: a failed attempt of the shard (R314, R321). -/
def State.fetchError (p key : Nat) (s : State) : State :=
  let got (x : Nat) : ShardGot := if x = key then .bad else .none
  let s := s.each ((s.repairBlocks p).filter (fun x => x.1 == key)) (fun x s => s.repairTake p x got)
  (s.each ((s.part p).covers.filter (fun e => !e.2.ready)) (fun e s => s.coverTake p e.1 e.2 got)).pruneReads p

/-! ### Detected errors (R313 to R315) -/

/-- Is the origin a unit that never works for a step (R314): the admission unit, which reports as LOCATION 1 of unit SRV, or the
loader (DESIGN CHOICE, log entry 41). -/
def offStep (o : Origin) : Bool := (o.unit == 7 && o.loc == 1) || o.unit == 8

/-- A detected error in a unit that does not work for a step (R314): the admission unit drops its oldest frame and refuses it
with REJ_FORMAT, the loader counts a failed digest attempt of the shard that LOCATION names, with bit 31 one of a cover fetch or a repair
(DESIGN CHOICE, log entry 41), a stack's tables and records wait for its next evaluation, a byte of steward memory holds its failure until
it is written (R438); any other unit only reports. -/
def State.idleError (p : Nat) (o : Origin) (s : State) : State :=
  if o.unit = 7 ∧ o.loc = 1 then
    match (s.part p).inbox with
    | f :: t =>
      let s := s.onPart p (fun q => { q with inbox := t })
      let s :=
        if f.req then
          let r := ReqFrame.ofBytes f.bytes
          let s := s.respond p (respPayload r.q.reqId kFinal stRejFormat 0 0 s.clk.devTime p [])
          s.flagCount R.SRV.EVT_REJECTED R.SRV.REJECT_CNT p
        else s.cancelResult p (fieldLE f.bytes 0 8) stRejFormat f.time false
      (s.returnCredits (if f.req then 0 else 1) (frameCredits f.bytes.length)).drainInbox p t.length
    | [] => s
  else if o.unit = 8 then
    if o.loc.testBit 31 then s.fetchError p (o.loc % 2 ^ 31) else s.badAttempt p o.loc
  else if o.unit = 16 then s.stewardParity o
  else if 1 ≤ o.unit ∧ o.unit ≤ 4 ∧ s.owns p (o.inst / 4) then s.onStk (o.inst / 4) (fun u => { u with idleErr := u.idleErr ++ [o] })
  else s

/-- DETECTED_ERROR: counted, reported, and replayed while the partition's step has not reached its cut; the same origin
again, or more replays than REPLAY_MAX, makes it permanent (R315). Resolution restarts from its cut (R335), which the model
makes in one command. -/
def execDetectedError (part : Fin 12) (origin : Origin) (s : State) : Host.Outcome State Fault Refusal :=
  let p := part.val
  let s := s.noteError p origin
  if offStep origin then .next (s.idleError p origin)
  else if s.beforeCut p then .next (s.stepError p origin)
  else if s.stepRuns p then .next s
  else .next (s.idleError p origin)

/-- A cover fetch stops at a power-fail warning (R335). -/
def State.stopCovers (p : Nat) (s : State) : State :=
  s.each ((s.part p).covers.filter (fun e => !e.2.ready)) (fun e s => s.coverFailed p e.1 e.2)

/-! ### Masks (R323, R326) -/

/-- Mask every array whose cover is ready (R323). -/
def State.maskReady (p : Nat) (s : State) : State :=
  let s := s.each ((s.part p).covers.filter (fun e => e.2.ready && !e.2.masked)) (fun e s =>
    let s := s.onStk e.2.stack (fun u => { u with masked := AMap.set u.masked e.2.array 1 })
    s.onPart p (fun q => { q with covers := AMap.set q.covers e.1 { e.2 with masked := true } }))
  s.setRepairStat p

/-- Mask clears that wait for the boundary take effect. -/
def State.liftPending (p : Nat) (s : State) : State :=
  let l := (s.part p).maskLift
  let s := s.onPart p (fun q => { q with maskLift := [] })
  s.each l (fun x s => s.liftMask p x.1 x.2)

/-- Every cover is released and every mask lifted (RETIRE, R326). -/
def State.dropCovers (p : Nat) (s : State) : State :=
  let s := s.each (s.stacksOf p) (fun k s => s.onStk k (fun u => { u with masked := [] }))
  let s := s.each (s.part p).covers (fun e s => s.releaseVerdict p e.2.stack e.2.array)
  ((s.onPart p (fun q => { q with covers := [], maskLift := [] })).setRepairStat p).pruneReads p

/-- REL_MASK_CTL.CLEAR (R326): at the next boundary, or at once (R481). -/
def State.actMaskClear (p : Nat) (s : State) : State :=
  let k := s.rd R.REL.MASK_CTL_STACK p
  let a := s.rd R.REL.MASK_CTL_ARRAY p
  if !s.owns p k || AMap.getD (s.stk k).masked a 0 == 0 then s
  else
    let s := s.onPart p (fun q => { q with maskLift := q.maskLift ++ [(k, a)] })
    s.whenB (s.unstepped p) (fun s => s.liftPending p)

/-- MASK_CLEAR. -/
def execMaskClear (part : Fin 12) (s : State) : Host.Outcome State Fault Refusal := .next (s.ofPart part.val (State.actMaskClear part.val))

/-! ### Spare programming (R325) -/

/-- A refused GO: SPARE_REFUSED, and STATE 3. -/
def State.spareRefused (p : Nat) (s : State) : State := (s.raise R.REL.EVT_SPARE_REFUSED p).wr R.REL.SPARE_STAT_STATE p 3

/-- Is a physical array mapped by a valid entry of either array remap buffer. -/
def StackSt.mapsSpare (u : StackSt) (phys : Nat) : Bool :=
  (u.arrMap0 ++ u.arrMap1).any (fun e => e.2.testBit 31 && bits e.2 0 16 == phys)

/-- Spare columns of an array that the inactive column remap buffer maps and the active one does not: what MODE 1 programs. -/
def StackSt.newSpares (u : StackSt) (phys : Nat) : List (Nat × Nat) :=
  (colEntries u.colMapIn phys).filter (fun e => !(colEntries u.colMap phys).any (fun x => x.2 == e.2))

/-- The ready cover of an array. -/
def State.coverOf (s : State) (p k array : Nat) : Option Cover :=
  ((s.part p).covers.find? (fun e => e.2.stack == k && e.2.array == array && e.2.ready)).map (·.2)

/-- Tiers that a spare programming programs: those of the cover; with MODE 1 and no column to program, none. -/
def Cover.spareTiers (c : Cover) (cols : Option (List (Nat × Nat))) : List (Nat × Nat × List Byte) :=
  if cols == some [] then [] else c.tiers

/-- REL_SPARE_CTL.GO (R325): `mode` 0 programs a spare array, 1 the newly mapped spare columns of the masked array. A GO
while one runs is refused (DEDUCED, log entry 43). -/
def State.actSpareGo (p mode : Nat) (s : State) : State :=
  let k := s.rd R.REL.SPARE_CTL_STACK p
  let a := s.rd R.REL.SPARE_CTL_ARRAY p
  let phys := if mode = 0 then s.rd R.REL.SPARE_PHYS p else (s.stk k).physOf a
  let cols := if mode = 0 then none else some ((s.stk k).newSpares phys)
  match s.coverOf p k a with
  | none => s.spareRefused p
  | some c =>
    if !s.owns p k || (s.part p).spareRun.isSome || (c.spareTiers cols).any (fun t => s.worn k phys t.1) ||
        (mode == 0 && (!isSpare phys || (s.stk k).mapsSpare phys)) then s.spareRefused p
    else
      let s := s.each (c.spareTiers cols) (fun t s => s.startProgram k phys t.1)
      let s := s.onPart p (fun q => { q with spareRun := some (k, a, phys), spareCols := cols })
      ((s.wr R.REL.SPARE_STAT_STATE p 1).wr R.REL.SPARE_STAT_FAILED p 0).setRepairStat p

/-- SPARE_ARRAY_PROGRAM: GO with MODE 0. -/
def execSpareArrayProgram (part : Fin 12) (s : State) : Host.Outcome State Fault Refusal :=
  .next (s.ofPart part.val (fun s => (s.wr R.REL.SPARE_CTL_MODE part.val 0).actSpareGo part.val 0))

/-- SPARE_COLUMN_PROGRAM: GO with MODE 1. -/
def execSpareColumnProgram (part : Fin 12) (s : State) : Host.Outcome State Fault Refusal :=
  .next (s.ofPart part.val (fun s => (s.wr R.REL.SPARE_CTL_MODE part.val 1).actSpareGo part.val 1))

/-- Spare programming fails (R325, R335). -/
def State.spareFail (p k phys : Nat) (s : State) : State :=
  ((s.raise R.REL.EVT_SPARE_FAIL p).wr R.REL.SPARE_STAT_STATE p 3).report (hubOfStack k)
    (mkReport 1 (instStack k) (locArray phys 0) 0x0C 2 (2 ^ p) 0)

/-- Failed cells of one of `tiers` tiers by physical column, when `n` cells of the columns `cols` have failed in all: which tier and
column each lies in is open, a draw `d` (log entry 43). -/
def spareFailed (d n : Nat) (cols : List Nat) (tiers t : Nat) : List (Nat × Nat) :=
  cols.map (fun c => (c, ((List.range n).filter (fun i =>
    cols.getD (Config.freeAt d (2 * i) % max 1 cols.length) 0 == c && Config.freeAt d (2 * i + 1) % max 1 tiers == t)).length))

/-- Spare programming ends on a tier (R325): the spare array holds the cover's block; with MODE 1 the array keeps what it held and gets
the spare columns `cols`, no reference column, so that the mark of R348 stays clear. -/
def State.endSpareTier (p k phys array : Nat) (cols : Option (List (Nat × Nat))) (failed : List (Nat × Nat)) (t : Nat × Nat × List Byte)
    (s : State) : State :=
  let block : TierCells := { wmode := t.2.1, vals := t.2.2, spares := colEntries (s.stk k).colMap phys }
  let cells := match cols with
    | none => block
    | some cs =>
      let old := (AMap.get? s.nv.cells (nvKey k phys t.1)).getD block
      { old with spares := cs ++ old.spares, failed := old.failed.filter (fun x => !cs.any (fun c => 2080 + c.2 == x.1)) }
  let s := s.endProgram k phys t.1 cells failed cols.isNone
  match (s.part p).active with
  | none => s
  | some pl =>
    match (s.footprintBlks p k array).find? (fun x => x.1 == t.1) with
    | some x =>
      let img := (pl.images[x.2.img]?.map (·.image)).getD []
      s.onNv (fun n => { n with residency := AMap.set n.residency (nvKey k phys t.1) (residencyOf img x.2 (s.part p).tag) })
    | none => s

/-- SPARE_PROGRAM_END: SPARE_DONE in any case, SPARE_FAIL as well where cells failed (R325). -/
def execSpareProgramEnd (part : Fin 12) (trains failed : Nat) (s : State) : Host.Outcome State Fault Refusal :=
  let p := part.val
  match (s.part p).spareRun with
  | none => .next s
  | some (k, a, phys) =>
    if s.progPaused k then .next s
    else
      let cols := (s.part p).spareCols
      let tiers := match s.coverOf p k a with | some c => c.spareTiers cols | none => []
      let at_ := match cols with
        | none => List.range 2080 ++ (colEntries (s.stk k).colMap phys).map (2080 + ·.2)
        | some cs => cs.map (2080 + ·.2)
      let s := s.countProgram trains failed
      let (d, s) := if failed = 0 then (0, s) else s.takeDraw
      let s := s.each ((List.range tiers.length).zip tiers) (fun t s =>
        s.endSpareTier p k phys a cols (spareFailed d failed at_ tiers.length t.1) t.2)
      let s := (s.onPart p (fun q => { q with spareRun := none })).wr R.REL.SPARE_STAT_FAILED p (min failed (2 ^ 24 - 1))
      let s := (s.setRepairStat p).raise R.REL.EVT_SPARE_DONE p
      if failed = 0 then
        .next ((s.wr R.REL.SPARE_STAT_STATE p 2).report (hubOfStack k) (mkReport 1 (instStack k) (locArray phys 0) 0x0B 0 (2 ^ p) 0))
      else .next (s.spareFail p k phys)

/-- Spare programming stops at a power-fail warning: the spare is not mapped (R335). -/
def State.stopSpare (p : Nat) (s : State) : State :=
  match (s.part p).spareRun with
  | none => s
  | some (k, _, phys) =>
    let s := s.onStk k (fun u => { u with programming := u.programming.filter (fun e => e.1 / 16 != phys) })
    let s := s.onPart p (fun q => { q with spareRun := none })
    ((s.setProgramming).spareFail p k phys).setRepairStat p

/-! ### Unavailable experts (R327) and the verdict queue (R337) -/

/-- Apply the marks that wait: bit EXPERT of the layer's bitmap, and the fault map. A mark that is set is reported. -/
def State.applyUnavail (p : Nat) (s : State) : State :=
  let l := (s.part p).unavailPend
  let s := s.onPart p (fun q => { q with unavailPend := [] })
  s.each l (fun x s =>
    let (layer, expert, on) := x
    let a := s.rd R.REL.UNAVAIL_BASE p + 8192 * layer + expert / 8
    let old := s.mval a 1
    let s := s.whenB (s.inPart p a 1) (fun s => s.mwr a (leBytes 1 (setBits old (expert % 8) 1 (if on then 1 else 0))))
    let s := s.onPart p (fun q =>
      let rest := q.unavail.filter (fun y => y != (layer, expert))
      { q with unavail := if on then rest ++ [(layer, expert)] else rest })
    s.whenB on (fun s => s.report (s.lowHub p) (mkReport 19 (s.lowHub p) expert 0x0D 2 (2 ^ p) layer)))

/-- REL_UNAVAIL_CTL (R327): at the next boundary, or at once (R481). -/
def State.actUnavail (p : Nat) (on : Bool) (s : State) : State :=
  let x := (s.rd R.REL.UNAVAIL_LAYER p, s.rd R.REL.UNAVAIL_EXPERT p, on)
  let s := s.onPart p (fun q => { q with unavailPend := q.unavailPend ++ [x] })
  s.whenB (s.unstepped p) (fun s => s.applyUnavail p)

/-- UNAVAIL_SET. -/
def execUnavailSet (part : Fin 12) (s : State) : Host.Outcome State Fault Refusal := .next (s.ofPart part.val (State.actUnavail part.val true))
/-- UNAVAIL_CLEAR. -/
def execUnavailClear (part : Fin 12) (s : State) : Host.Outcome State Fault Refusal := .next (s.ofPart part.val (State.actUnavail part.val false))

/-- REL_VERDICT_POP (R337). -/
def State.actVerdictPop (p : Nat) (s : State) : State := s.onPart p (fun q => { q with verdicts := q.verdicts.tail })

/-- VERDICT_POP. -/
def execVerdictPop (part : Fin 12) (s : State) : Host.Outcome State Fault Refusal := .next (s.ofPart part.val (State.actVerdictPop part.val))

end Sys2Proof.Machine
end

