-- ==== Sys2Proof/Machine/Boundary.lean ====
section
/-! DEFINITION. Step boundaries: the configuration identity, placement switches, the changes that wait, and when a step may
form (R25, R156, R170 to R172, R204, R292, R293, R344, R365, R408, R472, R481, R486). -/
namespace Sys2Proof.Machine

/-! ### Configuration identity (R292, R293) -/

/-- Words of some fields of a page: (offset, value) in ascending offset, a pair as two words. -/
def State.fieldWords (s : State) (fs : List Field) (i : Nat) : List (Nat × Nat) :=
  let parts := fs.flatMap (fun f =>
    let v := s.rd f i
    if f.pair then [(f.off, v % 2 ^ 32), (f.off + 4, v / 2 ^ 32)] else [(f.off, v <<< f.lo)])
  let offs := sortBy (fun a b => decide (a ≤ b)) ((parts.map (·.1)).eraseDups)
  offs.map (fun o => (o, (parts.filter (fun x => x.1 == o)).foldl (fun a x => a + x.2) 0))

/-- Values of those words. -/
def State.cfgWords (s : State) (fs : List Field) (i : Nat) : List Nat := (s.fieldWords fs i).map (·.2)

/-- Fields of item 3 on a page of the partition: its configuration fields, the core sets on the DCR page, and the member's position,
which R311 makes part of the configuration although no write changes it. -/
def partCfgFields (pg : Page) : List Field :=
  pg.fields.filter (fun f => f.cfg || f == R.GLB.SPAN_CTL_POSITION || (pg == .dcr && (f.off == 0x030 || f.off == 0x034)))

/-- DCP fields of item 3. -/
def dcpCfgFields : List Field := Page.dcp.fields.filter (fun f => f.acc == .rw && (f.off == 0x100 || f.off == 0x014 || f.off == 0x018))

/-- A partition's memory ranges as (base, size) in GiB of hubs 0 to 3. -/
def State.rangeWords (s : State) (p : Nat) : List Nat :=
  (List.range 4).flatMap (fun h => match (s.part p).ranges.find? (fun r => r.1 == h) with
    | some r => [r.2.1, r.2.2]
    | none => [0, 0])

/-- The items of a partition's identity, as they are now. -/
def State.cfgItems (s : State) (p : Nat) : CfgItems :=
  let q := s.part p
  let ks := s.stacksOf p
  let words := ks.flatMap (fun k => s.cfgWords [R.AFD.CAP_CAP, R.AFD.GUARD_GUARD_CODE] k) ++
    ks.flatMap (fun k => s.cfgWords [R.CNV.SETTLE_SETTLE] k) ++ (s.stackHubsOf p).flatMap (fun h => s.cfgWords dcpCfgFields h) ++
    [Page.dcr, .kve, .srv, .wld, .glb].flatMap (fun pg => s.cfgWords (partCfgFields pg) p)
  let frames := ((List.range 4).filter (fun h => (s.frameAct h).ownedBy p)).map (fun h =>
    (h, (s.frameAct h).entries, chEnFields.map (fun f => s.rd f h)))
  let valid (m : AMap Nat) : AMap Nat := m.filter (fun e => e.2.testBit 31)
  let maps := ks.map (fun k => let u := s.stk k; (k, valid u.colMap, valid u.arrMap, u.failedKeys, u.masked.map (·.1)))
  { set := q.setAct.bytes, placement := match q.active with | some x => x.bytes | none => []
    words := words ++ s.rangeWords p, frames := frames, maps := maps
    unavail := sortBy (fun a b => decide (a.1 < b.1 ∨ (a.1 = b.1 ∧ a.2 ≤ b.2))) q.unavail }

/-- A bitmap of n bits, packed from bit 0 of byte 0. -/
def bitmap (n : Nat) (l : List Nat) : List Byte :=
  let m := maskOf l
  (List.range (n / 8)).map (fun i => BitVec.ofNat 8 (bits m (8 * i) 8))

/-- Entries of a map as 4-byte words; a missing entry is four zero bytes. -/
def mapWords (n : Nat) (m : AMap Nat) : List Byte := (List.range n).flatMap (fun i => leBytes 4 (AMap.getD m i 0))

/-- The records over which GLB_CFG_ID is taken (R293). -/
def CfgItems.bytes (c : CfgItems) : List Byte :=
  let rec_ (code : Nat) (b : List Byte) : List Byte := leBytes 4 code ++ leBytes 8 b.length ++ b
  let frames := c.frames.flatMap (fun f =>
    leBytes 1 f.1 ++ leBytes 2 f.2.1.length ++ f.2.1.flatMap (leBytes 1) ++ f.2.2.flatMap (leBytes 4))
  let maps := c.maps.flatMap (fun m =>
    leBytes 1 m.1 ++ mapWords (40960 * 32) m.2.1 ++ mapWords 38912 m.2.2.1 ++ bitmap (40960 * 264) m.2.2.2.1 ++ bitmap 38912 m.2.2.2.2)
  let un := (List.range 256).flatMap (fun l => bitmap 65536 ((c.unavail.filter (fun x => x.1 == l)).map (·.2)))
  rec_ 1 c.set ++ rec_ 2 c.placement ++ rec_ 3 (c.words.flatMap (leBytes 4)) ++ rec_ 4 frames ++ rec_ 5 (maps ++ un)

/-- GLB_CFG_ID: computed from the items that were last taken (R293). -/
def State.cfgId (s : State) (p : Nat) : Nat := shake64 (s.part p).cfg.bytes

/-- Take the identity's items for the first time (R293): no change is counted. -/
def State.cfgFirst (p : Nat) (s : State) : State :=
  let c := s.cfgItems p
  s.onPart p (fun q => { q with cfg := c })

/-- Take the items again when one has changed. The value is then taken to have changed too: that two different identities have one
64-bit digest is left out (DESIGN CHOICE, log entry 5). -/
def State.cfgUpdate (p : Nat) (s : State) : State :=
  let c := s.cfgItems p
  if c = (s.part p).cfg then s
  else (s.onPart p (fun q => { q with cfg := c })).flagCount R.GLB.EVT_CFG_ID_CHANGED R.GLB.CFG_GEN p

/-! ### Placement switches (R170 to R172, R204) -/

/-- BLOCK_STAT and the registers that show the active placement (R175). -/
def State.setPlacementRegs (p : Nat) (s : State) : State :=
  let q := s.part p
  let es := match q.active with | some x => x.entries | none => []
  let dig := es.filter PlEntry.digital
  let s := (s.wrB R.WLD.STAT_HAS_MODEL p q.active.isSome).wr R.WLD.STAT_ACTIVE_BUF p q.actBuf
  let s := (s.wrB R.WLD.STAT_SLOWER_TIER p (!dig.isEmpty)).wr R.WLD.DIGITAL_LAYERS p ((dig.map (·.layer)).eraseDups.length)
  (s.wr R.WLD.GEN p (match q.active with | some x => x.generation | none => 0)).wrB R.WLD.STAT_SWITCH_PENDING p q.switchPend.isSome

/-- A report of a placement change (R328, kind STATE). -/
def State.placeReport (p : Nat) (s : State) : State := s.report (s.lowHub p) (mkReport 8 (s.lowHub p) 0 0x20 0 (2 ^ p) 0)

/-- Covers keep the tiers whose entry is carried over (R326). -/
def keepCovers (old new : Option Placement) (cs : AMap Cover) : AMap Cover :=
  let es (x : Option Placement) : List PlEntry := match x with | some y => y.entries | none => []
  cs.map (fun c => (c.1, { c.2 with tiers := c.2.tiers.filter (fun t => (es old).any (fun e =>
    e.stack == c.2.stack && e.array == c.2.array && e.tier == t.1 && (es new).contains e)) }))

/-- The switch (R170): placement pointer and step-program set change as one action. After it no verified set waits in the
inactive banks (DEDUCED, log entry 45). -/
def State.switchNow (p : Nat) (drain : Bool) (s : State) : State :=
  let s := s.onPart p (fun q => { q with
    active := q.loaded, loaded := none, actBuf := 1 - q.actBuf, setAct := q.setNew, setNew := q.setAct, switchPend := none
    stepsSinceSwitch := 0, covers := keepCovers q.active q.loaded q.covers
    repairs := q.repairs.filter (fun a => match q.loaded with | some x => x.blocks.any (fun b => b.resident && b.addr == a) | none => false) })
  let s := ((s.wr R.DCR.STAT_VERIFIED p 0).setPlacementRegs p).raise R.WLD.EVT_SWITCHED p
  let s := s.whenB (drain && s.en .kve p) (fun s => s.flushTree p)
  ((s.placeReport p).setCorrBytes).refetch p

/-- May a pending switch happen at this boundary: IMMEDIATE always, DRAIN with no live request of the old generation. -/
def State.switchDue (s : State) (p : Nat) : Bool :=
  let q := s.part p
  match q.switchPend with
  | some true => true
  | some false => q.hampers.all (fun e => decide (q.drainSeq ≤ e.2.admSeq))
  | none => false

/-- The switch, when it is due. -/
def State.trySwitch (p : Nat) (s : State) : State :=
  s.whenB (s.switchDue p) (fun s => s.switchNow p ((s.part p).switchPend == some false))

/-- Does a set break the conditions of GLB_EXACT.MODE (R299). -/
def State.exactBad (s : State) (p : Nat) (z : StepSet) : Bool :=
  match s.rd R.GLB.EXACT_MODE p with
  | 1 => z.chains.any (fun c => c.rung != 2) || (s.hubsOf p).any (fun h => decide (s.rd R.DCP.ESC_CTL_TOP_RUNG h < 3))
  | 2 => z.chains.any (fun c => !z.digitalFor (s.part p).sets c)
  | _ => false

/-- Must a SWITCH be refused (R170, R173, R204), also for a set that breaks the conditions of GLB_EXACT.MODE (R299). -/
def State.switchRefused (s : State) (p : Nat) : Bool :=
  let q := s.part p
  match q.loaded with
  | none => true
  | some pl =>
    s.loading p || s.exactBad p q.setNew ||
    !(s.is R.DCR.STAT_VERIFIED p && s.rd R.DCR.SET_ADDR p == pl.setAddr && s.rd R.DCR.VER_GEN p == pl.generation) ||
    q.setNew.descs.any (fun d => d.2.any (fun w => !pl.entries.any (fun e =>
      !e.digital && e.stack == d.1 && e.array == dArray w && e.tier == dTier w)))

/-- WLD_SWITCH.SWITCH with a mode (R170): refused, or it waits for its boundary; at once under R481. -/
def State.actSwitch (p : Nat) (immediate : Bool) (s : State) : State :=
  if s.switchRefused p then s.raise R.WLD.EVT_SWITCH_REFUSED p
  else
    let s := (s.onPart p (fun q => { q with switchPend := some immediate, drainSeq := q.admSeq })).wr R.WLD.STAT_SWITCH_PENDING p 1
    s.whenB (s.unstepped p) (fun s => s.trySwitch p)

/-- SWITCH_DRAIN. -/
def execSwitchDrain (part : Fin 12) (s : State) : Host.Outcome State Fault Refusal :=
  .next (s.ofPart part.val (fun s => (s.wr R.WLD.SWITCH_MODE part.val 0).actSwitch part.val false))
/-- SWITCH_IMMEDIATE. -/
def execSwitchImmediate (part : Fin 12) (s : State) : Host.Outcome State Fault Refusal :=
  .next (s.ofPart part.val (fun s => (s.wr R.WLD.SWITCH_MODE part.val 1).actSwitch part.val true))

/-- WLD_LOAD_CTL.RETIRE (R156, R326): only while the partition forms no steps and no load runs. -/
def State.actRetire (p : Nat) (s : State) : State :=
  if s.formsSteps p || s.loading p then s.raise R.WLD.EVT_LOAD_REFUSED p
  else if !s.hasModel p then s
  else
    let s := s.onPart p (fun q => { q with active := none, repairs := [] })
    (((s.setPlacementRegs p).dropCovers p).placeReport p).setCorrBytes

/-- RETIRE. -/
def execRetire (part : Fin 12) (s : State) : Host.Outcome State Fault Refusal := .next (s.ofPart part.val (State.actRetire part.val))

/-! ### The boundary (R25) -/

/-- Pages whose pending disabling waits for several partitions: DCP and ACU. -/
def sharedPage (idx : Nat) : Bool := idx == Page.dcp.idx || idx == Page.acu.idx

/-- EN field of a page by its index. -/
def enOfIdx (idx : Nat) : Field :=
  let pgs : List Page := [.afd, .cnv, .dcp, .acu, .wldG, .mem, .noc, .fab, .fabS, .hlk, .pwr, .thc, .secG, .mgt, .bst, .glbG, .relG,
    .dcr, .kve, .srv, .wld, .sec, .glb, .rel]
  fieldEN (pgs.getD idx .afd)

/-- Pending writes of 0 to EN take effect at a partition's boundary; on a DCP or ACU page when every partition concerned has
reached its own, and until EN returns to 1 they form no step (R472). -/
def State.disableDue (p : Nat) (s : State) : State :=
  let l := (s.part p).disPend
  let s := s.onPart p (fun q => { q with disPend := [], hold := (q.hold ++ l.filter (fun x => sharedPage x.1)).eraseDups })
  s.each l (fun x s =>
    let waits := sharedPage x.1 && (List.range 12).any (fun r => (s.part r).disPend.contains x)
    s.whenB (!waits) (fun s => s.wr (enOfIdx x.1) x.2 0))

/-- Exchanges of a stack that wait for the boundary (R47, R60), and drift records (R110). Two trim exchanges that wait for one boundary
are made as one for each tile that either names (DESIGN CHOICE, log entry 82). Tiles of a window
are adopted when no piece of it runs. -/
def State.stackBoundary (k : Nat) (s : State) : State :=
  let s := s.windowEnded k
  let u := s.stk k
  let s := s.whenB u.mapPend (fun s => s.mapExchange k)
  let s := s.whenB (u.trimPend || !u.tilePend.isEmpty) (fun s =>
    (s.exchangeTrims k (if u.trimPend then List.range 640 else u.tilePend.eraseDups)).onStk k (fun u => { u with trimPend := false, tilePend := [] }))
  let s := s.onStk k (fun u => { u with drift := u.driftNext.foldl (fun m e => AMap.put m e.1 e.2 u.driftBase) u.drift, driftNext := [] })
  s.whenB u.liftPend (fun s => s.liftAct k)

/-- Everything that waits for a partition's step boundary takes effect. -/
def State.boundary (p : Nat) (s : State) : State :=
  let s := s.each (s.stacksOf p) State.stackBoundary
  let s := (((s.trySwitch p).maskReady p).liftPending p).applyUnavail p
  let s := s.each ((s.part p).byAdm (fun _ h => h.preemptReq)) (fun e s => s.preemptNow p e.1)
  let s := s.whenB (s.part p).flushPend (fun s => s.flushTree p)
  let s := s.disableDue p
  let s := s.whenB (s.part p).quietPend (fun s => s.enterQuiet p)
  s.cfgUpdate p

/-- STEP_BOUNDARY: a partition for which no step runs is at a boundary. -/
def execStepBoundary (part : Fin 12) (s : State) : Host.Outcome State Fault Refusal :=
  if s.partExists part.val && !s.stepRuns part.val then .next (s.boundary part.val) else .next s

/-! ### When a step may form -/

/-- The conditions of R486 for a partition's first step. -/
def State.firstReady (s : State) (p : Nat) : Bool :=
  s.en .kve p && (s.stacksOf p).all (fun k => s.en .afd k) && (s.part p).ranges.all (fun r => s.en .mem r.1) &&
  (!s.isSpan p || s.is R.FABS.STAT_FORMED 0)

/-- May serving control form a step of a partition (R210, R334, R364, R408, R472, R486). -/
def State.mayForm (s : State) (p : Nat) : Bool :=
  s.formsSteps p && !s.stepRuns p && s.partState p == 1 && !s.inDoze && !s.is R.DCR.STAT_HALTED p && s.hasModel p && !s.isFatal &&
  (s.part p).hold.isEmpty && decide (320 * s.rd R.SRV.FORM_STEP_MAX p ≤ s.ringFree p) && (!s.unstepped p || s.firstReady p) &&
  s.pwr.move == 0 && !s.clears p

/-- At a boundary, form the next step when it may be formed and no recalibration piece runs on the partition's stacks (R351). -/
def State.boundaryForm (p : Nat) (s : State) : State :=
  if s.partExists p && !s.stepRuns p then
    let s := s.boundary p
    if s.mayForm p && !(s.candidates p).isEmpty && s.piecesRun p then s.holdPieces p
    else (s.whenB (s.mayForm p) (fun s => s.formStep p)).freePieces p
  else s

end Sys2Proof.Machine
end

