-- ==== Sys2Proof/Machine/Fabric.lean ====
section
/-! DEFINITION. Forming a step, the roll call and its load balancing, span formation, received flits and frames, and the
network ports (R249, R305 to R310, R377 to R396). -/
namespace Sys2Proof.Machine

/-! ### Load balancing (R392) -/

/-- Address of a work group's entry. Its layout is the model's: home member in byte 0, alternates in bytes 1 to 3 with 0xFF for
none, and the present member, which the module writes, in byte 8 (DESIGN CHOICE, log entry 46). -/
def State.balAddr (s : State) (g : Nat) : Nat := s.rd R.FABS.BAL_BASE 0 + 16 * g
/-- Present member of a work group. -/
def State.balMember (s : State) (g : Nat) : Nat := s.mval (s.balAddr g + 8) 1
/-- Alternates of a work group. -/
def State.balAlts (s : State) (g : Nat) : List Nat := ((s.mrd (s.balAddr g + 1) 3).map BitVec.toNat).filter (· != 0xFF)

/-- Is the balancer table in the partition's memory. -/
def State.balTable (s : State) (p : Nat) : Bool := s.inPart p (s.balAddr 0) 4096

/-- The leader's move: when the last READY came more than THRESH µs after the median, the lowest group of that member with an
alternate goes to the alternate whose READY came first. -/
def State.balMoves (s : State) (p : Nat) : List (Nat × Nat) :=
  let r := sortBy (fun (a b : Nat × Nat) => decide (a.2 ≤ b.2)) (s.part p).roll.ready
  match r.getLast? with
  | none => []
  | some (m, t) =>
    let mid := (r.getD ((r.length - 1) / 2) (0, 0)).2 + (r.getD (r.length / 2) (0, 0)).2
    if !s.is R.GLB.SPAN_CTL_BAL_EN p || !s.balTable p || 2 * t ≤ mid + 2000 * s.rd R.FABS.BAL_CTL_THRESH_US 0 ||
        s.rd R.FABS.BAL_CTL_MAX_MOVES 0 == 0 then []
    else
      match (List.range 256).find? (fun g => s.balMember g == m && !(s.balAlts g).isEmpty) with
      | none => []
      | some g =>
        match (r.map (·.1)).find? (fun x => (s.balAlts g).contains x) with
        | some x => [(g, x)]
        | none => []

/-- Moves as the payload of a GO: group and member, 2 bytes each move (log entry 46). -/
def movesPayload (l : List (Nat × Nat)) : List Byte := l.flatMap (fun x => leBytes 1 x.1 ++ leBytes 1 x.2)
/-- Moves out of a GO. -/
def payloadMoves (f : List Byte) : List (Nat × Nat) :=
  (List.range (fieldLE f 6 2 / 2)).map (fun i => (byteAt f (28 + 2 * i), byteAt f (29 + 2 * i)))

/-- A member applies the moves of a roll call (R309, R392). -/
def State.applyMoves (p : Nat) (s : State) : State :=
  let l := (s.part p).roll.moves
  let s := s.onRoll p (fun r => { r with moves := [] })
  s.each l (fun x s =>
    let s := s.whenB (s.balTable p) (fun s => s.mwr (s.balAddr x.1 + 8) (leBytes 1 x.2))
    (s.nonDet p R.GLB.ND_BALANCE).flagCount R.FABS.EVT_BAL_MOVE R.FABS.BAL_MOVE_CNT 0)

/-! ### The roll call (R305 to R307) -/

/-- A member takes a GO: the roll call is over and its equalising delay runs. -/
def State.takeGo (p : Nat) (moves : List (Nat × Nat)) (s : State) : State :=
  let s := s.onRoll p (fun r => { r with delay := true, ready := [], moves := moves })
  (s.wr R.GLB.STAT_ROLL_WAIT p 0).count R.GLB.ROLL_CNT p

/-- The leader holds a READY: with all of them it sends GO. -/
def State.leaderReady (p src : Nat) (s : State) : State :=
  if (s.part p).roll.ready.any (fun x => x.1 == src) then s
  else
    let s := s.onRoll p (fun r => { r with ready := r.ready ++ [(src, s.clk.devTime)] })
    if (s.part p).roll.ready.length = s.spanSize p then
      let mv := s.balMoves p
      (s.rollDown p rcGo (movesPayload mv)).takeGo p mv
    else s

/-- A member at its step boundary sends READY (R305). -/
def State.rollStart (p : Nat) (s : State) : State :=
  let r := (s.part p).roll
  if r.failed || r.delay || s.is R.GLB.STAT_ROLL_WAIT p then s
  else
    let s := (s.wr R.GLB.STAT_ROLL_WAIT p 1).onRoll p (fun r => { r with since := s.clk.devTime })
    let j := s.spanPos p
    if j = 0 then s.leaderReady p 0 else s.sendRoll p rcReady (rollParent j) j []

/-- FORM_STEP: at a boundary the changes that wait take effect, and the next step is formed; a span partition first calls
the roll. -/
def execFormStep (part : Fin 12) (s : State) : Host.Outcome State Fault Refusal :=
  let p := part.val
  if s.isSpan p then
    if s.partExists p && !s.stepRuns p then
      let s := s.boundary p
      .next (if !s.mayForm p then s.freePieces p else if s.piecesRun p then s.holdPieces p else (s.holdPieces p).rollStart p)
    else .next s
  else .next (s.boundaryForm p)

/-- A ROLL flit on its link (R385 to R387): one of the partition with the code is acted on; another of these partitions' flits is no event of
this command. -/
def State.rollIn (p code : Nat) (x : PortFlit) (act : State → State) (s : State) : State :=
  let n := x.port.val
  let (ok, s) := s.linkReceive n x.flit
  if !ok then s
  else if flitType x.flit ≠ ftRoll then s.dropOn n
  else s.handFlit n x.flit (fun q s => s.whenB (q == p && fieldLE x.flit 24 4 == code) act)

/-- ROLL_READY: the leader collects it, another member passes it up the tree. -/
def execRollReady (part : Fin 12) (payload : PortFlit) (s : State) : Host.Outcome State Fault Refusal :=
  let p := part.val
  let src := byteAt payload.flit 5
  .next (s.rollIn p rcReady payload (fun s =>
    if s.spanPos p = 0 then s.leaderReady p src else s.sendRoll p rcReady (rollParent (s.spanPos p)) src []))

/-- ROLL_GO: passed down; the equalising delay starts. -/
def execRollGo (part : Fin 12) (payload : PortFlit) (s : State) : Host.Outcome State Fault Refusal :=
  let p := part.val
  let mv := payloadMoves payload.flit
  .next (s.rollIn p rcGo payload (fun s =>
    s.whenB (s.is R.GLB.STAT_ROLL_WAIT p) (fun s => (s.rollDown p rcGo (movesPayload mv)).takeGo p mv)))

/-- ROLL_ABORT: passed down; no span step until ROLL_RETRY. -/
def execRollAbort (part : Fin 12) (payload : PortFlit) (s : State) : Host.Outcome State Fault Refusal :=
  .next (s.rollIn part.val rcAbort payload (fun s => s.leaderAbort part.val))

/-- ROLL_REPLAY: the leader forwards it down the tree; every member acts on it (R390). -/
def execRollReplay (part : Fin 12) (payload : PortFlit) (s : State) : Host.Outcome State Fault Refusal :=
  .next (s.rollIn part.val rcReplay payload (fun s => s.leaderReplay part.val))

/-- Have n times GLB_ROLL_TMO ms of device time passed since the member's own boundary (R307). -/
def State.rollOver (s : State) (p n : Nat) : Bool := s.passed (s.part p).roll.since (n * (1000000 * s.rd R.GLB.ROLL_TMO p))

/-- ROLL_TIMEOUT: the leader misses a READY within GLB_ROLL_TMO of its own boundary. -/
def execRollTimeout (part : Fin 12) (s : State) : Host.Outcome State Fault Refusal :=
  let p := part.val
  if s.isSpan p && s.spanPos p == 0 && s.is R.GLB.STAT_ROLL_WAIT p && s.rollOver p 1 then .next (s.leaderAbort p) else .next s

/-- ROLL_WAIT_TIMEOUT: a member hears nothing within twice GLB_ROLL_TMO. -/
def execRollWaitTimeout (part : Fin 12) (s : State) : Host.Outcome State Fault Refusal :=
  let p := part.val
  if s.isSpan p && s.is R.GLB.STAT_ROLL_WAIT p && s.rollOver p 2 then .next (s.rollFail p) else .next s

/-- EQUALISING_DELAY_END: the moves are applied and the step is formed; the moves count as timing-dependent choices of that step (R298, R305,
R309, R392). -/
def execEqualisingDelayEnd (part : Fin 12) (s : State) : Host.Outcome State Fault Refusal :=
  let p := part.val
  if !(s.part p).roll.delay then .next s
  else
    let s := s.onRoll p (fun r => { r with delay := false, count := 0, replayed := false })
    let moved := !(s.part p).roll.moves.isEmpty
    .next (((s.applyMoves p).boundaryForm p).whenB moved (fun s => s.noteStep p (fun t => { t with clean := false })))

/-- GLB_SPAN_CTL.ROLL_RETRY (R307, R310): ignored and refused while a roll call runs, which it does until the equalising delay ends
(R305). -/
def State.actRollRetry (p : Nat) (s : State) : State :=
  if s.is R.GLB.STAT_ROLL_WAIT p || (s.part p).roll.delay then s.refuseWrite .glb p else s.onRoll p (fun r => { r with failed := false })

/-- ROLL_RETRY. -/
def execRollRetry (part : Fin 12) (s : State) : Host.Outcome State Fault Refusal := .next (s.ofPart part.val (State.actRollRetry part.val))

/-! ### Span formation (R388, R392, R396) -/

/-- Partitions with a span tag. -/
def State.tagged (s : State) : List Nat := (List.range 12).filter (fun p => s.spanTag p != 0)

/-- Members of the module's spans other than itself, and its position. -/
def State.spanMembers (s : State) : Nat × List Nat :=
  let ps := s.tagged.filter s.isSpan
  let size := ps.foldl (fun m p => max m (s.spanSize p)) 0
  let pos := s.rd R.GLBG.STRAP_POSITION 0
  (pos, (List.range size).filter (· != pos))

/-- Measured latency of a member in `lats`: bits [15:0] hc, [19:16] links, bit 32 set when it did not answer, bit 33 when a link of the route
runs a version below 2.0. -/
def measured (lats : List Nat) (m : Nat) : Nat × Nat × Bool :=
  match lats[m]? with
  | some x => (bits x 0 16, bits x 16 4, !x.testBit 32)
  | none => (0, 0, false)

/-- Does a link of the route to a member run a version below 2.0 (R392): its first link as the port says, the others as the measurement
found. -/
def State.oldLink (s : State) (lats : List Nat) (m : Nat) : Bool :=
  s.rd R.FAB.STAT_VERSION (s.route m).port != 3 || (lats.getD m 0).testBit 33

/-- The first reason to refuse a formation: (member, reason). -/
def State.formFault (s : State) (lats : List Nat) : Option (Nat × Nat) :=
  let (pos, ms) := s.spanMembers
  let one (m : Nat) : Option (Nat × Nat) :=
    let (_, hops, ok) := measured lats m
    if !ok || !s.routeUp m then some (m, 1)
    else if (rollParent m == pos && m != 0 || pos != 0 && rollParent pos == m) && decide (4 < hops) then some (m, 2)
    else if 8 < hops then some (m, 3)
    else if s.tagged.any (fun p => s.isSpan p && s.is R.GLB.SPAN_CTL_BAL_EN p) && s.oldLink lats m then some (m, 5)
    else none
  match ms.findSome? one with
  | some x => some x
  | none =>
    let top := ms.foldl (fun (a : Nat × Nat) m => if a.2 < (measured lats m).1 then (m, (measured lats m).1) else a) (0, 0)
    if s.rd R.FABS.DELIVER_HC 0 < cdiv (11 * (top.2 + 800)) 10 + 12 then some (top.1, 4) else none

/-- FAB_SPAN_CTL.FORM: refused while a partition with a tag forms steps; else the routes are measured and the span formed, or
the failure recorded. A measuring flit goes to every member on its route. -/
def State.actForm (lats : List Nat) (s : State) : State :=
  if s.tagged.any s.formsSteps then s.refuseWrite .fabS 0
  else
    let (pos, ms) := s.spanMembers
    let s := s.each (ms.filter s.routeUp) (fun m s => s.linkOn (s.route m).port (measuringFlit m pos 0 (leBytes 8 s.clk.devTime)))
    let s := s.each ms (fun m s => let x := measured lats m; s.onRoute m (fun r => { r with lat := x.1, hops := x.2.1 }))
    match s.formFault lats with
    | some (m, reason) => ((s.wr R.FABS.FORM_ERR_MEMBER 0 m).wr R.FABS.FORM_ERR_REASON 0 reason).raise R.FABS.EVT_FORM_FAIL 0
    | none =>
      -- the group-to-member assignment starts at the home members
      let s := s.each (s.tagged.filter (fun p => s.isSpan p && s.is R.GLB.SPAN_CTL_BAL_EN p && s.balTable p)) (fun _ s =>
        s.each (List.range 256) (fun g s => s.mwr (s.balAddr g + 8) (s.mrd (s.balAddr g) 1)))
      (s.wr R.FABS.STAT_FORMED 0 1).raise R.FABS.EVT_FORMED_EVT 0

/-- FORM. `lats` gives what the measuring flits found, by member. -/
def execForm (lats : List Nat) (s : State) : Host.Outcome State Fault Refusal := .next (s.actForm lats)

/-! ### Links (R378, R383, R386) -/

/-- Number of a version in VERSION: 1 is 1.0, 2 is 1.1, 3 is 2.0; the highest in a mask. -/
def topVersion (mask : Nat) : Nat := if mask.testBit 2 then 3 else if mask.testBit 1 then 2 else if mask.testBit 0 then 1 else 0

/-- PORT_TRAINED: in fabric mode `peer` holds the peer's version mask and span position (one byte each), and `latency` half
the smallest round trip. -/
def execPortTrained (port : Fin 16) (peer : List Byte) (latency : Nat) (s : State) : Host.Outcome State Fault Refusal :=
  let n := port.val
  if !s.en .fab n || s.is R.FAB.STAT_LINK_UP n || s.inDoze || s.pwr.move == 1 || !s.clk.refOn then .next s
  else
    let s := s.wr R.FAB.STAT_TRAINING n 0
    if s.rd R.FAB.PORT_CFG_MODE n = 0 then .next ((s.wr R.FAB.STAT_LINK_UP n 1).raise R.FAB.EVT_LINK_UP_EVT n)
    else
      let v := topVersion (byteAt peer 0 &&& s.rd R.FAB.PORT_CFG_VERSIONS n)
      if v = 0 then .next (s.raise R.FAB.EVT_VERSION_FAIL n)
      else
        -- the exchange and the measurement show what they found, whether the link then comes up or not (R383, R386)
        let s := (s.wr R.FAB.PEER_POS_POS n (byteAt peer 1)).wr R.FAB.LINK_LAT n latency
        let pos := s.rd R.GLBG.STRAP_POSITION 0
        let s := s.each (List.range 64) (fun _ s => s.linkOn n (measuringFlit (byteAt peer 1) pos 0 (leBytes 8 s.clk.devTime)))
        if 300 < latency then .next (s.raise R.FAB.EVT_VERSION_FAIL n)
        else .next ((((s.wr R.FAB.PEER_POS_VALID n 1).wr R.FAB.STAT_VERSION n v).wr R.FAB.STAT_LINK_UP n 1).raise R.FAB.EVT_LINK_UP_EVT n)

/-- PORT_LINK_DOWN. -/
def execPortLinkDown (port : Fin 16) (s : State) : Host.Outcome State Fault Refusal :=
  if s.is R.FAB.STAT_LINK_UP port.val then .next (s.portDown port.val) else .next s

/-- WENTAR_ACK_TIMEOUT: no acknowledgement for 2 µs of device time (R9, R385). -/
def execWentarAckTimeout (port : Fin 16) (s : State) : Host.Outcome State Fault Refusal :=
  .next (s.whenB (s.passed (s.port port.val).since 2000) (fun s => s.resendPort port.val))

/-- A LINK flit of a link that is up, or that trains in fabric mode: without payload it asks for a resend from LACK + 1; a measuring flit goes
on to the member that it names, and is answered there (R385, R386, R388; log entry 44). -/
def State.takeLink (n : Nat) (f : List Byte) (s : State) : State :=
  let pos := s.rd R.GLBG.STRAP_POSITION 0
  let dest := byteAt f 4
  if flitReserved f then s.dropOn n
  else if fieldLE f 6 2 = 0 then s.resendPort n
  else if s.is R.FAB.STAT_LINK_UP n && dest != pos then
    (if s.routeUp dest then s.linkOn (s.route dest).port f else s.dropOn n)
  else if fieldLE f 24 4 = 0 then
    let back := if s.routeUp (byteAt f 5) then (s.route (byteAt f 5)).port else n
    s.linkOn back (measuringFlit (byteAt f 5) pos 1 ((f.drop 28).take (fieldLE f 6 2)))
  else s

/-- WENTAR_LINK: a LINK flit; while the link trains, the peer's measuring flits are answered (R386). -/
def execWentarLink (port : Fin 16) (flit : List Byte) (s : State) : Host.Outcome State Fault Refusal :=
  let n := port.val
  if flitType flit ≠ ftLink then .next s
  else if !s.is R.FAB.STAT_LINK_UP n then
    .next (s.whenB (s.is R.FAB.STAT_TRAINING n && s.rd R.FAB.PORT_CFG_MODE n == 1) (fun s =>
      let s := s.bump R.FAB.RX_BYTES n flit.length
      if !flitOk flit then s.count R.FAB.CRC_FLIT_CNT n else s.takeLink n flit))
  else
    let (ok, s) := s.linkReceive n flit
    .next (s.whenB ok (fun s => s.takeLink n flit))

/-! ### Remote writes (R387, R389, R390) -/

/-- Bursts of a WRITE flit as writes that wait for DELIVER; a flit without payload is one without data, for its signal. -/
def flitWrites (f : List Byte) : List SpanWrite :=
  let a := fieldLE f 16 8
  let n := max 1 (fieldLE f 6 2 / 64)
  (List.range n).map (fun i =>
    { member := byteAt f 4, hub := bits a 28 2, core := bits a 20 8, scr := bits a 0 20 + 64 * i, deliver := fieldLE f 12 4
      data := (f.drop (28 + 64 * i)).take (min 64 (fieldLE f 6 2)), poison := (byteAt f 1).testBit 0 && (byteAt f 1).testBit (4 + i)
      sig := if (byteAt f 1).testBit 1 && i + 1 == n then some (fieldLE f 24 4 % 256) else none })

/-- A WRITE flit for a partition of this module: dropped, late, or held until its DELIVER count. -/
def State.takeWrite (n : Nat) (f : List Byte) (p : Nat) (s : State) : State :=
  let a := fieldLE f 16 8
  let len := fieldLE f 6 2
  if len % 64 ≠ 0 ∨ 256 < len ∨ 192 ≤ bits a 20 8 ∨ s.partOfCore (bits a 28 2) (bits a 20 8) ≠ some p ∨ 2 ^ 20 < bits a 0 20 + len then s.dropOn n
  else if (s.part p).step.phase == .cut || decide (fieldLE f 12 4 < (s.part p).roll.count) then s.lateFlit p n
  else s.onPart p (fun q => { q with spanIn := q.spanIn ++ flitWrites f })

/-- WENTAR_WRITE: received in order, forwarded on its route when it is for another member, else taken. A BAL flit of a 2.0 link carries
nothing that the spec states, and has no effect where it is taken; another type is dropped (R383, R384; DESIGN CHOICE, log entry 136). -/
def execWentarWrite (port : Fin 16) (flit : List Byte) (s : State) : Host.Outcome State Fault Refusal :=
  let n := port.val
  let (ok, s) := s.linkReceive n flit
  if !ok then .next s
  else if flitType flit = ftWrite then .next (s.handFlit n flit (fun p s => s.takeWrite n flit p))
  else if flitType flit = ftBal ∧ s.rd R.FAB.STAT_VERSION n = 3 then .next (s.handFlit n flit (fun _ s => s))
  else .next (s.dropOn n)

/-- Write one held burst into its scratch and give its signal. Poison of a flit has no origin: the burst is taken as memory of
the request (DEDUCED, log entry 47). -/
def State.deliverWrite (p : Nat) (w : SpanWrite) (s : State) : State :=
  let s := s.scrWr (192 * w.hub + w.core) w.scr w.data (if w.poison then oRequest else 0)
  match w.sig with | some e => s.signal p w.hub e | none => s

/-- WRITE_DELIVER: the partition's step count has reached `count`. -/
def execWriteDeliver (part : Fin 12) (count : Nat) (s : State) : Host.Outcome State Fault Refusal :=
  let p := part.val
  if !s.stepRuns p then .next s
  else
    let due := sortBy (fun (a b : SpanWrite) => decide (a.deliver ≤ b.deliver)) ((s.part p).spanIn.filter (fun w => decide (w.deliver ≤ count)))
    let s := s.onPart p (fun q => { q with spanIn := q.spanIn.filter (fun w => !decide (w.deliver ≤ count)) })
    let s := s.onRoll p (fun r => { r with count := max r.count count })
    .next (s.each due (fun w s => s.deliverWrite p w))

/-! ### Ethernet mode (R379 to R382) -/

/-- One step of the frame check sequence of IEEE 802.3. -/
def fcsBit (c : Nat) : Nat := if c % 2 = 1 then (c / 2) ^^^ 0xEDB88320 else c / 2
/-- The frame check sequence over some bytes (PRESUMED from IEEE 802.3, log entry 48). -/
def fcs (m : List Byte) : Nat :=
  (m.foldl (fun c b => (List.range 8).foldl (fun c _ => fcsBit c) (c ^^^ b.toNat)) 0xFFFFFFFF) ^^^ 0xFFFFFFFF

/-- Big-endian value of n bytes at an offset, as the network protocols order them (log entry 48). -/
def fieldBE (b : List Byte) (o n : Nat) : Nat := leNat ((b.drop o).take n).reverse

/-- Is a frame whole. -/
def frameOk (f : List Byte) : Bool := decide (18 ≤ f.length) && fieldLE f (f.length - 4) 4 == fcs (f.take (f.length - 4))

/-- Offset of the EtherType behind the tag that the port expects; none when the tagging does not fit. -/
def typeAt (tagOn : Bool) (vid pcp : Nat) (f : List Byte) : Option Nat :=
  let tagged := fieldBE f 12 2 == 0x8100
  if tagOn then
    if tagged && fieldBE f 14 2 % 4096 == vid && fieldBE f 14 2 / 8192 == pcp then some 16 else none
  else if tagged then none else some 12

/-- EtherType offset on a port. -/
def State.portType (s : State) (n : Nat) (f : List Byte) : Option Nat :=
  typeAt (s.is R.FAB.VLAN_TAG_EN n) (s.rd R.FAB.VLAN_VID n) (s.rd R.FAB.VLAN_PCP n) f

/-- Is a frame a neighbour solicitation, its IPv6 header at an offset. -/
def isSolicit (f : List Byte) (o : Nat) : Bool := fieldBE f o 2 == 0x86DD && byteAt f (o + 8) == 58 && byteAt f (o + 42) == 135

/-- Is a RoCE v2 packet one that R379 supports, by the opcode and destination queue pair of its transport header: SEND, SEND with Invalidate,
RDMA WRITE and acknowledgements of reliable connections, RDMA CM on queue pair 1, and congestion notifications (PRESUMED from the InfiniBand
specification, log entry 48). -/
def roceOk (b : List Byte) : Bool :=
  let op := byteAt b 0
  [0x00, 0x01, 0x02, 0x04, 0x06, 0x07, 0x08, 0x0A, 0x11, 0x16, 0x17, 0x81].contains op || (op == 0x64 && fieldBE b 5 3 == 1)

/-- Is the payload behind the EtherType one that R379 lists. -/
def State.payloadOk (s : State) (n : Nat) (f : List Byte) (o : Nat) : Bool :=
  match fieldBE f o 2 with
  | 0x0806 => true
  | 0x8808 => s.is R.FAB.ETH_CTL_PFC_EN n && fieldBE f (o + 2) 2 == 0x0101
  | 0x0800 =>
    s.rd R.FAB.IP4 n != 0 && byteAt f (o + 2) == 0x45 && fieldBE f (o + 8) 2 % 16384 == 0 &&
    ((byteAt f (o + 11) == 17 && fieldBE f (o + 24) 2 == 4791 && roceOk (f.drop (o + 30))) || (byteAt f (o + 11) == 1 && byteAt f (o + 22) == 8))
  | 0x86DD =>
    (byteAt f (o + 8) == 17 && fieldBE f (o + 44) 2 == 4791 && roceOk (f.drop (o + 50))) ||
    (byteAt f (o + 8) == 58 && [128, 135, 136].contains (byteAt f (o + 42)))
  | _ => false

/-- Is a frame's packet marked CE. -/
def isCe (f : List Byte) (o : Nat) : Bool :=
  (fieldBE f o 2 == 0x0800 && byteAt f (o + 3) % 4 == 3) || (fieldBE f o 2 == 0x86DD && fieldBE f (o + 2) 4 / 2 ^ 20 % 4 == 3)

/-- MAC address of a port, in the order in which a frame carries it. -/
def macBytes (v : Nat) : List Byte := (leBytes 6 v).reverse

/-- Is a frame's destination the port's own address or broadcast; for a neighbour solicitation also the multicast address of the port's IPv6
address, and for PFC that of MAC control (R382; PRESUMED from IEEE 802.3 and the IPv6 standards, log entry 48). -/
def State.macOk (s : State) (n : Nat) (f : List Byte) (o : Nat) : Bool :=
  let dst := f.take 6
  let mac := if n < 16 then s.rd R.FAB.MAC n else s.rd R.MGT.LAN_MAC 0
  dst == macBytes mac || dst == List.replicate 6 0xFF ||
    (isSolicit f o && dst == [0x33, 0x33, 0xFF] ++ (leBytes 3 (s.ip6Of n)).reverse) ||
    (fieldBE f o 2 == 0x8808 && dst == [0x01, 0x80, 0xC2, 0x00, 0x00, 0x01])

/-- Is a frame's payload one that R447 lists for the management port: ARP, neighbour protocols, and UDP on MGT_LAN_PORT. -/
def State.lanPayloadOk (s : State) (f : List Byte) (o : Nat) : Bool :=
  let port := s.rd R.MGT.LAN_PORT 0
  match fieldBE f o 2 with
  | 0x0806 => s.ip4Of 16 != 0
  | 0x0800 => s.ip4Of 16 != 0 && byteAt f (o + 11) == 17 && fieldBE f (o + 24) 2 == port
  | 0x86DD => (byteAt f (o + 8) == 17 && fieldBE f (o + 44) 2 == port) || (byteAt f (o + 8) == 58 && [135, 136].contains (byteAt f (o + 42)))
  | _ => false

/-- Does the management port support a frame (R447): whole, untagged, of at most 1,518 bytes. -/
def State.lanFrameOk (s : State) (f : List Byte) : Bool :=
  frameOk f && decide (f.length ≤ 1518) && (typeAt false 0 0 f).isSome && s.macOk 16 f 12 && s.lanPayloadOk f 12

/-- Is a port up for neighbour protocols: a network port in Ethernet mode, or the management port. -/
def State.neighbourUp (s : State) (n : Nat) : Bool := if n < 16 then s.portUp n 0 else s.is R.MGT.STAT_LAN_UP 0

/-- A frame arrives on a network port, or on the management port, number 16: counted, and dropped where R379, R382 or R447 does not take it. The
offset of its EtherType when it is taken. -/
def State.frameIn_ (n : Nat) (f : List Byte) (s : State) : Option Nat × State :=
  if !s.neighbourUp n then (none, s)
  else if n = 16 then (if s.lanFrameOk f then (some 12, s) else (none, s.count R.MGT.LAN_DROP_CNT 0))
  else
    let s := s.bump R.FAB.RX_BYTES n f.length
    if !frameOk f then (none, s.count R.FAB.CRC_FLIT_CNT n)
    else match s.portType n f with
      | none => (none, s.dropOn n)
      | some o => if !s.macOk n f o || 4352 < f.length || !s.payloadOk n f o then (none, s.dropOn n) else (some o, s)

/-- Nanoseconds of a PFC timer, in units of 512 bit times of the port (IEEE 802.1Qbb; PRESUMED, log entry 48). -/
def pfcNs (t : Nat) : Nat := cdiv (64 * t) 100

/-- A PFC frame for the configured priority stops the port's packets for its time; a time of 0 lets them go on (R379). -/
def State.takePfc (n : Nat) (f : List Byte) (o : Nat) (s : State) : State :=
  let prio := s.rd R.FAB.ETH_CTL_PFC_PRIO n
  if (fieldBE f (o + 4) 2).testBit prio then
    (s.onPort n (fun q => { q with pausedTo := s.clk.devTime + pfcNs (fieldBE f (o + 6 + 2 * prio) 2) })).goOn n
  else s

/-- ETHERNET_FRAME: a frame with its FCS; dropped and counted where R379 or R382 does not take it. A packet marked CE is answered with a
congestion notification, of a length that the spec does not state (R381). -/
def execEthernetFrame (port : Fin 16) (frame : List Byte) (s : State) : Host.Outcome State Fault Refusal :=
  let n := port.val
  match s.frameIn_ n frame with
  | (none, s) => .next s
  | (some o, s) =>
    if fieldBE frame o 2 = 0x8808 then .next (s.takePfc n frame o)
    else if s.is R.FAB.ETH_CTL_ECN_EN n && isCe frame o then
      let (len, s) := s.takeFree
      .next (s.send n (.cnp ((frame.drop 6).take 6) (s.ipMark n (fieldBE frame o 2 == 0x0800))) len)
    else .next s

/-- Record an answer of a network port, or of the management port, to a frame of a number of bytes: it has as many (DEDUCED, log entry
135). -/
def State.answerOn (n : Nat) (x : NetOut) (bytes : Nat) (s : State) : State :=
  if n < 16 then s.send n x bytes else { s with mgt := { s.mgt with net := s.mgt.net ++ [x] } }

/-- ARP: a request for the port's own IPv4 address is answered. -/
def execArp (port : Fin 17) (frame : List Byte) (s : State) : Host.Outcome State Fault Refusal :=
  let n := port.val
  match s.frameIn_ n frame with
  | (none, s) => .next s
  | (some o, s) =>
    if fieldBE frame o 2 == 0x0806 && fieldBE frame (o + 8) 2 == 1 && s.ip4Of n != 0 && fieldBE frame (o + 26) 4 == s.ip4Of n then
      .next (s.answerOn n (.arpReply ((frame.drop (o + 10)).take 6) ((frame.drop (o + 16)).take 4)) frame.length)
    else .next s

/-- NEIGHBOUR_SOLICITATION: one for the port's own IPv6 address is answered with an advertisement. -/
def execNeighbourSolicitation (port : Fin 17) (frame : List Byte) (s : State) : Host.Outcome State Fault Refusal :=
  let n := port.val
  match s.frameIn_ n frame with
  | (none, s) => .next s
  | (some o, s) =>
    if isSolicit frame o && fieldBE frame (o + 50) 16 == s.ip6Of n then
      .next (s.answerOn n (.advert ((frame.drop 6).take 6) ((frame.drop (o + 50)).take 16) (s.ipMark n false)) frame.length)
    else .next s

/-- ECHO_REQUEST: an ICMP or ICMPv6 echo request to the port's own address is answered with its data; the management port drops
and counts it (R447). -/
def execEchoRequest (port : Fin 17) (frame : List Byte) (s : State) : Host.Outcome State Fault Refusal :=
  let n := port.val
  match s.frameIn_ n frame with
  | (none, s) => .next s
  | (some o, s) =>
    let answer (h : Nat) (v4 : Bool) : State :=
      s.answerOn n (.echoReply ((frame.drop 6).take 6) ((frame.take (frame.length - 4)).drop (o + h)) (s.ipMark n v4)) frame.length
    if fieldBE frame o 2 = 0x0800 ∧ byteAt frame (o + 11) = 1 ∧ byteAt frame (o + 22) = 8 ∧ fieldBE frame (o + 18) 4 = s.ip4Of n then .next (answer 26 true)
    else if fieldBE frame o 2 = 0x86DD ∧ byteAt frame (o + 8) = 58 ∧ byteAt frame (o + 42) = 128 ∧ fieldBE frame (o + 26) 16 = s.ip6Of n then
      .next (answer 46 false)
    else .next s

/-- Line rate of a port in bit/s. -/
def lineRate : Nat := 800000000000
/-- Send rate of a queue pair. -/
def PortSt.rate (q : PortSt) (qp : Nat) : Nat := AMap.getD q.rates qp lineRate

/-- CONGESTION_NOTIFICATION, on a port in Ethernet mode that is up: counted; the queue pair's rate is halved, with a floor of 1 Gb/s. -/
def execCongestionNotification (port : Fin 16) (qp : Nat) (s : State) : Host.Outcome State Fault Refusal :=
  let n := port.val
  if !s.portUp n 0 then .next s
  else
  let s := s.count R.FAB.CNP_CNT n
  .next (s.whenB (s.is R.FAB.ETH_CTL_ECN_EN n) (fun s => s.onPort n (fun q => { q with
    rates := AMap.put q.rates qp (max 1000000000 (q.rate qp / 2)) lineRate, rateAt := AMap.put q.rateAt qp s.clk.devTime 0 })))

/-- RATE_INCREASE_TIMER: each 50 µs of device time without a notification raise the rate by 5 % of the line rate. -/
def execRateIncreaseTimer (port : Fin 16) (qp : Nat) (s : State) : Host.Outcome State Fault Refusal :=
  let n := port.val
  .next (s.whenB (s.is R.FAB.ETH_CTL_ECN_EN n && s.passed (AMap.getD (s.port n).rateAt qp 0) 50000) (fun s => s.onPort n (fun q => { q with
    rates := AMap.put q.rates qp (min lineRate (q.rate qp + 40000000000)) lineRate, rateAt := AMap.put q.rateAt qp s.clk.devTime 0 })))

/-- May an RDMA WRITE to a run of bytes be accepted: the staging area of the partition's load, or the slot of a cover that it
fetches (R380). -/
def State.rdmaOk (s : State) (n qp a len : Nat) : Bool :=
  let p := qpPart qp
  decide (p < 12) && s.partExists p && (match AMap.get? s.fab.qps qp with | some q => q.port == n && !q.closed | none => false) &&
  ((match (s.part p).load with
    | some l => decide (l.stageAddr ≤ a) && decide (a + len ≤ l.stageAddr + l.stageBytes)
    | none => false) ||
   (s.part p).covers.any (fun c => !c.2.ready && decide (s.coverAddr p c.1 ≤ a) && decide (a + len ≤ s.coverAddr p c.1 + coverSlotBytes)))

/-- RDMA_WRITE: accepted, or dropped with its queue pair closed. What an rkey names is not stated: it is not judged. The bytes of its packets
are a free number of at least those of the data (R395). -/
def execRdmaWrite (port : Fin 16) (qp _rkey addr : Nat) (data : List Byte) (s : State) : Host.Outcome State Fault Refusal :=
  let n := port.val
  if !s.portUp n 0 then .next s
  else
  let (more, s) := s.takeFree
  let s := s.bump R.FAB.RX_BYTES n (data.length + more)
  if s.rdmaOk n qp addr data.length then .next (s.mwr addr data)
  else .next ((s.dropOn n).onFab (fun f => { f with qps := f.qps.map (fun e => if e.1 = qp then (e.1, { e.2 with closed := true }) else e) }))

end Sys2Proof.Machine
end

