-- ==== Sys2Proof/Machine/Security.lean ====
section
/-! DEFINITION. Life cycle, firmware stages, identity, and the creation and destruction of partitions (R376, R415 to R426,
R430 to R436, R482). -/
namespace Sys2Proof.Machine

/-- Change the security record. -/
def State.onSec (f : SecSt → SecSt) (s : State) : State := { s with sec := f s.sec }

/-! ### Life cycle (R415 to R418) -/

/-- Thermometer code of a life-cycle state. -/
def lcCode (st : Nat) : Nat := 2 ^ st - 1

/-- State of a thermometer code; none for another code. -/
def lcOfCode (c : Nat) : Option Nat := (List.range 5).find? (fun st => lcCode st == c)

/-- The state that three copies give, once an interrupted burn is completed; none where they form no such pattern (R415). -/
def lcDecide (l : List Nat) : Option Nat :=
  match l.map lcOfCode with
  | [some a, some b, some c] =>
    let near (x : Nat) : Bool := x == a || x + 1 == a
    if near b && near c && decide (c ≤ b) then some a else none
  | _ => none

/-- Life-cycle state: 0 FAB, 1 PROVISION, 2 FIELD, 3 RETURN, 4 SCRAP. -/
def State.lcState (s : State) : Nat := s.rd R.SECG.STAT_LC_STATE 0

/-- Is the steward debug port live (R496). -/
def State.debugLive (s : State) : Bool := s.lcState == 0 || s.lcState == 3

/-- Does a run of bytes lie in firmware memory: in memory and in no partition's range (R274). -/
def State.inFirmware (s : State) (a n : Nat) : Bool :=
  decide (memBase ≤ a) && decide (a + n ≤ memEnd) &&
    (List.range 12).all (fun p => (s.part p).ranges.all (fun r => !overlaps a n (rangeBase r) (rangeSize r)))

/-- Header of a stage (R420). -/
def hdrBytes : Nat := 272

/-- KEY_SLOT of a stage. -/
def stageSlot (b : List Byte) : Nat := byteAt b 9
/-- SVN of a stage. -/
def stageSvn (b : List Byte) : Nat := byteAt b 10
/-- PUBKEY of a stage. -/
def stageKey (b : List Byte) : List Byte := (b.drop 88).take 57

/-- Is a public key the fused key of a slot (R421). -/
def State.keyOfSlot (s : State) (slot : Nat) (key : List Byte) : Bool :=
  s.nv.keyDigests.getD slot [] == shake256 key 32 && !s.nv.revoked.testBit slot

/-- Firmware keys that the module holds: those in the headers of the stages that run and of those in the slots. Which key a
slot's digest stands for is known from such a header alone (DEDUCED, log entry 53). -/
def State.heldStages (s : State) : List (List Byte) :=
  s.sec.stage1 :: s.sec.stage2 :: s.nv.fw.flatMap (fun e => [e.2.stage1, e.2.stage2])

/-- Is the return token at SEC_LC_TOKEN_ADDR good (R418). -/
def State.tokenOk (s : State) (target : Nat) : Bool :=
  let a := s.rd R.SECG.LC_TOKEN_ADDR 0
  let t := s.mrd a 130
  s.inFirmware a 130 && !s.mbad a 130 && t.take 4 == ascii "KWRT" && byteAt t 4 == target && zerosAt t 5 3 &&
    fieldLE t 8 8 == s.nv.devId &&
    s.heldStages.any (fun h =>
      decide (1 ≤ stageSlot h) && decide (stageSlot h ≤ 3) && s.keyOfSlot (stageSlot h) (stageKey h) &&
        Config.ed448Verify (stageKey h) (t.take 16) ((t.drop 16).take 114))

/-- Is a transition in the table of R417 with its condition met. -/
def State.lcAllowed (s : State) (target : Nat) : Bool :=
  match s.lcState, target with
  | 0, 1 => s.nv.devId != 0
  | 1, 2 => s.is R.SECG.STAT_ID_EXISTS 0
  | 2, 3 => s.tokenOk target
  | st, 4 => decide (st ≤ 3)
  | _, _ => false

/-- SEC_LC_CTL.GO (R417): burns the target's bits in copies 0, 1 and 2; it takes effect at the next reset. -/
def State.actLcGo (s : State) : State :=
  let t := s.rd R.SECG.LC_CTL_TARGET 0
  if s.rd R.SECG.PART_STAT_EXISTS 0 != 0 || s.is R.SECG.STAT_LC_PENDING 0 || !s.lcAllowed t then s.raise R.SECG.EVT_LC_REFUSED 0
  else ((s.onNv (fun n => { n with lc := n.lc.map (· ||| lcCode t) })).wr R.SECG.STAT_LC_PENDING 0 1).raise R.SECG.EVT_LC_DONE 0

/-- LC_GO. -/
def execLcGo (s : State) : Host.Outcome State Fault Refusal := .next s.actLcGo

/-! ### Firmware stages (R416, R420, R421, R423, R424) -/

/-- Is a key slot permitted in a state (R416). -/
def slotAllowed (lc slot : Nat) : Bool :=
  if lc = 0 ∨ lc = 3 then decide (slot ≤ 3) else if lc = 1 ∨ lc = 2 then decide (1 ≤ slot) && decide (slot ≤ 3) else false

/-- Largest stage, its header with its code: what a slot holds of it (R420). -/
def stageMax (stage : Nat) : Nat := if stage = 1 then 2 ^ 20 else 48 * 2 ^ 20

/-- Is a stage, header and code, accepted (R421). -/
def State.stageOk (s : State) (stage : Nat) (b : List Byte) : Bool :=
  let len := fieldLE b 12 4
  let code := (b.drop hdrBytes).take len
  b.take 8 == ascii "KWFWSTG1" && byteAt b 8 == stage && zerosAt b 11 1 && zerosAt b 145 7 && zerosAt b 266 6 &&
    decide (hdrBytes + len ≤ stageMax stage) && code.length == len && decide (stageSvn b ≤ 64) &&
    s.keyOfSlot (stageSlot b) (stageKey b) && slotAllowed s.lcState (stageSlot b) &&
    Config.ed448Verify (stageKey b) (b.take 152) ((b.drop 152).take 114) &&
    shake256 code 64 == (b.drop 24).take 64 && decide (s.nv.svn ≤ stageSvn b)

/-- The content of a measurement block 1 to 4, as a SHA3-512 digest (R428). What the trailhead ROM holds is not stated. -/
def State.measure (s : State) (i : Nat) : List Byte :=
  sha3_512 (match i with
    | 1 => Config.trailhead
    | 2 => s.sec.stage1.drop hdrBytes ++ s.sec.stage1.take hdrBytes
    | 3 => s.sec.stage2.drop hdrBytes ++ s.sec.stage2.take hdrBytes
    | _ => [BitVec.ofNat 8 s.lcState, BitVec.ofNat 8 s.nv.svn, BitVec.ofNat 8 s.nv.revoked])

/-- The seed of the identity: that of a bank whose valid fuse is burned and whose check matches (R425). -/
def State.idSeed (s : State) : Option (List Byte) :=
  ((s.nv.banks.map (·.2)).find? (fun b => b.valid && b.check == shake256 b.seed 4)).map (·.seed)

/-- Derive the alias key (R426). -/
def State.deriveAlias (s : State) : State :=
  if s.lcState = 1 ∨ s.lcState = 2 then
    match s.idSeed with
    | some seed => s.onSec (fun c => { c with alias_ := shake256 (seed ++ [1, 2, 3, 4].flatMap s.measure) 57 })
    | none => s
  else s

/-- SEC_VERIFY.GO: the stage whose header is at SEC_VERIFY_ADDR in steward memory of hub 0 (log entry 54). An accepted stage 2
is the one that runs. -/
def State.actVerifyStage (s : State) : State :=
  let o := s.rd R.SECG.VERIFY_ADDR 0 - stewBase
  let inside := decide (stewBase ≤ s.rd R.SECG.VERIFY_ADDR 0) && decide (o + hdrBytes ≤ stewSize)
  let hdr := s.stewRd 0 o hdrBytes
  let len := fieldLE hdr 12 4
  let stage := byteAt hdr 8
  let fits := inside && decide (o + hdrBytes + len ≤ stewSize) && (stage == 1 || stage == 2) && decide (hdrBytes + len ≤ stageMax stage)
  let b := if fits then hdr ++ s.stewRd 0 (o + hdrBytes) len else []
  let ok := fits && s.stageOk stage b
  let s := (s.wr R.SECG.VERIFY_RESULT 0 (if ok then 1 else 2)).raise R.SECG.EVT_VERIFY_DONE 0
  s.whenB (ok && stage == 2) (fun s =>
    (((s.onSec (fun c => { c with stage2 := b })).wr R.SECG.SVN_RUNNING 0 (stageSvn b)).onMgt (fun m => { m with
      entry := o + hdrBytes + fieldLE b 16 8 })).deriveAlias)

/-- SEC_VERIFY. -/
def execSecVerify (s : State) : Host.Outcome State Fault Refusal := .next s.actVerifyStage

/-- SEC_SVN_CTL.COMMIT (R423). -/
def State.actSvnCommit (s : State) : State :=
  let r := s.rd R.SECG.SVN_RUNNING 0
  let s := s.whenB (decide (s.nv.svn < r)) (fun s => (s.onNv (fun n => { n with svn := r })).wr R.SECG.SVN_FUSED 0 r)
  s.raise R.SECG.EVT_SVN_DONE 0

/-- SVN_COMMIT. -/
def execSvnCommit (s : State) : Host.Outcome State Fault Refusal := .next s.actSvnCommit

/-- SEC_KEY_REVOKE.GO (R424): the slot of the running stage 2 and the last unrevoked slot of 1 to 3 are refused. A refusal
shows nowhere else; a SLOT above 3 names no fuse. -/
def State.actKeyRevoke (s : State) : State :=
  let k := s.rd R.SECG.KEY_REVOKE_SLOT 0
  let left := [1, 2, 3].filter (fun i => !s.nv.revoked.testBit i)
  if decide (3 < k) || (!s.sec.stage2.isEmpty && stageSlot s.sec.stage2 == k) || left == [k] then s
  else
    let m := s.nv.revoked ||| (1 <<< k)
    (s.onNv (fun n => { n with revoked := m })).wr R.SECG.KEY_STAT_REVOKED 0 m

/-- KEY_REVOKE. -/
def execKeyRevoke (s : State) : Host.Outcome State Fault Refusal := .next s.actKeyRevoke

/-! ### Identity (R425) -/

/-- Fields of SEC_ID_PUB0 to SEC_ID_PUB14. -/
def idPubFields : List Field :=
  [R.SECG.ID_PUB0, R.SECG.ID_PUB1, R.SECG.ID_PUB2, R.SECG.ID_PUB3, R.SECG.ID_PUB4, R.SECG.ID_PUB5, R.SECG.ID_PUB6, R.SECG.ID_PUB7,
   R.SECG.ID_PUB8, R.SECG.ID_PUB9, R.SECG.ID_PUB10, R.SECG.ID_PUB11, R.SECG.ID_PUB12, R.SECG.ID_PUB13, R.SECG.ID_PUB14]

/-- Show the identity, when there is one. -/
def State.showIdentity (s : State) : State :=
  match s.idSeed with
  | none => s
  | some seed =>
    let pub := (Config.ed448Public seed).take 57
    let s := s.each ((List.range 15).zip idPubFields) (fun x s => s.wr x.2 0 (fieldLE pub (4 * x.1) 4))
    s.wr R.SECG.STAT_ID_EXISTS 0 1

/-- SEC_ID_CTL.CREATE with 57 or more bytes from the entropy source: refused outside PROVISION (R416), when the identity
exists, or when both banks are spent. -/
def State.actIdCreate (entropy : List Byte) (s : State) : State :=
  let bank := [0, 1].find? (fun i => (AMap.get? s.nv.banks i).isNone)
  match bank with
  | some i =>
    if s.lcState != 1 || s.idSeed.isSome then s.refuseWrite .secG 0
    else
      let seed := shake256 entropy 57
      let b : SeedBank := { seed := seed, check := shake256 seed 4, valid := true }
      (s.onNv (fun n => { n with banks := AMap.set n.banks i b })).showIdentity
  | none => s.refuseWrite .secG 0

/-- ID_CREATE. -/
def execIdCreate (entropy : List Byte) (s : State) : Host.Outcome State Fault Refusal := .next (s.actIdCreate entropy)

/-! ### Creation of a partition (R376, R430, R431) -/

/-- Core sets that SEC_PART_CORES0 and SEC_PART_CORES1 name, by hub. -/
def State.namedSets (s : State) : List Nat :=
  [R.SECG.PART_CORES0_HUB0, R.SECG.PART_CORES0_HUB1, R.SECG.PART_CORES1_HUB2, R.SECG.PART_CORES1_HUB3].map (fun f => s.rd f 0)

/-- Is the die-to-die link between two hubs up, as both of them see it (R376). -/
def State.hubLinkUp (s : State) (a b : Nat) : Bool :=
  let i (x y : Nat) : Nat := if y < x then y else y - 1
  (s.rd R.NOC.STAT_HUB_LINK_UP a).testBit (i a b) && (s.rd R.NOC.STAT_HUB_LINK_UP b).testBit (i b a)

/-- Is a link down that a partition with these stacks and core sets needs (R376). -/
def State.linksDown (s : State) (stks : Nat) (sets : List Nat) : Bool :=
  let hubs := (List.range 4).filter (fun h => bits stks (3 * h) 3 != 0 || sets.getD h 0 != 0)
  hubs.any (fun a => hubs.any (fun b => decide (a < b) && !s.hubLinkUp a b)) ||
  (List.range 4).any (fun h => bits stks (3 * h) 3 != 0 && s.rd R.NOC.STAT_STACK_LINK_UP h != 7)

/-- The request that a write of SEC_PART_CTL makes. -/
def State.partReq (s : State) (create : Bool) : PartReq :=
  { create := create, part := s.rd R.SECG.PART_CTL_PART 0, stackSet := s.rd R.SECG.PART_STACKS 0, sets := s.namedSets, tag := s.rd R.SECG.PART_TAG 0 }

/-- Must a request wait for the clears of an earlier CREATE of another partition (R435). -/
def State.partWaits (s : State) (r : PartReq) : Bool :=
  (s.part r.part).clear.isEmpty && (List.range 12).any (fun p => !(s.part p).clear.isEmpty)

/-- Reason for which CREATE is refused (R430), the lowest that holds; 0 when it is accepted. -/
def State.createReason (s : State) (r : PartReq) : Nat :=
  let stks := r.stackSet
  let sets := r.sets
  if s.partExists r.part then 1
  else if (maskBits 12 stks).any (fun k => (s.ownerOf k).isSome) then 2
  else if (List.range 4).any (fun h => (maskBits 12 (sets.getD h 0)).any (fun n => (s.partOfCore h (16 * n)).isSome)) then 3
  else if s.linksDown stks sets then 4
  else if stks = 0 then 5
  else if s.lcState = 4 ∨ s.is R.SECG.STAT_LC_PENDING 0 then 8
  else 0

/-- Refuse a partition request with its reason. -/
def State.refusePart (r : Nat) (s : State) : State := (s.wr R.SECG.PART_ERR 0 r).raise R.SECG.EVT_PART_REFUSED 0

/-- SEC_PART_STAT.EXISTS and its mirror GLB_PARTS. -/
def State.setExists (m : Nat) (s : State) : State := (s.wr R.SECG.PART_STAT_EXISTS 0 m).wr R.GLBG.PARTS 0 m

/-- Set a partition's bit in SEC_PART_STAT.CLEARING from its record. -/
def State.setPartClearing (p : Nat) (s : State) : State :=
  let m := s.rd R.SECG.PART_STAT_CLEARING 0
  let off := if m.testBit p then m - 2 ^ p else m
  s.wr R.SECG.PART_STAT_CLEARING 0 (if (s.part p).clear.isEmpty then off else off + 2 ^ p)

/-- A draw from the entropy source (R425, R431). -/
def State.entropy (n : Nat) (s : State) : List Byte × State := (Config.random s.free n, { s with free := s.free + 1 })

/-- A created partition may run at once when the module is ACTIVE without a warning and all its stacks are ACTIVE; else it
starts in QUIET (DEDUCED, log entry 55). -/
def State.startsActive (s : State) (stks : Nat) : Bool :=
  s.rd R.PWR.STAT_MOD_STATE 0 == 1 && s.pwr.move == 0 && !s.is R.PWR.STAT_PFW 0 && (maskBits 12 stks).all (fun k => s.stackState k == 1)

/-- Creation is complete: PART_DONE (R431). -/
def State.createDone (p : Nat) (s : State) : State :=
  let tag := (s.part p).tag
  let s := s.each ((s.part p).clear.map (·.1)) (fun k s => s.onNv (fun n => { n with tags := AMap.put n.tags k tag 0 }))
  let s := s.whenB (!(s.part p).clear.isEmpty) State.freeTrains
  (((s.onPart p (fun q => { q with clear := [] })).setPartClearing p).raise R.SECG.EVT_PART_DONE 0).setProgramming

/-- A CREATE starts (R430, R431). -/
def State.createNow (q : PartReq) (s : State) : State :=
  let p := q.part
  if 12 ≤ p then
    -- no reason of R430 names a PART above 11
    let (r, s) := s.takeFree
    s.refusePart r
  else
    let r := s.createReason q
    if r != 0 then s.refusePart r
    else
      let stks := q.stackSet
      let sets := q.sets
      let tag := q.tag
      let (key, s) := s.entropy 128
      let ks := maskBits 12 stks
      let clear := (ks.filter (fun k => AMap.getD s.nv.tags k 0 != tag)).map (fun k =>
        (k, if (s.stk k).selfcal.isSome then 0 else 1))
      let on := s.startsActive stks
      let q : PartSt := { stks := stks, sets := sets, tag := tag, memKey := key, clear := clear }
      let s := (s.onPart p (fun _ => q)).setExists (s.rd R.SECG.PART_STAT_EXISTS 0 ||| (1 <<< p))
      let s := s.each (List.range 4) (fun h s => s.onHub h (fun u => { u with keys := AMap.set u.keys p key }))
      let s := s.each ((List.range 4).zip [R.DCR.CORE_SET0_HUB0, R.DCR.CORE_SET0_HUB1, R.DCR.CORE_SET1_HUB2, R.DCR.CORE_SET1_HUB3])
        (fun x s => s.wr x.2 p (sets.getD x.1 0))
      let s := s.wr R.GLB.SPAN_CTL_POSITION p (s.rd R.GLBG.STRAP_POSITION 0)
      let s := s.setPartState p (if on then 1 else 2)
      let s := s.whenB (!on) (fun s => s.each ks State.quietStack)
      let s := s.each (clear.filter (fun e => e.2 == 1)) (fun e s => s.clearStack e.1)
      let s := ((s.cfgFirst p).setPartClearing p).setProgramming
      s.whenB clear.isEmpty (fun s => s.createDone p)

/-! ### Destruction (R432) -/

/-- Reason for which DESTROY is refused; 0 when it is accepted. -/
def State.destroyReason (s : State) (p : Nat) : Nat :=
  let q := s.part p
  if !s.partExists p then 7
  else if s.en .srv p || s.en .kve p || s.loading p || q.covers.any (fun e => !e.2.ready) || q.spareRun.isSome || !q.clear.isEmpty then 6
  else 0

/-- The pages of a partition (R461). -/
def partPages : List Page := [.dcr, .kve, .srv, .wld, .sec, .glb, .rel]

/-- Zero every field of a partition's pages (R432 step 3). -/
def State.zeroPages (p : Nat) (s : State) : State :=
  s.each (partPages.flatMap (fun g => g.fields ++ [fieldEN g, fieldConfigRefused g, fieldRaceCnt g, fieldRefusedCnt g]))
    (fun f s => s.wr f p 0)

/-- End the SPDM sessions of a transport (R432, R435). -/
def State.endSessions (via : Nat) (s : State) : State :=
  let s := s.onSec (fun c => { c with sessions := c.sessions.filter (fun e => e.2.via != via), conns := AMap.erase c.conns via, lostHost := c.lostHost.filter (· != via) })
  s.wr R.SECG.SESSIONS 0 s.sec.sessions.length

/-- HLK_HOST_PARTS takes a value: the mailbox sessions of a partition that it no longer names end at the next access to the mailbox
(R435). -/
def State.hostParts (v : Nat) (s : State) : State :=
  let lost := (List.range 12).filter (fun p => (s.rd R.HLK.HOST_PARTS 0).testBit p && !v.testBit p && s.sec.sessions.any (fun e => e.2.via == p))
  (s.onSec (fun c => { c with lostHost := c.lostHost.filter (fun p => !lost.contains p) ++ lost })).wr R.HLK.HOST_PARTS 0 v

/-- An access to the mailbox of a partition (R435). -/
def State.mailboxUsed (p : Nat) (s : State) : State := s.whenB (s.sec.lostHost.contains p) (State.endSessions p)

/-- An array stack leaves its partition: accumulator files and drift records are zero (R432). -/
def State.freeFiles (k : Nat) (s : State) : State :=
  s.onStk k (fun u => { u with
    pairs := [], jobs := [], firing := [], drift := [], driftBase := 0, driftNext := [], stat := [], statPrev := [], masked := [] })

/-- A DESTROY starts (R432). -/
def State.destroyNow (p : Nat) (s : State) : State :=
  let r := if 12 ≤ p then 7 else s.destroyReason p
  if r != 0 then s.refusePart r
  else
    let s := ((s.endSessions p).closeSet p 0).closeSet p 1
    let s := s.each (s.ownCores p) (fun c s => { s with cores := AMap.erase s.cores c })
    let s := s.each (s.stacksOf p) State.freeFiles
    let s := s.each (s.part p).ranges (fun r s => s.dropRange p r)
    let s := s.each (List.range 4) (fun h s =>
      (s.onHub h (fun u => { u with
        keys := AMap.erase u.keys p
        vals := u.vals.filter (fun v => v.part != p), esc := u.esc.filter (fun e => e.part != p)
        topk := u.topk.filter (fun c => c.part != p), streams := u.streams.filter (fun x => x.part != p)
        events := u.events.filter (fun e => e.1 / 256 != p), partRegs := AMap.erase u.partRegs p
        clearing := u.clearing.filter (· != p) })).setClearing h)
    let s := (s.onPwr (fun w => { w with rising := w.rising.filter (· != p) })).setTransition
    let s := (s.zeroPages p).setPartState p 0
    let s := match tagFields[p]? with | some f => s.wr f 0 0 | none => s
    let s := s.each (List.range 16) (fun n s =>
      let m := s.rd R.FAB.PORT_CFG_OWNERS n
      s.wr R.FAB.PORT_CFG_OWNERS n (if m.testBit p then m - 2 ^ p else m))
    let m := s.rd R.SECG.PART_STAT_EXISTS 0
    let s := ({ s with parts := AMap.erase s.parts p }).setExists (m - 2 ^ p)
    s.raise R.SECG.EVT_PART_DONE 0

/-! ### Requests in write order (R435) -/

/-- A request starts. -/
def State.partRun (r : PartReq) (s : State) : State := if r.create then s.createNow r else s.destroyNow r.part

/-- A CREATE or DESTROY is written: it starts, or it waits while an earlier CREATE of another partition clears its stacks (R435). One that
names the partition that clears is judged at once: R432 refuses it for that with reason 6. -/
def State.partRequest (r : PartReq) (s : State) : State :=
  if s.partWaits r then s.onSec (fun c => { c with partQ := c.partQ ++ [r] }) else s.partRun r

/-- Requests that wait start in write order, until one clears stacks. -/
def State.partDrain : Nat → State → State
  | 0, s => s
  | n + 1, s =>
    match s.sec.partQ with
    | [] => s
    | r :: rest => if s.partWaits r then s else State.partDrain n ((s.onSec (fun c => { c with partQ := rest })).partRun r)

/-- SEC_PART_CTL.CREATE. -/
def State.actPartCreate (s : State) : State := s.partRequest (s.partReq true)

/-- PART_CREATE. -/
def execPartCreate (s : State) : Host.Outcome State Fault Refusal := .next s.actPartCreate

/-- SEC_PART_CTL.DESTROY. -/
def State.actPartDestroy (s : State) : State := s.partRequest (s.partReq false)

/-- PART_DESTROY. -/
def execPartDestroy (s : State) : Host.Outcome State Fault Refusal := .next s.actPartDestroy

/-- PART_CLEAR_DONE: the clears of a CREATE have ended, with those that waited for a self-calibration and ran after it (R482); then the
requests that waited start. -/
def execPartClearDone (part : Fin 12) (s : State) : Host.Outcome State Fault Refusal :=
  let p := part.val
  let cs := (s.part p).clear
  let late := cs.filter (fun e => e.2 == 0)
  if cs.isEmpty || late.any (fun e => (s.stk e.1).selfcal.isSome) then .next s
  else
    let s := (s.each late (fun e s => s.clearStack e.1)).createDone p
    .next (s.partDrain s.sec.partQ.length)

end Sys2Proof.Machine
end

