-- ==== Sys2Proof/Machine/RegView.lean ====
section
/-! DEFINITION. What a register field reads as. Most fields are stored; a field that shows the state of its unit, or an entry
that another field addresses, is computed when it is read (R63 to R68, R124, R125, R150, R174, R212, R238, R268, R291, R311, R336, R337,
R355, R373, R388, R396, R414, R439, R457, R474). -/
namespace Sys2Proof.Machine

/-- 1 for true. -/
def flag (b : Bool) : Nat := if b then 1 else 0

/-! ### Pages of the array stacks -/

/-- Remap entry that AFD_MAP_ADDR addresses, in the inactive buffer (R64). -/
def State.mapData (s : State) (k : Nat) : Nat :=
  let a := s.rd R.AFD.MAP_ADDR_ARRAY k
  let u := s.stk k
  if s.is R.AFD.MAP_ADDR_TABLE k then AMap.getD u.arrMapIn a 0 else AMap.getD u.colMapIn (32 * a + s.rd R.AFD.MAP_ADDR_ENTRY k) 0

/-- AFD page. A stack is busy too while a self-calibration or pieces of recalibration use its arrays and converters. -/
def State.afdView (s : State) (k : Nat) (f : Field) : Option Nat :=
  let u := s.stk k
  if f = R.AFD.STAT_BUSY then some (flag (!u.firing.isEmpty || !(s.pieces k).isEmpty || (u.selfcal.isSome && !s.stackClears k)))
  else if f = R.AFD.CAP_EFF_CAP then some (s.effCap k)
  else if f = R.AFD.MAP_ADDR_BUF then some (1 - u.mapBuf)
  else if f = R.AFD.MAP_DATA then some (s.mapData k)
  else if f = R.AFD.MAP_SWAP_PENDING then some (flag u.mapPend)
  else none

/-- Key of the trim record that CNV_TRIM_ADDR addresses. -/
def State.trimKey (s : State) (k : Nat) : Nat := convs * s.rd R.CNV.TRIM_ADDR_ARRAY k + s.rd R.CNV.TRIM_ADDR_CONV k

/-- CNV page. A trim record that nothing has written reads as the reset value 0. -/
def State.cnvView (s : State) (k : Nat) (f : Field) : Option Nat :=
  let u := s.stk k
  let w := u.trimIn (s.trimKey k)
  if f = R.CNV.SELFCAL_STAT_FAILED then some u.failedCount
  else if f = R.CNV.TRIM_CTL_ACTIVE_BUF then some (u.trimBuf (s.rd R.CNV.TRIM_ADDR_ARRAY k / 64))
  else if f = R.CNV.TRIM_CTL_PENDING then some (flag u.trimPend)
  else if f = R.CNV.TRIM_DATA0 then some (bits w 0 32)
  else if f = R.CNV.TRIM_DATA1 then some (bits w 32 32)
  else none

/-! ### Pages of the hubs -/

/-- Array stacks of a hub. -/
def stacksOfHub (h : Nat) : List Nat := [3 * h, 3 * h + 1, 3 * h + 2]

/-- Array stack that DCP_DRIFT_ADDR addresses. -/
def State.driftStack (s : State) (h : Nat) : Nat := 3 * h + s.rd R.DCP.DRIFT_ADDR_STACK h

/-- DCP page. The engine is active while chain values wait in it and while codes are converted for its comparators (DEDUCED,
log entry 60). -/
def State.dcpView (s : State) (h : Nat) (f : Field) : Option Nat :=
  if f = R.DCP.STAT_BUSY then
    some (flag (!(s.hub h).vals.isEmpty || (stacksOfHub h).any (fun k => (s.stk k).firing.any (fun x => x.held))))
  else if f = R.DCP.STAT_DRIFT_PENDING then some (flag ((stacksOfHub h).any (fun k => !(s.stk k).driftNext.isEmpty)))
  else if f = R.DCP.DRIFT_DATA then
    let u := s.stk (s.driftStack h)
    some (AMap.getD u.drift (tierKey (s.rd R.DCP.DRIFT_ADDR_ARRAY h) (s.rd R.DCP.DRIFT_ADDR_TIER h)) u.driftBase)
  else none

/-- ACU page. -/
def State.acuView (s : State) (h : Nat) (f : Field) : Option Nat :=
  let pairs := (stacksOfHub h).flatMap (fun k => (s.stk k).pairs)
  if f = R.ACU.STAT_BUSY then some (flag (pairs.any (fun e => e.2.st != 0) || !(s.hub h).topk.isEmpty))
  else if f = R.ACU.STAT_REPLAY_ACTIVE then some (flag (pairs.any (fun e => e.2.st == 3)))
  else none

/-- Key of the wear counter that WLD_WEAR_ADDR addresses. -/
def State.wearKey (s : State) : Nat :=
  nvKey (s.rd R.WLDG.WEAR_ADDR_STACK 0) (s.rd R.WLDG.WEAR_ADDR_ARRAY 0) (s.rd R.WLDG.WEAR_ADDR_TIER 0)

/-- Global WLD page. -/
def State.wldgView (s : State) (f : Field) : Option Nat :=
  if f = R.WLDG.WEAR_DATA_COUNT then some (s.wearAt s.wearKey)
  else if f = R.WLDG.WEAR_DATA_WORN then some (flag (s.wornKey s.wearKey))
  else none

/-- MEM page. -/
def State.memView (s : State) (h : Nat) (f : Field) : Option Nat :=
  let p := s.rd R.MEM.PART_SEL h
  if f = R.MEM.FRAME_DATA then some ((s.frameIn h).at (s.rd R.MEM.FRAME_ADDR h))
  else if f = R.MEM.FRAME_CTL_LEN then some (s.frameIn h).len
  else if f = R.MEM.PART_BASE then some (s.partRange h p).1
  else if f = R.MEM.PART_SIZE then some (s.partRange h p).2
  else if f = R.MEM.PART_CTL_CLEARING then some (flag ((s.hub h).clearing.contains p))
  else none

/-- Does the CRC of a commit slot match (R333). -/
def BbSlot.good (b : BbSlot) : Bool := fieldLE b.bytes 60 4 == crc32c (b.bytes.take 60 ++ b.bytes.drop 64)

/-- Global REL page. -/
def State.relgView (s : State) (h : Nat) (f : Field) : Option Nat :=
  let slot (i : Nat) : Option BbSlot := s.bbSlot h i
  if f = R.RELG.STAT_WINDOWS_OPEN then some (min 63 (s.hub h).windows.length)
  else if f = R.RELG.BB_DATA then
    some (match slot (s.rd R.RELG.BB_SLOT h) with | some b => fieldLE b.bytes (4 * s.rd R.RELG.BB_ADDR h) 4 | none => 0)
  else if f = R.RELG.BB_VALID then
    some (maskOf ((List.range 4).filter (fun i => match slot i with | some b => b.good | none => false)))
  else none

/-- The sensor that THC_SENS_ADDR addresses. -/
def State.sensAt (s : State) (h : Nat) : Sensor :=
  let unit := s.rd R.THC.SENS_ADDR_UNIT h
  let i := s.rd R.THC.SENS_ADDR_INDEX h
  if unit = 4 then AMap.getD (s.hub h).mems i {} else if unit = 3 then AMap.getD (s.hub h).sens i {}
  else AMap.getD (s.stk (3 * h + unit)).sens i {}

/-- THC page. -/
def State.thcView (s : State) (h : Nat) (f : Field) : Option Nat :=
  let x := s.sensAt h
  let u := s.stk (3 * h + s.rd R.THC.TILE_ADDR_STACK h)
  let t := s.rd R.THC.TILE_ADDR_TILE h
  if f = R.THC.STAT_CALIBRATING then some (flag ((stacksOfHub h).any (fun k => !(s.pieces k).isEmpty)))
  else if f = R.THC.SENS_DATA_READING then some (ux x.own 16)
  else if f = R.THC.SENS_DATA_SUSPECT then some (flag x.suspect)
  else if f = R.THC.SENS_DATA_FW_EXCL then some (flag x.fwExcl)
  else if f = R.THC.SENS_EFF_EFFECTIVE then some (ux x.eff 16)
  else if f = R.THC.SENS_EFF_RISE then some (ux x.rise 16)
  else if f = R.THC.TILE_DATA_T_CAL then some (ux (AMap.getD u.tcal t 0) 16)
  else if f = R.THC.TILE_DATA_QUEUED then some (flag (AMap.get? u.recalQ t).isSome)
  else if f = R.THC.TILE_DATA_REASON then some (AMap.getD u.recalQ t 0)
  else if f = R.THC.TILE_DATA_FOLD_FAIL then some (flag (AMap.getD u.foldFail t 0 != 0))
  else if f = R.THC.QUEUED then some ((stacksOfHub h).foldl (fun a k => a + (s.stk k).recalQ.length) 0)
  else none

/-! ### Pages of the module -/

/-- PWR page: the pace fields are those of the domain that PWR_PACE_ADDR addresses. -/
def State.pwrView (s : State) (f : Field) : Option Nat :=
  let d := s.rd R.PWR.PACE_ADDR_DOMAIN 0
  if f = R.PWR.PACE_TGT ∨ f = R.PWR.PACE_STAT_VOLT ∨ f = R.PWR.PACE_STAT_LOCK then some (s.rd f (1 + d))
  else if f = R.PWR.PACE_EFF_EFF then some (s.eff d)
  else none

/-- FAB span page: the route that FAB_ROUTE_ADDR addresses. -/
def State.fabsView (s : State) (f : Field) : Option Nat :=
  let r := s.route (s.rd R.FABS.ROUTE_ADDR 0)
  if f = R.FABS.ROUTE_DATA_PORT then some r.port
  else if f = R.FABS.ROUTE_DATA_HOPS then some r.hops
  else if f = R.FABS.ROUTE_DATA_VALID then some (flag r.valid)
  else if f = R.FABS.ROUTE_LAT then some r.lat
  else none

/-- HLK page: the ring fields of the partition that HLK_RSP_SEL names. -/
def State.hlkView (s : State) (f : Field) : Option Nat :=
  let p := s.rd R.HLK.RSP_SEL_PART 0
  if f = R.HLK.RSP_BASE ∨ f = R.HLK.RSP_MIB then some (s.rd f (1 + p))
  else if f = R.HLK.RSP_USED then some (s.ringUsed p)
  else none

/-! ### Pages of a partition -/

/-- Does a step program run: from the start of the step until it is done or halted (R205, R210, R212). -/
def State.programRuns (s : State) (p : Nat) : Bool :=
  let st := (s.part p).step
  (st.phase == .running || st.phase == .sampled) && !st.halted && !s.programDone p

/-- DCR page. -/
def State.dcrView (s : State) (p : Nat) (f : Field) : Option Nat :=
  if f = R.DCR.STAT_RUNNING then some (flag (s.programRuns p))
  else if f = R.DCR.STAT_VERIFYING then some (flag (s.part p).verifying.isSome)
  else none

/-- Does a transfer of the key-value engine run for a partition. -/
def State.kvBusy (s : State) (p : Nat) : Bool :=
  s.cores.any (fun c => c.2.xfers.any (fun x => x.part == p && (match x.kind with
    | .append .. => true | .fetch .. => true | .qend .. => true | _ => false)))

/-- KVE page. -/
def State.kveView (s : State) (p : Nat) (f : Field) : Option Nat :=
  let q := s.part p
  if f = R.KVE.STAT_BUSY then some (flag (s.kvBusy p))
  else if f = R.KVE.STAT_PRESSURE then some (flag (q.seqs.any (fun e => e.2.parked)))
  else if f = R.KVE.STAT_FLUSH_PENDING then some (flag q.flushPend)
  else if f = R.KVE.PAGES_FREE then some q.pageFree.size
  else if f = R.KVE.PAGES_TREE then some q.nodes.length
  else if f = R.KVE.NODES_UNREF then some (q.nodes.filter (fun e => e.2.refcnt == 0)).length
  else if f = R.KVE.SEQS then some (q.seqs.filter (fun e => e.2.live)).length
  else none

/-- SRV page. -/
def State.srvView (s : State) (p : Nat) (f : Field) : Option Nat :=
  if f = R.SRV.STAT_STEP_RUNNING then some (flag (s.stepRuns p))
  else if f = R.SRV.STAT_IDLE then some (flag (s.part p).hampers.isEmpty)
  else if f = R.SRV.LIVE then some (s.part p).hampers.length
  else none

/-- GLB page of a partition. -/
def State.glbView (s : State) (p : Nat) (f : Field) : Option Nat := if f = R.GLB.CFG_ID then some (s.cfgId p) else none

/-- Partition REL page: the head of the verdict queue. -/
def State.relView (s : State) (p : Nat) (f : Field) : Option Nat :=
  let vs := (s.part p).verdicts
  let head (g : Verdict → Nat) : Option Nat := some (match vs with | v :: _ => g v | [] => 0)
  if f = R.REL.VERDICT_COUNT then some vs.length
  else if f = R.REL.VERDICT0_ARRAY then head (·.array)
  else if f = R.REL.VERDICT0_STACK then head (·.stack)
  else if f = R.REL.VERDICT0_TIER then head (·.tier)
  else if f = R.REL.VERDICT0_GROUP then head (·.group)
  else if f = R.REL.VERDICT0_CAUSE then head (·.cause)
  else if f = R.REL.VERDICT1_COVER then head (·.cover)
  else if f = R.REL.VERDICT1_SLOT then head (·.slot)
  else if f = R.REL.VERDICT_STEP then head (·.step)
  else none

/-! ### Interrupts (R439) -/

/-- Pages that belong to a hub for R439: those of the hub, its array stacks and its ports; on hub 0 the pages of the module and
of the partitions (the stacks and ports of a hub domain: DEDUCED, log entry 61). -/
def State.irqPages (s : State) (h : Nat) : List (Page × Nat) :=
  (stacksOfHub h).flatMap (fun k => [(Page.afd, k), (Page.cnv, k)]) ++
  [Page.dcp, .acu, .mem, .noc, .thc, .mgt, .relG].map (fun g => (g, h)) ++ (List.range 4).map (fun i => (Page.fab, 4 * h + i)) ++
  (if h = 0 then
    [Page.wldG, .fabS, .hlk, .pwr, .secG, .bst, .glbG].map (fun g => (g, 0)) ++
      ((List.range 12).filter s.partExists).flatMap (fun p => partPages.map (fun g => (g, p)))
  else [])

/-- Has a page an event flag at 1. -/
def State.anyEvent (s : State) (g : Page) (i : Nat) : Bool := g.fields.any (fun f => f.acc == .ev && s.is f i)

/-- MGT_IRQ_PEND of a hub: bit n for block code n (R439). -/
def State.irqPend (s : State) (h : Nat) : Nat := maskOf (((s.irqPages h).filter (fun x => s.anyEvent x.1 x.2)).map (fun x => x.1.unit))

/-- MGT_IRQ_MASK0 to MGT_IRQ_MASK3. -/
def irqMaskFields : List Field := [R.MGT.IRQ_MASK0, R.MGT.IRQ_MASK1, R.MGT.IRQ_MASK2, R.MGT.IRQ_MASK3]

/-- External interrupt line of a steward core (R439). -/
def State.irqLine (s : State) (h c : Nat) : Bool :=
  let m := match irqMaskFields[c]? with | some f => s.rd f h | none => 0
  (List.range 20).any (fun n => (s.irqPend h).testBit n && !m.testBit n)

/-- FAULT_N is driven low after a fatal event, until reset (R334, R495). -/
def State.faultN (s : State) : Bool := s.isFatal

/-- Fields of the lantern, which only hub 0's page has (R457). -/
def lanternField (f : Field) : Bool := f.page == .mgt && decide (0x034 ≤ f.off) && decide (f.off ≤ 0x078)

/-- MGT page. -/
def State.mgtView (s : State) (h : Nat) (f : Field) : Option Nat :=
  if f = R.MGT.IRQ_PEND then some (s.irqPend h) else if lanternField f && h != 0 then some 0 else none

/-! ### Fields and words -/

/-- Value of a field as a read shows it. -/
def State.fieldVal (s : State) (f : Field) (i : Nat) : Nat :=
  let v := match f.page with
    | .afd => s.afdView i f
    | .cnv => s.cnvView i f
    | .dcp => s.dcpView i f
    | .acu => s.acuView i f
    | .wldG => s.wldgView f
    | .mem => s.memView i f
    | .relG => s.relgView i f
    | .thc => s.thcView i f
    | .pwr => s.pwrView f
    | .fabS => s.fabsView f
    | .hlk => s.hlkView f
    | .dcr => s.dcrView i f
    | .kve => s.kveView i f
    | .srv => s.srvView i f
    | .glb => s.glbView i f
    | .rel => s.relView i f
    | .mgt => s.mgtView i f
    | .glbG => if f = R.GLBG.DEVTIME then some s.clk.devTime else none
    | _ => none
  match v with
  | some x => x % 2 ^ f.width
  | none => s.rd f i

/-- Value of a register word: its fields in their places. -/
def State.wordOf (s : State) (g : Page) (i off : Nat) : Nat :=
  (g.fields ++ [fieldEN g, fieldRaceCnt g, fieldRefusedCnt g]).foldl (fun a f =>
    if f.pair then a else if f.off = off then a + s.fieldVal f i * 2 ^ f.lo else a) 0

end Sys2Proof.Machine
end

