-- ==== Sys2Proof/Machine/Spdm.lean ====
section
/-! DEFINITION. The SPDM responder on its two transports: requests, measurement blocks, sessions and the vendor-defined requests
(R427 to R429, R435, R437). The layouts of SPDM 1.3 messages and of secured messages are those of DSP0274 and DSP0277
(PRESUMED, log entry 56). -/
namespace Sys2Proof.Machine

/-! ### Transports -/

/-- Number of a transport: the partition of a mailbox, or 12 for MCTP. -/
def viaNo : SpdmVia → Nat
  | .mctp => 12
  | .mailbox p => p.val

/-- A message from the bus owner: one of more than 4,096 bytes is not reassembled, and one of another type than those of R442 is dropped
and counted. -/
def State.mctpIn (m : List Byte) (act : State → State) (s : State) : State :=
  if 4096 < m.length then s
  else if !([0, 1, 5, 6].contains (byteAt m 0 % 128)) then s.count R.MGT.MCTP_DROP_CNT 0
  else act s

/-- A request as the responder takes it: transport, session if it came in one, and the SPDM message. -/
structure SpdmReq where
  via : Nat
  sess : Option Nat
  msg : List Byte
  deriving DecidableEq, Repr

/-- XOR of two byte lists. -/
def xorBytes (a b : List Byte) : List Byte := (a.zip b).map (fun x => x.1 ^^^ x.2)

/-- Key and nonce of the next record of a session. -/
def Session.record (x : Session) (fromReq : Bool) : List Byte × List Byte :=
  let k := Config.sessionKeys x.secret x.th x.open_ (if fromReq then x.reqGen else x.rspGen) fromReq
  (k.take 32, xorBytes ((k.drop 32).take 12) (leBytes 12 (if fromReq then x.rx else x.tx)))

/-- A message body as a transport carries it: the message type 5 and an SPDM message, or type 6 and a secured record of a
session (session ID, sequence number, length, sealed bytes). -/
def State.spdmOpen (s : State) (via : Nat) (body : List Byte) : Option SpdmReq :=
  if byteAt body 0 = 5 then some { via := via, sess := none, msg := body.drop 1 }
  else if byteAt body 0 = 6 then
    let id := fieldLE body 1 4
    match AMap.get? s.sec.sessions id with
    | some x =>
      if x.via != via then none
      else
        let kn := x.record true
        (Config.gcmOpen kn.1 kn.2 ((body.drop 1).take 8) (body.drop 9)).map (fun p =>
          ({ via := via, sess := some id, msg := (p.drop 3).take (fieldLE p 0 2 - 1) } : SpdmReq))
    | none => none
  else none

/-- The 2,048 bytes of a mailbox. -/
def State.mboxRd (s : State) (p n : Nat) : List Byte := (List.range n).map (fun i => AMap.getD (s.part p).mbox i 0)

/-- Write a mailbox from its first byte. -/
def State.mboxPut (p : Nat) (bs : List Byte) (s : State) : State :=
  s.onPart p (fun q => { q with mbox := ((List.range bs.length).zip bs).foldl (fun m e => AMap.put m e.1 e.2 0) q.mbox })

/-- Give an answer to a transport: a packet for the bus owner, or the mailbox with READY (R437, R442). -/
def State.spdmPut (via : Nat) (body : List Byte) (s : State) : State :=
  if via = 12 then s.mctpSend body
  else
    let b := body.take 2048
    (((s.mboxPut via b).wr R.SEC.MB_RLEN via b.length).wr R.SEC.STAT_BUSY via 0).raise R.SEC.EVT_READY via

/-- Change a session. -/
def State.onSession (id : Nat) (f : Session → Session) (s : State) : State :=
  s.onSec (fun c => { c with sessions := c.sessions.map (fun e => if e.1 = id then (e.1, f e.2) else e) })

/-- The connection of a transport. -/
def State.conn (s : State) (via : Nat) : SpdmConn := AMap.getD s.sec.conns via {}
/-- Change a connection. -/
def State.onConn (via : Nat) (f : SpdmConn → SpdmConn) (s : State) : State :=
  s.onSec (fun c => { c with conns := AMap.put c.conns via (f (AMap.getD c.conns via {})) {} })

/-- Bytes of one answer at most: the data transfer size of R427. -/
def dataTransfer : Nat := 2048

/-- Head of a response: version, code and two parameters. -/
def spdmHead (code p1 p2 : Nat) : List Byte := [0x13, BitVec.ofNat 8 code, BitVec.ofNat 8 p1, BitVec.ofNat 8 p2]
/-- ERROR. -/
def spdmError (code data : Nat) : List Byte := spdmHead 0x7F code data
/-- InvalidRequest. -/
def seInvalid : Nat := 0x01
/-- UnexpectedRequest. -/
def seUnexpected : Nat := 0x04
/-- DecryptError. -/
def seDecrypt : Nat := 0x06
/-- UnsupportedRequest. -/
def seUnsupported : Nat := 0x07
/-- SessionLimitExceeded. -/
def seSessionLimit : Nat := 0x0A
/-- SessionRequired. -/
def seSessionRequired : Nat := 0x0B
/-- LargeResponse. -/
def seLarge : Nat := 0x0F
/-- VersionMismatch. -/
def seVersion : Nat := 0x41

/-- Bytes of one answer to a request that its transport takes whole: the data transfer size, in a mailbox less the message type and what
a secured record adds (R427, R437). -/
def SpdmReq.room (r : SpdmReq) : Nat := if r.via = 12 then dataTransfer else if r.sess.isNone then 2048 - 1 else 2048 - 28

/-- Send an answer to a request: in its session when it came in one; an answer above what the transport takes whole is held for
CHUNK_GET. -/
def State.spdmAnswer (r : SpdmReq) (a : List Byte) (s : State) : State :=
  let large := decide (r.room < a.length)
  let s := if large then s.onConn r.via (fun c => { c with outBuf := a, outNext := 0 }) else s
  let a := if large then spdmError seLarge 0 ++ [0] else a
  match r.sess with
  | none => s.spdmPut r.via (5 :: a)
  | some id =>
    match AMap.get? s.sec.sessions id with
    | none => s.spdmPut r.via (5 :: a)
    | some x =>
      let kn := x.record false
      let head := leBytes 4 id ++ leBytes 2 x.tx ++ leBytes 2 (a.length + 19)
      let sealed := Config.gcmSeal kn.1 kn.2 head (leBytes 2 (a.length + 1) ++ 5 :: a)
      (s.onSession id (fun x => { x with tx := x.tx + 1 })).spdmPut r.via (6 :: head ++ sealed)

/-- Take in a request: a secured record counts. -/
def State.spdmTook (r : SpdmReq) (s : State) : State :=
  match r.sess with | some id => s.onSession id (fun x => { x with rx := x.rx + 1 }) | none => s

/-- Request code of a message. -/
def SpdmReq.code (r : SpdmReq) : Nat := byteAt r.msg 1

/-- Where a vendor-defined payload begins: after the standards body, the vendor ID and the length. -/
def vendorAt (m : List Byte) : Nat := 9 + byteAt m 6
/-- Payload of a vendor-defined request. -/
def vendorPayload (m : List Byte) : List Byte := (m.drop (vendorAt m)).take (fieldLE m (vendorAt m - 2) 2)
/-- Does a vendor-defined request carry Selsan's identification. -/
def vendorOurs (m : List Byte) : Bool := Config.vendorOk ((m.drop 4).take (3 + byteAt m 6))
/-- OPCODE of a vendor-defined request (R429). -/
def SpdmReq.opcode (r : SpdmReq) : Nat := fieldLE (vendorPayload r.msg) 0 2

/-! ### Negotiation -/

/-- Does the responder use the identity key: PROVISION and FIELD (R416). -/
def State.idUse (s : State) : Bool := s.lcState == 1 || s.lcState == 2

/-- Alias certificate: the alias public key signed under the identity key (R426). -/
def State.aliasCert (s : State) : List Byte :=
  match s.idSeed with
  | some seed => let pub := Config.ed448Public s.sec.alias_; pub ++ Config.ed448Sign seed pub
  | none => []

/-- Certificate chain of slot 0: the stored certificate, then the alias certificate. -/
def State.certChain (s : State) : List Byte := if s.idUse then s.nv.cert ++ s.aliasCert else []

/-- A signature by the alias key; without one, open bytes (R416). -/
def State.aliasSign (m : List Byte) (s : State) : List Byte × State :=
  if s.idUse && !s.sec.alias_.isEmpty then (Config.ed448Sign s.sec.alias_ m, s)
  else
    let (x, s) := s.takeFree
    (leBytes 114 x, s)

/-- VERSION: 1.3, and the connection begins again. -/
def State.ansVersion (r : SpdmReq) (s : State) : List Byte × State :=
  let a : List Byte := [0x10, 0x04, 0, 0, 0, 1, 0, 0x13]
  (a, (s.onConn r.via (fun _ => { stage := 1, vca := r.msg ++ a })))

/-- Capability flags: certificates and challenge where the identity key may be used; signed measurements, encryption,
authentication, key exchange, heartbeat, key update and chunks. -/
def State.capFlags (s : State) : Nat := (if s.idUse then 6 else 0) + 0x10 + 0x40 + 0x80 + 0x200 + 0x2000 + 0x4000 + 0x20000

/-- CAPABILITIES. The timing exponent is not stated. -/
def State.ansCapabilities (r : SpdmReq) (s : State) : List Byte × State :=
  if (s.conn r.via).stage = 0 then (spdmError seUnexpected 0, s)
  else
    let (x, s) := s.takeFree
    let a := spdmHead 0x61 0 0 ++ [0, BitVec.ofNat 8 x, 0, 0] ++ leBytes 4 s.capFlags ++ leBytes 4 dataTransfer ++ leBytes 4 4096
    (a, s.onConn r.via (fun c => { c with stage := max c.stage 2, vca := c.vca ++ r.msg ++ a }))

/-- ALGORITHMS: Ed448, SHA3-512, secp384r1, AES-256-GCM; a requester that offers no common one is refused. -/
def State.ansAlgorithms (r : SpdmReq) (s : State) : List Byte × State :=
  if (s.conn r.via).stage < 2 then (spdmError seUnexpected 0, s)
  else if !(fieldLE r.msg 8 4).testBit 11 || !(fieldLE r.msg 12 4).testBit 5 then (spdmError seInvalid 0, s)
  else
    let a := spdmHead 0x63 3 0 ++ leBytes 2 48 ++ [1, 2] ++ leBytes 4 0x40 ++ leBytes 4 0x800 ++ leBytes 4 0x20 ++ leBytes 12 0 ++
      leBytes 4 0 ++ [2, 0x20, 0x10, 0] ++ [3, 0x20, 2, 0] ++ [5, 0x20, 1, 0]
    (a, s.onConn r.via (fun c => { c with stage := 3, vca := c.vca ++ r.msg ++ a }))

/-- Has the connection agreed its algorithms. -/
def State.agreed (s : State) (r : SpdmReq) : Bool := (s.conn r.via).stage == 3

/-- DIGESTS of slot 0. -/
def State.ansDigests (r : SpdmReq) (s : State) : List Byte × State :=
  if !s.agreed r then (spdmError seUnexpected 0, s)
  else if s.certChain.isEmpty then (spdmHead 0x01 0 0, s)
  else (spdmHead 0x01 1 1 ++ sha3_512 s.certChain, s)

/-- CERTIFICATE: a portion of the chain of slot 0; UnsupportedRequest where the identity key is not used (R427). -/
def State.ansCertificate (r : SpdmReq) (s : State) : List Byte × State :=
  if !s.idUse then (spdmError seUnsupported 0x82, s)
  else if !s.agreed r then (spdmError seUnexpected 0, s)
  else if byteAt r.msg 2 % 16 != 0 || decide (s.certChain.length ≤ fieldLE r.msg 4 2) then (spdmError seInvalid 0, s)
  else
    let rest := s.certChain.drop (fieldLE r.msg 4 2)
    let piece := rest.take (min (fieldLE r.msg 6 2) (r.room - 8))
    (spdmHead 0x02 0 0 ++ leBytes 2 piece.length ++ leBytes 2 (rest.length - piece.length) ++ piece, s)

/-! ### Measurements (R428) -/

/-- Content of a partition's block: active IMAGE_ID, active GENERATION and GLB_CFG_ID. -/
def State.partMeasure (s : State) (p : Nat) : List Byte :=
  let q := s.part p
  let (img, gen) := match q.active with | some x => (x.image, x.generation) | none => ([], 0)
  sha3_512 (padTo 32 img ++ leBytes 8 gen ++ leBytes 8 (s.cfgId p))

/-- Indices of the blocks that a transport may read. -/
def State.measIndices (s : State) (via : Nat) : List Nat :=
  [1, 2, 3, 4] ++ ((List.range 12).filter (fun p => s.partExists p && (via == 12 || via == p))).map (0x10 + ·)

/-- A measurement block: index, DMTF, size, value. -/
def State.measBlock (s : State) (i : Nat) : List Byte :=
  let v := if i < 0x10 then s.measure i else s.partMeasure (i - 0x10)
  [BitVec.ofNat 8 i, 1] ++ leBytes 2 67 ++ [BitVec.ofNat 8 i] ++ leBytes 2 64 ++ v

/-- Digest over every block that the transport may read, when a request asks for it. -/
def State.measSummary (s : State) (via ask : Nat) : List Byte :=
  if ask = 0 then [] else sha3_512 ((s.measIndices via).flatMap s.measBlock)

/-- MEASUREMENTS: the count, one block or all; signed by the alias key on request. -/
def State.ansMeasurements (r : SpdmReq) (s : State) : List Byte × State :=
  if !s.agreed r then (spdmError seUnexpected 0, s)
  else
    let op := byteAt r.msg 3
    let all := s.measIndices r.via
    if op != 0 && op != 0xFF && !all.contains op then (spdmError seInvalid 0, s)
    else
      let is := if op = 0 then [] else if op = 0xFF then all else [op]
      let recs := is.flatMap s.measBlock
      let (nonce, s) := s.entropy 32
      let sign := (byteAt r.msg 2).testBit 0
      let ctx := (r.msg.drop (if sign then 37 else 4)).take 8
      let a := spdmHead 0x60 (if op = 0 then all.length else 0) 0 ++ leBytes 1 is.length ++ leBytes 3 recs.length ++ recs ++
        nonce ++ leBytes 2 0 ++ ctx
      let log := (s.conn r.via).meas ++ r.msg ++ a
      if sign then
        let (sig, s) := s.aliasSign (sha3_512 ((s.conn r.via).vca ++ log))
        (a ++ sig, s.onConn r.via (fun c => { c with meas := [] }))
      else (a, s.onConn r.via (fun c => { c with meas := log }))

/-- CHALLENGE_AUTH, signed by the alias key; UnsupportedRequest where the identity key is not used (R427). -/
def State.ansChallenge (r : SpdmReq) (s : State) : List Byte × State :=
  if !s.idUse then (spdmError seUnsupported 0x83, s)
  else if !s.agreed r then (spdmError seUnexpected 0, s)
  else if byteAt r.msg 2 % 16 != 0 then (spdmError seInvalid 0, s)
  else
    let (nonce, s) := s.entropy 32
    let a := spdmHead 0x03 0 1 ++ sha3_512 s.certChain ++ nonce ++ s.measSummary r.via (byteAt r.msg 3) ++ leBytes 2 0 ++ (r.msg.drop 36).take 8
    let (sig, s) := s.aliasSign (sha3_512 ((s.conn r.via).vca ++ r.msg ++ a))
    (a ++ sig, s)

/-! ### Sessions -/

/-- SEC_SESSIONS. -/
def State.setSessions (s : State) : State := s.wr R.SECG.SESSIONS 0 s.sec.sessions.length

/-- The lowest responder half of a session ID that is not in use with a requester half. -/
def State.freshSession (s : State) (req : Nat) : Nat :=
  let used (i : Nat) : Bool := s.sec.sessions.any (fun e => e.1 == req + 65536 * i)
  req + 65536 * (((List.range 18).find? (fun i => i != 0 && !used i)).getD 17)

/-- KEY_EXCHANGE_RSP: a session opens, at most 16 at once (R427). -/
def State.ansKeyExchange (r : SpdmReq) (s : State) : List Byte × State :=
  if !s.agreed r || r.sess.isSome then (spdmError seUnexpected 0, s)
  else if 16 ≤ s.sec.sessions.length then (spdmError seSessionLimit 0, s)
  else if r.msg.length < 138 then (spdmError seInvalid 0, s)
  else
    let id := s.freshSession (fieldLE r.msg 4 2)
    let (rnd, s) := s.entropy 32
    let (priv, s) := s.entropy 48
    let body := spdmHead 0x64 0 0 ++ leBytes 2 (id / 65536) ++ [0, 0] ++ rnd ++ (Config.ecdhPublic priv).take 96 ++
      s.measSummary r.via (byteAt r.msg 2) ++ leBytes 2 0
    let th := (s.conn r.via).vca ++ sha3_512 s.certChain ++ r.msg ++ body
    let (sig, s) := s.aliasSign (sha3_512 th)
    let secret := Config.ecdh priv ((r.msg.drop 40).take 96)
    let x : Session := { via := r.via, th := th ++ sig, secret := secret }
    (body ++ sig ++ Config.verifyData secret (th ++ sig) false, (s.onSec (fun c => { c with sessions := AMap.set c.sessions id x })).setSessions)

/-- FINISH_RSP: the requester's verify data hold, and the session is open. -/
def State.ansFinish (r : SpdmReq) (s : State) : List Byte × State :=
  match r.sess.bind (AMap.get? s.sec.sessions) with
  | none => (spdmError seSessionRequired 0, s)
  | some x =>
    if x.open_ then (spdmError seUnexpected 0, s)
    else if r.msg.drop 4 != Config.verifyData x.secret (x.th ++ r.msg.take 4) true then (spdmError seDecrypt 0, s)
    else (spdmHead 0x65 0 0, s)

/-- A session's keys after FINISH, once its answer has gone under the old ones. -/
def State.sessionOpen (r : SpdmReq) (a : List Byte) (s : State) : State :=
  match r.sess with
  | some id => if byteAt a 1 = 0x65 then s.onSession id (fun x => { x with open_ := true, th := x.th ++ r.msg ++ a, rx := 0, tx := 0 }) else s
  | none => s

/-- Is the request in an open session. -/
def State.inSession (s : State) (r : SpdmReq) : Bool :=
  match r.sess.bind (AMap.get? s.sec.sessions) with | some x => x.open_ | none => false

/-- HEARTBEAT_ACK. -/
def State.ansHeartbeat (r : SpdmReq) (s : State) : List Byte × State :=
  if s.inSession r then (spdmHead 0x68 0 0, s) else (spdmError seSessionRequired 0, s)

/-- KEY_UPDATE_ACK: operation 1 updates the requester's key, 2 both, 3 verifies. -/
def State.ansKeyUpdate (r : SpdmReq) (s : State) : List Byte × State :=
  let op := byteAt r.msg 2
  if !s.inSession r then (spdmError seSessionRequired 0, s)
  else if op < 1 ∨ 3 < op then (spdmError seInvalid 0, s)
  else
    let upd (x : Session) : Session :=
      if op = 1 then { x with reqGen := x.reqGen + 1, rx := 0 }
      else if op = 2 then { x with reqGen := x.reqGen + 1, rspGen := x.rspGen + 1, rx := 0, tx := 0 } else x
    (spdmHead 0x69 op (byteAt r.msg 3), match r.sess with | some id => s.onSession id upd | none => s)

/-- END_SESSION_ACK. -/
def State.ansEndSession (r : SpdmReq) (s : State) : List Byte × State :=
  if s.inSession r then (spdmHead 0x6C 0 0, s) else (spdmError seSessionRequired 0, s)

/-- The session of an END_SESSION leaves once its answer has gone. -/
def State.sessionGone (r : SpdmReq) (a : List Byte) (s : State) : State :=
  match r.sess with
  | some id => if byteAt a 1 = 0x6C then (s.onSec (fun c => { c with sessions := AMap.erase c.sessions id })).setSessions else s
  | none => s

/-! ### Vendor-defined requests (R429, R435) -/

/-- VENDOR_DEFINED_RESPONSE with a status byte: 0 OK, 1 REFUSED, 2 FULL, 3 FORMAT. -/
def vendorAnswer (r : SpdmReq) (st : Nat) : List Byte :=
  spdmHead 0x7E 0 0 ++ (r.msg.drop 4).take (3 + byteAt r.msg 6) ++ leBytes 2 1 ++ [BitVec.ofNat 8 st]

/-- May the request act on a partition: MCTP on any that exists, a mailbox on its own. -/
def State.keyPart (s : State) (r : SpdmReq) (p : Nat) : Bool := decide (p < 12) && s.partExists p && (r.via == 12 || r.via == p)

/-- SEC_KEYS_HELD. -/
def State.setKeysHeld (p : Nat) (s : State) : State := s.wr R.SEC.KEYS_HELD p (s.part p).imgKeys.length
/-- SEC_PUBKEYS. -/
def State.setPubkeys (s : State) : State := s.wr R.SECG.PUBKEYS 0 s.nv.pubKeys.length

/-- Status and effect of KEY_DELIVER. -/
def State.keyDeliver (r : SpdmReq) (s : State) : Nat × State :=
  let b := vendorPayload r.msg
  let p := byteAt b 2
  let hd := fieldLE b 3 4
  if b.length != 39 || hd == 0 then (3, s)
  else if !s.keyPart r p then (1, s)
  else if 64 ≤ (s.part p).imgKeys.length then (2, s)
  else if (AMap.get? (s.part p).imgKeys hd).isSome then (1, s)
  else (0, (s.onPart p (fun q => { q with imgKeys := AMap.set q.imgKeys hd (b.drop 7) })).setKeysHeld p)

/-- Status and effect of KEY_ERASE. -/
def State.keyErase (r : SpdmReq) (s : State) : Nat × State :=
  let b := vendorPayload r.msg
  let p := byteAt b 2
  if b.length != 7 || fieldLE b 3 4 == 0 then (3, s)
  else if !s.keyPart r p then (1, s)
  else (0, (s.onPart p (fun q => { q with imgKeys := AMap.erase q.imgKeys (fieldLE b 3 4) })).setKeysHeld p)

/-- Status and effect of PUBKEY_ADD. A key already held is not held twice. -/
def State.pubkeyAdd (r : SpdmReq) (s : State) : Nat × State :=
  let b := vendorPayload r.msg
  if b.length != 59 then (3, s)
  else if r.via != 12 then (1, s)
  else if s.nv.pubKeys.contains (b.drop 2) then (0, s)
  else if 32 ≤ s.nv.pubKeys.length then (2, s)
  else (0, (s.onNv (fun n => { n with pubKeys := n.pubKeys ++ [b.drop 2] })).setPubkeys)

/-- Status and effect of PUBKEY_REMOVE. -/
def State.pubkeyRemove (r : SpdmReq) (s : State) : Nat × State :=
  let b := vendorPayload r.msg
  let id := b.drop 2
  let used := (List.range 12).any (fun p => match (s.part p).load with | some l => l.keyId == id | none => false)
  if b.length != 18 then (3, s)
  else if r.via != 12 || used then (1, s)
  else (0, (s.onNv (fun n => { n with pubKeys := n.pubKeys.filter (fun k => shake256 k 16 != id) })).setPubkeys)

/-- A vendor-defined request: outside a session REFUSED. -/
def State.ansVendor (f : SpdmReq → State → Nat × State) (r : SpdmReq) (s : State) : List Byte × State :=
  if !vendorOurs r.msg then (spdmError seUnsupported 0xFE, s)
  else if !s.inSession r then (vendorAnswer r 1, s)
  else
    let (st, s) := f r s
    (vendorAnswer r st, s)

/-! ### Dispatch and chunks -/

/-- The answer to a request by its code; CHUNK_SEND and CHUNK_GET are not dispatched here. -/
def State.answerTo (r : SpdmReq) (s : State) : List Byte × State :=
  let v := byteAt r.msg 0
  if r.code != 0x84 && v != 0x13 then (spdmError seVersion 0, s)
  else match r.code with
    | 0x84 => s.ansVersion r
    | 0xE1 => s.ansCapabilities r
    | 0xE3 => s.ansAlgorithms r
    | 0x81 => s.ansDigests r
    | 0x82 => s.ansCertificate r
    | 0x83 => s.ansChallenge r
    | 0xE0 => s.ansMeasurements r
    | 0xE4 => s.ansKeyExchange r
    | 0xE5 => s.ansFinish r
    | 0xE8 => s.ansHeartbeat r
    | 0xE9 => s.ansKeyUpdate r
    | 0xEC => s.ansEndSession r
    | 0xFE => match r.opcode with
      | 0x0001 => s.ansVendor State.keyDeliver r
      | 0x0002 => s.ansVendor State.keyErase r
      | 0x0010 => s.ansVendor State.pubkeyAdd r
      | 0x0011 => s.ansVendor State.pubkeyRemove r
      | _ => s.ansVendor (fun _ s => (3, s)) r
    | c => (spdmError seUnsupported c, s)

/-- CHUNK_SEND_ACK: chunks of one request in their order; the last brings the answer to the whole. -/
def State.ansChunkSend (r : SpdmReq) (s : State) : List Byte × State :=
  let no := fieldLE r.msg 4 2
  let c := s.conn r.via
  let off := if no = 0 then 16 else 12
  let have_ := (if no = 0 then [] else c.inBuf) ++ (r.msg.drop off).take (fieldLE r.msg 8 4)
  if !s.agreed r then (spdmError seUnexpected 0, s)
  else if no != 0 && no != c.inNext then (spdmError seInvalid 0, s.onConn r.via (fun c => { c with inBuf := [], inNext := 0 }))
  else if 4096 < have_.length then (spdmError seInvalid 0, s.onConn r.via (fun c => { c with inBuf := [], inNext := 0 }))
  else
    let head := spdmHead 0x05 0 (byteAt r.msg 3) ++ leBytes 2 no
    if (byteAt r.msg 2).testBit 0 then
      let (a, s) := (s.onConn r.via (fun c => { c with inBuf := [], inNext := 0 })).answerTo { r with msg := have_ }
      (head ++ a, s)
    else (head, s.onConn r.via (fun c => { c with inBuf := have_, inNext := no + 1 }))

/-- CHUNK_RESPONSE: the next piece of an answer above the data transfer size. -/
def State.ansChunkGet (r : SpdmReq) (s : State) : List Byte × State :=
  let c := s.conn r.via
  let no := fieldLE r.msg 4 2
  if c.outBuf.isEmpty || no != c.outNext then (spdmError seInvalid 0, s)
  else
    let piece := c.outBuf.take (r.room - 16)
    let rest := c.outBuf.drop (r.room - 16)
    (spdmHead 0x06 (if rest.isEmpty then 1 else 0) (byteAt r.msg 3) ++ leBytes 2 no ++ leBytes 2 0 ++ leBytes 4 piece.length ++
      (if no = 0 then leBytes 4 c.outBuf.length else []) ++ piece,
     s.onConn r.via (fun c => { c with outBuf := rest, outNext := if rest.isEmpty then 0 else no + 1 }))

/-- The body of the message that a command takes: what came over MCTP, or what the mailbox holds (R437). -/
def State.spdmBody (s : State) (via : Nat) (msg : List Byte) : List Byte :=
  if via = 12 then msg else s.mboxRd via (s.rd R.SEC.MB_LEN via)

/-- May a request be answered: never in SCRAP (R416); a mailbox only while a SEND waits for its answer. -/
def State.spdmLive (s : State) (via : Nat) : Bool := s.lcState != 4 && (via == 12 || (s.partExists via && s.is R.SEC.STAT_BUSY via))

/-- Answer one request. -/
def State.spdmDo (f : SpdmReq → State → List Byte × State) (r : SpdmReq) (s : State) : State :=
  let (a, s) := f r (s.spdmTook r)
  ((s.spdmAnswer r a).sessionOpen r a).sessionGone r a

/-- A command of the responder: it takes a request of its own kind and answers it; a message of another kind is not this
command's. -/
def State.spdmTake (mine : SpdmReq → Bool) (f : SpdmReq → State → List Byte × State) (v : Nat) (msg : List Byte) (s : State) : State :=
  match s.spdmLive v, s.spdmOpen v (s.spdmBody v msg) with
  | true, some r => if mine r then s.spdmDo f r else s
  | _, _ => s

/-- The same for a message that comes over MCTP or stands in a mailbox. -/
def State.spdmCmd (mine : SpdmReq → Bool) (f : SpdmReq → State → List Byte × State) (via : SpdmVia) (msg : List Byte) (s : State) : State :=
  let v := viaNo via
  if v = 12 then s.mctpIn msg (fun s => s.spdmTake mine f v msg) else s.spdmTake mine f v msg

/-- A request of a code. -/
def ofCode (c : Nat) (r : SpdmReq) : Bool := r.code == c
/-- A vendor-defined request of an opcode. -/
def ofOpcode (o : Nat) (r : SpdmReq) : Bool := r.code == 0xFE && r.opcode == o

/-- GET_VERSION. -/
def execSpdmGetVersion (via : SpdmVia) (msg : List Byte) (s : State) : Host.Outcome State Fault Refusal :=
  .next (s.spdmCmd (ofCode 0x84) (fun r s => s.answerTo r) via msg)
/-- GET_CAPABILITIES. -/
def execSpdmGetCapabilities (via : SpdmVia) (msg : List Byte) (s : State) : Host.Outcome State Fault Refusal :=
  .next (s.spdmCmd (ofCode 0xE1) (fun r s => s.answerTo r) via msg)
/-- NEGOTIATE_ALGORITHMS. -/
def execSpdmNegotiateAlgorithms (via : SpdmVia) (msg : List Byte) (s : State) : Host.Outcome State Fault Refusal :=
  .next (s.spdmCmd (ofCode 0xE3) (fun r s => s.answerTo r) via msg)
/-- GET_DIGESTS. -/
def execSpdmGetDigests (via : SpdmVia) (msg : List Byte) (s : State) : Host.Outcome State Fault Refusal :=
  .next (s.spdmCmd (ofCode 0x81) (fun r s => s.answerTo r) via msg)
/-- GET_CERTIFICATE. -/
def execSpdmGetCertificate (via : SpdmVia) (msg : List Byte) (s : State) : Host.Outcome State Fault Refusal :=
  .next (s.spdmCmd (ofCode 0x82) (fun r s => s.answerTo r) via msg)
/-- CHALLENGE. -/
def execSpdmChallenge (via : SpdmVia) (msg : List Byte) (s : State) : Host.Outcome State Fault Refusal :=
  .next (s.spdmCmd (ofCode 0x83) (fun r s => s.answerTo r) via msg)
/-- GET_MEASUREMENTS. -/
def execSpdmGetMeasurements (via : SpdmVia) (msg : List Byte) (s : State) : Host.Outcome State Fault Refusal :=
  .next (s.spdmCmd (ofCode 0xE0) (fun r s => s.answerTo r) via msg)
/-- KEY_EXCHANGE. -/
def execSpdmKeyExchange (via : SpdmVia) (msg : List Byte) (s : State) : Host.Outcome State Fault Refusal :=
  .next (s.spdmCmd (ofCode 0xE4) (fun r s => s.answerTo r) via msg)
/-- FINISH. -/
def execSpdmFinish (via : SpdmVia) (msg : List Byte) (s : State) : Host.Outcome State Fault Refusal :=
  .next (s.spdmCmd (ofCode 0xE5) (fun r s => s.answerTo r) via msg)
/-- HEARTBEAT. -/
def execSpdmHeartbeat (via : SpdmVia) (msg : List Byte) (s : State) : Host.Outcome State Fault Refusal :=
  .next (s.spdmCmd (ofCode 0xE8) (fun r s => s.answerTo r) via msg)
/-- KEY_UPDATE. -/
def execSpdmKeyUpdate (via : SpdmVia) (msg : List Byte) (s : State) : Host.Outcome State Fault Refusal :=
  .next (s.spdmCmd (ofCode 0xE9) (fun r s => s.answerTo r) via msg)
/-- END_SESSION. -/
def execSpdmEndSession (via : SpdmVia) (msg : List Byte) (s : State) : Host.Outcome State Fault Refusal :=
  .next (s.spdmCmd (ofCode 0xEC) (fun r s => s.answerTo r) via msg)
/-- CHUNK_SEND. -/
def execSpdmChunkSend (via : SpdmVia) (msg : List Byte) (s : State) : Host.Outcome State Fault Refusal :=
  .next (s.spdmCmd (ofCode 0x85) (fun r s => s.ansChunkSend r) via msg)
/-- CHUNK_GET. -/
def execSpdmChunkGet (via : SpdmVia) (msg : List Byte) (s : State) : Host.Outcome State Fault Refusal :=
  .next (s.spdmCmd (ofCode 0x86) (fun r s => s.ansChunkGet r) via msg)
/-- KEY_DELIVER. -/
def execSpdmKeyDeliver (via : SpdmVia) (msg : List Byte) (s : State) : Host.Outcome State Fault Refusal :=
  .next (s.spdmCmd (ofOpcode 0x0001) (fun r s => s.answerTo r) via msg)
/-- KEY_ERASE. -/
def execSpdmKeyErase (via : SpdmVia) (msg : List Byte) (s : State) : Host.Outcome State Fault Refusal :=
  .next (s.spdmCmd (ofOpcode 0x0002) (fun r s => s.answerTo r) via msg)
/-- PUBKEY_ADD. -/
def execSpdmPubkeyAdd (via : SpdmVia) (msg : List Byte) (s : State) : Host.Outcome State Fault Refusal :=
  .next (s.spdmCmd (ofOpcode 0x0010) (fun r s => s.answerTo r) via msg)
/-- PUBKEY_REMOVE. -/
def execSpdmPubkeyRemove (via : SpdmVia) (msg : List Byte) (s : State) : Host.Outcome State Fault Refusal :=
  .next (s.spdmCmd (ofOpcode 0x0011) (fun r s => s.answerTo r) via msg)

/-- Is a request one of those that a command of the table answers (R427, R429). -/
def SpdmReq.known (r : SpdmReq) : Bool :=
  [0x81, 0x82, 0x83, 0x84, 0x85, 0x86, 0xE0, 0xE1, 0xE3, 0xE4, 0xE5, 0xE8, 0xE9, 0xEC].contains r.code ||
  (r.code == 0xFE && [0x0001, 0x0002, 0x0010, 0x0011].contains r.opcode)

/-- SEC_MB_CTL.SEND (R435, R437): dropped while BUSY. A request that no command of the table answers, and one that cannot be
opened, is answered here. -/
def State.actSend (p : Nat) (s : State) : State :=
  if s.is R.SEC.STAT_BUSY p then s.refuseWrite .sec p
  else
    let s := s.mailboxUsed p
    let n := s.rd R.SEC.MB_LEN p
    let s := s.wr R.SEC.STAT_BUSY p 1
    if n = 0 ∨ 2048 < n then s.spdmPut p (5 :: spdmError seInvalid 0)
    else match s.spdmOpen p (s.mboxRd p n) with
      | none => s.spdmPut p (5 :: spdmError (if byteAt (s.mboxRd p n) 0 = 6 then seDecrypt else seInvalid) 0)
      | some r => s.whenB (!r.known) (fun s => s.spdmDo (fun r s => s.answerTo r) r)

/-- SEND. -/
def execSend (part : Fin 12) (s : State) : Host.Outcome State Fault Refusal :=
  .next (s.ofPart part.val (State.actSend part.val))

end Sys2Proof.Machine
end

