-- ==== Sys2Proof/Machine/Mgmt.lean ====
section
/-! DEFINITION. Steward watchdogs, the I3C target, MCTP and PLDM, telemetry, and the lantern (R439 to R449, R456, R457). The
layouts of I3C CCC data, MCTP control and PLDM messages are those of the standards that the spec names (PRESUMED, log entry
57). -/
namespace Sys2Proof.Machine

/-! ### Watchdogs (R440) -/

/-- MGT_WDOG_KICK: the watchdogs of the cores in the mask start again. -/
def State.actKick (h mask : Nat) (s : State) : State :=
  s.each (maskBits 4 mask) (fun c s => s.onMgt (fun m => { m with kicks := AMap.put m.kicks (4 * h + c) s.clk.devTime 0 }))

/-- WDOG_KICK. -/
def execWdogKick (hub : Fin 4) (mask : BitVec 4) (s : State) : Host.Outcome State Fault Refusal := .next (s.actKick hub.val mask.toNat)

/-- Watchdog period of a hub in ns; outside 100 to 10,000 ms it acts as the nearest limit (R457). -/
def State.wdogNs (s : State) (h : Nat) : Nat := clampN 100 10000 (s.rd R.MGT.WDOG_MS h) * 1000000

/-- A core is reset a third time within 10 s: it is held in reset and lost; the loss of all four is fatal (R334, R440). -/
def State.stewardLost (h c : Nat) (s : State) : State :=
  let m := s.rd R.MGT.STAT_STEWARD_OK h
  let s := (s.wr R.MGT.STAT_STEWARD_OK h (if m.testBit c then m - 2 ^ c else m)).raise R.MGT.EVT_STEWARD_LOST h
  let s := (s.onMgt (fun x => { x with started := AMap.erase x.started (4 * h + c) })).report h (mkReport 16 h c 0x02 2 0 0)
  s.whenB (s.rd R.MGT.STAT_STEWARD_OK h == 0) (fun s => s.fatal h (mkReport 16 h 0 0x12 3 0 0))

/-- WATCHDOG_EXPIRY: the core has not been kicked for its period: it is reset alone and starts again at the ENTRY of the stage that runs. -/
def execWatchdogExpiry (hub core : Fin 4) (s : State) : Host.Outcome State Fault Refusal :=
  let h := hub.val
  let c := core.val
  let key := 4 * h + c
  let now := s.clk.devTime
  if !(s.rd R.MGT.STAT_STEWARD_OK h).testBit c || decide (now < AMap.getD s.mgt.kicks key 0 + s.wdogNs h) then .next s
  else
    let times := now :: (AMap.getD s.mgt.resets key []).filter (fun t => decide (now < t + 10000000000))
    let s := s.onMgt (fun m => { m with kicks := AMap.put m.kicks key now 0, resets := AMap.put m.resets key (times.take 3) [] })
    let s := s.onMgt (fun m => { m with started := AMap.set m.started key (stewBase + m.entry) })
    let s := (s.flagCount R.MGT.EVT_STEWARD_RESET R.MGT.STEWARD_RST_CNT h).report h (mkReport 16 h c 0x01 1 0 0)
    .next (s.whenB (decide (3 ≤ times.length)) (fun s => s.stewardLost h c))

/-! ### The I3C target (R441) -/

/-- Answer a CCC. -/
def State.i3cAnswer (b : List Byte) (s : State) : State := s.onMgt (fun m => { m with i3cOut := m.i3cOut ++ [b] })

/-- Is an in-band interrupt pending: a packet waits for the bus owner and the controller has not disabled interrupts. -/
def State.i3cPending (s : State) : Bool := !s.mgt.mctpOut.isEmpty && s.mgt.i3cOff % 2 == 0

/-- The static address: 0x30 plus the span position modulo 8. -/
def State.i3cStatic (s : State) : Nat := 0x30 + s.rd R.GLBG.STRAP_POSITION 0 % 8

/-- Give the target a dynamic address. -/
def State.setDyn (a : Nat) (s : State) : State := (s.wr R.MGT.I3C_STAT_DYN_ADDR 0 a).wrB R.MGT.STAT_I3C_ADDR_VALID 0 (a != 0)

/-- Provisional ID: the low 48 bits of SEC_DEV_ID, most significant byte first. -/
def State.pid (s : State) : List Byte := (leBytes 6 (s.rd R.SECG.DEV_ID 0)).reverse

/-- Bus characteristics of R441: in-band interrupts with a data byte, no HDR, a target only. -/
def i3cBcr : Byte := 0x06

/-- ENEC: the events of the mask are enabled; an interrupt that waited is raised. -/
def execI3cEnec (mask : Byte) (s : State) : Host.Outcome State Fault Refusal :=
  let t := s.onMgt (fun m => { m with i3cOff := m.i3cOff - (m.i3cOff &&& mask.toNat) })
  .next (t.whenB (!s.i3cPending && t.i3cPending) State.raiseIbi)

/-- DISEC: the events of the mask are disabled. -/
def execI3cDisec (mask : Byte) (s : State) : Host.Outcome State Fault Refusal :=
  .next (s.onMgt (fun m => { m with i3cOff := m.i3cOff ||| mask.toNat }))
/-- RSTDAA: the dynamic address goes. -/
def execI3cRstdaa (s : State) : Host.Outcome State Fault Refusal := .next (s.setDyn 0)
/-- ENTDAA: a target without a dynamic address shows its ID and characteristics and takes the address. What the DCR holds is
not stated. -/
def execI3cEntdaa (addr : Fin 128) (s : State) : Host.Outcome State Fault Refusal :=
  if s.is R.MGT.STAT_I3C_ADDR_VALID 0 then .next s
  else
    let (x, s) := s.takeFree
    .next ((s.i3cAnswer (s.pid ++ [i3cBcr, BitVec.ofNat 8 x])).setDyn addr.val)
/-- SETDASA: a target of that static address without a dynamic address takes one. -/
def execI3cSetdasa (pair : DasaPair) (s : State) : Host.Outcome State Fault Refusal :=
  if s.is R.MGT.STAT_I3C_ADDR_VALID 0 || pair.static_.val != s.i3cStatic then .next s else .next (s.setDyn pair.addr.val)

/-- GETPID. -/
def execI3cGetpid (s : State) : Host.Outcome State Fault Refusal := .next (s.i3cAnswer s.pid)
/-- GETBCR. -/
def execI3cGetbcr (s : State) : Host.Outcome State Fault Refusal := .next (s.i3cAnswer [i3cBcr])
/-- GETDCR: the value is not stated. -/
def execI3cGetdcr (s : State) : Host.Outcome State Fault Refusal :=
  let (x, s) := s.takeFree
  .next (s.i3cAnswer [BitVec.ofNat 8 x])
/-- GETMWL: 256 bytes. -/
def execI3cGetmwl (s : State) : Host.Outcome State Fault Refusal := .next (s.i3cAnswer [1, 0])
/-- GETMRL: 256 bytes, and one byte with an interrupt. -/
def execI3cGetmrl (s : State) : Host.Outcome State Fault Refusal := .next (s.i3cAnswer [1, 0, 1])
/-- GETSTATUS: whether an interrupt is pending; the vendor's byte is not stated. -/
def execI3cGetstatus (s : State) : Host.Outcome State Fault Refusal :=
  let (x, s) := s.takeFree
  .next (s.i3cAnswer [BitVec.ofNat 8 x, if s.i3cPending then 1 else 0])

/-! ### MCTP control (R442) -/

/-- Is a message an MCTP control request with a command code. -/
def isControl (cmd : Nat) (m : List Byte) : Bool := byteAt m 0 == 0 && (byteAt m 1).testBit 7 && byteAt m 2 == cmd

/-- Answer an MCTP control request. -/
def State.ctlAnswer (m : List Byte) (data : List Byte) (s : State) : State :=
  s.mctpSend ([0, BitVec.ofNat 8 (byteAt m 1 % 32), BitVec.ofNat 8 (byteAt m 2)] ++ data)

/-- An MCTP control request of a command. -/
def State.control (cmd : Nat) (m : List Byte) (act : State → State) (s : State) : State :=
  s.mctpIn m (fun s => s.whenB (isControl cmd m) act)

/-- MGT_I3C_STAT.EID. -/
def State.eid (s : State) : Nat := s.rd R.MGT.I3C_STAT_EID 0

/-- SET_ENDPOINT_ID: operations 0 and 1 assign an ID from 1 to 254. -/
def State.setEid (msg : List Byte) (s : State) : State :=
  let e := byteAt msg 4
  if 1 < byteAt msg 3 ∨ e = 0 ∨ e = 255 then s.ctlAnswer msg [2]
  else (s.wr R.MGT.I3C_STAT_EID 0 e).ctlAnswer msg [0, 0, BitVec.ofNat 8 e, 0]
/-- SET_ENDPOINT_ID. -/
def execSetEndpointId (msg : List Byte) (s : State) : Host.Outcome State Fault Refusal := .next (s.control 0x01 msg (State.setEid msg))
/-- GET_ENDPOINT_ID. -/
def execGetEndpointId (msg : List Byte) (s : State) : Host.Outcome State Fault Refusal :=
  .next (s.control 0x02 msg (fun s => s.ctlAnswer msg [0, BitVec.ofNat 8 s.eid, 0, 0]))
/-- GET_ENDPOINT_UUID. The UUID is not stated. -/
def execGetEndpointUuid (msg : List Byte) (s : State) : Host.Outcome State Fault Refusal :=
  .next (s.control 0x03 msg (fun s => s.ctlAnswer msg (0 :: padTo 16 Config.uuid)))
/-- GET_MCTP_VERSION_SUPPORT: 1.3 for the base and control; the versions of the other supported types are not stated. -/
def State.mctpVersions (msg : List Byte) (s : State) : State :=
  let t := byteAt msg 3
  if t = 0 ∨ t = 255 then s.ctlAnswer msg [0, 1, 0xF1, 0xF3, 0xFF, 0]
  else if t = 1 ∨ t = 5 ∨ t = 6 then
    let (x, s) := s.takeFree
    s.ctlAnswer msg ([0, 1] ++ leBytes 4 x)
  else s.ctlAnswer msg [0x80]
/-- GET_MCTP_VERSION_SUPPORT. -/
def execGetMctpVersionSupport (msg : List Byte) (s : State) : Host.Outcome State Fault Refusal :=
  .next (s.control 0x04 msg (State.mctpVersions msg))
/-- GET_MESSAGE_TYPE_SUPPORT: types 0, 1, 5 and 6. -/
def execGetMessageTypeSupport (msg : List Byte) (s : State) : Host.Outcome State Fault Refusal :=
  .next (s.control 0x05 msg (fun s => s.ctlAnswer msg [0, 4, 0, 1, 5, 6]))

/-! ### PLDM (R443) -/

/-- Is a message a PLDM request of a type and command. -/
def isPldm (type cmd : Nat) (m : List Byte) : Bool :=
  byteAt m 0 == 1 && (byteAt m 1).testBit 7 && byteAt m 2 % 64 == type && byteAt m 3 == cmd

/-- Answer a PLDM request: completion code and data. -/
def State.pldmAnswer (m : List Byte) (data : List Byte) (s : State) : State :=
  s.mctpSend (pldmMsg (byteAt m 1 % 32) (byteAt m 2 % 64) (byteAt m 3) data)

/-- Is firmware there to answer: not in RECOVERY and not in SCRAP, where the trailhead answers a few requests (R443). -/
def State.fwAnswers (s : State) : Bool := !s.is R.SECG.STAT_RECOVERY 0 && s.lcState != 4

/-- Commands of a PLDM type (R443); none for a type that is not supported. -/
def pldmList (type : Nat) : List Nat :=
  match type with
  | 0 => [1, 2, 3, 4, 5]
  | 2 => [0x04, 0x0A, 0x0B, 0x11, 0x21, 0x50, 0x51]
  | 5 => [0x01, 0x02, 0x10, 0x13, 0x14, 0x15, 0x16, 0x17, 0x18, 0x1A, 0x1B, 0x1C, 0x1D]
  | _ => []

/-- The same as a bitmap of 32 bytes. -/
def pldmCommands (type : Nat) : Option (List Byte) := if (pldmList type).isEmpty then none else some (leBytes 32 (maskOf (pldmList type)))

/-- Is a message a PLDM request of a command that is not supported. -/
def pldmUnsupported (m : List Byte) : Bool :=
  byteAt m 0 == 1 && (byteAt m 1).testBit 7 && !(pldmList (byteAt m 2 % 64)).contains (byteAt m 3)

/-- A PLDM request of a type and command: acted on when it is one and somebody is there to answer it; ERROR_UNSUPPORTED_PLDM_CMD answers a
command that is not supported (R443). -/
def State.pldm (type cmd : Nat) (live : Bool) (m : List Byte) (act : State → State) (s : State) : State :=
  s.mctpIn m (fun s =>
    if isPldm type cmd m && live then act s
    else s.whenB (pldmUnsupported m && (s.fwAnswers || byteAt m 2 % 64 == 0)) (fun s => s.pldmAnswer m [5]))

/-- Version of a PLDM type: 1.1, 1.2 and 1.1 of R443. -/
def pldmVersion (type : Nat) : Option (List Byte) :=
  match type with
  | 0 => some [0, 0xF0, 0xF1, 0xF1]
  | 2 => some [0, 0xF0, 0xF2, 0xF1]
  | 5 => some [0, 0xF0, 0xF1, 0xF1]
  | _ => none

/-- GET_TID. -/
def execGetTid (msg : List Byte) (s : State) : Host.Outcome State Fault Refusal :=
  .next (s.pldm 0 0x02 true msg (fun s => s.pldmAnswer msg [0, BitVec.ofNat 8 s.mgt.tid]))
/-- SET_TID: 0 and 255 are no terminus ID. -/
def execSetTid (msg : List Byte) (s : State) : Host.Outcome State Fault Refusal :=
  let t := byteAt msg 4
  .next (s.pldm 0 0x01 true msg (fun s =>
    if t = 0 ∨ t = 255 then s.pldmAnswer msg [2] else (s.onMgt (fun m => { m with tid := t })).pldmAnswer msg [0]))
/-- GET_PLDM_VERSION: one version with its check value. -/
def execGetPldmVersion (msg : List Byte) (s : State) : Host.Outcome State Fault Refusal :=
  .next (s.pldm 0 0x03 true msg (fun s =>
    match pldmVersion (byteAt msg 9) with
    | some v => s.pldmAnswer msg (0 :: leBytes 4 0 ++ [5] ++ v ++ leBytes 4 (fcs v))
    | none => s.pldmAnswer msg [0x83]))
/-- GET_PLDM_TYPES: types 0, 2 and 5. -/
def execGetPldmTypes (msg : List Byte) (s : State) : Host.Outcome State Fault Refusal :=
  .next (s.pldm 0 0x04 true msg (fun s => s.pldmAnswer msg (0 :: leBytes 8 0x25)))
/-- GET_PLDM_COMMANDS. -/
def execGetPldmCommands (msg : List Byte) (s : State) : Host.Outcome State Fault Refusal :=
  .next (s.pldm 0 0x05 true msg (fun s =>
    match pldmCommands (byteAt msg 4) with
    | some b => s.pldmAnswer msg (0 :: b)
    | none => s.pldmAnswer msg [0x83]))

/-! ### Telemetry (R444) -/

/-- A numeric sensor's reading; none for an ID that is no numeric sensor. -/
def State.numericSensor (s : State) (id : Nat) : Option Nat :=
  if 1 ≤ id ∧ id ≤ 4 then some (s.rd R.THC.MAX_HUB (id - 1))
  else if 5 ≤ id ∧ id ≤ 16 then
    let k := id - 5
    some (s.rd (match k % 3 with | 0 => R.THC.MAX_STACK0 | 1 => R.THC.MAX_STACK1 | _ => R.THC.MAX_STACK2) (k / 3))
  else if 17 ≤ id ∧ id ≤ 32 then
    let i := id - 17
    some (if s.rd R.PWR.STAT_MOD_STATE 0 = 3 then 0 else ux (AMap.getD (s.hub (i / 4)).mems (i % 4) {}).eff 16)
  else if id = 33 then some (s.rd R.PWR.PIN_W 0)
  else if id = 34 then some (s.rd R.PWR.VIN_MV 0)
  else if id = 35 then some (s.rd R.PWR.IIN 0)
  else if 36 ≤ id ∧ id ≤ 51 then some (s.eff (id - 36))
  else if id = 52 then some (s.rd R.PWR.ENERGY 0)
  else none

/-- A state sensor's register code. -/
def State.stateSensor (s : State) (id : Nat) : Option Nat :=
  if id = 60 then some s.lcState
  else if id = 61 then some (s.rd R.PWR.STAT_MOD_STATE 0)
  else if 62 ≤ id ∧ id ≤ 73 then some (s.partState (id - 62))
  else if 74 ≤ id ∧ id ≤ 77 then some (s.rd R.THC.STAT_HUB_LEVEL (id - 74))
  else if 78 ≤ id ∧ id ≤ 89 then some (s.stackLevel (id - 78))
  else if id = 90 then some (s.rd R.BST.STAT_STATE 0)
  else none

/-- Size of a numeric sensor's reading, as PLDM numbers sizes: a 16-bit signed temperature, 64 bits of energy, else 32 bits (PRESUMED, log
entry 57). -/
def sensorSize (id : Nat) : Nat × Nat := if id ≤ 32 then (3, 2) else if id = 52 then (6, 8) else (4, 4)

/-- GET_SENSOR_READING. -/
def execGetSensorReading (msg : List Byte) (s : State) : Host.Outcome State Fault Refusal :=
  .next (s.pldm 2 0x11 s.fwAnswers msg (fun s =>
    match s.numericSensor (fieldLE msg 4 2) with
    | some v =>
      let z := sensorSize (fieldLE msg 4 2)
      s.pldmAnswer msg ([0, BitVec.ofNat 8 z.1, 0, 0, 1, 1, 1] ++ leBytes z.2 v)
    | none => s.pldmAnswer msg [0x80]))

/-- GET_STATE_SENSOR_READINGS; in SCRAP and RECOVERY of sensor 60 only. -/
def execGetStateSensorReadings (msg : List Byte) (s : State) : Host.Outcome State Fault Refusal :=
  let id := fieldLE msg 4 2
  .next (s.pldm 2 0x21 (s.fwAnswers || id == 60) msg (fun s =>
    match s.stateSensor id with
    | some v => s.pldmAnswer msg [0, 1, 0, BitVec.ofNat 8 v, BitVec.ofNat 8 v, BitVec.ofNat 8 v]
    | none => s.pldmAnswer msg [0x80]))

/-- Sensor IDs in the order of their records. -/
def sensorIds : List Nat := (List.range 52).map (· + 1) ++ (List.range 31).map (· + 60)

/-- Bytes of a PDR. -/
def pdrBytes : Nat := 80

/-- Unit of a numeric sensor as PLDM numbers it, power of ten, and resolution as an FP32 (R444; PRESUMED, log entry 57): °C in 1/16, W,
10 mV, 10 mA, no unit in 1/64 of the reference, J. -/
def sensorUnit (id : Nat) : Nat × Nat × Nat :=
  if id ≤ 32 then (2, 0, 0x3D800000) else if id = 33 then (7, 0, 0x3F800000) else if id = 34 then (5, 0xFE, 0x3F800000)
  else if id = 35 then (6, 0xFE, 0x3F800000) else if id = 52 then (8, 0, 0x3F800000) else (0, 0, 0x3C800000)

/-- PDR of a sensor: header, terminus handle 0 and sensor ID; of a numeric one its unit, size and resolution without an offset, of a state
one that it has one state set, an OEM one. The spec states none of its other fields. -/
def sensorPdr (no id fill : Nat) : List Byte :=
  let u := sensorUnit id
  let head := leBytes 4 no ++ [1, if id ≤ 52 then 2 else 4] ++ leBytes 2 0 ++ leBytes 2 (pdrBytes - 10) ++ leBytes 2 0 ++ leBytes 2 id ++ leBytes 8 fill
  let own := if id ≤ 52 then leBytes 1 u.1 ++ leBytes 1 u.2.1 ++ leBytes 7 0 ++ [1, BitVec.ofNat 8 (sensorSize id).1] ++ leBytes 4 u.2.2 ++ leBytes 4 0
    else [1] ++ leBytes 2 (0x8000 + fill / 2 ^ 64 % 0x8000)
  head ++ own ++ leBytes (pdrBytes - head.length - own.length) (fill / 2 ^ 80)

/-- GET_PDR_REPOSITORY_INFO: one record for each sensor; the times of its last change are not stated. -/
def State.pdrInfo (msg : List Byte) (s : State) : State :=
  let (x, s) := s.takeFree
  s.pldmAnswer msg ([0, 0] ++ leBytes 26 x ++ leBytes 4 sensorIds.length ++ leBytes 4 (pdrBytes * sensorIds.length) ++ leBytes 4 pdrBytes ++ [0])
/-- GET_PDR_REPOSITORY_INFO. -/
def execGetPdrRepositoryInfo (msg : List Byte) (s : State) : Host.Outcome State Fault Refusal :=
  .next (s.pldm 2 0x50 s.fwAnswers msg (State.pdrInfo msg))

/-- GET_PDR: record handles count from 1; handle 0 asks for the first. -/
def State.givePdr (msg : List Byte) (s : State) : State :=
  let no := max 1 (fieldLE msg 4 4)
  match sensorIds[no - 1]? with
  | none => s.pldmAnswer msg [0x82]
  | some id =>
    let (x, s) := s.takeFree
    let d := sensorPdr no id x
    s.pldmAnswer msg (0 :: leBytes 4 (if no = sensorIds.length then 0 else no + 1) ++ leBytes 4 0 ++ [5] ++ leBytes 2 d.length ++ d)
/-- GET_PDR. -/
def execGetPdr (msg : List Byte) (s : State) : Host.Outcome State Fault Refusal := .next (s.pldm 2 0x51 s.fwAnswers msg (State.givePdr msg))

/-! ### Events (R445) -/

/-- SET_EVENT_RECEIVER: enable 0 ends the events. -/
def execSetEventReceiver (msg : List Byte) (s : State) : Host.Outcome State Fault Refusal :=
  .next (s.pldm 2 0x04 s.fwAnswers msg (fun s =>
    (s.onMgt (fun m => { m with receiver := if byteAt msg 4 = 0 then none else some (byteAt msg 6) })).pldmAnswer msg [0]))

/-- The oldest event has been acknowledged. -/
def State.ackEvent (s : State) : State := s.onMgt (fun m => { m with evts := m.evts.drop 1 })

/-- POLL_FOR_PLATFORM_EVENT_MESSAGE: an acknowledged event leaves; the oldest that waits is given, under event ID 1. -/
def State.pollEvent (msg : List Byte) (s : State) : State :=
  let s := s.whenB (fieldLE msg 10 2 == 1) State.ackEvent
  match s.mgt.evts with
  | [] => s.pldmAnswer msg ([0, BitVec.ofNat 8 s.mgt.tid] ++ leBytes 2 0)
  | e :: _ => s.pldmAnswer msg ([0, BitVec.ofNat 8 s.mgt.tid] ++ leBytes 2 1 ++ leBytes 4 0 ++ [5, 0xF0] ++ leBytes 4 e.2.length ++
      e.2 ++ leBytes 4 (fcs e.2))
/-- POLL_FOR_PLATFORM_EVENT_MESSAGE. -/
def execPollForPlatformEventMessage (msg : List Byte) (s : State) : Host.Outcome State Fault Refusal :=
  .next (s.pldm 2 0x0B s.fwAnswers msg (State.pollEvent msg))

/-- PLATFORM_EVENT_RESEND: 1 s of device time after they were last sent, the messages that wait for their acknowledgement are sent
again (R9, R445). -/
def execPlatformEventResend (s : State) : Host.Outcome State Fault Refusal :=
  if !s.passed s.mgt.evtAt 1000000000 then .next s
  else .next ((s.each s.mgt.evts (fun e s => s.mctpSend (s.eventMsg e.2))).onMgt (fun m => { m with evtAt := s.clk.devTime }))

/-- PLATFORM_EVENT_MESSAGE_RESPONSE: the receiver acknowledges the oldest message. -/
def execPlatformEventMessageResponse (msg : List Byte) (s : State) : Host.Outcome State Fault Refusal :=
  let ack := byteAt msg 0 == 1 && !(byteAt msg 1).testBit 7 && byteAt msg 2 % 64 == 2 && byteAt msg 3 == 0x0A && byteAt msg 4 == 0
  .next (s.mctpIn msg (fun s => s.whenB ack State.ackEvent))

/-! ### The lantern (R447 to R449) -/

/-- A list of (value, bits) packed from bit 0 up. -/
def packed (w : Nat) (l : List Nat) : Nat := l.foldr (fun x a => x % 2 ^ w + 2 ^ w * a) 0

/-- The 128 bytes of a HEARTBEAT (R448). -/
def State.heartbeat (s : State) : List Byte :=
  let levels := (List.range 4).map (fun h => s.rd R.THC.STAT_HUB_LEVEL h) ++ (List.range 12).map s.stackLevel ++
    (List.range 16).map (fun i => s.memLevel (i / 4) (i % 4))
  leBytes 4 (s.wordOf .pwr 0 0x00C) ++ (List.range 4).flatMap (fun h => leBytes 1 (s.wordOf .relG h 0x00C)) ++ leBytes 8 (packed 2 levels) ++
    (List.range 16).flatMap (fun i => leBytes 2 ((s.numericSensor (i + 1)).getD 0)) ++ leBytes 4 (s.rd R.PWR.PIN_W 0) ++
    leBytes 4 (s.wordOf .bst 0 0x01C) ++ leBytes 8 s.mgt.recSeq ++ leBytes 64 0

/-- Period of the HEARTBEAT in ns; outside 100 to 10,000 ms it acts as the nearest limit (R457). -/
def State.beatNs (s : State) : Nat := clampN 100 10000 (s.rd R.MGT.LAN_PERIOD 0) * 1000000

/-- LANTERN_HEARTBEAT: while MGT EN of hub 0 is 1, and in RECOVERY; never in SCRAP; each MGT_LAN_PERIOD of device time (R9, R449). -/
def execLanternHeartbeat (s : State) : Host.Outcome State Fault Refusal :=
  if (s.en .mgt 0 || s.is R.SECG.STAT_RECOVERY 0) && s.lcState != 4 && s.passed s.mgt.beatAt s.beatNs then
    .next ((s.lanSend 1 0 0 s.heartbeat).onMgt (fun m => { m with beatAt := s.clk.devTime }))
  else .next s

/-- Payload and source of a UDP datagram to the management port's own address and port, in an untagged frame; an IPv4 source
as an IPv4-mapped address. None for any other frame. -/
def State.lanDatagram (s : State) (f : List Byte) : Option (Nat × List Byte) :=
  let own := f.take 6 == macBytes (s.rd R.MGT.LAN_MAC 0)
  let body := f.take (f.length - 4)
  if !frameOk f || decide (1518 < f.length) || !own then none
  else if fieldBE f 12 2 = 0x0800 ∧ byteAt f 14 = 0x45 ∧ byteAt f 23 = 17 ∧ s.rd R.MGT.LAN_IP4 0 ≠ 0 ∧
      fieldBE f 30 4 = s.rd R.MGT.LAN_IP4 0 ∧ fieldBE f 36 2 = s.rd R.MGT.LAN_PORT 0 then
    some (0xFFFF00000000 + fieldBE f 26 4, (body.drop 42).take (fieldBE f 38 2 - 8))
  else if fieldBE f 12 2 = 0x86DD ∧ byteAt f 20 = 17 ∧ fieldBE f 38 16 = s.ip6Of 16 ∧ fieldBE f 56 2 = s.rd R.MGT.LAN_PORT 0 then
    some (fieldBE f 22 16, (body.drop 62).take (fieldBE f 58 2 - 8))
  else none

/-- Held records of a run of record sequences, with the sequence of the first. -/
def State.heldRun (s : State) (first n : Nat) : Nat × List (List Byte) :=
  let lo := s.mgt.recSeq + 1 - s.mgt.held.length
  let seqs := (List.range n).map (· + first) |>.filter (fun q => decide (lo ≤ q) && decide (q ≤ s.mgt.recSeq) && decide (0 < q))
  (seqs.headD 0, seqs.filterMap (fun q => s.mgt.held[s.mgt.recSeq - q]?))

/-- RESEND_REQ: from the collector, answered from the records held; records no longer held are left out and the count says
how many are sent (R449, R456). Any other datagram is ignored, any other frame dropped and counted. -/
def execResendReq (frame : List Byte) (s : State) : Host.Outcome State Fault Refusal :=
  if !s.is R.MGT.STAT_LAN_UP 0 then .next s
  else match s.lanDatagram frame with
    | none => .next (s.count R.MGT.LAN_DROP_CNT 0)
    | some (src, d) =>
      let n := fieldLE d 10 2
      if d.take 8 != ascii "KWLANTRN" || byteAt d 8 != 3 || src != s.lanDest || !s.lantern || n == 0 || decide (40 < n) then .next s
      else
        let r := s.heldRun (fieldLE d 40 8) n
        .next ((s.lanSend 2 r.2.length r.1 r.2.flatten).count R.MGT.LAN_RESEND_CNT 0)

/-- MANAGEMENT_ETHERNET_LINK. -/
def execManagementEthernetLink (up : Bool) (s : State) : Host.Outcome State Fault Refusal := .next (s.wrB R.MGT.STAT_LAN_UP 0 up)

end Sys2Proof.Machine
end

