-- ==== Sys2Proof/Machine/Bist.lean ====
section
/-! DEFINITION. The self-test engine (R416, R434, R450 to R456, R458). -/
namespace Sys2Proof.Machine

/-- Is a test admitted from firmware in the present state (R416, R434). -/
def State.testAllowed (s : State) (test : Nat) : Bool :=
  if test = 1 then s.lcState != 4 else s.lcState == 0 || s.lcState == 3

/-- Is a stack not ready for a field test (reason 3 of R451). -/
def State.stackBusy (s : State) (k : Nat) : Bool :=
  let u := s.stk k
  (match s.ownerOf k with | some p => s.partState p != 2 | none => false) ||
    !u.programming.isEmpty || !(s.pieces k).isEmpty || u.selfcal.isSome || s.stackClears k

/-- Reason for which GO is refused (R451), the lowest that holds; 0 when it is accepted. `firmware` says whether the requester is
firmware: the field self-test runs through it only, the others also through the debug port (R416, R434). -/
def State.testReason (s : State) (test : Nat) (firmware : Bool) : Nat :=
  let units := s.rd R.BST.UNITS 0
  let cap := s.rd R.BST.LOG_CAP 0
  if !s.testAllowed test || (!firmware && (test == 1 || !s.debugLive)) then 1
  else if s.testing then 2
  else if test = 1 ∧ (maskBits 12 units).any s.stackBusy then 3
  else if test ≠ 1 ∧ s.rd R.SECG.PART_STAT_EXISTS 0 ≠ 0 then 4
  else if test = 3 ∧ (maskBits 16 units).any (fun u => !s.is R.MEM.STAT_TRAINED (u / 4)) then 5
  else if cap ≠ 0 ∧ !s.inFirmware (s.rd R.BST.LOG_ADDR 0) (16 * cap) then 6
  else 0

/-- BST_CTL.GO with a test (R451). A command that R434 does not admit is also counted in SEC_TEST_REFUSED_CNT. -/
def State.actTest (test : Nat) (firmware : Bool) (s : State) : State :=
  if test = 0 ∨ 3 < test then s
  else
    let r := s.testReason test firmware
    let s := s.whenB (r == 1) (fun s => s.count R.SECG.TEST_REFUSED_CNT 0)
    if r != 0 then (s.wr R.BST.STAT_REASON 0 r).raise R.BST.EVT_REFUSED 0
    else
      let s := ((s.wr R.BST.CTL_TEST 0 test).wr R.BST.STAT_STATE 0 1).wr R.BST.LOG_COUNT 0 0
      { s with bst := {} }.setProgramming

/-- FIELD_SELF_TEST. -/
def execFieldSelfTest (s : State) : Host.Outcome State Fault Refusal := .next (s.actTest 1 true)
/-- FULL_SELF_TEST. -/
def execFullSelfTest (s : State) : Host.Outcome State Fault Refusal := .next (s.actTest 2 true)
/-- MEMORY_SELF_TEST. -/
def execMemorySelfTest (s : State) : Host.Outcome State Fault Refusal := .next (s.actTest 3 true)

/-- SELF_TEST_ABORT: BST_CTL.ABORT. -/
def execSelfTestAbort (s : State) : Host.Outcome State Fault Refusal := .next s.stopTest

/-- A record of the log (R455). -/
def TestFault.record (test : Nat) (f : TestFault) : List Byte :=
  leBytes 1 test ++ leBytes 1 f.part ++ leBytes 1 f.unit ++ leBytes 1 f.pass ++ leBytes 4 f.loc ++ leBytes 4 f.detail ++ leBytes 4 0

/-- A named stack after a full test (R453): every column but the references at level 0, every reference mark set, no owner tag. -/
def State.fullTestDone (k : Nat) (s : State) : State :=
  s.onNv (fun n => { n with
    unknown := AMap.erase n.unknown k, tags := AMap.erase n.tags k, refMark := n.refMark.filter (fun e => e.1 / 655360 != k) })

/-- Is a byte of memory in a named memory stack: hub u / 4, stack u mod 4, channels 32 to each. -/
def State.inMemStacks (s : State) (units a : Nat) : Bool := units.testBit (4 * hubOfAddr a + s.channelOf a / 32)

/-- The named memory stacks after a memory test: zeros with valid codes and no poison, and nothing waits to be written back (R454). -/
def State.memTestDone (units : Nat) (s : State) : State :=
  { s with
    memWb := s.memWb.filter (fun e => !units.testBit (4 * (e.1 / 128) + e.1 % 128 / 32))
    mem := s.mem.filter (fun e => !s.inMemStacks units e.1)
    blks := s.blks.filter (fun e => !s.inMemStacks units e.1 && !s.inMemStacks units e.2.addr)
    poi := s.poi.filter (fun e => !s.inMemStacks units (64 * e.1))
    memErr := s.memErr.filter (fun e => !s.inMemStacks units (64 * e.1)) }

/-- Log entries of the tiers that a full test left out because they are worn, as faults of the cell patterns; what DETAIL holds of one is
not stated, a free value (R453, R455, log entry 137). -/
def State.skippedFaults (s : State) : List TestFault :=
  let t := s.bst.skipped
  ((List.range t.length).zip t).map (fun x =>
    { part := 7, unit := x.2.1 / 655360, pass := x.2.2, loc := x.2.1 % 655360 / 16 + 2 ^ 16 * (x.2.1 % 16), detail := Config.freeNat (s.free + x.1) })

/-- SELF_TEST_END with the faults found and the duration (R455); worn tiers are logged after them (R453). The coverage that a memory test
writes is not stated. -/
def execSelfTestEnd (faults : List TestFault) (ms : Nat) (s : State) : Host.Outcome State Fault Refusal :=
  if !s.testing then .next s
  else
    let test := s.rd R.BST.CTL_TEST 0
    let units := s.rd R.BST.UNITS 0
    let s := if test = 2 then (s.testTo 6).each (maskBits 12 units) State.fullTestDone else s
    let worn := if test = 2 then s.skippedFaults else []
    let s := { s with free := s.free + worn.length }
    -- cells that a pattern pass found wrong have not verified (R164, R455)
    let cells := (faults.filter (fun f => test == 2 && f.part == 7)).foldl (fun a f => a + f.detail) 0
    let s := (s.bump R.WLDG.PROG_FAIL_CNT 0 cells).whenB (cells != 0) (fun s => s.raise R.WLDG.EVT_PROG_CELL_FAIL 0)
    let s := if test = 3 then s.memTestDone units else s
    let faults := faults ++ worn
    let cap := s.rd R.BST.LOG_CAP 0
    let kept := faults.take cap
    let s := s.mwr (s.rd R.BST.LOG_ADDR 0) (kept.flatMap (TestFault.record test))
    let s := (s.wr R.BST.LOG_COUNT 0 kept.length).bump R.BST.FAULT_CNT 0 faults.length
    let s := s.whenB (decide (cap < faults.length)) (fun s => s.raise R.BST.EVT_LOG_FULL 0)
    let (x, s) := if test = 3 then s.takeFree else (0, s)
    let s := (s.wr R.BST.FAIL_UNITS 0 (maskOf (faults.map (·.unit % 16)))).wr R.BST.COVER 0 (if test = 1 then 960 else if test = 2 then 995 else x)
    let s := ((s.wr R.BST.ELAPSED_MS 0 ms).count R.BST.RUN_CNT 0).raise R.BST.EVT_DONE 0
    .next ((s.whenB (!faults.isEmpty) (fun s => s.raise R.BST.EVT_FAIL 0)).wr R.BST.STAT_STATE 0 (if faults.isEmpty then 2 else 3)).setProgramming

end Sys2Proof.Machine
end

