-- ==== Sys2Proof/Machine/Modes.lean ====
section
/-! DEFINITION. The power-fail warning, DOZE and the ends of power-state changes (R357, R366 to R372). -/
namespace Sys2Proof.Machine

/-! ### Power-fail warning (R370, R371) -/

/-- Programming, loads, cover fetches and spare programming of a partition stop (R173, R335). -/
def State.pfwStop (p : Nat) (s : State) : State :=
  let s := s.whenB (s.loading p) (fun s => s.loadFail p lsPowerFail none)
  (s.stopCovers p).stopSpare p

/-- What the module does at the power-fail warning (R370): it stops programming and steps, takes every partition to QUIET,
reports, and commits the black box of every hub. -/
def State.powerFail (s : State) : State :=
  let ps := (List.range 12).filter s.partExists
  let s := s.each ps State.pfwStop
  let s := (s.each ps State.toQuiet).stopTest
  -- a return from DOZE completes its rail changes, and the module stays in DOZE (R372)
  let s := s.whenB (s.pwr.move == 2) (fun s => s.onPwr (fun w => { w with move := 3 }))
  let s := ((s.wr R.PWR.STAT_PFW 0 1).count R.PWR.PFW_CNT 0).raise R.PWR.EVT_PFW_ASSERT 0
  let s := s.reportSevere 0 (mkReport 13 0 0 0x11 3 (maskOf ps) 0) 2
  s.each (List.range 4) (fun h s => s.startCommit h 2)

/-- POWER_FAIL_WARNING: the board asserts the warning. -/
def execPowerFailWarning (s : State) : Host.Outcome State Fault Refusal := if s.is R.PWR.STAT_PFW 0 then .next s else .next s.powerFail

/-- PFW_DEASSERT (R371). -/
def execPfwDeassert (s : State) : Host.Outcome State Fault Refusal :=
  if !s.is R.PWR.STAT_PFW 0 then .next s
  else .next (((s.wr R.PWR.STAT_PFW 0 0).raise R.PWR.EVT_PFW_DEASSERT 0).onPwr (fun w => { w with pfwEnd := some s.clk.devTime }))

/-- INPUT_UNDERVOLTAGE: below 38 V without the warning acts as the warning (R357). -/
def execInputUndervoltage (mv : Nat) (s : State) : Host.Outcome State Fault Refusal :=
  if 38000 ≤ mv then .next s
  else
    let s := s.wr R.PWR.VIN_MV 0 (mv / 10)
    if s.is R.PWR.STAT_PFW 0 then .next s else .next s.powerFail

/-! ### DOZE (R367, R368) -/

/-- Must a DOZE request be refused (R367); also outside ACTIVE or while a change runs (DEDUCED, log entry 58). -/
def State.dozeRefused (s : State) : Bool :=
  let ps := (List.range 12).filter s.partExists
  s.rd R.PWR.STAT_MOD_STATE 0 != 1 || s.pwr.move != 0 || !s.pwr.rising.isEmpty || s.testing ||
    ps.any (fun p => s.partState p == 1 || s.loading p || (s.part p).covers.any (fun e => !e.2.ready) || (s.part p).spareRun.isSome) ||
    (List.range 4).any (fun h => (s.hub h).commit.isSome)

/-- PWR_MOD_CTL.DOZE: refused, or the entry begins: the network ports stop and their links go down. -/
def State.actDoze (s : State) : State :=
  if s.dozeRefused then s.refuseState
  else
    let s := s.each ((List.range 16).filter (fun n => s.is R.FAB.STAT_LINK_UP n)) State.portDown
    let s := s.each (List.range 16) (fun n s => s.wr R.FAB.STAT_TRAINING n 0)
    (s.onPwr (fun w => { w with move := 1 })).setTransition

/-- DOZE. -/
def execDoze (s : State) : Host.Outcome State Fault Refusal := .next s.actDoze

/-- PWR_MOD_CTL.WAKE: outside DOZE it is ignored and sets STATE_REFUSED. -/
def State.actWake (s : State) : State :=
  if s.rd R.PWR.STAT_MOD_STATE 0 != 3 || s.pwr.move != 0 then s.refuseState
  else (s.onPwr (fun w => { w with move := 2 })).setTransition

/-- WAKE. -/
def execWake (s : State) : Host.Outcome State Fault Refusal := .next s.actWake

/-- The entry into DOZE or the return from it has finished; after a return the ports train again. A return that met the power-fail warning
leaves the module in DOZE (R372). -/
def State.moveDone (s : State) : State :=
  if s.pwr.move = 3 then (s.onPwr (fun w => { w with move := 0 })).setTransition
  else
  let v := if s.pwr.move = 1 then 3 else 1
  let s := s.whenB (v == 1) (fun s => s.each (List.range 16) (fun n s => s.wrB R.FAB.STAT_TRAINING n (s.en .fab n)))
  let s := (s.onPwr (fun w => { w with move := 0 })).setTransition
  ((s.wr R.PWR.STAT_MOD_STATE 0 v).raise R.PWR.EVT_STATE_DONE 0).stateReport 0 0

/-- STATE_DONE: the return of a partition to ACTIVE, or a change of the module (none), completes. -/
def execStateDone (part : Option (Fin 12)) (s : State) : Host.Outcome State Fault Refusal :=
  match part with
  | some p => .next (s.activeDone p.val)
  | none => if s.pwr.move = 0 then .next s else .next s.moveDone

end Sys2Proof.Machine
end

