-- ==== Sys2Proof/Machine/HostLink.lean ====
section
/-! DEFINITION. The Adtik host link below its frames: training, negotiation, flits, replay, credits, and the order in which
frames leave (R397 to R405, R408, R410, R411). -/
namespace Sys2Proof.Machine

/-- Change the link record. -/
def State.onLink (f : LinkSt → LinkSt) (s : State) : State := { s with link := f s.link }

/-- Is the link up. -/
def State.linkIsUp (s : State) : Bool := s.is R.HLK.STAT_LINK_UP 0

/-! ### Training and negotiation (R404, R405, R410, R411) -/

/-- Credits that the module offers (R401). -/
def ownCredits : List Nat := [131072, 1024, 256]

/-- A LINK frame of the module (R404). -/
def State.linkPayload (s : State) (st chosen : Nat) : List Byte :=
  leBytes 1 st ++ leBytes 1 (s.rd R.HLK.CTL_VERSIONS 0) ++ leBytes 1 (s.rd R.HLK.CTL_FORMATS 0) ++ leBytes 1 chosen ++
    leBytes 2 (s.link.rxNext + 65535) ++ leBytes 1 (if s.link.rxValid then 1 else 0) ++ leBytes 1 0 ++ ownCredits.flatMap (leBytes 4) ++
    leBytes 8 s.clk.devTime ++ leBytes 4 0

/-- Queue a LINK frame. -/
def State.linkSay (st chosen : Nat) (s : State) : State :=
  let f := linkFrame 1 0 (s.linkPayload st chosen)
  s.onLink (fun l => { l with linkOut := l.linkOut ++ [f] })

/-- CHOSEN that follows from an OFFER: version code 1 to 4 and format; none when there is no common one or the host offers too
few credits. -/
def State.linkChoice (s : State) (o : List Byte) : Option Nat :=
  let v := s.rd R.HLK.CTL_VERSIONS 0 &&& byteAt o 1
  let code := if v.testBit 3 then 4 else if v.testBit 2 then 3 else if v.testBit 1 then 2 else if v.testBit 0 then 1 else 0
  let fm := s.rd R.HLK.CTL_FORMATS 0 &&& byteAt o 2
  let fmt := if 3 ≤ code ∧ fm.testBit 1 then 2 else if fm.testBit 0 then 1 else 0
  if code = 0 ∨ fmt = 0 ∨ fieldLE o 8 4 < 5 ∨ fieldLE o 12 4 < 1 ∨ fieldLE o 16 4 < 2 then none else some (code + 16 * fmt)

/-- Training begins: electrical training first (step 2 of R404). -/
def State.startTraining (s : State) : State :=
  (s.onLink (fun l => { l with trained := false, offer := none, confirmIn := false, confirmOut := false, linkOut := [], resend := 0, fails := 0, trainIn := [], trainSkip := 0 })).wr
    R.HLK.STAT_TRAINING 0 1

/-- Fields that read 0 while the link is down. -/
def State.linkShowDown (s : State) : State :=
  let s := s.whenB s.linkIsUp (fun s => (s.raise R.HLK.EVT_LINK_DOWN 0).onLink (fun l => { l with downAt := s.clk.devTime }))
  ((s.wr R.HLK.STAT_LINK_UP 0 0).wr R.HLK.STAT_VERSION 0 0).wr R.HLK.STAT_FORMAT 0 0

/-- Retrain (R410). -/
def State.retrain (s : State) : State := (s.linkShowDown.startTraining).flagCount R.HLK.EVT_RETRAIN R.HLK.RETRAIN_CNT 0

/-- HLK EN has become 1: the module starts training (R404). The time that a link which is not up has been down counts from here
(DEDUCED, log entry 120). -/
def State.hlkEnable (s : State) : State := s.startTraining.onLink (fun l => { l with downAt := s.clk.devTime })
/-- HLK EN has become 0: the link goes down and training ends. -/
def State.hlkDisable (s : State) : State := (s.linkShowDown.startTraining).wr R.HLK.STAT_TRAINING 0 0

/-- HOST_LINK_TRAINED: FEC lock on 8 lanes; the first OFFER is sent. -/
def execHostLinkTrained (s : State) : Host.Outcome State Fault Refusal :=
  if !s.is R.HLK.STAT_TRAINING 0 || s.link.trained || !s.clk.refOn then .next s
  else .next ((s.onLink (fun l => { l with trained := true })).linkSay 1 0)

/-- OFFER_REPEAT: until the peer's OFFER is received. -/
def execOfferRepeat (s : State) : Host.Outcome State Fault Refusal :=
  if s.link.trained && !s.linkIsUp && s.link.offer.isNone then .next (s.linkSay 1 0) else .next s

/-- Flits at the front of the replay buffer that an acknowledgement covers. -/
def LinkSt.acked (l : LinkSt) (fack : Nat) : Nat :=
  let first := (l.txSeq + 65536 * 2 - l.replay.length) % 65536
  let n := (fack + 1 + 65536 - first) % 65536
  if n ≤ l.replay.length then n else 0

/-- The oldest frame of a partition's ring has been acknowledged: it leaves, and what waited for room goes on (R408). -/
def State.ringPop (p : Nat) (s : State) : State :=
  let s := s.onPart p (fun q => { q with resp := q.resp.drop 1, respSent := q.respSent - 1 })
  let s := s.drainWait p (s.part p).respWait.length
  s.drainInbox p (s.part p).inbox.length

/-- Free the flits that an acknowledgement covers; the frames that end in them leave their rings. -/
def State.ackTo (fack : Nat) (s : State) : State :=
  let n := s.link.acked fack
  if n = 0 then s
  else
    let gone := (s.link.replay.take n).flatMap (·.2)
    let s := s.onLink (fun l => { l with replay := l.replay.drop n, resend := min l.resend (l.replay.length - n), fails := 0, since := s.clk.devTime })
    s.each gone State.ringPop

/-- The link comes up, and below version 1.1 the EVENT frames that wait are dropped (R405): sending goes on from the peer's LAST_RX with
the credits held, which after the module's own reset are those of the OFFER (DEDUCED, log entry 128); or, when the peer was reset, from
the oldest frame of each ring with the peer's new credits; sequence numbers continue on both sides (R399, R410, log entry 59). -/
def State.linkUp (o : List Byte) (chosen : Nat) (s : State) : State :=
  let s := if byteAt o 6 = 1 then
      let s := s.ackTo (fieldLE o 4 2)
      s.onLink (fun l => { l with
        resend := l.replay.length, txSeq := if l.replay.isEmpty then (fieldLE o 4 2 + 1) % 65536 else l.txSeq
        credits := if l.pools then l.credits else [fieldLE o 8 4, fieldLE o 12 4, fieldLE o 16 4] })
    else
      let s := s.onLink (fun l => { l with
        nak := false, replay := [], resend := 0, stream := [], skip := 0, sending := [], sendPart := none
        credits := [fieldLE o 8 4, fieldLE o 12 4, fieldLE o 16 4], creditRet := [0, 0, 0] })
      s.each ((List.range 12).filter s.partExists) (fun p s => s.onPart p (fun q => { q with respSent := 0 }))
  let s := s.onLink (fun l => { l with pools := true })
  let s := ((s.wr R.HLK.STAT_LINK_UP 0 1).wr R.HLK.STAT_TRAINING 0 0).wr R.HLK.STAT_HOST_LOST 0 0
  let s := if 1 < chosen % 16 then s else (s.each s.link.evts (fun _ s => s.flagCount R.HLK.EVT_EVT_DROP R.HLK.EVT_DROP_CNT 0)).onLink (fun l => { l with evts := [] })
  ((s.wr R.HLK.STAT_VERSION 0 (chosen % 16)).wr R.HLK.STAT_FORMAT 0 (chosen / 16)).raise R.HLK.EVT_LINK_UP_EVT 0

/-- Negotiation fails: the link stays down until the next training. -/
def State.negFail (s : State) : State :=
  ((s.onLink (fun l => { l with trained := false, offer := none, confirmIn := false, confirmOut := false })).wr R.HLK.STAT_TRAINING 0 0).raise
    R.HLK.EVT_NEG_FAIL 0

/-- Up when CONFIRM has gone and come. -/
def State.tryUp (s : State) : State :=
  match s.link.offer with
  | some o => if s.link.confirmIn && s.link.confirmOut then s.linkUp o ((s.linkChoice o).getD 0) else s
  | none => s

/-- Take an OFFER: the module's CONFIRM is queued. One that comes while the link is up is discarded (R403). -/
def State.takeOffer (o : List Byte) (s : State) : State :=
  if s.linkIsUp then s.discardFrame
  else if !s.link.trained || s.link.offer.isSome then s
  else
    match s.linkChoice o with
    | none => s.negFail
    | some c => (((s.onLink (fun l => { l with offer := some o })).linkSay 2 c))

/-- Take a CONFIRM. -/
def State.takeConfirm (c : List Byte) (s : State) : State :=
  if s.linkIsUp then s.discardFrame
  else if !s.link.trained then s
  else
    match s.link.offer with
    | some o => if s.linkChoice o = some (byteAt c 3) then (s.onLink (fun l => { l with confirmIn := true })).tryUp else s.negFail
    | none => s.onLink (fun l => { l with confirmIn := true })

/-- A LINK frame with its payload from the host: counted as received; one that is longer than 32 bytes is discarded (R403), and one
whose STATE or length is another has no meaning. -/
def State.linkFrameIn (st : Nat) (payload : List Byte) (act : State → State) (s : State) : State :=
  if !s.linkIsUp && !s.link.trained then s
  else
    let s := s.count R.HLK.RX_FRAMES 0
    if 32 < payload.length then s.discardFrame
    else if byteAt payload 0 = st ∧ payload.length = 32 then act s
    else s

/-- LINK_OFFER. -/
def execLinkOffer (payload : List Byte) (s : State) : Host.Outcome State Fault Refusal := .next (s.linkFrameIn 1 payload (State.takeOffer payload))

/-- LINK_CONFIRM. -/
def execLinkConfirm (payload : List Byte) (s : State) : Host.Outcome State Fault Refusal := .next (s.linkFrameIn 2 payload (State.takeConfirm payload))

/-- FEC_LOCK_LOST. -/
def execFecLockLost (s : State) : Host.Outcome State Fault Refusal :=
  if s.linkIsUp || s.link.trained then .next s.retrain else .next s

/-- HOST_ADAPTER_TRAINING: the module trains with it while its link is enabled. -/
def execHostAdapterTraining (s : State) : Host.Outcome State Fault Refusal := if s.en .hlk 0 then .next s.retrain else .next s

/-- HOST_LINK_DOWN_TIMEOUT: the link has been down for HLK_DOWN_TMO ms of device time (R411). -/
def execHostLinkDownTimeout (s : State) : Host.Outcome State Fault Refusal :=
  if s.linkIsUp || s.is R.HLK.STAT_HOST_LOST 0 || !s.en .hlk 0 || !s.passed s.link.downAt (1000000 * s.rd R.HLK.DOWN_TMO 0) then .next s
  else .next (((s.wr R.HLK.STAT_HOST_LOST 0 1).raise R.HLK.EVT_HOST_LOST_EVT 0).report 0 (mkReport 12 0 0 0x20 0 0 0))

/-! ### Sending (R398, R399, R401, R402) -/

/-- Flits that the replay buffer holds (R399). -/
def replayFlits : Nat := 1024
/-- Bytes of the frame stream in a flit (R398). -/
def flitData : Nat := 240

/-- A flit, its CRC last (R398). -/
def adtikFlit (seq fack ch flags count : Nat) (data : List Byte) : List Byte :=
  let b := leBytes 2 seq ++ leBytes 2 fack ++ leBytes 1 ch ++ leBytes 1 flags ++ leBytes 2 count ++ padTo flitData data ++ leBytes 4 0
  b ++ leBytes 4 (crc32c b)

/-- Does the module hold the credits of a frame on a channel. -/
def State.canSend (s : State) (ch : Nat) (f : List Byte) : Bool := decide (cdiv f.length 64 ≤ s.link.credits.getD ch 0)

/-- Pay for a frame and start sending it. -/
def State.beginFrame (ch : Nat) (p : Option Nat) (f : List Byte) (s : State) : State :=
  (s.onLink (fun l => { l with
    sending := f, sendPart := p
    credits := (List.range 3).map (fun c => l.credits.getD c 0 - (if c = ch then cdiv f.length 64 else 0)) })).count R.HLK.TX_FRAMES 0

/-- The next RESPONSE frame of a partition's ring that has not been sent. -/
def State.ringNext (s : State) (p : Nat) : Option (List Byte) := (s.part p).resp[(s.part p).respSent]?

/-- Choose the next frame: REG_COMPLETION, then EVENT, then RESPONSE, the rings in ascending order, one frame at a time
(R402). None when nothing can be sent. -/
def State.nextFrame (s : State) : Option State :=
  match s.link.comps.head?.filter (s.canSend 2), s.link.evts.head?.filter (fun e => s.canSend 1 e.2), s.link.resp0.head?.filter (s.canSend 0) with
  | some f, _, _ => some ((s.onLink (fun l => { l with comps := l.comps.drop 1 })).beginFrame 2 none f)
  | none, some e, _ => some ((s.onLink (fun l => { l with evts := l.evts.drop 1 })).beginFrame 1 none e.2)
  | none, none, some f => some ((s.onLink (fun l => { l with resp0 := l.resp0.drop 1 })).beginFrame 0 none f)
  | none, none, none =>
    let order := (List.range 12).map (fun i => (s.link.rr + i) % 12)
    match order.find? (fun p => match s.ringNext p with | some f => s.canSend 0 f | none => false) with
    | none => none
    | some p =>
      let f := (s.ringNext p).getD []
      some (((s.onPart p (fun q => { q with respSent := q.respSent + 1 })).onLink (fun l => { l with rr := (p + 1) % 12 })).beginFrame 0 (some p) f)

/-- Fill n bytes of a flit's data: the bytes, the partitions whose frames end in them, and the state. -/
def State.fillData : Nat → Nat → State → List Byte × List Nat × State
  | 0, _, s => ([], [], s)
  | fuel + 1, n, s =>
    if n = 0 then ([], [], s)
    else if s.link.sending.isEmpty then
      match s.nextFrame with
      | none => ([], [], s)
      | some s => State.fillData fuel n s
    else
      let piece := s.link.sending.take n
      let rest := s.link.sending.drop n
      let ends := if rest.isEmpty then s.link.sendPart.toList else []
      let s := s.onLink (fun l => { l with sending := rest, sendPart := if rest.isEmpty then none else l.sendPart })
      let (more, ps, s) := State.fillData fuel (n - piece.length) s
      (piece ++ more, ends ++ ps, s)

/-- Put a flit on the wire. -/
def State.flitOut (f : List Byte) (s : State) : State := s.onLink (fun l => { l with out := l.out ++ [f] })

/-- The next flit of a link that is up: a resend; else data and credits, held for replay; a flit without either takes no
sequence number, and is all that goes when the replay buffer is full (log entry 59). -/
def State.sendNext (s : State) : State :=
  let l := s.link
  let fack := (l.rxNext + 65535) % 65536
  let flags := if l.nak then 1 else 0
  if l.resend != 0 then
    match l.replay[l.replay.length - l.resend]? with
    | some r =>
      let f := adtikFlit (fieldLE r.1 0 2) fack (byteAt r.1 4) flags (fieldLE r.1 6 2) ((r.1.drop 8).take flitData)
      ((s.onLink (fun l => { l with resend := l.resend - 1, nak := false })).count R.HLK.RESEND_CNT 0).flitOut f
    | none => s.onLink (fun l => { l with resend := 0 })
  else if replayFlits ≤ l.replay.length then (s.onLink (fun l => { l with nak := false })).flitOut (adtikFlit l.txSeq fack 0xFF flags 0 [])
  else
    let (data, ends, s) := s.fillData 32 flitData
    let ch := ([0, 1, 2].find? (fun c => s.link.creditRet.getD c 0 != 0)).getD 0xFF
    let n := min (s.link.creditRet.getD ch 0) 65535
    let f := adtikFlit l.txSeq fack ch flags n data
    let held := !data.isEmpty || ch != 0xFF
    (s.onLink (fun l => { l with
      nak := false, txSeq := if held then (l.txSeq + 1) % 65536 else l.txSeq
      since := if held && l.replay.isEmpty then s.clk.devTime else l.since
      replay := if held then l.replay ++ [(f, ends)] else l.replay
      creditRet := (List.range 3).map (fun c => l.creditRet.getD c 0 - (if c = ch then n else 0)) })).flitOut f

/-- Put a LINK frame on the wire. With its CONFIRM sent and the peer's received the link is up (R404). -/
def State.linkFrameOut (f : List Byte) (s : State) : State :=
  let flags := if s.link.nak then 1 else 0
  let s := (s.count R.HLK.TX_FRAMES 0).flitOut (adtikFlit s.link.txSeq (s.link.rxNext + 65535) 0xFF flags 0 f)
  let s := s.onLink (fun l => { l with linkOut := l.linkOut.drop 1, nak := false })
  if byteAt f 16 = 2 then (s.onLink (fun l => { l with confirmOut := true })).tryUp else s

/-- FLIT_TRANSMIT: while the link trains, its LINK frames; once up, the frame stream. -/
def execFlitTransmit (s : State) : Host.Outcome State Fault Refusal :=
  if s.linkIsUp then .next s.sendNext
  else if s.link.trained then
    match s.link.linkOut with
    | f :: _ => .next (s.linkFrameOut f)
    | [] =>
      let flags := if s.link.nak then 1 else 0
      .next ((s.onLink (fun l => { l with nak := false })).flitOut (adtikFlit s.link.txSeq (s.link.rxNext + 65535) 0xFF flags 0 []))
  else .next s

/-- Resend from the oldest flit not acknowledged; after 8 resends of it the link retrains (R399, R410). -/
def State.linkResend (s : State) : State :=
  if s.link.replay.isEmpty then s
  else if 8 ≤ s.link.fails then s.retrain
  else s.onLink (fun l => { l with resend := l.replay.length, fails := l.fails + 1, since := s.clk.devTime })

/-- ADTIK_RESEND_TIMEOUT: 4 µs of device time without an acknowledgement (R9, R399). -/
def execAdtikResendTimeout (s : State) : Host.Outcome State Fault Refusal :=
  if s.linkIsUp && s.passed s.link.since 4000 then .next s.linkResend else .next s

end Sys2Proof.Machine
end

