-- ==== Sys2Proof/Machine/RegAccess.lean ====
section
/-! DEFINITION. Register accesses: the address map, who may reach what, the views, 64-bit pairs, the configuration rule, the fields
with rules of their own, and the actions that a write starts (R407, R433, R436, R458 to R472, R476). -/
namespace Sys2Proof.Machine

/-! ### The address map (R459 to R461) -/

/-- Number of a requester: the 16 steward cores, the debug port, the host link. -/
def requesterNo : Requester → Nat
  | .steward h c => 4 * h.val + c.val
  | .debug => 16
  | .host => 17

/-- Global page of a block code and an instance (R460). -/
def globalPage (u i : Nat) : Option (Page × Nat) :=
  let g? : Option Page := match u with
    | 1 => some .afd | 2 => some .cnv | 3 => some .dcp | 4 => some .acu | 8 => some .wldG | 9 => some .mem | 10 => some .noc
    | 11 => if i = 16 then some .fabS else some .fab
    | 12 => some .hlk | 13 => some .pwr | 14 => some .thc | 15 => some .secG | 16 => some .mgt | 17 => some .bst
    | 18 => some .glbG | 19 => some .relG | _ => none
  match g? with
  | some .fabS => some (.fabS, 0)
  | some g => if i < g.count then some (g, i) else none
  | none => none

/-- Page of a partition by block code (R461). -/
def partPage (u : Nat) : Option Page :=
  match u with
  | 5 => some .dcr | 6 => some .kve | 7 => some .srv | 8 => some .wld | 15 => some .sec | 18 => some .glb | 19 => some .rel | _ => none

/-- First address past the register space (R459). -/
def regEnd : Nat := 0x04000000

/-- Page and instance that an address lies in; none at a reserved position. -/
def pageAt (a : Nat) : Option (Page × Nat) :=
  if 0x00080000 ≤ a ∧ a < 0x00A00000 then globalPage (a / 0x80000) (a % 0x80000 / 0x4000)
  else if 0x01000000 ≤ a ∧ a < regEnd then
    (partPage (a % 0x400000 / 0x4000)).map (fun g => (g, (a - 0x01000000) / 0x400000))
  else none

/-- View that an address uses: 0 normal, 1 set, 2 clear, 3 toggle (R467). -/
def viewAt (a : Nat) : Nat := a % 0x4000 / 0x1000
/-- Word of the page that an address names. -/
def offAt (a : Nat) : Nat := a % 0x1000

/-! ### Words of a page (R466) -/

/-- The stored fields of a page with the common ones that the chapters do not list. -/
def Page.allFields (g : Page) : List Field := g.fields ++ [fieldEN g, fieldRaceCnt g, fieldRefusedCnt g]

/-- The pair to which a word belongs, and whether the word is its _HI. -/
def Page.pairAt (g : Page) (off : Nat) : Option (Field × Bool) :=
  match g.fields.find? (fun f => f.pair && f.off == off) with
  | some f => some (f, false)
  | none => (g.fields.find? (fun f => f.pair && f.off + 4 == off)).map (fun f => (f, true))

/-- Is a word one of the mailbox buffer (R437). -/
def isMailbox (g : Page) (off : Nat) : Bool := g == .sec && decide (0x800 ≤ off)

/-- Is a word listed. -/
def Page.listed (g : Page) (off : Nat) : Bool :=
  off == 0x000 || off == 0x004 || off == 0x00C || off == 0x010 || isMailbox g off || (g.pairAt off).isSome ||
    g.allFields.any (fun f => !f.pair && f.off == off)

/-- Instance that BLOCK_ID shows. -/
def shownInst (g : Page) (i : Nat) : Nat := if g = .fabS then 16 else i

/-- BLOCK_ID (R466). -/
def blockId (g : Page) (i : Nat) : Nat := g.unit + 2 ^ 8 * shownInst g i + 2 ^ 16 * flag g.isPart + 2 ^ 24 * 0x4B

/-- BLOCK_VERSION (R466). -/
def blockVersion : Nat := 0x00A10100

/-- Does another field address, out of its range, what a word would show: the spec states no value there (log entry 62). -/
def State.wordOpen (s : State) (g : Page) (i off : Nat) : Bool :=
  match g with
  | .afd => off == 0x034 && decide ((if s.is R.AFD.MAP_ADDR_TABLE i then 38912 else 40960) ≤ s.rd R.AFD.MAP_ADDR_ARRAY i)
  | .cnv => (off == 0x02C || off == 0x030) && (decide (40960 ≤ s.rd R.CNV.TRIM_ADDR_ARRAY i) || decide (264 ≤ s.rd R.CNV.TRIM_ADDR_CONV i))
  | .dcp => off == 0x064 && (decide (40960 ≤ s.rd R.DCP.DRIFT_ADDR_ARRAY i) || s.rd R.DCP.DRIFT_ADDR_STACK i == 3)
  | .wldG => off == 0x01C && (decide (40960 ≤ s.rd R.WLDG.WEAR_ADDR_ARRAY i) || decide (12 ≤ s.rd R.WLDG.WEAR_ADDR_STACK i))
  | .mem => (off == 0x054 || off == 0x058) && decide (12 ≤ s.rd R.MEM.PART_SEL i)
  | .relG => off == 0x024 && (decide (32784 ≤ s.rd R.RELG.BB_ADDR i) || (s.bbSlot i (s.rd R.RELG.BB_SLOT i)).isNone)
  | .thc =>
    let n := s.rd R.THC.SENS_ADDR_INDEX i
    let lim := match s.rd R.THC.SENS_ADDR_UNIT i with | 0 => 640 | 1 => 640 | 2 => 640 | 3 => 64 | 4 => 4 | _ => 0
    ((off == 0x038 || off == 0x03C) && decide (lim ≤ n)) ||
      (off == 0x048 && (decide (640 ≤ s.rd R.THC.TILE_ADDR_TILE i) || s.rd R.THC.TILE_ADDR_STACK i == 3))
  | .hlk => (off == 0x024 || off == 0x02C || off == 0x030) && decide (12 ≤ s.rd R.HLK.RSP_SEL_PART 0)
  | _ => false

/-- Bits of a word that fields hold. -/
def Page.wordMask (g : Page) (off : Nat) : Nat :=
  (g.allFields.filter (fun f => !f.pair && f.off == off)).foldl (fun m f => m ||| ((2 ^ f.width - 1) <<< f.lo)) 0

/-- Key of a shadow: requester, page, instance, word of the pair's _LO (R469). -/
def shadowKey (who : Requester) (g : Page) (i off : Nat) : Nat := ((requesterNo who * 32 + g.idx) * 32 + i) * 4096 + off

/-- Read a listed word (R467, R469): the value, and the state with the shadow that a _LO read fills. -/
def State.readListed (who : Requester) (g : Page) (i off : Nat) (s : State) : Nat × State :=
  match g.pairAt off with
  | some (f, false) =>
    let (v, s) := if s.wordOpen g i off then s.takeFree else (s.fieldVal f i, s)
    let v := v % 2 ^ f.width
    (v % 2 ^ 32, { s with shadowR := AMap.set s.shadowR (shadowKey who g i f.off) (v / 2 ^ 32) })
  | some (f, true) => (AMap.getD s.shadowR (shadowKey who g i f.off) 0, s)
  | none =>
    if off = 0x000 then (blockId g i, s)
    else if off = 0x004 then (blockVersion, s)
    else if isMailbox g off then (leNat ((List.range 4).map (fun b => AMap.getD (s.part i).mbox (off - 0x800 + b) 0)), s)
    else if s.wordOpen g i off then
      let (v, s) := s.takeFree
      (v &&& g.wordMask off, s)
    else (s.wordOf g i off, s)

/-! ### Who reaches what (R407, R433, R436, R458, R463, R464) -/

/-- Does a global page admit a requester: the SEC page only steward cores; the debug port counts in FAB and RETURN. -/
def admits (who : Requester) (g : Page) : Bool :=
  match who, g with
  | .debug, .secG => false
  | .host, .secG => false
  | .host, .bst => false
  | _, _ => true

/-- An unmapped access (R463). -/
def State.unmapped (s : State) : State := s.flagCount R.GLBG.EVT_UNMAPPED R.GLBG.UNMAPPED_CNT 0

/-- May the host link reach an address (R407). -/
def State.hostReaches (s : State) (a : Nat) (write : Bool) : Bool :=
  match pageAt a with
  | some (g, i) => if g.isPart then (s.rd R.HLK.HOST_PARTS 0).testBit i else g == .hlk && !write && viewAt a == 0
  | none => false

/-- A host access that R407 refuses. -/
def State.hostRefused (s : State) : State := s.flagCount R.HLK.EVT_REG_REFUSED R.HLK.REG_REFUSED_CNT 0

/-- Is a word of a SEC page one of its mailbox (R437). -/
def mailboxWord (off : Nat) : Bool := off == 0x014 || off == 0x018 || off == 0x01C || isMailbox .sec off

/-- An access to an address: one to the mailbox of a partition, refused or not, is where the sessions end that the host has lost (R435). -/
def State.reachMailbox (a : Nat) (s : State) : State :=
  match pageAt a with
  | some (.sec, i) => s.whenB (s.partExists i && mailboxWord (offAt a)) (State.mailboxUsed i)
  | _ => s

/-- Is a requester there at all: none in OFF (R369); a steward core that has not been lost (R440), the debug port in FAB and RETURN, outside which its inputs
are ignored (R496), the host link while it is up (R412). -/
def State.present (s : State) (who : Requester) : Bool :=
  s.clk.released && match who with
  | .steward h c => (s.rd R.MGT.STAT_STEWARD_OK h).testBit c
  | .debug => s.debugLive
  | .host => s.is R.HLK.STAT_LINK_UP 0

/-- Read an aligned word of the register space. -/
def State.regRead (who : Requester) (a : Nat) (s : State) : Nat × State :=
  match pageAt a with
  | none => (0, s.unmapped)
  | some (g, i) =>
    if g.isPart && !s.partExists i then (0, s.noPart)
    else if !admits who g || !g.listed (offAt a) then (0, s.unmapped)
    else
      -- the global WLD page shows what a running full self-test has counted by now
      let s := s.whenB (g == .wldG) State.testGoesOn
      s.readListed who g i (offAt a)

/-! ### How a view acts on a field (R467, R468) -/

/-- New value of some bits under a view: the value that they hold, and the written one. -/
def applyView (acc : Acc) (counter : Bool) (view old v : Nat) : Nat :=
  let cleared := old - (old &&& v)
  match acc with
  | .rw => if view = 0 then v else if view = 1 then old ||| v else if view = 2 then cleared else old ^^^ v
  | .ro => if counter ∧ view = 2 then cleared else old
  | .ev => if view = 2 then cleared else old
  | .wo => old

/-- Is a field writable by some view. -/
def Field.writable (f : Field) : Bool := f.acc == .rw || (f.acc == .ro && f.counter)

/-! ### Fields with rules of their own -/

/-- Store into the entry that AFD_MAP_ADDR addresses, in the inactive buffer (R64). -/
def State.putMapData (k v : Nat) (s : State) : State :=
  let a := s.rd R.AFD.MAP_ADDR_ARRAY k
  let w := v &&& 0x8000FFFF
  let second := (s.stk k).mapBuf = 0
  if s.is R.AFD.MAP_ADDR_TABLE k then
    s.onStk k (fun u => if second then { u with arrMap1 := AMap.put u.arrMap1 a w 0 } else { u with arrMap0 := AMap.put u.arrMap0 a w 0 })
  else
    let key := 32 * a + s.rd R.AFD.MAP_ADDR_ENTRY k
    s.onStk k (fun u => if second then { u with colMap1 := AMap.put u.colMap1 key w 0 } else { u with colMap0 := AMap.put u.colMap0 key w 0 })

/-- Store half of the trim record that CNV_TRIM_ADDR addresses, in the inactive buffer (R67, R68). -/
def State.putTrimData (k : Nat) (high : Bool) (v : Nat) (s : State) : State :=
  let key := s.trimKey k
  s.onStk k (fun u =>
    let w := u.trimIn key
    u.putTrim key (if high then setBits w 32 28 v else setBits w 0 32 v))

/-- May a ring field of HLK take a value: the ring with base b and size m MiB (R414). -/
def State.ringOk (s : State) (b m : Nat) : Bool :=
  let p := s.rd R.HLK.RSP_SEL_PART 0
  decide (p < 12) && s.partExists p && !s.en .srv p && b % 4096 == 0 && decide (8 ≤ m) && decide (m ≤ 1024) && s.inPart p b (m * 2 ^ 20)

/-- Is a write of a new value to a field refused by a rule of its chapter. `now` gives the value that another field of the word
takes in the same write (R150, R175, R309, R396, R414, R458). -/
def State.writeRefused (s : State) (now : Field → Nat) (f : Field) (i v : Nat) : Bool :=
  let u := s.part i
  let busyPtr (active : Bool) : Bool := active || s.is R.WLD.STAT_LOADING i || s.is R.WLD.STAT_SWITCH_PENDING i
  let tagged := (s.tagged.any s.formsSteps) && v != s.fieldVal f 0
  if f = R.ACU.PROMO_CADENCE then v == 0 || decide (64 < v)
  else if f = R.WLD.LOAD_PTR then s.is R.WLD.STAT_LOADING i
  else if f = R.WLD.PLACE_A then busyPtr (u.actBuf == 0)
  else if f = R.WLD.PLACE_B then busyPtr (u.actBuf == 1)
  else if f = R.GLB.SPAN_CTL_BAL_EN then v == 1 && decide (now R.GLB.SPAN_CTL_SIZE ≤ 8)
  else if f = R.HLK.RSP_BASE then !s.ringOk v (s.fieldVal R.HLK.RSP_MIB 0)
  else if f = R.HLK.RSP_MIB then !s.ringOk (s.fieldVal R.HLK.RSP_BASE 0) v
  else if f.page = .fabS then tagged && f.cfg
  else f.page == .bst && f.acc == .rw && s.testing

/-- Store a field: in the unit that it addresses, where it has one. An entry addressed out of range takes nothing (log entry
62). -/
def State.putField (f : Field) (i v : Nat) (s : State) : State :=
  if s.wordOpen f.page i f.off then s
  else if f = R.AFD.MAP_DATA then s.putMapData i v
  else if f = R.CNV.TRIM_DATA0 then s.putTrimData i false v
  else if f = R.CNV.TRIM_DATA1 then s.putTrimData i true v
  else if f = R.MEM.FRAME_DATA then s.frameWrite i (s.rd R.MEM.FRAME_ADDR i) v
  else if f = R.MEM.FRAME_CTL_LEN then s.frameSetLen i v
  else if f = R.MEM.PART_BASE then
    s.onHub i (fun u => { u with partRegs := AMap.put u.partRegs (s.rd R.MEM.PART_SEL i) (v, (s.partRange i (s.rd R.MEM.PART_SEL i)).2) (0, 0) })
  else if f = R.MEM.PART_SIZE then
    s.onHub i (fun u => { u with partRegs := AMap.put u.partRegs (s.rd R.MEM.PART_SEL i) ((s.partRange i (s.rd R.MEM.PART_SEL i)).1, v) (0, 0) })
  else if f = R.PWR.PACE_TGT then s.wr f (1 + s.rd R.PWR.PACE_ADDR_DOMAIN 0) v
  else if f = R.HLK.RSP_BASE ∨ f = R.HLK.RSP_MIB then s.wr f (1 + s.rd R.HLK.RSP_SEL_PART 0) v
  else if f = R.FABS.ROUTE_DATA_PORT then s.onRoute (s.rd R.FABS.ROUTE_ADDR 0) (fun r => { r with port := v })
  else if f = R.FABS.ROUTE_DATA_VALID then s.onRoute (s.rd R.FABS.ROUTE_ADDR 0) (fun r => { r with valid := v != 0 })
  else if f = R.HLK.HOST_PARTS then s.hostParts v
  else if lanternField f && i != 0 then s
  else s.wr f i v

/-! ### Actions that a write of 1 starts (R467: access WO) -/

/-- Is a requester firmware, for R434. -/
def isFirmware : Requester → Bool
  | .steward .. => true
  | _ => false

/-- Latencies that the measuring flits of a FORM find: not known to the register write, so free values (R388). -/
def State.formMeasure (s : State) : List Nat × State :=
  ((List.range 32).map (fun j => Config.freeNat (s.free + j)), { s with free := s.free + 32 })

/-- Actions of the pages of array stacks and hubs. -/
def State.hubAction (f : Field) (i v : Nat) (s : State) : State :=
  if f = R.AFD.MAP_SWAP_SWAP then s.actMapSwap i
  else if f = R.CNV.SELFCAL_START then s.actSelfcal i (s.is R.CNV.SELFCAL_SCOPE i)
  else if f = R.CNV.TRIM_CTL_SWAP then s.actTrimSwap i
  else if f = R.MEM.TRAIN_START then s.actTrain i
  else if f = R.MEM.FRAME_CTL_SWAP then s.actSwap i
  else if f = R.MEM.PART_CTL_APPLY then s.actApply i
  else if f = R.RELG.BB_CTL_COMMIT then s.startCommit i 3
  else if f = R.RELG.FW_CTL_PUSH then s.actPush i
  else if f = R.THC.SENS_CTL_EXCLUDE then s.actExclude i
  else if f = R.THC.SENS_CTL_REINSTATE then s.actReinstate i
  else if f = R.THC.RECAL_REQ_GO then s.actRecalReq i
  else if f = R.MGT.WDOG_KICK then s.actKick i v
  else s

/-- Actions of the pages of the module. -/
def State.moduleAction (who : Requester) (f : Field) (s : State) : State :=
  if f = R.PWR.MOD_CTL_DOZE then s.actDoze
  else if f = R.PWR.MOD_CTL_WAKE then s.actWake
  else if f = R.PWR.PART_CTL_QUIET then s.actQuiet
  else if f = R.PWR.PART_CTL_ACTIVE then s.actActive
  else if f = R.FABS.SPAN_CTL_FORM then
    let (l, s) := s.formMeasure
    s.actForm l
  else if f = R.SECG.SVN_CTL_COMMIT then s.actSvnCommit
  else if f = R.SECG.LC_CTL_GO then s.actLcGo
  else if f = R.SECG.KEY_REVOKE_GO then s.actKeyRevoke
  else if f = R.SECG.VERIFY_GO then s.actVerifyStage
  else if f = R.SECG.ID_CTL_CREATE then
    let (e, s) := s.entropy 57
    s.actIdCreate e
  else if f = R.SECG.PART_CTL_CREATE then s.actPartCreate
  else if f = R.SECG.PART_CTL_DESTROY then s.actPartDestroy
  else if f = R.BST.CTL_GO then s.actTest (s.rd R.BST.CTL_TEST 0) (isFirmware who)
  else if f = R.BST.CTL_ABORT then s.stopTest
  else s

/-- Actions of the pages of a partition. -/
def State.partAction (f : Field) (p : Nat) (s : State) : State :=
  if f = R.WLD.LOAD_CTL_START then s.actLoadStart p
  else if f = R.WLD.LOAD_CTL_ABORT then s.actLoadAbort p
  else if f = R.WLD.LOAD_CTL_RETIRE then s.actRetire p
  else if f = R.WLD.SWITCH_SWITCH then s.actSwitch p (s.is R.WLD.SWITCH_MODE p)
  else if f = R.DCR.SET_CTL_VERIFY then s.actVerify p
  else if f = R.DCR.FAULT_CLR_CLR then s.actFaultClr p
  else if f = R.KVE.TREE_CTL_FLUSH then s.actFlush p
  else if f = R.SRV.PREEMPT_GO then s.actPreempt p
  else if f = R.SRV.END_GO then s.actEnd p
  else if f = R.GLB.SPAN_CTL_ROLL_RETRY then s.actRollRetry p
  else if f = R.REL.VERDICT_POP then s.actVerdictPop p
  else if f = R.REL.SPARE_CTL_GO then s.actSpareGo p (s.rd R.REL.SPARE_CTL_MODE p)
  else if f = R.REL.UNAVAIL_CTL_SET then s.actUnavail p true
  else if f = R.REL.UNAVAIL_CTL_CLEAR then s.actUnavail p false
  else if f = R.REL.MASK_CTL_CLEAR then s.actMaskClear p
  else if f = R.SEC.MB_CTL_SEND then s.actSend p
  else s

/-- Start the action of a field. -/
def State.doAction (who : Requester) (f : Field) (i v : Nat) (s : State) : State :=
  if f.page.isPart then s.partAction f i else (s.hubAction f i v).moduleAction who f

end Sys2Proof.Machine
end

