-- ==== Sys2Proof/Machine/RegWrite.lean ====
section
/-! DEFINITION. Enabling and disabling a page, and the register commands (R58, R238, R268, R271, R273, R291, R299, R337, R377, R431,
R463 to R472, R481). -/
namespace Sys2Proof.Machine

/-! ### A write of 1 to EN (R471) -/

/-- Areas of a partition as (base, size): all in its memory, and no two overlap. -/
def State.areasOk (s : State) (p : Nat) (l : List (Nat × Nat)) : Bool :=
  l.all (fun x => x.2 == 0 || s.inPart p x.1 x.2) &&
    (List.range l.length).all (fun i => (l.drop (i + 1)).all (fun y =>
      match l[i]? with | some x => !overlaps x.1 x.2 y.1 y.2 | none => true))

/-- KVE_BOUND0 to KVE_BOUND6. -/
def boundFields : List Field := [R.KVE.BOUND0, R.KVE.BOUND1, R.KVE.BOUND2, R.KVE.BOUND3, R.KVE.BOUND4, R.KVE.BOUND5, R.KVE.BOUND6]

/-- Areas of the key-value engine: pool with its check values, nodes with buckets, table blocks, sequences, masks, bucket list. -/
def State.kveAreas (s : State) (p : Nat) : List (Nat × Nat) :=
  [(s.rd R.KVE.POOL_BASE p, s.rd R.KVE.PAGE_COUNT p * (s.pageBytes p + s.pageBytes p / 1024)),
   (s.rd R.KVE.NODE_BASE p, 320 * s.rd R.KVE.NODE_COUNT p + 32 * 2 ^ s.rd R.KVE.BUCKET_CTL_BUCKET_LOG2 p),
   (s.rd R.KVE.TBL_BASE p, 1024 * s.rd R.KVE.TBL_COUNT p), (s.rd R.KVE.SEQ_BASE p, 4194304),
   (s.rd R.KVE.MASK_TBL p, 4 * s.kvLayers p), (s.rd R.KVE.BKT_BASE p, 65600)]

/-- May KVE be enabled (R227, R238). -/
def State.kveOk (s : State) (p : Nat) : Bool :=
  let bounds := boundFields.map (fun f => s.rd f p)
  let n := s.rd R.KVE.PAGE_COUNT p
  decide (1 ≤ n) && decide (n ≤ 2 ^ 29) && s.rd R.KVE.NODE_COUNT p != 0 && s.rd R.KVE.TBL_COUNT p != 0 &&
    decide (64 ≤ s.kvPlb p) && decide (s.kvPlb p ≤ 4096) && s.kvPlb p % 64 == 0 && decide (1 ≤ s.kvLayers p) && decide (s.kvLayers p ≤ 256) &&
    bounds.all (fun b => b % 64 == 0) && strictlyRising bounds &&
    decide (10 ≤ s.rd R.KVE.BUCKET_CTL_BUCKET_LOG2 p) && decide (s.rd R.KVE.BUCKET_CTL_BUCKET_LOG2 p ≤ 24) &&
    s.rd R.KVE.POOL_BASE p % 4096 == 0 && s.rd R.KVE.NODE_BASE p % 64 == 0 && s.rd R.KVE.TBL_BASE p % 1024 == 0 &&
    s.rd R.KVE.SEQ_BASE p % 64 == 0 && s.areasOk p (s.kveAreas p)

/-- Areas of serving control (R268): hampers, count tables, prompt ring, token blocks, step table. -/
def State.srvAreas (s : State) (p : Nat) : List (Nat × Nat) :=
  [(s.rd R.SRV.HAMPER_BASE p, 2 ^ 28), (s.rd R.SRV.CNT_BASE p, 2 ^ 30), (s.rd R.SRV.RING_BASE p, 64 * s.rd R.SRV.RING_SIZE p),
   (s.rd R.SRV.TOK_BASE p, 256 * s.rd R.KVE.PAGE_COUNT p), (s.rd R.SRV.STEP_BASE p, 10485824)]

/-- Does a field hold a value of a range. -/
def State.within (s : State) (f : Field) (i lo hi : Nat) : Bool := decide (lo ≤ s.rd f i) && decide (s.rd f i ≤ hi)

/-- May SRV be enabled (R268). -/
def State.srvOk (s : State) (p : Nat) : Bool :=
  s.rd R.SRV.HAMPER_BASE p % 4096 == 0 && s.rd R.SRV.CNT_BASE p % 4096 == 0 && s.rd R.SRV.RING_BASE p % 64 == 0 &&
    s.rd R.SRV.TOK_BASE p % 256 == 0 && s.rd R.SRV.STEP_BASE p % 64 == 0 && s.areasOk p (s.srvAreas p) &&
    s.within R.SRV.RING_SIZE p 65537 0xFFFFFFFF && s.within R.SRV.VOCAB p 2 16777216 && s.within R.SRV.LIMIT p 1 65536 &&
    s.within R.SRV.FORM_STEP_MAX p 1 16384 && s.within R.SRV.FORM_PREFILL_MAX p 0 16384 && s.within R.SRV.FORM_CHUNK p 1 16384

/-- May the partition REL page be enabled (R337). -/
def State.relOk (s : State) (p : Nat) : Bool :=
  s.within R.REL.COVER_SLOTS p 0 32 && s.within R.REL.CTL_REPLAY_MAX p 1 7 && s.rd R.REL.COVER_BASE p % 4096 == 0 &&
    s.rd R.REL.UNAVAIL_BASE p % 4096 == 0 &&
    s.areasOk p [(s.rd R.REL.COVER_BASE p, s.rd R.REL.COVER_SLOTS p * coverSlotBytes), (s.rd R.REL.UNAVAIL_BASE p, 2 ^ 21)]

/-- May the partition GLB page be enabled (R299, R309, R311). -/
def State.glbOk (s : State) (p : Nat) : Bool :=
  s.within R.GLB.EXACT_MODE p 0 2 && s.within R.GLB.EXACT_GRID_EXP p 4 15 && s.within R.GLB.SPAN_CTL_SIZE p 1 32 &&
    s.within R.GLB.ROLL_TMO p 1 65535 && !(s.is R.GLB.SPAN_CTL_BAL_EN p && decide (s.rd R.GLB.SPAN_CTL_SIZE p ≤ 8)) &&
    !s.exactBad p (s.part p).setAct

/-- May MEM be enabled (R271, R273): trained, and only channels that passed. -/
def State.memOk (s : State) (h : Nat) : Bool :=
  s.is R.MEM.STAT_TRAINED h && (s.mask128 chEnFields h &&& s.mask128 chOkFields h) == s.mask128 chEnFields h

/-- Does a clear hold an array stack's EN at 0 (R419, R431): its own, or one of its partition. -/
def State.clearHolds (s : State) (k : Nat) : Bool :=
  s.sec.retClear.contains k || (match s.ownerOf k with | some p => !(s.part p).clear.isEmpty | none => false)

/-- May a page be enabled, as far as CONFIG_REFUSED says so. -/
def State.enableOk (s : State) (g : Page) (i : Nat) : Bool :=
  match g with
  | .afd => !s.clearHolds i
  | .mem => s.memOk i
  | .thc => s.within R.THC.RECAL_DT i 1 15
  | .fabS => s.within R.FABS.BAL_CTL_MAX_MOVES 0 1 7
  | .dcr => s.within R.DCR.STEP_TMO i 1 1000000
  | .kve => s.kveOk i
  | .srv => s.srvOk i
  | .rel => s.relOk i
  | .glb => s.glbOk i
  | _ => true

/-- What the enabling of a page starts. -/
def State.enabled (g : Page) (i : Nat) (s : State) : State :=
  match g with
  | .mem => s.wr R.MEM.CAP i (4 * (s.channels i).length)
  | .kve => s.kveInit i
  | .hlk => s.hlkEnable
  | .fab => s.wrB R.FAB.STAT_TRAINING i (s.rd R.PWR.STAT_MOD_STATE 0 == 1 && s.pwr.move == 0 && s.clk.refOn)
  | .dcp => s.each (List.range 12) (fun p s => s.whenB (s.partExists p) (fun s => s.onPart p (fun q => { q with
      hold := q.hold.filter (· != (Page.dcp.idx, i)) })))
  | .acu => s.each (List.range 12) (fun p s => s.whenB (s.partExists p) (fun s => s.onPart p (fun q => { q with
      hold := q.hold.filter (· != (Page.acu.idx, i)) })))
  | _ => s

/-- A write of 1 to EN of a page whose EN is 0: refused with the flag that the chapter names, or accepted (R58, R471). -/
def State.actEnable (g : Page) (i : Nat) (s : State) : State :=
  if g = .afd ∧ !s.is R.CNV.SELFCAL_STAT_DONE i then s.raise R.AFD.EVT_NOT_CALIBRATED i
  else if !s.enableOk g i then s.refuseWrite g i
  else (s.wr (fieldEN g) i 1).enabled g i

/-! ### A write of 0 to EN (R472) -/

/-- Has a load or cover fetch of a partition named in OWNERS a queue pair on a port (R377, R380). -/
def State.portInUse (s : State) (n : Nat) : Bool :=
  s.fab.qps.any (fun e => e.2.port == n && !e.2.closed && s.partExists (qpPart e.1) && (s.rd R.FAB.PORT_CFG_OWNERS n).testBit (qpPart e.1))

/-- Does the chapter refuse the disabling of a page (R238, R266, R291, R377). -/
def State.disableRefused (s : State) (g : Page) (i : Nat) : Bool :=
  match g with
  | .kve => (s.part i).seqs.any (fun e => e.2.live) || s.formsSteps i
  | .srv => !(s.part i).hampers.isEmpty
  | .mem => (List.range 12).any (fun p => (s.part p).ranges.any (fun r => r.1 == i && r.2.2 != 0))
  | .fab => s.portInUse i || (s.is R.FABS.STAT_FORMED 0 && s.fab.routes.any (fun r => r.2.valid && r.2.port == i))
  | _ => false

/-- What the disabling of a page ends. -/
def State.disabled (g : Page) (i : Nat) (s : State) : State :=
  match g with
  | .mem => s.wr R.MEM.CAP i 0
  | .hlk => s.hlkDisable
  | .fab => (s.whenB (s.is R.FAB.STAT_LINK_UP i) (fun s => s.portDown i)).wr R.FAB.STAT_TRAINING i 0
  | _ => s

/-- Partitions at whose boundary the disabling of a page takes effect; none where it does at once: a partition that forms no
steps has no boundary to wait for, and one that has formed none yet is at its boundary (R472, R481). -/
def State.disableWaits (s : State) (g : Page) (i : Nat) : List Nat :=
  let ps := match g with
    | .afd => (s.ownerOf i).toList
    | .cnv => (s.ownerOf i).toList
    | .dcp => s.affected i .hub
    | .acu => s.affected i .hub
    | _ => if g.isPart then [i] else []
  ps.filter (fun p => s.formsSteps p && !s.unstepped p)

/-- Does an earlier write of 0 to EN still wait for a boundary: its item waits at a partition, or a partition that has reached its boundary
holds its steps for it (R472). -/
def State.disableAsked (s : State) (item : Nat × Nat) : Bool :=
  (List.range 12).any (fun p => (s.part p).disPend.contains item || (s.part p).hold.contains item)

/-- A write of 0 to EN of a page whose EN is 1; a second one before it takes effect changes nothing. Partitions that are at their
boundary already hold their steps for a DCP or ACU page at once. -/
def State.actDisable (g : Page) (i : Nat) (s : State) : State :=
  let item : Nat × Nat := (g.idx, i)
  if s.disableRefused g i then (s.whenB (g == .srv) (fun s => s.wrongState i)).refuseWrite g i
  else if s.disableAsked item then s
  else
    let ps := s.disableWaits g i
    let s := s.each ps (fun p s => s.onPart p (fun q => { q with disPend := q.disPend ++ [item] }))
    let now := if sharedPage g.idx then (s.affected i .hub).filter (fun p => s.formsSteps p && s.unstepped p) else []
    let s := s.each now (fun p s => s.onPart p (fun q => { q with hold := q.hold ++ [item] }))
    if ps.isEmpty then (s.wr (fieldEN g) i 0).disabled g i else s

/-! ### Writes (R467 to R471) -/

/-- Written bits of a field in a word. -/
def Field.slice (f : Field) (w : Nat) : Nat := bits w f.lo f.width

/-- Judge and store some fields that a write gives new values, then count a refusal once (R466, R470). -/
def State.storeFields (g : Page) (i : Nat) (news : List (Field × Nat)) (s : State) : State :=
  let now (f : Field) : Nat := match news.find? (fun x => x.1 == f) with | some x => x.2 | none => s.fieldVal f i
  let bad (x : Field × Nat) : Bool :=
    (x.1.cfg && s.en g i && x.2 != s.fieldVal x.1 i) || s.writeRefused now x.1 i x.2
  let s' := s.each (news.filter (fun x => !bad x)) (fun x s => s.putField x.1 i x.2)
  s'.whenB (news.any bad) (fun s => s.refuseWrite g i)

/-- Write the EN bit (R471, R472, R476). -/
def State.writeEn (g : Page) (i view v : Nat) (s : State) : State :=
  let old := s.rd (fieldEN g) i
  let new := applyView .rw false view old (v % 2) % 2
  if new = old then s else if new = 1 then s.actEnable g i else s.actDisable g i

/-- Clear event flags. A flag of `hc` is set by its cause in the same hc: the set wins (R468). -/
def State.clearEvents (g : Page) (i v : Nat) (hc : SameHc) (s : State) : State :=
  s.each (g.fields.filter (fun f => f.acc == .ev && v.testBit f.lo)) (fun f s =>
    if hc.flags.toNat.testBit f.lo then (s.raise f i).count (fieldRaceCnt g) i else s.wr f i 0)

/-- Write a mailbox word (R437). -/
def State.writeMailbox (p off view v : Nat) (s : State) : State :=
  let old := leNat ((List.range 4).map (fun b => AMap.getD (s.part p).mbox (off - 0x800 + b) 0))
  let new := leBytes 4 (applyView .rw false view old v)
  s.onPart p (fun q => { q with mbox := ((List.range 4).zip new).foldl (fun m e => AMap.put m (off - 0x800 + e.1) e.2 0) q.mbox })

/-- Write a word that is no half of a pair: fields first, then the actions, from bit 0 up. -/
def State.writeWord (who : Requester) (g : Page) (i off view v : Nat) (s : State) : State :=
  let fs := g.allFields.filter (fun f => !f.pair && f.off == off)
  let news := (fs.filter (·.writable)).map (fun f => (f, applyView f.acc f.counter view (s.fieldVal f i) (f.slice v) % 2 ^ f.width))
  let touched := if view = 0 then news.filter (fun x => x.1.acc == .rw) else news
  let refused := s.rd (fieldRefusedCnt g) i
  let s := s.storeFields g i touched
  if 2 ≤ view then s
  else
    let s := s.each (fs.filter (fun f => f.acc == .wo && f.slice v != 0)) (fun f s => s.doAction who f i (f.slice v))
    -- one write that is refused in several ways counts once (R466)
    s.wr (fieldRefusedCnt g) i (min (s.rd (fieldRefusedCnt g) i) (refused + 1))

/-- Write the _HI word of a pair: with the held _LO, each half through the view with which it was written (R469). -/
def State.writePair (who : Requester) (g : Page) (i : Nat) (f : Field) (view v : Nat) (s : State) : State :=
  let key := shadowKey who g i f.off
  let old := s.fieldVal f i
  let hi := applyView f.acc f.counter view (old / 2 ^ 32) v
  let lo := match AMap.get? s.shadowW key with
    | some w => applyView f.acc f.counter (w / 2 ^ 32) (old % 2 ^ 32) (w % 2 ^ 32)
    | none => old % 2 ^ 32
  let s := { s with shadowW := AMap.erase s.shadowW key }
  if f.writable then s.storeFields g i [(f, (lo % 2 ^ 32 + 2 ^ 32 * hi) % 2 ^ f.width)] else s

/-- Counters of a word, or of the pair to which it belongs as _HI, that count in the same hc in which the clear view clears them: the
increment comes after the clear (R476). -/
def State.countAfter (g : Page) (i off : Nat) (hc : SameHc) (s : State) : State :=
  s.each hc.counts (fun x s => s.each (g.allFields.filter (fun f => f.counter && f.off == x.1 && (f.off == off || f.pair && f.off + 4 == off)))
    (fun f s => s.bump f i x.2))

/-- Write a listed word through a view. -/
def State.writeListed (who : Requester) (g : Page) (i off view v : Nat) (hc : SameHc) (s : State) : State :=
  match g.pairAt off with
  | some (f, false) => { s with shadowW := AMap.set s.shadowW (shadowKey who g i f.off) (v + 2 ^ 32 * view) }
  | some (f, true) => (s.writePair who g i f view v).whenB (view == 2) (fun s => s.countAfter g i off hc)
  | none =>
    if off = 0x008 then s.writeEn g i view v
    else if off = 0x010 then (if view = 2 then s.clearEvents g i v hc else s)
    else if isMailbox g off then s.writeMailbox i off view v
    else (s.writeWord who g i off view v).whenB (view == 2) (fun s => s.countAfter g i off hc)

/-- Write an aligned word of the register space. -/
def State.regWrite (who : Requester) (a v : Nat) (hc : SameHc) (s : State) : State :=
  match pageAt a with
  | none => s.unmapped
  | some (g, i) =>
    if g.isPart && !s.partExists i then s.noPart
    else if !admits who g || !g.listed (offAt a) then s.unmapped
    else s.writeListed who g i (offAt a) (viewAt a) v hc

/-! ### Accesses by requester (R406, R407, R463, R464, R496) -/

/-- Record what a read brings its requester. -/
def State.bring (who : Requester) (v : Nat) (s : State) : State := { s with rdVal := AMap.set s.rdVal (requesterNo who) v }

/-- What an access-fault exception leaves in the record of reads: no value of 8 bytes. -/
def accessFault : Nat := 2 ^ 64

/-- A requester's access raises an access-fault exception: a steward core's; the others have none. -/
def State.faultAccess (who : Requester) (s : State) : State :=
  match who with
  | .steward .. => s.bring who accessFault
  | _ => s

/-! ### Steward accesses past the register space (R286, R422, R438, R462) -/

/-- Do a steward core's accesses to a run of module memory get slots: the STEWARD slots of the partition whose range holds it, or FIRMWARE
slots; a range that clears makes every access wait (R274 to R276, R438; DESIGN CHOICE for memory that the hub does not have, log
entry 133). -/
def State.stewSlots (s : State) (a n dir : Nat) : Bool :=
  let h := hubOfAddr a
  let owner := (List.range 12).find? (fun p => (s.part p).ranges.any (fun r => overlaps a n (rangeBase r) (rangeSize r)))
  let mine (e : Nat) : Bool := feDir e == dir && (match owner with | some p => feOwner e == p && feUse e == 4 | none => feOwner e == 12)
  decide (a + n ≤ memBase + h * 2 ^ 39 + s.rd R.MEM.CAP h * 2 ^ 30) && (s.frameAct h).entries.any mine &&
    (match owner with | some p => !(s.hub h).clearing.contains p | none => true)

/-- Does a run of bytes lie in a range of R462. -/
def inRun (lo hi a n : Nat) : Bool := decide (lo ≤ a) && decide (a + n ≤ hi)

/-- A steward core's load past the register space: of its hub's steward memory, of its hub's window, for the partition that owns the
stack, or of module memory; elsewhere, and where parity fails or a burst comes with poison, an access-fault exception (R137, R286, R314,
R462). One that finds no slot waits (log entry 133). -/
def State.stewLoad (who : Requester) (h a n : Nat) (s : State) : State :=
  if inRun stewBase (stewBase + stewSize) a n then
    if s.stewFails h (a - stewBase) n then s.bring who accessFault else s.bring who (leNat (s.stewRd h (a - stewBase) n))
  else if inRun winBase (winBase + winBytes) a n then
    let (b, s) := s.winReadBy h ((s.ownerOf (winPlace h a).1).getD 12) a n
    s.bring who (leNat b)
  else if inRun memBase memEnd a n then
    if !s.stewSlots a n 0 then s
    else
      let bad := s.mbad a n
      let s := s.touch a n
      if bad then s.bring who accessFault else s.bring who (leNat (s.mrd a n))
  else s.bring who accessFault

/-- A steward core's store past the register space. -/
def State.stewStore (who : Requester) (h a : Nat) (data : List Byte) (s : State) : State :=
  let n := data.length
  if inRun stewBase (stewBase + stewSize) a n then s.stewWr h (a - stewBase) data
  else if inRun winBase (winBase + winBytes) a n then s.winWrite h ((s.ownerOf (winPlace h a).1).getD 12) a data
  else if inRun memBase memEnd a n then s.whenB (s.stewSlots a n 1) (fun s => s.mwr a data)
  else s.bring who accessFault

/-! ### Accesses of every requester (R463 to R465) -/

/-- A read by a requester. A steward access that is not an aligned word raises an access-fault exception; what the core does
then is the core's (R463). Past the register space only steward cores reach anything. -/
def State.access (who : Requester) (a size : Nat) (s : State) : State :=
  if !s.present who then s
  else if regEnd ≤ a then (match who with | .steward h _ => s.stewLoad who h.val a size | _ => s)
  else if size ≠ 4 ∨ a % 4 ≠ 0 then s.faultAccess who
  else if who = .host && !s.hostReaches a false then (s.reachMailbox a).hostRefused.bring who 0
  else
    let (v, s) := (s.reachMailbox a).regRead who a
    s.bring who v

/-- A write by a requester. -/
def State.accessW (who : Requester) (a : Nat) (d : StoreData) (hc : SameHc) (s : State) : State :=
  if !s.present who then s
  else if who = .host && (a % 4 != 0 || regEnd ≤ a || !s.hostReaches a true) then (s.reachMailbox a).hostRefused
  else if regEnd ≤ a then (match who with | .steward h _ => s.stewStore who h.val a (leBytes d.size d.val) | _ => s)
  else if d.size ≠ 4 ∨ a % 4 ≠ 0 then s.faultAccess who
  else (s.reachMailbox a).regWrite who a (d.val % 2 ^ 32) hc

/-- One access of several that reach a page in one hc. -/
def State.accessOf (hc : SameHc) (x : RegAccess) (s : State) : State :=
  match x.store with
  | some d => s.accessW x.who x.addr d hc
  | none => s.access x.who x.addr 4

/-- Accesses that reach one page in the same hc, in the order in which it applies them: steward cores by hub and core, the debug port, the
host link (R465). -/
def hcOrder (l : List RegAccess) : List RegAccess := sortBy (fun a b => decide (requesterNo a.who ≤ requesterNo b.who)) l

/-- REGISTER_WRITE, with the accesses of other requesters that reach the page in the same hc. -/
def execRegisterWrite (who : Requester) (addr : Nat) (value : StoreData) (raced : SameHc) (s : State) :
    Host.Outcome State Fault Refusal :=
  let others := raced.others.filter (fun x => x.who != who && (pageAt addr).isSome && pageAt x.addr == pageAt addr)
  .next (s.each (hcOrder ({ who := who, addr := addr, store := some value } :: others)) (fun x s => s.accessOf raced x))

/-- REGISTER_READ. -/
def execRegisterRead (who : Requester) (addr size : Nat) (s : State) : Host.Outcome State Fault Refusal := .next (s.access who addr size)

/-- LO_READ: a read of a _LO word. -/
def execLoRead (who : Requester) (addr : Nat) (s : State) : Host.Outcome State Fault Refusal := .next (s.access who addr 4)

/-- Address of BLOCK_CTL, in the normal view, of the page that an address lies in. -/
def ctlAddr (a : Nat) : Nat := a / 0x4000 * 0x4000 + 0x008

/-- BLOCK_ENABLE: a write of 1 to EN of the page at an address. -/
def execBlockEnable (who : Requester) (addr : Nat) (s : State) : Host.Outcome State Fault Refusal :=
  .next (s.accessW who (ctlAddr addr) { val := 1 } {})

/-- BLOCK_DISABLE: a write of 0 to EN of the page at an address. -/
def execBlockDisable (who : Requester) (addr : Nat) (s : State) : Host.Outcome State Fault Refusal :=
  .next (s.accessW who (ctlAddr addr) { val := 0 } {})

end Sys2Proof.Machine
end

