-- ==== Sys2Proof/Machine/RegLink.lean ====
section
/-! DEFINITION. Frames from the host: register accesses over the link, the frame stream, and received flits (R398 to R403,
R406, R407, R410). -/
namespace Sys2Proof.Machine

/-! ### Register frames (R406, R407) -/

/-- A completion: STATUS 0 OK, 1 REFUSED, 2 FORMAT, and the words. -/
def completion (tag status : Nat) (words : List Nat) : List Byte :=
  linkFrame 8 tag (leBytes 1 status ++ leBytes 1 words.length ++ leBytes 6 0 ++ words.flatMap (leBytes 4))

/-- Queue a completion. -/
def State.complete (tag status : Nat) (words : List Nat) (s : State) : State :=
  s.onLink (fun l => { l with comps := l.comps ++ [completion tag status words] })

/-- Does a REG_READ payload keep R406 at the negotiated version (version code 4 is 2.1). -/
def State.readFormOk (s : State) (b : List Byte) : Bool :=
  let n := byteAt b 4
  b.length == 8 && fieldLE b 0 4 % 4 == 0 && decide (fieldLE b 0 4 + 4 * n ≤ regEnd) && decide (1 ≤ n) &&
    decide (n ≤ if s.rd R.HLK.STAT_VERSION 0 = 4 then 16 else 1) && zerosAt b 5 3

/-- Read consecutive words for the host: the words in order, and the state. -/
def State.hostWords (a : Nat) : Nat → State → List Nat × State
  | 0, s => ([], s)
  | n + 1, s =>
    let (v, s) := (s.reachMailbox a).regRead .host a
    let (vs, s) := State.hostWords (a + 4) n s
    (v :: vs, s)

/-- A REG_READ frame with its TAG: one completion, and the frame's credits back. A read of which R407 refuses any word reads
none. -/
def State.hostRead (tag : Nat) (b : List Byte) (s : State) : State :=
  let a := fieldLE b 0 4
  let n := byteAt b 4
  let s' :=
    if !s.readFormOk b then s.hostRefused.complete tag 2 []
    else if (List.range n).any (fun i => !s.hostReaches (a + 4 * i) false) then
      (s.each (List.range n) (fun i s => s.reachMailbox (a + 4 * i))).hostRefused.complete tag 1 (List.replicate n 0)
    else
      let (vs, s) := s.hostWords a n
      s.complete tag 0 vs
  s'.returnCredits 2 (frameCredits b.length)

/-- A REG_WRITE frame: posted, and the frame's credits back. One that is not 8 bytes long holds no access. -/
def State.hostWrite (b : List Byte) (s : State) : State :=
  let s' := if b.length = 8 then s.accessW .host (fieldLE b 0 4) { val := fieldLE b 4 4 } {} else s.hostRefused
  s'.returnCredits 2 (frameCredits b.length)

/-- REG_READ: a frame of TAG 0. -/
def execRegReadFrame (payload : List Byte) (s : State) : Host.Outcome State Fault Refusal := .next (s.fromHost 4 payload (State.hostRead 0 payload))

/-- REG_WRITE. -/
def execRegWriteFrame (payload : List Byte) (s : State) : Host.Outcome State Fault Refusal := .next (s.fromHost 5 payload (State.hostWrite payload))

/-! ### The frame stream (R400 to R403) -/

/-- Discard a frame of the stream unread, and skip its payload (R403). -/
def State.skipFrame (type len : Nat) (s : State) : State :=
  (s.unread type len).onLink (fun l => { l with stream := l.stream.drop 16, skip := cdiv len 16 * 16 })

/-- Act on a frame that has arrived whole. -/
def State.onFrame (type tag : Nat) (b : List Byte) (s : State) : State :=
  if type = 2 then s.acceptFrame true b
  else if type = 3 then s.acceptFrame false b
  else if type = 4 then s.hostRead tag b
  else if type = 5 then s.hostWrite b
  else s

/-- Take the frames that have arrived whole, in order, from the received stream. Bytes 1 to 3 of a header and the TAG of another type than
REG_READ are not judged: R403 lists what is discarded. -/
def State.takeStream : Nat → State → State
  | 0, s => s
  | fuel + 1, s =>
    let b := s.link.stream
    if s.link.skip != 0 then
      let n := min s.link.skip b.length
      if n = 0 then s else State.takeStream fuel (s.onLink (fun l => { l with stream := b.drop n, skip := l.skip - n }))
    else if b.length < 16 then s
    else
      let type := byteAt b 0
      let len := fieldLE b 4 4
      let full := 16 + cdiv len 16 * 16
      match frameMax type with
      | some m =>
        if m < len then State.takeStream fuel ((s.count R.HLK.RX_FRAMES 0).skipFrame type len)
        else if b.length < full then s
        else
          let s := s.onLink (fun l => { l with stream := b.drop full })
          let s := s.whenB (type != 0) (fun s => (s.count R.HLK.RX_FRAMES 0).onFrame type (fieldLE b 8 8) ((b.drop 16).take len))
          State.takeStream fuel s
      | none => State.takeStream fuel ((s.count R.HLK.RX_FRAMES 0).skipFrame type len)

/-! ### Received flits (R398, R399, R404, R410) -/

/-- Does a flit hold its CRC. -/
def flitGood (f : List Byte) : Bool := f.length == 256 && fieldLE f 252 4 == crc32c (f.take 252)

/-- A LINK frame of a training link. -/
def State.onLinkFrame (p : List Byte) (s : State) : State :=
  let s := s.count R.HLK.RX_FRAMES 0
  if p.length ≠ 32 then s
  else if byteAt p 0 = 1 then s.takeOffer p
  else if byteAt p 0 = 2 then s.takeConfirm p
  else s

/-- Take the LINK frames that have arrived whole from the stream of a training link. PAD frames are passed over, a frame that R403
discards is discarded, and one of another type, which the peer sends again once this side is up, is passed over (R400, R403, R404). -/
def State.takeTraining : Nat → State → State
  | 0, s => s
  | fuel + 1, s =>
    let b := s.link.trainIn
    if !s.link.trained || s.linkIsUp then s
    else if s.link.trainSkip != 0 then
      let n := min s.link.trainSkip b.length
      if n = 0 then s else State.takeTraining fuel (s.onLink (fun l => { l with trainIn := b.drop n, trainSkip := l.trainSkip - n }))
    else if b.length < 16 then s
    else
      let type := byteAt b 0
      let len := fieldLE b 4 4
      let skip := s.onLink (fun l => { l with trainIn := b.drop 16, trainSkip := cdiv len 16 * 16 })
      if type = 1 ∧ len ≤ 32 then
        if b.length < 16 + cdiv len 16 * 16 then s
        else State.takeTraining fuel ((s.onLink (fun l => { l with trainIn := b.drop (16 + cdiv len 16 * 16) })).onLinkFrame ((b.drop 16).take len))
      else if type = 1 ∨ 8 < type then State.takeTraining fuel ((skip.count R.HLK.RX_FRAMES 0).discardFrame)
      else State.takeTraining fuel skip

/-- A flit that fails its CRC or its order (R399). -/
def State.badFlit (s : State) : State := (s.count R.HLK.CRC_FLIT_CNT 0).onLink (fun l => { l with nak := true })

/-- Add credits that the peer returns. -/
def State.addCredits (ch n : Nat) (s : State) : State :=
  s.onLink (fun l => { l with credits := (List.range 3).map (fun c => l.credits.getD c 0 + (if c = ch then n else 0)) })

/-- Is a flit without frame data and credits, at a frame boundary: it takes no sequence number (log entry 59). -/
def State.idleFlit (s : State) (f : List Byte) : Bool :=
  s.link.stream.isEmpty && s.link.skip == 0 && byteAt f 4 == 0xFF && zerosAt f 8 flitData

/-- A flit in order on a link that is up: its FACK, a NAK, credits and data. -/
def State.goodFlit (f : List Byte) (s : State) : State :=
  let s := s.ackTo (fieldLE f 2 2)
  let s := s.whenB ((byteAt f 5).testBit 0) State.linkResend
  if !s.linkIsUp || s.idleFlit f then s
  else
    let s := s.addCredits (byteAt f 4) (fieldLE f 6 2)
    let d := (f.drop 8).take flitData
    let s := s.onLink (fun l => { l with rxNext := (l.rxNext + 1) % 65536, rxValid := true, stream := l.stream ++ d })
    s.takeStream (s.link.stream.length + 1)

/-- The number of a good flit is taken as the next one while none has been received in order since the reset of this side: the peer's
numbers go on across a retrain (DEDUCED, log entry 59). -/
def State.syncNumber (f : List Byte) (s : State) : State :=
  s.whenB (!s.link.rxValid) (fun s => s.onLink (fun l => { l with rxNext := fieldLE f 0 2 }))

/-- ADTIK_FLIT. -/
def execAdtikFlit (flit : List Byte) (s : State) : Host.Outcome State Fault Refusal :=
  if !s.linkIsUp && !s.link.trained then .next s
  else if !flitGood flit then .next s.badFlit
  else
    let s := s.syncNumber flit
    if s.linkIsUp then
      if fieldLE flit 0 2 == s.link.rxNext then .next (s.goodFlit flit) else .next s.badFlit
    else
      let s := s.onLink (fun l => { l with trainIn := l.trainIn ++ (flit.drop 8).take flitData })
      .next (s.takeTraining (s.link.trainIn.length + 1))

end Sys2Proof.Machine
end

