-- ==== Sys2Proof/Machine/Boot.lean ====
section
/-! DEFINITION. Reset, boot, the reference clock, the input, and firmware updates (R356, R364, R369, R415, R419, R422, R446,
R477, R478, R494, R506). -/
namespace Sys2Proof.Machine

/-! ### The trailhead (R415, R419, R422) -/

/-- Change the clock record. -/
def State.onClk (f : Clk → Clk) (s : State) : State := { s with clk := f s.clk }

/-- A firmware slot: 0 is A, 1 is B. -/
def State.fwSlot (s : State) (k : Nat) : FwSlot := AMap.getD s.nv.fw k {}

/-- Release stage 1 of a slot: into the steward memory of every hub, at an offset that the spec leaves open, and all 16
steward cores at ENTRY. -/
def State.bootSlot (k : Nat) (s : State) : State :=
  let b := (s.fwSlot k).stage1
  let (o, s) := s.takeFree
  let o := o % (stewSize + 1 - b.length)
  let s := s.each (List.range 4) (fun h s => s.stewWr h o b)
  let now := s.clk.devTime
  let s := (s.onSec (fun c => { c with stage1 := b, stage2 := [] })).onMgt (fun m => { m with
    entry := o + hdrBytes + fieldLE b 16 8, started := (List.range 16).map (fun c => (c, stewBase + o + hdrBytes + fieldLE b 16 8)), kicks := (List.range 16).map (fun c => (c, now)), resets := [] })
  (s.wr R.SECG.STAT_BOOT_SLOT 0 k).wr R.SECG.STAT_RECOVERY 0 0

/-- Stage 1 of slot A, then of slot B; RECOVERY when both fail (R422). -/
def State.trailhead (s : State) : State :=
  match [0, 1].find? (fun k => s.stageOk 1 (s.fwSlot k).stage1) with
  | some k => s.bootSlot k
  | none => s.wr R.SECG.STAT_RECOVERY 0 1

/-- The life-cycle state is decided, an interrupted burn completed; a pattern that no burn leaves is SCRAP with a fatal event
(R415). -/
def State.decideLc (s : State) : State :=
  match lcDecide s.nv.lc with
  | some st => (s.onNv (fun n => { n with lc := n.lc.map (· ||| lcCode st) })).wr R.SECG.STAT_LC_STATE 0 st
  | none => (s.wr R.SECG.STAT_LC_STATE 0 4).fatal 0 (mkReport 15 0 0 0x12 3 0 0)

/-- What the fuses and the log fields hold, shown in registers (R421, R423 to R425, R429, R436). -/
def State.showFuses (s : State) : State :=
  let s := (s.wr R.SECG.SVN_FUSED 0 s.nv.svn).wr R.SECG.KEY_STAT_REVOKED 0 s.nv.revoked
  ((s.wr R.SECG.DEV_ID 0 s.nv.devId).wr R.SECG.PUBKEYS 0 s.nv.pubKeys.length).showIdentity

/-- Does the clear of R419 run at this reset. -/
def State.clearDue (s : State) : Bool := (s.lcState == 3 || s.lcState == 4) && !s.nv.lcCleared.contains s.lcState

/-- The trailhead starts: the clear of R419 first where it is due; no firmware in SCRAP. -/
def State.bootStart (s : State) : State :=
  if s.clearDue then
    let s := s.onSec (fun c => { c with retClear := List.range 12 })
    (s.each (List.range 12) State.clearStack).setProgramming
  else if s.lcState = 4 then s
  else s.trailhead

/-- RETURN_CLEAR_END: the clear of a stack ends; its tag is 0, and after the last the trailhead goes on. -/
def execReturnClearEnd (stack : Fin 12) (s : State) : Host.Outcome State Fault Refusal :=
  let k := stack.val
  if !s.sec.retClear.contains k then .next s
  else
    let left := s.sec.retClear.filter (· != k)
    let s := (s.onSec (fun c => { c with retClear := left })).onNv (fun n => { n with tags := AMap.erase n.tags k })
    let s := s.freeTrains.setProgramming
    if !left.isEmpty then .next s
    else
      let s := s.onNv (fun n => { n with lcCleared := n.lcCleared ++ [s.lcState] })
      if s.lcState = 4 then .next s else .next s.trailhead

/-! ### Release and assertion of reset (R477, R478, R494, R506) -/

/-- Training of the die-to-die links of a hub (R376). `w` holds the failed lanes of each link direction, in the layout of
NOC_LANE_STAT, with 3 for more than 2. -/
def State.trainHub (h w : Nat) (s : State) : State :=
  let dir (j : Nat) : Nat := bits w (2 * j) 2
  let up (l : Nat) : Bool := dir (2 * l) != 3 && dir (2 * l + 1) != 3
  let st := ((List.range 12).map (fun j => min 2 (dir j) * 4 ^ j)).sum
  let s := (s.wr R.NOC.LANE_STAT h st).wr R.NOC.STAT_HUB_LINK_UP h (maskOf ((List.range 3).filter up))
  let s := s.wr R.NOC.STAT_STACK_LINK_UP h (maskOf ((List.range 3).filter (fun l => up (l + 3))))
  let s := s.whenB ((List.range 12).any (fun j => dir j == 1 || dir j == 2)) (fun s => s.raise R.NOC.EVT_LANE_REPAIRED h)
  s.whenB ((List.range 6).any (fun l => !up l)) (fun s => s.raise R.NOC.EVT_LINK_FAIL h)

/-- RESET_RELEASE: the module starts from reset, whatever came in OFF (R369); device time starts at 0, the straps are sampled and the
trailhead begins. `lanes` tells what training found at each hub; `pfw` whether the power-fail warning is asserted. -/
def execResetRelease (straps : BitVec 5) (lanes : List Nat) (pfw : Bool) (s : State) : Host.Outcome State Fault Refusal :=
  if s.clk.released then .next s
  else
    let s := (s.toReset s.clk.cause).onClk (fun c => { c with released := true, devTime := 0, phase := 0 })
    let s := (s.wr R.GLBG.STRAP_POSITION 0 straps.toNat).wr R.GLBG.STAT_RESET_CAUSE 0 s.clk.cause
    let s := s.each (List.range 4) (fun h s => s.trainHub h (lanes.getD h 0))
    let (key, s) := s.entropy 128
    let s := s.each (List.range 4) (fun h s => s.onHub h (fun u => { u with keys := AMap.set u.keys 12 key }))
    let s := (s.onSec (fun c => { c with fwKey := key })).decideLc.showFuses
    let s := s.whenB pfw State.powerFail
    .next s.bootStart

/-- RESET_ASSERT: at once, or when the running commits have ended (R494). -/
def execResetAssert (s : State) : Host.Outcome State Fault Refusal := .next (s.onClk (fun c => { c with resetHeld := true })).resetDue

/-- A commit that the input does not outlive: the slot that it was written to fails its CRC (R494); what else the slot holds
is open. -/
def State.loseCommit (h : Nat) (s : State) : State :=
  let k := s.logStack h
  match (s.hub h).commit with
  | some _ =>
    let (x, s) := s.takeFree
    let head := leBytes 60 x
    let body := leBytes (32 * ringRecords) (x / 2 ^ 480)
    let b : BbSlot := { seq := 0, bytes := head ++ leBytes 4 ((crc32c (head ++ body) + 1) % 2 ^ 32) ++ body }
    s.onNv (fun n => { n with bb := AMap.set n.bb (4 * k + s.oldestSlot h) b, logBad := AMap.set n.logBad k 1 })
  | none => s

/-- INPUT_LOSS: outside 40 V to 58 V the module is in OFF (R356, R364, R369). -/
def execInputLoss (mv : Nat) (s : State) : Host.Outcome State Fault Refusal :=
  if 40000 ≤ mv ∧ mv ≤ 58000 then .next s else .next ((s.each (List.range 4) State.loseCommit).toReset 1)

/-! ### The reference clock (R506) -/

/-- REFCLK_LOST: the links of the serdes go down, and device time stops. -/
def execRefclkLost (s : State) : Host.Outcome State Fault Refusal :=
  if !s.clk.refOn then .next s
  else
    let s := s.onClk (fun c => { c with refOn := false })
    let s := s.each ((List.range 16).filter (fun n => s.is R.FAB.STAT_LINK_UP n)) State.portDown
    let s := s.each (List.range 16) (fun n s => s.wr R.FAB.STAT_TRAINING n 0)
    .next (s.whenB (s.linkIsUp || s.link.trained) State.retrain)

/-- REFCLK_RETURN: the module resumes, and its ports train again. -/
def execRefclkReturn (s : State) : Host.Outcome State Fault Refusal :=
  if s.clk.refOn then .next s
  else
    let s := s.onClk (fun c => { c with refOn := true })
    let awake := s.rd R.PWR.STAT_MOD_STATE 0 == 1 && s.pwr.move == 0
    .next (s.each (List.range 16) (fun n s => s.wrB R.FAB.STAT_TRAINING n (awake && s.en .fab n)))

/-! ### Firmware updates (R446) -/

/-- Change a firmware slot. -/
def State.onFwSlot (k : Nat) (f : FwSlot → FwSlot) (s : State) : State :=
  s.onNv (fun n => { n with fw := AMap.set n.fw k (f (AMap.getD n.fw k {})) })

/-- Bytes written at an offset of a component; what is written at offset 0 begins it anew. -/
def splice (old : List Byte) (o : Nat) (d : List Byte) : List Byte :=
  if o = 0 then d else padTo o old ++ d ++ old.drop (o + d.length)

/-- FIRMWARE_UPDATE_DATA: data of component 1 (0) or 2 (1). The first of an update that comes while slot A runs copies the
running stages into slot B. In SCRAP nothing is taken (R416), nor data past the component's size or of more than 4,096
bytes. -/
def execFirmwareUpdateData (component : Fin 2) (offset : Nat) (data : List Byte) (s : State) : Host.Outcome State Fault Refusal :=
  if s.lcState = 4 ∨ 4096 < data.length ∨ stageMax (component.val + 1) < offset + data.length then .next s
  else
    let save := !s.mgt.upd && !s.is R.SECG.STAT_RECOVERY 0 && s.rd R.SECG.STAT_BOOT_SLOT 0 == 0 && !s.sec.stage1.isEmpty
    let s := s.whenB save (fun s => s.onFwSlot 1 (fun _ => { stage1 := s.sec.stage1, stage2 := s.sec.stage2 }))
    let s := s.onMgt (fun m => { m with upd := true, updOk := false })
    .next (s.onFwSlot 0 (fun k =>
      if component.val = 0 then { k with stage1 := splice k.stage1 offset data } else { k with stage2 := splice k.stage2 offset data }))

/-- Is what slot A holds of each component accepted, and does it hold any (R421, R446). -/
def State.updateOk (s : State) : Bool :=
  let k := s.fwSlot 0
  (!k.stage1.isEmpty || !k.stage2.isEmpty) && (k.stage1.isEmpty || s.stageOk 1 k.stage1) && (k.stage2.isEmpty || s.stageOk 2 k.stage2)

/-- VERIFY_COMPLETE: the module checks the update and tells the update agent: 0, or 1 for VerifyFailed. In RECOVERY an
accepted update boots at once. -/
def execVerifyComplete (s : State) : Host.Outcome State Fault Refusal :=
  if !s.mgt.upd then .next s
  else
    let ok := s.updateOk
    let s := (s.onMgt (fun m => { m with updOk := ok })).mctpSend (pldmMsg 0x80 5 0x17 [if ok then 0 else 1])
    let boots := ok && s.is R.SECG.STAT_RECOVERY 0 && !(s.fwSlot 0).stage1.isEmpty
    .next (s.whenB boots (fun s => (s.onMgt (fun m => { m with upd := false })).bootSlot 0))

/-- ACTIVATE_FIRMWARE: the update takes effect at the next reset. Self-contained activation is not supported. -/
def State.activate (msg : List Byte) (s : State) : State :=
  if !s.mgt.upd then s.pldmAnswer msg [0x80]
  else if byteAt msg 4 ≠ 0 then s.pldmAnswer msg [0x8C]
  else if !s.mgt.updOk then s.pldmAnswer msg [0x85]
  else (s.onMgt (fun m => { m with upd := false })).pldmAnswer msg [0, 0, 0]
/-- ACTIVATE_FIRMWARE: never in SCRAP (R416). -/
def execActivateFirmware (msg : List Byte) (s : State) : Host.Outcome State Fault Refusal :=
  .next (s.pldm 5 0x1A (s.lcState != 4) msg (State.activate msg))

end Sys2Proof.Machine
end

