-- ==== Sys2Proof/Machine/Dispatch.lean ====
section
/-! DEFINITION. One arm for each command: what it does to everything but the queue of waiting commands. -/
namespace Sys2Proof.Machine

/-- The meaning of a command (every operation and event of the table). -/
def exec (i : Instr) (s : State) : Host.Outcome State Fault Refusal :=
  match i with
  | .request payload => Sys2Proof.Machine.execRequest payload s
  | .cancel payload => Sys2Proof.Machine.execCancel payload s
  | .regReadFrame payload => Sys2Proof.Machine.execRegReadFrame payload s
  | .regWriteFrame payload => Sys2Proof.Machine.execRegWriteFrame payload s
  | .linkOffer payload => Sys2Proof.Machine.execLinkOffer payload s
  | .linkConfirm payload => Sys2Proof.Machine.execLinkConfirm payload s
  | .adtikFlit flit => Sys2Proof.Machine.execAdtikFlit flit s
  | .adtikResendTimeout => Sys2Proof.Machine.execAdtikResendTimeout s
  | .hostLinkTrained => Sys2Proof.Machine.execHostLinkTrained s
  | .fecLockLost => Sys2Proof.Machine.execFecLockLost s
  | .hostLinkDownTimeout => Sys2Proof.Machine.execHostLinkDownTimeout s
  | .formStep part => Sys2Proof.Machine.execFormStep part s
  | .sampling part => Sys2Proof.Machine.execSampling part s
  | .commitCut part hc => Sys2Proof.Machine.execCommitCut part hc s
  | .commitResolution part => Sys2Proof.Machine.execCommitResolution part s
  | .stepBoundary part => Sys2Proof.Machine.execStepBoundary part s
  | .calibrationWindow part hub us => Sys2Proof.Machine.execCalibrationWindow part hub us s
  | .deadlineCheck part => Sys2Proof.Machine.execDeadlineCheck part s
  | .evaluationArm stack => Sys2Proof.Machine.execEvaluationArm stack s
  | .tierRebias stack => Sys2Proof.Machine.execTierRebias stack s
  | .sampleAndHold stack array => Sys2Proof.Machine.execSampleAndHold stack array s
  | .conversionRoundEnd stack array devs => Sys2Proof.Machine.execConversionRoundEnd stack array devs s
  | .priorityRead stack array column slot ran => Sys2Proof.Machine.execPriorityRead stack array column slot ran s
  | .rangePass stack => Sys2Proof.Machine.execRangePass stack s
  | .readout stack tile slot => Sys2Proof.Machine.execReadout stack tile slot s
  | .columnResult part chain row => Sys2Proof.Machine.execColumnResult part chain row s
  | .driftFit hub => Sys2Proof.Machine.execDriftFit hub s
  | .escInvocation hub => Sys2Proof.Machine.execEscInvocation hub s
  | .windowWrite hub part addr data => Sys2Proof.Machine.execWindowWrite hub part addr data s
  | .topkMerge hub => Sys2Proof.Machine.execTopkMerge hub s
  | .coreIadd g f => Sys2Proof.Machine.execCoreIadd g f s
  | .coreIsub g f => Sys2Proof.Machine.execCoreIsub g f s
  | .coreImul g f => Sys2Proof.Machine.execCoreImul g f s
  | .coreImad g f => Sys2Proof.Machine.execCoreImad g f s
  | .coreAnd g f => Sys2Proof.Machine.execCoreAnd g f s
  | .coreOr g f => Sys2Proof.Machine.execCoreOr g f s
  | .coreXor g f => Sys2Proof.Machine.execCoreXor g f s
  | .coreShl g f => Sys2Proof.Machine.execCoreShl g f s
  | .coreShr g f => Sys2Proof.Machine.execCoreShr g f s
  | .coreSar g f => Sys2Proof.Machine.execCoreSar g f s
  | .coreImin g f => Sys2Proof.Machine.execCoreImin g f s
  | .coreImax g f => Sys2Proof.Machine.execCoreImax g f s
  | .coreIcmp g f => Sys2Proof.Machine.execCoreIcmp g f s
  | .coreSel g f => Sys2Proof.Machine.execCoreSel g f s
  | .coreMov g f => Sys2Proof.Machine.execCoreMov g f s
  | .coreMovi g f => Sys2Proof.Machine.execCoreMovi g f s
  | .coreIaddi g f => Sys2Proof.Machine.execCoreIaddi g f s
  | .coreLaneid g f => Sys2Proof.Machine.execCoreLaneid g f s
  | .coreShfl g f => Sys2Proof.Machine.execCoreShfl g f s
  | .coreFadd g f => Sys2Proof.Machine.execCoreFadd g f s
  | .coreFmul g f => Sys2Proof.Machine.execCoreFmul g f s
  | .coreFfma g f => Sys2Proof.Machine.execCoreFfma g f s
  | .coreFmin g f => Sys2Proof.Machine.execCoreFmin g f s
  | .coreFmax g f => Sys2Proof.Machine.execCoreFmax g f s
  | .coreFcmp g f => Sys2Proof.Machine.execCoreFcmp g f s
  | .coreFcvt g f => Sys2Proof.Machine.execCoreFcvt g f s
  | .coreFex2 g f => Sys2Proof.Machine.execCoreFex2 g f s
  | .coreFlg2 g f => Sys2Proof.Machine.execCoreFlg2 g f s
  | .coreFrcp g f => Sys2Proof.Machine.execCoreFrcp g f s
  | .coreFrsq g f => Sys2Proof.Machine.execCoreFrsq g f s
  | .coreFred g f => Sys2Proof.Machine.execCoreFred g f s
  | .coreFrmax g f => Sys2Proof.Machine.execCoreFrmax g f s
  | .coreQblk g f => Sys2Proof.Machine.execCoreQblk g f s
  | .coreQarr g f => Sys2Proof.Machine.execCoreQarr g f s
  | .coreLds g f => Sys2Proof.Machine.execCoreLds g f s
  | .coreSts g f => Sys2Proof.Machine.execCoreSts g f s
  | .coreAadd g f => Sys2Proof.Machine.execCoreAadd g f s
  | .coreXld g f => Sys2Proof.Machine.execCoreXld g f s
  | .coreXst g f => Sys2Proof.Machine.execCoreXst g f s
  | .coreXcp g f => Sys2Proof.Machine.execCoreXcp g f s
  | .coreXgth g f => Sys2Proof.Machine.execCoreXgth g f s
  | .transferComplete g token => Sys2Proof.Machine.execTransferComplete g token s
  | .coreWait g f => Sys2Proof.Machine.execCoreWait g f s
  | .coreMma g f => Sys2Proof.Machine.execCoreMma g f s
  | .coreAld g f => Sys2Proof.Machine.execCoreAld g f s
  | .coreAst g f => Sys2Proof.Machine.execCoreAst g f s
  | .coreAz g f => Sys2Proof.Machine.execCoreAz g f s
  | .coreBr g f => Sys2Proof.Machine.execCoreBr g f s
  | .coreLoop g f => Sys2Proof.Machine.execCoreLoop g f s
  | .coreCall g f => Sys2Proof.Machine.execCoreCall g f s
  | .coreRet g f => Sys2Proof.Machine.execCoreRet g f s
  | .coreEnd g f => Sys2Proof.Machine.execCoreEnd g f s
  | .coreBar g f => Sys2Proof.Machine.execCoreBar g f s
  | .coreSig g f => Sys2Proof.Machine.execCoreSig g f s
  | .coreWev g f => Sys2Proof.Machine.execCoreWev g f s
  | .coreWpt g f => Sys2Proof.Machine.execCoreWpt g f s
  | .coreAcall g f => Sys2Proof.Machine.execCoreAcall g f s
  | .coreTopk g f => Sys2Proof.Machine.execCoreTopk g f s
  | .coreEput g f => Sys2Proof.Machine.execCoreEput g f s
  | .coreAppend g f => Sys2Proof.Machine.execCoreAppend g f s
  | .coreFetch g f => Sys2Proof.Machine.execCoreFetch g f s
  | .coreQend g f => Sys2Proof.Machine.execCoreQend g f s
  | .stepTimeout part => Sys2Proof.Machine.execStepTimeout part s
  | .faultClr part => Sys2Proof.Machine.execFaultClr part s
  | .verify part => Sys2Proof.Machine.execVerify part s
  | .setVerifyDone part => Sys2Proof.Machine.execSetVerifyDone part s
  | .loadStart part => Sys2Proof.Machine.execLoadStart part s
  | .loadAbort part => Sys2Proof.Machine.execLoadAbort part s
  | .retire part => Sys2Proof.Machine.execRetire part s
  | .manifestCheck part manifest => Sys2Proof.Machine.execManifestCheck part manifest s
  | .shardAccepted part shard stored => Sys2Proof.Machine.execShardAccepted part shard stored s
  | .readTimeout part shard => Sys2Proof.Machine.execReadTimeout part shard s
  | .shardTimeout part shard => Sys2Proof.Machine.execShardTimeout part shard s
  | .programArrayTier part entry => Sys2Proof.Machine.execProgramArrayTier part entry s
  | .programVerifyEnd part entry trains failed => Sys2Proof.Machine.execProgramVerifyEnd part entry trains failed s
  | .switchDrain part => Sys2Proof.Machine.execSwitchDrain part s
  | .switchImmediate part => Sys2Proof.Machine.execSwitchImmediate part s
  | .stackSelfcal stack => Sys2Proof.Machine.execStackSelfcal stack s
  | .tileSelfcal stack => Sys2Proof.Machine.execTileSelfcal stack s
  | .selfcalComplete stack trims bad refs => Sys2Proof.Machine.execSelfcalComplete stack trims bad refs s
  | .trimSwap stack => Sys2Proof.Machine.execTrimSwap stack s
  | .mapSwap stack => Sys2Proof.Machine.execMapSwap stack s
  | .afdCap stack cap => Sys2Proof.Machine.execAfdCap stack cap s
  | .memTrain hub => Sys2Proof.Machine.execMemTrain hub s
  | .trainingEnd hub ok => Sys2Proof.Machine.execTrainingEnd hub ok s
  | .apply hub => Sys2Proof.Machine.execApply hub s
  | .clearDone hub part => Sys2Proof.Machine.execClearDone hub part s
  | .frameSwap hub => Sys2Proof.Machine.execFrameSwap hub s
  | .frameCheck hub => Sys2Proof.Machine.execFrameCheck hub s
  | .refreshSlot hub => Sys2Proof.Machine.execRefreshSlot hub s
  | .forcedRefresh hub channel => Sys2Proof.Machine.execForcedRefresh hub channel s
  | .scrubSlot hub channel => Sys2Proof.Machine.execScrubSlot hub channel s
  | .stepSlot hub channel slot => Sys2Proof.Machine.execStepSlot hub channel slot s
  | .paceWindow counts => Sys2Proof.Machine.execPaceWindow counts s
  | .rollReady part payload => Sys2Proof.Machine.execRollReady part payload s
  | .rollGo part payload => Sys2Proof.Machine.execRollGo part payload s
  | .rollAbort part payload => Sys2Proof.Machine.execRollAbort part payload s
  | .rollReplay part payload => Sys2Proof.Machine.execRollReplay part payload s
  | .rollTimeout part => Sys2Proof.Machine.execRollTimeout part s
  | .equalisingDelayEnd part => Sys2Proof.Machine.execEqualisingDelayEnd part s
  | .rollRetry part => Sys2Proof.Machine.execRollRetry part s
  | .detectedError part origin => Sys2Proof.Machine.execDetectedError part origin s
  | .coverFetch part => Sys2Proof.Machine.execCoverFetch part s
  | .coverReady part slot stored => Sys2Proof.Machine.execCoverReady part slot stored s
  | .spareArrayProgram part => Sys2Proof.Machine.execSpareArrayProgram part s
  | .spareColumnProgram part => Sys2Proof.Machine.execSpareColumnProgram part s
  | .spareProgramEnd part trains failed => Sys2Proof.Machine.execSpareProgramEnd part trains failed s
  | .maskClear part => Sys2Proof.Machine.execMaskClear part s
  | .unavailSet part => Sys2Proof.Machine.execUnavailSet part s
  | .unavailClear part => Sys2Proof.Machine.execUnavailClear part s
  | .verdictPop part => Sys2Proof.Machine.execVerdictPop part s
  | .coalescingWindowClose hub window => Sys2Proof.Machine.execCoalescingWindowClose hub window s
  | .push hub => Sys2Proof.Machine.execPush hub s
  | .commit hub => Sys2Proof.Machine.execCommit hub s
  | .bbCommitted hub => Sys2Proof.Machine.execBbCommitted hub s
  | .sensorReading hub readings => Sys2Proof.Machine.execSensorReading hub readings s
  | .exclude hub => Sys2Proof.Machine.execExclude hub s
  | .reinstate hub => Sys2Proof.Machine.execReinstate hub s
  | .recalReq hub => Sys2Proof.Machine.execRecalReq hub s
  | .calPieceEnd stack tile trims bad refs => Sys2Proof.Machine.execCalPieceEnd stack tile trims bad refs s
  | .powerFailWarning => Sys2Proof.Machine.execPowerFailWarning s
  | .pfwDeassert => Sys2Proof.Machine.execPfwDeassert s
  | .inputUndervoltage mv => Sys2Proof.Machine.execInputUndervoltage mv s
  | .inputOvervoltage mv => Sys2Proof.Machine.execInputOvervoltage mv s
  | .railFault hub rail => Sys2Proof.Machine.execRailFault hub rail s
  | .limiterPeriod watts mv ma => Sys2Proof.Machine.execLimiterPeriod watts mv ma s
  | .quiet => Sys2Proof.Machine.execQuiet s
  | .active => Sys2Proof.Machine.execActive s
  | .doze => Sys2Proof.Machine.execDoze s
  | .wake => Sys2Proof.Machine.execWake s
  | .resetRelease straps lanes pfw => Sys2Proof.Machine.execResetRelease straps lanes pfw s
  | .resetAssert => Sys2Proof.Machine.execResetAssert s
  | .refclkLost => Sys2Proof.Machine.execRefclkLost s
  | .refclkReturn => Sys2Proof.Machine.execRefclkReturn s
  | .portTrained port peer latency => Sys2Proof.Machine.execPortTrained port peer latency s
  | .ethernetFrame port frame => Sys2Proof.Machine.execEthernetFrame port frame s
  | .arp port frame => Sys2Proof.Machine.execArp port frame s
  | .neighbourSolicitation port frame => Sys2Proof.Machine.execNeighbourSolicitation port frame s
  | .echoRequest port frame => Sys2Proof.Machine.execEchoRequest port frame s
  | .congestionNotification port qp => Sys2Proof.Machine.execCongestionNotification port qp s
  | .rateIncreaseTimer port qp => Sys2Proof.Machine.execRateIncreaseTimer port qp s
  | .rdmaWrite port qp rkey addr data => Sys2Proof.Machine.execRdmaWrite port qp rkey addr data s
  | .wentarLink port flit => Sys2Proof.Machine.execWentarLink port flit s
  | .wentarWrite port flit => Sys2Proof.Machine.execWentarWrite port flit s
  | .wentarAckTimeout port => Sys2Proof.Machine.execWentarAckTimeout port s
  | .writeDeliver part count => Sys2Proof.Machine.execWriteDeliver part count s
  | .form lats => Sys2Proof.Machine.execForm lats s
  | .lcGo => Sys2Proof.Machine.execLcGo s
  | .secVerify => Sys2Proof.Machine.execSecVerify s
  | .svnCommit => Sys2Proof.Machine.execSvnCommit s
  | .keyRevoke => Sys2Proof.Machine.execKeyRevoke s
  | .idCreate entropy => Sys2Proof.Machine.execIdCreate entropy s
  | .partCreate => Sys2Proof.Machine.execPartCreate s
  | .partClearDone part => Sys2Proof.Machine.execPartClearDone part s
  | .partDestroy => Sys2Proof.Machine.execPartDestroy s
  | .send part => Sys2Proof.Machine.execSend part s
  | .spdmGetVersion via msg => Sys2Proof.Machine.execSpdmGetVersion via msg s
  | .spdmGetCapabilities via msg => Sys2Proof.Machine.execSpdmGetCapabilities via msg s
  | .spdmNegotiateAlgorithms via msg => Sys2Proof.Machine.execSpdmNegotiateAlgorithms via msg s
  | .spdmGetDigests via msg => Sys2Proof.Machine.execSpdmGetDigests via msg s
  | .spdmGetCertificate via msg => Sys2Proof.Machine.execSpdmGetCertificate via msg s
  | .spdmChallenge via msg => Sys2Proof.Machine.execSpdmChallenge via msg s
  | .spdmGetMeasurements via msg => Sys2Proof.Machine.execSpdmGetMeasurements via msg s
  | .spdmKeyExchange via msg => Sys2Proof.Machine.execSpdmKeyExchange via msg s
  | .spdmFinish via msg => Sys2Proof.Machine.execSpdmFinish via msg s
  | .spdmHeartbeat via msg => Sys2Proof.Machine.execSpdmHeartbeat via msg s
  | .spdmKeyUpdate via msg => Sys2Proof.Machine.execSpdmKeyUpdate via msg s
  | .spdmEndSession via msg => Sys2Proof.Machine.execSpdmEndSession via msg s
  | .spdmChunkSend via msg => Sys2Proof.Machine.execSpdmChunkSend via msg s
  | .spdmChunkGet via msg => Sys2Proof.Machine.execSpdmChunkGet via msg s
  | .spdmKeyDeliver via msg => Sys2Proof.Machine.execSpdmKeyDeliver via msg s
  | .spdmKeyErase via msg => Sys2Proof.Machine.execSpdmKeyErase via msg s
  | .spdmPubkeyAdd via msg => Sys2Proof.Machine.execSpdmPubkeyAdd via msg s
  | .spdmPubkeyRemove via msg => Sys2Proof.Machine.execSpdmPubkeyRemove via msg s
  | .watchdogExpiry hub core => Sys2Proof.Machine.execWatchdogExpiry hub core s
  | .wdogKick hub mask => Sys2Proof.Machine.execWdogKick hub mask s
  | .i3cEnec mask => Sys2Proof.Machine.execI3cEnec mask s
  | .i3cDisec mask => Sys2Proof.Machine.execI3cDisec mask s
  | .i3cRstdaa => Sys2Proof.Machine.execI3cRstdaa s
  | .i3cEntdaa addr => Sys2Proof.Machine.execI3cEntdaa addr s
  | .i3cSetdasa pair => Sys2Proof.Machine.execI3cSetdasa pair s
  | .i3cGetpid => Sys2Proof.Machine.execI3cGetpid s
  | .i3cGetbcr => Sys2Proof.Machine.execI3cGetbcr s
  | .i3cGetdcr => Sys2Proof.Machine.execI3cGetdcr s
  | .i3cGetmwl => Sys2Proof.Machine.execI3cGetmwl s
  | .i3cGetmrl => Sys2Proof.Machine.execI3cGetmrl s
  | .i3cGetstatus => Sys2Proof.Machine.execI3cGetstatus s
  | .setEndpointId msg => Sys2Proof.Machine.execSetEndpointId msg s
  | .getEndpointId msg => Sys2Proof.Machine.execGetEndpointId msg s
  | .getMctpVersionSupport msg => Sys2Proof.Machine.execGetMctpVersionSupport msg s
  | .getMessageTypeSupport msg => Sys2Proof.Machine.execGetMessageTypeSupport msg s
  | .getEndpointUuid msg => Sys2Proof.Machine.execGetEndpointUuid msg s
  | .getTid msg => Sys2Proof.Machine.execGetTid msg s
  | .setTid msg => Sys2Proof.Machine.execSetTid msg s
  | .getPldmVersion msg => Sys2Proof.Machine.execGetPldmVersion msg s
  | .getPldmTypes msg => Sys2Proof.Machine.execGetPldmTypes msg s
  | .getPldmCommands msg => Sys2Proof.Machine.execGetPldmCommands msg s
  | .getSensorReading msg => Sys2Proof.Machine.execGetSensorReading msg s
  | .getStateSensorReadings msg => Sys2Proof.Machine.execGetStateSensorReadings msg s
  | .getPdrRepositoryInfo msg => Sys2Proof.Machine.execGetPdrRepositoryInfo msg s
  | .getPdr msg => Sys2Proof.Machine.execGetPdr msg s
  | .setEventReceiver msg => Sys2Proof.Machine.execSetEventReceiver msg s
  | .pollForPlatformEventMessage msg => Sys2Proof.Machine.execPollForPlatformEventMessage msg s
  | .platformEventResend => Sys2Proof.Machine.execPlatformEventResend s
  | .verifyComplete => Sys2Proof.Machine.execVerifyComplete s
  | .activateFirmware msg => Sys2Proof.Machine.execActivateFirmware msg s
  | .lanternHeartbeat => Sys2Proof.Machine.execLanternHeartbeat s
  | .resendReq frame => Sys2Proof.Machine.execResendReq frame s
  | .fieldSelfTest => Sys2Proof.Machine.execFieldSelfTest s
  | .fullSelfTest => Sys2Proof.Machine.execFullSelfTest s
  | .memorySelfTest => Sys2Proof.Machine.execMemorySelfTest s
  | .selfTestAbort => Sys2Proof.Machine.execSelfTestAbort s
  | .selfTestEnd faults ms => Sys2Proof.Machine.execSelfTestEnd faults ms s
  | .registerWrite who addr value raced => Sys2Proof.Machine.execRegisterWrite who addr value raced s
  | .loRead who addr => Sys2Proof.Machine.execLoRead who addr s
  | .blockEnable who addr => Sys2Proof.Machine.execBlockEnable who addr s
  | .blockDisable who addr => Sys2Proof.Machine.execBlockDisable who addr s
  | .kveFlush part => Sys2Proof.Machine.execKveFlush part s
  | .srvPreempt part => Sys2Proof.Machine.execSrvPreempt part s
  | .srvEnd part => Sys2Proof.Machine.execSrvEnd part s
  | .flitTransmit => Sys2Proof.Machine.execFlitTransmit s
  | .offerRepeat => Sys2Proof.Machine.execOfferRepeat s
  | .hostAdapterTraining => Sys2Proof.Machine.execHostAdapterTraining s
  | .connectTimeout part => Sys2Proof.Machine.execConnectTimeout part s
  | .rollWaitTimeout part => Sys2Proof.Machine.execRollWaitTimeout part s
  | .portLinkDown port => Sys2Proof.Machine.execPortLinkDown port s
  | .stateDone part => Sys2Proof.Machine.execStateDone part s
  | .inputLoss mv => Sys2Proof.Machine.execInputLoss mv s
  | .securityParityFailure hub detail => Sys2Proof.Machine.execSecurityParityFailure hub detail s
  | .managementEthernetLink up => Sys2Proof.Machine.execManagementEthernetLink up s
  | .firmwareUpdateData component offset data => Sys2Proof.Machine.execFirmwareUpdateData component offset data s
  | .platformEventMessageResponse msg => Sys2Proof.Machine.execPlatformEventMessageResponse msg s
  | .registerRead who addr size => Sys2Proof.Machine.execRegisterRead who addr size s
  | .returnClearEnd stack => Sys2Proof.Machine.execReturnClearEnd stack s

end Sys2Proof.Machine
end

