-- ==== Sys2Proof/Safety.lean ====
section
/-! DEFINITION. What counts as a legal state and a safe step, in the terms the claims use. -/
namespace Sys2Proof.Machine

/-- A step is safe when it answers a next state: no fault and no refusal. -/
def Safe (s : State) : Prop := ∃ t, step s = .next t

/-- The memory is in canonical form. -/
def MemCanonical (s : State) : Prop := s.mem.wf = true

/-- No burst of memory holds an error or poison: a read or a write of it counts nothing (R284, R285). -/
def MemClean (s : State) : Prop := s.memErr = [] ∧ s.poi = []

/-- Fuses only burn (R415, R423, R424): every life-cycle copy, the revoke fuses and the SVN steps keep what is burned, and the
device identifier and the key digests stay. -/
structure FusesOnlyBurn (a b : NonVol) : Prop where
  devId : b.devId = a.devId
  keyDigests : b.keyDigests = a.keyDigests
  svn : a.svn ≤ b.svn
  revoked : ∀ i, a.revoked.testBit i = true → b.revoked.testBit i = true
  copies : b.lc.length = a.lc.length
  lc : ∀ j i, (a.lc.getD j 0).testBit i = true → (b.lc.getD j 0).testBit i = true

/-- Every register field but the listed ones, each with its page instance, holds in `t` what it holds in `s`. -/
def RegsBut (l : List (Field × Nat)) (s t : State) : Prop :=
  ∀ (f : Field) (i : Nat), (∀ x ∈ l, f.key i ≠ x.1.key x.2) → t.rd f i = s.rd f i

/-- What issuing an instruction leaves alone: everything but the register fields and the issuing group, of which only ISSUE of the
partition counts; and the group goes on to its next instruction (R179). `free` says that a free value is drawn. -/
def issued (g : GroupRef) (p : Nat) (free : Bool) (s t : State) : Prop :=
  t = { s with regs := t.regs, cores := t.cores, free := s.free + (if free then 1 else 0) } ∧
    t.rd R.DCR.ISSUE p = min (s.rd R.DCR.ISSUE p + 1) (2 ^ R.DCR.ISSUE.width - 1) ∧ RegsBut [(R.DCR.ISSUE, p)] s t ∧
    (∀ c, c ≠ coreNo g → t.core c = s.core c) ∧
    t.core (coreNo g) = { s.core (coreNo g) with groups := (t.core (coreNo g)).groups } ∧
    (∀ k, k ≠ g.group.val → AMap.getD (t.core (coreNo g)).groups k {} = AMap.getD (s.core (coreNo g)).groups k {}) ∧
    (t.grp g).pc = (s.grp g).pc + 1

end Sys2Proof.Machine
end

