-- ==== Sys2Proof/Certificates/Slice0/Obligations.lean ====
section
/-! DEFINITION. The statements for the provers: what the commands of the block do, family by family, and what holds of every
step. -/
open Sys2Proof Sys2Proof.Machine

/-! ### The block and its queue -/

/-- A step with a command in front of the queue is that command's effect on the state with the queue's rest. -/
def Obligations.StepRunsTheFrontCommand : Prop :=
  ∀ (c : Instr) (q : List Instr) (s : State), step (s.withPending (c :: q)) = exec c (s.withPending q)

/-- A step on an empty queue is one period of the reference clock while the reset is released and the reference is there, and changes
nothing else otherwise (the model's choice, log entry 1; the period is R7's). With the clock go what the lantern owes, Keep Alive commands
and what a PFC frame has held back: where none of these is due, the clock is all that changes. -/
def Obligations.IdleStepIsOnePeriod : Prop :=
  ∀ s : State, s.pending = [] → ∃ t, step s = .next t ∧
    t = { s with clk := t.clk, regs := t.regs, mgt := t.mgt, fab := t.fab, free := t.free } ∧
    (s.clk.released = true → s.clk.refOn = true → t.clk = s.clk.next ∧
      t.clk.devTime = (s.clk.devTime + periodNs s.clk.phase) % 2 ^ 64 ∧ t.clk.phase = (s.clk.phase + 1) % 5) ∧
    (s.clk.released = false ∨ s.clk.refOn = false → t = s) ∧
    (s.mgt.lanOpen = none → s.mgt.lanAgain = [] → s.fab.qps = [] → (∀ n < 16, (s.port n).held = []) → t = { s with clk := t.clk })

/-- `n` steps in a row that all answer a next state end in `t`. -/
def Sys2Proof.Machine.runs : Nat → State → State → Prop
  | 0, s, t => t = s
  | n + 1, s, t => ∃ u, step s = .next u ∧ runs n u t

/-- Five reference periods of 156.25 MHz are 32 ns of device time, wherever in the group they begin: over any multiple of five
idle steps, device time advances by 32 ns for each five and the place in the group returns (R7). -/
def Obligations.FivePeriodsAre32Ns : Prop :=
  ∀ (n : Nat) (s : State), s.pending = [] → s.clk.released = true → s.clk.refOn = true → s.clk.phase < 5 → s.clk.devTime < 2 ^ 64 →
    ∃ t, runs (5 * n) s t ∧ t.clk.devTime = (s.clk.devTime + 32 * n) % 2 ^ 64 ∧ t.clk.phase = s.clk.phase ∧
      t = { s with clk := t.clk, regs := t.regs, mgt := t.mgt, fab := t.fab, free := t.free }

/-- What reset leaves: every register field of every page reads its reset value, the queue is empty, no memory is listed and
the memory is in canonical form, device time is 0, and nothing is programmed. -/
def Obligations.ResetState : Prop :=
  (∀ (f : Field) (i : Nat), State.reset.rd f i = f.reset) ∧ State.reset.pending = [] ∧ MemCanonical State.reset ∧
    State.reset.clk.devTime = 0 ∧ State.reset.nv.cells = [] ∧ (∀ p, State.reset.part p = {}) ∧ (∀ k, State.reset.stk k = {}) ∧
    (∀ h, State.reset.hub h = {}) ∧ (∀ c, State.reset.core c = {}) ∧ State.reset.blks = [] ∧ State.reset.stew = [] ∧ State.reset.stewBad = []

/-- Every step keeps the memory in canonical form, whatever the command. -/
def Obligations.StepKeepsMemoryCanonical : Prop :=
  ∀ s t : State, MemCanonical s → step s = .next t → MemCanonical t

/-- No step, whatever the command and the state, un-burns a fuse: life-cycle copies, revoke fuses and SVN steps keep what is
burned, and the device identifier and key digests stay (R415, R423, R424). -/
def Obligations.StepOnlyBurnsFuses : Prop := ∀ s t : State, step s = .next t → FusesOnlyBurn s.nv t.nv

/-- A command's effect leaves the queue of waiting commands alone; so a step takes exactly the front command off. -/
def Obligations.StepTakesOneCommand : Prop :=
  (∀ (c : Instr) (s t : State), exec c s = .next t → t.pending = s.pending) ∧
    (∀ (c : Instr) (q : List Instr) (s t : State), step (s.withPending (c :: q)) = .next t → t.pending = q)

/-- No command ever answers a fault, and the only refusal is that of an issued core instruction that verification rejects
(R185, R193): every event of the manual is a next state. -/
def Obligations.OnlyRejectedInstructionsStop : Prop :=
  ∀ (c : Instr) (s : State), (∃ t, exec c s = .next t) ∨ ∃ mn, exec c s = .refused (.rejectedAtVerification mn)

/-! ### Registers -/

/-- An aligned word that no page admits a requester to: a reserved page position, an unlisted word, or a page that does not
admit the requester (R463, R464). -/
def Sys2Proof.Machine.unmappedFor (s : State) (who : Requester) (a : Nat) : Prop :=
  pageAt a = none ∨ ∃ g i, pageAt a = some (g, i) ∧ (g.isPart = true → s.partExists i = true) ∧
    (admits who g = false ∨ g.listed (offAt a) = false)

/-- An access to a reserved position, an unlisted word or a page that does not admit the requester reads 0 and drops the write,
sets UNMAPPED and counts; one to the page of a partition that does not exist, and a command that stands for such a write, reads 0, drops
the write and counts in SEC_NOPART_CNT; nothing else changes. A steward access of another size or alignment, read or write, raises an
access-fault exception and reaches no register, and so does one past the register space that no range of R462 holds; what a steward core
stores in its hub's steward memory is there (R433, R438, R462 to R464). A requester that is not there reaches nothing, and accesses of
several requesters that reach a page in one hc act in the order steward cores, debug port, host link (R465). -/
def Obligations.AccessesOutsideThePages : Prop :=
  (∀ (who : Requester) (a : Nat) (d : StoreData) (hc : SameHc) (s : State), who ≠ .host → s.present who = true → a % 4 = 0 → a < regEnd →
    d.size = 4 → hc.others = [] → unmappedFor s who a →
    (∃ t, exec (.registerWrite who a d hc) s = .next t ∧ t = { s with regs := t.regs } ∧ t.rd R.GLBG.EVT_UNMAPPED 0 = 1 ∧
      t.rd R.GLBG.UNMAPPED_CNT 0 = min (s.rd R.GLBG.UNMAPPED_CNT 0 + 1) 0xFFFFFFFF ∧
      RegsBut [(R.GLBG.EVT_UNMAPPED, 0), (R.GLBG.UNMAPPED_CNT, 0)] s t) ∧
    (∀ c ∈ [Instr.registerRead who a 4, Instr.loRead who a], ∃ t, exec c s = .next t ∧
      t = { s with regs := t.regs, rdVal := AMap.set s.rdVal (requesterNo who) 0 } ∧ t.rd R.GLBG.EVT_UNMAPPED 0 = 1 ∧
      t.rd R.GLBG.UNMAPPED_CNT 0 = min (s.rd R.GLBG.UNMAPPED_CNT 0 + 1) 0xFFFFFFFF ∧
      RegsBut [(R.GLBG.EVT_UNMAPPED, 0), (R.GLBG.UNMAPPED_CNT, 0)] s t)) ∧
  (∀ (who : Requester) (a : Nat) (d : StoreData) (hc : SameHc) (s : State) (g : Page) (i : Nat), who ≠ .host → s.present who = true →
    a % 4 = 0 → a < regEnd → d.size = 4 → hc.others = [] → pageAt a = some (g, i) → g.isPart = true → s.partExists i = false →
    (∃ t, exec (.registerWrite who a d hc) s = .next t ∧ t = { s with regs := t.regs } ∧
      t.rd R.SECG.NOPART_CNT 0 = min (s.rd R.SECG.NOPART_CNT 0 + 1) 0xFFFFFFFF ∧ RegsBut [(R.SECG.NOPART_CNT, 0)] s t) ∧
    (∀ c ∈ [Instr.registerRead who a 4, Instr.loRead who a], ∃ t, exec c s = .next t ∧
      t = { s with regs := t.regs, rdVal := AMap.set s.rdVal (requesterNo who) 0 } ∧
      t.rd R.SECG.NOPART_CNT 0 = min (s.rd R.SECG.NOPART_CNT 0 + 1) 0xFFFFFFFF ∧ RegsBut [(R.SECG.NOPART_CNT, 0)] s t)) ∧
  (∀ (p : Fin 12) (s : State), s.partExists p.val = false →
    ∀ c ∈ [Instr.faultClr p, .verify p, .loadStart p, .loadAbort p, .retire p, .switchDrain p, .switchImmediate p, .rollRetry p, .maskClear p,
      .spareArrayProgram p, .spareColumnProgram p, .unavailSet p, .unavailClear p, .verdictPop p, .srvPreempt p, .srvEnd p, .kveFlush p, .send p],
      ∃ t, exec c s = .next t ∧ t = { s with regs := t.regs } ∧
        t.rd R.SECG.NOPART_CNT 0 = min (s.rd R.SECG.NOPART_CNT 0 + 1) 0xFFFFFFFF ∧ RegsBut [(R.SECG.NOPART_CNT, 0)] s t) ∧
  (∀ (h c : Fin 4) (a size : Nat) (s : State), s.present (.steward h c) = true → a < regEnd → size ≠ 4 ∨ a % 4 ≠ 0 →
    exec (.registerRead (.steward h c) a size) s =
      .next { s with rdVal := AMap.set s.rdVal (requesterNo (.steward h c)) accessFault } ∧
    ∀ (v : Nat) (hc : SameHc), hc.others = [] → exec (.registerWrite (.steward h c) a { val := v, size := size } hc) s =
      .next { s with rdVal := AMap.set s.rdVal (requesterNo (.steward h c)) accessFault }) ∧
  (∀ (h c : Fin 4) (o : Nat) (d : StoreData) (hc : SameHc) (s : State), s.present (.steward h c) = true → hc.others = [] →
    0 < d.size → o + d.size ≤ stewSize →
    ∃ t, exec (.registerWrite (.steward h c) (stewBase + o) d hc) s = .next t ∧ t = { s with stew := t.stew, stewBad := t.stewBad } ∧
      exec (.registerRead (.steward h c) (stewBase + o) d.size) t =
        .next { t with rdVal := AMap.set t.rdVal (requesterNo (.steward h c)) (d.val % 2 ^ (8 * d.size)) }) ∧
  (∀ (h c : Fin 4) (a : Nat) (d : StoreData) (hc : SameHc) (s : State), s.present (.steward h c) = true → hc.others = [] → regEnd ≤ a →
    inRun stewBase (stewBase + stewSize) a d.size = false → inRun winBase (winBase + winBytes) a d.size = false →
    inRun memBase memEnd a d.size = false → d.size ∈ [1, 2, 4, 8] →
    exec (.registerRead (.steward h c) a d.size) s = .next { s with rdVal := AMap.set s.rdVal (requesterNo (.steward h c)) accessFault } ∧
    exec (.registerWrite (.steward h c) a d hc) s = .next { s with rdVal := AMap.set s.rdVal (requesterNo (.steward h c)) accessFault }) ∧
  (∀ (who : Requester) (a n : Nat) (d : StoreData) (hc : SameHc) (s : State), s.present who = false → hc.others = [] →
    exec (.registerWrite who a d hc) s = .next s ∧ exec (.registerRead who a n) s = .next s ∧ exec (.loRead who a) s = .next s ∧
      exec (.blockEnable who a) s = .next s ∧ exec (.blockDisable who a) s = .next s) ∧
  (∀ (h c : Fin 4) (a : Nat) (d e f : StoreData) (s : State), (pageAt a).isSome = true →
    exec (.registerWrite .host a d { others := [{ who := .debug, addr := a, store := some e }, { who := .steward h c, addr := a, store := some f }] }) s =
      .next (((s.accessOf { others := [{ who := .debug, addr := a, store := some e }, { who := .steward h c, addr := a, store := some f }] }
          { who := .steward h c, addr := a, store := some f }).accessOf
            { others := [{ who := .debug, addr := a, store := some e }, { who := .steward h c, addr := a, store := some f }] }
          { who := .debug, addr := a, store := some e }).accessOf
            { others := [{ who := .debug, addr := a, store := some e }, { who := .steward h c, addr := a, store := some f }] }
          { who := .host, addr := a, store := some d }))

/-- Partition n's page of block code U begins at 0x0100_0000 + n × 0x0040_0000 + U × 0x0000_4000; the pages are those of codes 5,
6, 7, 8, 15, 18 and 19, each 16 KiB of four views, and every other position of a partition's 4 MiB is reserved. A page is
reached only while its partition exists: no access of any requester changes or reads a register through the page of a partition
that does not exist (R461). -/
def Obligations.PartitionPagesLieWhereTheManualPutsThem : Prop :=
  (∀ (n : Fin 12) (u o : Nat), u < 256 → o < 0x4000 →
    pageAt (0x01000000 + n.val * 0x00400000 + u * 0x00004000 + o) =
      (if u = 5 then some Page.dcr else if u = 6 then some Page.kve else if u = 7 then some Page.srv else if u = 8 then some Page.wld
       else if u = 15 then some Page.sec else if u = 18 then some Page.glb else if u = 19 then some Page.rel else none).map (·, n.val)) ∧
  (∀ (who : Requester) (a : Nat) (s : State) (g : Page) (n : Nat), pageAt a = some (g, n) → g.isPart = true →
    s.partExists n = false → s.regRead who a = (0, s.noPart) ∧ ∀ v r, s.regWrite who a v r = s.noPart)

/-- A write of 1s through the clear view of BLOCK_EVT clears exactly those event flags; a flag that its cause sets in the same hc
stays 1, and BLOCK_RACE_CNT increments (R467, R468). A write through any other view clears nothing. -/
def Obligations.ClearViewClearsEvents : Prop :=
  ∀ (who : Requester) (a : Nat) (d : StoreData) (hc : SameHc) (s : State) (g : Page) (i : Nat), who ≠ .host → s.present who = true →
    d.size = 4 → hc.others = [] → pageAt a = some (g, i) → (g.isPart = true → s.partExists i = true) → admits who g = true →
    offAt a = 0x010 → a < regEnd →
    ∃ t, exec (.registerWrite who a d hc) s = .next t ∧ t = { s with regs := t.regs } ∧
      (viewAt a = 2 →
        (∀ f ∈ g.fields, f.acc = .ev → t.rd f i =
          if (d.val % 2 ^ 32).testBit f.lo then (if hc.flags.toNat.testBit f.lo then 1 else 0) else s.rd f i) ∧
        (s.rd (fieldRaceCnt g) i ≤ 0xFFFFFFFF → t.rd (fieldRaceCnt g) i = min 0xFFFFFFFF (s.rd (fieldRaceCnt g) i +
          (g.fields.filter (fun f => f.acc == .ev && (d.val % 2 ^ 32).testBit f.lo && hc.flags.toNat.testBit f.lo)).length)) ∧
        RegsBut ((fieldRaceCnt g, i) :: (g.fields.filter (fun f => f.acc == .ev)).map (·, i)) s t) ∧
      (viewAt a ≠ 2 → t = s)

/-- A write, through any view, that would change a configuration field while EN is 1 leaves that field unchanged, sets
CONFIG_REFUSED and increments BLOCK_REFUSED_CNT by one (R470). Words that also hold an action are left to the statements about
the actions. -/
def Obligations.ConfigurationIsRefusedWhileEnabled : Prop :=
  ∀ (who : Requester) (a : Nat) (d : StoreData) (hc : SameHc) (s : State) (g : Page) (i : Nat) (f : Field), who ≠ .host → s.present who = true →
    d.size = 4 → hc.others = [] → hc.counts = [] →
    pageAt a = some (g, i) → (g.isPart = true → s.partExists i = true) → admits who g = true → a < regEnd → a % 4 = 0 →
    f ∈ g.fields → f.cfg = true → f.acc = .rw → f.pair = false → offAt a = f.off →
    (∀ e ∈ g.fields, e.off = f.off → e.acc ≠ .wo) → s.en g i = true → viewAt a < 4 →
    applyView f.acc f.counter (viewAt a) (s.fieldVal f i) (f.slice (d.val % 2 ^ 32)) % 2 ^ f.width ≠ s.fieldVal f i →
    ∃ t, exec (.registerWrite who a d hc) s = .next t ∧ t.rd f i = s.rd f i ∧ t.rd (fieldConfigRefused g) i = 1 ∧
      t.rd (fieldRefusedCnt g) i = min (s.rd (fieldRefusedCnt g) i + 1) 0xFFFFFFFF ∧ t.en g i = true

/-- A state as a read of a page finds it: the global WLD page shows what a running full self-test has counted by now. -/
def Sys2Proof.Machine.atPage (g : Page) (s : State) : State := if g = .wldG then s.testGoesOn else s

/-- A read of a _LO word returns the low word and copies the high word of the same moment into the requester's shadow; a read of
the _HI word, whatever has happened since, returns what the shadow holds, and neither changes anything else (R469). An access to the
global WLD page first shows what a running full self-test has counted by then (R166). -/
def Obligations.HighWordIsLatched : Prop :=
  ∀ (who : Requester) (a : Nat) (s : State) (g : Page) (i : Nat) (f : Field), who ≠ .host → s.present who = true →
    pageAt a = some (g, i) → (g.isPart = true → s.partExists i = true) → admits who g = true → a < regEnd → a % 4 = 0 →
    f ∈ g.fields → f.pair = true → offAt a = f.off → (atPage g s).wordOpen g i f.off = false →
    (∀ c ∈ [Instr.loRead who a, Instr.registerRead who a 4],
      exec c s = .next { atPage g s with
        rdVal := AMap.set s.rdVal (requesterNo who) ((atPage g s).fieldVal f i % 2 ^ f.width % 2 ^ 32)
        shadowR := AMap.set s.shadowR (shadowKey who g i f.off) ((atPage g s).fieldVal f i % 2 ^ f.width / 2 ^ 32) }) ∧
    (∀ u : State, u.present who = true → (g.isPart = true → u.partExists i = true) →
      exec (.registerRead who (a + 4) 4) u = .next { atPage g u with
        rdVal := AMap.set u.rdVal (requesterNo who) (AMap.getD u.shadowR (shadowKey who g i f.off) 0) })

/-- A host-link access that R407 does not allow is refused: a write is dropped, a read brings 0, REG_REFUSED is set and counted,
and nothing else changes, but that at a mailbox whose host was lost its sessions end (R435). A REG_READ frame that breaks R406 completes
with FORMAT, one that R407 refuses with REFUSED and data 0, one word that is allowed with OK and the word; a REG_WRITE frame acts as the
write of the same word. A frame of more than 8 bytes is discarded unread (R403). Each frame's credits go back. -/
def Obligations.HostRegisterFrames : Prop :=
  (∀ (a : Nat) (d : StoreData) (hc : SameHc) (s : State), s.present .host = true → hc.others = [] →
    a % 4 ≠ 0 ∨ regEnd ≤ a ∨ s.hostReaches a true = false →
    ∃ t, exec (.registerWrite .host a d hc) s = .next t ∧ t = { s.reachMailbox a with regs := t.regs } ∧ t.rd R.HLK.EVT_REG_REFUSED 0 = 1 ∧
      t.rd R.HLK.REG_REFUSED_CNT 0 = min (s.rd R.HLK.REG_REFUSED_CNT 0 + 1) 0xFFFFFFFF ∧
      RegsBut [(R.HLK.EVT_REG_REFUSED, 0), (R.HLK.REG_REFUSED_CNT, 0)] (s.reachMailbox a) t) ∧
  (∀ (a : Nat) (s : State), s.present .host = true → a % 4 = 0 → a < regEnd → s.hostReaches a false = false →
    ∃ t, exec (.registerRead .host a 4) s = .next t ∧ t = { s.reachMailbox a with regs := t.regs, rdVal := AMap.set s.rdVal 17 0 } ∧
      t.rd R.HLK.EVT_REG_REFUSED 0 = 1 ∧ t.rd R.HLK.REG_REFUSED_CNT 0 = min (s.rd R.HLK.REG_REFUSED_CNT 0 + 1) 0xFFFFFFFF ∧
      RegsBut [(R.HLK.EVT_REG_REFUSED, 0), (R.HLK.REG_REFUSED_CNT, 0)] (s.reachMailbox a) t) ∧
  (∀ (a : Nat) (s : State), (∀ i, pageAt a = some (Page.sec, i) → mailboxWord (offAt a) = true → s.sec.lostHost.contains i = false) →
    s.reachMailbox a = s) ∧
  (∀ (b : List Byte) (s : State), s.linkIsUp = true →
    ∃ t, exec (.regReadFrame b) s = .next t ∧
      t.link.creditRet.getD 2 0 = s.link.creditRet.getD 2 0 + frameCredits b.length ∧
      (8 < b.length → t.link.comps = s.link.comps ∧ t.rd R.HLK.EVT_FRAME_DISCARD 0 = 1) ∧
      (b.length ≤ 8 → s.readFormOk b = false → t.link.comps = s.link.comps ++ [completion 0 2 []] ∧ t.rd R.HLK.EVT_REG_REFUSED 0 = 1) ∧
      (s.readFormOk b = true → (∃ i < byteAt b 4, s.hostReaches (fieldLE b 0 4 + 4 * i) false = false) →
        t.link.comps = s.link.comps ++ [completion 0 1 (List.replicate (byteAt b 4) 0)] ∧ t.rd R.HLK.EVT_REG_REFUSED 0 = 1) ∧
      (s.readFormOk b = true → byteAt b 4 = 1 → s.hostReaches (fieldLE b 0 4) false = true →
        t.link.comps = s.link.comps ++
          [completion 0 0 [(((s.count R.HLK.RX_FRAMES 0).reachMailbox (fieldLE b 0 4)).regRead .host (fieldLE b 0 4)).1]])) ∧
  (∀ (b : List Byte) (s : State), s.present .host = true → b.length = 8 →
    ∃ t u, exec (.regWriteFrame b) s = .next t ∧
      exec (.registerWrite .host (fieldLE b 0 4) { val := fieldLE b 4 4 } {}) (s.count R.HLK.RX_FRAMES 0) = .next u ∧
      t = u.returnCredits 2 (frameCredits 8))

/-- BLOCK_ENABLE and BLOCK_DISABLE by firmware: a write of 1 to EN that the checks pass sets EN; one that they do not leaves EN at 0 with
CONFIG_REFUSED set and counted and nothing else changed. A write of 0 that the chapter refuses leaves EN at 1 likewise, and is for SRV a
command in the wrong state too (R266); one that waits for a step boundary leaves EN at 1 and is recorded for each partition concerned,
and a second one before it takes effect changes nothing; any other takes effect at once (R471, R472). -/
def Obligations.EnableAndDisable : Prop :=
  ∀ (h c : Fin 4) (a : Nat) (s : State) (g : Page) (i : Nat), s.present (.steward h c) = true →
    pageAt (ctlAddr a) = some (g, i) → ctlAddr a < regEnd → (g.isPart = true → s.partExists i = true) →
    (s.en g i = false → ¬(g = .afd ∧ s.is R.CNV.SELFCAL_STAT_DONE i = false) →
      (s.enableOk g i = true → ∃ t, exec (.blockEnable (.steward h c) a) s = .next t ∧ t.en g i = true) ∧
      (s.enableOk g i = false → ∃ t, exec (.blockEnable (.steward h c) a) s = .next t ∧ t = { s with regs := t.regs } ∧
        t.en g i = false ∧ t.rd (fieldConfigRefused g) i = 1 ∧
        t.rd (fieldRefusedCnt g) i = min (s.rd (fieldRefusedCnt g) i + 1) 0xFFFFFFFF ∧
        RegsBut [(fieldConfigRefused g, i), (fieldRefusedCnt g, i)] s t)) ∧
    (s.en g i = true →
      (s.disableRefused g i = true → ∃ t, exec (.blockDisable (.steward h c) a) s = .next t ∧ t = { s with regs := t.regs } ∧
        t.en g i = true ∧ t.rd (fieldConfigRefused g) i = 1 ∧
        t.rd (fieldRefusedCnt g) i = min (s.rd (fieldRefusedCnt g) i + 1) 0xFFFFFFFF ∧
        (g = .srv → t.rd R.SRV.EVT_WRONG_STATE i = 1 ∧ t.rd R.SRV.WRONG_STATE_CNT i = min (s.rd R.SRV.WRONG_STATE_CNT i + 1) 0xFFFFFFFF) ∧
        RegsBut ([(fieldConfigRefused g, i), (fieldRefusedCnt g, i)] ++
          (if g = .srv then [(R.SRV.EVT_WRONG_STATE, i), (R.SRV.WRONG_STATE_CNT, i)] else [])) s t) ∧
      (s.disableRefused g i = false → s.disableAsked (g.idx, i) = true → exec (.blockDisable (.steward h c) a) s = .next s) ∧
      (s.disableRefused g i = false → s.disableAsked (g.idx, i) = false → s.disableWaits g i = [] →
        ∃ t, exec (.blockDisable (.steward h c) a) s = .next t ∧ t.en g i = false) ∧
      (s.disableRefused g i = false → s.disableAsked (g.idx, i) = false → s.disableWaits g i ≠ [] →
        ∃ t, exec (.blockDisable (.steward h c) a) s = .next t ∧ t.regs = s.regs ∧ t.en g i = true ∧
          ∀ p ∈ s.disableWaits g i, (g.idx, i) ∈ (t.part p).disPend))

/-- While CNV_SELFCAL_STAT.DONE is 0, a write that sets AFD BLOCK_CTL.EN leaves EN at 0 and sets AFD BLOCK_EVT.NOT_CALIBRATED,
and changes nothing else: the module refuses evaluation until self-calibration has been done (R58). -/
def Obligations.UncalibratedStackIsNotEnabled : Prop :=
  ∀ (who : Requester) (k : Fin 12) (o : Nat) (s : State), who ≠ .host → s.present who = true → o < 0x4000 → s.en .afd k.val = false →
    s.rd R.CNV.SELFCAL_STAT_DONE k.val = 0 →
    ∃ t, exec (.blockEnable who (0x00080000 + k.val * 0x00004000 + o)) s = .next t ∧ t = { s with regs := t.regs } ∧
      t.en .afd k.val = false ∧ t.rd R.AFD.EVT_NOT_CALIBRATED k.val = 1 ∧ RegsBut [(R.AFD.EVT_NOT_CALIBRATED, k.val)] s t

/-- The counters of the AFD and CNV pages stop at 0xFFFF_FFFF, and a write to the clear view clears the bits written as 1 (R65); what
counts in the same hc is counted after that (R476). -/
def Obligations.ArrayPageCountersStopAndClear : Prop :=
  ∀ (g : Page) (f : Field) (i : Nat) (s : State), g = .afd ∨ g = .cnv → f ∈ g.allFields → f.counter = true →
    (∀ n, (s.bump f i n).rd f i = min (s.rd f i + n) 0xFFFFFFFF) ∧
    (∀ (who : Requester) (a : Nat) (d : StoreData) (w : Word), who ≠ .host → s.present who = true → admits who g = true → a < regEnd →
      a % 4 = 0 → d.size = 4 → pageAt a = some (g, i) → offAt a = f.off → viewAt a = 2 →
      (∃ t, exec (.registerWrite who a d { flags := w }) s = .next t ∧ t.rd f i = (s.rd f i - (s.rd f i &&& d.val % 2 ^ 32)) % 2 ^ 32 ∧
        RegsBut [(f, i)] s t ∧ t = { s with regs := t.regs }) ∧
      (∀ n, ∃ t, exec (.registerWrite who a d { counts := [(f.off, n)] }) s = .next t ∧
        t.rd f i = min ((s.rd f i - (s.rd f i &&& d.val % 2 ^ 32)) % 2 ^ 32 + n) 0xFFFFFFFF ∧ RegsBut [(f, i)] s t))

/-! ### The host link -/

/-- Training of the host link: FEC lock on the 8 lanes sends the first OFFER, which is repeated until the peer's OFFER comes; an
OFFER with a common version and format and credits enough is kept and a CONFIRM of the choice is queued for it; one without raises
NEG_FAIL and ends the training; the CONFIRM of the choice, once the module's own has gone, brings the link up, and over the peer's reset
sequence numbers continue. A LINK frame of more than 32 bytes is discarded (R399, R403, R404, R410). -/
def Obligations.HostLinkTraining : Prop :=
  (∀ s : State, s.is R.HLK.STAT_TRAINING 0 = true → s.link.trained = false → s.clk.refOn = true →
    ∃ t, exec .hostLinkTrained s = .next t ∧
      t = { s with link := { s.link with trained := true, linkOut := s.link.linkOut ++ [linkFrame 1 0 (s.linkPayload 1 0)] } }) ∧
  (∀ s : State, s.link.trained = true → s.linkIsUp = false → s.link.offer = none →
    ∃ t, exec .offerRepeat s = .next t ∧
      t = { s with link := { s.link with linkOut := s.link.linkOut ++ [linkFrame 1 0 (s.linkPayload 1 0)] } }) ∧
  (∀ (o : List Byte) (s : State), byteAt o 0 = 1 → o.length = 32 → s.linkIsUp = false → s.link.trained = true → s.link.offer = none →
    (∀ c, s.linkChoice o = some c → ∃ t, exec (.linkOffer o) s = .next t ∧ RegsBut [(R.HLK.RX_FRAMES, 0)] s t ∧
      t = { s with regs := t.regs, link := { s.link with offer := some o, linkOut := s.link.linkOut ++ [linkFrame 1 0 (s.linkPayload 2 c)] } }) ∧
    (s.linkChoice o = none → ∃ t, exec (.linkOffer o) s = .next t ∧ t.link.trained = false ∧ t.rd R.HLK.STAT_TRAINING 0 = 0 ∧
      t.rd R.HLK.EVT_NEG_FAIL 0 = 1 ∧ RegsBut [(R.HLK.STAT_TRAINING, 0), (R.HLK.EVT_NEG_FAIL, 0), (R.HLK.RX_FRAMES, 0)] s t ∧
      t = { s with regs := t.regs, link := t.link })) ∧
  (∀ (o c : List Byte) (s : State), byteAt c 0 = 2 → c.length = 32 → s.linkIsUp = false → s.link.trained = true →
    s.link.offer = some o → s.linkChoice o = some (byteAt c 3) → s.link.confirmOut = true → byteAt o 6 ≠ 1 →
    ∃ t, exec (.linkConfirm c) s = .next t ∧ t.linkIsUp = true ∧ t.rd R.HLK.STAT_TRAINING 0 = 0 ∧
      t.rd R.HLK.STAT_VERSION 0 = byteAt c 3 % 16 ∧ t.rd R.HLK.STAT_FORMAT 0 = byteAt c 3 / 16 ∧ t.rd R.HLK.STAT_HOST_LOST 0 = 0 ∧
      t.rd R.HLK.EVT_LINK_UP_EVT 0 = 1 ∧ t.link.credits = [fieldLE o 8 4, fieldLE o 12 4, fieldLE o 16 4] ∧ t.link.replay = [] ∧
      t.link.txSeq = s.link.txSeq ∧ t.link.rxNext = s.link.rxNext) ∧
  (∀ (o c : List Byte) (s : State), byteAt c 0 = 2 → c.length = 32 → s.linkIsUp = false → s.link.trained = true →
    s.link.offer = some o → s.linkChoice o = some (byteAt c 3) → s.link.confirmOut = false →
    ∃ t, exec (.linkConfirm c) s = .next t ∧ RegsBut [(R.HLK.RX_FRAMES, 0)] s t ∧
      t = { s with regs := t.regs, link := { s.link with confirmIn := true } }) ∧
  (∀ (c : Instr) (b : List Byte) (s : State), c ∈ [Instr.linkOffer b, .linkConfirm b] → 32 < b.length →
    s.linkIsUp = true ∨ s.link.trained = true →
    ∃ t, exec c s = .next t ∧ t = { s with regs := t.regs } ∧ t.rd R.HLK.EVT_FRAME_DISCARD 0 = 1 ∧
      t.rd R.HLK.DISCARD_CNT 0 = min (s.rd R.HLK.DISCARD_CNT 0 + 1) 0xFFFFFFFF)

/-- FEC lock lost, or training begun by the host's adapter, retrains the link: it is down, no version or format is shown,
training runs from its first step, and RETRAIN is set and counted. A link that has been down for HLK_DOWN_TMO ms of device
time makes HOST_LOST and its event. 4 µs of device time without an acknowledgement send the whole replay buffer again; before its
time neither timeout does anything (R9, R399, R410, R411). -/
def Obligations.HostLinkLosses : Prop :=
  (∀ (c : Instr) (s : State),
    (c = .fecLockLost ∧ (s.linkIsUp = true ∨ s.link.trained = true)) ∨ (c = .hostAdapterTraining ∧ s.en .hlk 0 = true) →
    ∃ t, exec c s = .next t ∧ t.linkIsUp = false ∧ t.rd R.HLK.STAT_VERSION 0 = 0 ∧ t.rd R.HLK.STAT_FORMAT 0 = 0 ∧
      t.rd R.HLK.STAT_TRAINING 0 = 1 ∧ t.rd R.HLK.EVT_RETRAIN 0 = 1 ∧
      t.rd R.HLK.RETRAIN_CNT 0 = min (s.rd R.HLK.RETRAIN_CNT 0 + 1) 0xFFFFFFFF ∧ t.link.trained = false ∧ t.link.offer = none ∧
      t.link.replay = s.link.replay ∧ t = { s with regs := t.regs, link := t.link } ∧
      RegsBut [(R.HLK.STAT_LINK_UP, 0), (R.HLK.STAT_VERSION, 0), (R.HLK.STAT_FORMAT, 0), (R.HLK.STAT_TRAINING, 0), (R.HLK.EVT_RETRAIN, 0),
        (R.HLK.RETRAIN_CNT, 0), (R.HLK.EVT_LINK_DOWN, 0)] s t) ∧
  (∀ s : State, s.linkIsUp = false → s.is R.HLK.STAT_HOST_LOST 0 = false → s.en .hlk 0 = true →
    (s.link.downAt + 1000000 * s.rd R.HLK.DOWN_TMO 0 ≤ s.clk.devTime →
      ∃ t, exec .hostLinkDownTimeout s = .next t ∧ t.rd R.HLK.STAT_HOST_LOST 0 = 1 ∧ t.rd R.HLK.EVT_HOST_LOST_EVT 0 = 1) ∧
    (s.clk.devTime < s.link.downAt + 1000000 * s.rd R.HLK.DOWN_TMO 0 → exec .hostLinkDownTimeout s = .next s)) ∧
  (∀ s : State, s.linkIsUp = true → s.link.replay ≠ [] → s.link.fails < 8 →
    (s.link.since + 4000 ≤ s.clk.devTime →
      exec .adtikResendTimeout s = .next { s with link := { s.link with
        resend := s.link.replay.length, fails := s.link.fails + 1, since := s.clk.devTime } }) ∧
    (s.clk.devTime < s.link.since + 4000 → exec .adtikResendTimeout s = .next s))

/-- The flits of the host link. A flit that fails its CRC, on a link that is up or trains, or is out of order is counted, sets NAK, and
changes nothing else. A flit in order without data that returns credits adds them to their channel and advances the sequence expected; the
first after a reset of this side is in order whatever its number. What the module sends next is one flit, and with nothing to send it is an
idle flit, which acknowledges the last flit received; while it trains, the LINK frame that waits, and with its CONFIRM sent and the peer's
received it is up (R398, R399, R404). -/
def Obligations.HostLinkFlits : Prop :=
  (∀ (f : List Byte) (s : State), (s.linkIsUp = true ∨ s.link.trained = true) ∧ flitGood f = false ∨
      s.linkIsUp = true ∧ s.link.rxValid = true ∧ fieldLE f 0 2 ≠ s.link.rxNext →
    ∃ t, exec (.adtikFlit f) s = .next t ∧ t = { s with regs := t.regs, link := { s.link with nak := true } } ∧
      t.rd R.HLK.CRC_FLIT_CNT 0 = min (s.rd R.HLK.CRC_FLIT_CNT 0 + 1) (2 ^ R.HLK.CRC_FLIT_CNT.width - 1) ∧
      RegsBut [(R.HLK.CRC_FLIT_CNT, 0)] s t) ∧
  (∀ (f : List Byte) (s : State), s.linkIsUp = true → flitGood f = true → fieldLE f 0 2 = s.link.rxNext ∨ s.link.rxValid = false →
    s.link.replay = [] → (byteAt f 5).testBit 0 = false → (f.drop 8).take flitData = List.replicate flitData 0 → byteAt f 4 < 3 →
    s.link.stream = [] → s.link.skip = 0 →
    ∃ t, exec (.adtikFlit f) s = .next t ∧
      t = { s with link := { s.link with
        rxNext := (fieldLE f 0 2 + 1) % 65536, rxValid := true
        credits := (List.range 3).map (fun c => s.link.credits.getD c 0 + (if c = byteAt f 4 then fieldLE f 6 2 else 0)) } }) ∧
  (∀ s : State, s.linkIsUp = true → ∃ t, exec .flitTransmit s = .next t ∧
    (s.link.resend = 0 → s.link.replay.length < replayFlits → s.link.sending = [] → s.nextFrame.isNone = true → s.link.creditRet = [0, 0, 0] →
      t = { s with link := { s.link with
        nak := false
        out := s.link.out ++ [adtikFlit s.link.txSeq ((s.link.rxNext + 65535) % 65536) 0xFF (if s.link.nak then 1 else 0) 0 []] } }) ∧
    (s.link.resend = 0 → ∃ f, t.link.out = s.link.out ++ [f])) ∧
  (∀ s : State, s.linkIsUp = false → s.link.trained = true → ∀ (f : List Byte) (q : List (List Byte)), s.link.linkOut = f :: q →
    ∃ t, exec .flitTransmit s = .next t ∧
      t.link.out = s.link.out ++ [adtikFlit s.link.txSeq (s.link.rxNext + 65535) 0xFF (if s.link.nak then 1 else 0) 0 f] ∧ t.link.linkOut = q ∧
      (byteAt f 16 ≠ 2 → t = { s with regs := t.regs, link := { s.link with linkOut := q, nak := false, out := t.link.out } } ∧
        RegsBut [(R.HLK.TX_FRAMES, 0)] s t) ∧
      (byteAt f 16 = 2 → t.link.confirmOut = true ∧ t.linkIsUp = (s.link.confirmIn && s.link.offer.isSome)))

/-! ### Requests -/

/-- Do the frames of a partition go through at once: none waits, its ring has room, no commit resolves and no range of its memory
clears (R259, R275, R408). -/
def Sys2Proof.Machine.State.takesFrames (s : State) (p : Nat) : Prop :=
  s.partExists p = true ∧ s.clears p = false ∧ (s.part p).inbox = [] ∧ (s.part p).respWait = [] ∧ 320 ≤ s.ringFree p ∧ (s.part p).step.phase ≠ .cut

/-- A REQUEST that passes every check is admitted: the lowest free slot gets a hamper in QUEUED with the request's parameters, the
next ADM_SEQ and the present device time, and SRV_ADMIT counts it; no RESPONSE is sent, and over memory without errors and poison
no other register changes. A REQUEST that fails a check leaves no
hamper and is answered with exactly one FINAL that holds the status of the first failing check (R241, R243). One that is longer than its
type allows is discarded unread, and its credits go back (R403). -/
def Obligations.RequestsAreAdmittedOrRefused : Prop :=
  ∀ (b : List Byte) (p : Nat) (s : State), s.linkIsUp = true → byteAt b 2 = p → p < 12 → s.takesFrames p →
    (b.length ≤ 4195472 → s.refusal (s.rd R.HLK.STAT_FORMAT 0) b (ReqFrame.ofBytes b) = none → (ReqFrame.ofBytes b).q.deadline = 0 →
      ∃ t h, exec (.request b) s = .next t ∧
        AMap.get? (t.part p).hampers (lowestFree (s.part p).hampers 0) = some h ∧ h.state = 1 ∧ h.q = (ReqFrame.ofBytes b).q ∧
        h.admSeq = (s.part p).admSeq ∧ h.admTime = s.clk.devTime ∧ h.promptLen = (ReqFrame.ofBytes b).promptLen ∧
        (∀ k, k ≠ lowestFree (s.part p).hampers 0 → AMap.get? (t.part p).hampers k = AMap.get? (s.part p).hampers k) ∧
        (t.part p).admSeq = (s.part p).admSeq + 1 ∧ (t.part p).resp = (s.part p).resp ∧ (t.part p).inbox = [] ∧
        (∀ q, q ≠ p → t.part q = s.part q) ∧
        (MemClean s → t.rd R.SRV.ADMIT p = min (s.rd R.SRV.ADMIT p + 1) (2 ^ 64 - 1) ∧
          RegsBut [(R.SRV.ADMIT, p), (R.HLK.RX_FRAMES, 0)] s t)) ∧
    (∀ st, b.length ≤ 4195472 → s.refusal (s.rd R.HLK.STAT_FORMAT 0) b (ReqFrame.ofBytes b) = some st →
      ∃ t, exec (.request b) s = .next t ∧ (t.part p).hampers = (s.part p).hampers ∧
        (t.part p).resp = (s.part p).resp ++
          [linkFrame 6 0 (respPayload (ReqFrame.ofBytes b).q.reqId kFinal st 0 0 s.clk.devTime p [])] ∧
        (t.part p).admSeq = (s.part p).admSeq ∧ (∀ q, q ≠ p → t.part q = s.part q) ∧
        (st = stWrongState → t.rd R.SRV.EVT_WRONG_STATE p = 1) ∧ (st ≠ stWrongState → t.rd R.SRV.EVT_REJECTED p = 1)) ∧
    (4195472 < b.length → ∃ t, exec (.request b) s = .next t ∧ t = { s with regs := t.regs, link := { s.link with creditRet := t.link.creditRet } } ∧
      t.link.creditRet.getD 0 0 = s.link.creditRet.getD 0 0 + frameCredits b.length ∧ t.rd R.HLK.EVT_FRAME_DISCARD 0 = 1 ∧
      RegsBut [(R.HLK.RX_FRAMES, 0), (R.HLK.EVT_FRAME_DISCARD, 0), (R.HLK.DISCARD_CNT, 0)] s t)

/-- A CANCEL of a request that the partition does not hold is answered ALREADY_FINISHED; one to a partition whose SRV is disabled,
WRONG_STATE; one that breaks its format, REJ_FORMAT: one CANCEL_RESULT each, and no hamper changes. A CANCEL of a waiting
request while no step runs ends it: its hamper is free, and its FINAL goes before the CANCEL_RESULT, both with CANCELLED
(R261, R266). One of more than 16 bytes is discarded unread (R403). -/
def Obligations.CancelEndsOrAnswers : Prop :=
  ∀ (b : List Byte) (p : Nat) (s : State), s.linkIsUp = true → byteAt b 8 = p → p < 12 → s.takesFrames p →
    (16 < b.length → ∃ t, exec (.cancel b) s = .next t ∧ t.parts = s.parts ∧
      t.link.creditRet.getD 1 0 = s.link.creditRet.getD 1 0 + frameCredits b.length ∧
      t.rd R.HLK.EVT_FRAME_DISCARD 0 = 1) ∧
    (∀ st, b.length ≤ 16 ∧ (b.length ≠ 16 ∨ zerosAt b 9 7 = false) ∧ st = stRejFormat ∨
        b.length = 16 ∧ zerosAt b 9 7 = true ∧ s.en .srv p = false ∧ st = stWrongState ∨
        b.length = 16 ∧ zerosAt b 9 7 = true ∧ s.en .srv p = true ∧ st = stAlready ∧
          (s.part p).hampers.find? (fun e => e.2.q.reqId == fieldLE b 0 8 && e.2.state != 4) = none →
      ∃ t, exec (.cancel b) s = .next t ∧ (t.part p).hampers = (s.part p).hampers ∧
        (t.part p).resp = (s.part p).resp ++ [linkFrame 6 0 (respPayload (fieldLE b 0 8) kCancelResult st 0 0 s.clk.devTime p [])] ∧
        ∀ q, q ≠ p → t.part q = s.part q) ∧
    (∀ slot h, b.length = 16 → zerosAt b 9 7 = true → s.en .srv p = true → s.stepRuns p = false →
      (s.part p).hampers.find? (fun e => e.2.q.reqId == fieldLE b 0 8 && e.2.state != 4) = some (slot, h) →
      s.hamper p slot = some h → s.seq p slot = none → h.ringOff = none → h.cancels = 0 → MemClean s →
      ∃ t, exec (.cancel b) s = .next t ∧ t.hamper p slot = none ∧
        (∀ k, k ≠ slot → t.hamper p k = s.hamper p k) ∧
        (t.part p).resp = (s.part p).resp ++
          [linkFrame 6 0 (respPayload h.q.reqId kFinal stCancelled h.respFlags h.outIndex s.clk.devTime p []),
           linkFrame 6 0 (respPayload (fieldLE b 0 8) kCancelResult stCancelled (if h.countFull then 2 else 0) 0 s.clk.devTime p [])] ∧
        t.rd R.SRV.CANCEL_CNT p = min (s.rd R.SRV.CANCEL_CNT p + 1) (2 ^ R.SRV.CANCEL_CNT.width - 1))

/-- Commands of serving control and the key-value engine. PREEMPT of a slot without a hamper is refused; while a step runs it is
kept for the boundary; with no step running a PREFILL request goes back to QUEUED at once. END of a slot without a hamper, or of
a request that is ending, is a command in the wrong state; END of an entry of the running step is kept for its commit; else the
request ends with ENDED and its hamper is free. FLUSH waits for the boundary, and takes effect at once in a partition that has
formed no step; it does nothing while KVE is disabled. DEADLINE_CHECK with no step running ends the request whose deadline has
passed (R224, R263 to R266, R481). -/
def Obligations.ServingCommands : Prop :=
  (∀ (p : Fin 12) (s : State), s.partExists p.val = true → s.hamper p.val (s.rd R.SRV.PREEMPT_SLOT p.val) = none →
    ∃ t, exec (.srvPreempt p) s = .next t ∧ t = { s with regs := t.regs } ∧ t.rd R.SRV.EVT_PREEMPT_REFUSED p.val = 1 ∧
      RegsBut [(R.SRV.EVT_PREEMPT_REFUSED, p.val)] s t) ∧
  (∀ (p : Fin 12) (s : State) (h : Hamper), s.partExists p.val = true → s.hamper p.val (s.rd R.SRV.PREEMPT_SLOT p.val) = some h →
    h.preemptReq = false →
    ∃ t, exec (.srvPreempt p) s = .next t ∧
      (s.stepRuns p.val = true → t.regs = s.regs ∧
        t.hamper p.val (s.rd R.SRV.PREEMPT_SLOT p.val) = some { h with preemptReq := true }) ∧
      (s.stepRuns p.val = false → h.state = 2 → s.seq p.val (s.rd R.SRV.PREEMPT_SLOT p.val) = none →
        t.hamper p.val (s.rd R.SRV.PREEMPT_SLOT p.val) = some { h with state := 1, preempted := true, preemptReq := false } ∧
        t.rd R.SRV.EVT_PREEMPT_DONE p.val = 1)) ∧
  (∀ (p : Fin 12) (s : State), s.partExists p.val = true → (∀ h, s.hamper p.val (s.rd R.SRV.END_SLOT p.val) = some h → h.state = 4 ∨
    h.endPend = true) →
    ∃ t, exec (.srvEnd p) s = .next t ∧ t = { s with regs := t.regs } ∧ t.rd R.SRV.EVT_WRONG_STATE p.val = 1 ∧
      RegsBut [(R.SRV.EVT_WRONG_STATE, p.val), (R.SRV.WRONG_STATE_CNT, p.val)] s t) ∧
  (∀ (p : Fin 12) (s : State) (h : Hamper), s.partExists p.val = true → s.hamper p.val (s.rd R.SRV.END_SLOT p.val) = some h → h.state ≠ 4 →
    h.endPend = false →
    ∃ t, exec (.srvEnd p) s = .next t ∧
      (∀ i, s.entryOf p.val (s.rd R.SRV.END_SLOT p.val) = some i → t.regs = s.regs ∧
        t.hamper p.val (s.rd R.SRV.END_SLOT p.val) = some { h with endPend := true }) ∧
      (s.stepRuns p.val = false → s.seq p.val (s.rd R.SRV.END_SLOT p.val) = none → h.ringOff = none →
        t.hamper p.val (s.rd R.SRV.END_SLOT p.val) = none)) ∧
  (∀ (p : Fin 12) (s : State), s.partExists p.val = true → ∃ t, exec (.kveFlush p) s = .next t ∧
    (s.en .kve p.val = false → t = s) ∧
    (s.en .kve p.val = true → s.unstepped p.val = false → t.regs = s.regs ∧ t.part p.val = { s.part p.val with flushPend := true }) ∧
    (s.en .kve p.val = true → s.unstepped p.val = true → t.rd R.KVE.EVT_FLUSHED p.val = 1 ∧ (t.part p.val).flushPend = false)) ∧
  (∀ (p : Fin 12) (s : State) (slot : Nat) (h : Hamper), s.stepRuns p.val = false → (s.part p.val).hampers = [(slot, h)] → h.state ≠ 4 →
    h.q.deadline ≠ 0 → h.q.deadline ≤ s.clk.devTime → s.seq p.val slot = none → h.ringOff = none →
    ∃ t, exec (.deadlineCheck p) s = .next t ∧ (t.part p.val).hampers = [] ∧
      (MemClean s → t.rd R.SRV.DEADLINE_CNT p.val = min (s.rd R.SRV.DEADLINE_CNT p.val + 1) (2 ^ R.SRV.DEADLINE_CNT.width - 1))) ∧
  (∀ (p : Fin 12) (s : State), s.stepRuns p.val = true → exec (.deadlineCheck p) s = .next s)

/-! ### Digital cores: what every instruction shares -/

/-- Poison of a lane's result: that of the operands it reads, and of its predicate (R184). -/
def Sys2Proof.Machine.lanePoison (r : Group) (f : VFmt) (n i : Nat) : Nat :=
  ((if n < 1 then 0 else (r.src f.asc f.a i).o) ||| (if n < 2 then 0 else (r.src f.bsc f.b i).o) |||
    (if n < 3 then 0 else (r.src f.csc f.c i).o)) ||| r.predPoi f.toCommon i

/-- An instruction of n sources that computes D, whose shape `ok` accepts, when its group can issue it and comes to it. With a lane destination,
every active lane of D takes the low 32 bits of `lane` of that lane's operands, with their poison; every other lane and register
of the group stays. With a scalar destination and scalar sources, D takes `scal` of them; with a lane register among the
sources the spec states no result, and D takes a free value (log entry 21). -/
def Sys2Proof.Machine.computes (mk : GroupRef → VFmt → Instr) (ok : VFmt → Bool) (n : Nat) (lane scal : VFmt → Nat → Nat → Nat → Nat) : Prop :=
  ∀ (g : GroupRef) (f : VFmt) (s : State) (p : Nat), s.canIssue g = some p → s.comesTo (mk g f) = true → ok f = true →
    (f.dsc = false → ∃ t, exec (mk g f) s = .next t ∧ issued g p false s t ∧
      t.grp g = { s.grp g with pc := (s.grp g).pc + 1, v := (t.grp g).v } ∧
      ∀ i, i < 32 →
        ((s.grp g).active f.toCommon i = true → (t.grp g).vreg f.d.val i =
          { v := lane f ((s.grp g).src f.asc f.a i).v ((s.grp g).src f.bsc f.b i).v ((s.grp g).src f.csc f.c i).v % 2 ^ 32
            o := lanePoison (s.grp g) f n i }) ∧
        ((s.grp g).active f.toCommon i = false → (t.grp g).vreg f.d.val i = (s.grp g).vreg f.d.val i) ∧
        ∀ e, e ≠ f.d.val → (t.grp g).vreg e i = (s.grp g).vreg e i) ∧
    (f.dsc = true → vAllScalar f n = true → ∃ t, exec (mk g f) s = .next t ∧ issued g p false s t ∧
      t.grp g = { s.grp g with pc := (s.grp g).pc + 1, s := (t.grp g).s } ∧
      (t.grp g).sreg f.d.val = { v := scal f ((s.grp g).sreg f.a.val).v ((s.grp g).sreg f.b.val).v ((s.grp g).sreg f.c.val).v % 2 ^ 64
                                 o := (s.grp g).srcPoi f n } ∧
      ∀ e, e ≠ f.d.val → (t.grp g).sreg e = (s.grp g).sreg e) ∧
    (f.dsc = true → vAllScalar f n = false → ∃ t, exec (mk g f) s = .next t ∧ issued g p true s t ∧
      t.grp g = { s.grp g with pc := (s.grp g).pc + 1, s := (t.grp g).s } ∧
      (t.grp g).sreg f.d.val = { v := Config.freeNat s.free % 2 ^ 64, o := (s.grp g).srcPoi f n } ∧
      ∀ e, e ≠ f.d.val → (t.grp g).sreg e = (s.grp g).sreg e)

/-- Result of an integer instruction on the numbers that its operands stand for: exact, then wrapped to the type's width (R194). -/
def Sys2Proof.Machine.wrapInt (op : Int → Int → Int → Int) (f : VFmt) (a b c : Nat) : Nat :=
  ux (op (intVal f.ty.val a) (intVal f.ty.val b) (intVal f.ty.val c)) (intWidth f.ty.val)

/-- Result of an integer instruction on bits of the type's width w. -/
def Sys2Proof.Machine.onBits (op : Nat → Nat → Nat → Nat) (f : VFmt) (a b _c : Nat) : Nat :=
  op (intWidth f.ty.val) (a % 2 ^ intWidth f.ty.val) (b % 2 ^ intWidth f.ty.val) % 2 ^ intWidth f.ty.val

/-- Integer instructions (R192, R194): sums, differences and products wrap, comparisons follow the signedness of the type, shift
distances are taken modulo the width, and SAR fills with the sign. -/
def Obligations.IntegerInstructions : Prop :=
  (∀ x ∈ ([(Instr.coreIadd, 2, fun a b _ => a + b), (.coreIsub, 2, fun a b _ => a - b), (.coreImul, 2, fun a b _ => a * b),
      (.coreImad, 3, fun a b c => a * b + c), (.coreImin, 2, fun a b _ => if a ≤ b then a else b),
      (.coreImax, 2, fun a b _ => if a ≤ b then b else a)] : List ((GroupRef → VFmt → Instr) × Nat × (Int → Int → Int → Int))),
    computes x.1 (fun f => vOkInt f x.2.1) x.2.1 (wrapInt x.2.2) (fun f a b c => toScalar f.ty.val (wrapInt x.2.2 f a b c))) ∧
  (∀ x ∈ ([(Instr.coreAnd, 2, fun _ a b => a &&& b), (.coreOr, 2, fun _ a b => a ||| b), (.coreXor, 2, fun _ a b => a ^^^ b),
      (.coreShl, 2, fun w a b => a * 2 ^ (b % w)), (.coreShr, 2, fun w a b => a / 2 ^ (b % w)),
      (.coreSar, 2, fun w a b => ux ((sx a w).fdiv (2 ^ (b % w))) w), (.coreMov, 1, fun _ a _ => a)] :
        List ((GroupRef → VFmt → Instr) × Nat × (Nat → Nat → Nat → Nat))),
    computes x.1 (fun f => vOkInt f x.2.1) x.2.1 (onBits x.2.2) (fun f a b c => toScalar f.ty.val (onBits x.2.2 f a b c)))

/-- Floating-point instructions (R192, R194): each operand is read in the type TY, the operation is done in FP32, and the result
goes back to the type in one rounding. -/
def Obligations.FloatInstructions : Prop :=
  ∀ x ∈ ([(Instr.coreFadd, 2, fun a b _ => fpAdd a b), (.coreFmul, 2, fun a b _ => fpMul a b), (.coreFfma, 3, fpFma),
      (.coreFmin, 2, fun a b _ => fpMin a b), (.coreFmax, 2, fun a b _ => fpMax a b), (.coreFex2, 1, fun a _ _ => fpEx2 a),
      (.coreFlg2, 1, fun a _ _ => fpLg2 a), (.coreFrcp, 1, fun a _ _ => fpRcp a), (.coreFrsq, 1, fun a _ _ => fpRsq a)] :
        List ((GroupRef → VFmt → Instr) × Nat × (Nat → Nat → Nat → Nat))),
    computes x.1 (fun f => vOkFp f x.2.1) x.2.1
      (fun f a b c => fpOut f.ty.val (x.2.2 (fpIn f.ty.val a) (fpIn f.ty.val b) (fpIn f.ty.val c)))
      (fun f a b c => fpOut f.ty.val (x.2.2 (fpIn f.ty.val a) (fpIn f.ty.val b) (fpIn f.ty.val c)))

/-! ### Digital cores: compares, moves, conversions -/

/-- A lane result: the group goes on, and every active lane of D holds the low 32 bits of its value, with its poison and that of the
predicate; every other lane register stays (R185). -/
def Sys2Proof.Machine.laneWrite (r t : Group) (c : Common) (d : Nat) (x : Nat → PVal) : Prop :=
  t = { r with pc := r.pc + 1, v := t.v } ∧ ∀ i, i < 32 →
    (r.active c i = true → t.vreg d i = { v := (x i).v % 2 ^ 32, o := (x i).o ||| r.predPoi c i }) ∧
    (r.active c i = false → t.vreg d i = r.vreg d i) ∧ ∀ e, e ≠ d → t.vreg e i = r.vreg e i

/-- A scalar result: the group goes on, D holds it, and every other scalar register stays. -/
def Sys2Proof.Machine.scalarWrite (r t : Group) (d : Nat) (x : PVal) : Prop :=
  t = { r with pc := r.pc + 1, s := t.s } ∧ t.sreg d = { v := x.v % 2 ^ 64, o := x.o } ∧ ∀ e, e ≠ d → t.sreg e = r.sreg e

/-- A predicate result in every active lane; every other predicate and lane stays. -/
def Sys2Proof.Machine.predWrite (r t : Group) (c : Common) (d : Nat) (b : Nat → Bool) (o : Nat → Nat) : Prop :=
  t = { r with pc := r.pc + 1, p := t.p, pp := t.pp } ∧ ∀ i, i < 32 →
    (r.active c i = true → (t.preg d).testBit i = b i ∧ t.ppoi d i = o i ||| r.predPoi c i) ∧
    (r.active c i = false → (t.preg d).testBit i = (r.preg d).testBit i ∧ t.ppoi d i = r.ppoi d i) ∧
    ∀ e, e ≠ d → t.preg e = r.preg e ∧ t.ppoi e i = r.ppoi e i

/-- Condition of a compare by its code C: EQ, NE, LT, LE, GT, GE, UNORD (R191). -/
def Sys2Proof.Machine.condHolds (c : Nat) (lt eq un : Bool) : Bool :=
  if c = 0 then eq && !un else if c = 1 then !eq || un else if c = 2 then lt && !un else if c = 3 then (lt || eq) && !un
  else if c = 4 then !lt && !eq && !un else if c = 5 then !lt && !un else un

/-- ICMP and FCMP write the predicate PD in every active lane, with the poison of both operands: an integer compare follows the
signedness of the type, and of two floating-point operands a NaN makes only NE and UNORD hold (R192). -/
def Obligations.ComparesWritePredicates : Prop :=
  ∀ (g : GroupRef) (f : VFmt) (s : State) (p : Nat), s.canIssue g = some p → f.ty.val < 2 → vOkP f = true →
    (s.comesTo (.coreIcmp g f) = true → ∃ t, exec (.coreIcmp g f) s = .next t ∧ issued g p false s t ∧
      predWrite (s.grp g) (t.grp g) f.toCommon f.pd.val
        (fun i => condHolds f.c.val
          (decide (intVal f.ty.val ((s.grp g).src f.asc f.a i).v < intVal f.ty.val ((s.grp g).src f.bsc f.b i).v))
          (decide (intVal f.ty.val ((s.grp g).src f.asc f.a i).v = intVal f.ty.val ((s.grp g).src f.bsc f.b i).v)) false)
        (fun i => ((s.grp g).src f.asc f.a i).o ||| ((s.grp g).src f.bsc f.b i).o)) ∧
    (s.comesTo (.coreFcmp g f) = true → ∃ t, exec (.coreFcmp g f) s = .next t ∧ issued g p false s t ∧
      predWrite (s.grp g) (t.grp g) f.toCommon f.pd.val
        (fun i =>
          let a := fpIn f.ty.val ((s.grp g).src f.asc f.a i).v
          let b := fpIn f.ty.val ((s.grp g).src f.bsc f.b i).v
          condHolds f.c.val (fpLt a b) (fpEq a b) (fpIsNaN a || fpIsNaN b))
        (fun i => ((s.grp g).src f.asc f.a i).o ||| ((s.grp g).src f.bsc f.b i).o))

/-- SEL takes A where the predicate C is true and B elsewhere, LANEID the number of the lane, SHFL the A of lane B mod 32, MOVI the
immediate and IADDI the sum of A and the immediate (R192). A scalar destination that the spec gives no result takes a free
value (log entry 21). -/
def Obligations.MovesAndImmediates : Prop :=
  ∀ (g : GroupRef) (s : State) (p : Nat), s.canIssue g = some p →
    (∀ f : VFmt, vOkInt f 2 = true → f.c.val < 8 → s.comesTo (.coreSel g f) = true → ∃ t, exec (.coreSel g f) s = .next t ∧ issued g p f.dsc s t ∧
      (f.dsc = false → laneWrite (s.grp g) (t.grp g) f.toCommon f.d.val (fun i =>
        let x := if ((s.grp g).preg f.c.val).testBit i then (s.grp g).src f.asc f.a i else (s.grp g).src f.bsc f.b i
        { v := x.v, o := x.o ||| (s.grp g).ppoi f.c.val i })) ∧
      (f.dsc = true → scalarWrite (s.grp g) (t.grp g) f.d.val { v := Config.freeNat s.free, o := (s.grp g).srcPoi f 2 })) ∧
    (∀ f : VFmt, vOkInt f 0 = true → s.comesTo (.coreLaneid g f) = true → ∃ t, exec (.coreLaneid g f) s = .next t ∧ issued g p f.dsc s t ∧
      (f.dsc = false → laneWrite (s.grp g) (t.grp g) f.toCommon f.d.val (fun i => { v := i, o := 0 })) ∧
      (f.dsc = true → scalarWrite (s.grp g) (t.grp g) f.d.val { v := Config.freeNat s.free, o := 0 })) ∧
    (∀ f : VFmt, vOkInt f 2 = true → s.comesTo (.coreShfl g f) = true → ∃ t, exec (.coreShfl g f) s = .next t ∧ issued g p (f.dsc && !f.bsc) s t ∧
      (f.dsc = false → laneWrite (s.grp g) (t.grp g) f.toCommon f.d.val (fun i =>
        let b := (s.grp g).src f.bsc f.b i
        let x := (s.grp g).src f.asc f.a (b.v % 32)
        { v := x.v, o := x.o ||| b.o })) ∧
      (f.dsc = true → f.bsc = true → scalarWrite (s.grp g) (t.grp g) f.d.val (
        let b := (s.grp g).sreg f.b.val
        let x := (s.grp g).src f.asc f.a (b.v % 32)
        { v := toScalar f.ty.val x.v, o := x.o ||| b.o })) ∧
      (f.dsc = true → f.bsc = false → scalarWrite (s.grp g) (t.grp g) f.d.val { v := Config.freeNat s.free, o := (s.grp g).srcPoi f 2 })) ∧
    (∀ f : IFmt, iOk f false = true → s.comesTo (.coreMovi g f) = true → ∃ t, exec (.coreMovi g f) s = .next t ∧ issued g p false s t ∧
      (f.dsc = false → laneWrite (s.grp g) (t.grp g) f.toCommon f.d.val (fun _ => { v := ux f.imm.toInt (intWidth f.ty.val), o := 0 })) ∧
      (f.dsc = true → scalarWrite (s.grp g) (t.grp g) f.d.val { v := toScalar f.ty.val (ux f.imm.toInt (intWidth f.ty.val)), o := 0 })) ∧
    (∀ f : IFmt, iOk f true = true → s.comesTo (.coreIaddi g f) = true → ∃ t, exec (.coreIaddi g f) s = .next t ∧ issued g p (f.dsc && !f.asc) s t ∧
      (f.dsc = false → laneWrite (s.grp g) (t.grp g) f.toCommon f.d.val (fun i =>
        let a := (s.grp g).src f.asc f.a i
        { v := ux (intVal f.ty.val a.v + f.imm.toInt) (intWidth f.ty.val), o := a.o })) ∧
      (f.dsc = true → f.asc = true → scalarWrite (s.grp g) (t.grp g) f.d.val (
        let a := (s.grp g).sreg f.a.val
        { v := toScalar f.ty.val (ux (intVal f.ty.val a.v + f.imm.toInt) (intWidth f.ty.val)), o := a.o })) ∧
      (f.dsc = true → f.asc = false → scalarWrite (s.grp g) (t.grp g) f.d.val { v := Config.freeNat s.free, o := (s.grp g).vPoi f.a.val }))

/-- Value of a node of the fixed tree over the lanes: leaves are the lanes' values, and each level takes neighbours in pairs and
rounds to the type (R196). -/
def Sys2Proof.Machine.treeVal (ty : Nat) (op : Nat → Nat → Nat) (x : Nat → Nat) : Nat → Nat → Nat
  | 0, i => x i
  | k + 1, i => fpIn ty (fpOut ty (op (treeVal ty op x k (2 * i)) (treeVal ty op x k (2 * i + 1))))

/-- Every register field but ISSUE and the listed ones stays, and beside them only the issuing group and the counter of free values
change. -/
def Sys2Proof.Machine.issuedWith (l : List (Field × Nat)) (g : GroupRef) (p n : Nat) (s t : State) : Prop :=
  t = { s with regs := t.regs, cores := t.cores, free := s.free + n } ∧ RegsBut ((R.DCR.ISSUE, p) :: l) s t ∧
    (∀ c, c ≠ coreNo g → t.core c = s.core c) ∧
    t.core (coreNo g) = { s.core (coreNo g) with groups := (t.core (coreNo g)).groups } ∧
    ∀ k, k ≠ g.group.val → AMap.getD (t.core (coreNo g)).groups k {} = AMap.getD (s.core (coreNo g)).groups k {}

/-- FRED and FRMAX give every active lane, or the scalar D, the sum or the largest of A over the lanes by the fixed tree, an inactive
lane counting as +0, with the poison of them all (R196). FCVT gives each lane its stated code in the format C and the operand's
poison (R83). QBLK of 32 finite values writes the codes and the SB8 that R83 gives them; QARR of 32 finite values with a
reference scale of R74 writes the codes of R75, or the limited codes with their remainders (R78). -/
def Obligations.ReductionsConversionsAndQuantization : Prop :=
  ∀ (g : GroupRef) (f : VFmt) (s : State) (p : Nat), s.canIssue g = some p →
    (∀ x ∈ ([(Instr.coreFred, fpAdd), (.coreFrmax, fpMax)] : List ((GroupRef → VFmt → Instr) × (Nat → Nat → Nat))),
      vOkFp f 1 = true → s.comesTo (x.1 g f) = true → ∃ t, exec (x.1 g f) s = .next t ∧ issued g p false s t ∧
        (let r := s.grp g
         let res : PVal :=
          { v := fpOut f.ty.val (treeVal f.ty.val x.2 (fun i => if r.active f.toCommon i then fpIn f.ty.val (r.src f.asc f.a i).v else 0) 5 0)
            o := (List.range 32).foldl (fun o i => o ||| ((if r.active f.toCommon i then (r.src f.asc f.a i).o else 0) ||| r.predPoi f.toCommon i)) 0 }
         (f.dsc = false → laneWrite r (t.grp g) f.toCommon f.d.val (fun _ => res)) ∧
         (f.dsc = true → scalarWrite r (t.grp g) f.d.val res))) ∧
    (f.ty.val < 10 → f.c.val % 16 < 10 → vOk f 1 = true → f.dsc = false ∨ f.asc = true →
      s.comesTo (.coreFcvt g f) = true → ∃ t, exec (.coreFcvt g f) s = .next t ∧ issuedWith [] g p 1 s t ∧
        (f.dsc = false → ∀ i, i < 32 →
          (∀ x, (s.grp g).active f.toCommon i = true →
            cvtCode f.ty.val (f.c.val % 16) ((s.grp g).src f.asc f.a i).v = some x →
            (t.grp g).vreg f.d.val i = { v := x % 2 ^ 32, o := ((s.grp g).src f.asc f.a i).o ||| (s.grp g).predPoi f.toCommon i }) ∧
          ((s.grp g).active f.toCommon i = false → (t.grp g).vreg f.d.val i = (s.grp g).vreg f.d.val i) ∧
          ∀ e, e ≠ f.d.val → (t.grp g).vreg e i = (s.grp g).vreg e i) ∧
        (f.dsc = true → ∀ x, cvtCode f.ty.val (f.c.val % 16) ((s.grp g).sreg f.a.val).v = some x →
          scalarWrite (s.grp g) (t.grp g) f.d.val { v := x, o := ((s.grp g).sreg f.a.val).o })) ∧
    (f.ty.val < 10 → f.c.val % 16 < 10 → vOk f 1 = true → f.dsc = true → f.asc = false →
      s.comesTo (.coreFcvt g f) = true → ∃ t, exec (.coreFcvt g f) s = .next t ∧ issuedWith [] g p 2 s t ∧
        scalarWrite (s.grp g) (t.grp g) f.d.val { v := Config.freeNat (s.free + 1), o := (s.grp g).vPoi f.a.val }) ∧
    (fmtBlock f.ty.val = true → f.dsc = false → selOk f.asc f.a = true → f.c.val < 16 →
      s.comesTo (.coreQblk g f) = true → ∃ t, exec (.coreQblk g f) s = .next t ∧ issuedWith [(R.DCP.SAT_BLOCK_CNT, g.hub.val)] g p 1 s t ∧
        (let r := s.grp g
         let q := quantBlock f.ty.val ((List.range 32).map (fun i => (r.src f.asc f.a i).v)) (Config.freeNat s.free)
         t.grp g = { r with pc := r.pc + 1, v := (t.grp g).v, s := (t.grp g).s } ∧
         (t.grp g).sreg f.c.val = { v := q.2.1 % 2 ^ 64, o := r.poi f.asc f.a } ∧
         (∀ e, e ≠ f.c.val → (t.grp g).sreg e = r.sreg e) ∧
         ∀ i, i < 32 →
          (r.active f.toCommon i = true →
            (t.grp g).vreg f.d.val i = { v := q.1.getD i 0 % 2 ^ 32, o := r.poi f.asc f.a ||| r.predPoi f.toCommon i }) ∧
          (r.active f.toCommon i = false → (t.grp g).vreg f.d.val i = r.vreg f.d.val i) ∧
          ∀ e, e ≠ f.d.val → (t.grp g).vreg e i = r.vreg e i)) ∧
    (7 ≤ f.ty.val → f.ty.val ≤ 9 → f.dsc = false → selOk f.asc f.a = true → f.b.val < 16 → f.c.val < 16 → f.d.val < 31 →
      s.comesTo (.coreQarr g f) = true → ∃ t, exec (.coreQarr g f) s = .next t ∧
        issuedWith [(R.DCP.SAT_BLOCK_CNT, g.hub.val), (R.DCP.ZERO_BLOCK_CNT, g.hub.val)] g p 1 s t ∧
        (let r := s.grp g
         let sref := (r.sreg f.b.val).v
         let q := arrayBlock f.ty.val sref (srefExp sref) ((List.range 32).map (fun i => (r.src f.asc f.a i).v))
          ((List.range 32).map (fun i => !r.active f.toCommon i)) (Config.freeNat s.free)
         let o := r.poi f.asc f.a ||| (r.sreg f.b.val).o
         t.grp g = { r with pc := r.pc + 1, v := (t.grp g).v, s := (t.grp g).s } ∧
         (∀ e, e ≠ f.c.val → (t.grp g).sreg e = r.sreg e) ∧
         (∀ e i, i < 32 → e ≠ f.d.val → e ≠ f.d.val + 1 → (t.grp g).vreg e i = r.vreg e i) ∧
         (srefOk sref = true →
          (t.grp g).sreg f.c.val = { v := (q.sb8 + 256 * q.k) % 2 ^ 64, o := o } ∧
          ∀ i, i < 32 → r.active f.toCommon i = true →
            (t.grp g).vreg f.d.val i = { v := ux (q.codes.getD i 0) (fmtBits f.ty.val) % 2 ^ 32, o := o ||| r.predPoi f.toCommon i } ∧
            (t.grp g).vreg (f.d.val + 1) i = { v := q.rem.getD i 0 % 2 ^ 32, o := o ||| r.predPoi f.toCommon i })))

/-! ### Digital cores: scratch, transfers, tensor instructions -/

/-- No active lane's access faults: its address is unpoisoned, its bytes lie in the scratch, and 128-bit accesses are aligned
(R181, R184, R210). -/
def Sys2Proof.Machine.lanesAccess (r : Group) (f : SFmt) (n : Nat) : Prop :=
  ∀ i, i < 32 → r.active f.toCommon i = true →
    (r.addrOf f i).o = 0 ∧ (r.addrOf f i).v + n ≤ scratchBytes ∧ (n = 16 → (r.addrOf f i).v % 16 = 0)

/-- No byte of scratch is named by two active lanes. -/
def Sys2Proof.Machine.lanesApart (r : Group) (f : SFmt) (n : Nat) : Prop :=
  ∀ i j, i < 32 → j < 32 → i ≠ j → r.active f.toCommon i = true → r.active f.toCommon j = true →
    (r.addrOf f i).v + n ≤ (r.addrOf f j).v ∨ (r.addrOf f j).v + n ≤ (r.addrOf f i).v

/-- The scratch byte of a core. -/
def Sys2Proof.Machine.scrByte (c : CoreSt) (a : Nat) : Nat := leNat (c.rd a 1)

/-- Scratch accesses. LDS, STS and AADD complete whenever their group can issue them and comes to them, verification accepts their shape, and no active
lane's access faults: the group goes on to its next instruction (R179, R192, R210). LDS gives every active lane the bytes at its address,
zero-extended or sign-extended, and a 128-bit load the four registers from D on. STS of lanes that share no byte leaves at each lane's
address its bytes and every other byte as it was. AADD of lanes that share no word adds D to the word and gives the lane the old word. An
access of a lane at a poisoned, too high or unaligned address faults the group before anything moves (R181, R184, R210). -/
def Obligations.ScratchAccesses : Prop :=
  ∀ (g : GroupRef) (f : SFmt) (s : State) (p : Nat), s.canIssue g = some p →
    (sOk f = true → lanesAccess (s.grp g) f (accBytes f) →
      s.comesTo (.coreLds g f) = true → ∃ t, exec (.coreLds g f) s = .next t ∧ (t.grp g).pc = (s.grp g).pc + 1) ∧
    (sOk f = true → lanesAccess (s.grp g) f (accBytes f) →
      s.comesTo (.coreSts g f) = true → ∃ t, exec (.coreSts g f) s = .next t ∧ (t.grp g).pc = (s.grp g).pc + 1) ∧
    (aaddOk f = true → lanesAccess (s.grp g) f 4 →
      s.comesTo (.coreAadd g f) = true → ∃ t, exec (.coreAadd g f) s = .next t ∧ (t.grp g).pc = (s.grp g).pc + 1) ∧
    (sOk f = true → lanesAccess (s.grp g) f (accBytes f) → s.comesTo (.coreLds g f) = true → ∃ t, exec (.coreLds g f) s = .next t ∧
      issued g p false s t ∧
      t.grp g = { s.grp g with pc := (s.grp g).pc + 1, v := (t.grp g).v } ∧
      (let n := if f.size.val = 3 then 4 else 1
       ∀ i, i < 32 →
        (∀ j, j < n → (s.grp g).active f.toCommon i = true →
          ((t.grp g).vreg (f.d.val + j) i).v =
            (let w := min (accBytes f) 4
             let x := leNat ((s.core (coreNo g)).rd (((s.grp g).addrOf f i).v + 4 * j) w)
             if f.sext then ux (sx x (8 * w)) 32 else x)) ∧
        (∀ j, j < n → (s.grp g).active f.toCommon i = false → (t.grp g).vreg (f.d.val + j) i = (s.grp g).vreg (f.d.val + j) i) ∧
        ∀ e, e < f.d.val ∨ f.d.val + n ≤ e → (t.grp g).vreg e i = (s.grp g).vreg e i)) ∧
    (sOk f = true → lanesAccess (s.grp g) f (accBytes f) → lanesApart (s.grp g) f (accBytes f) →
      s.comesTo (.coreSts g f) = true → ∃ t, exec (.coreSts g f) s = .next t ∧ t = { s with regs := t.regs, cores := t.cores } ∧
        RegsBut [(R.DCR.ISSUE, p)] s t ∧
        (∀ c, c ≠ coreNo g → t.core c = s.core c) ∧ t.grp g = { s.grp g with pc := (s.grp g).pc + 1 } ∧
        (∀ i k, i < 32 → (s.grp g).active f.toCommon i = true → k < accBytes f →
          scrByte (t.core (coreNo g)) (((s.grp g).addrOf f i).v + k) =
            ((s.grp g).vreg (f.d.val + k / 4) i).v / 256 ^ (k % 4) % 256) ∧
        (∀ a, (∀ i, i < 32 → (s.grp g).active f.toCommon i = true →
            a < ((s.grp g).addrOf f i).v ∨ ((s.grp g).addrOf f i).v + accBytes f ≤ a) →
          scrByte (t.core (coreNo g)) a = scrByte (s.core (coreNo g)) a)) ∧
    (aaddOk f = true → lanesAccess (s.grp g) f 4 → lanesApart (s.grp g) f 4 →
      s.comesTo (.coreAadd g f) = true → ∃ t, exec (.coreAadd g f) s = .next t ∧ t = { s with regs := t.regs, cores := t.cores, free := s.free + 1 } ∧
        RegsBut [(R.DCR.ISSUE, p)] s t ∧ (∀ c, c ≠ coreNo g → t.core c = s.core c) ∧
        t.grp g = { s.grp g with pc := (s.grp g).pc + 1, v := (t.grp g).v } ∧
        (∀ i, i < 32 → (s.grp g).active f.toCommon i = true →
          leNat ((t.core (coreNo g)).rd ((s.grp g).addrOf f i).v 4) =
            (leNat ((s.core (coreNo g)).rd ((s.grp g).addrOf f i).v 4) + ((s.grp g).vreg f.d.val i).v) % 2 ^ 32 ∧
          ((t.grp g).vreg f.d.val i).v = leNat ((s.core (coreNo g)).rd ((s.grp g).addrOf f i).v 4)) ∧
        (∀ a, (∀ i, i < 32 → (s.grp g).active f.toCommon i = true →
            a < ((s.grp g).addrOf f i).v ∨ ((s.grp g).addrOf f i).v + 4 ≤ a) →
          scrByte (t.core (coreNo g)) a = scrByte (s.core (coreNo g)) a)) ∧
    (∀ n i cause, i < 32 → (s.grp g).active f.toCommon i = true →
      (∀ j, j < i → (s.grp g).active f.toCommon j = true → accFault ((s.grp g).addrOf f j) n = none) →
      (((s.grp g).addrOf f i).o ≠ 0 ∧ cause = 4 ∨
        ((s.grp g).addrOf f i).o = 0 ∧ scratchBytes < ((s.grp g).addrOf f i).v + n ∧ cause = 1 ∨
        ((s.grp g).addrOf f i).o = 0 ∧ ((s.grp g).addrOf f i).v + n ≤ scratchBytes ∧ n = 16 ∧ ((s.grp g).addrOf f i).v % 16 ≠ 0 ∧
          cause = 2) →
      (n = accBytes f → sOk f = true →
        (s.comesTo (.coreLds g f) = true → exec (.coreLds g f) s = .next ((s.count R.DCR.ISSUE p).coreFault g p cause)) ∧
        (s.comesTo (.coreSts g f) = true → exec (.coreSts g f) s = .next ((s.count R.DCR.ISSUE p).coreFault g p cause))) ∧
      (n = 4 → aaddOk f = true → s.comesTo (.coreAadd g f) = true → exec (.coreAadd g f) s = .next ((s.count R.DCR.ISSUE p).coreFault g p cause)))

/-- A transfer is queued behind its core's other transfers, its token is pending, and nothing else changes but the count of issues. -/
def Sys2Proof.Machine.queued (g : GroupRef) (p : Nat) (x : Xfer) (s t : State) : Prop :=
  t = { s with regs := t.regs, cores := t.cores } ∧ RegsBut [(R.DCR.ISSUE, p)] s t ∧ (∀ c, c ≠ coreNo g → t.core c = s.core c) ∧
    (t.core (coreNo g)).xfers = (s.core (coreNo g)).xfers ++ [x] ∧ (t.core (coreNo g)).scratch = (s.core (coreNo g)).scratch ∧
    t.grp g = { s.grp g with pc := (s.grp g).pc + 1, toks := setBits (s.grp g).toks x.tok 1 1 }

/-- Transfers. An instruction with a token waits while that token is pending. Else XLD, XST, XCP and XGTH with unpoisoned scalars, in
range, aligned and in the partition queue their transfer and go on with the token pending; so do the key-value operations.
WAIT stops the group while its token is pending and goes on otherwise. TRANSFER_COMPLETE does nothing while a burst of the transfer has
not moved; once all have moved in their slots, the oldest transfer leaves the queue, its token is no longer pending, and a load,
store, gather or copy changes nothing else (R182, R183, R192, R193, R230; a slot's move of one burst is FramesAndSlots). -/
def Obligations.TransfersAndTokens : Prop :=
  (∀ (g : GroupRef) (f : MFmt) (x : XFmt) (s : State), Common.plain f.toCommon = true → Common.plain x.toCommon = true →
    (s.tokPending g f.tok.val = true → exec (.coreXld g f) s = .next s ∧ exec (.coreXst g f) s = .next s ∧ exec (.coreXcp g f) s = .next s ∧
      exec (.coreXgth g f) s = .next s) ∧
    (s.tokPending g x.tok.val = true → exec (.coreAcall g x) s = .next s ∧ exec (.coreTopk g x) s = .next s ∧ exec (.coreEput g x) s = .next s)) ∧
  (∀ (g : GroupRef) (f : MFmt) (s : State) (p : Nat), s.canIssue g = some p → Common.plain f.toCommon = true →
    s.tokPending g f.tok.val = false → ((s.grp g).sreg f.sa.val).o = 0 → ((s.grp g).sreg f.sm.val).o = 0 → ((s.grp g).sreg f.sl.val).o = 0 →
    (let scr := ((s.grp g).sreg f.sa.val).v
     let mem := ((s.grp g).sreg f.sm.val).v
     let len := ((s.grp g).sreg f.sl.val).v
     (scr < scratchBytes → scr + len ≤ scratchBytes → mem % 64 = 0 → len % 64 = 0 → s.xferMemOk p g f.plan.val mem len = true →
      (s.comesTo (.coreXld g f) = true → ∃ t, exec (.coreXld g f) s = .next t ∧
        queued g p { src := g, tok := f.tok.val, plan := f.plan.val, kind := .load, scr := scr, mem := mem, len := len, part := p } s t) ∧
      (s.comesTo (.coreXst g f) = true → ∃ t, exec (.coreXst g f) s = .next t ∧
        queued g p { src := g, tok := f.tok.val, plan := f.plan.val, kind := .store, scr := scr, mem := mem, len := len, part := p } s t)) ∧
     (scr < scratchBytes → scr + len ≤ scratchBytes → mem.testBit 63 = false → bits mem 0 20 + len ≤ scratchBytes →
      bits mem 40 8 < 192 → s.partOfCore g.hub.val (bits mem 40 8) = some p →
      s.comesTo (.coreXcp g f) = true → ∃ t, exec (.coreXcp g f) s = .next t ∧
        queued g p { src := g, tok := f.tok.val, plan := f.plan.val, kind := .copy (bits mem 40 8), scr := scr, mem := bits mem 0 20,
                     len := len, part := p } s t) ∧
     (∀ rows rb, rows = bits len 32 16 → rb = bits len 0 24 → ((s.grp g).sreg f.sx.val).o = 0 → scr < scratchBytes →
      scr + rows * rb ≤ scratchBytes → ((s.grp g).sreg f.sx.val).v < scratchBytes → ((s.grp g).sreg f.sx.val).v + 4 * rows ≤ scratchBytes →
      (s.core (coreNo g)).poi ((s.grp g).sreg f.sx.val).v (4 * rows) = 0 → rb % 64 = 0 → mem % 64 = 0 →
      (∀ i, i < rows → s.xferMemOk p g f.plan.val
        (mem + leNat ((s.core (coreNo g)).rd (((s.grp g).sreg f.sx.val).v + 4 * i) 4) * rb) rb = true) →
      s.comesTo (.coreXgth g f) = true → ∃ t, exec (.coreXgth g f) s = .next t ∧
        queued g p { src := g, tok := f.tok.val, plan := f.plan.val
                     kind := .gather ((List.range rows).map (fun i =>
                      mem + leNat ((s.core (coreNo g)).rd (((s.grp g).sreg f.sx.val).v + 4 * i) 4) * rb))
                     scr := scr, mem := rb, len := rows * rb, part := p } s t))) ∧
  (∀ (g : GroupRef) (f : XFmt) (s : State) (p : Nat), s.canIssue g = some p → Common.plain f.toCommon = true → f.imm.toNat < 65536 →
    s.tokPending g f.tok.val = false → ((s.grp g).sreg f.s1.val).o = 0 → ((s.grp g).sreg f.s2.val).o = 0 → ((s.grp g).sreg f.s3.val).o = 0 →
    (let scr := ((s.grp g).sreg f.s1.val).v
     let e := ((s.grp g).sreg f.s2.val).v
     let x := ((s.grp g).sreg f.s3.val).v
     ∀ (c : Instr) (fn len : Nat) (k : XferKind),
      c = .coreAppend g f ∧ fn = 1 ∧ len = bits x 24 16 * s.kvPlb p ∧ k = .append e (bits x 0 8) (bits x 8 16) (bits x 24 16) ∨
      c = .coreFetch g f ∧ fn = 2 ∧ len = 64 * s.kvPlb p + 8 * bits x 48 8 ∧
        k = .fetch e (bits x 0 8) (if bits x 8 24 = 0xFFFFFF then none else some (bits x 8 24)) (bits x 32 16) (bits x 48 8) ∨
      c = .coreQend g f ∧ fn = 3 ∧ len = bits x 24 16 ∧ k = .qend e (bits x 0 8) (bits x 8 16) (bits x 24 16) →
      f.imm.toNat % 256 = fn → scr < scratchBytes → scr + len ≤ scratchBytes →
      ∀ y : Xfer, y = { src := g, tok := f.tok.val, plan := bits f.imm.toNat 8 8, kind := k, scr := scr, mem := 0, len := len, part := p } →
      (∀ b ∈ s.xferBursts y, s.burstOk p g y.plan b = true) → s.comesTo c = true → ∃ t, exec c s = .next t ∧ queued g p y s t)) ∧
  (∀ (g : GroupRef) (f : XFmt) (s : State) (p : Nat), s.canIssue g = some p → Common.plain f.toCommon = true →
    s.comesTo (.coreWait g f) = true → ∃ t, exec (.coreWait g f) s = .next t ∧ issued g p false s t ∧
      t.grp g = { s.grp g with
        pc := (s.grp g).pc + 1
        wait := if (s.grp g).toks.testBit f.tok.val then .token f.tok.val else (s.grp g).wait }) ∧
  (∀ (g : GroupRef) (k : Fin 16) (x : Xfer) (l : List Xfer) (s : State), (s.core (coreNo g)).xfers = x :: l → x.src = g → x.tok = k.val →
    (s.xferLeft x ≠ [] → exec (.transferComplete g k) s = .next s) ∧
    (s.xferLeft x = [] → ∃ t, exec (.transferComplete g k) s = .next t ∧ (t.grp g).toks.testBit k.val = false ∧
      (x.kind = .store ∨ x.kind = .load ∨ (∃ rows, x.kind = .gather rows) ∨ (∃ d, x.kind = .copy d) →
        t = { s with cores := t.cores } ∧ (t.core (coreNo g)).xfers = l ∧ (t.core (coreNo g)).scratch = (s.core (coreNo g)).scratch ∧
        ∀ c, c ≠ coreNo g → t.core c = s.core c))) ∧
  (∀ (g : GroupRef) (k : Fin 16) (s : State), (∀ x ∈ (s.core (coreNo g)).xfers, x.src ≠ g ∨ x.tok ≠ k.val) →
    exec (.transferComplete g k) s = .next s)

/-- Words of a tile that a run of scratch holds, row by row. -/
def Sys2Proof.Machine.tileWords (c : CoreSt) (a i : Nat) : Nat := leNat (c.rd (a + 4 * i) 4)

/-- Tensor instructions. ALD loads the 512 words of tile AT from scratch, AST stores them as FP32 or rounded to BF16, AZ leaves +0 in
every word; an integer MMA adds to each element the exact dot product of its packed row and column, times the INT16 word of
its row where there are scales, limited to INT32, and a floating-point one rounds the exact sum of the old element and the
scaled products once (R192, R195). -/
def Obligations.TensorInstructions : Prop :=
  ∀ (g : GroupRef) (f : TFmt) (s : State) (p : Nat), s.canIssue g = some p → Common.plain f.toCommon = true →
    (s.comesTo (.coreAz g f) = true → ∃ t, exec (.coreAz g f) s = .next t ∧ t = { s with regs := t.regs, cores := t.cores } ∧
      RegsBut [(R.DCR.ISSUE, p)] s t ∧
      t.grp g = { s.grp g with pc := (s.grp g).pc + 1 } ∧ (t.core (coreNo g)).scratch = (s.core (coreNo g)).scratch ∧
      (∀ i j, tileAt ((t.core (coreNo g)).tile f.at_.val) i j = {}) ∧
      ∀ a, a ≠ f.at_.val → (t.core (coreNo g)).tile a = (s.core (coreNo g)).tile a) ∧
    (((s.grp g).sreg f.sa.val).o = 0 → ((s.grp g).sreg f.sa.val).v + 2048 ≤ scratchBytes → ((s.grp g).sreg f.sa.val).v % 64 = 0 →
      (s.comesTo (.coreAld g f) = true → ∃ t, exec (.coreAld g f) s = .next t ∧ t = { s with regs := t.regs, cores := t.cores } ∧
        RegsBut [(R.DCR.ISSUE, p)] s t ∧
        t.grp g = { s.grp g with pc := (s.grp g).pc + 1 } ∧ (t.core (coreNo g)).scratch = (s.core (coreNo g)).scratch ∧
        (∀ i j, i < 16 → j < 32 →
          (tileAt ((t.core (coreNo g)).tile f.at_.val) i j).v = tileWords (s.core (coreNo g)) ((s.grp g).sreg f.sa.val).v (32 * i + j)) ∧
        ∀ a, a ≠ f.at_.val → (t.core (coreNo g)).tile a = (s.core (coreNo g)).tile a) ∧
      (f.ty.val = 0 → s.comesTo (.coreAst g f) = true → ∃ t, exec (.coreAst g f) s = .next t ∧ t = { s with regs := t.regs, cores := t.cores } ∧
        RegsBut [(R.DCR.ISSUE, p)] s t ∧ t.grp g = { s.grp g with pc := (s.grp g).pc + 1 } ∧
        (∀ i j, i < 16 → j < 32 → tileWords (t.core (coreNo g)) ((s.grp g).sreg f.sa.val).v (32 * i + j) =
          (tileAt ((s.core (coreNo g)).tile f.at_.val) i j).v % 2 ^ 32) ∧
        (∀ a, a < ((s.grp g).sreg f.sa.val).v ∨ ((s.grp g).sreg f.sa.val).v + 2048 ≤ a →
          scrByte (t.core (coreNo g)) a = scrByte (s.core (coreNo g)) a)) ∧
      (f.ty.val = 1 → s.comesTo (.coreAst g f) = true → ∃ t, exec (.coreAst g f) s = .next t ∧ t = { s with regs := t.regs, cores := t.cores } ∧
        RegsBut [(R.DCR.ISSUE, p)] s t ∧ t.grp g = { s.grp g with pc := (s.grp g).pc + 1 } ∧
        (∀ i j, i < 16 → j < 32 → leNat ((t.core (coreNo g)).rd (((s.grp g).sreg f.sa.val).v + 2 * (32 * i + j)) 2) =
          fmtBF16.enc (tileAt ((s.core (coreNo g)).tile f.at_.val) i j).v % 2 ^ 16) ∧
        (∀ a, a < ((s.grp g).sreg f.sa.val).v ∨ ((s.grp g).sreg f.sa.val).v + 1024 ≤ a →
          scrByte (t.core (coreNo g)) a = scrByte (s.core (coreNo g)) a))) ∧
    (1 ≤ f.ty.val → f.ty.val ≤ 9 → (f.usb = true → f.ty.val < 7) → mmaFault (s.grp g) f = none →
      s.comesTo (.coreMma g f) = true → ∃ t, exec (.coreMma g f) s = .next t ∧ t = { s with regs := t.regs, cores := t.cores } ∧
        RegsBut [(R.DCR.ISSUE, p), (R.DCR.MMA, p), (R.DCR.INT_SAT_CNT, p), (R.DCR.EVT_INT_SAT, p)] s t ∧
        t.grp g = { s.grp g with pc := (s.grp g).pc + 1 } ∧ (t.core (coreNo g)).scratch = (s.core (coreNo g)).scratch ∧
        (∀ a, a ≠ f.at_.val → (t.core (coreNo g)).tile a = (s.core (coreNo g)).tile a) ∧
        (let c := s.core (coreNo g)
         let old := fun i j => if f.clr then 0 else (tileAt (c.tile f.at_.val) i j).v
         let w := fmtBits f.ty.val
         let line := mmaK f.ty.val * w / 8
         let a := fun i k => unpackElem w (c.rd (((s.grp g).sreg f.sa.val).v + i * line) line) k
         let b := fun j k => unpackElem w (c.rd (((s.grp g).sreg f.sb.val).v + j * line) line) k
         (7 ≤ f.ty.val → ∀ i j, i < 16 → j < 32 →
          (tileAt ((t.core (coreNo g)).tile f.at_.val) i j).v = ux (clampI (-2147483648) 2147483647 (sx (old i j) 32 +
            (if f.usa then sx (leNat (c.rd (((s.grp g).sreg f.ssa.val).v + 2 * i) 2)) 16 else 1) *
              (List.range (mmaK f.ty.val)).foldl (fun (acc : Int) k => acc + sx (a i k) w * sx (b j k) w) 0)) 32) ∧
         (f.ty.val < 7 → ∀ i j sc, i < 16 → j < 32 →
          sc = fvMul (mmaScale c f.usa ((s.grp g).sreg f.ssa.val).v i) (mmaScale c f.usb ((s.grp g).sreg f.ssb.val).v j) → sc ≠ .nan →
          (tileAt ((t.core (coreNo g)).tile f.at_.val) i j).v = exactSum (fpDec (old i j) ::
            (List.range (mmaK f.ty.val)).map (fun k => fvMul (fvMul (elemFV f.ty.val (a i k)) (elemFV f.ty.val (b j k))) sc)))))

/-! ### Digital cores: control flow, synchronization, unit calls, faults -/

/-- Branches. BR goes by ANY, ALL or NONE of its active lanes, relative to its own place; LOOP takes 1 from its scalar and branches
while it is not 0; CALL keeps the next place on the return stack and RET goes back to it, and both pass where their predicate is true in
no lane (the model's reading, log entry 22); END ends the group. A ninth CALL and a RET on an empty stack fault with cause 5, a branch
by poison with cause 4 (R185, R186, R192, R205, R210). -/
def Obligations.BranchesAndCalls : Prop :=
  ∀ (g : GroupRef) (f : BFmt) (s : State) (p : Nat), s.canIssue g = some p →
    (f.mode.val < 3 → s.brOk g f = true → (∀ i, i < 32 → (s.grp g).predPoi f.toCommon i = 0) →
      s.comesTo (.coreBr g f) = true → ∃ t, exec (.coreBr g f) s = .next t ∧ issuedWith [] g p 0 s t ∧
        (let taken : Prop := if f.mode.val = 0 then ∃ i, i < 32 ∧ (s.grp g).active f.toCommon i = true
          else if f.mode.val = 1 then ∀ i, i < 32 → (s.grp g).active f.toCommon i = true
          else ∀ i, i < 32 → (s.grp g).active f.toCommon i = false
         (taken → t.grp g = { s.grp g with pc := ((s.grp g).pc + f.tgt.toInt).toNat }) ∧
         (¬ taken → t.grp g = { s.grp g with pc := (s.grp g).pc + 1 }))) ∧
    (f.mode.val < 3 → s.brOk g f = true → (∃ i, i < 32 ∧ (s.grp g).predPoi f.toCommon i ≠ 0) →
      s.comesTo (.coreBr g f) = true → exec (.coreBr g f) s = .next ((s.count R.DCR.ISSUE p).coreFault g p 4)) ∧
    (f.sc.val < 16 → Common.plain f.toCommon = true → s.brOk g f = true → ((s.grp g).sreg f.sc.val).o = 0 →
      s.comesTo (.coreLoop g f) = true → ∃ t, exec (.coreLoop g f) s = .next t ∧ issuedWith [] g p 0 s t ∧
        (let v := (((s.grp g).sreg f.sc.val).v + (2 ^ 64 - 1)) % 2 ^ 64
         t.grp g = { s.grp g with s := (t.grp g).s, pc := if v = 0 then (s.grp g).pc + 1 else ((s.grp g).pc + f.tgt.toInt).toNat } ∧
         (t.grp g).sreg f.sc.val = { v := v, o := 0 } ∧ ∀ e, e ≠ f.sc.val → (t.grp g).sreg e = (s.grp g).sreg e)) ∧
    (s.brOk g f = true → (∀ i, i < 32 → (s.grp g).predPoi f.toCommon i = 0) →
      ((∀ i, i < 32 → (s.grp g).active f.toCommon i = false) → s.comesTo (.coreCall g f) = true → ∃ t, exec (.coreCall g f) s = .next t ∧
        issued g p false s t ∧
        t.grp g = { s.grp g with pc := (s.grp g).pc + 1 }) ∧
      ((∃ i, i < 32 ∧ (s.grp g).active f.toCommon i = true) →
        ((s.grp g).ret.length < 8 → s.comesTo (.coreCall g f) = true → ∃ t, exec (.coreCall g f) s = .next t ∧ issuedWith [] g p 0 s t ∧
          t.grp g = { s.grp g with ret := ((s.grp g).pc + 1) :: (s.grp g).ret, pc := ((s.grp g).pc + f.tgt.toInt).toNat }) ∧
        (8 ≤ (s.grp g).ret.length → s.comesTo (.coreCall g f) = true → exec (.coreCall g f) s = .next ((s.count R.DCR.ISSUE p).coreFault g p 5)))) ∧
    ((∀ i, i < 32 → (s.grp g).predPoi f.toCommon i = 0) →
      ((∀ i, i < 32 → (s.grp g).active f.toCommon i = false) → s.comesTo (.coreRet g f) = true → ∃ t, exec (.coreRet g f) s = .next t ∧
        issued g p false s t ∧
        t.grp g = { s.grp g with pc := (s.grp g).pc + 1 }) ∧
      ((∃ i, i < 32 ∧ (s.grp g).active f.toCommon i = true) →
        (∀ a l, (s.grp g).ret = a :: l → s.comesTo (.coreRet g f) = true → ∃ t, exec (.coreRet g f) s = .next t ∧ issuedWith [] g p 0 s t ∧
          t.grp g = { s.grp g with ret := l, pc := a }) ∧
        ((s.grp g).ret = [] → s.comesTo (.coreRet g f) = true → exec (.coreRet g f) s = .next ((s.count R.DCR.ISSUE p).coreFault g p 5)))) ∧
    (Common.plain f.toCommon = true → s.comesTo (.coreEnd g f) = true → ∃ t, exec (.coreEnd g f) s = .next t ∧ issuedWith [] g p 0 s t ∧
      t.grp g = { s.grp g with running := false })

/-- Synchronization. The arrival that BAR counts as its last frees the barrier and every group that waits at it; an earlier one waits.
SIG adds 1 to its event counter on the hubs of its mask, and a group there that waits for no more goes on; WEV goes on when the
counter of its hub has reached its value and waits otherwise. WPT waits while a started group has not come; when the last one
comes, the groups go on and their program counters, scalars and return stacks are saved (R187 to R189). -/
def Obligations.Synchronization : Prop :=
  ∀ (g : GroupRef) (f : XFmt) (s : State) (p : Nat), s.canIssue g = some p → Common.plain f.toCommon = true →
    (let n := f.imm.toNat % 16
     let c := f.imm.toNat / 256 % 128
     let a := AMap.getD (s.core (coreNo g)).bars n 0 + 1
     1 ≤ c → c ≤ 64 → s.comesTo (.coreBar g f) = true → ∃ t, exec (.coreBar g f) s = .next t ∧ t = { s with regs := t.regs, cores := t.cores } ∧
      RegsBut [(R.DCR.ISSUE, p)] s t ∧
      (c ≤ a → AMap.getD (t.core (coreNo g)).bars n 0 = 0 ∧ t.grp g = { s.grp g with pc := (s.grp g).pc + 1 } ∧
        ∀ g' : GroupRef, g' ≠ g → coreNo g' = coreNo g →
          t.grp g' = if (s.grp g').wait = .barrier n then { s.grp g' with wait := .none } else s.grp g') ∧
      (a < c → AMap.getD (t.core (coreNo g)).bars n 0 = a ∧
        t.grp g = { s.grp g with pc := (s.grp g).pc + 1, wait := .barrier n } ∧
        ∀ g' : GroupRef, g' ≠ g → coreNo g' = coreNo g → t.grp g' = s.grp g')) ∧
    (let e := f.imm.toNat % 256
     let m := f.imm.toNat / 256 % 16
     let cnt := fun (u : State) (h e : Nat) => AMap.getD (u.hub h).events (256 * p + e) 0
     (s.comesTo (.coreSig g f) = true → ∃ t, exec (.coreSig g f) s = .next t ∧ t = { s with regs := t.regs, cores := t.cores, hubs := t.hubs } ∧
      RegsBut [(R.DCR.ISSUE, p)] s t ∧ t.grp g = { s.grp g with pc := (s.grp g).pc + 1 } ∧
      (∀ h, h < 4 → cnt t h e = if m.testBit h then (cnt s h e + 1) % 2 ^ 32 else cnt s h e) ∧
      (∀ h k, h < 4 → k < 256 → k ≠ e → cnt t h k = cnt s h k) ∧
      (∀ (g' : GroupRef) v, m.testBit g'.hub.val = true → s.partOfCore g'.hub.val g'.core.val = some p → (s.grp g').wait = .event e v →
        v ≤ (cnt s g'.hub.val e + 1) % 2 ^ 32 → t.grp g' = { s.grp g' with wait := .none })) ∧
     (((s.grp g).sreg f.s1.val).o = 0 → s.comesTo (.coreWev g f) = true → ∃ t, exec (.coreWev g f) s = .next t ∧ issued g p false s t ∧
      t.grp g = { s.grp g with
        pc := (s.grp g).pc + 1
        wait := if ((s.grp g).sreg f.s1.val).v % 2 ^ 32 ≤ cnt s g.hub.val e then .none else .event e (((s.grp g).sreg f.s1.val).v % 2 ^ 32) })) ∧
    (let k := f.imm.toNat % 65536
     s.comesTo (.coreWpt g f) = true → ∃ t, exec (.coreWpt g f) s = .next t ∧
      ((∃ g' : GroupRef, g' ≠ g ∧ s.partOfCore g'.hub.val g'.core.val = some p ∧ (s.grp g').saved = true ∧ (s.grp g').wait ≠ .waypoint k) →
        issuedWith [] g p 0 s t ∧ t.grp g = { s.grp g with pc := (s.grp g).pc + 1, wait := .waypoint k }) ∧
      ((∀ c ∈ s.ownCores p, c ≠ coreNo g → ∀ e ∈ (s.core c).groups, e.2.saved = true → e.2.wait = .waypoint k) →
        (s.core (coreNo g)).groups = [(g.group.val, s.grp g)] → (s.grp g).saved = true →
        (t.part p).step.wpt = k ∧
        t.grp g = { s.grp g with pc := (s.grp g).pc + 1, savedPc := (s.grp g).pc + 1, savedS := (s.grp g).s, savedRet := (s.grp g).ret }))

/-- Unit calls. ACALL of a chain of the partition over rows of an integer tensor that is wide enough joins the tile sequencer of the
chain's stack as its next job, with its token pending; a chain that does not exist faults with cause 6. TOPK from the set's section
joins the queue of its home hub as the next call of the step. EPUT for a chain whose value the epilogue sent to the digital rung
hands that value what scratch holds (R206, R207). -/
def Obligations.UnitCalls : Prop :=
  ∀ (g : GroupRef) (f : XFmt) (s : State) (p : Nat), s.canIssue g = some p → Common.plain f.toCommon = true →
    s.tokPending g f.tok.val = false → ((s.grp g).sreg f.s1.val).o = 0 →
    (((s.grp g).sreg f.s2.val).o = 0 → ((s.grp g).sreg f.s3.val).o = 0 →
      (let n := bits ((s.grp g).sreg f.s3.val).v 0 16
       ∀ c x, s.chainRec p ((s.grp g).sreg f.s1.val).v = some c → s.tensorRec p ((s.grp g).sreg f.s2.val).v = some x →
        s.owns p c.stack = true → 7 ≤ x.fmt → x.fmt ≤ 9 → s.acallWide p c x = true → 1 ≤ n → n ≤ 16384 →
        s.comesTo (.coreAcall g f) = true → ∃ t, exec (.coreAcall g f) s = .next t ∧ t.regs = (s.count R.DCR.ISSUE p).regs ∧
          t.grp g = { s.grp g with pc := (s.grp g).pc + 1, toks := setBits (s.grp g).toks f.tok.val 1 1 } ∧
          (t.stk c.stack).nextJob = (s.stk c.stack).nextJob + 1 ∧
          ∃ j ∈ (t.stk c.stack).jobs, j.id = (s.stk c.stack).nextJob ∧ j.part = p ∧ j.src = g ∧ j.tok = f.tok.val ∧
            j.chain = ((s.grp g).sreg f.s1.val).v ∧ j.tensor = ((s.grp g).sreg f.s2.val).v ∧
            j.row0 = bits ((s.grp g).sreg f.s3.val).v 16 32 ∧ j.n = n) ∧
      (s.chainRec p ((s.grp g).sreg f.s1.val).v = none →
        s.comesTo (.coreAcall g f) = true → exec (.coreAcall g f) s = .next ((s.count R.DCR.ISSUE p).coreFault g p 6))) ∧
    (∀ b, f.imm.toNat.testBit 0 = true → (s.part p).setAct.topk[((s.grp g).sreg f.s1.val).v]? = some b →
      ((TopkRec.ofBytes b).bad = true → s.inPart p (TopkRec.ofBytes b).outAddr 16 = true) →
      ((TopkRec.ofBytes b).bad = false → s.topkAreasOk p (TopkRec.ofBytes b) = true) →
      s.comesTo (.coreTopk g f) = true → ∃ t, exec (.coreTopk g f) s = .next t ∧ t.regs = (s.count R.DCR.ISSUE p).regs ∧
        t.grp g = { s.grp g with pc := (s.grp g).pc + 1, toks := setBits (s.grp g).toks f.tok.val 1 1 } ∧
        (t.part p).step.topkNext = (s.part p).step.topkNext + 1 ∧
        ∃ h, (t.hub h).topk = (s.hub h).topk ++
          [{ part := p, call := b, no := (s.part p).step.topkNext, src := g, tok := f.tok.val }]) ∧
    (((s.grp g).sreg f.s2.val).o = 0 → ((s.grp g).sreg f.s3.val).o = 0 →
      ∀ c v x, s.chainRec p ((s.grp g).sreg f.s1.val).v = some c → s.tensorRec p c.outTensor = some x → x.cols ≤ 2048 →
        ((s.grp g).sreg f.s3.val).v < scratchBytes → ((s.grp g).sreg f.s3.val).v + 4 * x.cols ≤ scratchBytes →
        (s.hub c.collHub).vals.find? (fun v => v.part == p && v.chain == ((s.grp g).sreg f.s1.val).v &&
          v.row == ((s.grp g).sreg f.s2.val).v && v.asked) = some v →
        s.comesTo (.coreEput g f) = true → ∃ t, exec (.coreEput g f) s = .next t ∧ t.regs = (s.count R.DCR.ISSUE p).regs ∧
          t.grp g = { s.grp g with pc := (s.grp g).pc + 1 } ∧
          ∃ w ∈ (t.hub c.collHub).vals, w.chain = v.chain ∧ w.row = v.row ∧ ∃ l, w.dig = some l ∧ l.length = x.cols ∧
            ∀ i, i < x.cols → (l.getD i {}).v = leNat ((s.core (coreNo g)).rd (((s.grp g).sreg f.s3.val).v + 4 * i) 4))

/-- A core fault counts, is recorded where no fault is recorded, and disturbs the step; the first of a step replays it, a second halts it.
A step that has run for DCR_STEP_TMO ms of device time is a fault with cause 7, and none before. FAULT_CLR frees the record and clears
HALTED, and nothing else. A group that cannot issue changes nothing, and a group issues no instruction but the one that its program counter
names (R177, R179, R180, R210, R212). -/
def Obligations.CoreFaults : Prop :=
  (∀ (g : GroupRef) (p cause : Nat) (s : State), p < 12 → 0 < cause → cause < 8 →
    (s.rd R.DCR.FAULT_INFO_CAUSE p = 0 →
      (s.coreFault g p cause).rd R.DCR.FAULT_INFO_CAUSE p = cause ∧ (s.coreFault g p cause).rd R.DCR.FAULT_INFO_HUB p = g.hub.val ∧
      (s.coreFault g p cause).rd R.DCR.FAULT_INFO_CORE p = g.core.val ∧ (s.coreFault g p cause).rd R.DCR.FAULT_INFO_GROUP p = g.group.val ∧
      (s.coreFault g p cause).rd R.DCR.FAULT_PC p = (s.grp g).pc % 2 ^ 14) ∧
    (s.rd R.DCR.FAULT_INFO_CAUSE p ≠ 0 → ∀ f ∈ [R.DCR.FAULT_INFO_CAUSE, R.DCR.FAULT_INFO_HUB, R.DCR.FAULT_INFO_CORE, R.DCR.FAULT_INFO_GROUP,
      R.DCR.FAULT_PC], (s.coreFault g p cause).rd f p = s.rd f p) ∧
    (s.coreFault g p cause).rd R.DCR.FAULT_CNT p = min (s.rd R.DCR.FAULT_CNT p + 1) (2 ^ R.DCR.FAULT_CNT.width - 1) ∧
    (s.coreFault g p cause).rd R.DCR.EVT_CORE_FAULT p = 1 ∧
    ((s.part p).step.coreFaults = 0 → ((s.coreFault g p cause).part p).step.coreFaults = 1 ∧
      ((s.coreFault g p cause).part p).step.halted = (s.part p).step.halted ∧
      (s.coreFault g p cause).rd R.GLB.DISTURB_CNT p = min (s.rd R.GLB.DISTURB_CNT p + 1) (2 ^ R.GLB.DISTURB_CNT.width - 1)) ∧
    ((s.part p).step.coreFaults ≠ 0 → ((s.coreFault g p cause).part p).step.halted = true ∧
      (s.coreFault g p cause).rd R.DCR.STAT_HALTED p = 1 ∧ (s.coreFault g p cause).rd R.DCR.EVT_STEP_HALTED p = 1)) ∧
  (∀ (p : Fin 12) (s : State), (s.part p.val).step.phase = .running ∨ (s.part p.val).step.phase = .sampled →
    (s.part p.val).step.halted = false →
    ((s.part p.val).step.started + 1000000 * s.rd R.DCR.STEP_TMO p.val ≤ s.clk.devTime → s.rd R.DCR.FAULT_INFO_CAUSE p.val = 0 →
      ∃ t, exec (.stepTimeout p) s = .next t ∧ t.rd R.DCR.FAULT_INFO_CAUSE p.val = 7 ∧ t.rd R.DCR.EVT_CORE_FAULT p.val = 1 ∧
        t.free = s.free + 1) ∧
    (s.clk.devTime < (s.part p.val).step.started + 1000000 * s.rd R.DCR.STEP_TMO p.val → exec (.stepTimeout p) s = .next s)) ∧
  (∀ (p : Fin 12) (s : State), s.partExists p.val = true → ∃ t, exec (.faultClr p) s = .next t ∧ t = { s with regs := t.regs } ∧
    (∀ f ∈ [R.DCR.FAULT_INFO_CAUSE, R.DCR.FAULT_INFO_HUB, R.DCR.FAULT_INFO_CORE, R.DCR.FAULT_INFO_GROUP, R.DCR.FAULT_PC,
      R.DCR.STAT_HALTED], t.rd f p.val = 0) ∧
    RegsBut [(R.DCR.FAULT_INFO_CAUSE, p.val), (R.DCR.FAULT_INFO_HUB, p.val), (R.DCR.FAULT_INFO_CORE, p.val), (R.DCR.FAULT_INFO_GROUP, p.val),
      (R.DCR.FAULT_PC, p.val), (R.DCR.STAT_HALTED, p.val)] s t) ∧
  (∀ (g : GroupRef) (s : State) (f : XFmt) (b : BFmt), s.canIssue g = none →
    exec (.coreRet g b) s = .next s ∧ (Common.plain f.toCommon = true → exec (.coreWait g f) s = .next s ∧ exec (.coreSig g f) s = .next s)) ∧
  (∀ (s : State) (i : Instr) (g : GroupRef) (w : Nat), coreWord i = some (g, w) →
    (s.comesTo i = true ↔ ∃ p, s.partOfCore g.hub.val g.core.val = some p ∧
      (AMap.getD (s.part p).setAct.code (coreNo g) [])[(s.grp g).pc]? = some w)) ∧
  (∀ (s : State) (g : GroupRef) (v : VFmt) (f : XFmt) (b : BFmt),
    (∀ x ∈ ([(Instr.coreIadd, vOkInt v 2), (.coreAnd, vOkInt v 2), (.coreMov, vOkInt v 1), (.coreFadd, vOkFp v 2), (.coreFfma, vOkFp v 3),
        (.coreFex2, vOkFp v 1)] : List ((GroupRef → VFmt → Instr) × Bool)),
      x.2 = true → s.comesTo (x.1 g v) = false → exec (x.1 g v) s = .next s) ∧
    (Common.plain b.toCommon = true → s.comesTo (.coreEnd g b) = false → exec (.coreEnd g b) s = .next s) ∧
    (Common.plain f.toCommon = true →
      (s.comesTo (.coreWait g f) = false → exec (.coreWait g f) s = .next s) ∧
      (s.comesTo (.coreSig g f) = false → exec (.coreSig g f) s = .next s) ∧
      (s.comesTo (.coreAcall g f) = false → exec (.coreAcall g f) s = .next s)))

/-! ### The fabric: roll call, links, Ethernet -/

/-- A ROLL flit of a code for a partition arrives whole and in order on a port whose link is up, is addressed to this module and is
accepted by the partition (R385, R387, R391). -/
def Sys2Proof.Machine.rollTaken (p code : Nat) (x : PortFlit) (s : State) : Prop :=
  s.portUp x.port.val 1 = true ∧ flitOk x.flit = true ∧ flitType x.flit = ftRoll ∧ fieldLE x.flit 8 2 = (s.port x.port.val).rxNext ∧
    (s.port x.port.val).replay = [] ∧ byteAt x.flit 4 = s.rd R.GLBG.STRAP_POSITION 0 ∧ s.flitPart x.flit = some p ∧ fieldLE x.flit 24 4 = code

/-- The roll call. The leader keeps each member's READY with its time, and with the last one the call is over and its delay runs; GO does
the same on a waiting member and brings the moves. ABORT, after GLB_ROLL_TMO ms a leader's missing READYs and after twice that a
member's missing codes end the call with ROLL_FAIL, and not before; no span step forms until ROLL_RETRY, which is refused while a call
waits or its delay runs, and idle stacks go on with their pieces. A REPLAY before the cut replays the step
once. At the end of the delay the moves are applied and the step is formed as at a boundary. A ROLL flit that is out of order is discarded,
and one that no partition accepts is dropped and counted (R305 to R307, R351, R385, R387, R390, R392). -/
def Obligations.RollCall : Prop :=
  ∀ (p : Fin 12) (x : PortFlit) (s : State),
    (rollTaken p.val rcReady x s → s.spanPos p.val = 0 → (∀ y ∈ (s.part p.val).roll.ready, y.1 ≠ byteAt x.flit 5) →
      ∃ t, exec (.rollReady p x) s = .next t ∧ (t.port x.port.val).rxNext = ((s.port x.port.val).rxNext + 1) % 65536 ∧
        ((s.part p.val).roll.ready.length + 1 ≠ s.spanSize p.val → RegsBut [(R.FAB.RX_BYTES, x.port.val)] s t ∧ t.mem = s.mem ∧
          t.parts = (s.onRoll p.val (fun r => { r with ready := r.ready ++ [(byteAt x.flit 5, s.clk.devTime)] })).parts) ∧
        ((s.part p.val).roll.ready.length + 1 = s.spanSize p.val → s.is R.GLB.SPAN_CTL_BAL_EN p.val = false →
          (t.part p.val).roll.delay = true ∧ (t.part p.val).roll.ready = [] ∧ (t.part p.val).roll.moves = [] ∧
          t.rd R.GLB.STAT_ROLL_WAIT p.val = 0 ∧ t.mem = s.mem)) ∧
    (rollTaken p.val rcReady x s → s.spanPos p.val ≠ 0 → s.routeUp (rollParent (s.spanPos p.val)) = false →
      ∃ t, exec (.rollReady p x) s = .next t ∧ t = { s with regs := t.regs, fab := t.fab } ∧ RegsBut [(R.FAB.RX_BYTES, x.port.val)] s t) ∧
    (rollTaken p.val rcGo x s → s.is R.GLB.STAT_ROLL_WAIT p.val = true → ∃ t, exec (.rollGo p x) s = .next t ∧
      (t.part p.val).roll = { (s.part p.val).roll with delay := true, ready := [], moves := payloadMoves x.flit } ∧
      t.rd R.GLB.STAT_ROLL_WAIT p.val = 0 ∧
      t.rd R.GLB.ROLL_CNT p.val = min (s.rd R.GLB.ROLL_CNT p.val + 1) (2 ^ R.GLB.ROLL_CNT.width - 1) ∧ t.mem = s.mem ∧ t.cores = s.cores) ∧
    (∀ c, c = .rollAbort p x ∧ rollTaken p.val rcAbort x s ∨
        c = .rollTimeout p ∧ s.isSpan p.val = true ∧ s.spanPos p.val = 0 ∧ s.is R.GLB.STAT_ROLL_WAIT p.val = true ∧
          (s.part p.val).roll.since + 1000000 * s.rd R.GLB.ROLL_TMO p.val ≤ s.clk.devTime ∨
        c = .rollWaitTimeout p ∧ s.isSpan p.val = true ∧ s.is R.GLB.STAT_ROLL_WAIT p.val = true ∧
          (s.part p.val).roll.since + 2 * (1000000 * s.rd R.GLB.ROLL_TMO p.val) ≤ s.clk.devTime →
      ∃ t, exec c s = .next t ∧
        (t.part p.val).roll = { (s.part p.val).roll with failed := true, delay := false, ready := [], moves := [] } ∧
        (∀ k ∈ s.stacksOf p.val, (t.stk k).calHold = false) ∧
        t.rd R.GLB.STAT_ROLL_WAIT p.val = 0 ∧ t.rd R.GLB.EVT_ROLL_FAIL p.val = 1 ∧
        t.rd R.GLB.ROLL_FAIL_CNT p.val = min (s.rd R.GLB.ROLL_FAIL_CNT p.val + 1) (2 ^ R.GLB.ROLL_FAIL_CNT.width - 1) ∧
        t.mem = s.mem ∧ t.cores = s.cores ∧ ∀ q, q ≠ p.val → t.part q = s.part q) ∧
    (s.clk.devTime < (s.part p.val).roll.since + 1000000 * s.rd R.GLB.ROLL_TMO p.val →
      exec (.rollTimeout p) s = .next s ∧ exec (.rollWaitTimeout p) s = .next s) ∧
    (rollTaken p.val rcReplay x s → s.beforeCut p.val = true → (s.part p.val).roll.replayed = false →
      ∃ t, exec (.rollReplay p x) s = .next t ∧ (t.part p.val).roll.replayed = true ∧
        (t.part p.val).step.replays = (s.part p.val).step.replays + 1 ∧ (t.part p.val).step.phase = .running ∧
        t.rd R.FABS.EVT_SPAN_REPLAY 0 = 1 ∧ t.mem = s.mem) ∧
    (s.partExists p.val = true → s.is R.GLB.STAT_ROLL_WAIT p.val = false → (s.part p.val).roll.delay = false →
      exec (.rollRetry p) s = .next (s.onRoll p.val (fun r => { r with failed := false }))) ∧
    (s.partExists p.val = true → s.is R.GLB.STAT_ROLL_WAIT p.val = true ∨ (s.part p.val).roll.delay = true →
      ∃ t, exec (.rollRetry p) s = .next t ∧ t = { s with regs := t.regs } ∧
      t.rd R.GLB.EVT_CONFIG_REFUSED p.val = 1 ∧ RegsBut [(R.GLB.EVT_CONFIG_REFUSED, p.val), (fieldRefusedCnt .glb, p.val)] s t) ∧
    ((s.part p.val).roll.delay = true → (s.part p.val).roll.moves = [] → ∃ u : State, exec (.equalisingDelayEnd p) s = .next (u.boundaryForm p.val) ∧
      (u.part p.val).roll = { (s.part p.val).roll with delay := false, count := 0, replayed := false } ∧ u.regs = s.regs ∧ u.mem = s.mem) ∧
    ((s.part p.val).roll.delay = false → exec (.equalisingDelayEnd p) s = .next s) ∧
    (∀ c ∈ [Instr.rollReady p x, .rollGo p x, .rollAbort p x, .rollReplay p x],
      (s.portUp x.port.val 1 = false → exec c s = .next s) ∧
      (s.portUp x.port.val 1 = true → flitType x.flit = ftRoll → fieldLE x.flit 8 2 ≠ (s.port x.port.val).rxNext →
        ∃ t, exec c s = .next t ∧ t = { s with regs := t.regs, fab := t.fab } ∧ (t.port x.port.val).rxNext = (s.port x.port.val).rxNext ∧
          t.rd R.FAB.CRC_FLIT_CNT x.port.val = min (s.rd R.FAB.CRC_FLIT_CNT x.port.val + 1) (2 ^ R.FAB.CRC_FLIT_CNT.width - 1)) ∧
      (s.portUp x.port.val 1 = true → flitOk x.flit = true → flitType x.flit = ftRoll → fieldLE x.flit 8 2 = (s.port x.port.val).rxNext →
        (s.port x.port.val).replay = [] → byteAt x.flit 4 = s.rd R.GLBG.STRAP_POSITION 0 → s.flitPart x.flit = none →
        ∃ t, exec c s = .next t ∧ t = { s with regs := t.regs, fab := t.fab } ∧ t.rd R.FAB.EVT_DROP x.port.val = 1 ∧
          t.rd R.FAB.DROP_CNT x.port.val = min (s.rd R.FAB.DROP_CNT x.port.val + 1) (2 ^ R.FAB.DROP_CNT.width - 1)))

/-- Links, remote writes, span formation. A port in Ethernet mode comes up when it has trained; one in fabric mode with the highest common
version, or with VERSION_FAIL and no link; it sends its 64 measuring flits, and the latency measured shows in both cases. A port that goes
down shows no version and no peer and clears FORMED where a route goes over it; a remote write that waited there in a span step past its
cut is late. After 2 µs of device time without an acknowledgement the replay buffer goes out again, and after 8 times the link goes down.
A measuring flit for this module is answered, one for another member goes on, one with a reserved encoding is dropped. A WRITE
flit in order for this module is held burst by burst until its DELIVER count, and then written to scratch; one of no partition, or whose
length or place does not fit, is dropped and counted. FORM is refused while a partition with a tag forms steps, sends a measuring flit to
every member that it reaches, and shows what fails or forms the span (R15, R378, R385 to R390). -/
def Obligations.LinksAndRemoteWrites : Prop :=
  (∀ (n : Fin 16) (peer : List Byte) (lat : Nat) (s : State), s.en .fab n.val = true → s.is R.FAB.STAT_LINK_UP n.val = false →
    s.inDoze = false → s.pwr.move ≠ 1 → s.clk.refOn = true →
    ∃ t, exec (.portTrained n peer lat) s = .next t ∧ t = { s with regs := t.regs, fab := t.fab } ∧ t.rd R.FAB.STAT_TRAINING n.val = 0 ∧
      (s.rd R.FAB.PORT_CFG_MODE n.val = 0 → t.fab = s.fab ∧ t.rd R.FAB.STAT_LINK_UP n.val = 1 ∧ t.rd R.FAB.EVT_LINK_UP_EVT n.val = 1) ∧
      (s.rd R.FAB.PORT_CFG_MODE n.val ≠ 0 →
        (∀ v, topVersion (byteAt peer 0 &&& s.rd R.FAB.PORT_CFG_VERSIONS n.val) = v → v ≠ 0 → lat ≤ 300 →
          t.rd R.FAB.STAT_LINK_UP n.val = 1 ∧ t.rd R.FAB.STAT_VERSION n.val = v ∧ t.rd R.FAB.PEER_POS_VALID n.val = 1 ∧
          t.rd R.FAB.PEER_POS_POS n.val = byteAt peer 1 % 2 ^ R.FAB.PEER_POS_POS.width) ∧
        (topVersion (byteAt peer 0 &&& s.rd R.FAB.PORT_CFG_VERSIONS n.val) ≠ 0 → ∃ l : List (List Byte), l.length = 64 ∧
          (t.port n.val).out = (s.port n.val).out ++ l.map NetOut.flit ∧ ∀ b ∈ l, flitType b = ftLink ∧ byteAt b 4 = byteAt peer 1) ∧
        (topVersion (byteAt peer 0 &&& s.rd R.FAB.PORT_CFG_VERSIONS n.val) ≠ 0 → t.rd R.FAB.LINK_LAT n.val = lat % 2 ^ R.FAB.LINK_LAT.width) ∧
        (topVersion (byteAt peer 0 &&& s.rd R.FAB.PORT_CFG_VERSIONS n.val) = 0 ∨ 300 < lat →
          t.is R.FAB.STAT_LINK_UP n.val = false ∧ t.rd R.FAB.EVT_VERSION_FAIL n.val = 1))) ∧
  (∀ (n : Fin 16) (s : State), s.is R.FAB.STAT_LINK_UP n.val = true →
    (∀ f ∈ (s.port n.val).replay ++ (s.port n.val).wait, s.writerOf f = none) → ∃ t, exec (.portLinkDown n) s = .next t ∧
    t.rd R.FAB.STAT_LINK_UP n.val = 0 ∧ t.rd R.FAB.STAT_VERSION n.val = 0 ∧ t.rd R.FAB.PEER_POS_VALID n.val = 0 ∧
    t.rd R.FAB.EVT_LINK_DOWN n.val = 1 ∧ (t.port n.val).replay = [] ∧ (t.port n.val).txSeq = 0 ∧
    ((∃ r ∈ s.fab.routes, r.2.valid = true ∧ r.2.port = n.val) → t.rd R.FABS.STAT_FORMED 0 = 0)) ∧
  (∀ (n : Fin 16) (f : List Byte) (p : Nat) (s : State), s.is R.FAB.STAT_LINK_UP n.val = true →
    (s.port n.val).replay ++ (s.port n.val).wait = [f] → s.writerOf f = some p → s.beforeCut p = false → s.spanPos p ≠ 0 →
    ∃ t, exec (.portLinkDown n) s = .next t ∧ t.rd R.FAB.STAT_LINK_UP n.val = 0 ∧ t.rd R.FAB.EVT_LINK_DOWN n.val = 1 ∧
      t.rd R.FAB.EVT_LATE_FLIT n.val = 1 ∧
      t.rd R.FAB.LATE_CNT n.val = min (s.rd R.FAB.LATE_CNT n.val + 1) (2 ^ R.FAB.LATE_CNT.width - 1)) ∧
  (∀ (n : Fin 16) (s : State), s.clk.devTime < (s.port n.val).since + 2000 → exec (.wentarAckTimeout n) s = .next s) ∧
  (∀ (n : Fin 16) (s : State), (s.port n.val).replay ≠ [] → (s.port n.val).since + 2000 ≤ s.clk.devTime →
    ∃ t, exec (.wentarAckTimeout n) s = .next t ∧
      ((s.port n.val).resends < 8 →
        t.port n.val = { s.port n.val with resends := (s.port n.val).resends + 1, since := s.clk.devTime
                                           out := (s.port n.val).out ++ (s.port n.val).replay.map NetOut.flit } ∧
        t.rd R.FAB.RETRY_CNT n.val = min (s.rd R.FAB.RETRY_CNT n.val + (s.port n.val).replay.length) (2 ^ R.FAB.RETRY_CNT.width - 1) ∧
        RegsBut [(R.FAB.RETRY_CNT, n.val), (R.FAB.TX_BYTES, n.val)] s t) ∧
      (8 ≤ (s.port n.val).resends → (∀ f ∈ (s.port n.val).replay ++ (s.port n.val).wait, s.writerOf f = none) → t.rd R.FAB.STAT_LINK_UP n.val = 0 ∧
        t.rd R.FAB.EVT_LINK_DOWN n.val = 1)) ∧
  (∀ (n : Fin 16) (f : List Byte) (s : State), s.portUp n.val 1 = true → flitOk f = true → (s.port n.val).replay = [] →
    (flitType f = ftLink → flitReserved f = true → ∃ t, exec (.wentarLink n f) s = .next t ∧ t = { s with regs := t.regs } ∧
      t.rd R.FAB.DROP_CNT n.val = min (s.rd R.FAB.DROP_CNT n.val + 1) (2 ^ R.FAB.DROP_CNT.width - 1)) ∧
    (flitType f = ftLink → flitReserved f = false → ∃ t, exec (.wentarLink n f) s = .next t ∧
      (fieldLE f 6 2 = 0 → t = { s with regs := t.regs } ∧ RegsBut [(R.FAB.RX_BYTES, n.val)] s t) ∧
      (fieldLE f 6 2 ≠ 0 → byteAt f 4 = s.rd R.GLBG.STRAP_POSITION 0 → fieldLE f 24 4 = 0 →
        ∃ b, flitType b = ftLink ∧ byteAt b 4 = byteAt f 5 ∧
          (let m := if s.routeUp (byteAt f 5) then (s.route (byteAt f 5)).port else n.val
           (t.port m).out = (s.port m).out ++ [.flit b])) ∧
      (fieldLE f 6 2 ≠ 0 → byteAt f 4 ≠ s.rd R.GLBG.STRAP_POSITION 0 → s.routeUp (byteAt f 4) = true →
        ∃ b, flitType b = ftLink ∧ byteAt b 4 = byteAt f 4 ∧
          (t.port (s.route (byteAt f 4)).port).out = (s.port (s.route (byteAt f 4)).port).out ++ [.flit b])) ∧
    (flitType f = ftWrite → fieldLE f 8 2 = (s.port n.val).rxNext → byteAt f 4 = s.rd R.GLBG.STRAP_POSITION 0 →
      ∃ t, exec (.wentarWrite n f) s = .next t ∧ (t.port n.val).rxNext = ((s.port n.val).rxNext + 1) % 65536 ∧
        (s.flitPart f = none → t.rd R.FAB.EVT_DROP n.val = 1 ∧ t.parts = s.parts ∧ t.mem = s.mem ∧ t.cores = s.cores ∧
          t.rd R.FAB.DROP_CNT n.val = min (s.rd R.FAB.DROP_CNT n.val + 1) (2 ^ R.FAB.DROP_CNT.width - 1)) ∧
        (∀ p, s.flitPart f = some p → fieldLE f 6 2 % 64 = 0 → fieldLE f 6 2 ≤ 256 →
          bits (fieldLE f 16 8) 20 8 < 192 → s.partOfCore (bits (fieldLE f 16 8) 28 2) (bits (fieldLE f 16 8) 20 8) = some p →
          bits (fieldLE f 16 8) 0 20 + fieldLE f 6 2 ≤ 2 ^ 20 → (s.part p).step.phase ≠ .cut → (s.part p).roll.count ≤ fieldLE f 12 4 →
          t.part p = { s.part p with spanIn := (s.part p).spanIn ++ flitWrites f } ∧ (∀ q, q ≠ p → t.part q = s.part q) ∧
          t.mem = s.mem ∧ t.cores = s.cores) ∧
        (∀ p, s.flitPart f = some p → fieldLE f 6 2 % 64 ≠ 0 ∨ 256 < fieldLE f 6 2 ∨ 2 ^ 20 < bits (fieldLE f 16 8) 0 20 + fieldLE f 6 2 →
          t.parts = s.parts ∧ t.cores = s.cores ∧
          t.rd R.FAB.DROP_CNT n.val = min (s.rd R.FAB.DROP_CNT n.val + 1) (2 ^ R.FAB.DROP_CNT.width - 1)))) ∧
  (∀ (n : Fin 16) (f : List Byte) (s : State), s.portUp n.val 1 = false → exec (.wentarWrite n f) s = .next s) ∧
  (∀ (p : Fin 12) (n : Nat) (w : SpanWrite) (s : State), s.stepRuns p.val = true → (s.part p.val).spanIn = [w] → w.deliver ≤ n → w.sig = none →
    ∃ t, exec (.writeDeliver p n) s = .next t ∧ (t.part p.val).spanIn = [] ∧
      (t.part p.val).roll.count = max (s.part p.val).roll.count n ∧ t.regs = s.regs ∧ t.mem = s.mem ∧
      (t.core (192 * w.hub + w.core)).rd w.scr w.data.length = w.data ∧ ∀ c, c ≠ 192 * w.hub + w.core → t.core c = s.core c) ∧
  (∀ (lats : List Nat) (s : State), ∃ t, exec (.form lats) s = .next t ∧
    (s.tagged.any s.formsSteps = true → t = { s with regs := t.regs } ∧ t.rd R.FABS.EVT_CONFIG_REFUSED 0 = 1 ∧
      t.rd R.FABS.STAT_FORMED 0 = s.rd R.FABS.STAT_FORMED 0) ∧
    (s.tagged.any s.formsSteps = false → ∀ m r, s.formFault lats = some (m, r) →
      t.rd R.FABS.FORM_ERR_REASON 0 = r % 2 ^ R.FABS.FORM_ERR_REASON.width ∧ t.rd R.FABS.EVT_FORM_FAIL 0 = 1 ∧ t.mem = s.mem) ∧
    (s.tagged.any s.formsSteps = false → s.formFault lats = none → (∀ p ∈ s.tagged, s.is R.GLB.SPAN_CTL_BAL_EN p = false) →
      t.rd R.FABS.STAT_FORMED 0 = 1 ∧ t.rd R.FABS.EVT_FORMED_EVT 0 = 1 ∧ t.mem = s.mem) ∧
    (s.tagged.any s.formsSteps = false → ∀ m ∈ s.spanMembers.2, s.routeUp m = true →
      ∃ b, NetOut.flit b ∈ (t.port (s.route m).port).out ∧ flitType b = ftLink ∧ byteAt b 4 = m % 256))

/-- A frame that a port in Ethernet mode hears: its link is up, the frame is whole, tagged as the port expects, of at most 4,352 bytes, and
for the port's own address or every station's, a neighbour solicitation also for the multicast address of the port's own, PFC for that of MAC
control; its EtherType stands at o (R379, R382). -/
def Sys2Proof.Machine.heard (n : Nat) (f : List Byte) (o : Nat) (s : State) : Prop :=
  s.portUp n 0 = true ∧ frameOk f = true ∧ s.portType n f = some o ∧ f.length ≤ 4352 ∧
    (f.take 6 = macBytes (s.rd R.FAB.MAC n) ∨ f.take 6 = List.replicate 6 0xFF ∨
      isSolicit f o = true ∧ f.take 6 = [0x33, 0x33, 0xFF] ++ (leBytes 3 (s.ip6Of n)).reverse ∨
      fieldBE f o 2 = 0x8808 ∧ f.take 6 = [0x01, 0x80, 0xC2, 0x00, 0x00, 0x01])

/-- A port answers a frame with x, of k bytes: x goes out, or waits while a PFC frame stops the port; no other port, and beside the ports
only the counts of bytes and the free values change. -/
def Sys2Proof.Machine.answered (n : Nat) (x : NetOut) (k : Nat) (s t : State) : Prop :=
  t = { s with regs := t.regs, free := t.free, fab := { s.fab with ports := t.fab.ports } } ∧
    RegsBut [(R.FAB.RX_BYTES, n), (R.FAB.TX_BYTES, n)] s t ∧ (∀ m, m ≠ n → t.port m = s.port m) ∧
    (s.pfcStops n = false → t.port n = { s.port n with out := (s.port n).out ++ [x] } ∧
      t.rd R.FAB.TX_BYTES n = min (s.rd R.FAB.TX_BYTES n + k) (2 ^ 64 - 1)) ∧
    (s.pfcStops n = true → t.port n = { s.port n with held := (s.port n).held ++ [(x, k)] })

/-- A frame that a port counts and does nothing else with. -/
def Sys2Proof.Machine.ignored (c : Instr) (n : Nat) (s : State) : Prop :=
  ∃ t, exec c s = .next t ∧ t = { s with regs := t.regs } ∧ RegsBut [(R.FAB.RX_BYTES, n)] s t

/-- Ethernet mode. A frame with a wrong check sequence is counted as such; one that is heard and of a listed payload is accepted, marked
packets are answered with a notification, a PFC frame for the port's priority stops its packets for its time, and every other frame is dropped
and counted. Requests for the port's own address are answered, with ECT(0) where ECN_EN is set and with DF on IPv4, and
others are not; the management port answers ARP and counts what it does not take, an echo request among it. A notification halves the queue
pair's rate down to 1 Gb/s and 50 µs without one raise it by 5 % of the line rate. An RDMA WRITE into its owner's staging area or cover slot
is stored; another is dropped and closes its queue pair (R379 to R382, R447). -/
def Obligations.EthernetFrames : Prop :=
  (∀ (n : Fin 16) (f : List Byte) (s : State), s.portUp n.val 0 = true → ∃ t, exec (.ethernetFrame n f) s = .next t ∧
    t = { s with regs := t.regs, fab := t.fab, free := t.free } ∧
    t.rd R.FAB.RX_BYTES n.val = min (s.rd R.FAB.RX_BYTES n.val + f.length) (2 ^ 64 - 1) ∧
    (frameOk f = false → t.fab = s.fab ∧
      t.rd R.FAB.CRC_FLIT_CNT n.val = min (s.rd R.FAB.CRC_FLIT_CNT n.val + 1) (2 ^ R.FAB.CRC_FLIT_CNT.width - 1) ∧
      RegsBut [(R.FAB.RX_BYTES, n.val), (R.FAB.CRC_FLIT_CNT, n.val)] s t) ∧
    (frameOk f = true → (s.portType n.val f = none ∨ 4352 < f.length ∨ ∃ o, s.portType n.val f = some o ∧ (s.payloadOk n.val f o = false ∨
        f.take 6 ≠ macBytes (s.rd R.FAB.MAC n.val) ∧ f.take 6 ≠ List.replicate 6 0xFF ∧ isSolicit f o = false ∧ fieldBE f o 2 ≠ 0x8808)) →
      t.fab = s.fab ∧ t.rd R.FAB.EVT_DROP n.val = 1 ∧
      t.rd R.FAB.DROP_CNT n.val = min (s.rd R.FAB.DROP_CNT n.val + 1) (2 ^ R.FAB.DROP_CNT.width - 1)) ∧
    (∀ o, heard n.val f o s → s.payloadOk n.val f o = true →
      (fieldBE f o 2 ≠ 0x8808 → isCe f o = false → t.fab = s.fab ∧ RegsBut [(R.FAB.RX_BYTES, n.val)] s t) ∧
      (fieldBE f o 2 ≠ 0x8808 → isCe f o = true → s.is R.FAB.ETH_CTL_ECN_EN n.val = true →
        answered n.val (.cnp ((f.drop 6).take 6) { ect := true, df := fieldBE f o 2 == 0x0800 }) (Config.freeNat s.free) s t) ∧
      (fieldBE f o 2 = 0x8808 → RegsBut [(R.FAB.RX_BYTES, n.val), (R.FAB.TX_BYTES, n.val)] s t ∧
        ((fieldBE f (o + 4) 2).testBit (s.rd R.FAB.ETH_CTL_PFC_PRIO n.val) = true → (t.port n.val).pausedTo =
          s.clk.devTime + pfcNs (fieldBE f (o + 6 + 2 * s.rd R.FAB.ETH_CTL_PFC_PRIO n.val) 2)) ∧
        ((fieldBE f (o + 4) 2).testBit (s.rd R.FAB.ETH_CTL_PFC_PRIO n.val) = false → t.fab = s.fab)))) ∧
  (∀ (n : Fin 16) (f : List Byte) (s : State), s.portUp n.val 0 = false → ∀ c ∈ [Instr.ethernetFrame n f, .arp n.castSucc f,
    .neighbourSolicitation n.castSucc f, .echoRequest n.castSucc f], exec c s = .next s) ∧
  (∀ (n : Fin 16) (f : List Byte) (o : Nat) (s : State), heard n.val f o s →
    (fieldBE f o 2 = 0x0806 → fieldBE f (o + 8) 2 = 1 → s.rd R.FAB.IP4 n.val ≠ 0 →
      (fieldBE f (o + 26) 4 = s.rd R.FAB.IP4 n.val → ∃ t, exec (.arp n.castSucc f) s = .next t ∧
        answered n.val (.arpReply ((f.drop (o + 10)).take 6) ((f.drop (o + 16)).take 4)) f.length s t) ∧
      (fieldBE f (o + 26) 4 ≠ s.rd R.FAB.IP4 n.val → ignored (.arp n.castSucc f) n.val s)) ∧
    (isSolicit f o = true →
      (fieldBE f (o + 50) 16 = s.ip6Of n.val → ∃ t, exec (.neighbourSolicitation n.castSucc f) s = .next t ∧
        answered n.val (.advert ((f.drop 6).take 6) ((f.drop (o + 50)).take 16) { ect := s.is R.FAB.ETH_CTL_ECN_EN n.val, df := false })
          f.length s t) ∧
      (fieldBE f (o + 50) 16 ≠ s.ip6Of n.val → ignored (.neighbourSolicitation n.castSucc f) n.val s)) ∧
    (fieldBE f o 2 = 0x0800 → byteAt f (o + 11) = 1 → byteAt f (o + 22) = 8 → s.payloadOk n.val f o = true →
      (fieldBE f (o + 18) 4 = s.rd R.FAB.IP4 n.val → ∃ t, exec (.echoRequest n.castSucc f) s = .next t ∧
        answered n.val (.echoReply ((f.drop 6).take 6) ((f.take (f.length - 4)).drop (o + 26))
          { ect := s.is R.FAB.ETH_CTL_ECN_EN n.val, df := true }) f.length s t) ∧
      (fieldBE f (o + 18) 4 ≠ s.rd R.FAB.IP4 n.val → ignored (.echoRequest n.castSucc f) n.val s)) ∧
    (fieldBE f o 2 = 0x86DD → byteAt f (o + 8) = 58 → byteAt f (o + 42) = 128 →
      (fieldBE f (o + 26) 16 = s.ip6Of n.val → ∃ t, exec (.echoRequest n.castSucc f) s = .next t ∧
        answered n.val (.echoReply ((f.drop 6).take 6) ((f.take (f.length - 4)).drop (o + 46))
          { ect := s.is R.FAB.ETH_CTL_ECN_EN n.val, df := false }) f.length s t) ∧
      (fieldBE f (o + 26) 16 ≠ s.ip6Of n.val → ignored (.echoRequest n.castSucc f) n.val s))) ∧
  (∀ (f : List Byte) (s : State), s.is R.MGT.STAT_LAN_UP 0 = true →
    (∀ c, (c = .arp 16 f ∨ c = .neighbourSolicitation 16 f ∨ c = .echoRequest 16 f) ∧
        (frameOk f = false ∨ 1518 < f.length ∨ typeAt false 0 0 f = none) ∨
      c = .echoRequest 16 f ∧ (fieldBE f 12 2 = 0x0800 ∧ byteAt f 23 = 1 ∨
        fieldBE f 12 2 = 0x86DD ∧ byteAt f 20 = 58 ∧ byteAt f 54 = 128) →
      ∃ t, exec c s = .next t ∧ t = { s with regs := t.regs } ∧ RegsBut [(R.MGT.LAN_DROP_CNT, 0)] s t ∧
        t.rd R.MGT.LAN_DROP_CNT 0 = min (s.rd R.MGT.LAN_DROP_CNT 0 + 1) (2 ^ R.MGT.LAN_DROP_CNT.width - 1)) ∧
    (s.lanFrameOk f = true → fieldBE f 12 2 = 0x0806 → fieldBE f 20 2 = 1 → fieldBE f 38 4 = s.rd R.MGT.LAN_IP4 0 →
      ∃ t, exec (.arp 16 f) s = .next t ∧ t = { s with mgt := t.mgt } ∧
        t.mgt.net = s.mgt.net ++ [.arpReply ((f.drop 22).take 6) ((f.drop 28).take 4)])) ∧
  (∀ (n : Fin 16) (q : Nat) (s : State), s.portUp n.val 0 = false → exec (.congestionNotification n q) s = .next s) ∧
  (∀ (n : Fin 16) (q : Nat) (s : State), s.is R.FAB.ETH_CTL_ECN_EN n.val = true →
    (s.portUp n.val 0 = true →
      ∃ t, exec (.congestionNotification n q) s = .next t ∧ (t.port n.val).rate q = max 1000000000 ((s.port n.val).rate q / 2) ∧
      (∀ r, r ≠ q → (t.port n.val).rate r = (s.port n.val).rate r) ∧ RegsBut [(R.FAB.CNP_CNT, n.val)] s t ∧
      t.rd R.FAB.CNP_CNT n.val = min (s.rd R.FAB.CNP_CNT n.val + 1) (2 ^ R.FAB.CNP_CNT.width - 1)) ∧
    (s.clk.devTime < AMap.getD (s.port n.val).rateAt q 0 + 50000 → exec (.rateIncreaseTimer n q) s = .next s) ∧
    (AMap.getD (s.port n.val).rateAt q 0 + 50000 ≤ s.clk.devTime →
      ∃ t, exec (.rateIncreaseTimer n q) s = .next t ∧ (t.port n.val).rate q = min 800000000000 ((s.port n.val).rate q + 40000000000) ∧
      (∀ r, r ≠ q → (t.port n.val).rate r = (s.port n.val).rate r) ∧ t.regs = s.regs)) ∧
  (∀ (n : Fin 16) (q k a : Nat) (d : List Byte) (s : State),
    (s.portUp n.val 0 = false → exec (.rdmaWrite n q k a d) s = .next s) ∧
    (s.portUp n.val 0 = true → s.rdmaOk n.val q a d.length = true → ∃ t, exec (.rdmaWrite n q k a d) s = .next t ∧
      (MemClean s → RegsBut [(R.FAB.RX_BYTES, n.val)] s t) ∧ t.fab = s.fab ∧ t.mrd a d.length = d ∧
      ∀ b m, b + m ≤ a ∨ a + d.length ≤ b → t.mrd b m = s.mrd b m) ∧
    (s.portUp n.val 0 = true → s.rdmaOk n.val q a d.length = false → ∃ t, exec (.rdmaWrite n q k a d) s = .next t ∧ t.mem = s.mem ∧
      (∀ x, AMap.get? t.fab.qps q = some x → x.closed = true) ∧ (∀ r, r ≠ q → AMap.get? t.fab.qps r = AMap.get? s.fab.qps r) ∧
      t.fab.ports = s.fab.ports ∧ t.rd R.FAB.EVT_DROP n.val = 1 ∧
      t.rd R.FAB.DROP_CNT n.val = min (s.rd R.FAB.DROP_CNT n.val + 1) (2 ^ R.FAB.DROP_CNT.width - 1)))

/-! ### Steps and commits -/

/-- The steps of a partition. FORM_STEP with no step running is a boundary, and forms a step of the first candidates when one may be
formed: a single decoding request makes a step of its one position. While recalibration pieces run on the partition's stacks the step
waits, and no other piece starts; where no step forms, idle stacks go on (R351). SAMPLING of a finished step program draws for each SAMPLE
entry (with TEMP zero the first of the ranked tokens). COMMIT_CUT fixes the cut and what the step was. COMMIT_RESOLUTION emits what
was drawn, ends the step and counts it. Each of these leaves the module as it is where it does not apply. At a STEP_BOUNDARY a
pending switch and the pending disablings take effect (R25, R170, R249 to R260, R298, R472). -/
def Obligations.StepsAndCommits : Prop :=
  ∀ (p : Fin 12) (s : State),
    (s.stepRuns p.val = true → s.isSpan p.val = false → exec (.formStep p) s = .next s) ∧
    (s.partExists p.val = true → s.stepRuns p.val = false → s.isSpan p.val = false →
      ∃ t u, u = s.boundary p.val ∧ exec (.formStep p) s = .next t ∧
        (u.mayForm p.val = false → t = u.freePieces p.val) ∧
        (u.mayForm p.val = true → u.candidates p.val ≠ [] → u.piecesRun p.val = true → t = u.holdPieces p.val) ∧
        (u.mayForm p.val = true → u.candidates p.val = [] → t.mem = u.mem ∧ t.part p.val = { u.part p.val with between := false } ∧
          ∀ q, q ≠ p.val → t.part q = u.part q) ∧
        (∀ slot h q, u.mayForm p.val = true → u.piecesRun p.val = false → u.candidates p.val = [(slot, true)] → u.hamper p.val slot = some h → h.spec = false →
          u.seq p.val slot = some q → (u.allocEntry p.val slot q.len false).2 = true → 0 < u.rd R.SRV.FORM_STEP_MAX p.val →
          (t.part p.val).step.phase = .running ∧ (t.part p.val).stepped = true ∧ (t.part p.val).step.rows = 1 ∧
          ∃ e, (t.part p.val).step.entries = [e] ∧ e.slot = slot ∧ e.first = q.len ∧ e.n = 1 ∧ e.sample = true ∧ e.prefill = false)) ∧
    (s.samplable p.val = false → exec (.sampling p) s = .next s) ∧
    (s.samplable p.val = true → ∃ t, exec (.sampling p) s = .next t ∧ (t.part p.val).step.phase = .sampled ∧
      ((∀ e ∈ (s.part p.val).step.entries, e.sample = false) → (t.part p.val).step.entries = (s.part p.val).step.entries) ∧
      (∀ e h x, MemClean s → (s.part p.val).step.entries = [e] → e.sample = true → e.cancelled = false → e.tree = [] → e.logitRow = some 0 →
        s.hamper p.val e.slot = some h → h.state ≠ 4 → h.counts = [] → fpIsZero h.q.temp = true →
        s.tensorRec p.val (s.rd R.SRV.LOGITS p.val) = some x → x.fmt = 0 → x.cols = s.rd R.SRV.VOCAB p.val → 0 < x.rows →
        ∀ v k l, (rankTop h.q.topK ((List.range x.cols).zip (leWords 4 x.cols (s.mrd (x.addr 0 0) (4 * x.cols))) |>.map
          (fun y => (y.2, y.1)))).1 = (v, k) :: l → fpIsNaN v = false →
          ∃ e', (t.part p.val).step.entries = [e'] ∧ e'.sampled = k ∧ e'.drawn = e.drawn ++ [k])) ∧
    (∀ hc : Nat, (s.mayCut p.val = false → exec (.commitCut p hc) s = .next s) ∧
      (s.mayCut p.val = true → ∃ t, exec (.commitCut p hc) s = .next t ∧ (t.part p.val).step.phase = .cut ∧
        (t.part p.val).step.cutTime = s.clk.devTime ∧ (t.part p.val).step.cutFrames = (s.part p.val).inbox.length ∧
        (t.part p.val).step.entries = (s.part p.val).step.entries ∧ t.rd R.GLB.STEP_HC p.val = hc % 2 ^ R.GLB.STEP_HC.width ∧
        t.rd R.GLB.STEP_DIGEST p.val = shake64 (s.part p.val).step.digestBytes % 2 ^ R.GLB.STEP_DIGEST.width ∧ t.mem = s.mem ∧
        ∀ q, q ≠ p.val → t.part q = s.part q)) ∧
    ((s.part p.val).step.phase ≠ .cut ∨ (s.part p.val).step.cutFrames ≠ 0 → exec (.commitResolution p) s = .next s) ∧
    ((s.part p.val).step.phase = .cut → (s.part p.val).step.cutFrames = 0 → (s.part p.val).inbox = [] →
      ∃ t, exec (.commitResolution p) s = .next t ∧ (t.part p.val).step = {} ∧ (t.part p.val).between = true ∧ (t.part p.val).stepNo = (s.part p.val).stepNo + 1 ∧
        (∀ e h q k, MemClean s → (s.part p.val).step.entries = [e] → (s.part p.val).hampers = [(e.slot, h)] → (s.part p.val).step.halted = false →
          e.prefill = false → e.sample = true → e.bad = 0 → e.opErr = false → e.badTree = false → e.drawn = [k] → e.path = [] →
          s.seq p.val e.slot = some q → q.poison = 0 → q.maskEmpty = false → h.state = 3 → h.cancelSeen = false → h.endPend = false →
          h.q.deadline = 0 → h.q.stops = [] → h.outIndex + 1 ≠ h.q.maxTokens → e.last + 1 ≠ maxPositions →
          ∃ h', t.hamper p.val e.slot = some h' ∧ h'.outIndex = h.outIndex + 1 ∧ h'.lastToken = k ∧ h'.state = 3 ∧
            t.rd R.SRV.TOKENS p.val = min (s.rd R.SRV.TOKENS p.val + 1) (2 ^ R.SRV.TOKENS.width - 1))) ∧
    (s.stepRuns p.val = true ∨ s.partExists p.val = false → exec (.stepBoundary p) s = .next s) ∧
    (s.stepRuns p.val = false → s.partExists p.val = true → ∃ t, exec (.stepBoundary p) s = .next t ∧ (t.part p.val).disPend = [] ∧
      (∀ x ∈ (s.part p.val).disPend, sharedPage x.1 = false → (s.part p.val).quietPend = false → t.rd (enOfIdx x.1) x.2 = 0) ∧
      ((s.part p.val).switchPend = some true → (t.part p.val).active = (s.part p.val).loaded ∧
        (t.part p.val).setAct = (s.part p.val).setNew ∧ (t.part p.val).actBuf = 1 - (s.part p.val).actBuf))

/-! ### Thermal control and calibration -/

/-- Sensors and calibration. A reading of the hub's 1,988 sensors sets the refresh interval by the highest memory temperature;
a list of another length is no reading. EXCLUDE takes the addressed sensor out of service unless a sensor would keep fewer than two
neighbours, REINSTATE returns it. RECAL_REQ queues its tile first. A window opens between the resolution of a step and
the next only, counts its time in the hub it names where that has queued tiles (the model's reading of THC_WIN_US, log entry 126) and starts
the pieces that end within the hub's WIN; the end of a piece before the ninth counts for its tile and leaves the records of the converters
that the piece does not cover; between steps no piece runs outside a window (R278, R338 to R340, R347 to R351). -/
def Obligations.SensorsAndCalibration : Prop :=
  (∀ (h : Fin 4) (l : List Nat) (s : State), l.length ≠ 1988 → exec (.sensorReading h l) s = .next s) ∧
  (∀ (h : Fin 4) (l : List Nat) (s : State), l.length = 1988 → s.inDoze = false →
    ∃ t, exec (.sensorReading h l) s = .next t ∧
      t.rd R.MEM.REF_TMAX h.val = (if ∃ x ∈ l.drop 1984, 1360 < sx x 16 then 195 else 390)) ∧
  (∀ (h : Fin 4) (s : State),
    (let unit := s.rd R.THC.SENS_ADDR_UNIT h.val
     let i := s.rd R.THC.SENS_ADDR_INDEX h.val
     ∃ t, exec (.exclude h) s = .next t ∧
      (sensAddrOk unit i = true → keepsTwo (gridOf unit).1 (gridOf unit).2 (s.unitSens h.val unit) i = true →
        t = { s with stks := t.stks, hubs := t.hubs } ∧ ((t.unitSens h.val unit).getD i {}).fwExcl = true ∧
        ∀ j, j ≠ i → (t.unitSens h.val unit).getD j {} = (s.unitSens h.val unit).getD j {}) ∧
      (sensAddrOk unit i = false ∨ keepsTwo (gridOf unit).1 (gridOf unit).2 (s.unitSens h.val unit) i = false →
        t = { s with regs := t.regs } ∧ t.rd R.THC.EVT_CONFIG_REFUSED h.val = 1 ∧
        RegsBut [(fieldConfigRefused .thc, h.val), (fieldRefusedCnt .thc, h.val)] s t)) ∧
    (let unit := s.rd R.THC.SENS_ADDR_UNIT h.val
     let i := s.rd R.THC.SENS_ADDR_INDEX h.val
     sensAddrOk unit i = true → ∃ t, exec (.reinstate h) s = .next t ∧
      ((t.unitSens h.val unit).getD i {}).excluded = false ∧ ((t.unitSens h.val unit).getD i {}).mute = 51 ∧
      (((s.unitSens h.val unit).getD i {}).suspect = true → t.rd R.THC.EVT_REINSTATED h.val = 1) ∧
      ∀ j, j ≠ i → (t.unitSens h.val unit).getD j {} = (s.unitSens h.val unit).getD j {}) ∧
    (let k := 3 * h.val + s.rd R.THC.RECAL_REQ_STACK h.val
     let tile := s.rd R.THC.RECAL_REQ_TILE h.val
     tile < 640 → s.rd R.THC.RECAL_REQ_STACK h.val < 3 → ∃ t, exec (.recalReq h) s = .next t ∧ t = { s with stks := t.stks } ∧
      (AMap.getD (s.stk k).recalQ tile 0 < 2 → AMap.getD (t.stk k).recalQ tile 0 = 3) ∧
      (AMap.getD (s.stk k).recalQ tile 0 = 2 ∨ AMap.getD (s.stk k).recalQ tile 0 = 3 → t.stk k = s.stk k))) ∧
  (∀ (p : Fin 12) (h : Fin 4) (us : Nat) (s : State), (s.part p.val).between = true → s.windowOf p.val h.val ≠ [] →
    (∀ k, (s.stk k).adopt = []) →
    ∃ t, exec (.calibrationWindow p h us) s = .next t ∧ t = { s with regs := t.regs, stks := t.stks } ∧
      t.rd R.THC.WIN_US h.val = min (s.rd R.THC.WIN_US h.val + s.windowLen p.val us) (2 ^ R.THC.WIN_US.width - 1) ∧
      RegsBut [(R.THC.WIN_US, h.val)] s t ∧
      (∀ k ∈ s.windowOf p.val h.val, (t.stk k).calRun = (s.calBatch k).filter (fun x =>
        decide ((s.stk k).pieceUs x ≤ min (s.windowLen p.val us) (s.calWin h.val)))) ∧
      (∀ k, k ∉ s.windowOf p.val h.val → t.stk k = s.stk k)) ∧
  (∀ (p : Fin 12) (h : Fin 4) (us : Nat) (s : State), (s.part p.val).between = false ∨ s.windowOf p.val h.val = [] →
    exec (.calibrationWindow p h us) s = .next s) ∧
  (∀ (k : Fin 12) (tile : Nat) (s : State), (s.stk k.val).calRun.contains tile = true → (s.stk k.val).adopt = [] →
    AMap.getD (s.stk k.val).calDone tile 0 < 8 →
    ∃ t, exec (.calPieceEnd k tile [] [] []) s = .next t ∧
      AMap.getD (t.stk k.val).calDone tile 0 = AMap.getD (s.stk k.val).calDone tile 0 + 1 ∧ t.mem = s.mem ∧ t.parts = s.parts ∧
      ∀ c, convGroup c ≠ 8 * tile + AMap.getD (s.stk k.val).calDone tile 0 → (t.stk k.val).trimIn c = (s.stk k.val).trimIn c) ∧
  (∀ (k : Fin 12) (tile p : Nat) (s : State), (s.stk k.val).calRun = [] → s.ownerOf k.val = some p →
    s.stepRuns p = true ∨ (s.part p).between = true → ∀ a c d, exec (.calPieceEnd k tile a c d) s = .next s) ∧
  (∀ (k : Fin 12) (tile : Nat) (a : List (Nat × Nat)) (s : State), (s.stk k.val).calRun.contains tile = false → s.calAllowed k.val = false →
    ∀ c d, exec (.calPieceEnd k tile a c d) s = .next s)

/-! ### Array fields, accumulation, epilogue, top-k -/

/-- Evaluations. The next evaluation that can arm, or the next range pass, takes its place with the guard's number of passes and the edges
of its bank, and keeps its vector; an array changes to the tier that its next evaluation names; sampling ends the evaluation of the array
and of those that share its input, and the next pass of an evaluation in several passes waits from then on in its own place of the order;
the round that has been converted gives its codes to the passes that follow, or by a limit code the evaluation goes again whole in twice
the passes; a priority read delays the round of its converter alone, or repeats the evaluation when that
delay passes two slots. Where none is due, nothing changes (R19, R29, R35, R38, R39, R48, R53, R55 to R57, R103). -/
def Obligations.EvaluationsAndRounds : Prop :=
  (∀ (k : Fin 12) (s : State) (c : Instr) (range : Bool), c = .evaluationArm k ∧ range = false ∨ c = .rangePass k ∧ range = true →
    ((∀ x, s.nextArm k.val = some x → x.2.1.range ≠ range) → exec c s = .next s) ∧
    (∀ j it dr rb, s.nextArm k.val = some (j, it, dr, rb) → it.range = range → (s.stk k.val).idleErr = [] → bankSums dr.edges 0 2048 ≠ (0, 0) →
      ∃ t f, exec c s = .next t ∧ (t.stk k.val).firing = (s.stk k.val).firing ++ [f] ∧
        f.phys = (s.stk k.val).physOf (dArray it.desc) ∧ f.tier = dTier it.desc ∧ f.lane = dLane it.desc ∧ f.held = false ∧
        f.item.passes = (if it.passes = 0 then (guardPasses (s.rd R.AFD.GUARD_GUARD_CODE k.val) (dFsExp it.desc) dr.edges).1 else it.passes) ∧
        f.edges = bankEdges dr.edges f.item.passes it.pass ∧ f.item.vec = some dr.edges ∧ f.row = j.row ∧ t.mem = s.mem ∧ ∀ i, i ≠ k.val → t.stk i = s.stk i)) ∧
  (∀ (k : Fin 12) (s : State), (s.nextRebias k.val = none → exec (.tierRebias k) s = .next s) ∧
    (∀ a tier, s.nextRebias k.val = some (a, tier) → ∃ t, exec (.tierRebias k) s = .next t ∧
      t.stk k.val = { s.stk k.val with bias := (t.stk k.val).bias } ∧ AMap.getD (t.stk k.val).bias a 0 = tier + 1 ∧
      (∀ b, b ≠ a → AMap.getD (t.stk k.val).bias b 0 = AMap.getD (s.stk k.val).bias b 0) ∧
      t.rd R.AFD.TIER_SWITCH_CNT k.val = min (s.rd R.AFD.TIER_SWITCH_CNT k.val + 1) (2 ^ R.AFD.TIER_SWITCH_CNT.width - 1) ∧
      RegsBut [(R.AFD.TIER_SWITCH_CNT, k.val)] s t)) ∧
  (∀ (k : Fin 12) (a : Nat) (s : State),
    ((∀ f ∈ (s.stk k.val).firing, f.held = true ∨ f.phys ≠ a) → exec (.sampleAndHold k a) s = .next s) ∧
    (∀ f l, (s.stk k.val).firing = f :: l → f.phys = a → f.held = false → (∀ g ∈ l, g.tile ≠ f.tile) →
      ∃ t, exec (.sampleAndHold k a) s = .next t ∧ t = { s with stks := t.stks } ∧ (t.stk k.val).firing = { f with held := true } :: l ∧
        (f.item.passes ≤ f.item.pass + 1 → t.stk k.val = { s.stk k.val with firing := { f with held := true } :: l }) ∧
        (∀ j, f.item.pass + 1 < f.item.passes → (s.stk k.val).job? f.item.job = some j →
          ∃ j', (t.stk k.val).job? f.item.job = some j' ∧ j'.todo = placeItem { f.item with pass := f.item.pass + 1 } j.todo))) ∧
  (∀ (k : Fin 12) (a : Nat) (devs : List Int) (f : Firing) (l : List Firing) (j : Job) (s : State),
    (s.stk k.val).firing = f :: l → f.phys = a → f.held = true → (s.stk k.val).job? f.item.job = some j →
    ∃ t, exec (.conversionRoundEnd k a devs) s = .next t ∧
      (let r : PassRes :=
        { fired := bankSums f.edges 0 2048 != (0, 0), codes := s.roundCodes k.val a f.tier (dFsExp f.item.desc) f.edges devs
          eNet := ((bankSums f.edges 0 2048).1 : Int) - (bankSums f.edges 0 2048).2, e2 := sumSq f.edges, edges := f.edges }
       let got (x : EvalItem) : EvalItem := if f.item.follows x then { x with got := x.got ++ [r] } else x
       (s.limitCode k.val a r = true → f.item.passes < 4 →
        (t.stk k.val).firing = l.filter (fun g => !f.item.follows g.item) ∧ t.rd R.AFD.EVT_READ_SPLIT k.val = 1 ∧
        ∃ j', (t.stk k.val).job? f.item.job = some j' ∧
          j'.todo = placeItem { f.item with passes := 2 * f.item.passes, pass := 0, got := [] } (j.todo.filter (fun x => !f.item.follows x))) ∧
       (s.limitCode k.val a r = false → f.item.pass + 1 < f.item.passes →
        (t.stk k.val).firing = l.map (fun g => { g with item := got g.item }) ∧ t.regs = s.regs ∧
        ∃ j', (t.stk k.val).job? f.item.job = some j' ∧ j'.todo = j.todo.map got ∧ j'.inFlight = j.inFlight - 1))) ∧
  (∀ (k : Fin 12) (a col : Nat) (slot : Fin 8) (ran : Fin 28) (s : State),
    (col < 2048 ∨ 2080 ≤ col → exec (.priorityRead k a col slot ran) s = .next s) ∧
    (∀ f l, 2048 ≤ col → col < 2080 → (s.stk k.val).firing = f :: l → f.phys = a → f.held = true → slot.val ≤ col % 8 → col ∉ f.early →
      ∃ t, exec (.priorityRead k a col slot ran) s = .next t ∧
        (f.delayOf (col / 8) + ran.val ≤ 56 → f ∉ l → t.regs = s.regs ∧
          ∃ g, (t.stk k.val).firing = g :: l ∧ g.early = col :: f.early ∧ (g.phys, g.item, g.edges, g.held) = (f.phys, f.item, f.edges, f.held) ∧
            ∀ c, g.delayOf c = f.delayOf c + (if c = col / 8 then ran.val else 0)) ∧
        (56 < f.delayOf (col / 8) + ran.val → (t.stk k.val).firing = l.filter (fun g => !f.item.follows g.item) ∧
          t.rd R.CNV.ABORT_REPEAT_CNT k.val = min (s.rd R.CNV.ABORT_REPEAT_CNT k.val + 1) (2 ^ R.CNV.ABORT_REPEAT_CNT.width - 1))))

/-- Results. A READY pair of a chain that goes to the epilogue is read out as V = 2^m × FULL − 8 × S_E with its flags, and is free. The
epilogue waits for every chain of a column; the value that a digital rung delivered for a column's one chain is written as it is.
The drift fit leaves gains in their range, and waits until the step that follows runs. The oldest digital-rung invocation starts a free ESC group at its entry with its four
scalars. A write to FULL of an IDLE pair is there when read; to a pair in use it is dropped and counted, as one outside the
partition's stacks is refused and counted (R108, R110, R117, R135 to R138, R207, R208). -/
def Obligations.ResultsOfChains : Prop :=
  (∀ (k : Fin 12) (tile : Nat) (slot : Fin 16) (j : Job) (c : ChainRec) (s : State),
    (let q := (s.stk k.val).pair (16 * tile + slot.val)
     (s.stk k.val).job? q.job = some j → s.chainRec j.part j.chain = some c →
      (q.st ≠ 2 → exec (.readout k tile slot) s = .next s) ∧
      (q.st = 2 → c.flags.testBit 1 = false →
        ∃ t v, exec (.readout k tile slot) s = .next t ∧ ((t.stk k.val).pair (16 * tile + slot.val)).st = 0 ∧ t.mem = s.mem ∧
          t.regs = s.regs ∧ (t.hub c.collHub).vals = (s.hub c.collHub).vals ++ [v] ∧ v.part = j.part ∧ v.chain = j.chain ∧ v.row = j.row ∧
          v.flags = q.flags ∧ ∀ d ds i, s.chainDescs j.part c = d :: ds → i < 2048 →
            v.vals.getD i 0 = (2 ^ dFsExp d : Nat) * q.full.getD i 0 - 8 * q.sE))) ∧
  (∀ (p : Fin 12) (chain row : Nat) (c : ChainRec) (s : State), s.chainRec p.val chain = some c →
    (s.chainVal p.val c.collHub chain row = none → s.chainGroup p.val c = [(chain, c)] → exec (.columnResult p chain row) s = .next s) ∧
    (∀ v d x, s.chainGroup p.val c = [(chain, c)] → s.chainVal p.val c.collHub chain row = some v → v.rung = 3 → v.dig = some d →
      c.fused = 0 → c.outFmt = 0 → c.flags.testBit 2 = false → s.tensorRec p.val c.outTensor = some x → x.cols ≤ 2048 →
      ∃ t, exec (.columnResult p chain row) s = .next t ∧
        (∀ i, i < x.cols → leNat (t.mrd (x.base + row * x.stride + 4 * i) 4) = (d.getD i {}).v % 2 ^ 32) ∧
        (∀ a n, a + n ≤ x.base + row * x.stride ∨ x.base + row * x.stride + 4 * x.cols ≤ a → t.mrd a n = s.mrd a n) ∧
        ∀ w ∈ (t.hub c.collHub).vals, ¬ (w.part = p.val ∧ w.row = row ∧ w.chain = chain))) ∧
  (∀ (h : Fin 4) (i key : Nat) (d : DriftStat) (s : State), i < 3 →
    ((∀ e, e < 3 → (s.stk (3 * h.val + e)).statPrev = []) → ∃ t, exec (.driftFit h) s = .next t ∧ t.regs = s.regs ∧ t.mem = s.mem ∧
      (t.stk (3 * h.val + i)).driftNext = (s.stk (3 * h.val + i)).driftNext) ∧
    ((∀ p, s.ownerOf (3 * h.val + i) = some p → s.stepRuns p = false) → ∃ t, exec (.driftFit h) s = .next t ∧
      t.stk (3 * h.val + i) = s.stk (3 * h.val + i)) ∧
    ((∃ p, s.ownerOf (3 * h.val + i) = some p ∧ s.stepRuns p = true) → (s.stk (3 * h.val + i)).statPrev = [(key, d)] → d.n ≠ 0 → s.is R.DCP.DRIFT_CTL_DRIFT_EN h.val = true →
      AMap.getD (s.stk (3 * h.val + i)).frozen (key / 16) 0 = 0 →
      ∃ t, exec (.driftFit h) s = .next t ∧ (t.stk (3 * h.val + i)).statPrev = [] ∧
        0x71C7 ≤ AMap.getD (t.stk (3 * h.val + i)).driftNext key 0 % 65536 ∧
        AMap.getD (t.stk (3 * h.val + i)).driftNext key 0 % 65536 ≤ 0x9249)) ∧
  (∀ (h : Fin 4) (s : State), ((s.hub h.val).esc = [] → exec (.escInvocation h) s = .next s) ∧
    (∀ e l core g entry, (s.hub h.val).esc = e :: l → s.freeEscGroup h.val e.part = some (core, g, entry) →
      ∃ t, exec (.escInvocation h) s = .next t ∧ (t.hub h.val).esc = l ∧
        (let r := AMap.getD (t.core core).groups g {}
         r.running = true ∧ r.pc = entry ∧ (r.sreg 0).v = e.chain ∧ (r.sreg 1).v = e.row ∧ (r.sreg 2).v = e.tensor ∧ (r.sreg 3).v = e.dig) ∧
        t.mem = s.mem ∧ RegsBut [(R.DCR.ESC_CALL_CNT, e.part)] s t ∧
        t.rd R.DCR.ESC_CALL_CNT e.part = min (s.rd R.DCR.ESC_CALL_CNT e.part + 1) (2 ^ R.DCR.ESC_CALL_CNT.width - 1))) ∧
  (∀ (h : Fin 4) (p : Fin 12) (a : Nat) (b : List Byte) (s : State), winBase ≤ a → a + 4 ≤ winBase + winBytes → a % 4 = 0 → b.length = 4 →
    (let w := winPlace h.val a
     ∃ t, exec (.windowWrite h p a b) s = .next t ∧
      (s.owns p.val w.1 = false → t.stks = s.stks ∧ t.rd R.ACU.EVT_WINDOW_REFUSED h.val = 1 ∧
        t.rd R.ACU.WINDOW_REFUSED_CNT h.val = min (s.rd R.ACU.WINDOW_REFUSED_CNT h.val + 1) (2 ^ R.ACU.WINDOW_REFUSED_CNT.width - 1)) ∧
      (s.owns p.val w.1 = true → w.2.2 < 0x20000 → ((s.stk w.1).pair (16 * w.2.1 + w.2.2 / 0x2000)).st = 0 →
        t.winRead h.val a 4 = b ∧ t.regs = s.regs ∧ t.mem = s.mem) ∧
      (s.owns p.val w.1 = true → w.2.2 < 0x20000 → ((s.stk w.1).pair (16 * w.2.1 + w.2.2 / 0x2000)).st ≠ 0 →
        t.stks = s.stks ∧ t.rd R.ACU.EVT_BUSY_WRITE h.val = 1)))

/-- Top-k. The oldest call that is ready leaves its hub, its result lies at its output address, its token is complete and it is counted; a
record in error gives the header with DESC_ERR alone. A call on N FP32 values of memory without lists gives min(K, N) entries.
Verification reads the set at its address: VERIFY starts it, or is refused while one runs or a switch waits; its end, which a clear of the
partition's memory holds up, shows the set in the inactive banks, or the code and place of the first fault (R142, R143, R145 to R147,
R203). -/
def Obligations.TopkAndVerification : Prop :=
  (∀ (h : Fin 4) (s : State), ((∀ c ∈ (s.hub h.val).topk, s.topkReady h.val c = false) → exec (.topkMerge h) s = .next s) ∧
    (∀ c l, (s.hub h.val).topk = c :: l → s.topkReady h.val c = true →
      ∃ t, exec (.topkMerge h) s = .next t ∧ (t.hub h.val).topk = l ∧ (t.grp c.src).toks.testBit c.tok = false ∧
        (MemClean s → t.rd R.ACU.TOPK_CNT h.val = min (s.rd R.ACU.TOPK_CNT h.val + 1) (2 ^ R.ACU.TOPK_CNT.width - 1)) ∧
        (let r := TopkRec.ofBytes c.call
         let x := s.topkEval c.part h.val r
         t.mrd r.outAddr x.bytes.length = x.bytes ∧
         (∀ a n, a + n ≤ r.outAddr ∨ r.outAddr + x.bytes.length ≤ a → t.mrd a n = s.mrd a n) ∧
         (r.bad = true → x.bytes = leBytes 4 0 ++ leBytes 4 8 ++ leBytes 8 0 ∧ (MemClean s → t.rd R.ACU.EVT_TOPK_DESC_ERR h.val = 1)) ∧
         (r.bad = false → r.src = 1 → r.exclEn = false → r.adjEn = false → x.entries.length = min r.k r.n)))) ∧
  (∀ (p : Fin 12) (s : State),
    ((s.part p.val).verifying ≠ none ∨ (s.part p.val).switchPend ≠ none → s.partExists p.val = true → ∃ t, exec (.verify p) s = .next t ∧ t = { s with regs := t.regs } ∧
      t.rd R.DCR.EVT_CONFIG_REFUSED p.val = 1 ∧ RegsBut [(fieldConfigRefused .dcr, p.val), (fieldRefusedCnt .dcr, p.val)] s t) ∧
    ((s.part p.val).verifying = none → (s.part p.val).switchPend = none → s.partExists p.val = true → ∃ t, exec (.verify p) s = .next t ∧
      t.part p.val = { s.part p.val with verifying := some (s.rd R.DCR.SET_ADDR p.val) } ∧ t.rd R.DCR.SET_STAT_CODE p.val = 1 ∧
      t.rd R.DCR.STAT_VERIFIED p.val = 0 ∧ RegsBut [(R.DCR.SET_STAT_CODE, p.val), (R.DCR.STAT_VERIFIED, p.val)] s t) ∧
    ((s.part p.val).verifying = none ∨ s.clears p.val = true → exec (.setVerifyDone p) s = .next s) ∧
    (∀ a, (s.part p.val).verifying = some a → s.clears p.val = false → ∃ t, exec (.setVerifyDone p) s = .next t ∧ (t.part p.val).verifying = none ∧ t.mem = s.mem ∧
      (t.part p.val).setAct = (s.part p.val).setAct ∧
      (∀ z, s.checkSet p.val a = .inr z → (t.part p.val).setNew = z ∧ t.rd R.DCR.SET_STAT_CODE p.val = 2 ∧
        t.rd R.DCR.STAT_VERIFIED p.val = 1 ∧ t.rd R.DCR.VER_GEN p.val = z.generation % 2 ^ R.DCR.VER_GEN.width ∧
        t.rd R.DCR.EVT_SET_OK p.val = 1) ∧
      (∀ code i o, s.checkSet p.val a = .inl (some code, some (i, o)) → (t.part p.val).setNew = {} ∧
        t.rd R.DCR.SET_STAT_CODE p.val = code % 2 ^ R.DCR.SET_STAT_CODE.width ∧
        t.rd R.DCR.SET_STAT_SECTION p.val = i % 2 ^ R.DCR.SET_STAT_SECTION.width ∧
        t.rd R.DCR.SET_ERR_OFF p.val = o % 2 ^ R.DCR.SET_ERR_OFF.width ∧
        t.rd R.DCR.STAT_VERIFIED p.val = 0 ∧ t.rd R.DCR.EVT_SET_REJECTED p.val = 1)))

/-! ### The weight loader -/

/-- What a load leaves that ends with a failure status: no load, the status, LOAD_FAILED, and the models as they were (R158). -/
def Sys2Proof.Machine.loadFailed (p code : Nat) (shard : Option Nat) (s t : State) : Prop :=
  (t.part p).load = none ∧ (t.part p).loadWait = false ∧ t.rd R.WLD.LOAD_STAT_STATUS p = code ∧ t.rd R.WLD.STAT_LOADING p = 0 ∧
    t.rd R.WLD.EVT_LOAD_FAILED p = 1 ∧
    t.rd R.WLD.FAIL_SHARD p = (match shard with | some i => i % 2 ^ R.WLD.FAIL_SHARD.width | none => s.rd R.WLD.FAIL_SHARD p) ∧
    (t.part p).active = (s.part p).active ∧ (t.part p).loaded = (s.part p).loaded ∧ t.mem = s.mem ∧ t.nv = s.nv ∧ ∀ q, q ≠ p → t.part q = s.part q

/-- Loads begin, end and give way. LOAD_START is refused while a load runs; it clears the counts, waits while a range of the partition
clears, and reads the descriptor: a COLD load of a partition that forms steps is in the wrong state. ABORT and a connect timeout fail the
load, the timeout once SHARD_TMO of device time has passed; Reads that covers and repairs still want go on (R380). RETIRE drops the model, unless the partition forms steps or loads. A switch is
refused without a set that belongs to the loaded placement, else it is pending; a partition that has formed no step switches at once (R156
to R158, R161, R170, R173, R481, R487). -/
def Obligations.LoadsBeginAndEnd : Prop :=
  ∀ (p : Fin 12) (s : State),
    (s.loading p.val = true → s.partExists p.val = true → ∃ t, exec (.loadStart p) s = .next t ∧ t = { s with regs := t.regs } ∧
      t.rd R.WLD.EVT_LOAD_REFUSED p.val = 1 ∧ RegsBut [(R.WLD.EVT_LOAD_REFUSED, p.val)] s t) ∧
    (s.loading p.val = false → s.partExists p.val = true → MemClean s ∨ s.clears p.val = true →
      ∃ t, exec (.loadStart p) s = .next t ∧ t.mem = s.mem ∧ t.rd R.WLD.SHARDS_TOTAL p.val = 0 ∧
      t.rd R.WLD.SHARDS_DONE p.val = 0 ∧ t.rd R.WLD.FAIL_SHARD p.val = 0xFFFFFFFF ∧ t.rd R.WLD.CARRIED_TIERS p.val = 0 ∧
      t.rd R.WLD.SKIPPED_SHARDS p.val = 0 ∧
      (s.clears p.val = true → t.rd R.WLD.LOAD_STAT_STATUS p.val = 0x01 ∧ t.rd R.WLD.STAT_LOADING p.val = 1 ∧
        (t.part p.val).loadWait = true ∧ (t.part p.val).load = (s.part p.val).load) ∧
      (let a := s.rd R.WLD.LOAD_PTR p.val
       let d := s.mrd a 128
       s.clears p.val = false → s.inPart p.val a 128 = true → s.mbad a 128 = false →
        (byteAt d 1 = 0 → s.formsSteps p.val = true → t.rd R.WLD.LOAD_STAT_STATUS p.val = 0x10 ∧ t.rd R.WLD.STAT_LOADING p.val = 0 ∧
          t.rd R.WLD.EVT_LOAD_FAILED p.val = 1 ∧ (t.part p.val).load = none) ∧
        (byteAt d 1 = 0 → s.formsSteps p.val = false → s.hasModel p.val = false → loadDescOk d = true → byteAt d 2 = 1 →
          (let x := fieldLE d 32 8
           s.inPart p.val x 288 = true ∧ s.mbad x 288 = false ∧ sourceOk (s.mrd x 288) = true) →
          s.inPart p.val (fieldLE d 16 8) (fieldLE d 24 8 + fieldLE d 24 8 / 1024) = true → s.loadPorts p.val ≠ [] →
          t.rd R.WLD.LOAD_STAT_STATUS p.val = 0x01 ∧ t.rd R.WLD.STAT_LOADING p.val = 1 ∧
          ∃ l, (t.part p.val).load = some l ∧ l.mode = byteAt d 0 ∧ l.kind = 0 ∧ l.stageAddr = fieldLE d 16 8 ∧
            l.stageBytes = fieldLE d 24 8 ∧ l.faultAddr = fieldLE d 56 8 ∧ l.faultCap = fieldLE d 52 4 ∧ l.manifestOff = fieldLE d 8 8 ∧
            l.fetch.keyHandle = fieldLE d 48 4 ∧ l.fetch.shardTmo = fieldLE d 4 4 ∧ l.manifestOk = false ∧
            l.fetch.sources = [SourceRec.ofBytes (s.mrd (fieldLE d 32 8) 288)]))) ∧
    (s.loading p.val = false → s.partExists p.val = true → exec (.loadAbort p) s = .next s) ∧
    (s.loading p.val = true → s.partExists p.val = true → ∃ t, exec (.loadAbort p) s = .next t ∧ loadFailed p.val 0x1E none s t ∧
      RegsBut ([(R.WLD.LOAD_STAT_STATUS, p.val), (R.WLD.STAT_LOADING, p.val), (R.WLD.EVT_LOAD_FAILED, p.val),
        (R.WLDG.STAT_PROGRAMMING, 0)] ++ (List.range 4).map (fun h => (R.DCP.CORR_BYTES, h)) ++
        (List.range 16).map (fun n => (R.FAB.TX_BYTES, n))) s t) ∧
    ((∀ l, (s.part p.val).load = some l → l.manifestOk = true ∨ s.tmoOver l.fetch l.started = false) →
      exec (.connectTimeout p) s = .next s) ∧
    (∀ l, (s.part p.val).load = some l → l.manifestOk = false → s.tmoOver l.fetch l.started = true →
      ∃ t, exec (.connectTimeout p) s = .next t ∧ loadFailed p.val 0x19 none s t) ∧
    (s.formsSteps p.val = true ∨ s.loading p.val = true → s.partExists p.val = true → ∃ t, exec (.retire p) s = .next t ∧ t = { s with regs := t.regs } ∧
      t.rd R.WLD.EVT_LOAD_REFUSED p.val = 1 ∧ RegsBut [(R.WLD.EVT_LOAD_REFUSED, p.val)] s t) ∧
    (s.formsSteps p.val = false → s.loading p.val = false → s.partExists p.val = true →
      (s.hasModel p.val = false → exec (.retire p) s = .next s) ∧
      (s.hasModel p.val = true → ∃ t, exec (.retire p) s = .next t ∧ (t.part p.val).active = none ∧ (t.part p.val).covers = [] ∧
        (t.part p.val).loaded = (s.part p.val).loaded ∧ t.rd R.WLD.STAT_HAS_MODEL p.val = 0 ∧ t.rd R.WLD.GEN p.val = 0 ∧
        t.mem = s.mem ∧ t.nv = s.nv)) ∧
    (∀ (c : Instr) (imm : Bool), c = .switchDrain p ∧ imm = false ∨ c = .switchImmediate p ∧ imm = true → s.partExists p.val = true →
      (s.switchRefused p.val = true → ∃ t, exec c s = .next t ∧ t = { s with regs := t.regs } ∧
        t.rd R.WLD.EVT_SWITCH_REFUSED p.val = 1 ∧ RegsBut [(R.WLD.SWITCH_MODE, p.val), (R.WLD.EVT_SWITCH_REFUSED, p.val)] s t) ∧
      (s.switchRefused p.val = false → s.unstepped p.val = false → ∃ t, exec c s = .next t ∧
        t = { s with regs := t.regs, parts := t.parts } ∧ t.rd R.WLD.STAT_SWITCH_PENDING p.val = 1 ∧
        t.part p.val = { s.part p.val with switchPend := some imm, drainSeq := (s.part p.val).admSeq } ∧
        (∀ q, q ≠ p.val → t.part q = s.part q) ∧ RegsBut [(R.WLD.SWITCH_MODE, p.val), (R.WLD.STAT_SWITCH_PENDING, p.val)] s t) ∧
      (s.switchRefused p.val = false → s.unstepped p.val = true → imm = true ∨ (s.part p.val).hampers = [] →
        ∃ t, exec c s = .next t ∧ (t.part p.val).active = (s.part p.val).loaded ∧ (t.part p.val).loaded = none ∧
          (t.part p.val).setAct = (s.part p.val).setNew ∧ (t.part p.val).switchPend = none ∧ t.rd R.WLD.EVT_SWITCHED p.val = 1 ∧
          t.rd R.WLD.STAT_SWITCH_PENDING p.val = 0 ∧ t.rd R.DCR.STAT_VERIFIED p.val = 0 ∧ (imm = true → t.mem = s.mem)))

/-- A load runs. Of a manifest the header comes first, and gives the length of the Reads that bring the rest. The whole is checked: its form,
its publisher's key, the signature, then the placement and its limits; a load that passes shows its totals and fetches. A shard whose digest is wrong is fetched again from the other source, the fourth attempt fails the
load; an encrypted one needs its key and tag, else it fails authentication. A good one is staged. A Read that returned an error, or
got no completion within 2 s, goes to the other source, and counts as no re-fetch; a shard's timeout, once SHARD_TMO has passed, fails the load. A staged level is programmed where programming is not paused, with
the wear counted and the residency and the reference mark gone first, and with the block as the programmer read it; a worn array-tier fails the load. At the end the cells hold the
block, and its residency record is written (R151 to R155, R158 to R166, R174, R348, R483). -/
def Obligations.LoadsFetchAndProgram : Prop :=
  (∀ (p : Fin 12) (m : List Byte) (s : State), ((∀ l, (s.part p.val).load = some l → l.manifestOk = true) →
      exec (.manifestCheck p m) s = .next s) ∧
    (∀ l, (s.part p.val).load = some l → l.manifestOk = false → ∃ t, exec (.manifestCheck p m) s = .next t ∧ t.mem = s.mem ∧
      (manifestHeadOk m = false ∨ m.length ≠ 128 ∧ parseManifest m = none → loadFailed p.val 0x11 none s t) ∧
      (manifestHeadOk m = true → m.length = 128 → (∀ r ∈ (s.part p.val).reads, r.what = .manifest → r.index = 0) →
        (t.part p.val).load = some l ∧ ∃ r ∈ (t.part p.val).reads, r.what = .manifest ∧ r.index = 1 ∧ r.offset = l.manifestOff + 128 ∧
          r.len = min (2 ^ 20) (manifestLen m - 128)) ∧
      (∀ x, parseManifest m = some x → ∃ f,
        (s.pubKey x.keyId = none → loadFailed p.val 0x12 none s t) ∧
        (∀ key, s.pubKey x.keyId = some key →
          (Config.ed448Verify key (m.take (m.length - 114)) (m.drop (m.length - 114)) = false → loadFailed p.val 0x13 none s t) ∧
          (Config.ed448Verify key (m.take (m.length - 114)) (m.drop (m.length - 114)) = true → MemClean s →
            t.rd R.WLD.SHARDS_TOTAL p.val = x.shards.length % 2 ^ R.WLD.SHARDS_TOTAL.width ∧
            (∀ code, ({ s with free := f } : State).plan p.val l x = .bad code → loadFailed p.val (code % 2 ^ R.WLD.LOAD_STAT_STATUS.width) none s t) ∧
            (∀ code collide, ({ s with free := f } : State).plan p.val l x = .late code collide → loadFailed p.val (code % 2 ^ R.WLD.LOAD_STAT_STATUS.width) none s t ∧
              t.rd R.WLD.PLACE_COLLIDE p.val = collide % 2 ^ R.WLD.PLACE_COLLIDE.width ∧
              (code = lsBudget → ∀ h ∈ s.hubsOf p.val, t.rd R.DCP.EVT_BUDGET_REFUSED h = 1)) ∧
            (∀ pl levels carried skipped i, ({ s with free := f } : State).plan p.val l x = .ok pl levels carried skipped → i < x.shards.length → i ∉ skipped →
              (∃ l', (t.part p.val).load = some l' ∧ l'.manifestOk = true ∧ l'.placement = pl ∧ l'.levels = levels ∧ l'.keyId = x.keyId) ∧
              t.rd R.WLD.SHARDS_DONE p.val = skipped.length % 2 ^ R.WLD.SHARDS_DONE.width ∧
              t.rd R.WLD.CARRIED_TIERS p.val = carried % 2 ^ R.WLD.CARRIED_TIERS.width)))))) ∧
  (∀ (p : Fin 12) (i : Nat) (b : List Byte) (l : Load) (s : State), (s.part p.val).load = some l →
    (AMap.get? l.shards i = none → exec (.shardAccepted p i b) s = .next s ∧ exec (.shardTimeout p i) s = .next s) ∧
    (∀ st img rest e, AMap.get? l.shards i = some st → l.placement.images = img :: rest → img.shards[i]? = some e →
      (st.accepted = true → exec (.shardAccepted p i b) s = .next s ∧ exec (.shardTimeout p i) s = .next s) ∧
      (st.accepted = false →
        (s.tmoOver l.fetch st.since = false → exec (.shardTimeout p i) s = .next s) ∧
        (s.tmoOver l.fetch st.since = true → ∃ t, exec (.shardTimeout p i) s = .next t ∧ loadFailed p.val 0x1B (some i) s t)) ∧
      (st.accepted = false → b.length ≠ e.length ∨ shake256 b 64 ≠ e.digest → ∃ t, exec (.shardAccepted p i b) s = .next t ∧
        t.rd R.WLDG.FETCH_BYTES 0 = min (s.rd R.WLDG.FETCH_BYTES 0 + b.length) (2 ^ R.WLDG.FETCH_BYTES.width - 1) ∧
        (4 ≤ st.attempts → loadFailed p.val 0x1A (some i) s t) ∧
        (st.attempts < 4 → t.mem = s.mem ∧
          t.rd R.WLDG.REFETCH_CNT 0 = min (s.rd R.WLDG.REFETCH_CNT 0 + 1) (2 ^ R.WLDG.REFETCH_CNT.width - 1) ∧
          ∃ l', (t.part p.val).load = some l' ∧ AMap.get? l'.shards i =
            some { st with attempts := st.attempts + 1, source := (st.source + 1) % max 1 l.fetch.sources.length, accepted := false })) ∧
      (st.accepted = false → b.length = e.length → shake256 b 64 = e.digest → img.encrypted = true →
        (AMap.get? (s.part p.val).imgKeys l.fetch.keyHandle = none →
          ∃ t, exec (.shardAccepted p i b) s = .next t ∧ loadFailed p.val 0x1D (some i) s t) ∧
        (∀ key, AMap.get? (s.part p.val).imgKeys l.fetch.keyHandle = some key → openShard key img.image i e b = none →
          ∃ t, exec (.shardAccepted p i b) s = .next t ∧ loadFailed p.val 0x1D (some i) s t)) ∧
      (st.accepted = false → b.length = e.length → shake256 b 64 = e.digest → img.encrypted = false →
        l.shards = [(i, st)] → l.todo = [] → l.levels = [] → st.slot < l.places → b.length ≤ 2 ^ 28 → l.placement.entriesIn i ≠ [] →
        (∀ x ∈ l.placement.blocks, x.kind = 0 ∧ levelsOk x.bfmt ((b.drop x.offset).take x.length) = true ∧ x.offset + x.length ≤ b.length) →
        MemClean s →
        ∃ t l', exec (.shardAccepted p i b) s = .next t ∧ (t.part p.val).load = some l' ∧ t.mrd (l.stageAt st.slot) b.length = b ∧
          l'.shards = [(i, { st with accepted := true })] ∧ (∀ j ∈ l.placement.entriesIn i, AMap.getD l'.levels j 0 = 1) ∧
          t.rd R.WLD.SHARDS_DONE p.val = min (s.rd R.WLD.SHARDS_DONE p.val + 1) (2 ^ R.WLD.SHARDS_DONE.width - 1)))) ∧
  (∀ (p : Fin 12) (x : ReadRef) (s : State),
    (let failed (r : ReadCmd) : Prop :=
      r.what = x.what ∧ r.index = x.index ∧ r.queue.isSome = true ∧ (x.error = true ∨ r.since + 2000000000 ≤ s.clk.devTime)
     ((∀ r ∈ (s.part p.val).reads, ¬ failed r) → exec (.readTimeout p x) s = .next s) ∧
     (∀ r, (s.part p.val).reads = [r] → failed r → ∃ t r', exec (.readTimeout p x) s = .next t ∧
      t = { s with regs := t.regs, parts := t.parts, fab := t.fab, free := t.free } ∧ (t.part p.val).reads = [r'] ∧
      r'.source = (r.source + 1) % max 1 (s.sourcesFor p.val r.what) ∧
      (r'.what, r'.index, r'.offset, r'.len) = (r.what, r.index, r.offset, r.len) ∧
      t.part p.val = { s.part p.val with reads := [r'] } ∧ (∀ q, q ≠ p.val → t.part q = s.part q) ∧
      RegsBut ((List.range 16).map (fun n => (R.FAB.TX_BYTES, n))) s t))) ∧
  (∀ (p : Fin 12) (n : Nat) (l : Load) (e : PlEntry) (b : Blk) (st : ShardSt) (s : State), (s.part p.val).load = some l →
    l.placement.entries[n]? = some e → l.placement.levelsBlk e = some b → AMap.get? l.shards b.shard = some st → e.stack < 12 →
    (AMap.getD l.levels n 0 ≠ 1 ∨ st.accepted = false ∨ s.progPaused e.stack = true ∨ s.clears p.val = true →
      exec (.programArrayTier p n) s = .next s) ∧
    (AMap.getD l.levels n 0 = 1 → st.accepted = true → s.progPaused e.stack = false → s.clears p.val = false → s.formsSteps p.val = false →
      s.stagedBad l st.slot b.offset b.length = false →
      (let phys := (s.stk e.stack).physOf e.array
       let key := nvKey e.stack phys e.tier
       ∃ t, exec (.programArrayTier p n) s = .next t ∧ t.mem = s.mem ∧
        (s.worn e.stack phys e.tier = true → loadFailed p.val 0x18 none s t) ∧
        (s.worn e.stack phys e.tier = false → t.wearAt key = min (s.wearAt key + 1) 65535 ∧ AMap.get? t.nv.residency key = none ∧
          t.refMarked key = false ∧ t.rd R.WLDG.STAT_PROGRAMMING 0 = 1 ∧
          AMap.get? (t.stk e.stack).programming (tierKey phys e.tier) = some 1 ∧
          ∃ l', (t.part p.val).load = some l' ∧ AMap.getD l'.levels n 0 = 4 + tierKey phys e.tier ∧
            AMap.getD l'.taken n [] = s.mrd (l.stageAt st.slot + b.offset) b.length))) ∧
    (AMap.getD l.levels n 0 < 4 ∨ s.progPaused e.stack = true ∨ s.clears p.val = true →
      ∀ trains failed, exec (.programVerifyEnd p n trains failed) s = .next s) ∧
    (∀ phys trains, AMap.getD l.levels n 0 = 4 + tierKey phys e.tier → e.tier < 16 → s.progPaused e.stack = false → s.clears p.val = false →
      l.todo ≠ [] →
      (let key := nvKey e.stack phys e.tier
       ∃ t, exec (.programVerifyEnd p n trains []) s = .next t ∧ t.mem = s.mem ∧
        AMap.get? t.nv.cells key = some
          { wmode := b.bfmt, vals := AMap.getD l.taken n [], spares := colEntries (s.stk e.stack).colMap phys } ∧
        AMap.get? t.nv.residency key = some (residencyOf l.placement.image b (s.part p.val).tag) ∧ t.refMarked key = true ∧
        AMap.get? (t.stk e.stack).programming (tierKey phys e.tier) = none ∧
        t.rd R.WLDG.TRAINS 0 = min (s.rd R.WLDG.TRAINS 0 + trains) (2 ^ R.WLDG.TRAINS.width - 1) ∧
        ∃ l', (t.part p.val).load = some l' ∧ AMap.getD l'.levels n 0 = 3)))

/-! ### Converters -/

/-- Remap, trims and self-calibration. AFD_CAP sets the cap. MAP_SWAP and TRIM_SWAP wait for the owner's boundary, or act at once on a stack
without steps: the remap buffer is exchanged when it maps nothing twice, else the exchange is refused, and a masked array that it gives a
substitute loses its mask; every tile's trim buffers are exchanged, and a converter whose newly active record breaks its rule has
failed. Self-calibration starts with stack scope while the array fields are disabled, with tile scope on a tile that a recalibration
piece holds, one at a time, else it is refused. Its end gives a tile's records to the tile's inactive buffer, valid ones also for the
converters that the command does not list (log entry 30), or leaves the stack calibrated with drift records of unity; stack scope
waits while the stack clears (R47, R58 to R61, R63, R64, R67, R112, R326, R481, R482). -/
def Obligations.TrimsAndSelfCalibration : Prop :=
  ∀ (k : Fin 12) (s : State),
    (∀ cap : Fin 512, ∃ t, exec (.afdCap k cap) s = .next t ∧ t = { s with regs := t.regs } ∧ t.rd R.AFD.CAP_CAP k.val = cap.val ∧
      RegsBut [(R.AFD.CAP_CAP, k.val)] s t) ∧
    (∃ t, exec (.mapSwap k) s = .next t ∧ t = { s with regs := t.regs, stks := t.stks, parts := t.parts, fab := t.fab, free := t.free } ∧ (∀ j, j ≠ k.val → t.stk j = s.stk j) ∧
      (s.freeStack k.val = false → t.regs = s.regs ∧ t.parts = s.parts ∧ t.stk k.val = { s.stk k.val with mapPend := true }) ∧
      (s.freeStack k.val = true → (s.stk k.val).mapOk = true → t.rd R.AFD.EVT_MAP_SWAPPED k.val = 1 ∧
        t.stk k.val = { s.stk k.val with mapPend := false, mapBuf := 1 - (s.stk k.val).mapBuf, masked := (t.stk k.val).masked } ∧
        (∀ p a, s.ownerOf k.val = some p → (AMap.getD (t.stk k.val).arrMap a 0).testBit 31 = true →
          AMap.getD (t.stk k.val).arrMap a 0 ≠ AMap.getD (s.stk k.val).arrMap a 0 → AMap.get? (t.stk k.val).masked a = none) ∧
        ((s.stk k.val).masked = [] → t.parts = s.parts ∧ t.fab = s.fab ∧ (t.stk k.val).masked = [] ∧ RegsBut [(R.AFD.EVT_MAP_SWAPPED, k.val)] s t)) ∧
      (s.freeStack k.val = true → (s.stk k.val).mapOk = false → t.parts = s.parts ∧ t.rd (fieldConfigRefused .afd) k.val = 1 ∧
        t.stk k.val = { s.stk k.val with mapPend := false } ∧
        RegsBut [(fieldConfigRefused .afd, k.val), (fieldRefusedCnt .afd, k.val)] s t)) ∧
    (∃ t, exec (.trimSwap k) s = .next t ∧
      (s.freeStack k.val = false → t = { s with stks := t.stks } ∧ t.stk k.val = { s.stk k.val with trimPend := true } ∧
        ∀ j, j ≠ k.val → t.stk j = s.stk j) ∧
      (s.freeStack k.val = true → t.rd R.CNV.EVT_TRIM_SWAPPED k.val = 1 ∧
        (∀ tile, tile < 640 → (t.stk k.val).trimBuf tile = 1 - (s.stk k.val).trimBuf tile) ∧
        (∀ key, tileOfConv key < 640 → trimOk ((s.stk k.val).trimIn key) = false →
          (t.stk k.val).convFailed (key / convs) (key % convs) = true) ∧
        ((∀ e ∈ (s.stk k.val).trim0 ++ (s.stk k.val).trim1, trimOk e.2 = true) → 
            (∀ key, tileOfConv key < 640 → (s.stk k.val).trimDrawIn key ≠ 0) →
          t = { s with regs := t.regs, stks := t.stks } ∧ t.stk k.val = { s.stk k.val with trimSel := (t.stk k.val).trimSel } ∧
          RegsBut [(R.CNV.EVT_TRIM_SWAPPED, k.val)] s t))) ∧
    (∀ (c : Instr) (scope : SelfCal) (ok : Bool),
      c = .stackSelfcal k ∧ scope = .stack ∧ ok = !s.en .afd k.val ∨
        c = .tileSelfcal k ∧ scope = .tile (s.rd R.CNV.SELFCAL_TILE k.val) ∧
          ok = (decide (s.rd R.CNV.SELFCAL_TILE k.val < 640) && (s.pieces k.val).contains (s.rd R.CNV.SELFCAL_TILE k.val)) →
      ∃ t, exec c s = .next t ∧
        ((s.stk k.val).selfcal = none → ok = true → t = { s with regs := t.regs, stks := t.stks } ∧
          t.stk k.val = { s.stk k.val with selfcal := some scope } ∧ t.rd R.CNV.SELFCAL_STAT_BUSY k.val = 1 ∧
          RegsBut [(R.CNV.SELFCAL_STAT_BUSY, k.val)] s t) ∧
        ((s.stk k.val).selfcal ≠ none ∨ ok = false → t = { s with regs := t.regs } ∧ t.rd (fieldConfigRefused .cnv) k.val = 1 ∧
          RegsBut [(fieldConfigRefused .cnv, k.val), (fieldRefusedCnt .cnv, k.val)] s t)) ∧
    (∀ (trims : List (Nat × Nat)) (bad : List Nat) (refs : List (Nat × List Int)),
      ((s.stk k.val).selfcal = none ∨ (s.stk k.val).selfcal = some .stack ∧ s.stackClears k.val = true →
        exec (.selfcalComplete k trims bad refs) s = .next s) ∧
      ((s.stk k.val).selfcal = some .stack → s.stackClears k.val = false →
        ∃ t, exec (.selfcalComplete k trims bad refs) s = .next t ∧ (t.stk k.val).selfcal = none ∧ t.rd R.CNV.SELFCAL_STAT_BUSY k.val = 0 ∧
          t.rd R.CNV.SELFCAL_STAT_DONE k.val = 1 ∧ t.rd R.CNV.EVT_SELFCAL_DONE k.val = 1 ∧ t.rd R.AFD.STAT_CALIBRATED k.val = 1 ∧
          (t.stk k.val).drift = [] ∧ (t.stk k.val).driftBase = driftUnity ∧ (t.stk k.val).stat = []) ∧
      (∀ tile key w, (s.stk k.val).selfcal = some (.tile tile) → s.freeStack k.val = false → trims = [(key, w)] → bad = [] →
        ∃ t, exec (.selfcalComplete k trims bad refs) s = .next t ∧ t = { s with regs := t.regs, stks := t.stks, free := s.free + 2 } ∧
          (t.stk k.val).selfcal = none ∧ (t.stk k.val).tilePend = (s.stk k.val).tilePend ++ [tile] ∧
          t.rd R.CNV.SELFCAL_STAT_BUSY k.val = 0 ∧ t.rd R.CNV.EVT_SELFCAL_DONE k.val = 1 ∧
          (tileOfConv key = tile → (t.stk k.val).trimIn key = w) ∧
          (∀ x, tileOfConv x = tile → x ≠ key → trimOk ((t.stk k.val).trimIn x) = true) ∧
          (∀ x, tileOfConv x ≠ tile → (t.stk k.val).trimIn x = (s.stk k.val).trimIn x)))

/-! ### Memory controllers -/

/-- Training and ranges. Training starts while the page is disabled and none runs; its end shows the channels that passed, the stacks
without one, the flag when any failed, and the boot frame in both buffers. APPLY gives the selected partition its range in the
hub and starts its clear, or is refused, as while a load of the partition runs or waits; it changes no byte outside the range that the partition leaves, whose contents the change of key may
make others (R289). A clear ends only while the page is enabled and the active frame gives the partition a write slot; at its end the range reads
zero and no other byte has changed, with no frame of the partition waiting for it (R271, R274, R275, R479, R482). -/
def Obligations.MemoryTrainingAndRanges : Prop :=
  (∀ (h : Fin 4) (s : State), ∃ t, exec (.memTrain h) s = .next t ∧
    (s.en .mem h.val = true ∨ (s.hub h.val).training = true → t = { s with regs := t.regs } ∧ t.rd (fieldConfigRefused .mem) h.val = 1 ∧
      t.rd (fieldRefusedCnt .mem) h.val = min (s.rd (fieldRefusedCnt .mem) h.val + 1) (2 ^ (fieldRefusedCnt .mem).width - 1) ∧
      RegsBut [(fieldConfigRefused .mem, h.val), (fieldRefusedCnt .mem, h.val)] s t) ∧
    (s.en .mem h.val = false → (s.hub h.val).training = false → t = { s with hubs := t.hubs } ∧
      t.hub h.val = { s.hub h.val with training := true } ∧ ∀ i, i ≠ h.val → t.hub i = s.hub i)) ∧
  (∀ (h : Fin 4) (ok : BitVec 128) (s : State), ((s.hub h.val).training = false → exec (.trainingEnd h ok) s = .next s) ∧
    ((s.hub h.val).training = true → ∃ t, exec (.trainingEnd h ok) s = .next t ∧ t = { s with regs := t.regs, hubs := t.hubs } ∧
      t.hub h.val = { s.hub h.val with training := false, frame0 := bootFrame, frame1 := bootFrame, len0 := 1024, len1 := 1024 } ∧
      t.rd R.MEM.STAT_TRAINED h.val = 1 ∧
      (∀ i f, chOkFields[i]? = some f → t.rd f h.val = bits ok.toNat (32 * i) 32 ∧
        ((t.rd R.MEM.STAT_STACK_FAIL h.val).testBit i = true ↔ bits ok.toNat (32 * i) 32 = 0)) ∧
      (ok.toNat ≠ 2 ^ 128 - 1 → t.rd R.MEM.EVT_TRAIN_FAIL h.val = 1) ∧
      (ok.toNat = 2 ^ 128 - 1 → t.rd R.MEM.EVT_TRAIN_FAIL h.val = s.rd R.MEM.EVT_TRAIN_FAIL h.val) ∧
      RegsBut ([(R.MEM.STAT_TRAINED, h.val), (R.MEM.STAT_STACK_FAIL, h.val), (R.MEM.EVT_TRAIN_FAIL, h.val)] ++
        chOkFields.map (fun f => (f, h.val))) s t)) ∧
  (∀ (h : Fin 4) (s : State), ∃ t, exec (.apply h) s = .next t ∧
    (let p := s.rd R.MEM.PART_SEL h.val
     let r := s.partRange h.val p
     (∀ a, (∀ x ∈ (s.part p).ranges, x.1 = h.val → a < rangeBase x ∨ rangeBase x + rangeSize x ≤ a) → t.mrd a 1 = s.mrd a 1) ∧
     (s.loading p = true → s.applyOk h.val p = false) ∧
     (s.applyOk h.val p = false → t = { s with regs := t.regs } ∧ t.rd (fieldConfigRefused .mem) h.val = 1 ∧
        RegsBut [(fieldConfigRefused .mem, h.val), (fieldRefusedCnt .mem, h.val)] s t) ∧
     (s.applyOk h.val p = true → t = { s with regs := t.regs, parts := t.parts, hubs := t.hubs, memWb := t.memWb, mem := t.mem, blks := t.blks } ∧
        (t.part p).ranges.filter (fun x => x.1 == h.val) = (if r.2 = 0 then [] else [(h.val, r)]) ∧
        (∀ x, x.1 ≠ h.val → (x ∈ (t.part p).ranges ↔ x ∈ (s.part p).ranges)) ∧ (∀ q, q ≠ p → t.part q = s.part q) ∧
        (p ∈ (t.hub h.val).clearing ↔ r.2 ≠ 0) ∧ (∀ i, i ≠ h.val → t.hub i = s.hub i) ∧
        (r.2 ≠ 0 → t.rd R.MEM.STAT_CLEARING h.val = 1) ∧ RegsBut [(R.MEM.STAT_CLEARING, h.val)] s t))) ∧
  (∀ (h : Fin 4) (p : Fin 12) (s : State), 
    (p.val ∉ (s.hub h.val).clearing ∨ s.en .mem h.val = false ∨ (∀ e ∈ (s.frameAct h.val).entries, feOwner e ≠ p.val ∨ feDir e ≠ 1) →
      exec (.clearDone h p) s = .next s) ∧
    (p.val ∈ (s.hub h.val).clearing → s.en .mem h.val = true → (∃ e ∈ (s.frameAct h.val).entries, feOwner e = p.val ∧ feDir e = 1) → (s.part p.val).inbox = [] → ∃ t, exec (.clearDone h p) s = .next t ∧
      (∀ r ∈ (s.part p.val).ranges, r.1 = h.val → ∀ a, rangeBase r ≤ a → a < rangeBase r + rangeSize r → t.mrd a 1 = [0]) ∧
      (∀ a, (∀ r ∈ (s.part p.val).ranges, r.1 = h.val → a < rangeBase r ∨ rangeBase r + rangeSize r ≤ a) → t.mrd a 1 = s.mrd a 1) ∧
      (t.hub h.val).clearing = (s.hub h.val).clearing.filter (· != p.val) ∧ t.rd R.MEM.EVT_CLEAR_DONE h.val = 1 ∧
      ((s.part p.val).loadWait = false → t.parts = s.parts ∧ RegsBut [(R.MEM.STAT_CLEARING, h.val), (R.MEM.EVT_CLEAR_DONE, h.val)] s t)))

/-- Frames and slots. SWAP leaves the frame pending; the check at the next frame cycle makes it active, or refuses it with its
reason. REFRESH takes the next bank; once MEM_REF_TMAX has passed without one a forced refresh is counted and takes a slot, which for a
partition's slot is a timing-dependent choice, and not before. A SCRUB slot writes back what waits, else reads the next burst of the
patrol and counts what it decodes; what it writes back of a burst that does not decode is what was read, with POISON; one that a forced
refresh has taken does neither. A frame cycle's start ends what was taken of the slots that have passed. A STEP slot moves one burst of its plan entry, of
a load into scratch or of a store into memory, and a slot without a partition's step or a plan entry moves nothing (R270, R276 to
R281, R284, R285, R290, R296). -/
def Obligations.FramesAndSlots : Prop :=
  (∀ (h : Fin 4) (s : State), ∃ t, exec (.frameSwap h) s = .next t ∧ t = { s with regs := t.regs } ∧
    t.rd R.MEM.STAT_FRAME_PENDING h.val = 1 ∧ RegsBut [(R.MEM.STAT_FRAME_PENDING, h.val)] s t) ∧
  (∀ (h : Fin 4) (s : State), ∃ t, exec (.frameCheck h) s = .next t ∧ t = { s with regs := t.regs, hubs := t.hubs, free := t.free } ∧
    t.hub h.val = { s.hub h.val with
      slotPos := 0, begun := false, overrun := false, taken := (s.hub h.val).taken.filter (fun e => decide (e.2 ≤ (s.hub h.val).slotPos)) } ∧ (∀ i, i ≠ h.val → t.hub i = s.hub i) ∧
    t.rd R.MEM.STAT_FRAME_PENDING h.val = 0 ∧
    (s.is R.MEM.STAT_FRAME_PENDING h.val = false → t.regs = s.regs) ∧
    (s.is R.MEM.STAT_FRAME_PENDING h.val = true → s.frameFault h.val = none →
      t.rd R.MEM.FRAME_CTL_ACTIVE_BUF h.val = (1 - s.rd R.MEM.FRAME_CTL_ACTIVE_BUF h.val) ∧ t.rd R.MEM.EVT_FRAME_SWAPPED h.val = 1 ∧
      RegsBut [(R.MEM.STAT_FRAME_PENDING, h.val), (R.MEM.FRAME_CTL_ACTIVE_BUF, h.val), (R.MEM.EVT_FRAME_SWAPPED, h.val)] s t) ∧
    (∀ slot r, s.is R.MEM.STAT_FRAME_PENDING h.val = true → s.frameFault h.val = some (slot, r) →
      t.rd R.MEM.FRAME_ERR_REASON h.val = r % 16 ∧ t.rd R.MEM.EVT_FRAME_REFUSED h.val = 1 ∧
      (∀ i, slot = some i → t.rd R.MEM.FRAME_ERR_SLOT h.val = i % 2 ^ 14) ∧
      RegsBut [(R.MEM.STAT_FRAME_PENDING, h.val), (R.MEM.FRAME_ERR_SLOT, h.val), (R.MEM.FRAME_ERR_REASON, h.val),
        (R.MEM.EVT_FRAME_REFUSED, h.val)] s t)) ∧
  (∀ (h : Fin 4) (s : State), (s.en .mem h.val = false → exec (.refreshSlot h) s = .next s) ∧
    (s.en .mem h.val = true → s.tooFast h.val = false → ∃ t, exec (.refreshSlot h) s = .next t ∧ t = { s with hubs := t.hubs } ∧
      t.hub h.val = { s.hub h.val with
        bank := (s.hub h.val).bank + 1, slotPos := (t.hub h.val).slotPos, begun := (t.hub h.val).begun, used := (t.hub h.val).used
        overrun := (t.hub h.val).overrun, taken := (t.hub h.val).taken, lastRef := (s.channels h.val).map (fun c => (c, s.clk.devTime)) } ∧
      ∀ i, i ≠ h.val → t.hub i = s.hub i)) ∧
  (∀ (h : Fin 4) (c : Fin 128) (s : State), (s.en .mem h.val = false ∨ c.val ∉ s.channels h.val ∨
      s.clk.devTime < AMap.getD (s.hub h.val).lastRef c.val 0 + s.rd R.MEM.REF_TMAX h.val → exec (.forcedRefresh h c) s = .next s) ∧
    (s.en .mem h.val = true → c.val ∈ s.channels h.val →
      AMap.getD (s.hub h.val).lastRef c.val 0 + s.rd R.MEM.REF_TMAX h.val ≤ s.clk.devTime → ∃ t, exec (.forcedRefresh h c) s = .next t ∧
      t = { s with regs := t.regs, hubs := t.hubs } ∧ t.rd R.MEM.EVT_FORCED_REFRESH h.val = 1 ∧
      t.rd R.MEM.FORCED_REF_CNT h.val = min (s.rd R.MEM.FORCED_REF_CNT h.val + 1) (2 ^ R.MEM.FORCED_REF_CNT.width - 1) ∧
      ∀ i, (s.frameAct h.val).nextSlot (s.hub h.val).comes (· != 13) = some i →
        AMap.getD (t.hub h.val).taken c.val 0 = i + 1 ∧ AMap.getD (t.hub h.val).lastRef c.val 0 = s.clk.devTime ∧
        (12 ≤ feOwner ((s.frameAct h.val).at i) → RegsBut [(R.MEM.EVT_FORCED_REFRESH, h.val), (R.MEM.FORCED_REF_CNT, h.val)] s t) ∧
        (∀ p, feOwner ((s.frameAct h.val).at i) = p → p < 12 → t.rd R.GLB.EVT_ND_EVENT p = 1 ∧
          t.rd R.GLB.ND_FORCED_REF p = min (s.rd R.GLB.ND_FORCED_REF p + 1) (2 ^ R.GLB.ND_FORCED_REF.width - 1)))) ∧
  (∀ (h : Fin 4) (c : Fin 128) (s : State),
    (s.en .mem h.val = false ∨ s.inDoze = true ∨ c.val ∉ s.channels h.val → exec (.scrubSlot h c) s = .next s) ∧
    (s.en .mem h.val = true → s.inDoze = false → c.val ∈ s.channels h.val → s.tooFast h.val = false →
      s.isTaken h.val c.val (s.scrubPlace h.val c.val) = true → ∃ t, exec (.scrubSlot h c) s = .next t ∧ t = { s with hubs := t.hubs } ∧
        AMap.getD (t.hub h.val).taken c.val 0 = 0) ∧
    (s.en .mem h.val = true → s.inDoze = false → c.val ∈ s.channels h.val → s.tooFast h.val = false →
      (∀ e ∈ (s.hub h.val).taken, e.1 = c.val → e.2 ≠ s.scrubPlace h.val c.val + 1) →
      (∀ b poison l, AMap.getD s.memWb (128 * h.val + c.val) [] = (b, poison) :: l → ∃ t, exec (.scrubSlot h c) s = .next t ∧
        AMap.getD t.memWb (128 * h.val + c.val) [] = l ∧ t.errOf b = [] ∧
        (poison = false ∨ rsDecode (s.errOf b) ≠ .failed → t.mem = s.mem) ∧
        (poison = true → rsDecode (s.errOf b) = .failed → t.mrd (64 * b) 64 = s.asRead b ∧
          ∀ a, a < 64 * b ∨ 64 * b + 64 ≤ a → t.mrd a 1 = s.mrd a 1) ∧
        (poison = true → AMap.getD t.poi b 0 = 1) ∧ (poison = false → t.poi = s.poi ∧ t.regs = s.regs)) ∧
      (let i := AMap.getD (s.hub h.val).patrol c.val 0
       let b := s.patrolBurst h.val c.val (i % channelBursts)
       AMap.getD s.memWb (128 * h.val + c.val) [] = [] → AMap.getD s.poi b 0 = 0 → ∃ t, exec (.scrubSlot h c) s = .next t ∧ t.mem = s.mem ∧
        AMap.getD (t.hub h.val).patrol c.val 0 = (i + 1) % channelBursts ∧
        (rsDecode (s.errOf b) = .clean → s.mbad (64 * b) 64 = false → i + 1 < channelBursts → t = { s with hubs := t.hubs }) ∧
        (rsDecode (s.errOf b) = .clean → channelBursts ≤ i + 1 → c.val = s.firstChannel h.val → t.rd R.MEM.EVT_SCRUB_PASS h.val = 1) ∧
        (rsDecode (s.errOf b) = .corrected → s.mbad (64 * b) 64 = false → t.rd R.MEM.EVT_CE (hubOfAddr (64 * b)) = 1 ∧
          t.rd R.MEM.CE_CNT (hubOfAddr (64 * b)) = min (s.rd R.MEM.CE_CNT (hubOfAddr (64 * b)) + 1) (2 ^ R.MEM.CE_CNT.width - 1)) ∧
        (rsDecode (s.errOf b) = .failed → t.rd R.MEM.EVT_UE (hubOfAddr (64 * b)) = 1 ∧
          t.rd R.MEM.ERR_ADDR (hubOfAddr (64 * b)) = 64 * b % 2 ^ R.MEM.ERR_ADDR.width ∧
          t.rd R.MEM.UE_CNT (hubOfAddr (64 * b)) = min (s.rd R.MEM.UE_CNT (hubOfAddr (64 * b)) + 1) (2 ^ R.MEM.UE_CNT.width - 1))))) ∧
  (∀ (h : Fin 4) (c : Fin 128) (slot : Nat) (s : State),
    (s.en .mem h.val = false ∨ s.inDoze = true ∨ c.val ∉ s.channels h.val ∨ (s.frameAct h.val).len ≤ slot →
      exec (.stepSlot h c slot) s = .next s) ∧
    (let e := (s.frameAct h.val).at slot
     s.en .mem h.val = true → s.inDoze = false → c.val ∈ s.channels h.val → slot < (s.frameAct h.val).len → s.tooFast h.val = false →
      (AMap.getD (s.hub h.val).taken c.val 0 = slot + 1 → ∃ t, exec (.stepSlot h c slot) s = .next t ∧ t = { s with hubs := t.hubs } ∧
        AMap.getD (t.hub h.val).taken c.val 0 = 0) ∧
      ((∀ e ∈ (s.hub h.val).taken, e.1 = c.val → e.2 ≠ slot + 1) → 12 ≤ feOwner e ∨ feUse e ≠ 0 ∨ s.planOf h.val (feOwner e) slot = none →
        ∃ t, exec (.stepSlot h c slot) s = .next t ∧ t = { s with hubs := t.hubs } ∧ (t.hub h.val).slotPos = slot) ∧
      (∀ entry cn x i, (∀ e ∈ (s.hub h.val).taken, e.1 = c.val → e.2 ≠ slot + 1) → feOwner e < 12 → feUse e = 0 →
        s.planOf h.val (feOwner e) slot = some entry →
        (s.ownCores (feOwner e)).findSome? (fun cn => (s.nextBurst h.val c.val entry (feDir e == 1) cn).map (fun b => (cn, b))) =
          some (cn, x, i) → inWin (x.mem + 64 * i) 64 = false →
        ∃ t, exec (.stepSlot h c slot) s = .next t ∧
          ((x.kind = .load ∧ s.mbad (x.mem + 64 * i) 64 = false) ∨ x.kind = .store → (∀ d, d ≠ cn → t.core d = s.core d) ∧
            (t.core cn).xfers = (s.core cn).xfers.map (fun y => if y = x then { y with moved := y.moved ++ [i] } else y)) ∧
          (x.kind = .load → s.mbad (x.mem + 64 * i) 64 = false →
            t.mem = s.mem ∧ (t.core cn).rd (x.scr + 64 * i) 64 = s.mrd (x.mem + 64 * i) 64) ∧
          (x.kind = .store → t.mrd (x.mem + 64 * i) 64 = (s.core cn).rd (x.scr + 64 * i) 64 ∧ (t.core cn).scratch = (s.core cn).scratch ∧
            ∀ a, a < x.mem + 64 * i ∨ x.mem + 64 * i + 64 ≤ a → t.mrd a 1 = s.mrd a 1))))

/-! ### Supply and power states -/

/-- What every fatal event leaves: FATAL in the page of every hub, with its flag, and a commit of every hub running (R334). -/
def Sys2Proof.Machine.fatalLeft (s t : State) : Prop :=
  (∀ h, h < 4 → t.rd R.RELG.STAT_FATAL h = 1 ∧ t.rd R.RELG.EVT_FATAL_EVT h = 1 ∧ (t.hub h).commit ≠ none) ∧ t.mem = s.mem

/-- The supply. A window gives each domain that is on its count, its governor's supply and its lock, and a partition is locked when all
its domains are, and not while one of them is off (log entry 121). A period shows the input power and moves the limiter's reduction by
one; power above the top limit for ten periods at the lowest pace quiets the partition. The power-fail warning, and an undervoltage
without it, fail loads, quiet partitions and commit the black box of every hub; its end notes the time. Overvoltage, a rail fault and a
parity failure in security state are fatal. Input outside its range resets the module, whose non-volatile cells stay (R303, R304, R334,
R356 to R364, R369 to R371). -/
def Obligations.SupplyAndFatalEvents : Prop :=
  (∀ (l : List Nat) (s : State), ∃ t, exec (.paceWindow l) s = .next t ∧ t.mem = s.mem ∧
    (∀ d, d < 16 → d < l.length → s.domainOn d = true →
      AMap.getD t.pwr.count d 0 = l.getD d 0 ∧
      AMap.getD t.pwr.volt d 0 = governor d (AMap.getD s.pwr.volt d 0) (l.getD d 0) (s.targetCount d) ∧
      t.rd R.PWR.PACE_STAT_LOCK (1 + d) = (if inBand (l.getD d 0) (s.targetCount d) then 1 else 0)) ∧
    (∀ d, d < 16 → d < l.length → s.domainOn d = false → AMap.getD t.pwr.count d 0 = 0 ∧ AMap.getD t.pwr.volt d 0 = retention d ∧
      t.rd R.PWR.PACE_STAT_LOCK (1 + d) = 0 ∧ ∀ p ∈ s.served d, t.rd R.GLB.STAT_LOCKED p = 0) ∧
    (∀ d, l.length ≤ d → AMap.getD t.pwr.count d 0 = AMap.getD s.pwr.count d 0 ∧ AMap.getD t.pwr.volt d 0 = AMap.getD s.pwr.volt d 0) ∧
    (∀ p, p < 12 → s.partExists p = true → (∀ d ∈ s.domainsOf p, t.is R.PWR.PACE_STAT_LOCK (1 + d) = true) → t.rd R.GLB.STAT_LOCKED p = 1)) ∧
  (∀ (w mv ma : Nat) (s : State), ∃ t, exec (.limiterPeriod w mv ma) s = .next t ∧ t.rd R.PWR.PIN_W 0 = min w 8191 ∧
    t.rd R.PWR.ENERGY 0 = min (s.rd R.PWR.ENERGY 0 + (s.pwr.energyMj + 10 * w) / 1000) (2 ^ R.PWR.ENERGY.width - 1) ∧
    t.pwr.energyMj = (s.pwr.energyMj + 10 * w) % 1000 ∧
    (s.capW < w → s.dLim < 35 → t.dLim = s.dLim + 1 ∧ t.rd R.PWR.EVT_LIMIT_STEP 0 = 1 ∧ t.pwr.lowRun = 0 ∧ t.rd R.PWR.STAT_LIMITING 0 = 1 ∧
      t.rd R.PWR.LIMIT_CNT 0 = min (s.rd R.PWR.LIMIT_CNT 0 + 1) (2 ^ R.PWR.LIMIT_CNT.width - 1)) ∧
    (100 * w < 97 * s.capW → (9 ≤ s.pwr.lowRun → t.dLim = (s.dLim - 1) % 64 ∧ t.pwr.lowRun = 0) ∧
      (s.pwr.lowRun < 9 → t.dLim = s.dLim ∧ t.pwr.lowRun = s.pwr.lowRun + 1)) ∧
    (w ≤ 4400 → t.parts = s.parts ∧ t.hubs = s.hubs ∧ t.mem = s.mem ∧ t.pwr.overRun = 0) ∧
    (4400 < w → (∀ d, d < 16 → s.eff d = 32) → s.pwr.overRun = 9 → t.pwr.overRun = 10 ∧ t.rd R.PWR.EVT_OVER_LIMIT 0 = 1 ∧
      ∀ p, p < 12 → s.partExists p = true → (∀ q, q < 12 → s.partExists q = true → q = p) → (s.part p).step.phase = .idle → t.partState p = 2)) ∧
  (∀ (c : Instr) (mv : Nat) (s : State), c = .powerFailWarning ∨ c = .inputUndervoltage mv ∧ mv < 38000 →
    ∃ t, exec c s = .next t ∧ t.is R.PWR.STAT_PFW 0 = true ∧ (c = .inputUndervoltage mv → t.rd R.PWR.VIN_MV 0 = mv / 10) ∧
      (s.is R.PWR.STAT_PFW 0 = true → t = { s with regs := t.regs } ∧ RegsBut [(R.PWR.VIN_MV, 0)] s t) ∧
      (s.is R.PWR.STAT_PFW 0 = false → t.rd R.PWR.EVT_PFW_ASSERT 0 = 1 ∧
        t.rd R.PWR.PFW_CNT 0 = min (s.rd R.PWR.PFW_CNT 0 + 1) (2 ^ R.PWR.PFW_CNT.width - 1) ∧ (∀ h, h < 4 → (t.hub h).commit ≠ none) ∧
        ((∀ p, p < 12 → s.partExists p = true → (s.part p).step.phase = .idle) → t.pwr.move = (if s.pwr.move = 2 then 3 else s.pwr.move)) ∧
        (s.testing = true → t.rd R.BST.STAT_STATE 0 = 3 ∧ t.rd R.BST.EVT_ABORTED 0 = 1) ∧
        ∀ p, p < 12 → s.partExists p = true → (∀ q, q < 12 → s.partExists q = true → q = p) → (s.part p).step.phase = .idle →
          t.partState p = 2 ∧ (t.part p).load = none)) ∧
  (∀ (mv : Nat) (s : State), 38000 ≤ mv → exec (.inputUndervoltage mv) s = .next s) ∧
  (∀ s : State, (s.is R.PWR.STAT_PFW 0 = false → exec .pfwDeassert s = .next s) ∧
    (s.is R.PWR.STAT_PFW 0 = true → ∃ t, exec .pfwDeassert s = .next t ∧ t = { s with regs := t.regs, pwr := t.pwr } ∧
      t.pwr = { s.pwr with pfwEnd := some s.clk.devTime } ∧ t.rd R.PWR.STAT_PFW 0 = 0 ∧ t.rd R.PWR.EVT_PFW_DEASSERT 0 = 1 ∧
      RegsBut [(R.PWR.STAT_PFW, 0), (R.PWR.EVT_PFW_DEASSERT, 0)] s t)) ∧
  (∀ (mv : Nat) (s : State), (mv ≤ 59500 → exec (.inputOvervoltage mv) s = .next s) ∧
    (59500 < mv → ∃ t, exec (.inputOvervoltage mv) s = .next t ∧ fatalLeft s t)) ∧
  (∀ (h : Fin 4) (x : Nat) (s : State), (∃ t, exec (.railFault h x) s = .next t ∧ fatalLeft s t) ∧
    ∃ t, exec (.securityParityFailure h x) s = .next t ∧ fatalLeft s t) ∧
  (∀ (mv : Nat) (s : State), (40000 ≤ mv → mv ≤ 58000 → exec (.inputLoss mv) s = .next s) ∧
    (mv < 40000 ∨ 58000 < mv → ∃ t, exec (.inputLoss mv) s = .next t ∧
      t = { State.reset with nv := t.nv, free := t.free, pending := s.pending, clk := { cause := 1, refOn := s.clk.refOn } } ∧
      ((∀ h, h < 4 → (s.hub h).commit = none) → s.testing = false → t.nv = s.nv)))

/-- Power states. QUIET and ACTIVE act on the selected partition, and do nothing where PART names none (log entry 28). QUIET holds the
partition's stacks, pauses their programming and shows its state, at once or after the step that runs, and gives up a return to ACTIVE
that runs; ACTIVE starts the rise of its rails, which are on from then, and is refused at a thermal trip, in DOZE, while the module
changes and at the warning; its end shows the partition and its stacks active. DOZE is refused while anything it names runs; else the
ports go down and the change runs. WAKE is refused outside DOZE, and the hubs' rails are on from it. The end of a change shows the
module's state; a return from DOZE that met the power-fail warning ends in DOZE (R345, R358, R365 to R368, R372, R373). -/
def Obligations.PowerStates : Prop :=
  ∀ s : State,
    (∀ c : Instr, c = .quiet ∨ c = .active → s.pwrPart = none → exec c s = .next s) ∧
    (∀ p, s.pwrPart = some p →
      (s.partState p = 2 → p ∉ s.pwr.rising → exec .quiet s = .next s) ∧
      (s.partState p ≠ 2 ∨ p ∈ s.pwr.rising → s.stepRuns p = true → ∃ t, exec .quiet s = .next t ∧ t = { s with parts := t.parts } ∧
        t.part p = { s.part p with quietPend := true } ∧ ∀ q, q ≠ p → t.part q = s.part q) ∧
      (s.partState p ≠ 2 ∨ p ∈ s.pwr.rising → s.stepRuns p = false → ∃ t, exec .quiet s = .next t ∧ t.mem = s.mem ∧ t.partState p = 2 ∧
        p ∉ t.pwr.rising ∧
        (∀ q, q < 12 → q ≠ p → t.partState q = s.partState q) ∧ t.rd R.PWR.EVT_STATE_DONE 0 = 1 ∧
        (∀ k ∈ s.stacksOf p, t.stackState k = 2 ∧ (t.stk k).stopArm = true ∧ (t.stk k).bias = [] ∧ (t.stk k).calRun = [] ∧ (t.stk k).calHold = false ∧
          t.progPaused k = true) ∧
        (∀ k, k ∉ s.stacksOf p → t.stk k = s.stk k)) ∧
      (s.tripped p = true ∨ s.rd R.PWR.STAT_MOD_STATE 0 = 3 ∨ s.pwr.move ≠ 0 ∨ s.is R.PWR.STAT_PFW 0 = true →
        ∃ t, exec .active s = .next t ∧ t = { s with regs := t.regs } ∧ t.rd R.PWR.EVT_STATE_REFUSED 0 = 1 ∧
          RegsBut [(R.PWR.EVT_STATE_REFUSED, 0)] s t) ∧
      (s.tripped p = false → s.rd R.PWR.STAT_MOD_STATE 0 ≠ 3 → s.pwr.move = 0 → s.is R.PWR.STAT_PFW 0 = false → s.pwr.pfwEnd = none →
        s.is R.PWR.EVT_OVER_LIMIT 0 = false → s.testing = false →
        (s.partState p = 1 → exec .active s = .next s) ∧
        (s.partState p ≠ 1 → ∃ t, exec .active s = .next t ∧ t = { s with regs := t.regs, pwr := t.pwr } ∧
          t.pwr = { s.pwr with rising := s.pwr.rising.filter (· != p) ++ [p] } ∧ t.rd R.PWR.STAT_TRANSITION 0 = 1 ∧
          RegsBut [(R.PWR.STAT_TRANSITION, 0)] s t ∧
          (s.clk.released = true → s.rd R.PWR.STAT_MOD_STATE 0 = 1 → ∀ d, d < 12 → s.owns p d = true → t.domainOn d = true)))) ∧
    (∀ p : Fin 12, (p.val ∉ s.pwr.rising → exec (.stateDone (some p)) s = .next s) ∧
      (p.val ∈ s.pwr.rising → ∃ t, exec (.stateDone (some p)) s = .next t ∧ t.mem = s.mem ∧ t.partState p.val = 1 ∧
        (∀ q, q < 12 → q ≠ p.val → t.partState q = s.partState q) ∧ t.rd R.PWR.EVT_STATE_DONE 0 = 1 ∧
        t.pwr.rising = s.pwr.rising.filter (· != p.val) ∧
        ∀ k ∈ s.stacksOf p.val, t.stackState k = 1 ∧ t.stk k = { s.stk k with stopArm := false })) ∧
    (s.pwr.move = 0 → exec (.stateDone none) s = .next s) ∧
    (s.pwr.move = 3 → ∃ t, exec (.stateDone none) s = .next t ∧ t = { s with regs := t.regs, pwr := t.pwr } ∧
      t.pwr = { s.pwr with move := 0 } ∧ RegsBut [(R.PWR.STAT_TRANSITION, 0)] s t) ∧
    (s.pwr.move ≠ 0 → s.pwr.move ≠ 3 → ∃ t, exec (.stateDone none) s = .next t ∧ t.pwr.move = 0 ∧ t.rd R.PWR.EVT_STATE_DONE 0 = 1 ∧ t.mem = s.mem ∧
      t.parts = s.parts ∧ t.stks = s.stks ∧ t.rd R.PWR.STAT_MOD_STATE 0 = (if s.pwr.move = 1 then 3 else 1)) ∧
    (s.dozeRefused = true → ∃ t, exec .doze s = .next t ∧ t = { s with regs := t.regs } ∧ t.rd R.PWR.EVT_STATE_REFUSED 0 = 1 ∧
      RegsBut [(R.PWR.EVT_STATE_REFUSED, 0)] s t) ∧
    (s.dozeRefused = false → (∀ p, p < 12 → s.stepRuns p = false) → ∃ t, exec .doze s = .next t ∧ t.mem = s.mem ∧
      (s.fab.qps = [] → t.parts = s.parts) ∧ t.pwr = { s.pwr with move := 1 } ∧
      t.rd R.PWR.STAT_TRANSITION 0 = 1 ∧ ∀ n, n < 16 → t.rd R.FAB.STAT_LINK_UP n = 0 ∧ t.rd R.FAB.STAT_TRAINING n = 0) ∧
    (s.rd R.PWR.STAT_MOD_STATE 0 ≠ 3 ∨ s.pwr.move ≠ 0 → ∃ t, exec .wake s = .next t ∧ t = { s with regs := t.regs } ∧
      t.rd R.PWR.EVT_STATE_REFUSED 0 = 1 ∧ RegsBut [(R.PWR.EVT_STATE_REFUSED, 0)] s t) ∧
    (s.rd R.PWR.STAT_MOD_STATE 0 = 3 → s.pwr.move = 0 → ∃ t, exec .wake s = .next t ∧ t = { s with regs := t.regs, pwr := t.pwr } ∧
      t.pwr = { s.pwr with move := 2 } ∧ t.rd R.PWR.STAT_TRANSITION 0 = 1 ∧ RegsBut [(R.PWR.STAT_TRANSITION, 0)] s t ∧
      (s.clk.released = true → ∀ h, h < 4 → t.domainOn (12 + h) = true))

/-! ### Reports and repair -/

/-- Reports. A window closes 1 ms of device time after it opened and emits its record, a record of severity 3 also commits. PUSH emits the
firmware's record, COMMIT takes a snapshot of the ring unless a commit runs, and at its end the snapshot is in the oldest slot of the
hub's log stack with the next number; a reset that waited for it happens (R329 to R333, R494). -/
def Obligations.ReportsAndBlackBox : Prop :=
  ∀ (h : Fin 4) (s : State),
    (∀ w, (if w < 64 then (s.hub h.val).windows[w]? else (s.hub h.val).overflow) = none →
      exec (.coalescingWindowClose h w) s = .next s) ∧
    (∀ w x, (if w < 64 then (s.hub h.val).windows[w]? else (s.hub h.val).overflow) = some x → s.passed x.opened 1000000 = false →
      exec (.coalescingWindowClose h w) s = .next s) ∧
    (∀ w x, (if w < 64 then (s.hub h.val).windows[w]? else (s.hub h.val).overflow) = some x → s.passed x.opened 1000000 = true →
      ∃ t, exec (.coalescingWindowClose h w) s = .next t ∧ t.mem = s.mem ∧ t.parts = s.parts ∧
        (x.rep.sev = 3 → (t.hub h.val).commit ≠ none ∧ (t.hub h.val).windows = []) ∧
        (x.rep.sev ≠ 3 → t.rd R.RELG.RECORDS h.val = min (s.rd R.RELG.RECORDS h.val + 1) (2 ^ R.RELG.RECORDS.width - 1) ∧
          (t.hub h.val).ring = ((s.hub h.val).ring ++ [x.rep.image]).drop ((s.hub h.val).ring.length + 1 - 4096) ∧
          (t.hub h.val).windows = (if w < 64 then (s.hub h.val).windows.eraseIdx w else (s.hub h.val).windows) ∧
          (t.hub h.val).commit = (s.hub h.val).commit)) ∧
    (∃ t, exec (.push h) s = .next t ∧ t.mem = s.mem ∧ t.parts = s.parts ∧
      (let b := s.fwRecord h.val
       b.length = 32 ∧ b.take 8 = leBytes 8 s.clk.devTime ∧ (b.drop 8).take 2 = leBytes 2 0xFFFE ∧ byteAt b 16 = 0x30 ∧
       (byteAt b 17 = 3 → (t.hub h.val).commit ≠ none ∧ (t.hub h.val).windows = []) ∧
       (byteAt b 17 ≠ 3 → t.rd R.RELG.RECORDS h.val = min (s.rd R.RELG.RECORDS h.val + 1) (2 ^ R.RELG.RECORDS.width - 1) ∧
        (t.hub h.val).ring = ((s.hub h.val).ring ++ [b]).drop ((s.hub h.val).ring.length + 1 - 4096) ∧
        (t.hub h.val).windows = (s.hub h.val).windows ∧ (t.hub h.val).commit = (s.hub h.val).commit))) ∧
    ((s.hub h.val).commit ≠ none → exec (.commit h) s = .next s) ∧
    ((s.hub h.val).commit = none → ∃ t, exec (.commit h) s = .next t ∧ t.rd R.RELG.STAT_COMMITTING h.val = 1 ∧ t.mem = s.mem ∧ t.nv = s.nv ∧
      (t.hub h.val).windows = [] ∧ (t.hub h.val).overflow = none ∧
      (t.hub h.val).commit = some (s.clk.devTime, 3, (t.hub h.val).ring) ∧
      ((s.hub h.val).windows = [] → (s.hub h.val).overflow = none → (t.hub h.val).ring = (s.hub h.val).ring)) ∧
    ((s.hub h.val).commit = none → exec (.bbCommitted h) s = .next s) ∧
    (∀ at_ cause recs k, (s.hub h.val).commit = some (at_, cause, recs) → s.logStack h.val = k →
      ∃ t b, exec (.bbCommitted h) s = .next t ∧ AMap.get? t.nv.bb (4 * k + s.oldestSlot h.val) = some b ∧
        b.seq = s.topSeq h.val + 1 ∧
        b.bytes.take 28 = ascii "KWBLKBOX" ++ leBytes 8 b.seq ++ leBytes 8 at_ ++ leBytes 1 cause ++ leBytes 1 h.val ++ leBytes 2 recs.length ∧
        (b.bytes.drop 64).take recs.flatten.length = recs.flatten ∧
        (∀ i, i ≠ 4 * k + s.oldestSlot h.val → AMap.get? t.nv.bb i = AMap.get? s.nv.bb i) ∧
        (s.clk.resetHeld = false → (t.hub h.val).commit = none ∧ t.rd R.RELG.STAT_COMMITTING h.val = 0 ∧ t.rd R.RELG.EVT_BB_COMMITTED h.val = 1 ∧
          t.rd R.RELG.BB_COMMIT_CNT h.val = min (s.rd R.RELG.BB_COMMIT_CNT h.val + 1) (2 ^ R.RELG.BB_COMMIT_CNT.width - 1)) ∧
        (s.clk.resetHeld = true → (∀ i, i ≠ h.val → (s.hub i).commit = none) →
          t = { State.reset with nv := t.nv, free := t.free, pending := s.pending, clk := { cause := 2, refOn := s.clk.refOn } }))

/-- Detected errors and repair. An error is counted; in a unit that works for a step it is replayed before the cut, and is permanent when
the same origin has failed in the step or its replays are used up; the admission unit drops its oldest frame, a stack's tables keep the
error for their next evaluation, and the loader counts a failed attempt of the shard (log entry 41). A verdict's cover is fetched into the
lowest free slot; it is ready when every block of its footprint came, a shard whose digest or tag is bad is fetched again, and its repair
fails by the fourth such attempt or SHARD_TMO. A spare is programmed from a ready cover, or the request is refused; spare columns leave
the array's other cells as they were. Masks and marks of unavailable experts change at once for a partition without steps, else at the
boundary. The acts of a partition that does not exist are in the statement of register writes (R313 to R315, R319, R321, R322, R325 to R327,
R337, R481). -/
def Obligations.ErrorsAndRepair : Prop :=
  ∀ (p : Fin 12) (s : State),
    (∀ o : Origin, ∃ t, exec (.detectedError p o) s = .next t ∧ (o.unit ≠ 7 ∨ o.loc ≠ 1 → t.mem = s.mem) ∧
      (let h := o.inst % 4
       let st := (s.part p.val).step
       (o.unit ≠ 7 ∨ o.loc ≠ 1 ∨ (s.part p.val).inbox.length ≤ 1 ∨ MemClean s → t.rd R.RELG.EVT_DETECTED h = 1 ∧
        t.rd R.RELG.DETECTED_CNT h = min (s.rd R.RELG.DETECTED_CNT h + 1) (2 ^ R.RELG.DETECTED_CNT.width - 1)) ∧
       (s.beforeCut p.val = true → offStep o = false → o ∈ st.errors ∨ clampN 1 7 (s.rd R.REL.CTL_REPLAY_MAX p.val) ≤ st.replays →
          (t.part p.val).step.halted = true ∧ t.rd R.DCR.EVT_STEP_HALTED p.val = 1 ∧
          t.rd R.RELG.PERM_CNT h = min (s.rd R.RELG.PERM_CNT h + 1) (2 ^ R.RELG.PERM_CNT.width - 1)) ∧
       (s.beforeCut p.val = true → offStep o = false → o ∉ st.errors → st.replays < clampN 1 7 (s.rd R.REL.CTL_REPLAY_MAX p.val) →
          (t.part p.val).step.phase = .running ∧ (t.part p.val).step.replays = st.replays + 1 ∧ (t.part p.val).step.errors = st.errors ++ [o] ∧
          t.rd R.GLB.EVT_DISTURBED p.val = 1 ∧
          t.rd R.RELG.REPLAY_CNT h = min (s.rd R.RELG.REPLAY_CNT h + 1) (2 ^ R.RELG.REPLAY_CNT.width - 1)) ∧
       (s.beforeCut p.val = false → offStep o = false → t.parts = s.parts) ∧
       (s.stepRuns p.val = false → 1 ≤ o.unit → o.unit ≤ 4 → s.owns p.val (o.inst / 4) = true →
          (t.stk (o.inst / 4)).idleErr = (s.stk (o.inst / 4)).idleErr ++ [o]) ∧
       (o.unit = 5 → bits o.loc 26 6 ≠ 0 → s.beforeCut p.val = false → t.cores = s.cores) ∧
       (∀ i c, o.unit = 8 → o.loc.testBit 31 = true → (s.part p.val).repairs = [] → (s.part p.val).covers = [(i, c)] → c.ready = false →
          s.tmoOver (s.fetchInfo p.val) c.since = false → AMap.getD c.tries (o.loc % 2 ^ 31) 0 < 3 →
          (∃ x ∈ s.footprintBlks p.val c.stack c.array, x.2.shardKey = o.loc % 2 ^ 31 ∧ ∀ y ∈ c.tiers, y.1 ≠ x.1) →
          ∃ c', AMap.get? (t.part p.val).covers i = some c' ∧ c'.ready = false ∧
            AMap.getD c'.tries (o.loc % 2 ^ 31) 0 = AMap.getD c.tries (o.loc % 2 ^ 31) 0 + 1) ∧
       (∀ f, o.loc = 1 → o.unit = 7 → (s.part p.val).inbox = [f] → f.req = true → (t.part p.val).inbox = [] ∧
          t.rd R.SRV.REJECT_CNT p.val = min (s.rd R.SRV.REJECT_CNT p.val + 1) (2 ^ R.SRV.REJECT_CNT.width - 1)))) ∧
    (s.is R.REL.CTL_AUTO_REPAIR p.val = false ∨ s.en .rel p.val = false ∨ s.nextVerdict p.val = none ∨ s.clears p.val = true →
      exec (.coverFetch p) s = .next s) ∧
    (∀ v, s.clears p.val = false → s.is R.REL.CTL_AUTO_REPAIR p.val = true → s.en .rel p.val = true → s.nextVerdict p.val = some v →
      (∀ i, (List.range (s.rd R.REL.COVER_SLOTS p.val)).find? (fun i => (AMap.get? (s.part p.val).covers i).isNone) = some i →
        ∃ t, exec (.coverFetch p) s = .next t ∧ t.mem = s.mem ∧
          (let keys := ((s.footprintBlks p.val v.stack v.array).map (·.2.shardKey)).eraseDups
          (s.hasModel p.val = false ∨ s.canFetch p.val keys = false →
            t.rd R.REL.EVT_REPAIR_FAILED p.val = 1 ∧ (t.part p.val).covers = (s.part p.val).covers) ∧
          (s.hasModel p.val = true → s.canFetch p.val keys = true →
            AMap.get? (t.part p.val).covers i = some { stack := v.stack, array := v.array, since := s.clk.devTime } ∧
              t.rd R.REL.STAT_REPAIRING p.val = 1 ∧
            ∀ j, j ≠ i → AMap.get? (t.part p.val).covers j = AMap.get? (s.part p.val).covers j))) ∧
      ((List.range (s.rd R.REL.COVER_SLOTS p.val)).find? (fun i => (AMap.get? (s.part p.val).covers i).isNone) = none →
        s.rd R.REL.COVER_SLOTS p.val ≠ 0 → exec (.coverFetch p) s = .next s)) ∧
    (∀ (slot : Fin 32) (stored : List (Nat × List Byte)), (s.part p.val).repairs = [] →
      (s.clears p.val = true → exec (.coverReady p slot stored) s = .next s) ∧
      (s.clears p.val = false → ∃ t, exec (.coverReady p slot stored) s = .next t ∧
        (AMap.get? (s.part p.val).covers slot.val = none → t.mem = s.mem ∧ t.stks = s.stks ∧
          (t.part p.val).covers = (s.part p.val).covers ∧
          t.rd R.WLDG.FETCH_BYTES 0 = min (s.rd R.WLDG.FETCH_BYTES 0 + stored.foldl (fun a x =>
            a + x.2.length) 0) (2 ^ R.WLDG.FETCH_BYTES.width - 1)) ∧
        (∀ c, AMap.get? (s.part p.val).covers slot.val = some c → c.ready = false →
          (let want := (s.footprintBlks p.val c.stack c.array).filter (fun x => !c.tiers.any (fun y => y.1 == x.1))
           ((∀ x ∈ want, ∃ plain, s.shardGot p.val x.2.shardKey stored = .good plain) →
            t.rd R.REL.EVT_COVER_READY p.val = 1 ∧ ∃ c', AMap.get? (t.part p.val).covers slot.val = some c' ∧ c'.ready = true ∧
              c'.tiers.length = c.tiers.length + want.length) ∧
           (want ≠ [] → (∀ x ∈ want, s.shardGot p.val x.2.shardKey stored = .bad ∧ AMap.getD c.tries x.2.shardKey 0 < 3) →
            t.mem = s.mem ∧ ∃ c', AMap.get? (t.part p.val).covers slot.val = some c' ∧ c'.ready = false ∧ c'.tiers = c.tiers ∧
              ∀ x ∈ want, AMap.getD c'.tries x.2.shardKey 0 = AMap.getD c.tries x.2.shardKey 0 + 1) ∧
           (want ≠ [] → (∀ x ∈ want, s.gotFails p.val (AMap.getD c.tries x.2.shardKey 0) c.since (s.shardGot p.val x.2.shardKey stored) = true) →
            t.mem = s.mem ∧ t.rd R.REL.EVT_REPAIR_FAILED p.val = 1 ∧ AMap.get? (t.part p.val).covers slot.val = none) ∧
           (want ≠ [] → s.tmoOver (s.fetchInfo p.val) c.since = false → (∀ x ∈ want, s.shardGot p.val x.2.shardKey stored = .none) →
            t.mem = s.mem ∧ AMap.get? (t.part p.val).covers slot.val = some c))))) ∧
    (∀ (c : Instr) (mode : Nat), c = .spareArrayProgram p ∧ mode = 0 ∨ c = .spareColumnProgram p ∧ mode = 1 → s.partExists p.val = true →
      ∃ t, exec c s = .next t ∧ t.mem = s.mem ∧
        (let k := s.rd R.REL.SPARE_CTL_STACK p.val
         let a := s.rd R.REL.SPARE_CTL_ARRAY p.val
         let phys := if mode = 0 then s.rd R.REL.SPARE_PHYS p.val else (s.stk k).physOf a
         let cols := if mode = 0 then none else some ((s.stk k).newSpares phys)
         (s.coverOf p.val k a = none ∨ s.owns p.val k = false ∨ (s.part p.val).spareRun ≠ none ∨ mode = 0 ∧ isSpare phys = false →
            t = { s with regs := t.regs } ∧ t.rd R.REL.EVT_SPARE_REFUSED p.val = 1 ∧ t.rd R.REL.SPARE_STAT_STATE p.val = 3) ∧
         (∀ y, s.coverOf p.val k a = some y → s.owns p.val k = true → (s.part p.val).spareRun = none →
            (∀ x ∈ y.spareTiers cols, s.worn k phys x.1 = false) → mode = 1 ∨ isSpare phys = true ∧ (s.stk k).mapsSpare phys = false →
            (t.part p.val).spareRun = some (k, a, phys) ∧ (t.part p.val).spareCols = cols ∧ t.rd R.REL.SPARE_STAT_STATE p.val = 1 ∧
              t.rd R.REL.SPARE_STAT_FAILED p.val = 0 ∧
            t.rd R.REL.STAT_REPAIRING p.val = 1 ∧
            ∀ x ∈ y.spareTiers cols, AMap.get? (t.stk k).programming (tierKey phys x.1) = some 1 ∧ t.refMarked (nvKey k phys x.1) = false))) ∧
    (∀ trains failed, ((s.part p.val).spareRun = none → exec (.spareProgramEnd p trains failed) s = .next s) ∧
      (∀ k a phys, (s.part p.val).spareRun = some (k, a, phys) → s.progPaused k = true → exec (.spareProgramEnd p trains failed) s = .next s) ∧
      (∀ k a phys, (s.part p.val).spareRun = some (k, a, phys) → s.progPaused k = false →
        ∃ t, exec (.spareProgramEnd p trains failed) s = .next t ∧ t.mem = s.mem ∧
        (t.part p.val).spareRun = none ∧ t.rd R.REL.SPARE_STAT_FAILED p.val = min failed (2 ^ 24 - 1) ∧
        t.rd R.WLDG.TRAINS 0 = min (s.rd R.WLDG.TRAINS 0 + trains) (2 ^ R.WLDG.TRAINS.width - 1) ∧
        t.rd R.REL.EVT_SPARE_DONE p.val = 1 ∧ (failed = 0 → t.rd R.REL.SPARE_STAT_STATE p.val = 2) ∧
        (failed ≠ 0 → t.rd R.REL.SPARE_STAT_STATE p.val = 3 ∧ t.rd R.REL.EVT_SPARE_FAIL p.val = 1) ∧
        ∀ y x, s.coverOf p.val k a = some y → y.tiers = [x] → (s.part p.val).spareCols = none → failed = 0 →
          AMap.get? t.nv.cells (nvKey k phys x.1) =
            some { wmode := x.2.1, vals := x.2.2, spares := colEntries (s.stk k).colMap phys }) ∧
      (∀ k a phys y x cs old, (s.part p.val).spareRun = some (k, a, phys) → s.progPaused k = false → s.coverOf p.val k a = some y →
        y.tiers = [x] → (s.part p.val).spareCols = some cs → cs ≠ [] → failed = 0 → AMap.get? s.nv.cells (nvKey k phys x.1) = some old →
        ∃ t, exec (.spareProgramEnd p trains failed) s = .next t ∧ AMap.get? t.nv.cells (nvKey k phys x.1) =
          some { old with spares := cs ++ old.spares, failed := old.failed.filter (fun f => !cs.any (fun c => 2080 + c.2 == f.1)) })) ∧
    (s.partExists p.val = true → let k := s.rd R.REL.MASK_CTL_STACK p.val
     let a := s.rd R.REL.MASK_CTL_ARRAY p.val
     (s.owns p.val k = false ∨ AMap.getD (s.stk k).masked a 0 = 0 → exec (.maskClear p) s = .next s) ∧
     (s.owns p.val k = true → AMap.getD (s.stk k).masked a 0 ≠ 0 → ∃ t, exec (.maskClear p) s = .next t ∧ t.mem = s.mem ∧
       (s.unstepped p.val = false → t = { s with parts := t.parts } ∧ (t.part p.val).maskLift = (s.part p.val).maskLift ++ [(k, a)]) ∧
       (s.unstepped p.val = true → AMap.getD (t.stk k).masked a 0 = 0 ∧ (t.part p.val).maskLift = []))) ∧
    (∀ (c : Instr) (on : Bool), c = .unavailSet p ∧ on = true ∨ c = .unavailClear p ∧ on = false → s.partExists p.val = true →
      ∃ t, exec c s = .next t ∧
        (let l := s.rd R.REL.UNAVAIL_LAYER p.val
         let e := s.rd R.REL.UNAVAIL_EXPERT p.val
         let a := s.rd R.REL.UNAVAIL_BASE p.val + 8192 * l + e / 8
         (s.unstepped p.val = false → t = { s with parts := t.parts } ∧
            (t.part p.val).unavailPend = (s.part p.val).unavailPend ++ [(l, e, on)] ∧ (t.part p.val).unavail = (s.part p.val).unavail) ∧
         (s.unstepped p.val = true → (s.part p.val).unavailPend = [] → ((l, e) ∈ (t.part p.val).unavail ↔ on = true) ∧
            (∀ x, x ≠ (l, e) → (x ∈ (t.part p.val).unavail ↔ x ∈ (s.part p.val).unavail)) ∧
            (s.inPart p.val a 1 = true → (t.mval a 1).testBit (e % 8) = on ∧
              ∀ i, i < 8 → i ≠ e % 8 → (t.mval a 1).testBit i = (s.mval a 1).testBit i) ∧
            ∀ b, b ≠ a → t.mrd b 1 = s.mrd b 1))) ∧
    (s.partExists p.val = true → ∃ t, exec (.verdictPop p) s = .next t ∧ t = { s with parts := t.parts } ∧
      t.part p.val = { s.part p.val with verdicts := (s.part p.val).verdicts.tail } ∧ ∀ q, q ≠ p.val → t.part q = s.part q)

/-! ### Boot, identity and partitions -/

/-- The management record with a message queued for the bus owner, and its in-band interrupt where the controller has not disabled them
(R441, R442). -/
def Sys2Proof.Machine.State.told (s : State) (b : List Byte) : MgtSt :=
  { s.mgt with mctpOut := s.mgt.mctpOut ++ [b], ibi := if s.mgt.i3cOff % 2 = 0 then s.mgt.ibi ++ [0xAE] else s.mgt.ibi }

/-- Boot and updates. A release of reset starts the module from reset and device time at 0, samples the straps, decides the life-cycle state and completes an
interrupted burn, or is fatal; an accepted stage 1 runs, else the module is in RECOVERY; the clear of a returned module comes first. Reset
waits for running commits. Without the reference clock the ports are down, and they train when it returns. An update goes to slot A,
is checked when it is complete, and is activated only when the checks have passed (R356, R415, R419, R422, R446, R477, R494,
R506). -/
def Obligations.BootAndUpdates : Prop :=
  (∀ (straps : BitVec 5) (lanes : List Nat) (pfw : Bool) (s : State),
    (s.clk.released = true → exec (.resetRelease straps lanes pfw) s = .next s) ∧
    (s.clk.released = false → ∃ t, exec (.resetRelease straps lanes pfw) s = .next t ∧ t.clk.released = true ∧ t.clk.devTime = 0 ∧
      t.rd R.GLBG.STRAP_POSITION 0 = straps.toNat ∧ t.rd R.GLBG.STAT_RESET_CAUSE 0 = s.clk.cause % 4 ∧
      (pfw = true → t.is R.PWR.STAT_PFW 0 = true) ∧
      (∀ h, h < 4 → lanes.getD h 0 = 0 → t.rd R.NOC.STAT_HUB_LINK_UP h = 7 ∧ t.rd R.NOC.STAT_STACK_LINK_UP h = 7) ∧
      (lcDecide s.nv.lc = none → t.lcState = 4 ∧ ∀ h, h < 4 → t.rd R.RELG.STAT_FATAL h = 1) ∧
      (∀ st, lcDecide s.nv.lc = some st → t.lcState = st ∧ t.nv.lc = s.nv.lc.map (· ||| lcCode st) ∧
        (3 ≤ st → st ∉ s.nv.lcCleared → t.sec.retClear = List.range 12) ∧
        (st < 3 → s.nv.fw = [] → t.rd R.SECG.STAT_RECOVERY 0 = 1) ∧
        (st < 3 → t.rd R.SECG.STAT_RECOVERY 0 = 0 → t.stageOk 1 t.sec.stage1 = true ∧
          t.sec.stage1 = (t.fwSlot (t.rd R.SECG.STAT_BOOT_SLOT 0)).stage1)) ∧
      t.parts = State.reset.parts ∧ t.mem = State.reset.mem ∧ t.cores = State.reset.cores)) ∧
  (∀ s : State, ((∃ h, h < 4 ∧ (s.hub h).commit ≠ none) → exec .resetAssert s = .next { s with clk := { s.clk with resetHeld := true } }) ∧
    ((∀ h, h < 4 → (s.hub h).commit = none) → ∃ t, exec .resetAssert s = .next t ∧
      t = { State.reset with nv := t.nv, free := t.free, pending := s.pending, clk := { cause := 2, refOn := s.clk.refOn } } ∧
      (s.testing = false → t.nv = s.nv))) ∧
  (∀ s : State, (s.clk.refOn = false → exec .refclkLost s = .next s) ∧
    (s.clk.refOn = true → (∀ p, p < 12 → s.stepRuns p = false) → ∃ t, exec .refclkLost s = .next t ∧ t.clk = { s.clk with refOn := false } ∧
      t.mem = s.mem ∧ (s.fab.qps = [] → t.parts = s.parts) ∧
      (∀ n, n < 16 → t.rd R.FAB.STAT_LINK_UP n = 0 ∧ t.rd R.FAB.STAT_TRAINING n = 0) ∧
      (s.linkIsUp = true → t.rd R.HLK.STAT_LINK_UP 0 = 0 ∧ t.rd R.HLK.EVT_RETRAIN 0 = 1)) ∧
    (s.clk.refOn = true → exec .refclkReturn s = .next s) ∧
    (s.clk.refOn = false → ∃ t, exec .refclkReturn s = .next t ∧ t = { s with regs := t.regs, clk := { s.clk with refOn := true } } ∧
      ∀ n, n < 16 → t.rd R.FAB.STAT_TRAINING n =
        (if s.rd R.PWR.STAT_MOD_STATE 0 = 1 ∧ s.pwr.move = 0 ∧ s.en .fab n = true then 1 else 0))) ∧
  (∀ (k : Fin 12) (s : State), (k.val ∉ s.sec.retClear → exec (.returnClearEnd k) s = .next s) ∧
    (k.val ∈ s.sec.retClear → ∃ t, exec (.returnClearEnd k) s = .next t ∧ AMap.get? t.nv.tags k.val = none ∧ t.mem = s.mem ∧
      t.sec.retClear = s.sec.retClear.filter (· != k.val) ∧ (s.sec.retClear = [k.val] → s.lcState ∈ t.nv.lcCleared))) ∧
  (∀ (c : Fin 2) (o : Nat) (d : List Byte) (s : State),
    (s.lcState = 4 ∨ 4096 < d.length ∨ stageMax (c.val + 1) < o + d.length → exec (.firmwareUpdateData c o d) s = .next s) ∧
    (s.lcState ≠ 4 → d.length ≤ 4096 → o + d.length ≤ stageMax (c.val + 1) → ∃ t, exec (.firmwareUpdateData c o d) s = .next t ∧
      t = { s with nv := t.nv, mgt := { s.mgt with upd := true, updOk := false } } ∧
      (c.val = 0 → t.fwSlot 0 = { s.fwSlot 0 with stage1 := splice (s.fwSlot 0).stage1 o d }) ∧
      (c.val = 1 → t.fwSlot 0 = { s.fwSlot 0 with stage2 := splice (s.fwSlot 0).stage2 o d }) ∧
      (s.mgt.upd = true → t.fwSlot 1 = s.fwSlot 1) ∧
      (s.mgt.upd = false → s.rd R.SECG.STAT_RECOVERY 0 = 0 → s.rd R.SECG.STAT_BOOT_SLOT 0 = 0 → s.sec.stage1 ≠ [] →
        t.fwSlot 1 = { stage1 := s.sec.stage1, stage2 := s.sec.stage2 }))) ∧
  (∀ s : State, (s.mgt.upd = false → exec .verifyComplete s = .next s) ∧
    (s.mgt.upd = true → ∃ t, exec .verifyComplete s = .next t ∧ t.nv = s.nv ∧ t.mgt.updOk = s.updateOk ∧
      t.mgt.mctpOut = (s.told (pldmMsg 0x80 5 0x17 [if s.updateOk then 0 else 1])).mctpOut ∧
      t.mgt.ibi = (s.told (pldmMsg 0x80 5 0x17 [if s.updateOk then 0 else 1])).ibi ∧
      (s.updateOk = false ∨ s.is R.SECG.STAT_RECOVERY 0 = false → t = { s with mgt := t.mgt }) ∧
      (s.updateOk = true → s.is R.SECG.STAT_RECOVERY 0 = true → (s.fwSlot 0).stage1 ≠ [] →
        t.rd R.SECG.STAT_RECOVERY 0 = 0 ∧ t.rd R.SECG.STAT_BOOT_SLOT 0 = 0 ∧ t.sec.stage1 = (s.fwSlot 0).stage1 ∧ t.mgt.upd = false))) ∧
  (∀ (m : List Byte) (s : State), (4096 < m.length ∨ isPldm 5 0x1A m = true ∧ s.lcState = 4 → exec (.activateFirmware m) s = .next s) ∧
    (isPldm 5 0x1A m = true → m.length ≤ 4096 → s.lcState ≠ 4 → ∃ t, exec (.activateFirmware m) s = .next t ∧ t = { s with mgt := t.mgt } ∧
      (s.mgt.upd = true → s.mgt.updOk = true → byteAt m 4 = 0 →
        t.mgt = { s.told (pldmMsg (byteAt m 1 % 32) (byteAt m 2 % 64) (byteAt m 3) [0, 0, 0]) with upd := false }) ∧
      (s.mgt.upd = false ∨ s.mgt.updOk = false ∨ byteAt m 4 ≠ 0 →
        ∃ e, e ≠ 0 ∧ t.mgt = s.told (pldmMsg (byteAt m 1 % 32) (byteAt m 2 % 64) (byteAt m 3) [e]))))

/-- Fuses and identity. A life-cycle transition that its table allows, with no partition and none pending, burns its bits in every
copy. A verified stage 2 runs with its SVN shown. The fused SVN rises to the running one. A slot is revoked unless it signed the
running stage 2 or is the last. An identity is created once, in PROVISION, into a free bank (R415 to R417, R420, R421,
R423 to R425). -/
def Obligations.FusesAndIdentity : Prop :=
  ∀ s : State,
    (s.rd R.SECG.PART_STAT_EXISTS 0 ≠ 0 ∨ s.is R.SECG.STAT_LC_PENDING 0 = true ∨ s.lcAllowed (s.rd R.SECG.LC_CTL_TARGET 0) = false →
      ∃ t, exec .lcGo s = .next t ∧ t = { s with regs := t.regs } ∧ t.rd R.SECG.EVT_LC_REFUSED 0 = 1 ∧
        RegsBut [(R.SECG.EVT_LC_REFUSED, 0)] s t) ∧
    (s.rd R.SECG.PART_STAT_EXISTS 0 = 0 → s.is R.SECG.STAT_LC_PENDING 0 = false → s.lcAllowed (s.rd R.SECG.LC_CTL_TARGET 0) = true →
      ∃ t, exec .lcGo s = .next t ∧ t = { s with regs := t.regs, nv := { s.nv with lc := t.nv.lc } } ∧
        t.nv.lc = s.nv.lc.map (· ||| lcCode (s.rd R.SECG.LC_CTL_TARGET 0)) ∧ t.lcState = s.lcState ∧ t.rd R.SECG.STAT_LC_PENDING 0 = 1 ∧
        t.rd R.SECG.EVT_LC_DONE 0 = 1 ∧ RegsBut [(R.SECG.STAT_LC_PENDING, 0), (R.SECG.EVT_LC_DONE, 0)] s t) ∧
    (∃ t, exec .secVerify s = .next t ∧ t.rd R.SECG.EVT_VERIFY_DONE 0 = 1 ∧ t.nv = s.nv ∧ t.mem = s.mem ∧ t.stew = s.stew ∧
      (let o := s.rd R.SECG.VERIFY_ADDR 0 - stewBase
       let hdr := s.stewRd 0 o 272
       let b := hdr ++ s.stewRd 0 (o + 272) (fieldLE hdr 12 4)
       (s.rd R.SECG.VERIFY_ADDR 0 < stewBase ∨ stewSize < o + 272 + fieldLE hdr 12 4 ∨ (byteAt hdr 8 ≠ 1 ∧ byteAt hdr 8 ≠ 2) ∨
          s.stageOk (byteAt hdr 8) b = false → t.rd R.SECG.VERIFY_RESULT 0 = 2 ∧ t.sec = s.sec) ∧
       (stewBase ≤ s.rd R.SECG.VERIFY_ADDR 0 → o + 272 + fieldLE hdr 12 4 ≤ stewSize → s.stageOk (byteAt hdr 8) b = true →
          (byteAt hdr 8 = 1 → t.rd R.SECG.VERIFY_RESULT 0 = 1 ∧ t.sec = s.sec) ∧
          (byteAt hdr 8 = 2 → t.rd R.SECG.VERIFY_RESULT 0 = 1 ∧ t.sec.stage2 = b ∧ t.rd R.SECG.SVN_RUNNING 0 = stageSvn b)))) ∧
    (∃ t, exec .svnCommit s = .next t ∧ t = { s with regs := t.regs, nv := { s.nv with svn := t.nv.svn } } ∧
      t.nv.svn = max s.nv.svn (s.rd R.SECG.SVN_RUNNING 0) ∧ t.rd R.SECG.EVT_SVN_DONE 0 = 1 ∧
      (s.nv.svn < s.rd R.SECG.SVN_RUNNING 0 → t.rd R.SECG.SVN_FUSED 0 = s.rd R.SECG.SVN_RUNNING 0 % 128) ∧
      (s.rd R.SECG.SVN_RUNNING 0 ≤ s.nv.svn → t.rd R.SECG.SVN_FUSED 0 = s.rd R.SECG.SVN_FUSED 0) ∧
      RegsBut [(R.SECG.SVN_FUSED, 0), (R.SECG.EVT_SVN_DONE, 0)] s t) ∧
    (let k := s.rd R.SECG.KEY_REVOKE_SLOT 0
     (3 < k ∨ (s.sec.stage2 ≠ [] ∧ stageSlot s.sec.stage2 = k) ∨ (1 ≤ k ∧ ∀ i, 1 ≤ i → i ≤ 3 → (s.nv.revoked.testBit i = false ↔ i = k)) →
        exec .keyRevoke s = .next s) ∧
     (k ≤ 3 → s.sec.stage2 = [] ∨ stageSlot s.sec.stage2 ≠ k → k = 0 ∨ (∃ j, 1 ≤ j ∧ j ≤ 3 ∧ j ≠ k ∧ s.nv.revoked.testBit j = false) →
        ∃ t, exec .keyRevoke s = .next t ∧ t = { s with regs := t.regs, nv := { s.nv with revoked := t.nv.revoked } } ∧
          (∀ i, t.nv.revoked.testBit i = true ↔ s.nv.revoked.testBit i = true ∨ i = k) ∧
          t.rd R.SECG.KEY_STAT_REVOKED 0 = t.nv.revoked % 16 ∧ RegsBut [(R.SECG.KEY_STAT_REVOKED, 0)] s t)) ∧
    (∀ e : List Byte,
      (s.lcState ≠ 1 ∨ s.idSeed ≠ none ∨ (AMap.get? s.nv.banks 0 ≠ none ∧ AMap.get? s.nv.banks 1 ≠ none) →
        ∃ t, exec (.idCreate e) s = .next t ∧ t = { s with regs := t.regs } ∧ t.rd (fieldConfigRefused .secG) 0 = 1 ∧
          RegsBut [(fieldConfigRefused .secG, 0), (fieldRefusedCnt .secG, 0)] s t) ∧
      (s.lcState = 1 → s.nv.banks = [] → ∃ t, exec (.idCreate e) s = .next t ∧ t = { s with regs := t.regs, nv := t.nv } ∧
        t.rd R.SECG.STAT_ID_EXISTS 0 = 1 ∧ t.idSeed = some (shake256 e 57) ∧
        t.nv = { s.nv with banks := [(0, { seed := shake256 e 57, check := shake256 (shake256 e 57) 4, valid := true })] } ∧
        t.rd R.SECG.ID_PUB0 0 = fieldLE ((Config.ed448Public (shake256 e 57)).take 57) 0 4))

/-- Partitions. CREATE with PART of 12 or more, or with a reason of R430, is refused. Else the partition has its stacks, core sets and
tag, its position from the straps, and is complete at once when every stack bears its tag; other stacks are cleared first and then bear
it. While a CREATE clears stacks, a CREATE or DESTROY of another partition waits in write order until PART_CLEAR_DONE. DESTROY of a partition that is busy is refused with reason 6, of one that does not exist with 7; else its record, keys, ranges and
pages are gone, the memory of its ranges stands under the firmware's key, and the stacks keep their weights and tags. A SEND
for a partition that does not exist is only counted. A SEND while busy is refused, one without a message is answered with an error,
and one that comes after the host has lost the partition ends the mailbox's sessions (R430 to R433, R435, R437, R482). -/
def Obligations.PartitionsComeAndGo : Prop :=
  ∀ s : State,
    (s.partWaits (s.partReq true) = true →
      exec .partCreate s = .next { s with sec := { s.sec with partQ := s.sec.partQ ++ [s.partReq true] } }) ∧
    (s.partWaits (s.partReq false) = true →
      exec .partDestroy s = .next { s with sec := { s.sec with partQ := s.sec.partQ ++ [s.partReq false] } }) ∧
    (s.partWaits (s.partReq true) = false →
     let p := s.rd R.SECG.PART_CTL_PART 0
     let q := s.partReq true
     (12 ≤ p → ∃ t, exec .partCreate s = .next t ∧ t = { s with regs := t.regs, free := t.free } ∧ t.rd R.SECG.EVT_PART_REFUSED 0 = 1 ∧
        RegsBut [(R.SECG.PART_ERR, 0), (R.SECG.EVT_PART_REFUSED, 0)] s t) ∧
     (p < 12 → s.createReason q ≠ 0 → ∃ t, exec .partCreate s = .next t ∧ t = { s with regs := t.regs } ∧
        t.rd R.SECG.PART_ERR 0 = s.createReason q ∧ t.rd R.SECG.EVT_PART_REFUSED 0 = 1 ∧
        RegsBut [(R.SECG.PART_ERR, 0), (R.SECG.EVT_PART_REFUSED, 0)] s t) ∧
     (p < 12 → s.createReason q = 0 → ∃ t, exec .partCreate s = .next t ∧ t.mem = s.mem ∧ t.partExists p = true ∧
        (t.part p).stks = s.rd R.SECG.PART_STACKS 0 ∧ (t.part p).sets = s.namedSets ∧ (t.part p).tag = s.rd R.SECG.PART_TAG 0 ∧
        (t.part p).ranges = [] ∧ (t.part p).imgKeys = [] ∧ (t.part p).active = none ∧
        t.partState p = (if s.startsActive (s.rd R.SECG.PART_STACKS 0) then 1 else 2) ∧
        (∀ q, q < 12 → q ≠ p → t.part q = s.part q ∧ t.partExists q = s.partExists q) ∧
        ((∀ k ∈ maskBits 12 (s.rd R.SECG.PART_STACKS 0), AMap.getD s.nv.tags k 0 = s.rd R.SECG.PART_TAG 0) →
          (t.part p).clear = [] ∧ t.nv = s.nv ∧ t.rd R.SECG.EVT_PART_DONE 0 = 1) ∧
        (∀ k ∈ maskBits 12 (s.rd R.SECG.PART_STACKS 0), AMap.getD s.nv.tags k 0 ≠ s.rd R.SECG.PART_TAG 0 →
          AMap.get? (t.part p).clear k = some (if (s.stk k).selfcal.isSome then 0 else 1) ∧
          (t.rd R.SECG.PART_STAT_CLEARING 0).testBit p = true))) ∧
    (∀ p : Fin 12,
      ((s.part p.val).clear = [] → exec (.partClearDone p) s = .next s) ∧
      ((s.part p.val).clear ≠ [] → (∀ e ∈ (s.part p.val).clear, e.2 = 0 → (s.stk e.1).selfcal = none) → s.sec.partQ = [] →
        ∃ t, exec (.partClearDone p) s = .next t ∧ (t.part p.val).clear = [] ∧ t.rd R.SECG.EVT_PART_DONE 0 = 1 ∧ t.mem = s.mem ∧
          (∀ e ∈ (s.part p.val).clear, AMap.getD t.nv.tags e.1 0 = (s.part p.val).tag) ∧ ∀ q, q ≠ p.val → t.part q = s.part q) ∧
      (∀ r, (s.part p.val).clear ≠ [] → (∀ e ∈ (s.part p.val).clear, e.2 = 0 → (s.stk e.1).selfcal = none) →
        (∀ q, q ≠ p.val → (s.part q).clear = []) → s.sec.partQ = [r] →
        ∃ u, exec (.partClearDone p) { s with sec := { s.sec with partQ := [] } } = .next u ∧ exec (.partClearDone p) s = .next (u.partRun r))) ∧
    (s.partWaits (s.partReq false) = false →
     let p := s.rd R.SECG.PART_CTL_PART 0
     let r := if 12 ≤ p then 7 else s.destroyReason p
     (r ≠ 0 → ∃ t, exec .partDestroy s = .next t ∧ t = { s with regs := t.regs } ∧ t.rd R.SECG.PART_ERR 0 = r ∧
        t.rd R.SECG.EVT_PART_REFUSED 0 = 1 ∧ RegsBut [(R.SECG.PART_ERR, 0), (R.SECG.EVT_PART_REFUSED, 0)] s t) ∧
     (r = 0 → ∃ t, exec .partDestroy s = .next t ∧ t.partExists p = false ∧ t.part p = {} ∧ t.nv = s.nv ∧ p ∉ t.pwr.rising ∧
        (∀ a, (∀ x ∈ (s.part p).ranges, a < rangeBase x ∨ rangeBase x + rangeSize x ≤ a) → t.mrd a 1 = s.mrd a 1) ∧
        (∀ h, h < 4 → AMap.get? (t.hub h).keys p = none) ∧
        t.partState p = 0 ∧ t.rd R.SECG.EVT_PART_DONE 0 = 1 ∧ (∀ e ∈ t.sec.sessions, e.2.via ≠ p) ∧
        (∀ k ∈ s.stacksOf p, (t.stk k).pairs = [] ∧ (t.stk k).drift = []) ∧ (∀ c ∈ s.ownCores p, t.core c = {}) ∧
        (∀ n, n < 16 → (t.rd R.FAB.PORT_CFG_OWNERS n).testBit p = false) ∧
        (∀ f ∈ Page.srv.fields ++ Page.kve.fields ++ Page.dcr.fields ++ Page.wld.fields, t.rd f p = 0) ∧
        (∀ q, q < 12 → q ≠ p → t.part q = s.part q ∧ t.partExists q = s.partExists q))) ∧
    (∀ p : Fin 12,
      (s.partExists p.val = false → ∃ t, exec (.send p) s = .next t ∧ t = { s with regs := t.regs } ∧
        t.rd R.SECG.NOPART_CNT 0 = min (s.rd R.SECG.NOPART_CNT 0 + 1) (2 ^ R.SECG.NOPART_CNT.width - 1) ∧
        RegsBut [(R.SECG.NOPART_CNT, 0)] s t) ∧
      (s.partExists p.val = true → s.is R.SEC.STAT_BUSY p.val = true → ∃ t, exec (.send p) s = .next t ∧ t = { s with regs := t.regs } ∧
        t.rd (fieldConfigRefused .sec) p.val = 1 ∧ RegsBut [(fieldConfigRefused .sec, p.val), (fieldRefusedCnt .sec, p.val)] s t) ∧
      (s.partExists p.val = true → s.is R.SEC.STAT_BUSY p.val = false →
        ∃ t, exec (.send p) s = .next t ∧ t.mem = s.mem ∧ t.nv = s.nv ∧
          (p.val ∈ s.sec.lostHost → ∀ e ∈ t.sec.sessions, e.2.via ≠ p.val) ∧
          (s.rd R.SEC.MB_LEN p.val = 0 ∨ 2048 < s.rd R.SEC.MB_LEN p.val → t.rd R.SEC.STAT_BUSY p.val = 0 ∧ t.rd R.SEC.EVT_READY p.val = 1 ∧
            t.rd R.SEC.MB_RLEN p.val = 5 ∧ t.mboxRd p.val 5 = 5 :: spdmError 0x01 0) ∧
          (∀ r, 0 < s.rd R.SEC.MB_LEN p.val → s.rd R.SEC.MB_LEN p.val ≤ 2048 → p.val ∉ s.sec.lostHost →
            s.spdmOpen p.val (s.mboxRd p.val (s.rd R.SEC.MB_LEN p.val)) = some r → r.known = true → t = { s with regs := t.regs } ∧
              t.rd R.SEC.STAT_BUSY p.val = 1 ∧ RegsBut [(R.SEC.STAT_BUSY, p.val)] s t)))

/-! ### The SPDM responder -/

/-- The commands of the responder for one message, with the request code and, for a vendor-defined request, the opcode that each takes. -/
def Sys2Proof.Machine.spdmRows (via : SpdmVia) (m : List Byte) : List (Instr × Nat × Option Nat) :=
  [(.spdmGetVersion via m, 0x84, none), (.spdmGetCapabilities via m, 0xE1, none), (.spdmNegotiateAlgorithms via m, 0xE3, none),
   (.spdmGetDigests via m, 0x81, none), (.spdmGetCertificate via m, 0x82, none), (.spdmChallenge via m, 0x83, none),
   (.spdmGetMeasurements via m, 0xE0, none), (.spdmKeyExchange via m, 0xE4, none), (.spdmFinish via m, 0xE5, none),
   (.spdmHeartbeat via m, 0xE8, none), (.spdmKeyUpdate via m, 0xE9, none), (.spdmEndSession via m, 0xEC, none),
   (.spdmChunkSend via m, 0x85, none), (.spdmChunkGet via m, 0x86, none), (.spdmKeyDeliver via m, 0xFE, some 1),
   (.spdmKeyErase via m, 0xFE, some 2), (.spdmPubkeyAdd via m, 0xFE, some 0x10), (.spdmPubkeyRemove via m, 0xFE, some 0x11)]

/-- What the responder gave over MCTP outside a session: an answer, or, above the transfer size, LargeResponse with the answer kept; and an
in-band interrupt for it, unless the controller has disabled them. -/
def Sys2Proof.Machine.spdmGave (s t : State) (a : List Byte) : Prop :=
  t.mgt.ibi = (s.told (5 :: a)).ibi ∧ (a.length ≤ 2048 → t.mgt.mctpOut = s.mgt.mctpOut ++ [5 :: a]) ∧
    (2048 < a.length → t.mgt.mctpOut = s.mgt.mctpOut ++ [5 :: (spdmError 0x0F 0 ++ [0])] ∧ (t.conn 12).outBuf = a)

/-- The responder outside sessions. A message that is not a request of the command's kind changes nothing, nor does any in SCRAP or in a
mailbox that waits for no answer; a message of the bus owner of more than 4,096 bytes is not reassembled, and one of another type than the
module's is dropped and counted. Over MCTP each request has one answer: version, capabilities and algorithms in this order, digests,
certificates and challenges of slot 0 where the identity is in use, measurements by index, chunks, and an error where the order or the
request is wrong. The layouts are those of DSP0274, PRESUMED in log entry 56 (R416, R426 to R428,
R437, R442). -/
def Obligations.SpdmNegotiation : Prop :=
  (∀ (via : SpdmVia) (m : List Byte) (s : State) (x : Instr × Nat × Option Nat), x ∈ spdmRows via m →
    (via = .mctp → 4096 < m.length → exec x.1 s = .next s) ∧
    (via = .mctp → m.length ≤ 4096 → byteAt m 0 % 128 ∉ [0, 1, 5, 6] → exec x.1 s = .next (s.count R.MGT.MCTP_DROP_CNT 0)) ∧
    ((via = .mctp → byteAt m 0 % 128 ∈ [0, 1, 5, 6]) →
      s.spdmLive (viaNo via) = false ∨ s.spdmOpen (viaNo via) (s.spdmBody (viaNo via) m) = none → exec x.1 s = .next s) ∧
    (∀ r, s.spdmOpen (viaNo via) (s.spdmBody (viaNo via) m) = some r →
      (r.code ≠ x.2.1 ∨ (∃ o, x.2.2 = some o ∧ r.opcode ≠ o) → exec x.1 s = .next s) ∧
      (s.spdmLive (viaNo via) = true → (via = .mctp → m.length ≤ 4096) → r.code = x.2.1 → (∀ o, x.2.2 = some o → r.opcode = o) →
        ∃ t, exec x.1 s = .next t ∧ t.mem = s.mem ∧ (via = .mctp → r.sess = none → ∃ a, spdmGave s t a ∧
          (byteAt r.msg 0 ≠ 0x13 → r.code ≠ 0x84 → r.code ≠ 0x85 → r.code ≠ 0x86 → a = spdmError 0x41 0))))) ∧
  (∀ (m : List Byte) (s : State), m.length < 4096 → s.lcState ≠ 4 → byteAt m 1 = 0x84 →
    ∃ t, exec (.spdmGetVersion .mctp (5 :: m)) s = .next t ∧ spdmGave s t [0x10, 0x04, 0, 0, 0, 1, 0, 0x13] ∧ t.regs = s.regs ∧
      t.conn 12 = { stage := 1, vca := m ++ [0x10, 0x04, 0, 0, 0, 1, 0, 0x13] }) ∧
  (∀ (m : List Byte) (s : State), m.length < 4096 → s.lcState ≠ 4 → byteAt m 0 = 0x13 → byteAt m 1 = 0xE1 →
    ∃ t a, exec (.spdmGetCapabilities .mctp (5 :: m)) s = .next t ∧ spdmGave s t a ∧
      ((s.conn 12).stage = 0 → a = spdmError 0x04 0) ∧ (0 < (s.conn 12).stage → byteAt a 1 = 0x61 ∧ 2 ≤ (t.conn 12).stage)) ∧
  (∀ (m : List Byte) (s : State), m.length < 4096 → s.lcState ≠ 4 → byteAt m 0 = 0x13 → byteAt m 1 = 0xE3 →
    ∃ t a, exec (.spdmNegotiateAlgorithms .mctp (5 :: m)) s = .next t ∧ spdmGave s t a ∧
      ((s.conn 12).stage < 2 → a = spdmError 0x04 0) ∧
      (2 ≤ (s.conn 12).stage → (fieldLE m 8 4).testBit 11 = false ∨ (fieldLE m 12 4).testBit 5 = false → a = spdmError 0x01 0) ∧
      (2 ≤ (s.conn 12).stage → (fieldLE m 8 4).testBit 11 = true → (fieldLE m 12 4).testBit 5 = true →
        byteAt a 1 = 0x63 ∧ (t.conn 12).stage = 3)) ∧
  (∀ (m : List Byte) (s : State), m.length < 4096 → s.lcState ≠ 4 → byteAt m 0 = 0x13 → (s.conn 12).stage = 3 →
    (byteAt m 1 = 0x81 → s.certChain ≠ [] → ∃ t, exec (.spdmGetDigests .mctp (5 :: m)) s = .next t ∧
      spdmGave s t (spdmHead 0x01 1 1 ++ sha3_512 s.certChain)) ∧
    (byteAt m 1 = 0x82 → ∃ t a, exec (.spdmGetCertificate .mctp (5 :: m)) s = .next t ∧ spdmGave s t a ∧
      (s.idUse = false → a = spdmError 0x07 0x82) ∧
      (s.idUse = true → byteAt m 2 % 16 = 0 → fieldLE m 4 2 < s.certChain.length →
        byteAt a 1 = 0x02 ∧ a.drop 8 = (s.certChain.drop (fieldLE m 4 2)).take (min (fieldLE m 6 2) 2040))) ∧
    (byteAt m 1 = 0x83 → ∃ t a, exec (.spdmChallenge .mctp (5 :: m)) s = .next t ∧ spdmGave s t a ∧
      (s.idUse = false → a = spdmError 0x07 0x83) ∧ (s.idUse = true → byteAt m 2 % 16 = 0 → byteAt a 1 = 0x03 ∧
        sha3_512 s.certChain <+: a.drop 4)) ∧
    (byteAt m 1 = 0xE0 → ∃ t a, exec (.spdmGetMeasurements .mctp (5 :: m)) s = .next t ∧ spdmGave s t a ∧
      (byteAt m 3 ≠ 0 → byteAt m 3 ≠ 0xFF → byteAt m 3 ∉ s.measIndices 12 → a = spdmError 0x01 0) ∧
      (byteAt m 3 = 0 → byteAt a 1 = 0x60 ∧ byteAt a 2 = (s.measIndices 12).length % 256 ∧ byteAt a 4 = 0) ∧
      (byteAt m 3 ∈ s.measIndices 12 → byteAt m 3 ≠ 0 → byteAt m 3 ≠ 0xFF → byteAt a 1 = 0x60 ∧ byteAt a 4 = 1 ∧ byteAt a 8 = byteAt m 3)) ∧
    (byteAt m 1 = 0x85 → fieldLE m 4 2 = 0 → (byteAt m 2).testBit 0 = false → ((m.drop 16).take (fieldLE m 8 4)).length ≤ 4096 →
      ∃ t, exec (.spdmChunkSend .mctp (5 :: m)) s = .next t ∧ spdmGave s t (spdmHead 0x05 0 (byteAt m 3) ++ leBytes 2 0) ∧
        (t.conn 12).inBuf = (m.drop 16).take (fieldLE m 8 4) ∧ (t.conn 12).inNext = 1)) ∧
  (∀ (m : List Byte) (s : State), m.length < 4096 → s.lcState ≠ 4 → byteAt m 1 = 0x86 →
    ((s.conn 12).outBuf = [] ∨ fieldLE m 4 2 ≠ (s.conn 12).outNext →
      ∃ t, exec (.spdmChunkGet .mctp (5 :: m)) s = .next t ∧ spdmGave s t (spdmError 0x01 0) ∧ t.conn 12 = s.conn 12) ∧
    ((s.conn 12).outBuf ≠ [] → fieldLE m 4 2 = (s.conn 12).outNext →
      ∃ t a, exec (.spdmChunkGet .mctp (5 :: m)) s = .next t ∧ spdmGave s t a ∧ byteAt a 1 = 0x06 ∧
        (t.conn 12).outBuf = (s.conn 12).outBuf.drop 2032))

/-- Sessions and keys. A key exchange opens a session, at most 16; FINISH with the right data makes it open; a heartbeat counts a record
each way, a key update starts new keys, END_SESSION removes it, and these three outside a session are refused. In an open session a
delivered image key is held under its handle and an erased one is gone, publisher keys are added and removed over MCTP; outside a
session the status is REFUSED. The layouts are PRESUMED in log entry 56 (R427, R429, R435). -/
def Obligations.SpdmSessionsAndKeys : Prop :=
  (∀ (m : List Byte) (s : State), m.length < 4096 → s.lcState ≠ 4 → byteAt m 0 = 0x13 →
    (byteAt m 1 = 0xE4 → (s.conn 12).stage = 3 →
      (16 ≤ s.sec.sessions.length → ∃ t, exec (.spdmKeyExchange .mctp (5 :: m)) s = .next t ∧ spdmGave s t (spdmError 0x0A 0)) ∧
      (s.sec.sessions.length < 16 → 138 ≤ m.length → ∃ t id x, exec (.spdmKeyExchange .mctp (5 :: m)) s = .next t ∧
        AMap.get? t.sec.sessions id = some x ∧ x.via = 12 ∧ x.open_ = false ∧ id % 65536 = fieldLE m 4 2 ∧
        t.rd R.SECG.SESSIONS 0 = t.sec.sessions.length % 2 ^ R.SECG.SESSIONS.width ∧
        ∀ j, j ≠ id → AMap.get? t.sec.sessions j = AMap.get? s.sec.sessions j)) ∧
    (∀ (x : Instr × Nat), x ∈ [(Instr.spdmFinish .mctp (5 :: m), 0xE5), (Instr.spdmHeartbeat .mctp (5 :: m), 0xE8),
        (Instr.spdmKeyUpdate .mctp (5 :: m), 0xE9), (Instr.spdmEndSession .mctp (5 :: m), 0xEC)] → byteAt m 1 = x.2 →
      ∃ t, exec x.1 s = .next t ∧ spdmGave s t (spdmError 0x0B 0) ∧ t.sec = s.sec)) ∧
  (∀ (m : List Byte) (r : SpdmReq) (id : Nat) (x : Session) (s : State), m.length ≤ 4096 → s.lcState ≠ 4 → s.spdmOpen 12 m = some r →
    r.sess = some id →
    AMap.get? s.sec.sessions id = some x → byteAt r.msg 0 = 0x13 →
    (r.code = 0xE5 → x.open_ = false → r.msg.drop 4 = Config.verifyData x.secret (x.th ++ r.msg.take 4) true →
      ∃ t y, exec (.spdmFinish .mctp m) s = .next t ∧ AMap.get? t.sec.sessions id = some y ∧ y.open_ = true ∧ y.rx = 0 ∧ y.tx = 0) ∧
    (r.code = 0xE5 → x.open_ = false → r.msg.drop 4 ≠ Config.verifyData x.secret (x.th ++ r.msg.take 4) true →
      ∃ t, exec (.spdmFinish .mctp m) s = .next t ∧ AMap.get? t.sec.sessions id = some { x with rx := x.rx + 1, tx := x.tx + 1 }) ∧
    (x.open_ = true →
      (r.code = 0xE8 → ∃ t, exec (.spdmHeartbeat .mctp m) s = .next t ∧ t.nv = s.nv ∧ t.parts = s.parts ∧
        AMap.get? t.sec.sessions id = some { x with rx := x.rx + 1, tx := x.tx + 1 } ∧ t.mgt.mctpOut.length = s.mgt.mctpOut.length + 1) ∧
      (r.code = 0xE9 → byteAt r.msg 2 = 1 → ∃ t, exec (.spdmKeyUpdate .mctp m) s = .next t ∧
        AMap.get? t.sec.sessions id = some { x with reqGen := x.reqGen + 1, rx := 0, tx := x.tx + 1 }) ∧
      (r.code = 0xEC → ∃ t, exec (.spdmEndSession .mctp m) s = .next t ∧ AMap.get? t.sec.sessions id = none ∧
        t.rd R.SECG.SESSIONS 0 = t.sec.sessions.length % 2 ^ R.SECG.SESSIONS.width) ∧
      (r.code = 0xFE → vendorOurs r.msg = true →
        (let b := vendorPayload r.msg
         let p := byteAt b 2
         let h := fieldLE b 3 4
         (r.opcode = 0x0001 → b.length = 39 → h ≠ 0 → p < 12 → s.partExists p = true → (s.part p).imgKeys.length < 64 →
            AMap.get? (s.part p).imgKeys h = none → ∃ t, exec (.spdmKeyDeliver .mctp m) s = .next t ∧
              AMap.get? (t.part p).imgKeys h = some (b.drop 7) ∧ (∀ j, j ≠ h → AMap.get? (t.part p).imgKeys j = AMap.get? (s.part p).imgKeys j) ∧
              t.rd R.SEC.KEYS_HELD p = (t.part p).imgKeys.length % 2 ^ R.SEC.KEYS_HELD.width ∧ ∀ q, q ≠ p → t.part q = s.part q) ∧
         (r.opcode = 0x0002 → b.length = 7 → h ≠ 0 → p < 12 → s.partExists p = true → ∃ t, exec (.spdmKeyErase .mctp m) s = .next t ∧
            AMap.get? (t.part p).imgKeys h = none ∧ ∀ q, q ≠ p → t.part q = s.part q) ∧
         (r.opcode = 0x0010 → b.length = 59 → b.drop 2 ∉ s.nv.pubKeys → s.nv.pubKeys.length < 32 →
            ∃ t, exec (.spdmPubkeyAdd .mctp m) s = .next t ∧ t.nv = { s.nv with pubKeys := s.nv.pubKeys ++ [b.drop 2] } ∧
              t.rd R.SECG.PUBKEYS 0 = (s.nv.pubKeys.length + 1) % 2 ^ R.SECG.PUBKEYS.width) ∧
         (r.opcode = 0x0011 → b.length = 18 → (∀ q, q < 12 → (s.part q).load = none) →
            ∃ t, exec (.spdmPubkeyRemove .mctp m) s = .next t ∧
              t.nv = { s.nv with pubKeys := s.nv.pubKeys.filter (fun k => shake256 k 16 != b.drop 2) }))))) ∧
  (∀ (m : List Byte) (s : State), m.length < 4096 → s.lcState ≠ 4 → byteAt m 0 = 0x13 → byteAt m 1 = 0xFE → vendorOurs m = true →
    ∀ (x : Instr × Nat), x ∈ [(Instr.spdmKeyDeliver .mctp (5 :: m), 1), (Instr.spdmKeyErase .mctp (5 :: m), 2),
        (Instr.spdmPubkeyAdd .mctp (5 :: m), 0x10), (Instr.spdmPubkeyRemove .mctp (5 :: m), 0x11)] → fieldLE (vendorPayload m) 0 2 = x.2 →
      ∃ t, exec x.1 s = .next t ∧ spdmGave s t (vendorAnswer { via := 12, sess := none, msg := m } 1) ∧ t.nv = s.nv ∧ t.parts = s.parts)

/-! ### Management and self-tests -/

/-- The commands of one message of the bus owner outside SPDM: MCTP control, and PLDM. -/
def Sys2Proof.Machine.mctpRows (m : List Byte) : List Instr :=
  [.setEndpointId m, .getEndpointId m, .getEndpointUuid m, .getMctpVersionSupport m, .getMessageTypeSupport m, .getTid m, .setTid m,
   .getPldmVersion m, .getPldmTypes m, .getPldmCommands m, .getSensorReading m, .getStateSensorReadings m, .getPdrRepositoryInfo m,
   .getPdr m, .setEventReceiver m, .pollForPlatformEventMessage m, .platformEventMessageResponse m, .activateFirmware m]

/-- The steward watchdogs, the I3C target and MCTP control. A core that is not kicked for its period is reset, and lost at the third reset
in 10 s, when it is held; before that it starts again at the stage's entry. Events are enabled and disabled by mask, and an interrupt that
waited is raised; a target without a dynamic address takes one, by its static address too, RSTDAA removes it; every GET gives its data. A
message of more than 4,096 bytes is not reassembled, and one of a type that the module does not know is dropped and counted. An MCTP control
request of its own kind has its answer, any other message changes nothing. The layouts are PRESUMED in log entry 57
(R440 to R442, R457). -/
def Obligations.WatchdogsAndBus : Prop :=
  (∀ (h c : Fin 4) (s : State),
    (let key := 4 * h.val + c.val
     (s.rd R.MGT.STAT_STEWARD_OK h.val).testBit c.val = false ∨ s.clk.devTime < AMap.getD s.mgt.kicks key 0 + s.wdogNs h.val →
        exec (.watchdogExpiry h c) s = .next s) ∧
    (let key := 4 * h.val + c.val
     (s.rd R.MGT.STAT_STEWARD_OK h.val).testBit c.val = true → AMap.getD s.mgt.kicks key 0 + s.wdogNs h.val ≤ s.clk.devTime →
      ∃ t, exec (.watchdogExpiry h c) s = .next t ∧ t.mem = s.mem ∧ t.parts = s.parts ∧ AMap.getD t.mgt.kicks key 0 = s.clk.devTime ∧
        t.rd R.MGT.EVT_STEWARD_RESET h.val = 1 ∧
        (AMap.getD s.mgt.resets key [] = [] → AMap.get? t.mgt.started key = some (stewBase + s.mgt.entry)) ∧
        t.rd R.MGT.STEWARD_RST_CNT h.val = min (s.rd R.MGT.STEWARD_RST_CNT h.val + 1) (2 ^ R.MGT.STEWARD_RST_CNT.width - 1) ∧
        (AMap.getD s.mgt.resets key [] = [] → t.rd R.MGT.STAT_STEWARD_OK h.val = s.rd R.MGT.STAT_STEWARD_OK h.val) ∧
        (∀ a b l, AMap.getD s.mgt.resets key [] = a :: b :: l → s.clk.devTime < a + 10000000000 → s.clk.devTime < b + 10000000000 →
          (t.rd R.MGT.STAT_STEWARD_OK h.val).testBit c.val = false ∧ t.rd R.MGT.EVT_STEWARD_LOST h.val = 1 ∧
          AMap.get? t.mgt.started key = none ∧ t.present (.steward h c) = false))) ∧
  (∀ (h : Fin 4) (m : BitVec 4) (s : State), ∃ t, exec (.wdogKick h m) s = .next t ∧ t = { s with mgt := { s.mgt with kicks := t.mgt.kicks } } ∧
    (∀ c, c < 4 → m.getLsbD c = true → AMap.getD t.mgt.kicks (4 * h.val + c) 0 = s.clk.devTime) ∧
    (∀ k, (∀ c, c < 4 → m.getLsbD c = true → k ≠ 4 * h.val + c) → AMap.getD t.mgt.kicks k 0 = AMap.getD s.mgt.kicks k 0)) ∧
  (∀ (b : Byte) (s : State), (∃ t, exec (.i3cEnec b) s = .next t ∧ t = { s with mgt := { s.mgt with i3cOff := t.mgt.i3cOff, ibi := t.mgt.ibi } } ∧
      t.mgt.ibi = (if s.mgt.mctpOut ≠ [] ∧ s.mgt.i3cOff % 2 = 1 ∧ b.getLsbD 0 = true then s.mgt.ibi ++ [0xAE] else s.mgt.ibi) ∧
      ∀ i, t.mgt.i3cOff.testBit i = (s.mgt.i3cOff.testBit i && !b.getLsbD i)) ∧
    ∃ t, exec (.i3cDisec b) s = .next t ∧ t = { s with mgt := { s.mgt with i3cOff := t.mgt.i3cOff } } ∧
      ∀ i, t.mgt.i3cOff.testBit i = (s.mgt.i3cOff.testBit i || b.getLsbD i)) ∧
  (∀ (a : Fin 128) (sa : Fin 128) (s : State), let pair : DasaPair := { static_ := sa, addr := a }
    (∃ t, exec .i3cRstdaa s = .next t ∧ t = { s with regs := t.regs } ∧ t.rd R.MGT.I3C_STAT_DYN_ADDR 0 = 0 ∧
      t.rd R.MGT.STAT_I3C_ADDR_VALID 0 = 0 ∧ RegsBut [(R.MGT.I3C_STAT_DYN_ADDR, 0), (R.MGT.STAT_I3C_ADDR_VALID, 0)] s t) ∧
    (s.is R.MGT.STAT_I3C_ADDR_VALID 0 = true → exec (.i3cEntdaa a) s = .next s) ∧
    (s.is R.MGT.STAT_I3C_ADDR_VALID 0 = true ∨ sa.val ≠ 0x30 + s.rd R.GLBG.STRAP_POSITION 0 % 8 → exec (.i3cSetdasa pair) s = .next s) ∧
    (s.is R.MGT.STAT_I3C_ADDR_VALID 0 = false →
      (sa.val = 0x30 + s.rd R.GLBG.STRAP_POSITION 0 % 8 → ∃ t, exec (.i3cSetdasa pair) s = .next t ∧ t = { s with regs := t.regs } ∧
        t.rd R.MGT.I3C_STAT_DYN_ADDR 0 = a.val ∧
        t.rd R.MGT.STAT_I3C_ADDR_VALID 0 = (if a.val = 0 then 0 else 1) ∧
          RegsBut [(R.MGT.I3C_STAT_DYN_ADDR, 0), (R.MGT.STAT_I3C_ADDR_VALID, 0)] s t) ∧
      ∃ t, exec (.i3cEntdaa a) s = .next t ∧ t.rd R.MGT.I3C_STAT_DYN_ADDR 0 = a.val ∧
        t.rd R.MGT.STAT_I3C_ADDR_VALID 0 = (if a.val = 0 then 0 else 1) ∧
        ∃ x, t.mgt = { s.mgt with i3cOut := s.mgt.i3cOut ++ [s.pid ++ [0x06, x]] })) ∧
  (∀ s : State,
    exec .i3cGetpid s = .next { s with mgt := { s.mgt with i3cOut := s.mgt.i3cOut ++ [s.pid] } } ∧
    exec .i3cGetbcr s = .next { s with mgt := { s.mgt with i3cOut := s.mgt.i3cOut ++ [[0x06]] } } ∧
    exec .i3cGetmwl s = .next { s with mgt := { s.mgt with i3cOut := s.mgt.i3cOut ++ [[1, 0]] } } ∧
    exec .i3cGetmrl s = .next { s with mgt := { s.mgt with i3cOut := s.mgt.i3cOut ++ [[1, 0, 1]] } } ∧
    (∃ t x, exec .i3cGetdcr s = .next t ∧ t = { s with free := s.free + 1, mgt := { s.mgt with i3cOut := s.mgt.i3cOut ++ [[x]] } }) ∧
    ∃ t x y, exec .i3cGetstatus s = .next t ∧ t = { s with free := s.free + 1, mgt := { s.mgt with i3cOut := s.mgt.i3cOut ++ [[x, y]] } } ∧
      (y = 1 ↔ s.mgt.mctpOut ≠ [] ∧ s.mgt.i3cOff % 2 = 0)) ∧
  (∀ (m : List Byte) (s : State),
    (∀ c ∈ mctpRows m, (4096 < m.length → exec c s = .next s) ∧
      (m.length ≤ 4096 → byteAt m 0 % 128 ∉ [0, 1, 5, 6] → ∃ t, exec c s = .next t ∧ t = { s with regs := t.regs } ∧
        t.rd R.MGT.MCTP_DROP_CNT 0 = min (s.rd R.MGT.MCTP_DROP_CNT 0 + 1) (2 ^ R.MGT.MCTP_DROP_CNT.width - 1) ∧
        RegsBut [(R.MGT.MCTP_DROP_CNT, 0)] s t)) ∧
    (∀ (x : Instr × Nat), x ∈ [(Instr.setEndpointId m, 1), (Instr.getEndpointId m, 2), (Instr.getEndpointUuid m, 3),
        (Instr.getMctpVersionSupport m, 4), (Instr.getMessageTypeSupport m, 5)] →
      (isControl x.2 m = false → byteAt m 0 % 128 ∈ [0, 1, 5, 6] → exec x.1 s = .next s) ∧
      (isControl x.2 m = true → m.length ≤ 4096 → ∃ t d, exec x.1 s = .next t ∧
        t = { s with regs := t.regs, free := t.free, mgt := t.mgt } ∧
        t.mgt = s.told ([0, BitVec.ofNat 8 (byteAt m 1 % 32), BitVec.ofNat 8 x.2] ++ d) ∧
        (x.2 ≠ 1 → t.regs = s.regs) ∧
        (x.2 = 1 → byteAt m 3 ≤ 1 → byteAt m 4 ≠ 0 → byteAt m 4 ≠ 255 → d = [0, 0, BitVec.ofNat 8 (byteAt m 4), 0] ∧
          t.rd R.MGT.I3C_STAT_EID 0 = byteAt m 4 ∧ RegsBut [(R.MGT.I3C_STAT_EID, 0)] s t) ∧
        (x.2 = 1 → 1 < byteAt m 3 ∨ byteAt m 4 = 0 ∨ byteAt m 4 = 255 → d = [2] ∧ t.regs = s.regs) ∧
        (x.2 = 2 → d = [0, BitVec.ofNat 8 s.eid, 0, 0]) ∧ (x.2 = 3 → d = 0 :: padTo 16 Config.uuid) ∧
        (x.2 = 4 → byteAt m 3 = 0 ∨ byteAt m 3 = 255 → d = [0, 1, 0xF1, 0xF3, 0xFF, 0]) ∧ (x.2 = 5 → d = [0, 4, 0, 1, 5, 6]))))

/-- PLDM and the lantern. A PLDM request of a command that the module does not support is answered so. One of a command's kind has one answer, which shows what the module holds: terminus ID, versions, types,
sensor readings, records and events; telemetry is silent without firmware, but for the life-cycle sensor. A new terminus ID and event
receiver take effect. Platform events wait until they are acknowledged, and are sent again after 1 s. The lantern sends its heartbeat each
period, and records again to its collector. The message layouts are PRESUMED in log entry 57 (R443 to R445, R447 to R449). -/
def Obligations.TelemetryAndLantern : Prop :=
  (∀ (m : List Byte) (s : State),
    (let ans (d : List Byte) : List Byte := pldmMsg (byteAt m 1 % 32) (byteAt m 2 % 64) (byteAt m 3) d
     ∀ (x : Instr × Nat × Nat), x ∈ [(Instr.getTid m, 0, 2), (Instr.setTid m, 0, 1), (Instr.getPldmVersion m, 0, 3), (Instr.getPldmTypes m, 0, 4),
        (Instr.getPldmCommands m, 0, 5), (Instr.getSensorReading m, 2, 0x11), (Instr.getStateSensorReadings m, 2, 0x21),
        (Instr.getPdrRepositoryInfo m, 2, 0x50), (Instr.getPdr m, 2, 0x51), (Instr.setEventReceiver m, 2, 4),
        (Instr.pollForPlatformEventMessage m, 2, 0x0B)] →
      (m.length ≤ 4096 → pldmUnsupported m = true → s.fwAnswers = true ∨ byteAt m 2 % 64 = 0 →
        exec x.1 s = .next { s with mgt := s.told (ans [5]) }) ∧
      (isPldm x.2.1 x.2.2 m = false → byteAt m 0 % 128 ∈ [0, 1, 5, 6] →
        pldmUnsupported m = false ∨ (s.fwAnswers = false ∧ byteAt m 2 % 64 ≠ 0) → exec x.1 s = .next s) ∧
      (s.fwAnswers = false → isPldm x.2.1 x.2.2 m = true → x.2.1 = 2 → (x.2.2 = 0x21 → fieldLE m 4 2 ≠ 60) → exec x.1 s = .next s) ∧
      (isPldm x.2.1 x.2.2 m = true → m.length ≤ 4096 → x.2.1 = 0 ∨ s.fwAnswers = true ∨ (x.2.2 = 0x21 ∧ fieldLE m 4 2 = 60) →
        ∃ t d, exec x.1 s = .next t ∧ t = { s with free := t.free, mgt := t.mgt } ∧ t.mgt.mctpOut = s.mgt.mctpOut ++ [ans d] ∧
          t.mgt.ibi = (s.told (ans d)).ibi ∧
          (x.2 = (0, 2) → d = [0, BitVec.ofNat 8 s.mgt.tid]) ∧
          (x.2 = (0, 1) → byteAt m 4 ≠ 0 → byteAt m 4 ≠ 255 → d = [0] ∧ t.mgt.tid = byteAt m 4) ∧
          (x.2 = (0, 1) → byteAt m 4 = 0 ∨ byteAt m 4 = 255 → d = [2] ∧ t.mgt.tid = s.mgt.tid) ∧
          (x.2 = (0, 4) → d = 0 :: leBytes 8 0x25) ∧
          (∀ v, x.2 = (0, 3) → pldmVersion (byteAt m 9) = some v → d = 0 :: (leBytes 4 0 ++ [5] ++ v ++ leBytes 4 (fcs v))) ∧
          (∀ v, x.2 = (0, 5) → pldmCommands (byteAt m 4) = some v → d = 0 :: v) ∧
          (∀ v, x.2 = (2, 0x11) → s.numericSensor (fieldLE m 4 2) = some v → fieldLE m 4 2 ≤ 32 → d = [0, 3, 0, 0, 1, 1, 1] ++ leBytes 2 v) ∧
          (∀ v, x.2 = (2, 0x11) → s.numericSensor (fieldLE m 4 2) = some v → 32 < fieldLE m 4 2 → fieldLE m 4 2 ≠ 52 →
            d = [0, 4, 0, 0, 1, 1, 1] ++ leBytes 4 v) ∧
          (x.2 = (2, 0x11) → fieldLE m 4 2 = 52 → d = [0, 6, 0, 0, 1, 1, 1] ++ leBytes 8 (s.rd R.PWR.ENERGY 0)) ∧
          (∀ v, x.2 = (2, 0x21) → s.stateSensor (fieldLE m 4 2) = some v →
            d = [0, 1, 0, BitVec.ofNat 8 v, BitVec.ofNat 8 v, BitVec.ofNat 8 v]) ∧
          (x.2 = (2, 0x51) → fieldLE m 4 4 ≤ 83 → byteAt d 0 = 0) ∧ (x.2 = (2, 0x51) → 83 < fieldLE m 4 4 → d = [0x82]) ∧
          (x.2 = (2, 4) → d = [0] ∧ t.mgt.receiver = (if byteAt m 4 = 0 then none else some (byteAt m 6))) ∧
          (x.2 = (2, 0x0B) → t.mgt.evts = (if fieldLE m 10 2 = 1 then s.mgt.evts.drop 1 else s.mgt.evts))))) ∧
  (∀ (m : List Byte) (s : State), m.length ≤ 4096 → byteAt m 0 % 128 ∈ [0, 1, 5, 6] →
    ∃ t, exec (.platformEventMessageResponse m) s = .next t ∧
    ((byteAt m 0 = 1 ∧ (byteAt m 1).testBit 7 = false ∧ byteAt m 2 % 64 = 2 ∧ byteAt m 3 = 0x0A ∧ byteAt m 4 = 0) →
      t = { s with mgt := { s.mgt with evts := s.mgt.evts.drop 1 } }) ∧
    (¬(byteAt m 0 = 1 ∧ (byteAt m 1).testBit 7 = false ∧ byteAt m 2 % 64 = 2 ∧ byteAt m 3 = 0x0A ∧ byteAt m 4 = 0) → t = s)) ∧
  (∀ s : State, (s.passed s.mgt.evtAt 1000000000 = false → exec .platformEventResend s = .next s) ∧
    (s.passed s.mgt.evtAt 1000000000 = true → exec .platformEventResend s = .next { s with mgt := { s.mgt with
      mctpOut := s.mgt.mctpOut ++ s.mgt.evts.map (fun e => s.eventMsg e.2), evtAt := s.clk.devTime
      ibi := s.mgt.ibi ++ (if s.mgt.i3cOff % 2 = 0 then List.replicate s.mgt.evts.length 0xAE else []) } })) ∧
  (∀ s : State,
    (s.lcState = 4 ∨ (s.en .mgt 0 = false ∧ s.is R.SECG.STAT_RECOVERY 0 = false) ∨ s.passed s.mgt.beatAt s.beatNs = false →
      exec .lanternHeartbeat s = .next s) ∧
    (s.lcState ≠ 4 → s.en .mgt 0 = true ∨ s.is R.SECG.STAT_RECOVERY 0 = true → s.passed s.mgt.beatAt s.beatNs = true →
      ∃ t, exec .lanternHeartbeat s = .next t ∧
      t = { s with regs := t.regs, mgt := t.mgt } ∧
      t.mgt = { s.mgt with lanOut := s.mgt.lanOut ++ [(s.lanHop, s.lanHeader 1 0 0 ++ s.heartbeat)], lanSeq := s.mgt.lanSeq + 1, beatAt := s.clk.devTime } ∧
      t.rd R.MGT.LAN_TX_CNT 0 = min (s.rd R.MGT.LAN_TX_CNT 0 + 1) (2 ^ R.MGT.LAN_TX_CNT.width - 1) ∧ RegsBut [(R.MGT.LAN_TX_CNT, 0)] s t)) ∧
  (∀ (f : List Byte) (s : State), (s.is R.MGT.STAT_LAN_UP 0 = false → exec (.resendReq f) s = .next s) ∧
    (s.is R.MGT.STAT_LAN_UP 0 = true → s.lanDatagram f = none → ∃ t, exec (.resendReq f) s = .next t ∧ t = { s with regs := t.regs } ∧
      t.rd R.MGT.LAN_DROP_CNT 0 = min (s.rd R.MGT.LAN_DROP_CNT 0 + 1) (2 ^ R.MGT.LAN_DROP_CNT.width - 1) ∧
      RegsBut [(R.MGT.LAN_DROP_CNT, 0)] s t) ∧
    (∀ src d, s.is R.MGT.STAT_LAN_UP 0 = true → s.lanDatagram f = some (src, d) →
      (src ≠ s.lanDest ∨ s.lantern = false ∨ byteAt d 8 ≠ 3 ∨ fieldLE d 10 2 = 0 ∨ 40 < fieldLE d 10 2 → exec (.resendReq f) s = .next s) ∧
      (src = s.lanDest → s.lantern = true → d.take 8 = ascii "KWLANTRN" → byteAt d 8 = 3 → 0 < fieldLE d 10 2 → fieldLE d 10 2 ≤ 40 →
        (let r := s.heldRun (fieldLE d 40 8) (fieldLE d 10 2)
         ∃ t, exec (.resendReq f) s = .next t ∧ t = { s with regs := t.regs, mgt := t.mgt } ∧
          t.mgt = { s.mgt with lanOut := s.mgt.lanOut ++ [(s.lanHop, s.lanHeader 2 r.2.length r.1 ++ r.2.flatten)], lanSeq := s.mgt.lanSeq + 1 } ∧
          t.rd R.MGT.LAN_RESEND_CNT 0 = min (s.rd R.MGT.LAN_RESEND_CNT 0 + 1) (2 ^ R.MGT.LAN_RESEND_CNT.width - 1) ∧
          RegsBut [(R.MGT.LAN_TX_CNT, 0), (R.MGT.LAN_RESEND_CNT, 0)] s t)))) ∧
  (∀ (up : Bool) (s : State), ∃ t, exec (.managementEthernetLink up) s = .next t ∧ t = { s with regs := t.regs } ∧
    t.rd R.MGT.STAT_LAN_UP 0 = (if up then 1 else 0) ∧ RegsBut [(R.MGT.STAT_LAN_UP, 0)] s t)

/-- Self-tests. A test starts when nothing forbids it, else it is refused with its reason, and a test that the life cycle does not admit
is also counted. ABORT ends the one that runs. Its end writes the log, counts the faults and the run, and shows whether it passed; worn
tiers that a full test left out are logged after the faults; a full test leaves the stacks without owner tags, a memory test leaves zeros in the named memory stacks (R416, R434, R451, R453 to R456). -/
def Obligations.SelfTests : Prop :=
  (∀ (c : Instr) (n : Nat) (s : State), c = .fieldSelfTest ∧ n = 1 ∨ c = .fullSelfTest ∧ n = 2 ∨ c = .memorySelfTest ∧ n = 3 →
    ∃ t, exec c s = .next t ∧ t = { s with regs := t.regs, bst := t.bst } ∧
      (s.testReason n true = 0 → t.bst = {} ∧ t.rd R.BST.CTL_TEST 0 = n ∧ t.rd R.BST.STAT_STATE 0 = 1 ∧ t.rd R.BST.LOG_COUNT 0 = 0 ∧
        RegsBut [(R.BST.CTL_TEST, 0), (R.BST.STAT_STATE, 0), (R.BST.LOG_COUNT, 0), (R.WLDG.STAT_PROGRAMMING, 0)] s t) ∧
      (s.testReason n true ≠ 0 → t.bst = s.bst ∧ t.rd R.BST.STAT_REASON 0 = s.testReason n true ∧ t.rd R.BST.EVT_REFUSED 0 = 1 ∧
        RegsBut [(R.BST.STAT_REASON, 0), (R.BST.EVT_REFUSED, 0), (R.SECG.TEST_REFUSED_CNT, 0)] s t) ∧
      (s.testAllowed n = false → t.rd R.BST.STAT_REASON 0 = 1 ∧
        t.rd R.SECG.TEST_REFUSED_CNT 0 = min (s.rd R.SECG.TEST_REFUSED_CNT 0 + 1) (2 ^ R.SECG.TEST_REFUSED_CNT.width - 1)) ∧
      (s.testAllowed n = true → s.testing = true → t.rd R.BST.STAT_REASON 0 = 2)) ∧
  (∀ s : State, (s.testing = false → exec .selfTestAbort s = .next s) ∧
    (s.testing = true → ∃ t, exec .selfTestAbort s = .next t ∧ t = { s with regs := t.regs, nv := t.nv, free := t.free, bst := t.bst } ∧
      t.rd R.BST.STAT_STATE 0 = 3 ∧ t.rd R.BST.EVT_ABORTED 0 = 1 ∧
      (s.rd R.BST.CTL_TEST 0 ≠ 2 → t.nv = s.nv ∧
        RegsBut [(R.BST.STAT_STATE, 0), (R.BST.EVT_ABORTED, 0), (R.WLDG.STAT_PROGRAMMING, 0)] s t))) ∧
  (∀ (faults : List TestFault) (ms : Nat) (s : State), (s.testing = false → exec (.selfTestEnd faults ms) s = .next s) ∧
    (s.testing = true →
      let worn := if s.rd R.BST.CTL_TEST 0 = 2 then (s.testTo 6).skippedFaults else []
      let all := faults ++ worn
      ∃ t, exec (.selfTestEnd faults ms) s = .next t ∧ t.parts = s.parts ∧ t.stks = s.stks ∧
      t.rd R.BST.STAT_STATE 0 = (if all = [] then 2 else 3) ∧ t.rd R.BST.EVT_DONE 0 = 1 ∧ (all ≠ [] → t.rd R.BST.EVT_FAIL 0 = 1) ∧
      (MemClean s → t.rd R.BST.FAULT_CNT 0 = min (s.rd R.BST.FAULT_CNT 0 + all.length) (2 ^ R.BST.FAULT_CNT.width - 1) ∧
        t.rd R.BST.RUN_CNT 0 = min (s.rd R.BST.RUN_CNT 0 + 1) (2 ^ R.BST.RUN_CNT.width - 1)) ∧
      t.rd R.BST.LOG_COUNT 0 = (min (s.rd R.BST.LOG_CAP 0) all.length) % 2 ^ R.BST.LOG_COUNT.width ∧
      (∀ f, all = [f] → 0 < s.rd R.BST.LOG_CAP 0 → t.mrd (s.rd R.BST.LOG_ADDR 0) 16 = TestFault.record (s.rd R.BST.CTL_TEST 0) f) ∧
      (s.rd R.BST.CTL_TEST 0 = 1 → t.nv = s.nv ∧ t.rd R.BST.COVER 0 = 960 ∧ (faults = [] → ∀ a, t.mrd a 1 = s.mrd a 1)) ∧
      (s.rd R.BST.CTL_TEST 0 = 2 → t.rd R.BST.COVER 0 = 995 ∧ ∀ k, k < 12 → (s.rd R.BST.UNITS 0).testBit k = true →
        AMap.getD t.nv.tags k 0 = 0 ∧ ∀ a tier, a < 40960 → tier < 16 → t.refMarked (nvKey k a tier) = true) ∧
      (s.rd R.BST.CTL_TEST 0 = 3 → faults = [] → t.nv = s.nv ∧ ∀ a,
        (s.inMemStacks (s.rd R.BST.UNITS 0) a = true → t.mrd a 1 = [0]) ∧
        (s.inMemStacks (s.rd R.BST.UNITS 0) a = false → t.mrd a 1 = s.mrd a 1))))
end

