-- ==== Sys2Proof/Laws/State.lean ====
section
/-! SUPPORT. What each update of the state leaves: one lemma per field and update, so that no proof unfolds a record
update; and the laws of sparse maps and register fields. -/
namespace Sys2Proof

/-! ### Sparse maps -/

/-- What is stored under a key is read there. -/
@[simp] theorem AMap.get?_set_same {α : Type} (m : AMap α) (a : Nat) (x : α) : AMap.get? (AMap.set m a x) a = some x := by
  induction m with
  | nil => simp [AMap.set, AMap.get?]
  | cons e t ih =>
    obtain ⟨k, v⟩ := e
    by_cases h1 : a < k
    · simp [AMap.set, h1, AMap.get?]
    · by_cases h2 : a = k
      · simp [AMap.set, h2, AMap.get?]
      · have h3 : ¬ k = a := fun h => h2 h.symm
        simp [AMap.set, h1, h2, AMap.get?, h3, ih]

/-- Storing under a key leaves every other key. -/
theorem AMap.get?_set_other {α : Type} (m : AMap α) (a b : Nat) (x : α) (h : b ≠ a) :
    AMap.get? (AMap.set m a x) b = AMap.get? m b := by
  induction m with
  | nil => simp [AMap.set, AMap.get?, Ne.symm h]
  | cons e t ih =>
    obtain ⟨k, v⟩ := e
    by_cases h1 : a < k
    · simp [AMap.set, h1, AMap.get?, Ne.symm h]
    · by_cases h2 : a = k
      · subst h2
        simp [AMap.set, AMap.get?, Ne.symm h]
      · simp [AMap.set, h1, h2, AMap.get?, ih]

/-- Nothing is read under a removed key. -/
@[simp] theorem AMap.get?_erase_same {α : Type} (m : AMap α) (a : Nat) : AMap.get? (AMap.erase m a) a = none := by
  induction m with
  | nil => rfl
  | cons e t ih =>
    obtain ⟨k, v⟩ := e
    by_cases h : k = a
    · simpa [AMap.erase, h] using ih
    · have : AMap.erase ((k, v) :: t) a = (k, v) :: AMap.erase t a := by simp [AMap.erase, h]
      rw [this]
      simp [AMap.get?, h, ih]

/-- Removing a key leaves every other key. -/
theorem AMap.get?_erase_other {α : Type} (m : AMap α) (a b : Nat) (h : b ≠ a) :
    AMap.get? (AMap.erase m a) b = AMap.get? m b := by
  induction m with
  | nil => rfl
  | cons e t ih =>
    obtain ⟨k, v⟩ := e
    by_cases h1 : k = a
    · have : AMap.erase ((k, v) :: t) a = AMap.erase t a := by simp [AMap.erase, h1]
      rw [this, ih]
      simp [AMap.get?, h1, Ne.symm h]
    · have : AMap.erase ((k, v) :: t) a = (k, v) :: AMap.erase t a := by simp [AMap.erase, h1]
      rw [this]
      simp [AMap.get?, ih]

/-- A canonical write is read back. -/
@[simp] theorem AMap.getD_put_same {α : Type} [DecidableEq α] (m : AMap α) (a : Nat) (x d : α) :
    AMap.getD (AMap.put m a x d) a d = x := by
  unfold AMap.put AMap.getD
  by_cases h : x = d <;> simp [h]

/-- A canonical write leaves every other key. -/
theorem AMap.getD_put_other {α : Type} [DecidableEq α] (m : AMap α) (a b : Nat) (x d e : α) (h : b ≠ a) :
    AMap.getD (AMap.put m a x d) b e = AMap.getD m b e := by
  unfold AMap.put AMap.getD
  by_cases hx : x = d <;> simp [hx, AMap.get?_set_other _ _ _ _ h, AMap.get?_erase_other _ _ _ h]

namespace Machine

/-! ### Register fields -/

/-- A stored field reads back, cut to its width. -/
@[simp] theorem State.rd_wr_same (s : State) (f : Field) (i v : Nat) : (s.wr f i v).rd f i = v % 2 ^ f.width := by
  simp [State.rd, State.wr]

/-- Storing a field leaves every field with another key. -/
theorem State.rd_wr_other (s : State) (f g : Field) (i j v : Nat) (h : g.key j ≠ f.key i) : (s.wr f i v).rd g j = s.rd g j := by
  simp [State.rd, State.wr, AMap.getD_put_other _ _ _ _ _ _ h]

/-- The record of a changed array stack. -/
@[simp] theorem State.stk_onStk_same (s : State) (k : Nat) (f : StackSt → StackSt) : (s.onStk k f).stk k = f (s.stk k) := by
  simp [State.stk, State.onStk]
/-- The record of another array stack. -/
theorem State.stk_onStk_other (s : State) (k j : Nat) (f : StackSt → StackSt) (h : j ≠ k) : (s.onStk k f).stk j = s.stk j := by
  simp [State.stk, State.onStk, AMap.getD_put_other _ _ _ _ _ _ h]
/-- The record of a changed hub. -/
@[simp] theorem State.hub_onHub_same (s : State) (k : Nat) (f : HubSt → HubSt) : (s.onHub k f).hub k = f (s.hub k) := by
  simp [State.hub, State.onHub]
/-- The record of another hub. -/
theorem State.hub_onHub_other (s : State) (k j : Nat) (f : HubSt → HubSt) (h : j ≠ k) : (s.onHub k f).hub j = s.hub j := by
  simp [State.hub, State.onHub, AMap.getD_put_other _ _ _ _ _ _ h]
/-- The record of a changed partition. -/
@[simp] theorem State.part_onPart_same (s : State) (k : Nat) (f : PartSt → PartSt) : (s.onPart k f).part k = f (s.part k) := by
  simp [State.part, State.onPart]
/-- The record of another partition. -/
theorem State.part_onPart_other (s : State) (k j : Nat) (f : PartSt → PartSt) (h : j ≠ k) : (s.onPart k f).part j = s.part j := by
  simp [State.part, State.onPart, AMap.getD_put_other _ _ _ _ _ _ h]
/-- The record of a changed core. -/
@[simp] theorem State.core_onCore_same (s : State) (k : Nat) (f : CoreSt → CoreSt) : (s.onCore k f).core k = f (s.core k) := by
  simp [State.core, State.onCore]
/-- The record of another core. -/
theorem State.core_onCore_other (s : State) (k j : Nat) (f : CoreSt → CoreSt) (h : j ≠ k) : (s.onCore k f).core j = s.core j := by
  simp [State.core, State.onCore, AMap.getD_put_other _ _ _ _ _ _ h]
/-- The record of a changed thread group. -/
@[simp] theorem State.grp_onGrp_same (s : State) (g : GroupRef) (f : Group → Group) : (s.onGrp g f).grp g = f (s.grp g) := by
  simp [State.grp, State.onGrp]

/-! ### Fields of the state under each update -/

@[simp] theorem State.wr_clk (s : State) (f : Field) (i v : Nat) : (s.wr f i v).clk = s.clk := rfl
@[simp] theorem State.wr_shadowR (s : State) (f : Field) (i v : Nat) : (s.wr f i v).shadowR = s.shadowR := rfl
@[simp] theorem State.wr_shadowW (s : State) (f : Field) (i v : Nat) : (s.wr f i v).shadowW = s.shadowW := rfl
@[simp] theorem State.wr_rdVal (s : State) (f : Field) (i v : Nat) : (s.wr f i v).rdVal = s.rdVal := rfl
@[simp] theorem State.wr_mem (s : State) (f : Field) (i v : Nat) : (s.wr f i v).mem = s.mem := rfl
@[simp] theorem State.wr_poi (s : State) (f : Field) (i v : Nat) : (s.wr f i v).poi = s.poi := rfl
@[simp] theorem State.wr_blks (s : State) (f : Field) (i v : Nat) : (s.wr f i v).blks = s.blks := rfl
@[simp] theorem State.wr_stew (s : State) (f : Field) (i v : Nat) : (s.wr f i v).stew = s.stew := rfl
@[simp] theorem State.wr_stewBad (s : State) (f : Field) (i v : Nat) : (s.wr f i v).stewBad = s.stewBad := rfl
@[simp] theorem State.wr_nv (s : State) (f : Field) (i v : Nat) : (s.wr f i v).nv = s.nv := rfl
@[simp] theorem State.wr_stks (s : State) (f : Field) (i v : Nat) : (s.wr f i v).stks = s.stks := rfl
@[simp] theorem State.wr_hubs (s : State) (f : Field) (i v : Nat) : (s.wr f i v).hubs = s.hubs := rfl
@[simp] theorem State.wr_parts (s : State) (f : Field) (i v : Nat) : (s.wr f i v).parts = s.parts := rfl
@[simp] theorem State.wr_cores (s : State) (f : Field) (i v : Nat) : (s.wr f i v).cores = s.cores := rfl
@[simp] theorem State.wr_link (s : State) (f : Field) (i v : Nat) : (s.wr f i v).link = s.link := rfl
@[simp] theorem State.wr_fab (s : State) (f : Field) (i v : Nat) : (s.wr f i v).fab = s.fab := rfl
@[simp] theorem State.wr_pwr (s : State) (f : Field) (i v : Nat) : (s.wr f i v).pwr = s.pwr := rfl
@[simp] theorem State.wr_mgt (s : State) (f : Field) (i v : Nat) : (s.wr f i v).mgt = s.mgt := rfl
@[simp] theorem State.wr_sec (s : State) (f : Field) (i v : Nat) : (s.wr f i v).sec = s.sec := rfl
@[simp] theorem State.wr_bst (s : State) (f : Field) (i v : Nat) : (s.wr f i v).bst = s.bst := rfl
@[simp] theorem State.wr_memErr (s : State) (f : Field) (i v : Nat) : (s.wr f i v).memErr = s.memErr := rfl
@[simp] theorem State.wr_memWb (s : State) (f : Field) (i v : Nat) : (s.wr f i v).memWb = s.memWb := rfl
@[simp] theorem State.wr_free (s : State) (f : Field) (i v : Nat) : (s.wr f i v).free = s.free := rfl
@[simp] theorem State.wr_pending (s : State) (f : Field) (i v : Nat) : (s.wr f i v).pending = s.pending := rfl
@[simp] theorem State.onStk_clk (s : State) (k : Nat) (f : StackSt → StackSt) : (s.onStk k f).clk = s.clk := rfl
@[simp] theorem State.onStk_regs (s : State) (k : Nat) (f : StackSt → StackSt) : (s.onStk k f).regs = s.regs := rfl
@[simp] theorem State.onStk_shadowR (s : State) (k : Nat) (f : StackSt → StackSt) : (s.onStk k f).shadowR = s.shadowR := rfl
@[simp] theorem State.onStk_shadowW (s : State) (k : Nat) (f : StackSt → StackSt) : (s.onStk k f).shadowW = s.shadowW := rfl
@[simp] theorem State.onStk_rdVal (s : State) (k : Nat) (f : StackSt → StackSt) : (s.onStk k f).rdVal = s.rdVal := rfl
@[simp] theorem State.onStk_mem (s : State) (k : Nat) (f : StackSt → StackSt) : (s.onStk k f).mem = s.mem := rfl
@[simp] theorem State.onStk_poi (s : State) (k : Nat) (f : StackSt → StackSt) : (s.onStk k f).poi = s.poi := rfl
@[simp] theorem State.onStk_blks (s : State) (k : Nat) (f : StackSt → StackSt) : (s.onStk k f).blks = s.blks := rfl
@[simp] theorem State.onStk_stew (s : State) (k : Nat) (f : StackSt → StackSt) : (s.onStk k f).stew = s.stew := rfl
@[simp] theorem State.onStk_stewBad (s : State) (k : Nat) (f : StackSt → StackSt) : (s.onStk k f).stewBad = s.stewBad := rfl
@[simp] theorem State.onStk_nv (s : State) (k : Nat) (f : StackSt → StackSt) : (s.onStk k f).nv = s.nv := rfl
@[simp] theorem State.onStk_hubs (s : State) (k : Nat) (f : StackSt → StackSt) : (s.onStk k f).hubs = s.hubs := rfl
@[simp] theorem State.onStk_parts (s : State) (k : Nat) (f : StackSt → StackSt) : (s.onStk k f).parts = s.parts := rfl
@[simp] theorem State.onStk_cores (s : State) (k : Nat) (f : StackSt → StackSt) : (s.onStk k f).cores = s.cores := rfl
@[simp] theorem State.onStk_link (s : State) (k : Nat) (f : StackSt → StackSt) : (s.onStk k f).link = s.link := rfl
@[simp] theorem State.onStk_fab (s : State) (k : Nat) (f : StackSt → StackSt) : (s.onStk k f).fab = s.fab := rfl
@[simp] theorem State.onStk_pwr (s : State) (k : Nat) (f : StackSt → StackSt) : (s.onStk k f).pwr = s.pwr := rfl
@[simp] theorem State.onStk_mgt (s : State) (k : Nat) (f : StackSt → StackSt) : (s.onStk k f).mgt = s.mgt := rfl
@[simp] theorem State.onStk_sec (s : State) (k : Nat) (f : StackSt → StackSt) : (s.onStk k f).sec = s.sec := rfl
@[simp] theorem State.onStk_bst (s : State) (k : Nat) (f : StackSt → StackSt) : (s.onStk k f).bst = s.bst := rfl
@[simp] theorem State.onStk_memErr (s : State) (k : Nat) (f : StackSt → StackSt) : (s.onStk k f).memErr = s.memErr := rfl
@[simp] theorem State.onStk_memWb (s : State) (k : Nat) (f : StackSt → StackSt) : (s.onStk k f).memWb = s.memWb := rfl
@[simp] theorem State.onStk_free (s : State) (k : Nat) (f : StackSt → StackSt) : (s.onStk k f).free = s.free := rfl
@[simp] theorem State.onStk_pending (s : State) (k : Nat) (f : StackSt → StackSt) : (s.onStk k f).pending = s.pending := rfl
@[simp] theorem State.onHub_clk (s : State) (h : Nat) (f : HubSt → HubSt) : (s.onHub h f).clk = s.clk := rfl
@[simp] theorem State.onHub_regs (s : State) (h : Nat) (f : HubSt → HubSt) : (s.onHub h f).regs = s.regs := rfl
@[simp] theorem State.onHub_shadowR (s : State) (h : Nat) (f : HubSt → HubSt) : (s.onHub h f).shadowR = s.shadowR := rfl
@[simp] theorem State.onHub_shadowW (s : State) (h : Nat) (f : HubSt → HubSt) : (s.onHub h f).shadowW = s.shadowW := rfl
@[simp] theorem State.onHub_rdVal (s : State) (h : Nat) (f : HubSt → HubSt) : (s.onHub h f).rdVal = s.rdVal := rfl
@[simp] theorem State.onHub_mem (s : State) (h : Nat) (f : HubSt → HubSt) : (s.onHub h f).mem = s.mem := rfl
@[simp] theorem State.onHub_poi (s : State) (h : Nat) (f : HubSt → HubSt) : (s.onHub h f).poi = s.poi := rfl
@[simp] theorem State.onHub_blks (s : State) (h : Nat) (f : HubSt → HubSt) : (s.onHub h f).blks = s.blks := rfl
@[simp] theorem State.onHub_stew (s : State) (h : Nat) (f : HubSt → HubSt) : (s.onHub h f).stew = s.stew := rfl
@[simp] theorem State.onHub_stewBad (s : State) (h : Nat) (f : HubSt → HubSt) : (s.onHub h f).stewBad = s.stewBad := rfl
@[simp] theorem State.onHub_nv (s : State) (h : Nat) (f : HubSt → HubSt) : (s.onHub h f).nv = s.nv := rfl
@[simp] theorem State.onHub_stks (s : State) (h : Nat) (f : HubSt → HubSt) : (s.onHub h f).stks = s.stks := rfl
@[simp] theorem State.onHub_parts (s : State) (h : Nat) (f : HubSt → HubSt) : (s.onHub h f).parts = s.parts := rfl
@[simp] theorem State.onHub_cores (s : State) (h : Nat) (f : HubSt → HubSt) : (s.onHub h f).cores = s.cores := rfl
@[simp] theorem State.onHub_link (s : State) (h : Nat) (f : HubSt → HubSt) : (s.onHub h f).link = s.link := rfl
@[simp] theorem State.onHub_fab (s : State) (h : Nat) (f : HubSt → HubSt) : (s.onHub h f).fab = s.fab := rfl
@[simp] theorem State.onHub_pwr (s : State) (h : Nat) (f : HubSt → HubSt) : (s.onHub h f).pwr = s.pwr := rfl
@[simp] theorem State.onHub_mgt (s : State) (h : Nat) (f : HubSt → HubSt) : (s.onHub h f).mgt = s.mgt := rfl
@[simp] theorem State.onHub_sec (s : State) (h : Nat) (f : HubSt → HubSt) : (s.onHub h f).sec = s.sec := rfl
@[simp] theorem State.onHub_bst (s : State) (h : Nat) (f : HubSt → HubSt) : (s.onHub h f).bst = s.bst := rfl
@[simp] theorem State.onHub_memErr (s : State) (h : Nat) (f : HubSt → HubSt) : (s.onHub h f).memErr = s.memErr := rfl
@[simp] theorem State.onHub_memWb (s : State) (h : Nat) (f : HubSt → HubSt) : (s.onHub h f).memWb = s.memWb := rfl
@[simp] theorem State.onHub_free (s : State) (h : Nat) (f : HubSt → HubSt) : (s.onHub h f).free = s.free := rfl
@[simp] theorem State.onHub_pending (s : State) (h : Nat) (f : HubSt → HubSt) : (s.onHub h f).pending = s.pending := rfl
@[simp] theorem State.onPart_clk (s : State) (p : Nat) (f : PartSt → PartSt) : (s.onPart p f).clk = s.clk := rfl
@[simp] theorem State.onPart_regs (s : State) (p : Nat) (f : PartSt → PartSt) : (s.onPart p f).regs = s.regs := rfl
@[simp] theorem State.onPart_shadowR (s : State) (p : Nat) (f : PartSt → PartSt) : (s.onPart p f).shadowR = s.shadowR := rfl
@[simp] theorem State.onPart_shadowW (s : State) (p : Nat) (f : PartSt → PartSt) : (s.onPart p f).shadowW = s.shadowW := rfl
@[simp] theorem State.onPart_rdVal (s : State) (p : Nat) (f : PartSt → PartSt) : (s.onPart p f).rdVal = s.rdVal := rfl
@[simp] theorem State.onPart_mem (s : State) (p : Nat) (f : PartSt → PartSt) : (s.onPart p f).mem = s.mem := rfl
@[simp] theorem State.onPart_poi (s : State) (p : Nat) (f : PartSt → PartSt) : (s.onPart p f).poi = s.poi := rfl
@[simp] theorem State.onPart_blks (s : State) (p : Nat) (f : PartSt → PartSt) : (s.onPart p f).blks = s.blks := rfl
@[simp] theorem State.onPart_stew (s : State) (p : Nat) (f : PartSt → PartSt) : (s.onPart p f).stew = s.stew := rfl
@[simp] theorem State.onPart_stewBad (s : State) (p : Nat) (f : PartSt → PartSt) : (s.onPart p f).stewBad = s.stewBad := rfl
@[simp] theorem State.onPart_nv (s : State) (p : Nat) (f : PartSt → PartSt) : (s.onPart p f).nv = s.nv := rfl
@[simp] theorem State.onPart_stks (s : State) (p : Nat) (f : PartSt → PartSt) : (s.onPart p f).stks = s.stks := rfl
@[simp] theorem State.onPart_hubs (s : State) (p : Nat) (f : PartSt → PartSt) : (s.onPart p f).hubs = s.hubs := rfl
@[simp] theorem State.onPart_cores (s : State) (p : Nat) (f : PartSt → PartSt) : (s.onPart p f).cores = s.cores := rfl
@[simp] theorem State.onPart_link (s : State) (p : Nat) (f : PartSt → PartSt) : (s.onPart p f).link = s.link := rfl
@[simp] theorem State.onPart_fab (s : State) (p : Nat) (f : PartSt → PartSt) : (s.onPart p f).fab = s.fab := rfl
@[simp] theorem State.onPart_pwr (s : State) (p : Nat) (f : PartSt → PartSt) : (s.onPart p f).pwr = s.pwr := rfl
@[simp] theorem State.onPart_mgt (s : State) (p : Nat) (f : PartSt → PartSt) : (s.onPart p f).mgt = s.mgt := rfl
@[simp] theorem State.onPart_sec (s : State) (p : Nat) (f : PartSt → PartSt) : (s.onPart p f).sec = s.sec := rfl
@[simp] theorem State.onPart_bst (s : State) (p : Nat) (f : PartSt → PartSt) : (s.onPart p f).bst = s.bst := rfl
@[simp] theorem State.onPart_memErr (s : State) (p : Nat) (f : PartSt → PartSt) : (s.onPart p f).memErr = s.memErr := rfl
@[simp] theorem State.onPart_memWb (s : State) (p : Nat) (f : PartSt → PartSt) : (s.onPart p f).memWb = s.memWb := rfl
@[simp] theorem State.onPart_free (s : State) (p : Nat) (f : PartSt → PartSt) : (s.onPart p f).free = s.free := rfl
@[simp] theorem State.onPart_pending (s : State) (p : Nat) (f : PartSt → PartSt) : (s.onPart p f).pending = s.pending := rfl
@[simp] theorem State.onCore_clk (s : State) (c : Nat) (f : CoreSt → CoreSt) : (s.onCore c f).clk = s.clk := rfl
@[simp] theorem State.onCore_regs (s : State) (c : Nat) (f : CoreSt → CoreSt) : (s.onCore c f).regs = s.regs := rfl
@[simp] theorem State.onCore_shadowR (s : State) (c : Nat) (f : CoreSt → CoreSt) : (s.onCore c f).shadowR = s.shadowR := rfl
@[simp] theorem State.onCore_shadowW (s : State) (c : Nat) (f : CoreSt → CoreSt) : (s.onCore c f).shadowW = s.shadowW := rfl
@[simp] theorem State.onCore_rdVal (s : State) (c : Nat) (f : CoreSt → CoreSt) : (s.onCore c f).rdVal = s.rdVal := rfl
@[simp] theorem State.onCore_mem (s : State) (c : Nat) (f : CoreSt → CoreSt) : (s.onCore c f).mem = s.mem := rfl
@[simp] theorem State.onCore_poi (s : State) (c : Nat) (f : CoreSt → CoreSt) : (s.onCore c f).poi = s.poi := rfl
@[simp] theorem State.onCore_blks (s : State) (c : Nat) (f : CoreSt → CoreSt) : (s.onCore c f).blks = s.blks := rfl
@[simp] theorem State.onCore_stew (s : State) (c : Nat) (f : CoreSt → CoreSt) : (s.onCore c f).stew = s.stew := rfl
@[simp] theorem State.onCore_stewBad (s : State) (c : Nat) (f : CoreSt → CoreSt) : (s.onCore c f).stewBad = s.stewBad := rfl
@[simp] theorem State.onCore_nv (s : State) (c : Nat) (f : CoreSt → CoreSt) : (s.onCore c f).nv = s.nv := rfl
@[simp] theorem State.onCore_stks (s : State) (c : Nat) (f : CoreSt → CoreSt) : (s.onCore c f).stks = s.stks := rfl
@[simp] theorem State.onCore_hubs (s : State) (c : Nat) (f : CoreSt → CoreSt) : (s.onCore c f).hubs = s.hubs := rfl
@[simp] theorem State.onCore_parts (s : State) (c : Nat) (f : CoreSt → CoreSt) : (s.onCore c f).parts = s.parts := rfl
@[simp] theorem State.onCore_link (s : State) (c : Nat) (f : CoreSt → CoreSt) : (s.onCore c f).link = s.link := rfl
@[simp] theorem State.onCore_fab (s : State) (c : Nat) (f : CoreSt → CoreSt) : (s.onCore c f).fab = s.fab := rfl
@[simp] theorem State.onCore_pwr (s : State) (c : Nat) (f : CoreSt → CoreSt) : (s.onCore c f).pwr = s.pwr := rfl
@[simp] theorem State.onCore_mgt (s : State) (c : Nat) (f : CoreSt → CoreSt) : (s.onCore c f).mgt = s.mgt := rfl
@[simp] theorem State.onCore_sec (s : State) (c : Nat) (f : CoreSt → CoreSt) : (s.onCore c f).sec = s.sec := rfl
@[simp] theorem State.onCore_bst (s : State) (c : Nat) (f : CoreSt → CoreSt) : (s.onCore c f).bst = s.bst := rfl
@[simp] theorem State.onCore_memErr (s : State) (c : Nat) (f : CoreSt → CoreSt) : (s.onCore c f).memErr = s.memErr := rfl
@[simp] theorem State.onCore_memWb (s : State) (c : Nat) (f : CoreSt → CoreSt) : (s.onCore c f).memWb = s.memWb := rfl
@[simp] theorem State.onCore_free (s : State) (c : Nat) (f : CoreSt → CoreSt) : (s.onCore c f).free = s.free := rfl
@[simp] theorem State.onCore_pending (s : State) (c : Nat) (f : CoreSt → CoreSt) : (s.onCore c f).pending = s.pending := rfl
@[simp] theorem State.onGrp_clk (s : State) (g : GroupRef) (f : Group → Group) : (s.onGrp g f).clk = s.clk := rfl
@[simp] theorem State.onGrp_regs (s : State) (g : GroupRef) (f : Group → Group) : (s.onGrp g f).regs = s.regs := rfl
@[simp] theorem State.onGrp_shadowR (s : State) (g : GroupRef) (f : Group → Group) : (s.onGrp g f).shadowR = s.shadowR := rfl
@[simp] theorem State.onGrp_shadowW (s : State) (g : GroupRef) (f : Group → Group) : (s.onGrp g f).shadowW = s.shadowW := rfl
@[simp] theorem State.onGrp_rdVal (s : State) (g : GroupRef) (f : Group → Group) : (s.onGrp g f).rdVal = s.rdVal := rfl
@[simp] theorem State.onGrp_mem (s : State) (g : GroupRef) (f : Group → Group) : (s.onGrp g f).mem = s.mem := rfl
@[simp] theorem State.onGrp_poi (s : State) (g : GroupRef) (f : Group → Group) : (s.onGrp g f).poi = s.poi := rfl
@[simp] theorem State.onGrp_blks (s : State) (g : GroupRef) (f : Group → Group) : (s.onGrp g f).blks = s.blks := rfl
@[simp] theorem State.onGrp_stew (s : State) (g : GroupRef) (f : Group → Group) : (s.onGrp g f).stew = s.stew := rfl
@[simp] theorem State.onGrp_stewBad (s : State) (g : GroupRef) (f : Group → Group) : (s.onGrp g f).stewBad = s.stewBad := rfl
@[simp] theorem State.onGrp_nv (s : State) (g : GroupRef) (f : Group → Group) : (s.onGrp g f).nv = s.nv := rfl
@[simp] theorem State.onGrp_stks (s : State) (g : GroupRef) (f : Group → Group) : (s.onGrp g f).stks = s.stks := rfl
@[simp] theorem State.onGrp_hubs (s : State) (g : GroupRef) (f : Group → Group) : (s.onGrp g f).hubs = s.hubs := rfl
@[simp] theorem State.onGrp_parts (s : State) (g : GroupRef) (f : Group → Group) : (s.onGrp g f).parts = s.parts := rfl
@[simp] theorem State.onGrp_link (s : State) (g : GroupRef) (f : Group → Group) : (s.onGrp g f).link = s.link := rfl
@[simp] theorem State.onGrp_fab (s : State) (g : GroupRef) (f : Group → Group) : (s.onGrp g f).fab = s.fab := rfl
@[simp] theorem State.onGrp_pwr (s : State) (g : GroupRef) (f : Group → Group) : (s.onGrp g f).pwr = s.pwr := rfl
@[simp] theorem State.onGrp_mgt (s : State) (g : GroupRef) (f : Group → Group) : (s.onGrp g f).mgt = s.mgt := rfl
@[simp] theorem State.onGrp_sec (s : State) (g : GroupRef) (f : Group → Group) : (s.onGrp g f).sec = s.sec := rfl
@[simp] theorem State.onGrp_bst (s : State) (g : GroupRef) (f : Group → Group) : (s.onGrp g f).bst = s.bst := rfl
@[simp] theorem State.onGrp_memErr (s : State) (g : GroupRef) (f : Group → Group) : (s.onGrp g f).memErr = s.memErr := rfl
@[simp] theorem State.onGrp_memWb (s : State) (g : GroupRef) (f : Group → Group) : (s.onGrp g f).memWb = s.memWb := rfl
@[simp] theorem State.onGrp_free (s : State) (g : GroupRef) (f : Group → Group) : (s.onGrp g f).free = s.free := rfl
@[simp] theorem State.onGrp_pending (s : State) (g : GroupRef) (f : Group → Group) : (s.onGrp g f).pending = s.pending := rfl
@[simp] theorem State.onStep_clk (s : State) (p : Nat) (f : StepSt → StepSt) : (s.onStep p f).clk = s.clk := rfl
@[simp] theorem State.onStep_regs (s : State) (p : Nat) (f : StepSt → StepSt) : (s.onStep p f).regs = s.regs := rfl
@[simp] theorem State.onStep_shadowR (s : State) (p : Nat) (f : StepSt → StepSt) : (s.onStep p f).shadowR = s.shadowR := rfl
@[simp] theorem State.onStep_shadowW (s : State) (p : Nat) (f : StepSt → StepSt) : (s.onStep p f).shadowW = s.shadowW := rfl
@[simp] theorem State.onStep_rdVal (s : State) (p : Nat) (f : StepSt → StepSt) : (s.onStep p f).rdVal = s.rdVal := rfl
@[simp] theorem State.onStep_mem (s : State) (p : Nat) (f : StepSt → StepSt) : (s.onStep p f).mem = s.mem := rfl
@[simp] theorem State.onStep_poi (s : State) (p : Nat) (f : StepSt → StepSt) : (s.onStep p f).poi = s.poi := rfl
@[simp] theorem State.onStep_blks (s : State) (p : Nat) (f : StepSt → StepSt) : (s.onStep p f).blks = s.blks := rfl
@[simp] theorem State.onStep_stew (s : State) (p : Nat) (f : StepSt → StepSt) : (s.onStep p f).stew = s.stew := rfl
@[simp] theorem State.onStep_stewBad (s : State) (p : Nat) (f : StepSt → StepSt) : (s.onStep p f).stewBad = s.stewBad := rfl
@[simp] theorem State.onStep_nv (s : State) (p : Nat) (f : StepSt → StepSt) : (s.onStep p f).nv = s.nv := rfl
@[simp] theorem State.onStep_stks (s : State) (p : Nat) (f : StepSt → StepSt) : (s.onStep p f).stks = s.stks := rfl
@[simp] theorem State.onStep_hubs (s : State) (p : Nat) (f : StepSt → StepSt) : (s.onStep p f).hubs = s.hubs := rfl
@[simp] theorem State.onStep_cores (s : State) (p : Nat) (f : StepSt → StepSt) : (s.onStep p f).cores = s.cores := rfl
@[simp] theorem State.onStep_link (s : State) (p : Nat) (f : StepSt → StepSt) : (s.onStep p f).link = s.link := rfl
@[simp] theorem State.onStep_fab (s : State) (p : Nat) (f : StepSt → StepSt) : (s.onStep p f).fab = s.fab := rfl
@[simp] theorem State.onStep_pwr (s : State) (p : Nat) (f : StepSt → StepSt) : (s.onStep p f).pwr = s.pwr := rfl
@[simp] theorem State.onStep_mgt (s : State) (p : Nat) (f : StepSt → StepSt) : (s.onStep p f).mgt = s.mgt := rfl
@[simp] theorem State.onStep_sec (s : State) (p : Nat) (f : StepSt → StepSt) : (s.onStep p f).sec = s.sec := rfl
@[simp] theorem State.onStep_bst (s : State) (p : Nat) (f : StepSt → StepSt) : (s.onStep p f).bst = s.bst := rfl
@[simp] theorem State.onStep_memErr (s : State) (p : Nat) (f : StepSt → StepSt) : (s.onStep p f).memErr = s.memErr := rfl
@[simp] theorem State.onStep_memWb (s : State) (p : Nat) (f : StepSt → StepSt) : (s.onStep p f).memWb = s.memWb := rfl
@[simp] theorem State.onStep_free (s : State) (p : Nat) (f : StepSt → StepSt) : (s.onStep p f).free = s.free := rfl
@[simp] theorem State.onStep_pending (s : State) (p : Nat) (f : StepSt → StepSt) : (s.onStep p f).pending = s.pending := rfl
@[simp] theorem State.onNv_clk (s : State) (f : NonVol → NonVol) : (s.onNv f).clk = s.clk := rfl
@[simp] theorem State.onNv_regs (s : State) (f : NonVol → NonVol) : (s.onNv f).regs = s.regs := rfl
@[simp] theorem State.onNv_shadowR (s : State) (f : NonVol → NonVol) : (s.onNv f).shadowR = s.shadowR := rfl
@[simp] theorem State.onNv_shadowW (s : State) (f : NonVol → NonVol) : (s.onNv f).shadowW = s.shadowW := rfl
@[simp] theorem State.onNv_rdVal (s : State) (f : NonVol → NonVol) : (s.onNv f).rdVal = s.rdVal := rfl
@[simp] theorem State.onNv_mem (s : State) (f : NonVol → NonVol) : (s.onNv f).mem = s.mem := rfl
@[simp] theorem State.onNv_poi (s : State) (f : NonVol → NonVol) : (s.onNv f).poi = s.poi := rfl
@[simp] theorem State.onNv_blks (s : State) (f : NonVol → NonVol) : (s.onNv f).blks = s.blks := rfl
@[simp] theorem State.onNv_stew (s : State) (f : NonVol → NonVol) : (s.onNv f).stew = s.stew := rfl
@[simp] theorem State.onNv_stewBad (s : State) (f : NonVol → NonVol) : (s.onNv f).stewBad = s.stewBad := rfl
@[simp] theorem State.onNv_stks (s : State) (f : NonVol → NonVol) : (s.onNv f).stks = s.stks := rfl
@[simp] theorem State.onNv_hubs (s : State) (f : NonVol → NonVol) : (s.onNv f).hubs = s.hubs := rfl
@[simp] theorem State.onNv_parts (s : State) (f : NonVol → NonVol) : (s.onNv f).parts = s.parts := rfl
@[simp] theorem State.onNv_cores (s : State) (f : NonVol → NonVol) : (s.onNv f).cores = s.cores := rfl
@[simp] theorem State.onNv_link (s : State) (f : NonVol → NonVol) : (s.onNv f).link = s.link := rfl
@[simp] theorem State.onNv_fab (s : State) (f : NonVol → NonVol) : (s.onNv f).fab = s.fab := rfl
@[simp] theorem State.onNv_pwr (s : State) (f : NonVol → NonVol) : (s.onNv f).pwr = s.pwr := rfl
@[simp] theorem State.onNv_mgt (s : State) (f : NonVol → NonVol) : (s.onNv f).mgt = s.mgt := rfl
@[simp] theorem State.onNv_sec (s : State) (f : NonVol → NonVol) : (s.onNv f).sec = s.sec := rfl
@[simp] theorem State.onNv_bst (s : State) (f : NonVol → NonVol) : (s.onNv f).bst = s.bst := rfl
@[simp] theorem State.onNv_memErr (s : State) (f : NonVol → NonVol) : (s.onNv f).memErr = s.memErr := rfl
@[simp] theorem State.onNv_memWb (s : State) (f : NonVol → NonVol) : (s.onNv f).memWb = s.memWb := rfl
@[simp] theorem State.onNv_free (s : State) (f : NonVol → NonVol) : (s.onNv f).free = s.free := rfl
@[simp] theorem State.onNv_pending (s : State) (f : NonVol → NonVol) : (s.onNv f).pending = s.pending := rfl
@[simp] theorem State.onPwr_clk (s : State) (f : PwrSt → PwrSt) : (s.onPwr f).clk = s.clk := rfl
@[simp] theorem State.onPwr_regs (s : State) (f : PwrSt → PwrSt) : (s.onPwr f).regs = s.regs := rfl
@[simp] theorem State.onPwr_shadowR (s : State) (f : PwrSt → PwrSt) : (s.onPwr f).shadowR = s.shadowR := rfl
@[simp] theorem State.onPwr_shadowW (s : State) (f : PwrSt → PwrSt) : (s.onPwr f).shadowW = s.shadowW := rfl
@[simp] theorem State.onPwr_rdVal (s : State) (f : PwrSt → PwrSt) : (s.onPwr f).rdVal = s.rdVal := rfl
@[simp] theorem State.onPwr_mem (s : State) (f : PwrSt → PwrSt) : (s.onPwr f).mem = s.mem := rfl
@[simp] theorem State.onPwr_poi (s : State) (f : PwrSt → PwrSt) : (s.onPwr f).poi = s.poi := rfl
@[simp] theorem State.onPwr_blks (s : State) (f : PwrSt → PwrSt) : (s.onPwr f).blks = s.blks := rfl
@[simp] theorem State.onPwr_stew (s : State) (f : PwrSt → PwrSt) : (s.onPwr f).stew = s.stew := rfl
@[simp] theorem State.onPwr_stewBad (s : State) (f : PwrSt → PwrSt) : (s.onPwr f).stewBad = s.stewBad := rfl
@[simp] theorem State.onPwr_nv (s : State) (f : PwrSt → PwrSt) : (s.onPwr f).nv = s.nv := rfl
@[simp] theorem State.onPwr_stks (s : State) (f : PwrSt → PwrSt) : (s.onPwr f).stks = s.stks := rfl
@[simp] theorem State.onPwr_hubs (s : State) (f : PwrSt → PwrSt) : (s.onPwr f).hubs = s.hubs := rfl
@[simp] theorem State.onPwr_parts (s : State) (f : PwrSt → PwrSt) : (s.onPwr f).parts = s.parts := rfl
@[simp] theorem State.onPwr_cores (s : State) (f : PwrSt → PwrSt) : (s.onPwr f).cores = s.cores := rfl
@[simp] theorem State.onPwr_link (s : State) (f : PwrSt → PwrSt) : (s.onPwr f).link = s.link := rfl
@[simp] theorem State.onPwr_fab (s : State) (f : PwrSt → PwrSt) : (s.onPwr f).fab = s.fab := rfl
@[simp] theorem State.onPwr_mgt (s : State) (f : PwrSt → PwrSt) : (s.onPwr f).mgt = s.mgt := rfl
@[simp] theorem State.onPwr_sec (s : State) (f : PwrSt → PwrSt) : (s.onPwr f).sec = s.sec := rfl
@[simp] theorem State.onPwr_bst (s : State) (f : PwrSt → PwrSt) : (s.onPwr f).bst = s.bst := rfl
@[simp] theorem State.onPwr_memErr (s : State) (f : PwrSt → PwrSt) : (s.onPwr f).memErr = s.memErr := rfl
@[simp] theorem State.onPwr_memWb (s : State) (f : PwrSt → PwrSt) : (s.onPwr f).memWb = s.memWb := rfl
@[simp] theorem State.onPwr_free (s : State) (f : PwrSt → PwrSt) : (s.onPwr f).free = s.free := rfl
@[simp] theorem State.onPwr_pending (s : State) (f : PwrSt → PwrSt) : (s.onPwr f).pending = s.pending := rfl
@[simp] theorem State.onSec_clk (s : State) (f : SecSt → SecSt) : (s.onSec f).clk = s.clk := rfl
@[simp] theorem State.onSec_regs (s : State) (f : SecSt → SecSt) : (s.onSec f).regs = s.regs := rfl
@[simp] theorem State.onSec_shadowR (s : State) (f : SecSt → SecSt) : (s.onSec f).shadowR = s.shadowR := rfl
@[simp] theorem State.onSec_shadowW (s : State) (f : SecSt → SecSt) : (s.onSec f).shadowW = s.shadowW := rfl
@[simp] theorem State.onSec_rdVal (s : State) (f : SecSt → SecSt) : (s.onSec f).rdVal = s.rdVal := rfl
@[simp] theorem State.onSec_mem (s : State) (f : SecSt → SecSt) : (s.onSec f).mem = s.mem := rfl
@[simp] theorem State.onSec_poi (s : State) (f : SecSt → SecSt) : (s.onSec f).poi = s.poi := rfl
@[simp] theorem State.onSec_blks (s : State) (f : SecSt → SecSt) : (s.onSec f).blks = s.blks := rfl
@[simp] theorem State.onSec_stew (s : State) (f : SecSt → SecSt) : (s.onSec f).stew = s.stew := rfl
@[simp] theorem State.onSec_stewBad (s : State) (f : SecSt → SecSt) : (s.onSec f).stewBad = s.stewBad := rfl
@[simp] theorem State.onSec_nv (s : State) (f : SecSt → SecSt) : (s.onSec f).nv = s.nv := rfl
@[simp] theorem State.onSec_stks (s : State) (f : SecSt → SecSt) : (s.onSec f).stks = s.stks := rfl
@[simp] theorem State.onSec_hubs (s : State) (f : SecSt → SecSt) : (s.onSec f).hubs = s.hubs := rfl
@[simp] theorem State.onSec_parts (s : State) (f : SecSt → SecSt) : (s.onSec f).parts = s.parts := rfl
@[simp] theorem State.onSec_cores (s : State) (f : SecSt → SecSt) : (s.onSec f).cores = s.cores := rfl
@[simp] theorem State.onSec_link (s : State) (f : SecSt → SecSt) : (s.onSec f).link = s.link := rfl
@[simp] theorem State.onSec_fab (s : State) (f : SecSt → SecSt) : (s.onSec f).fab = s.fab := rfl
@[simp] theorem State.onSec_pwr (s : State) (f : SecSt → SecSt) : (s.onSec f).pwr = s.pwr := rfl
@[simp] theorem State.onSec_mgt (s : State) (f : SecSt → SecSt) : (s.onSec f).mgt = s.mgt := rfl
@[simp] theorem State.onSec_bst (s : State) (f : SecSt → SecSt) : (s.onSec f).bst = s.bst := rfl
@[simp] theorem State.onSec_memErr (s : State) (f : SecSt → SecSt) : (s.onSec f).memErr = s.memErr := rfl
@[simp] theorem State.onSec_memWb (s : State) (f : SecSt → SecSt) : (s.onSec f).memWb = s.memWb := rfl
@[simp] theorem State.onSec_free (s : State) (f : SecSt → SecSt) : (s.onSec f).free = s.free := rfl
@[simp] theorem State.onSec_pending (s : State) (f : SecSt → SecSt) : (s.onSec f).pending = s.pending := rfl
@[simp] theorem State.onMgt_clk (s : State) (f : MgtSt → MgtSt) : (s.onMgt f).clk = s.clk := rfl
@[simp] theorem State.onMgt_regs (s : State) (f : MgtSt → MgtSt) : (s.onMgt f).regs = s.regs := rfl
@[simp] theorem State.onMgt_shadowR (s : State) (f : MgtSt → MgtSt) : (s.onMgt f).shadowR = s.shadowR := rfl
@[simp] theorem State.onMgt_shadowW (s : State) (f : MgtSt → MgtSt) : (s.onMgt f).shadowW = s.shadowW := rfl
@[simp] theorem State.onMgt_rdVal (s : State) (f : MgtSt → MgtSt) : (s.onMgt f).rdVal = s.rdVal := rfl
@[simp] theorem State.onMgt_mem (s : State) (f : MgtSt → MgtSt) : (s.onMgt f).mem = s.mem := rfl
@[simp] theorem State.onMgt_poi (s : State) (f : MgtSt → MgtSt) : (s.onMgt f).poi = s.poi := rfl
@[simp] theorem State.onMgt_blks (s : State) (f : MgtSt → MgtSt) : (s.onMgt f).blks = s.blks := rfl
@[simp] theorem State.onMgt_stew (s : State) (f : MgtSt → MgtSt) : (s.onMgt f).stew = s.stew := rfl
@[simp] theorem State.onMgt_stewBad (s : State) (f : MgtSt → MgtSt) : (s.onMgt f).stewBad = s.stewBad := rfl
@[simp] theorem State.onMgt_nv (s : State) (f : MgtSt → MgtSt) : (s.onMgt f).nv = s.nv := rfl
@[simp] theorem State.onMgt_stks (s : State) (f : MgtSt → MgtSt) : (s.onMgt f).stks = s.stks := rfl
@[simp] theorem State.onMgt_hubs (s : State) (f : MgtSt → MgtSt) : (s.onMgt f).hubs = s.hubs := rfl
@[simp] theorem State.onMgt_parts (s : State) (f : MgtSt → MgtSt) : (s.onMgt f).parts = s.parts := rfl
@[simp] theorem State.onMgt_cores (s : State) (f : MgtSt → MgtSt) : (s.onMgt f).cores = s.cores := rfl
@[simp] theorem State.onMgt_link (s : State) (f : MgtSt → MgtSt) : (s.onMgt f).link = s.link := rfl
@[simp] theorem State.onMgt_fab (s : State) (f : MgtSt → MgtSt) : (s.onMgt f).fab = s.fab := rfl
@[simp] theorem State.onMgt_pwr (s : State) (f : MgtSt → MgtSt) : (s.onMgt f).pwr = s.pwr := rfl
@[simp] theorem State.onMgt_sec (s : State) (f : MgtSt → MgtSt) : (s.onMgt f).sec = s.sec := rfl
@[simp] theorem State.onMgt_bst (s : State) (f : MgtSt → MgtSt) : (s.onMgt f).bst = s.bst := rfl
@[simp] theorem State.onMgt_memErr (s : State) (f : MgtSt → MgtSt) : (s.onMgt f).memErr = s.memErr := rfl
@[simp] theorem State.onMgt_memWb (s : State) (f : MgtSt → MgtSt) : (s.onMgt f).memWb = s.memWb := rfl
@[simp] theorem State.onMgt_free (s : State) (f : MgtSt → MgtSt) : (s.onMgt f).free = s.free := rfl
@[simp] theorem State.onMgt_pending (s : State) (f : MgtSt → MgtSt) : (s.onMgt f).pending = s.pending := rfl
@[simp] theorem State.onLink_clk (s : State) (f : LinkSt → LinkSt) : (s.onLink f).clk = s.clk := rfl
@[simp] theorem State.onLink_regs (s : State) (f : LinkSt → LinkSt) : (s.onLink f).regs = s.regs := rfl
@[simp] theorem State.onLink_shadowR (s : State) (f : LinkSt → LinkSt) : (s.onLink f).shadowR = s.shadowR := rfl
@[simp] theorem State.onLink_shadowW (s : State) (f : LinkSt → LinkSt) : (s.onLink f).shadowW = s.shadowW := rfl
@[simp] theorem State.onLink_rdVal (s : State) (f : LinkSt → LinkSt) : (s.onLink f).rdVal = s.rdVal := rfl
@[simp] theorem State.onLink_mem (s : State) (f : LinkSt → LinkSt) : (s.onLink f).mem = s.mem := rfl
@[simp] theorem State.onLink_poi (s : State) (f : LinkSt → LinkSt) : (s.onLink f).poi = s.poi := rfl
@[simp] theorem State.onLink_blks (s : State) (f : LinkSt → LinkSt) : (s.onLink f).blks = s.blks := rfl
@[simp] theorem State.onLink_stew (s : State) (f : LinkSt → LinkSt) : (s.onLink f).stew = s.stew := rfl
@[simp] theorem State.onLink_stewBad (s : State) (f : LinkSt → LinkSt) : (s.onLink f).stewBad = s.stewBad := rfl
@[simp] theorem State.onLink_nv (s : State) (f : LinkSt → LinkSt) : (s.onLink f).nv = s.nv := rfl
@[simp] theorem State.onLink_stks (s : State) (f : LinkSt → LinkSt) : (s.onLink f).stks = s.stks := rfl
@[simp] theorem State.onLink_hubs (s : State) (f : LinkSt → LinkSt) : (s.onLink f).hubs = s.hubs := rfl
@[simp] theorem State.onLink_parts (s : State) (f : LinkSt → LinkSt) : (s.onLink f).parts = s.parts := rfl
@[simp] theorem State.onLink_cores (s : State) (f : LinkSt → LinkSt) : (s.onLink f).cores = s.cores := rfl
@[simp] theorem State.onLink_fab (s : State) (f : LinkSt → LinkSt) : (s.onLink f).fab = s.fab := rfl
@[simp] theorem State.onLink_pwr (s : State) (f : LinkSt → LinkSt) : (s.onLink f).pwr = s.pwr := rfl
@[simp] theorem State.onLink_mgt (s : State) (f : LinkSt → LinkSt) : (s.onLink f).mgt = s.mgt := rfl
@[simp] theorem State.onLink_sec (s : State) (f : LinkSt → LinkSt) : (s.onLink f).sec = s.sec := rfl
@[simp] theorem State.onLink_bst (s : State) (f : LinkSt → LinkSt) : (s.onLink f).bst = s.bst := rfl
@[simp] theorem State.onLink_memErr (s : State) (f : LinkSt → LinkSt) : (s.onLink f).memErr = s.memErr := rfl
@[simp] theorem State.onLink_memWb (s : State) (f : LinkSt → LinkSt) : (s.onLink f).memWb = s.memWb := rfl
@[simp] theorem State.onLink_free (s : State) (f : LinkSt → LinkSt) : (s.onLink f).free = s.free := rfl
@[simp] theorem State.onLink_pending (s : State) (f : LinkSt → LinkSt) : (s.onLink f).pending = s.pending := rfl
@[simp] theorem State.onClk_regs (s : State) (f : Clk → Clk) : (s.onClk f).regs = s.regs := rfl
@[simp] theorem State.onClk_shadowR (s : State) (f : Clk → Clk) : (s.onClk f).shadowR = s.shadowR := rfl
@[simp] theorem State.onClk_shadowW (s : State) (f : Clk → Clk) : (s.onClk f).shadowW = s.shadowW := rfl
@[simp] theorem State.onClk_rdVal (s : State) (f : Clk → Clk) : (s.onClk f).rdVal = s.rdVal := rfl
@[simp] theorem State.onClk_mem (s : State) (f : Clk → Clk) : (s.onClk f).mem = s.mem := rfl
@[simp] theorem State.onClk_poi (s : State) (f : Clk → Clk) : (s.onClk f).poi = s.poi := rfl
@[simp] theorem State.onClk_blks (s : State) (f : Clk → Clk) : (s.onClk f).blks = s.blks := rfl
@[simp] theorem State.onClk_stew (s : State) (f : Clk → Clk) : (s.onClk f).stew = s.stew := rfl
@[simp] theorem State.onClk_stewBad (s : State) (f : Clk → Clk) : (s.onClk f).stewBad = s.stewBad := rfl
@[simp] theorem State.onClk_nv (s : State) (f : Clk → Clk) : (s.onClk f).nv = s.nv := rfl
@[simp] theorem State.onClk_stks (s : State) (f : Clk → Clk) : (s.onClk f).stks = s.stks := rfl
@[simp] theorem State.onClk_hubs (s : State) (f : Clk → Clk) : (s.onClk f).hubs = s.hubs := rfl
@[simp] theorem State.onClk_parts (s : State) (f : Clk → Clk) : (s.onClk f).parts = s.parts := rfl
@[simp] theorem State.onClk_cores (s : State) (f : Clk → Clk) : (s.onClk f).cores = s.cores := rfl
@[simp] theorem State.onClk_link (s : State) (f : Clk → Clk) : (s.onClk f).link = s.link := rfl
@[simp] theorem State.onClk_fab (s : State) (f : Clk → Clk) : (s.onClk f).fab = s.fab := rfl
@[simp] theorem State.onClk_pwr (s : State) (f : Clk → Clk) : (s.onClk f).pwr = s.pwr := rfl
@[simp] theorem State.onClk_mgt (s : State) (f : Clk → Clk) : (s.onClk f).mgt = s.mgt := rfl
@[simp] theorem State.onClk_sec (s : State) (f : Clk → Clk) : (s.onClk f).sec = s.sec := rfl
@[simp] theorem State.onClk_bst (s : State) (f : Clk → Clk) : (s.onClk f).bst = s.bst := rfl
@[simp] theorem State.onClk_memErr (s : State) (f : Clk → Clk) : (s.onClk f).memErr = s.memErr := rfl
@[simp] theorem State.onClk_memWb (s : State) (f : Clk → Clk) : (s.onClk f).memWb = s.memWb := rfl
@[simp] theorem State.onClk_free (s : State) (f : Clk → Clk) : (s.onClk f).free = s.free := rfl
@[simp] theorem State.onClk_pending (s : State) (f : Clk → Clk) : (s.onClk f).pending = s.pending := rfl
@[simp] theorem State.onPort_clk (s : State) (n : Nat) (f : PortSt → PortSt) : (s.onPort n f).clk = s.clk := rfl
@[simp] theorem State.onPort_regs (s : State) (n : Nat) (f : PortSt → PortSt) : (s.onPort n f).regs = s.regs := rfl
@[simp] theorem State.onPort_shadowR (s : State) (n : Nat) (f : PortSt → PortSt) : (s.onPort n f).shadowR = s.shadowR := rfl
@[simp] theorem State.onPort_shadowW (s : State) (n : Nat) (f : PortSt → PortSt) : (s.onPort n f).shadowW = s.shadowW := rfl
@[simp] theorem State.onPort_rdVal (s : State) (n : Nat) (f : PortSt → PortSt) : (s.onPort n f).rdVal = s.rdVal := rfl
@[simp] theorem State.onPort_mem (s : State) (n : Nat) (f : PortSt → PortSt) : (s.onPort n f).mem = s.mem := rfl
@[simp] theorem State.onPort_poi (s : State) (n : Nat) (f : PortSt → PortSt) : (s.onPort n f).poi = s.poi := rfl
@[simp] theorem State.onPort_blks (s : State) (n : Nat) (f : PortSt → PortSt) : (s.onPort n f).blks = s.blks := rfl
@[simp] theorem State.onPort_stew (s : State) (n : Nat) (f : PortSt → PortSt) : (s.onPort n f).stew = s.stew := rfl
@[simp] theorem State.onPort_stewBad (s : State) (n : Nat) (f : PortSt → PortSt) : (s.onPort n f).stewBad = s.stewBad := rfl
@[simp] theorem State.onPort_nv (s : State) (n : Nat) (f : PortSt → PortSt) : (s.onPort n f).nv = s.nv := rfl
@[simp] theorem State.onPort_stks (s : State) (n : Nat) (f : PortSt → PortSt) : (s.onPort n f).stks = s.stks := rfl
@[simp] theorem State.onPort_hubs (s : State) (n : Nat) (f : PortSt → PortSt) : (s.onPort n f).hubs = s.hubs := rfl
@[simp] theorem State.onPort_parts (s : State) (n : Nat) (f : PortSt → PortSt) : (s.onPort n f).parts = s.parts := rfl
@[simp] theorem State.onPort_cores (s : State) (n : Nat) (f : PortSt → PortSt) : (s.onPort n f).cores = s.cores := rfl
@[simp] theorem State.onPort_link (s : State) (n : Nat) (f : PortSt → PortSt) : (s.onPort n f).link = s.link := rfl
@[simp] theorem State.onPort_pwr (s : State) (n : Nat) (f : PortSt → PortSt) : (s.onPort n f).pwr = s.pwr := rfl
@[simp] theorem State.onPort_mgt (s : State) (n : Nat) (f : PortSt → PortSt) : (s.onPort n f).mgt = s.mgt := rfl
@[simp] theorem State.onPort_sec (s : State) (n : Nat) (f : PortSt → PortSt) : (s.onPort n f).sec = s.sec := rfl
@[simp] theorem State.onPort_bst (s : State) (n : Nat) (f : PortSt → PortSt) : (s.onPort n f).bst = s.bst := rfl
@[simp] theorem State.onPort_memErr (s : State) (n : Nat) (f : PortSt → PortSt) : (s.onPort n f).memErr = s.memErr := rfl
@[simp] theorem State.onPort_memWb (s : State) (n : Nat) (f : PortSt → PortSt) : (s.onPort n f).memWb = s.memWb := rfl
@[simp] theorem State.onPort_free (s : State) (n : Nat) (f : PortSt → PortSt) : (s.onPort n f).free = s.free := rfl
@[simp] theorem State.onPort_pending (s : State) (n : Nat) (f : PortSt → PortSt) : (s.onPort n f).pending = s.pending := rfl
@[simp] theorem State.withPending_clk (s : State) (q : List Instr) : (s.withPending q).clk = s.clk := rfl
@[simp] theorem State.withPending_regs (s : State) (q : List Instr) : (s.withPending q).regs = s.regs := rfl
@[simp] theorem State.withPending_shadowR (s : State) (q : List Instr) : (s.withPending q).shadowR = s.shadowR := rfl
@[simp] theorem State.withPending_shadowW (s : State) (q : List Instr) : (s.withPending q).shadowW = s.shadowW := rfl
@[simp] theorem State.withPending_rdVal (s : State) (q : List Instr) : (s.withPending q).rdVal = s.rdVal := rfl
@[simp] theorem State.withPending_mem (s : State) (q : List Instr) : (s.withPending q).mem = s.mem := rfl
@[simp] theorem State.withPending_poi (s : State) (q : List Instr) : (s.withPending q).poi = s.poi := rfl
@[simp] theorem State.withPending_blks (s : State) (q : List Instr) : (s.withPending q).blks = s.blks := rfl
@[simp] theorem State.withPending_stew (s : State) (q : List Instr) : (s.withPending q).stew = s.stew := rfl
@[simp] theorem State.withPending_stewBad (s : State) (q : List Instr) : (s.withPending q).stewBad = s.stewBad := rfl
@[simp] theorem State.withPending_nv (s : State) (q : List Instr) : (s.withPending q).nv = s.nv := rfl
@[simp] theorem State.withPending_stks (s : State) (q : List Instr) : (s.withPending q).stks = s.stks := rfl
@[simp] theorem State.withPending_hubs (s : State) (q : List Instr) : (s.withPending q).hubs = s.hubs := rfl
@[simp] theorem State.withPending_parts (s : State) (q : List Instr) : (s.withPending q).parts = s.parts := rfl
@[simp] theorem State.withPending_cores (s : State) (q : List Instr) : (s.withPending q).cores = s.cores := rfl
@[simp] theorem State.withPending_link (s : State) (q : List Instr) : (s.withPending q).link = s.link := rfl
@[simp] theorem State.withPending_fab (s : State) (q : List Instr) : (s.withPending q).fab = s.fab := rfl
@[simp] theorem State.withPending_pwr (s : State) (q : List Instr) : (s.withPending q).pwr = s.pwr := rfl
@[simp] theorem State.withPending_mgt (s : State) (q : List Instr) : (s.withPending q).mgt = s.mgt := rfl
@[simp] theorem State.withPending_sec (s : State) (q : List Instr) : (s.withPending q).sec = s.sec := rfl
@[simp] theorem State.withPending_bst (s : State) (q : List Instr) : (s.withPending q).bst = s.bst := rfl
@[simp] theorem State.withPending_memErr (s : State) (q : List Instr) : (s.withPending q).memErr = s.memErr := rfl
@[simp] theorem State.withPending_memWb (s : State) (q : List Instr) : (s.withPending q).memWb = s.memWb := rfl
@[simp] theorem State.withPending_free (s : State) (q : List Instr) : (s.withPending q).free = s.free := rfl
@[simp] theorem State.stewWr_clk (s : State) (h o : Nat) (bs : List Byte) : (s.stewWr h o bs).clk = s.clk := rfl
@[simp] theorem State.stewWr_regs (s : State) (h o : Nat) (bs : List Byte) : (s.stewWr h o bs).regs = s.regs := rfl
@[simp] theorem State.stewWr_shadowR (s : State) (h o : Nat) (bs : List Byte) : (s.stewWr h o bs).shadowR = s.shadowR := rfl
@[simp] theorem State.stewWr_shadowW (s : State) (h o : Nat) (bs : List Byte) : (s.stewWr h o bs).shadowW = s.shadowW := rfl
@[simp] theorem State.stewWr_rdVal (s : State) (h o : Nat) (bs : List Byte) : (s.stewWr h o bs).rdVal = s.rdVal := rfl
@[simp] theorem State.stewWr_mem (s : State) (h o : Nat) (bs : List Byte) : (s.stewWr h o bs).mem = s.mem := rfl
@[simp] theorem State.stewWr_poi (s : State) (h o : Nat) (bs : List Byte) : (s.stewWr h o bs).poi = s.poi := rfl
@[simp] theorem State.stewWr_blks (s : State) (h o : Nat) (bs : List Byte) : (s.stewWr h o bs).blks = s.blks := rfl
@[simp] theorem State.stewWr_nv (s : State) (h o : Nat) (bs : List Byte) : (s.stewWr h o bs).nv = s.nv := rfl
@[simp] theorem State.stewWr_stks (s : State) (h o : Nat) (bs : List Byte) : (s.stewWr h o bs).stks = s.stks := rfl
@[simp] theorem State.stewWr_hubs (s : State) (h o : Nat) (bs : List Byte) : (s.stewWr h o bs).hubs = s.hubs := rfl
@[simp] theorem State.stewWr_parts (s : State) (h o : Nat) (bs : List Byte) : (s.stewWr h o bs).parts = s.parts := rfl
@[simp] theorem State.stewWr_cores (s : State) (h o : Nat) (bs : List Byte) : (s.stewWr h o bs).cores = s.cores := rfl
@[simp] theorem State.stewWr_link (s : State) (h o : Nat) (bs : List Byte) : (s.stewWr h o bs).link = s.link := rfl
@[simp] theorem State.stewWr_fab (s : State) (h o : Nat) (bs : List Byte) : (s.stewWr h o bs).fab = s.fab := rfl
@[simp] theorem State.stewWr_pwr (s : State) (h o : Nat) (bs : List Byte) : (s.stewWr h o bs).pwr = s.pwr := rfl
@[simp] theorem State.stewWr_mgt (s : State) (h o : Nat) (bs : List Byte) : (s.stewWr h o bs).mgt = s.mgt := rfl
@[simp] theorem State.stewWr_sec (s : State) (h o : Nat) (bs : List Byte) : (s.stewWr h o bs).sec = s.sec := rfl
@[simp] theorem State.stewWr_bst (s : State) (h o : Nat) (bs : List Byte) : (s.stewWr h o bs).bst = s.bst := rfl
@[simp] theorem State.stewWr_memErr (s : State) (h o : Nat) (bs : List Byte) : (s.stewWr h o bs).memErr = s.memErr := rfl
@[simp] theorem State.stewWr_memWb (s : State) (h o : Nat) (bs : List Byte) : (s.stewWr h o bs).memWb = s.memWb := rfl
@[simp] theorem State.stewWr_free (s : State) (h o : Nat) (bs : List Byte) : (s.stewWr h o bs).free = s.free := rfl
@[simp] theorem State.stewWr_pending (s : State) (h o : Nat) (bs : List Byte) : (s.stewWr h o bs).pending = s.pending := rfl
@[simp] theorem State.wrB_clk (s : State) (f : Field) (i : Nat) (b : Bool) : (s.wrB f i b).clk = s.clk := rfl
@[simp] theorem State.wrB_shadowR (s : State) (f : Field) (i : Nat) (b : Bool) : (s.wrB f i b).shadowR = s.shadowR := rfl
@[simp] theorem State.wrB_shadowW (s : State) (f : Field) (i : Nat) (b : Bool) : (s.wrB f i b).shadowW = s.shadowW := rfl
@[simp] theorem State.wrB_rdVal (s : State) (f : Field) (i : Nat) (b : Bool) : (s.wrB f i b).rdVal = s.rdVal := rfl
@[simp] theorem State.wrB_mem (s : State) (f : Field) (i : Nat) (b : Bool) : (s.wrB f i b).mem = s.mem := rfl
@[simp] theorem State.wrB_poi (s : State) (f : Field) (i : Nat) (b : Bool) : (s.wrB f i b).poi = s.poi := rfl
@[simp] theorem State.wrB_blks (s : State) (f : Field) (i : Nat) (b : Bool) : (s.wrB f i b).blks = s.blks := rfl
@[simp] theorem State.wrB_stew (s : State) (f : Field) (i : Nat) (b : Bool) : (s.wrB f i b).stew = s.stew := rfl
@[simp] theorem State.wrB_stewBad (s : State) (f : Field) (i : Nat) (b : Bool) : (s.wrB f i b).stewBad = s.stewBad := rfl
@[simp] theorem State.wrB_nv (s : State) (f : Field) (i : Nat) (b : Bool) : (s.wrB f i b).nv = s.nv := rfl
@[simp] theorem State.wrB_stks (s : State) (f : Field) (i : Nat) (b : Bool) : (s.wrB f i b).stks = s.stks := rfl
@[simp] theorem State.wrB_hubs (s : State) (f : Field) (i : Nat) (b : Bool) : (s.wrB f i b).hubs = s.hubs := rfl
@[simp] theorem State.wrB_parts (s : State) (f : Field) (i : Nat) (b : Bool) : (s.wrB f i b).parts = s.parts := rfl
@[simp] theorem State.wrB_cores (s : State) (f : Field) (i : Nat) (b : Bool) : (s.wrB f i b).cores = s.cores := rfl
@[simp] theorem State.wrB_link (s : State) (f : Field) (i : Nat) (b : Bool) : (s.wrB f i b).link = s.link := rfl
@[simp] theorem State.wrB_fab (s : State) (f : Field) (i : Nat) (b : Bool) : (s.wrB f i b).fab = s.fab := rfl
@[simp] theorem State.wrB_pwr (s : State) (f : Field) (i : Nat) (b : Bool) : (s.wrB f i b).pwr = s.pwr := rfl
@[simp] theorem State.wrB_mgt (s : State) (f : Field) (i : Nat) (b : Bool) : (s.wrB f i b).mgt = s.mgt := rfl
@[simp] theorem State.wrB_sec (s : State) (f : Field) (i : Nat) (b : Bool) : (s.wrB f i b).sec = s.sec := rfl
@[simp] theorem State.wrB_bst (s : State) (f : Field) (i : Nat) (b : Bool) : (s.wrB f i b).bst = s.bst := rfl
@[simp] theorem State.wrB_memErr (s : State) (f : Field) (i : Nat) (b : Bool) : (s.wrB f i b).memErr = s.memErr := rfl
@[simp] theorem State.wrB_memWb (s : State) (f : Field) (i : Nat) (b : Bool) : (s.wrB f i b).memWb = s.memWb := rfl
@[simp] theorem State.wrB_free (s : State) (f : Field) (i : Nat) (b : Bool) : (s.wrB f i b).free = s.free := rfl
@[simp] theorem State.wrB_pending (s : State) (f : Field) (i : Nat) (b : Bool) : (s.wrB f i b).pending = s.pending := rfl
@[simp] theorem State.raise_clk (s : State) (f : Field) (i : Nat) : (s.raise f i).clk = s.clk := rfl
@[simp] theorem State.raise_shadowR (s : State) (f : Field) (i : Nat) : (s.raise f i).shadowR = s.shadowR := rfl
@[simp] theorem State.raise_shadowW (s : State) (f : Field) (i : Nat) : (s.raise f i).shadowW = s.shadowW := rfl
@[simp] theorem State.raise_rdVal (s : State) (f : Field) (i : Nat) : (s.raise f i).rdVal = s.rdVal := rfl
@[simp] theorem State.raise_mem (s : State) (f : Field) (i : Nat) : (s.raise f i).mem = s.mem := rfl
@[simp] theorem State.raise_poi (s : State) (f : Field) (i : Nat) : (s.raise f i).poi = s.poi := rfl
@[simp] theorem State.raise_blks (s : State) (f : Field) (i : Nat) : (s.raise f i).blks = s.blks := rfl
@[simp] theorem State.raise_stew (s : State) (f : Field) (i : Nat) : (s.raise f i).stew = s.stew := rfl
@[simp] theorem State.raise_stewBad (s : State) (f : Field) (i : Nat) : (s.raise f i).stewBad = s.stewBad := rfl
@[simp] theorem State.raise_nv (s : State) (f : Field) (i : Nat) : (s.raise f i).nv = s.nv := rfl
@[simp] theorem State.raise_stks (s : State) (f : Field) (i : Nat) : (s.raise f i).stks = s.stks := rfl
@[simp] theorem State.raise_hubs (s : State) (f : Field) (i : Nat) : (s.raise f i).hubs = s.hubs := rfl
@[simp] theorem State.raise_parts (s : State) (f : Field) (i : Nat) : (s.raise f i).parts = s.parts := rfl
@[simp] theorem State.raise_cores (s : State) (f : Field) (i : Nat) : (s.raise f i).cores = s.cores := rfl
@[simp] theorem State.raise_link (s : State) (f : Field) (i : Nat) : (s.raise f i).link = s.link := rfl
@[simp] theorem State.raise_fab (s : State) (f : Field) (i : Nat) : (s.raise f i).fab = s.fab := rfl
@[simp] theorem State.raise_pwr (s : State) (f : Field) (i : Nat) : (s.raise f i).pwr = s.pwr := rfl
@[simp] theorem State.raise_mgt (s : State) (f : Field) (i : Nat) : (s.raise f i).mgt = s.mgt := rfl
@[simp] theorem State.raise_sec (s : State) (f : Field) (i : Nat) : (s.raise f i).sec = s.sec := rfl
@[simp] theorem State.raise_bst (s : State) (f : Field) (i : Nat) : (s.raise f i).bst = s.bst := rfl
@[simp] theorem State.raise_memErr (s : State) (f : Field) (i : Nat) : (s.raise f i).memErr = s.memErr := rfl
@[simp] theorem State.raise_memWb (s : State) (f : Field) (i : Nat) : (s.raise f i).memWb = s.memWb := rfl
@[simp] theorem State.raise_free (s : State) (f : Field) (i : Nat) : (s.raise f i).free = s.free := rfl
@[simp] theorem State.raise_pending (s : State) (f : Field) (i : Nat) : (s.raise f i).pending = s.pending := rfl
@[simp] theorem State.bump_clk (s : State) (f : Field) (i n : Nat) : (s.bump f i n).clk = s.clk := rfl
@[simp] theorem State.bump_shadowR (s : State) (f : Field) (i n : Nat) : (s.bump f i n).shadowR = s.shadowR := rfl
@[simp] theorem State.bump_shadowW (s : State) (f : Field) (i n : Nat) : (s.bump f i n).shadowW = s.shadowW := rfl
@[simp] theorem State.bump_rdVal (s : State) (f : Field) (i n : Nat) : (s.bump f i n).rdVal = s.rdVal := rfl
@[simp] theorem State.bump_mem (s : State) (f : Field) (i n : Nat) : (s.bump f i n).mem = s.mem := rfl
@[simp] theorem State.bump_poi (s : State) (f : Field) (i n : Nat) : (s.bump f i n).poi = s.poi := rfl
@[simp] theorem State.bump_blks (s : State) (f : Field) (i n : Nat) : (s.bump f i n).blks = s.blks := rfl
@[simp] theorem State.bump_stew (s : State) (f : Field) (i n : Nat) : (s.bump f i n).stew = s.stew := rfl
@[simp] theorem State.bump_stewBad (s : State) (f : Field) (i n : Nat) : (s.bump f i n).stewBad = s.stewBad := rfl
@[simp] theorem State.bump_nv (s : State) (f : Field) (i n : Nat) : (s.bump f i n).nv = s.nv := rfl
@[simp] theorem State.bump_stks (s : State) (f : Field) (i n : Nat) : (s.bump f i n).stks = s.stks := rfl
@[simp] theorem State.bump_hubs (s : State) (f : Field) (i n : Nat) : (s.bump f i n).hubs = s.hubs := rfl
@[simp] theorem State.bump_parts (s : State) (f : Field) (i n : Nat) : (s.bump f i n).parts = s.parts := rfl
@[simp] theorem State.bump_cores (s : State) (f : Field) (i n : Nat) : (s.bump f i n).cores = s.cores := rfl
@[simp] theorem State.bump_link (s : State) (f : Field) (i n : Nat) : (s.bump f i n).link = s.link := rfl
@[simp] theorem State.bump_fab (s : State) (f : Field) (i n : Nat) : (s.bump f i n).fab = s.fab := rfl
@[simp] theorem State.bump_pwr (s : State) (f : Field) (i n : Nat) : (s.bump f i n).pwr = s.pwr := rfl
@[simp] theorem State.bump_mgt (s : State) (f : Field) (i n : Nat) : (s.bump f i n).mgt = s.mgt := rfl
@[simp] theorem State.bump_sec (s : State) (f : Field) (i n : Nat) : (s.bump f i n).sec = s.sec := rfl
@[simp] theorem State.bump_bst (s : State) (f : Field) (i n : Nat) : (s.bump f i n).bst = s.bst := rfl
@[simp] theorem State.bump_memErr (s : State) (f : Field) (i n : Nat) : (s.bump f i n).memErr = s.memErr := rfl
@[simp] theorem State.bump_memWb (s : State) (f : Field) (i n : Nat) : (s.bump f i n).memWb = s.memWb := rfl
@[simp] theorem State.bump_free (s : State) (f : Field) (i n : Nat) : (s.bump f i n).free = s.free := rfl
@[simp] theorem State.bump_pending (s : State) (f : Field) (i n : Nat) : (s.bump f i n).pending = s.pending := rfl
@[simp] theorem State.count_clk (s : State) (f : Field) (i : Nat) : (s.count f i).clk = s.clk := rfl
@[simp] theorem State.count_shadowR (s : State) (f : Field) (i : Nat) : (s.count f i).shadowR = s.shadowR := rfl
@[simp] theorem State.count_shadowW (s : State) (f : Field) (i : Nat) : (s.count f i).shadowW = s.shadowW := rfl
@[simp] theorem State.count_rdVal (s : State) (f : Field) (i : Nat) : (s.count f i).rdVal = s.rdVal := rfl
@[simp] theorem State.count_mem (s : State) (f : Field) (i : Nat) : (s.count f i).mem = s.mem := rfl
@[simp] theorem State.count_poi (s : State) (f : Field) (i : Nat) : (s.count f i).poi = s.poi := rfl
@[simp] theorem State.count_blks (s : State) (f : Field) (i : Nat) : (s.count f i).blks = s.blks := rfl
@[simp] theorem State.count_stew (s : State) (f : Field) (i : Nat) : (s.count f i).stew = s.stew := rfl
@[simp] theorem State.count_stewBad (s : State) (f : Field) (i : Nat) : (s.count f i).stewBad = s.stewBad := rfl
@[simp] theorem State.count_nv (s : State) (f : Field) (i : Nat) : (s.count f i).nv = s.nv := rfl
@[simp] theorem State.count_stks (s : State) (f : Field) (i : Nat) : (s.count f i).stks = s.stks := rfl
@[simp] theorem State.count_hubs (s : State) (f : Field) (i : Nat) : (s.count f i).hubs = s.hubs := rfl
@[simp] theorem State.count_parts (s : State) (f : Field) (i : Nat) : (s.count f i).parts = s.parts := rfl
@[simp] theorem State.count_cores (s : State) (f : Field) (i : Nat) : (s.count f i).cores = s.cores := rfl
@[simp] theorem State.count_link (s : State) (f : Field) (i : Nat) : (s.count f i).link = s.link := rfl
@[simp] theorem State.count_fab (s : State) (f : Field) (i : Nat) : (s.count f i).fab = s.fab := rfl
@[simp] theorem State.count_pwr (s : State) (f : Field) (i : Nat) : (s.count f i).pwr = s.pwr := rfl
@[simp] theorem State.count_mgt (s : State) (f : Field) (i : Nat) : (s.count f i).mgt = s.mgt := rfl
@[simp] theorem State.count_sec (s : State) (f : Field) (i : Nat) : (s.count f i).sec = s.sec := rfl
@[simp] theorem State.count_bst (s : State) (f : Field) (i : Nat) : (s.count f i).bst = s.bst := rfl
@[simp] theorem State.count_memErr (s : State) (f : Field) (i : Nat) : (s.count f i).memErr = s.memErr := rfl
@[simp] theorem State.count_memWb (s : State) (f : Field) (i : Nat) : (s.count f i).memWb = s.memWb := rfl
@[simp] theorem State.count_free (s : State) (f : Field) (i : Nat) : (s.count f i).free = s.free := rfl
@[simp] theorem State.count_pending (s : State) (f : Field) (i : Nat) : (s.count f i).pending = s.pending := rfl
@[simp] theorem State.flagCount_clk (s : State) (f c : Field) (i : Nat) : (s.flagCount f c i).clk = s.clk := rfl
@[simp] theorem State.flagCount_shadowR (s : State) (f c : Field) (i : Nat) : (s.flagCount f c i).shadowR = s.shadowR := rfl
@[simp] theorem State.flagCount_shadowW (s : State) (f c : Field) (i : Nat) : (s.flagCount f c i).shadowW = s.shadowW := rfl
@[simp] theorem State.flagCount_rdVal (s : State) (f c : Field) (i : Nat) : (s.flagCount f c i).rdVal = s.rdVal := rfl
@[simp] theorem State.flagCount_mem (s : State) (f c : Field) (i : Nat) : (s.flagCount f c i).mem = s.mem := rfl
@[simp] theorem State.flagCount_poi (s : State) (f c : Field) (i : Nat) : (s.flagCount f c i).poi = s.poi := rfl
@[simp] theorem State.flagCount_blks (s : State) (f c : Field) (i : Nat) : (s.flagCount f c i).blks = s.blks := rfl
@[simp] theorem State.flagCount_stew (s : State) (f c : Field) (i : Nat) : (s.flagCount f c i).stew = s.stew := rfl
@[simp] theorem State.flagCount_stewBad (s : State) (f c : Field) (i : Nat) : (s.flagCount f c i).stewBad = s.stewBad := rfl
@[simp] theorem State.flagCount_nv (s : State) (f c : Field) (i : Nat) : (s.flagCount f c i).nv = s.nv := rfl
@[simp] theorem State.flagCount_stks (s : State) (f c : Field) (i : Nat) : (s.flagCount f c i).stks = s.stks := rfl
@[simp] theorem State.flagCount_hubs (s : State) (f c : Field) (i : Nat) : (s.flagCount f c i).hubs = s.hubs := rfl
@[simp] theorem State.flagCount_parts (s : State) (f c : Field) (i : Nat) : (s.flagCount f c i).parts = s.parts := rfl
@[simp] theorem State.flagCount_cores (s : State) (f c : Field) (i : Nat) : (s.flagCount f c i).cores = s.cores := rfl
@[simp] theorem State.flagCount_link (s : State) (f c : Field) (i : Nat) : (s.flagCount f c i).link = s.link := rfl
@[simp] theorem State.flagCount_fab (s : State) (f c : Field) (i : Nat) : (s.flagCount f c i).fab = s.fab := rfl
@[simp] theorem State.flagCount_pwr (s : State) (f c : Field) (i : Nat) : (s.flagCount f c i).pwr = s.pwr := rfl
@[simp] theorem State.flagCount_mgt (s : State) (f c : Field) (i : Nat) : (s.flagCount f c i).mgt = s.mgt := rfl
@[simp] theorem State.flagCount_sec (s : State) (f c : Field) (i : Nat) : (s.flagCount f c i).sec = s.sec := rfl
@[simp] theorem State.flagCount_bst (s : State) (f c : Field) (i : Nat) : (s.flagCount f c i).bst = s.bst := rfl
@[simp] theorem State.flagCount_memErr (s : State) (f c : Field) (i : Nat) : (s.flagCount f c i).memErr = s.memErr := rfl
@[simp] theorem State.flagCount_memWb (s : State) (f c : Field) (i : Nat) : (s.flagCount f c i).memWb = s.memWb := rfl
@[simp] theorem State.flagCount_free (s : State) (f c : Field) (i : Nat) : (s.flagCount f c i).free = s.free := rfl
@[simp] theorem State.flagCount_pending (s : State) (f c : Field) (i : Nat) : (s.flagCount f c i).pending = s.pending := rfl
@[simp] theorem State.refuseWrite_clk (s : State) (p : Page) (i : Nat) : (s.refuseWrite p i).clk = s.clk := rfl
@[simp] theorem State.refuseWrite_shadowR (s : State) (p : Page) (i : Nat) : (s.refuseWrite p i).shadowR = s.shadowR := rfl
@[simp] theorem State.refuseWrite_shadowW (s : State) (p : Page) (i : Nat) : (s.refuseWrite p i).shadowW = s.shadowW := rfl
@[simp] theorem State.refuseWrite_rdVal (s : State) (p : Page) (i : Nat) : (s.refuseWrite p i).rdVal = s.rdVal := rfl
@[simp] theorem State.refuseWrite_mem (s : State) (p : Page) (i : Nat) : (s.refuseWrite p i).mem = s.mem := rfl
@[simp] theorem State.refuseWrite_poi (s : State) (p : Page) (i : Nat) : (s.refuseWrite p i).poi = s.poi := rfl
@[simp] theorem State.refuseWrite_blks (s : State) (p : Page) (i : Nat) : (s.refuseWrite p i).blks = s.blks := rfl
@[simp] theorem State.refuseWrite_stew (s : State) (p : Page) (i : Nat) : (s.refuseWrite p i).stew = s.stew := rfl
@[simp] theorem State.refuseWrite_stewBad (s : State) (p : Page) (i : Nat) : (s.refuseWrite p i).stewBad = s.stewBad := rfl
@[simp] theorem State.refuseWrite_nv (s : State) (p : Page) (i : Nat) : (s.refuseWrite p i).nv = s.nv := rfl
@[simp] theorem State.refuseWrite_stks (s : State) (p : Page) (i : Nat) : (s.refuseWrite p i).stks = s.stks := rfl
@[simp] theorem State.refuseWrite_hubs (s : State) (p : Page) (i : Nat) : (s.refuseWrite p i).hubs = s.hubs := rfl
@[simp] theorem State.refuseWrite_parts (s : State) (p : Page) (i : Nat) : (s.refuseWrite p i).parts = s.parts := rfl
@[simp] theorem State.refuseWrite_cores (s : State) (p : Page) (i : Nat) : (s.refuseWrite p i).cores = s.cores := rfl
@[simp] theorem State.refuseWrite_link (s : State) (p : Page) (i : Nat) : (s.refuseWrite p i).link = s.link := rfl
@[simp] theorem State.refuseWrite_fab (s : State) (p : Page) (i : Nat) : (s.refuseWrite p i).fab = s.fab := rfl
@[simp] theorem State.refuseWrite_pwr (s : State) (p : Page) (i : Nat) : (s.refuseWrite p i).pwr = s.pwr := rfl
@[simp] theorem State.refuseWrite_mgt (s : State) (p : Page) (i : Nat) : (s.refuseWrite p i).mgt = s.mgt := rfl
@[simp] theorem State.refuseWrite_sec (s : State) (p : Page) (i : Nat) : (s.refuseWrite p i).sec = s.sec := rfl
@[simp] theorem State.refuseWrite_bst (s : State) (p : Page) (i : Nat) : (s.refuseWrite p i).bst = s.bst := rfl
@[simp] theorem State.refuseWrite_memErr (s : State) (p : Page) (i : Nat) : (s.refuseWrite p i).memErr = s.memErr := rfl
@[simp] theorem State.refuseWrite_memWb (s : State) (p : Page) (i : Nat) : (s.refuseWrite p i).memWb = s.memWb := rfl
@[simp] theorem State.refuseWrite_free (s : State) (p : Page) (i : Nat) : (s.refuseWrite p i).free = s.free := rfl
@[simp] theorem State.refuseWrite_pending (s : State) (p : Page) (i : Nat) : (s.refuseWrite p i).pending = s.pending := rfl
@[simp] theorem State.bring_clk (s : State) (who : Requester) (v : Nat) : (s.bring who v).clk = s.clk := rfl
@[simp] theorem State.bring_regs (s : State) (who : Requester) (v : Nat) : (s.bring who v).regs = s.regs := rfl
@[simp] theorem State.bring_shadowR (s : State) (who : Requester) (v : Nat) : (s.bring who v).shadowR = s.shadowR := rfl
@[simp] theorem State.bring_shadowW (s : State) (who : Requester) (v : Nat) : (s.bring who v).shadowW = s.shadowW := rfl
@[simp] theorem State.bring_mem (s : State) (who : Requester) (v : Nat) : (s.bring who v).mem = s.mem := rfl
@[simp] theorem State.bring_poi (s : State) (who : Requester) (v : Nat) : (s.bring who v).poi = s.poi := rfl
@[simp] theorem State.bring_blks (s : State) (who : Requester) (v : Nat) : (s.bring who v).blks = s.blks := rfl
@[simp] theorem State.bring_stew (s : State) (who : Requester) (v : Nat) : (s.bring who v).stew = s.stew := rfl
@[simp] theorem State.bring_stewBad (s : State) (who : Requester) (v : Nat) : (s.bring who v).stewBad = s.stewBad := rfl
@[simp] theorem State.bring_nv (s : State) (who : Requester) (v : Nat) : (s.bring who v).nv = s.nv := rfl
@[simp] theorem State.bring_stks (s : State) (who : Requester) (v : Nat) : (s.bring who v).stks = s.stks := rfl
@[simp] theorem State.bring_hubs (s : State) (who : Requester) (v : Nat) : (s.bring who v).hubs = s.hubs := rfl
@[simp] theorem State.bring_parts (s : State) (who : Requester) (v : Nat) : (s.bring who v).parts = s.parts := rfl
@[simp] theorem State.bring_cores (s : State) (who : Requester) (v : Nat) : (s.bring who v).cores = s.cores := rfl
@[simp] theorem State.bring_link (s : State) (who : Requester) (v : Nat) : (s.bring who v).link = s.link := rfl
@[simp] theorem State.bring_fab (s : State) (who : Requester) (v : Nat) : (s.bring who v).fab = s.fab := rfl
@[simp] theorem State.bring_pwr (s : State) (who : Requester) (v : Nat) : (s.bring who v).pwr = s.pwr := rfl
@[simp] theorem State.bring_mgt (s : State) (who : Requester) (v : Nat) : (s.bring who v).mgt = s.mgt := rfl
@[simp] theorem State.bring_sec (s : State) (who : Requester) (v : Nat) : (s.bring who v).sec = s.sec := rfl
@[simp] theorem State.bring_bst (s : State) (who : Requester) (v : Nat) : (s.bring who v).bst = s.bst := rfl
@[simp] theorem State.bring_memErr (s : State) (who : Requester) (v : Nat) : (s.bring who v).memErr = s.memErr := rfl
@[simp] theorem State.bring_memWb (s : State) (who : Requester) (v : Nat) : (s.bring who v).memWb = s.memWb := rfl
@[simp] theorem State.bring_free (s : State) (who : Requester) (v : Nat) : (s.bring who v).free = s.free := rfl
@[simp] theorem State.bring_pending (s : State) (who : Requester) (v : Nat) : (s.bring who v).pending = s.pending := rfl

/-- A loop keeps what each round keeps. -/
theorem State.each_eq {α β : Type} (π : State → β) (l : List α) (f : α → State → State) (h : ∀ x s, π (f x s) = π s) (s : State) :
    π (s.each l f) = π s := by
  unfold State.each
  induction l generalizing s with
  | nil => rfl
  | cons x t ih => rw [List.foldl_cons, ih, h]

/-- A conditional update keeps what the update keeps. -/
theorem State.whenB_eq {β : Type} (π : State → β) (b : Bool) (f : State → State) (h : ∀ s, π (f s) = π s) (s : State) :
    π (s.whenB b f) = π s := by
  unfold State.whenB
  split
  · exact h s
  · rfl

/-- A loop keeps an invariant that each round keeps. -/
theorem State.each_keeps {α : Type} (P : State → Prop) (l : List α) (f : α → State → State) (h : ∀ x s, P s → P (f x s)) (s : State)
    (hs : P s) : P (s.each l f) := by
  unfold State.each
  induction l generalizing s with
  | nil => exact hs
  | cons x t ih => exact ih _ (h x s hs)

/-- A conditional update keeps an invariant that the update keeps. -/
theorem State.whenB_keeps (P : State → Prop) (b : Bool) (f : State → State) (h : ∀ s, P s → P (f s)) (s : State) (hs : P s) :
    P (s.whenB b f) := by
  unfold State.whenB
  split
  · exact h s hs
  · exact hs

/-! ### Memory accesses: what they leave -/

/-- What a decode of bursts may change: register fields, the records of the hubs (their reports) and the write-backs that wait. -/
def Decoded (s t : State) : Prop := ∃ regs hubs memWb, t = { s with regs := regs, hubs := hubs, memWb := memWb }

/-- Nothing done. -/
theorem Decoded.refl (s : State) : Decoded s s := ⟨_, _, _, rfl⟩
/-- One after another. -/
theorem Decoded.trans {s t u : State} (h : Decoded s t) (g : Decoded t u) : Decoded s u := by
  obtain ⟨a, b, c, rfl⟩ := h
  obtain ⟨d, e, f, rfl⟩ := g
  exact ⟨d, e, f, rfl⟩
/-- A register field. -/
theorem Decoded.wr {s t : State} (h : Decoded s t) (f : Field) (i v : Nat) : Decoded s (t.wr f i v) :=
  h.trans ⟨(t.wr f i v).regs, t.hubs, t.memWb, rfl⟩
/-- A flag and its counter. -/
theorem Decoded.flagCount {s t : State} (h : Decoded s t) (f c : Field) (i : Nat) : Decoded s (t.flagCount f c i) :=
  (h.wr f i 1).wr c i _
/-- The record of a hub. -/
theorem Decoded.onHub {s t : State} (h : Decoded s t) (k : Nat) (f : HubSt → HubSt) : Decoded s (t.onHub k f) :=
  h.trans ⟨t.regs, (t.onHub k f).hubs, t.memWb, rfl⟩
/-- A report. -/
theorem Decoded.report {s t : State} (h : Decoded s t) (k : Nat) (r : Report) : Decoded s (t.report k r) := by
  unfold State.report
  extract_lets u now q v r'
  split
  · exact (h.onHub _ _).wr _ _ _
  · split
    · exact h.onHub _ _
    · have hv : Decoded s v := (h.wr _ _ _).wr _ _ _
      split
      · exact hv.onHub _ _
      · exact hv.onHub _ _
/-- A write-back. -/
theorem Decoded.queueWb {s t : State} (h : Decoded s t) (b : Nat) (p : Bool) : Decoded s (t.queueWb b p) := by
  unfold State.queueWb
  extract_lets k key q
  split
  · exact h
  · split
    · exact h.trans ⟨_, _, _, rfl⟩
    · split
      · exact h.flagCount _ _ _
      · exact h.trans ⟨_, _, _, rfl⟩
/-- A burst. -/
theorem Decoded.burst {s t : State} (h : Decoded s t) (b : Nat) : Decoded s (t.decodeBurst b) := by
  unfold State.decodeBurst
  extract_lets a k u ch v ps
  split
  · split
    · exact h.wr _ _ _
    · exact h
  · have hu : Decoded s u := (h.flagCount _ _ _).queueWb _ _
    split
    · exact hu.wr _ _ _
    · exact hu
  · exact (((((h.flagCount _ _ _).wr _ _ _).wr _ _ _).queueWb _ _).report _ _)
/-- A list of bursts. -/
theorem Decoded.each (l : List Nat) (s : State) : Decoded s (s.each l (fun b s => s.decodeBurst b)) :=
  State.each_keeps (Decoded s) l _ (fun b _ h => h.burst b) s (.refl s)
/-- A run of bytes read. -/
theorem State.touch_decoded (s : State) (a n : Nat) : Decoded s (s.touch a n) := Decoded.each _ s

/-- What writing bursts with poison may change. -/
theorem State.poisonBursts_only (s : State) (bs : List Nat) : ∃ regs poi, s.poisonBursts bs = { s with regs := regs, poi := poi } := by
  unfold State.poisonBursts
  generalize bs.eraseDups = l
  induction l generalizing s with
  | nil => exact ⟨_, _, rfl⟩
  | cons x t ih =>
    rw [List.foldl_cons]
    obtain ⟨r, p, h⟩ := ih (({ s with poi := AMap.put s.poi x 1 0 } : State).bump R.MEM.POISON_WRITE_CNT (hubOfAddr (64 * x)) 1)
    exact ⟨r, p, h⟩

/-- What a write of memory may change: its bytes, the errors and write-backs of its bursts, poison marks, and what the decode of its partly
written bursts changes. -/
theorem State.mwrP_only (s : State) (a : Nat) (bs : List Byte) (ps : List Nat) : ∃ regs hubs memWb poi, s.mwrP a bs ps =
    { s with regs := regs, hubs := hubs, memWb := memWb, poi := poi, mem := s.mem.write a bs
             blks := s.blks.filter (fun e => bs.length == 0 || e.2.outside e.1 a bs.length)
             memErr := s.memErr.filter (fun e => !touchedIn a bs.length e.1) } := by
  unfold State.mwrP
  extract_lets n dirty keep t u
  obtain ⟨r, p, h⟩ := State.poisonBursts_only u (keep ++ ps)
  obtain ⟨r', h', w', e⟩ : Decoded s t := Decoded.each dirty s
  rw [h]
  show ∃ regs hubs memWb poi, ({ u with regs := r, poi := p } : State) = _
  refine ⟨r, t.hubs, u.memWb, p, ?_⟩
  simp only [u, e]
  rfl

@[simp] theorem State.report_clk (s : State) (k : Nat) (r : Report) : (s.report k r).clk = s.clk := by
  obtain ⟨_, _, _, h⟩ := (Decoded.refl s).report k r
  rw [h]
@[simp] theorem State.report_shadowR (s : State) (k : Nat) (r : Report) : (s.report k r).shadowR = s.shadowR := by
  obtain ⟨_, _, _, h⟩ := (Decoded.refl s).report k r
  rw [h]
@[simp] theorem State.report_shadowW (s : State) (k : Nat) (r : Report) : (s.report k r).shadowW = s.shadowW := by
  obtain ⟨_, _, _, h⟩ := (Decoded.refl s).report k r
  rw [h]
@[simp] theorem State.report_rdVal (s : State) (k : Nat) (r : Report) : (s.report k r).rdVal = s.rdVal := by
  obtain ⟨_, _, _, h⟩ := (Decoded.refl s).report k r
  rw [h]
@[simp] theorem State.report_mem (s : State) (k : Nat) (r : Report) : (s.report k r).mem = s.mem := by
  obtain ⟨_, _, _, h⟩ := (Decoded.refl s).report k r
  rw [h]
@[simp] theorem State.report_poi (s : State) (k : Nat) (r : Report) : (s.report k r).poi = s.poi := by
  obtain ⟨_, _, _, h⟩ := (Decoded.refl s).report k r
  rw [h]
@[simp] theorem State.report_blks (s : State) (k : Nat) (r : Report) : (s.report k r).blks = s.blks := by
  obtain ⟨_, _, _, h⟩ := (Decoded.refl s).report k r
  rw [h]
@[simp] theorem State.report_stew (s : State) (k : Nat) (r : Report) : (s.report k r).stew = s.stew := by
  obtain ⟨_, _, _, h⟩ := (Decoded.refl s).report k r
  rw [h]
@[simp] theorem State.report_stewBad (s : State) (k : Nat) (r : Report) : (s.report k r).stewBad = s.stewBad := by
  obtain ⟨_, _, _, h⟩ := (Decoded.refl s).report k r
  rw [h]
@[simp] theorem State.report_nv (s : State) (k : Nat) (r : Report) : (s.report k r).nv = s.nv := by
  obtain ⟨_, _, _, h⟩ := (Decoded.refl s).report k r
  rw [h]
@[simp] theorem State.report_stks (s : State) (k : Nat) (r : Report) : (s.report k r).stks = s.stks := by
  obtain ⟨_, _, _, h⟩ := (Decoded.refl s).report k r
  rw [h]
@[simp] theorem State.report_parts (s : State) (k : Nat) (r : Report) : (s.report k r).parts = s.parts := by
  obtain ⟨_, _, _, h⟩ := (Decoded.refl s).report k r
  rw [h]
@[simp] theorem State.report_cores (s : State) (k : Nat) (r : Report) : (s.report k r).cores = s.cores := by
  obtain ⟨_, _, _, h⟩ := (Decoded.refl s).report k r
  rw [h]
@[simp] theorem State.report_link (s : State) (k : Nat) (r : Report) : (s.report k r).link = s.link := by
  obtain ⟨_, _, _, h⟩ := (Decoded.refl s).report k r
  rw [h]
@[simp] theorem State.report_fab (s : State) (k : Nat) (r : Report) : (s.report k r).fab = s.fab := by
  obtain ⟨_, _, _, h⟩ := (Decoded.refl s).report k r
  rw [h]
@[simp] theorem State.report_pwr (s : State) (k : Nat) (r : Report) : (s.report k r).pwr = s.pwr := by
  obtain ⟨_, _, _, h⟩ := (Decoded.refl s).report k r
  rw [h]
@[simp] theorem State.report_mgt (s : State) (k : Nat) (r : Report) : (s.report k r).mgt = s.mgt := by
  obtain ⟨_, _, _, h⟩ := (Decoded.refl s).report k r
  rw [h]
@[simp] theorem State.report_sec (s : State) (k : Nat) (r : Report) : (s.report k r).sec = s.sec := by
  obtain ⟨_, _, _, h⟩ := (Decoded.refl s).report k r
  rw [h]
@[simp] theorem State.report_bst (s : State) (k : Nat) (r : Report) : (s.report k r).bst = s.bst := by
  obtain ⟨_, _, _, h⟩ := (Decoded.refl s).report k r
  rw [h]
@[simp] theorem State.report_memErr (s : State) (k : Nat) (r : Report) : (s.report k r).memErr = s.memErr := by
  obtain ⟨_, _, _, h⟩ := (Decoded.refl s).report k r
  rw [h]
@[simp] theorem State.report_free (s : State) (k : Nat) (r : Report) : (s.report k r).free = s.free := by
  obtain ⟨_, _, _, h⟩ := (Decoded.refl s).report k r
  rw [h]
@[simp] theorem State.report_pending (s : State) (k : Nat) (r : Report) : (s.report k r).pending = s.pending := by
  obtain ⟨_, _, _, h⟩ := (Decoded.refl s).report k r
  rw [h]
@[simp] theorem State.decodeBurst_clk (s : State) (b : Nat) : (s.decodeBurst b).clk = s.clk := by
  obtain ⟨_, _, _, h⟩ := (Decoded.refl s).burst b
  rw [h]
@[simp] theorem State.decodeBurst_shadowR (s : State) (b : Nat) : (s.decodeBurst b).shadowR = s.shadowR := by
  obtain ⟨_, _, _, h⟩ := (Decoded.refl s).burst b
  rw [h]
@[simp] theorem State.decodeBurst_shadowW (s : State) (b : Nat) : (s.decodeBurst b).shadowW = s.shadowW := by
  obtain ⟨_, _, _, h⟩ := (Decoded.refl s).burst b
  rw [h]
@[simp] theorem State.decodeBurst_rdVal (s : State) (b : Nat) : (s.decodeBurst b).rdVal = s.rdVal := by
  obtain ⟨_, _, _, h⟩ := (Decoded.refl s).burst b
  rw [h]
@[simp] theorem State.decodeBurst_mem (s : State) (b : Nat) : (s.decodeBurst b).mem = s.mem := by
  obtain ⟨_, _, _, h⟩ := (Decoded.refl s).burst b
  rw [h]
@[simp] theorem State.decodeBurst_poi (s : State) (b : Nat) : (s.decodeBurst b).poi = s.poi := by
  obtain ⟨_, _, _, h⟩ := (Decoded.refl s).burst b
  rw [h]
@[simp] theorem State.decodeBurst_blks (s : State) (b : Nat) : (s.decodeBurst b).blks = s.blks := by
  obtain ⟨_, _, _, h⟩ := (Decoded.refl s).burst b
  rw [h]
@[simp] theorem State.decodeBurst_stew (s : State) (b : Nat) : (s.decodeBurst b).stew = s.stew := by
  obtain ⟨_, _, _, h⟩ := (Decoded.refl s).burst b
  rw [h]
@[simp] theorem State.decodeBurst_stewBad (s : State) (b : Nat) : (s.decodeBurst b).stewBad = s.stewBad := by
  obtain ⟨_, _, _, h⟩ := (Decoded.refl s).burst b
  rw [h]
@[simp] theorem State.decodeBurst_nv (s : State) (b : Nat) : (s.decodeBurst b).nv = s.nv := by
  obtain ⟨_, _, _, h⟩ := (Decoded.refl s).burst b
  rw [h]
@[simp] theorem State.decodeBurst_stks (s : State) (b : Nat) : (s.decodeBurst b).stks = s.stks := by
  obtain ⟨_, _, _, h⟩ := (Decoded.refl s).burst b
  rw [h]
@[simp] theorem State.decodeBurst_parts (s : State) (b : Nat) : (s.decodeBurst b).parts = s.parts := by
  obtain ⟨_, _, _, h⟩ := (Decoded.refl s).burst b
  rw [h]
@[simp] theorem State.decodeBurst_cores (s : State) (b : Nat) : (s.decodeBurst b).cores = s.cores := by
  obtain ⟨_, _, _, h⟩ := (Decoded.refl s).burst b
  rw [h]
@[simp] theorem State.decodeBurst_link (s : State) (b : Nat) : (s.decodeBurst b).link = s.link := by
  obtain ⟨_, _, _, h⟩ := (Decoded.refl s).burst b
  rw [h]
@[simp] theorem State.decodeBurst_fab (s : State) (b : Nat) : (s.decodeBurst b).fab = s.fab := by
  obtain ⟨_, _, _, h⟩ := (Decoded.refl s).burst b
  rw [h]
@[simp] theorem State.decodeBurst_pwr (s : State) (b : Nat) : (s.decodeBurst b).pwr = s.pwr := by
  obtain ⟨_, _, _, h⟩ := (Decoded.refl s).burst b
  rw [h]
@[simp] theorem State.decodeBurst_mgt (s : State) (b : Nat) : (s.decodeBurst b).mgt = s.mgt := by
  obtain ⟨_, _, _, h⟩ := (Decoded.refl s).burst b
  rw [h]
@[simp] theorem State.decodeBurst_sec (s : State) (b : Nat) : (s.decodeBurst b).sec = s.sec := by
  obtain ⟨_, _, _, h⟩ := (Decoded.refl s).burst b
  rw [h]
@[simp] theorem State.decodeBurst_bst (s : State) (b : Nat) : (s.decodeBurst b).bst = s.bst := by
  obtain ⟨_, _, _, h⟩ := (Decoded.refl s).burst b
  rw [h]
@[simp] theorem State.decodeBurst_memErr (s : State) (b : Nat) : (s.decodeBurst b).memErr = s.memErr := by
  obtain ⟨_, _, _, h⟩ := (Decoded.refl s).burst b
  rw [h]
@[simp] theorem State.decodeBurst_free (s : State) (b : Nat) : (s.decodeBurst b).free = s.free := by
  obtain ⟨_, _, _, h⟩ := (Decoded.refl s).burst b
  rw [h]
@[simp] theorem State.decodeBurst_pending (s : State) (b : Nat) : (s.decodeBurst b).pending = s.pending := by
  obtain ⟨_, _, _, h⟩ := (Decoded.refl s).burst b
  rw [h]
@[simp] theorem State.touch_clk (s : State) (a n : Nat) : (s.touch a n).clk = s.clk := by
  obtain ⟨_, _, _, h⟩ := s.touch_decoded a n
  rw [h]
@[simp] theorem State.touch_shadowR (s : State) (a n : Nat) : (s.touch a n).shadowR = s.shadowR := by
  obtain ⟨_, _, _, h⟩ := s.touch_decoded a n
  rw [h]
@[simp] theorem State.touch_shadowW (s : State) (a n : Nat) : (s.touch a n).shadowW = s.shadowW := by
  obtain ⟨_, _, _, h⟩ := s.touch_decoded a n
  rw [h]
@[simp] theorem State.touch_rdVal (s : State) (a n : Nat) : (s.touch a n).rdVal = s.rdVal := by
  obtain ⟨_, _, _, h⟩ := s.touch_decoded a n
  rw [h]
@[simp] theorem State.touch_mem (s : State) (a n : Nat) : (s.touch a n).mem = s.mem := by
  obtain ⟨_, _, _, h⟩ := s.touch_decoded a n
  rw [h]
@[simp] theorem State.touch_poi (s : State) (a n : Nat) : (s.touch a n).poi = s.poi := by
  obtain ⟨_, _, _, h⟩ := s.touch_decoded a n
  rw [h]
@[simp] theorem State.touch_blks (s : State) (a n : Nat) : (s.touch a n).blks = s.blks := by
  obtain ⟨_, _, _, h⟩ := s.touch_decoded a n
  rw [h]
@[simp] theorem State.touch_stew (s : State) (a n : Nat) : (s.touch a n).stew = s.stew := by
  obtain ⟨_, _, _, h⟩ := s.touch_decoded a n
  rw [h]
@[simp] theorem State.touch_stewBad (s : State) (a n : Nat) : (s.touch a n).stewBad = s.stewBad := by
  obtain ⟨_, _, _, h⟩ := s.touch_decoded a n
  rw [h]
@[simp] theorem State.touch_nv (s : State) (a n : Nat) : (s.touch a n).nv = s.nv := by
  obtain ⟨_, _, _, h⟩ := s.touch_decoded a n
  rw [h]
@[simp] theorem State.touch_stks (s : State) (a n : Nat) : (s.touch a n).stks = s.stks := by
  obtain ⟨_, _, _, h⟩ := s.touch_decoded a n
  rw [h]
@[simp] theorem State.touch_parts (s : State) (a n : Nat) : (s.touch a n).parts = s.parts := by
  obtain ⟨_, _, _, h⟩ := s.touch_decoded a n
  rw [h]
@[simp] theorem State.touch_cores (s : State) (a n : Nat) : (s.touch a n).cores = s.cores := by
  obtain ⟨_, _, _, h⟩ := s.touch_decoded a n
  rw [h]
@[simp] theorem State.touch_link (s : State) (a n : Nat) : (s.touch a n).link = s.link := by
  obtain ⟨_, _, _, h⟩ := s.touch_decoded a n
  rw [h]
@[simp] theorem State.touch_fab (s : State) (a n : Nat) : (s.touch a n).fab = s.fab := by
  obtain ⟨_, _, _, h⟩ := s.touch_decoded a n
  rw [h]
@[simp] theorem State.touch_pwr (s : State) (a n : Nat) : (s.touch a n).pwr = s.pwr := by
  obtain ⟨_, _, _, h⟩ := s.touch_decoded a n
  rw [h]
@[simp] theorem State.touch_mgt (s : State) (a n : Nat) : (s.touch a n).mgt = s.mgt := by
  obtain ⟨_, _, _, h⟩ := s.touch_decoded a n
  rw [h]
@[simp] theorem State.touch_sec (s : State) (a n : Nat) : (s.touch a n).sec = s.sec := by
  obtain ⟨_, _, _, h⟩ := s.touch_decoded a n
  rw [h]
@[simp] theorem State.touch_bst (s : State) (a n : Nat) : (s.touch a n).bst = s.bst := by
  obtain ⟨_, _, _, h⟩ := s.touch_decoded a n
  rw [h]
@[simp] theorem State.touch_memErr (s : State) (a n : Nat) : (s.touch a n).memErr = s.memErr := by
  obtain ⟨_, _, _, h⟩ := s.touch_decoded a n
  rw [h]
@[simp] theorem State.touch_free (s : State) (a n : Nat) : (s.touch a n).free = s.free := by
  obtain ⟨_, _, _, h⟩ := s.touch_decoded a n
  rw [h]
@[simp] theorem State.touch_pending (s : State) (a n : Nat) : (s.touch a n).pending = s.pending := by
  obtain ⟨_, _, _, h⟩ := s.touch_decoded a n
  rw [h]
@[simp] theorem State.poisonBursts_clk (s : State) (bs : List Nat) : (s.poisonBursts bs).clk = s.clk := by
  obtain ⟨_, _, h⟩ := s.poisonBursts_only bs
  rw [h]
@[simp] theorem State.poisonBursts_shadowR (s : State) (bs : List Nat) : (s.poisonBursts bs).shadowR = s.shadowR := by
  obtain ⟨_, _, h⟩ := s.poisonBursts_only bs
  rw [h]
@[simp] theorem State.poisonBursts_shadowW (s : State) (bs : List Nat) : (s.poisonBursts bs).shadowW = s.shadowW := by
  obtain ⟨_, _, h⟩ := s.poisonBursts_only bs
  rw [h]
@[simp] theorem State.poisonBursts_rdVal (s : State) (bs : List Nat) : (s.poisonBursts bs).rdVal = s.rdVal := by
  obtain ⟨_, _, h⟩ := s.poisonBursts_only bs
  rw [h]
@[simp] theorem State.poisonBursts_mem (s : State) (bs : List Nat) : (s.poisonBursts bs).mem = s.mem := by
  obtain ⟨_, _, h⟩ := s.poisonBursts_only bs
  rw [h]
@[simp] theorem State.poisonBursts_blks (s : State) (bs : List Nat) : (s.poisonBursts bs).blks = s.blks := by
  obtain ⟨_, _, h⟩ := s.poisonBursts_only bs
  rw [h]
@[simp] theorem State.poisonBursts_stew (s : State) (bs : List Nat) : (s.poisonBursts bs).stew = s.stew := by
  obtain ⟨_, _, h⟩ := s.poisonBursts_only bs
  rw [h]
@[simp] theorem State.poisonBursts_stewBad (s : State) (bs : List Nat) : (s.poisonBursts bs).stewBad = s.stewBad := by
  obtain ⟨_, _, h⟩ := s.poisonBursts_only bs
  rw [h]
@[simp] theorem State.poisonBursts_nv (s : State) (bs : List Nat) : (s.poisonBursts bs).nv = s.nv := by
  obtain ⟨_, _, h⟩ := s.poisonBursts_only bs
  rw [h]
@[simp] theorem State.poisonBursts_stks (s : State) (bs : List Nat) : (s.poisonBursts bs).stks = s.stks := by
  obtain ⟨_, _, h⟩ := s.poisonBursts_only bs
  rw [h]
@[simp] theorem State.poisonBursts_hubs (s : State) (bs : List Nat) : (s.poisonBursts bs).hubs = s.hubs := by
  obtain ⟨_, _, h⟩ := s.poisonBursts_only bs
  rw [h]
@[simp] theorem State.poisonBursts_parts (s : State) (bs : List Nat) : (s.poisonBursts bs).parts = s.parts := by
  obtain ⟨_, _, h⟩ := s.poisonBursts_only bs
  rw [h]
@[simp] theorem State.poisonBursts_cores (s : State) (bs : List Nat) : (s.poisonBursts bs).cores = s.cores := by
  obtain ⟨_, _, h⟩ := s.poisonBursts_only bs
  rw [h]
@[simp] theorem State.poisonBursts_link (s : State) (bs : List Nat) : (s.poisonBursts bs).link = s.link := by
  obtain ⟨_, _, h⟩ := s.poisonBursts_only bs
  rw [h]
@[simp] theorem State.poisonBursts_fab (s : State) (bs : List Nat) : (s.poisonBursts bs).fab = s.fab := by
  obtain ⟨_, _, h⟩ := s.poisonBursts_only bs
  rw [h]
@[simp] theorem State.poisonBursts_pwr (s : State) (bs : List Nat) : (s.poisonBursts bs).pwr = s.pwr := by
  obtain ⟨_, _, h⟩ := s.poisonBursts_only bs
  rw [h]
@[simp] theorem State.poisonBursts_mgt (s : State) (bs : List Nat) : (s.poisonBursts bs).mgt = s.mgt := by
  obtain ⟨_, _, h⟩ := s.poisonBursts_only bs
  rw [h]
@[simp] theorem State.poisonBursts_sec (s : State) (bs : List Nat) : (s.poisonBursts bs).sec = s.sec := by
  obtain ⟨_, _, h⟩ := s.poisonBursts_only bs
  rw [h]
@[simp] theorem State.poisonBursts_bst (s : State) (bs : List Nat) : (s.poisonBursts bs).bst = s.bst := by
  obtain ⟨_, _, h⟩ := s.poisonBursts_only bs
  rw [h]
@[simp] theorem State.poisonBursts_memErr (s : State) (bs : List Nat) : (s.poisonBursts bs).memErr = s.memErr := by
  obtain ⟨_, _, h⟩ := s.poisonBursts_only bs
  rw [h]
@[simp] theorem State.poisonBursts_memWb (s : State) (bs : List Nat) : (s.poisonBursts bs).memWb = s.memWb := by
  obtain ⟨_, _, h⟩ := s.poisonBursts_only bs
  rw [h]
@[simp] theorem State.poisonBursts_free (s : State) (bs : List Nat) : (s.poisonBursts bs).free = s.free := by
  obtain ⟨_, _, h⟩ := s.poisonBursts_only bs
  rw [h]
@[simp] theorem State.poisonBursts_pending (s : State) (bs : List Nat) : (s.poisonBursts bs).pending = s.pending := by
  obtain ⟨_, _, h⟩ := s.poisonBursts_only bs
  rw [h]
@[simp] theorem State.mpoison_clk (s : State) (a n : Nat) : (s.mpoison a n).clk = s.clk := State.poisonBursts_clk ..
@[simp] theorem State.mpoison_shadowR (s : State) (a n : Nat) : (s.mpoison a n).shadowR = s.shadowR := State.poisonBursts_shadowR ..
@[simp] theorem State.mpoison_shadowW (s : State) (a n : Nat) : (s.mpoison a n).shadowW = s.shadowW := State.poisonBursts_shadowW ..
@[simp] theorem State.mpoison_rdVal (s : State) (a n : Nat) : (s.mpoison a n).rdVal = s.rdVal := State.poisonBursts_rdVal ..
@[simp] theorem State.mpoison_mem (s : State) (a n : Nat) : (s.mpoison a n).mem = s.mem := State.poisonBursts_mem ..
@[simp] theorem State.mpoison_blks (s : State) (a n : Nat) : (s.mpoison a n).blks = s.blks := State.poisonBursts_blks ..
@[simp] theorem State.mpoison_stew (s : State) (a n : Nat) : (s.mpoison a n).stew = s.stew := State.poisonBursts_stew ..
@[simp] theorem State.mpoison_stewBad (s : State) (a n : Nat) : (s.mpoison a n).stewBad = s.stewBad := State.poisonBursts_stewBad ..
@[simp] theorem State.mpoison_nv (s : State) (a n : Nat) : (s.mpoison a n).nv = s.nv := State.poisonBursts_nv ..
@[simp] theorem State.mpoison_stks (s : State) (a n : Nat) : (s.mpoison a n).stks = s.stks := State.poisonBursts_stks ..
@[simp] theorem State.mpoison_hubs (s : State) (a n : Nat) : (s.mpoison a n).hubs = s.hubs := State.poisonBursts_hubs ..
@[simp] theorem State.mpoison_parts (s : State) (a n : Nat) : (s.mpoison a n).parts = s.parts := State.poisonBursts_parts ..
@[simp] theorem State.mpoison_cores (s : State) (a n : Nat) : (s.mpoison a n).cores = s.cores := State.poisonBursts_cores ..
@[simp] theorem State.mpoison_link (s : State) (a n : Nat) : (s.mpoison a n).link = s.link := State.poisonBursts_link ..
@[simp] theorem State.mpoison_fab (s : State) (a n : Nat) : (s.mpoison a n).fab = s.fab := State.poisonBursts_fab ..
@[simp] theorem State.mpoison_pwr (s : State) (a n : Nat) : (s.mpoison a n).pwr = s.pwr := State.poisonBursts_pwr ..
@[simp] theorem State.mpoison_mgt (s : State) (a n : Nat) : (s.mpoison a n).mgt = s.mgt := State.poisonBursts_mgt ..
@[simp] theorem State.mpoison_sec (s : State) (a n : Nat) : (s.mpoison a n).sec = s.sec := State.poisonBursts_sec ..
@[simp] theorem State.mpoison_bst (s : State) (a n : Nat) : (s.mpoison a n).bst = s.bst := State.poisonBursts_bst ..
@[simp] theorem State.mpoison_memErr (s : State) (a n : Nat) : (s.mpoison a n).memErr = s.memErr := State.poisonBursts_memErr ..
@[simp] theorem State.mpoison_memWb (s : State) (a n : Nat) : (s.mpoison a n).memWb = s.memWb := State.poisonBursts_memWb ..
@[simp] theorem State.mpoison_free (s : State) (a n : Nat) : (s.mpoison a n).free = s.free := State.poisonBursts_free ..
@[simp] theorem State.mpoison_pending (s : State) (a n : Nat) : (s.mpoison a n).pending = s.pending := State.poisonBursts_pending ..
@[simp] theorem State.mwrP_clk (s : State) (a : Nat) (bs : List Byte) (ps : List Nat) : (s.mwrP a bs ps).clk = s.clk := by
  obtain ⟨_, _, _, _, h⟩ := s.mwrP_only a bs ps
  rw [h]
@[simp] theorem State.mwrP_shadowR (s : State) (a : Nat) (bs : List Byte) (ps : List Nat) : (s.mwrP a bs ps).shadowR = s.shadowR := by
  obtain ⟨_, _, _, _, h⟩ := s.mwrP_only a bs ps
  rw [h]
@[simp] theorem State.mwrP_shadowW (s : State) (a : Nat) (bs : List Byte) (ps : List Nat) : (s.mwrP a bs ps).shadowW = s.shadowW := by
  obtain ⟨_, _, _, _, h⟩ := s.mwrP_only a bs ps
  rw [h]
@[simp] theorem State.mwrP_rdVal (s : State) (a : Nat) (bs : List Byte) (ps : List Nat) : (s.mwrP a bs ps).rdVal = s.rdVal := by
  obtain ⟨_, _, _, _, h⟩ := s.mwrP_only a bs ps
  rw [h]
@[simp] theorem State.mwrP_stew (s : State) (a : Nat) (bs : List Byte) (ps : List Nat) : (s.mwrP a bs ps).stew = s.stew := by
  obtain ⟨_, _, _, _, h⟩ := s.mwrP_only a bs ps
  rw [h]
@[simp] theorem State.mwrP_stewBad (s : State) (a : Nat) (bs : List Byte) (ps : List Nat) : (s.mwrP a bs ps).stewBad = s.stewBad := by
  obtain ⟨_, _, _, _, h⟩ := s.mwrP_only a bs ps
  rw [h]
@[simp] theorem State.mwrP_nv (s : State) (a : Nat) (bs : List Byte) (ps : List Nat) : (s.mwrP a bs ps).nv = s.nv := by
  obtain ⟨_, _, _, _, h⟩ := s.mwrP_only a bs ps
  rw [h]
@[simp] theorem State.mwrP_stks (s : State) (a : Nat) (bs : List Byte) (ps : List Nat) : (s.mwrP a bs ps).stks = s.stks := by
  obtain ⟨_, _, _, _, h⟩ := s.mwrP_only a bs ps
  rw [h]
@[simp] theorem State.mwrP_parts (s : State) (a : Nat) (bs : List Byte) (ps : List Nat) : (s.mwrP a bs ps).parts = s.parts := by
  obtain ⟨_, _, _, _, h⟩ := s.mwrP_only a bs ps
  rw [h]
@[simp] theorem State.mwrP_cores (s : State) (a : Nat) (bs : List Byte) (ps : List Nat) : (s.mwrP a bs ps).cores = s.cores := by
  obtain ⟨_, _, _, _, h⟩ := s.mwrP_only a bs ps
  rw [h]
@[simp] theorem State.mwrP_link (s : State) (a : Nat) (bs : List Byte) (ps : List Nat) : (s.mwrP a bs ps).link = s.link := by
  obtain ⟨_, _, _, _, h⟩ := s.mwrP_only a bs ps
  rw [h]
@[simp] theorem State.mwrP_fab (s : State) (a : Nat) (bs : List Byte) (ps : List Nat) : (s.mwrP a bs ps).fab = s.fab := by
  obtain ⟨_, _, _, _, h⟩ := s.mwrP_only a bs ps
  rw [h]
@[simp] theorem State.mwrP_pwr (s : State) (a : Nat) (bs : List Byte) (ps : List Nat) : (s.mwrP a bs ps).pwr = s.pwr := by
  obtain ⟨_, _, _, _, h⟩ := s.mwrP_only a bs ps
  rw [h]
@[simp] theorem State.mwrP_mgt (s : State) (a : Nat) (bs : List Byte) (ps : List Nat) : (s.mwrP a bs ps).mgt = s.mgt := by
  obtain ⟨_, _, _, _, h⟩ := s.mwrP_only a bs ps
  rw [h]
@[simp] theorem State.mwrP_sec (s : State) (a : Nat) (bs : List Byte) (ps : List Nat) : (s.mwrP a bs ps).sec = s.sec := by
  obtain ⟨_, _, _, _, h⟩ := s.mwrP_only a bs ps
  rw [h]
@[simp] theorem State.mwrP_bst (s : State) (a : Nat) (bs : List Byte) (ps : List Nat) : (s.mwrP a bs ps).bst = s.bst := by
  obtain ⟨_, _, _, _, h⟩ := s.mwrP_only a bs ps
  rw [h]
@[simp] theorem State.mwrP_free (s : State) (a : Nat) (bs : List Byte) (ps : List Nat) : (s.mwrP a bs ps).free = s.free := by
  obtain ⟨_, _, _, _, h⟩ := s.mwrP_only a bs ps
  rw [h]
@[simp] theorem State.mwrP_pending (s : State) (a : Nat) (bs : List Byte) (ps : List Nat) : (s.mwrP a bs ps).pending = s.pending := by
  obtain ⟨_, _, _, _, h⟩ := s.mwrP_only a bs ps
  rw [h]
@[simp] theorem State.mwr_clk (s : State) (a : Nat) (bs : List Byte) : (s.mwr a bs).clk = s.clk := State.mwrP_clk ..
@[simp] theorem State.mwr_shadowR (s : State) (a : Nat) (bs : List Byte) : (s.mwr a bs).shadowR = s.shadowR := State.mwrP_shadowR ..
@[simp] theorem State.mwr_shadowW (s : State) (a : Nat) (bs : List Byte) : (s.mwr a bs).shadowW = s.shadowW := State.mwrP_shadowW ..
@[simp] theorem State.mwr_rdVal (s : State) (a : Nat) (bs : List Byte) : (s.mwr a bs).rdVal = s.rdVal := State.mwrP_rdVal ..
@[simp] theorem State.mwr_stew (s : State) (a : Nat) (bs : List Byte) : (s.mwr a bs).stew = s.stew := State.mwrP_stew ..
@[simp] theorem State.mwr_stewBad (s : State) (a : Nat) (bs : List Byte) : (s.mwr a bs).stewBad = s.stewBad := State.mwrP_stewBad ..
@[simp] theorem State.mwr_nv (s : State) (a : Nat) (bs : List Byte) : (s.mwr a bs).nv = s.nv := State.mwrP_nv ..
@[simp] theorem State.mwr_stks (s : State) (a : Nat) (bs : List Byte) : (s.mwr a bs).stks = s.stks := State.mwrP_stks ..
@[simp] theorem State.mwr_parts (s : State) (a : Nat) (bs : List Byte) : (s.mwr a bs).parts = s.parts := State.mwrP_parts ..
@[simp] theorem State.mwr_cores (s : State) (a : Nat) (bs : List Byte) : (s.mwr a bs).cores = s.cores := State.mwrP_cores ..
@[simp] theorem State.mwr_link (s : State) (a : Nat) (bs : List Byte) : (s.mwr a bs).link = s.link := State.mwrP_link ..
@[simp] theorem State.mwr_fab (s : State) (a : Nat) (bs : List Byte) : (s.mwr a bs).fab = s.fab := State.mwrP_fab ..
@[simp] theorem State.mwr_pwr (s : State) (a : Nat) (bs : List Byte) : (s.mwr a bs).pwr = s.pwr := State.mwrP_pwr ..
@[simp] theorem State.mwr_mgt (s : State) (a : Nat) (bs : List Byte) : (s.mwr a bs).mgt = s.mgt := State.mwrP_mgt ..
@[simp] theorem State.mwr_sec (s : State) (a : Nat) (bs : List Byte) : (s.mwr a bs).sec = s.sec := State.mwrP_sec ..
@[simp] theorem State.mwr_bst (s : State) (a : Nat) (bs : List Byte) : (s.mwr a bs).bst = s.bst := State.mwrP_bst ..
@[simp] theorem State.mwr_free (s : State) (a : Nat) (bs : List Byte) : (s.mwr a bs).free = s.free := State.mwrP_free ..
@[simp] theorem State.mwr_pending (s : State) (a : Nat) (bs : List Byte) : (s.mwr a bs).pending = s.pending := State.mwrP_pending ..
@[simp] theorem State.mput_clk (s : State) (a : Nat) (bs : List Byte) (x : Nat) : (s.mput a bs x).clk = s.clk := State.mwrP_clk ..
@[simp] theorem State.mput_shadowR (s : State) (a : Nat) (bs : List Byte) (x : Nat) : (s.mput a bs x).shadowR = s.shadowR := State.mwrP_shadowR ..
@[simp] theorem State.mput_shadowW (s : State) (a : Nat) (bs : List Byte) (x : Nat) : (s.mput a bs x).shadowW = s.shadowW := State.mwrP_shadowW ..
@[simp] theorem State.mput_rdVal (s : State) (a : Nat) (bs : List Byte) (x : Nat) : (s.mput a bs x).rdVal = s.rdVal := State.mwrP_rdVal ..
@[simp] theorem State.mput_stew (s : State) (a : Nat) (bs : List Byte) (x : Nat) : (s.mput a bs x).stew = s.stew := State.mwrP_stew ..
@[simp] theorem State.mput_stewBad (s : State) (a : Nat) (bs : List Byte) (x : Nat) : (s.mput a bs x).stewBad = s.stewBad := State.mwrP_stewBad ..
@[simp] theorem State.mput_nv (s : State) (a : Nat) (bs : List Byte) (x : Nat) : (s.mput a bs x).nv = s.nv := State.mwrP_nv ..
@[simp] theorem State.mput_stks (s : State) (a : Nat) (bs : List Byte) (x : Nat) : (s.mput a bs x).stks = s.stks := State.mwrP_stks ..
@[simp] theorem State.mput_parts (s : State) (a : Nat) (bs : List Byte) (x : Nat) : (s.mput a bs x).parts = s.parts := State.mwrP_parts ..
@[simp] theorem State.mput_cores (s : State) (a : Nat) (bs : List Byte) (x : Nat) : (s.mput a bs x).cores = s.cores := State.mwrP_cores ..
@[simp] theorem State.mput_link (s : State) (a : Nat) (bs : List Byte) (x : Nat) : (s.mput a bs x).link = s.link := State.mwrP_link ..
@[simp] theorem State.mput_fab (s : State) (a : Nat) (bs : List Byte) (x : Nat) : (s.mput a bs x).fab = s.fab := State.mwrP_fab ..
@[simp] theorem State.mput_pwr (s : State) (a : Nat) (bs : List Byte) (x : Nat) : (s.mput a bs x).pwr = s.pwr := State.mwrP_pwr ..
@[simp] theorem State.mput_mgt (s : State) (a : Nat) (bs : List Byte) (x : Nat) : (s.mput a bs x).mgt = s.mgt := State.mwrP_mgt ..
@[simp] theorem State.mput_sec (s : State) (a : Nat) (bs : List Byte) (x : Nat) : (s.mput a bs x).sec = s.sec := State.mwrP_sec ..
@[simp] theorem State.mput_bst (s : State) (a : Nat) (bs : List Byte) (x : Nat) : (s.mput a bs x).bst = s.bst := State.mwrP_bst ..
@[simp] theorem State.mput_free (s : State) (a : Nat) (bs : List Byte) (x : Nat) : (s.mput a bs x).free = s.free := State.mwrP_free ..
@[simp] theorem State.mput_pending (s : State) (a : Nat) (bs : List Byte) (x : Nat) : (s.mput a bs x).pending = s.pending := State.mwrP_pending ..

/-- A write writes its bytes, and nothing else of the memory. -/
@[simp] theorem State.mwrP_mem (s : State) (a : Nat) (bs : List Byte) (ps : List Nat) : (s.mwrP a bs ps).mem = s.mem.write a bs := by
  obtain ⟨_, _, _, _, h⟩ := s.mwrP_only a bs ps
  rw [h]
@[simp] theorem State.mwr_mem (s : State) (a : Nat) (bs : List Byte) : (s.mwr a bs).mem = s.mem.write a bs := State.mwrP_mem ..
@[simp] theorem State.mput_mem (s : State) (a : Nat) (bs : List Byte) (x : Nat) : (s.mput a bs x).mem = s.mem.write a bs := State.mwrP_mem ..
/-- The errors of the bursts that a write touches go. -/
@[simp] theorem State.mwrP_memErr (s : State) (a : Nat) (bs : List Byte) (ps : List Nat) :
    (s.mwrP a bs ps).memErr = s.memErr.filter (fun e => !touchedIn a bs.length e.1) := by
  obtain ⟨_, _, _, _, h⟩ := s.mwrP_only a bs ps
  rw [h]

end Machine

end Sys2Proof
end

