-- ==== Sys2Proof/Laws/Frame.lean ====
section
/-! SUPPORT. Frames over register fields: what a chain of writes leaves alone. -/
namespace Sys2Proof.Machine

/-- Nothing written. -/
theorem RegsBut.refl (l : List (Field × Nat)) (s : State) : RegsBut l s s := fun _ _ _ => rfl

/-- States with the same register fields. -/
theorem RegsBut.of_regs {l : List (Field × Nat)} {s t u : State} (h : RegsBut l s t) (e : u.regs = t.regs) : RegsBut l s u := by
  intro f i hi
  rw [← h f i hi]
  unfold State.rd
  rw [e]

/-- One more write to a listed field. -/
theorem RegsBut.wr {l : List (Field × Nat)} {s t : State} (h : RegsBut l s t) (f : Field) (i v : Nat) (hm : (f, i) ∈ l) :
    RegsBut l s (t.wr f i v) := by
  intro g j hj
  have hk : g.key j ≠ f.key i := by
    have := hj (f, i) hm
    dsimp only at this
    exact this
  exact (State.rd_wr_other t f g i j v hk).trans (h g j hj)

/-- A listed flag raised. -/
theorem RegsBut.raise {l : List (Field × Nat)} {s t : State} (h : RegsBut l s t) (f : Field) (i : Nat) (hm : (f, i) ∈ l) :
    RegsBut l s (t.raise f i) := h.wr f i 1 hm

/-- A listed counter bumped. -/
theorem RegsBut.bump {l : List (Field × Nat)} {s t : State} (h : RegsBut l s t) (f : Field) (i n : Nat) (hm : (f, i) ∈ l) :
    RegsBut l s (t.bump f i n) := h.wr f i _ hm

/-- A listed counter counted. -/
theorem RegsBut.count {l : List (Field × Nat)} {s t : State} (h : RegsBut l s t) (f : Field) (i : Nat) (hm : (f, i) ∈ l) :
    RegsBut l s (t.count f i) := h.wr f i _ hm

/-- A listed flag and counter at once. -/
theorem RegsBut.flagCount {l : List (Field × Nat)} {s t : State} (h : RegsBut l s t) (f c : Field) (i : Nat) (hf : (f, i) ∈ l)
    (hc : (c, i) ∈ l) : RegsBut l s (t.flagCount f c i) := (h.raise f i hf).count c i hc

/-- Fields at different places of their words have different keys, whatever their pages. -/
theorem Field.key_ne (f g : Field) (i j : Nat) (h : f.off ≠ g.off ∨ f.lo ≠ g.lo) (a : f.off < 4096) (b : g.off < 4096) (c : f.lo < 32)
    (d : g.lo < 32) : f.key i ≠ g.key j := by
  unfold Field.key
  omega

/-- A raised flag is 1. -/
theorem State.rd_raise (s : State) (f : Field) (i : Nat) (h : 0 < f.width) : (s.raise f i).rd f i = 1 := by
  unfold State.raise
  rw [State.rd_wr_same]
  exact Nat.mod_eq_of_lt (Nat.one_lt_two_pow (by omega))

/-- A counter after n more occurrences. -/
theorem State.rd_bump (s : State) (f : Field) (i n : Nat) : (s.bump f i n).rd f i = min (s.rd f i + n) (2 ^ f.width - 1) := by
  unfold State.bump
  rw [State.rd_wr_same]
  apply Nat.mod_eq_of_lt
  have : 0 < 2 ^ f.width := Nat.two_pow_pos _
  omega

/-- A counter after one more occurrence. -/
theorem State.rd_count (s : State) (f : Field) (i : Nat) : (s.count f i).rd f i = min (s.rd f i + 1) (2 ^ f.width - 1) := State.rd_bump ..

/-- What a flag and its counter hold after an occurrence; nothing else changes. -/
theorem State.flagCount_spec (s : State) (f c : Field) (i : Nat) (hw : 0 < f.width) (h : f.key i ≠ c.key i) :
    (s.flagCount f c i).rd f i = 1 ∧ (s.flagCount f c i).rd c i = min (s.rd c i + 1) (2 ^ c.width - 1) ∧
      RegsBut [(f, i), (c, i)] s (s.flagCount f c i) ∧ s.flagCount f c i = { s with regs := (s.flagCount f c i).regs } := by
  unfold State.flagCount
  refine ⟨?_, ?_, ?_, rfl⟩
  · unfold State.count State.bump
    rw [State.rd_wr_other _ _ _ _ _ _ h]
    exact State.rd_raise s f i hw
  · rw [State.rd_count]
    unfold State.raise
    rw [State.rd_wr_other _ _ _ _ _ _ (Ne.symm h)]
  · exact RegsBut.flagCount (RegsBut.refl _ _) f c i (by simp) (by simp)

/-- A state in which only register fields differ. -/
theorem State.onlyRegs_wr (s t : State) (f : Field) (i v : Nat) (h : t = { s with regs := t.regs }) :
    t.wr f i v = { s with regs := (t.wr f i v).regs } := by
  rw [h]
  rfl

end Sys2Proof.Machine
end

