-- ==== Sys2Proof/Laws/Core.lean ====
section
/-! SUPPORT. Thread groups: what a write of a lane, scalar or predicate register leaves, what a lane operation writes, and what
issuing and retiring an instruction change. -/
namespace Sys2Proof.Machine

/-- A lane register that has just been written. -/
theorem Group.vreg_setV_same (r : Group) (d i : Nat) (x : PVal) : (r.setV d i x).vreg d i = { x with v := x.v % 2 ^ 32 } :=
  AMap.getD_put_same ..

/-- Another lane register. -/
theorem Group.vreg_setV_other (r : Group) (d i e j : Nat) (x : PVal) (hi : i < 32) (hj : j < 32) (h : e ≠ d ∨ j ≠ i) :
    (r.setV d i x).vreg e j = r.vreg e j := AMap.getD_put_other _ _ _ _ _ _ (by omega)

/-- A write of a lane register changes lane registers only. -/
theorem Group.setV_frame (r : Group) (d i : Nat) (x : PVal) : r.setV d i x = { r with v := (r.setV d i x).v } := rfl

/-- A scalar register that has just been written. -/
theorem Group.sreg_setS_same (r : Group) (d : Nat) (x : PVal) : (r.setS d x).sreg d = { x with v := x.v % 2 ^ 64 } :=
  AMap.getD_put_same ..

/-- Another scalar register. -/
theorem Group.sreg_setS_other (r : Group) (d e : Nat) (x : PVal) (h : e ≠ d) : (r.setS d x).sreg e = r.sreg e :=
  AMap.getD_put_other _ _ _ _ _ _ h

/-- A fold of lane writes over distinct lanes: each active lane holds its value, every other lane register is as before. -/
theorem Group.lanes_fold (q : Group) (c : Common) (d : Nat) (f : Nat → PVal) (l : List Nat) (hl : l.Nodup) (hb : ∀ i ∈ l, i < 32) (r : Group) :
    let t := l.foldl (fun (acc : Group) i => if q.active c i then acc.setV d i { f i with o := (f i).o ||| q.predPoi c i } else acc) r
    (∀ i ∈ l, q.active c i = true → t.vreg d i = { v := (f i).v % 2 ^ 32, o := (f i).o ||| q.predPoi c i }) ∧
      (∀ e j, j < 32 → (e ≠ d ∨ j ∉ l ∨ q.active c j = false) → t.vreg e j = r.vreg e j) ∧ t = { r with v := t.v } := by
  induction l generalizing r with
  | nil => exact ⟨fun i h => by simp at h, fun _ _ _ _ => rfl, rfl⟩
  | cons x l ih =>
    rw [List.nodup_cons] at hl
    have hx : x < 32 := hb x (by simp)
    obtain ⟨i1, i2, i3⟩ := ih hl.2 (fun i hi => hb i (by simp [hi])) (if q.active c x then r.setV d x { f x with o := (f x).o ||| q.predPoi c x } else r)
    dsimp only at i1 i2 i3 ⊢
    rw [List.foldl_cons]
    refine ⟨?_, ?_, ?_⟩
    · intro i hi ha
      rcases List.mem_cons.1 hi with rfl | hi
      · rw [i2 d i hx (Or.inr (Or.inl hl.1)), if_pos ha]
        exact Group.vreg_setV_same ..
      · exact i1 i hi ha
    · intro e j hj h
      have h' : e ≠ d ∨ j ∉ l ∨ q.active c j = false := by
        rcases h with h | h | h
        · exact .inl h
        · exact .inr (.inl (fun hm => h (by simp [hm])))
        · exact .inr (.inr h)
      rw [i2 e j hj h']
      by_cases ha : q.active c x = true
      · rw [if_pos ha]
        apply Group.vreg_setV_other _ _ _ _ _ _ hx hj
        rcases h with h | h | h
        · exact .inl h
        · exact .inr (fun e => h (by simp [e]))
        · refine .inr (fun e => ?_)
          rw [e, ha] at h
          cases h
      · rw [if_neg ha]
    · rw [i3]
      by_cases ha : q.active c x = true
      · rw [if_pos ha]; rfl
      · rw [if_neg ha]

/-- What a lane operation writes: in every active lane the low 32 bits of its value, with its own poison and that of the
predicate; every other lane register stays, and nothing but lane registers changes (R185). -/
theorem Group.lanes_spec (r : Group) (c : Common) (d : Nat) (f : Nat → PVal) :
    (∀ i, i < 32 → r.active c i = true → (r.lanes c d f).vreg d i = { v := (f i).v % 2 ^ 32, o := (f i).o ||| r.predPoi c i }) ∧
      (∀ e j, j < 32 → (e ≠ d ∨ r.active c j = false) → (r.lanes c d f).vreg e j = r.vreg e j) ∧
      r.lanes c d f = { r with v := (r.lanes c d f).v } := by
  obtain ⟨h1, h2, h3⟩ := Group.lanes_fold r c d f (List.range 32) List.nodup_range (fun i hi => List.mem_range.1 hi) r
  refine ⟨fun i hi ha => h1 i (List.mem_range.2 hi) ha, fun e j hj h => h2 e j hj ?_, h3⟩
  rcases h with h | h
  · exact .inl h
  · exact .inr (.inr h)

/-- An instruction whose shape verification accepts, whose group can issue and comes to it is counted and has its effect. -/
theorem issue_next (i : Instr) (mn : String) (g : GroupRef) (f : Nat → State → State) (s : State) (p : Nat) (h : s.canIssue g = some p)
    (hc : s.comesTo i = true) : issue i mn true g f s = .next (f p (s.count R.DCR.ISSUE p)) := by
  unfold issue
  rw [h]
  simp [hc]

/-- A group that cannot issue leaves the module as it is. -/
theorem issue_none (i : Instr) (mn : String) (g : GroupRef) (f : Nat → State → State) (s : State) (h : s.canIssue g = none) :
    issue i mn true g f s = .next s := by
  unfold issue
  rw [h]
  rfl

/-- An instruction that the group does not come to next leaves the module as it is. -/
theorem issue_other (i : Instr) (mn : String) (g : GroupRef) (f : Nat → State → State) (s : State) (h : s.comesTo i = false) :
    issue i mn true g f s = .next s := by
  unfold issue
  cases s.canIssue g <;> simp [h]

/-- A retired group holds the change and is at its next instruction. -/
theorem State.grp_retire (s : State) (g : GroupRef) (f : Group → Group) : (s.retire g f).grp g = (f (s.grp g)).advance := by
  unfold State.retire
  exact State.grp_onGrp_same _ _ _

/-- What retiring an instruction in a state that differs from the one before issue by the count of issues, and by free values drawn,
changes. -/
theorem issued_retire (g : GroupRef) (p : Nat) (free : Bool) (s u : State) (f : Group → Group)
    (hu : u = { s with regs := u.regs, free := s.free + (if free then 1 else 0) }) (hr : u.regs = (s.count R.DCR.ISSUE p).regs)
    (hpc : (f (s.grp g)).pc = (s.grp g).pc) : issued g p free s (u.retire g f) ∧ (u.retire g f).grp g = (f (s.grp g)).advance := by
  have hc : u.cores = s.cores := by rw [hu]
  have hco : ∀ c, u.core c = s.core c := by
    intro c
    unfold State.core
    rw [hc]
  have hg : u.grp g = s.grp g := by
    unfold State.grp
    rw [hco]
  have hgr : (u.retire g f).grp g = (f (s.grp g)).advance := by rw [State.grp_retire, hg]
  have hrd : ∀ h j, (u.retire g f).rd h j = (s.count R.DCR.ISSUE p).rd h j := by
    intro h j
    have e : (u.retire g f).regs = (s.count R.DCR.ISSUE p).regs := hr
    unfold State.rd
    rw [e]
  refine ⟨⟨?_, ?_, ?_, ?_, ?_, ?_, ?_⟩, hgr⟩
  · have e : u.retire g f = { u with cores := (u.retire g f).cores } := rfl
    rw [e]
    rw [hu]
  · rw [hrd]
    exact State.rd_count ..
  · intro h j hj
    rw [hrd]
    exact State.rd_wr_other _ _ _ _ _ _ (hj (R.DCR.ISSUE, p) (List.mem_singleton.2 rfl))
  · intro c hc'
    unfold State.retire State.onGrp
    rw [State.core_onCore_other _ _ _ _ hc', hco]
  · unfold State.retire State.onGrp
    rw [State.core_onCore_same, hco]
  · intro k hk
    unfold State.retire State.onGrp
    rw [State.core_onCore_same, hco]
    dsimp only
    exact AMap.getD_put_other _ _ _ _ _ _ hk
  · rw [hgr]
    exact congrArg (· + 1) hpc

end Sys2Proof.Machine
end

