-- ==== Sys2Proof/Laws/Keeps.lean ====
section
/-! SUPPORT. What holds of every update of the state: the memory keeps its canonical form, the queue is left alone, and fuses
only burn. First the laws of memory and of composition, then one lemma for each operation of the model. -/
namespace Sys2Proof.Machine

/-! ### Memory keeps its canonical form -/

/-- Keys strictly rising from a bound. -/
def risingFrom (a : Nat) (m : Memory) : Prop := AMap.sorted m = true ∧ ∀ e ∈ m, a ≤ e.1

/-- A rising list rises from any smaller bound. -/
theorem risingFrom_le {a b : Nat} {m : Memory} (h : risingFrom b m) (hab : a ≤ b) : risingFrom a m :=
  ⟨h.1, fun e he => Nat.le_trans hab (h.2 e he)⟩

/-- What it is for a list with a first entry to rise. -/
theorem risingFrom_cons {a : Nat} {e : Host.Cell} {m : Memory} : risingFrom a (e :: m) ↔ a ≤ e.1 ∧ risingFrom (e.1 + 1) m := by
  unfold risingFrom
  simp only [AMap.sorted, Bool.and_eq_true, List.all_eq_true, decide_eq_true_eq, List.mem_cons, forall_eq_or_imp]
  constructor
  · rintro ⟨⟨h1, h2⟩, h3, _⟩
    exact ⟨h3, h2, h1⟩
  · rintro ⟨h1, h2, h3⟩
    exact ⟨⟨h3, h2⟩, h1, fun x hx => by have := h3 x hx; omega⟩

/-- Dropping entries keeps a rising list rising. -/
theorem risingFrom_filter {a : Nat} {m : Memory} (p : Host.Cell → Bool) (h : risingFrom a m) : risingFrom a (m.filter p) := by
  induction m generalizing a with
  | nil => exact h
  | cons e t ih =>
    rw [risingFrom_cons] at h
    by_cases hp : p e = true
    · rw [List.filter_cons_of_pos hp, risingFrom_cons]
      exact ⟨h.1, ih h.2⟩
    · rw [List.filter_cons_of_neg hp]
      exact ih (risingFrom_le h.2 (Nat.le_succ_of_le h.1))

/-- Two rising lists, the first below the second, make one. -/
theorem risingFrom_append {a c : Nat} {m n : Memory} (hm : risingFrom a m) (hlt : ∀ e ∈ m, e.1 < c) (hac : a ≤ c) (hn : risingFrom c n) :
    risingFrom a (m ++ n) := by
  induction m generalizing a with
  | nil => exact risingFrom_le hn hac
  | cons e t ih =>
    rw [risingFrom_cons] at hm
    rw [List.cons_append, risingFrom_cons]
    exact ⟨hm.1, ih hm.2 (fun x hx => hlt x (List.mem_cons_of_mem _ hx)) (hlt e (List.mem_cons_self ..))⟩

/-- The cells of a run of bytes rise from its address. -/
theorem risingFrom_cellsOf (a : Nat) (bs : List Byte) : risingFrom a (cellsOf a bs) := by
  induction bs generalizing a with
  | nil => exact ⟨rfl, by simp [cellsOf]⟩
  | cons b t ih =>
    unfold cellsOf
    split
    · exact risingFrom_le (ih (a + 1)) (Nat.le_succ a)
    · exact risingFrom_cons.2 ⟨Nat.le_refl a, ih (a + 1)⟩

/-- The cells of a run of bytes lie before its end. -/
theorem cellsOf_lt {a : Nat} {bs : List Byte} {e : Host.Cell} (h : e ∈ cellsOf a bs) : e.1 < a + bs.length := by
  induction bs generalizing a with
  | nil => simp [cellsOf] at h
  | cons b t ih =>
    unfold cellsOf at h
    rw [List.length_cons]
    split at h
    · have := ih h; omega
    · rcases List.mem_cons.1 h with rfl | h
      · show a < _; omega
      · have := ih h; omega

/-- The cells of a run of bytes do not hold what an unlisted address reads as. -/
theorem cellsOf_ne {a : Nat} {bs : List Byte} {e : Host.Cell} (h : e ∈ cellsOf a bs) : e.2 ≠ memDefault := by
  induction bs generalizing a with
  | nil => simp [cellsOf] at h
  | cons b t ih =>
    unfold cellsOf at h
    split at h
    · exact ih h
    · next hb =>
      rcases List.mem_cons.1 h with rfl | h
      · exact hb
      · exact ih h

/-- The canonical form, as a rising list without default values. -/
theorem wf_iff (m : Memory) : m.wf = true ↔ risingFrom 0 m ∧ ∀ e ∈ m, e.2 ≠ memDefault := by
  unfold Memory.wf risingFrom
  rw [Bool.and_eq_true, List.all_eq_true]
  simp

/-- Dropping entries keeps the canonical form. -/
theorem Memory.filter_wf {m : Memory} (p : Host.Cell → Bool) (h : m.wf = true) : Memory.wf (m.filter p) = true := by
  rw [wf_iff] at h ⊢
  exact ⟨risingFrom_filter p h.1, fun e he => h.2 e ((List.mem_filter.1 he).1)⟩

/-- A write keeps the canonical form. -/
theorem Memory.write_wf {m : Memory} (a : Nat) (bs : List Byte) (h : m.wf = true) : (m.write a bs).wf = true := by
  rw [wf_iff] at h ⊢
  unfold Memory.write
  constructor
  · rw [List.append_assoc]
    refine risingFrom_append (c := a) (risingFrom_filter _ h.1) ?_ (Nat.zero_le _) ?_
    · intro e he; simpa using (List.mem_filter.1 he).2
    · refine risingFrom_append (c := a + bs.length) (risingFrom_cellsOf a bs) (fun e he => cellsOf_lt he) (Nat.le_add_right ..) ?_
      refine ⟨(risingFrom_filter _ h.1).1, ?_⟩
      intro e he; simpa using (List.mem_filter.1 he).2
  · intro e he
    rcases List.mem_append.1 he with he | he
    · rcases List.mem_append.1 he with he | he
      · exact h.2 e ((List.mem_filter.1 he).1)
      · exact cellsOf_ne he
    · exact h.2 e ((List.mem_filter.1 he).1)

/-- A clear keeps the canonical form. -/
theorem Memory.clear_wf {m : Memory} (a n : Nat) (h : m.wf = true) : (m.clear a n).wf = true := Memory.filter_wf _ h

/-! ### Composition -/

/-- What every update keeps: the canonical form of memory, the queue, and burned fuses. -/
structure Keeps (s t : State) : Prop where
  mem : s.mem.wf = true → t.mem.wf = true
  pending : t.pending = s.pending
  fuses : FusesOnlyBurn s.nv t.nv

/-- Fuses that stay as they are. -/
theorem FusesOnlyBurn.refl (a : NonVol) : FusesOnlyBurn a a := ⟨rfl, rfl, Nat.le_refl _, fun _ h => h, rfl, fun _ _ h => h⟩

/-- Burning after burning. -/
theorem FusesOnlyBurn.trans {a b c : NonVol} (h : FusesOnlyBurn a b) (g : FusesOnlyBurn b c) : FusesOnlyBurn a c :=
  ⟨g.devId.trans h.devId, g.keyDigests.trans h.keyDigests, Nat.le_trans h.svn g.svn, fun i x => g.revoked i (h.revoked i x),
    g.copies.trans h.copies, fun j i x => g.lc j i (h.lc j i x)⟩

/-- Nothing done. -/
theorem Keeps.refl (s : State) : Keeps s s := ⟨id, rfl, .refl _⟩

/-- One update after another. -/
theorem Keeps.after {s t u : State} (h : Keeps t u) (g : Keeps s t) : Keeps s u :=
  ⟨fun x => h.mem (g.mem x), h.pending.trans g.pending, g.fuses.trans h.fuses⟩

/-- An update of other fields of the state. -/
theorem Keeps.other {s t : State} {clk : Clk} {regs shadowR shadowW rdVal poi : AMap Nat} {blks : AMap BlockRec} {stew : AMap Byte} {stewBad : AMap Nat} {stks : AMap StackSt} {hubs : AMap HubSt} {parts : AMap PartSt} {cores : AMap CoreSt} {link : LinkSt} {fab : FabSt} {pwr : PwrSt} {mgt : MgtSt} {sec : SecSt} {bst : BstSt} {memErr : AMap (AMap Nat)} {memWb : AMap (List (Nat × Bool))} {free : Nat}
    (h : Keeps s t) : Keeps s (State.mk clk regs shadowR shadowW rdVal t.mem poi blks stew stewBad t.nv stks hubs parts cores link fab pwr mgt sec bst memErr memWb free t.pending) :=
  ⟨h.mem, h.pending, h.fuses⟩

/-- An update of the memory that keeps its canonical form, and of other fields. -/
theorem Keeps.memory {s t : State} {mem : Memory} {clk : Clk} {regs shadowR shadowW rdVal poi : AMap Nat} {blks : AMap BlockRec} {stew : AMap Byte} {stewBad : AMap Nat} {stks : AMap StackSt} {hubs : AMap HubSt} {parts : AMap PartSt} {cores : AMap CoreSt} {link : LinkSt} {fab : FabSt} {pwr : PwrSt} {mgt : MgtSt} {sec : SecSt} {bst : BstSt} {memErr : AMap (AMap Nat)} {memWb : AMap (List (Nat × Bool))} {free : Nat}
    (h : Keeps s t) (hm : t.mem.wf = true → mem.wf = true) : Keeps s (State.mk clk regs shadowR shadowW rdVal mem poi blks stew stewBad t.nv stks hubs parts cores link fab pwr mgt sec bst memErr memWb free t.pending) :=
  ⟨fun x => hm (h.mem x), h.pending, h.fuses⟩

/-- An update of non-volatile cells other than fuses. -/
theorem Keeps.nv {s : State} (f : NonVol → NonVol) {t : State} (h : Keeps s t)
    (h1 : (f t.nv).devId = t.nv.devId) (h2 : (f t.nv).keyDigests = t.nv.keyDigests) (h3 : (f t.nv).svn = t.nv.svn)
    (h4 : (f t.nv).revoked = t.nv.revoked) (h5 : (f t.nv).lc = t.nv.lc) : Keeps s (t.onNv f) :=
  Keeps.after (t := t) ⟨id, rfl, ⟨h1, h2, Nat.le_of_eq h3.symm, fun i x => by rw [show (t.onNv f).nv = f t.nv from rfl, h4]; exact x,
    by rw [show (t.onNv f).nv = f t.nv from rfl, h5], fun j i x => by rw [show (t.onNv f).nv = f t.nv from rfl, h5]; exact x⟩⟩ h

/-- Either of two updates. -/
theorem Keeps.ite {s t u : State} {c : Prop} [Decidable c] (h : Keeps s t) (g : Keeps s u) : Keeps s (if c then t else u) := by
  split <;> assumption

/-- A loop. -/
theorem Keeps.each {α : Type} {s t : State} (l : List α) {f : α → State → State} (h : ∀ x u, Keeps u (f x u)) (g : Keeps s t) :
    Keeps s (t.each l f) := State.each_keeps (Keeps s) l f (fun x u k => (h x u).after k) t g

/-- A fold from the left. -/
theorem Keeps.foldl {α : Type} {s t : State} (l : List α) {f : State → α → State} (h : ∀ u x, Keeps u (f u x)) (g : Keeps s t) :
    Keeps s (l.foldl f t) := by
  induction l generalizing t with
  | nil => exact g
  | cons x l ih => exact ih ((h t x).after g)

/-- A fold from the right. -/
theorem Keeps.foldr {α : Type} {s t : State} (l : List α) {f : α → State → State} (h : ∀ x u, Keeps u (f x u)) (g : Keeps s t) :
    Keeps s (l.foldr f t) := by
  induction l with
  | nil => exact g
  | cons x l ih => exact (h x _).after ih

/-- A conditional update. -/
theorem Keeps.whenB {s t : State} {b : Bool} {f : State → State} (h : ∀ u, Keeps u (f u)) (g : Keeps s t) :
    Keeps s (t.whenB b f) := State.whenB_keeps (Keeps s) b f (fun u k => (h u).after k) t g

/-- What an outcome that is a next state keeps. -/
def OutKeeps (s : State) (o : Host.Outcome State Fault Refusal) : Prop := ∀ t, o = .next t → Keeps s t

/-- A next state. -/
theorem OutKeeps.next {s t : State} (h : Keeps s t) : OutKeeps s (.next t) := fun u e => by cases e; exact h

/-- A refusal. -/
theorem OutKeeps.refused {s : State} (r : Refusal) : OutKeeps s (.refused r) := fun u e => by cases e

/-- A free value drawn on a condition. -/
theorem Keeps.pickFree {s u : State} {c : Prop} [Decidable c] {w v : Nat} (h : (if c then s.takeFree else (w, s)) = (v, u)) : Keeps s u := by
  split at h
  · obtain ⟨-, rfl⟩ := Prod.mk.injEq .. ▸ h
    exact ⟨id, rfl, .refl _⟩
  · obtain ⟨-, rfl⟩ := Prod.mk.injEq .. ▸ h
    exact .refl _

/-- Either of two outcomes. -/
theorem OutKeeps.ite {s : State} {o p : Host.Outcome State Fault Refusal} {c : Prop} [Decidable c] (h : OutKeeps s o) (g : OutKeeps s p) :
    OutKeeps s (if c then o else p) := by
  split <;> assumption

/-! ### Flags -/

theorem State.wr_keeps (f : Field) (i v : Nat) (s : State) : Keeps s (State.wr f i v s) := by
  unfold State.wr
  repeat' first
    | with_reducible exact .refl _ | with_reducible assumption | with_reducible intro s | with_reducible apply Keeps.ite
    | with_reducible apply Keeps.other | split

theorem State.wrB_keeps (f : Field) (i : Nat) (b : Bool) (s : State) : Keeps s (State.wrB f i b s) := by
  unfold State.wrB
  repeat' first
    | with_reducible exact .refl _ | with_reducible assumption | with_reducible intro s | with_reducible apply Keeps.after (State.wr_keeps _ _ _ _)
    | with_reducible apply Keeps.ite | split

theorem State.raise_keeps (f : Field) (i : Nat) (s : State) : Keeps s (State.raise f i s) := by
  unfold State.raise
  repeat' first
    | with_reducible exact .refl _ | with_reducible assumption | with_reducible intro s | with_reducible apply Keeps.after (State.wr_keeps _ _ _ _)
    | with_reducible apply Keeps.ite | split

theorem State.bump_keeps (f : Field) (i n : Nat) (s : State) : Keeps s (State.bump f i n s) := by
  unfold State.bump
  repeat' first
    | with_reducible exact .refl _ | with_reducible assumption | with_reducible intro s | with_reducible apply Keeps.after (State.wr_keeps _ _ _ _)
    | with_reducible apply Keeps.ite | split

theorem State.count_keeps (f : Field) (i : Nat) (s : State) : Keeps s (State.count f i s) := by
  unfold State.count
  repeat' first
    | with_reducible exact .refl _ | with_reducible assumption | with_reducible intro s | with_reducible apply Keeps.after (State.bump_keeps _ _ _ _)
    | with_reducible apply Keeps.ite | split

theorem State.refuseWrite_keeps (p : Page) (i : Nat) (s : State) : Keeps s (State.refuseWrite p i s) := by
  unfold State.refuseWrite
  repeat' first
    | with_reducible exact .refl _ | with_reducible assumption | with_reducible intro s | with_reducible apply Keeps.after (State.count_keeps _ _ _)
    | with_reducible apply Keeps.after (State.raise_keeps _ _ _) | with_reducible apply Keeps.ite | split

theorem State.onStk_keeps (k : Nat) (f : StackSt → StackSt) (s : State) : Keeps s (State.onStk k f s) := by
  unfold State.onStk
  repeat' first
    | with_reducible exact .refl _ | with_reducible assumption | with_reducible intro s | with_reducible apply Keeps.ite
    | with_reducible apply Keeps.other | split

theorem State.onHub_keeps (h : Nat) (f : HubSt → HubSt) (s : State) : Keeps s (State.onHub h f s) := by
  unfold State.onHub
  repeat' first
    | with_reducible exact .refl _ | with_reducible assumption | with_reducible intro s | with_reducible apply Keeps.ite
    | with_reducible apply Keeps.other | split

theorem State.onPart_keeps (p : Nat) (f : PartSt → PartSt) (s : State) : Keeps s (State.onPart p f s) := by
  unfold State.onPart
  repeat' first
    | with_reducible exact .refl _ | with_reducible assumption | with_reducible intro s | with_reducible apply Keeps.ite
    | with_reducible apply Keeps.other | split

theorem State.onStep_keeps (p : Nat) (f : StepSt → StepSt) (s : State) : Keeps s (State.onStep p f s) := by
  unfold State.onStep
  repeat' first
    | with_reducible exact .refl _ | with_reducible assumption | with_reducible intro s | with_reducible apply Keeps.after (State.onPart_keeps _ _ _)
    | with_reducible apply Keeps.ite | split

theorem State.onCore_keeps (c : Nat) (f : CoreSt → CoreSt) (s : State) : Keeps s (State.onCore c f s) := by
  unfold State.onCore
  repeat' first
    | with_reducible exact .refl _ | with_reducible assumption | with_reducible intro s | with_reducible apply Keeps.ite
    | with_reducible apply Keeps.other | split

theorem State.onGrp_keeps (g : GroupRef) (f : Group → Group) (s : State) : Keeps s (State.onGrp g f s) := by
  unfold State.onGrp
  repeat' first
    | with_reducible exact .refl _ | with_reducible assumption | with_reducible intro s | with_reducible apply Keeps.after (State.onCore_keeps _ _ _)
    | with_reducible apply Keeps.ite | split

theorem State.takeFree_keeps (s : State) : Keeps s ((State.takeFree s).2) := by
  unfold State.takeFree
  repeat' first
    | with_reducible exact .refl _ | with_reducible assumption | with_reducible intro s | with_reducible apply Keeps.ite
    | with_reducible apply Keeps.other | split
theorem State.takeFree_eq {s : State} {v : Nat} {u : State} (heq : State.takeFree s = (v, u)) : Keeps s u := by
  have := State.takeFree_keeps s
  rwa [heq] at this

theorem State.takeDraw_keeps (s : State) : Keeps s ((State.takeDraw s).2) := by
  unfold State.takeDraw
  repeat' first
    | with_reducible exact .refl _ | with_reducible assumption | with_reducible intro s | with_reducible apply Keeps.ite
    | with_reducible apply Keeps.other | split
theorem State.takeDraw_eq {s : State} {v : Nat} {u : State} (heq : State.takeDraw s = (v, u)) : Keeps s u := by
  have := State.takeDraw_keeps s
  rwa [heq] at this

theorem State.flagCount_keeps (f c : Field) (i : Nat) (s : State) : Keeps s (State.flagCount f c i s) := by
  unfold State.flagCount
  repeat' first
    | with_reducible exact .refl _ | with_reducible assumption | with_reducible intro s | with_reducible apply Keeps.after (State.count_keeps _ _ _)
    | with_reducible apply Keeps.after (State.raise_keeps _ _ _) | with_reducible apply Keeps.ite | split

theorem State.noPart_keeps (s : State) : Keeps s (State.noPart s) := by
  unfold State.noPart
  repeat' first
    | with_reducible exact .refl _ | with_reducible assumption | with_reducible intro s | with_reducible apply Keeps.after (State.count_keeps _ _ _)
    | with_reducible apply Keeps.ite | split

theorem State.ofPart_keeps (p : Nat) (act : State → State) (hact : ∀ u, Keeps u (act  u)) (s : State) : Keeps s (State.ofPart p act s) := by
  unfold State.ofPart
  repeat' first
    | with_reducible exact .refl _ | with_reducible assumption | with_reducible intro s | with_reducible apply Keeps.after (hact _ )
    | with_reducible apply Keeps.after (State.noPart_keeps _) | with_reducible apply Keeps.ite | split

theorem State.noteStep_keeps (p : Nat) (f : StepSt → StepSt) (s : State) : Keeps s (State.noteStep p f s) := by
  unfold State.noteStep
  repeat' first
    | with_reducible exact .refl _ | with_reducible assumption | with_reducible intro s | with_reducible apply Keeps.after (State.onStep_keeps _ _ _)
    | with_reducible apply Keeps.ite | (with_reducible apply Keeps.whenB; intro s) | split

theorem State.nonDet_keeps (p : Nat) (cause : Field) (s : State) : Keeps s (State.nonDet p cause s) := by
  unfold State.nonDet
  repeat' first
    | with_reducible exact .refl _ | with_reducible assumption | with_reducible intro s
    | with_reducible apply Keeps.after (State.noteStep_keeps _ _ _) | with_reducible apply Keeps.after (State.count_keeps _ _ _)
    | with_reducible apply Keeps.after (State.raise_keeps _ _ _) | with_reducible apply Keeps.ite | split

theorem State.disturb_keeps (p : Nat) (s : State) : Keeps s (State.disturb p s) := by
  unfold State.disturb
  repeat' first
    | with_reducible exact .refl _ | with_reducible assumption | with_reducible intro s
    | with_reducible apply Keeps.after (State.noteStep_keeps _ _ _) | with_reducible apply Keeps.after (State.count_keeps _ _ _)
    | with_reducible apply Keeps.after (State.raise_keeps _ _ _) | with_reducible apply Keeps.ite | split

theorem State.setPartState_keeps (p v : Nat) (s : State) : Keeps s (State.setPartState p v s) := by
  unfold State.setPartState
  repeat' first
    | with_reducible exact .refl _ | with_reducible assumption | with_reducible intro s | with_reducible apply Keeps.after (State.wr_keeps _ _ _ _)
    | with_reducible apply Keeps.ite | split

theorem State.setStackState_keeps (k v : Nat) (s : State) : Keeps s (State.setStackState k v s) := by
  unfold State.setStackState
  repeat' first
    | with_reducible exact .refl _ | with_reducible assumption | with_reducible intro s | with_reducible apply Keeps.after (State.wr_keeps _ _ _ _)
    | with_reducible apply Keeps.ite | split

/-! ### Ops -/

theorem State.poisonBursts_keeps (bs : List Nat) (s : State) : Keeps s (State.poisonBursts bs s) := by
  unfold State.poisonBursts
  repeat' first
    | with_reducible exact .refl _ | with_reducible assumption | with_reducible intro s | with_reducible apply Keeps.after (State.bump_keeps _ _ _ _)
    | with_reducible apply Keeps.ite | (with_reducible apply Keeps.foldl; intro s _) | with_reducible apply Keeps.other | split

theorem State.mpoison_keeps (a n : Nat) (s : State) : Keeps s (State.mpoison a n s) := by
  unfold State.mpoison
  repeat' first
    | with_reducible exact .refl _ | with_reducible assumption | with_reducible intro s
    | with_reducible apply Keeps.after (State.poisonBursts_keeps _ _) | with_reducible apply Keeps.ite | split

theorem State.wearOut_keeps (k phys tier : Nat) (s : State) : Keeps s (State.wearOut k phys tier s) := by
  unfold State.wearOut
  repeat' first
    | with_reducible exact .refl _ | with_reducible assumption | with_reducible intro s
    | (extract_lets +onlyGivenNames x; refine (have hx : Keeps s x := ?_; ?_); rotate_left; clear_value x; rotate_right)
    | (extract_lets +onlyGivenNames x; clear_value x) | subst x | with_reducible apply Keeps.after (State.raise_keeps _ _ _)
    | with_reducible apply Keeps.ite | (with_reducible apply Keeps.whenB; intro s)
    | (with_reducible apply Keeps.nv; rotate_left; rfl; rfl; rfl; rfl; rfl) | split

theorem State.wearStack_keeps (k n : Nat) (s : State) : Keeps s (State.wearStack k n s) := by
  unfold State.wearStack
  repeat' first
    | with_reducible exact .refl _ | with_reducible assumption | with_reducible intro s
    | (extract_lets +onlyGivenNames x; refine (have hx : Keeps s x := ?_; ?_); rotate_left; clear_value x; rotate_right)
    | (extract_lets +onlyGivenNames x; clear_value x) | subst x | with_reducible apply Keeps.after (State.raise_keeps _ _ _)
    | with_reducible apply Keeps.ite | (with_reducible apply Keeps.whenB; intro s)
    | (with_reducible apply Keeps.nv; rotate_left; rfl; rfl; rfl; rfl; rfl) | split

theorem State.clearStack_keeps (k : Nat) (s : State) : Keeps s (State.clearStack k s) := by
  unfold State.clearStack
  repeat' first
    | with_reducible exact .refl _ | with_reducible assumption | with_reducible intro s
    | with_reducible apply Keeps.after (State.wearStack_keeps _ _ _) | with_reducible apply Keeps.ite
    | (with_reducible apply Keeps.nv; rotate_left; rfl; rfl; rfl; rfl; rfl) | split

theorem State.setProgramming_keeps (s : State) : Keeps s (State.setProgramming s) := by
  unfold State.setProgramming
  repeat' first
    | with_reducible exact .refl _ | with_reducible assumption | with_reducible intro s | with_reducible apply Keeps.after (State.wrB_keeps _ _ _ _)
    | with_reducible apply Keeps.ite | split

theorem State.freeTrains_keeps (s : State) : Keeps s (State.freeTrains s) := by
  unfold State.freeTrains
  repeat' first
    | with_reducible exact .refl _ | with_reducible assumption | with_reducible intro s
    | (extract_lets +onlyGivenNames x; refine (have hx : Keeps s x := ?_; ?_); rotate_left; clear_value x; rotate_right)
    | (extract_lets +onlyGivenNames x; clear_value x) | subst x | with_reducible apply Keeps.ite | split
    | with_reducible apply Keeps.after (State.takeFree_keeps _) | with_reducible apply Keeps.after (State.bump_keeps _ _ _ _)
    | with_reducible apply Keeps.ite | with_reducible refine Keeps.after (State.takeFree_eq (by with_reducible assumption)) ?_

theorem State.stewWr_keeps (h o : Nat) (bs : List Byte) (s : State) : Keeps s (State.stewWr h o bs s) := by
  unfold State.stewWr
  repeat' first
    | with_reducible exact .refl _ | with_reducible assumption | with_reducible intro s
    | (extract_lets +onlyGivenNames x; refine (have hx : Keeps s x := ?_; ?_); rotate_left; clear_value x; rotate_right)
    | (extract_lets +onlyGivenNames x; clear_value x) | subst x | with_reducible apply Keeps.ite | (with_reducible apply Keeps.foldl; intro s _)
    | with_reducible apply Keeps.other | split

theorem State.stewardParity_keeps (o : Origin) (s : State) : Keeps s (State.stewardParity o s) := by
  unfold State.stewardParity
  repeat' first
    | with_reducible exact .refl _ | with_reducible assumption | with_reducible intro s | with_reducible apply Keeps.ite
    | with_reducible apply Keeps.other | split

theorem State.report_keeps (h : Nat) (r : Report) (s : State) : Keeps s (State.report h r s) := by
  unfold State.report
  repeat' first
    | with_reducible exact .refl _ | with_reducible assumption | with_reducible intro s
    | (extract_lets +onlyGivenNames x; refine (have hx : Keeps s x := ?_; ?_); rotate_left; clear_value x; rotate_right)
    | (extract_lets +onlyGivenNames x; clear_value x) | subst x | with_reducible apply Keeps.ite | split
    | with_reducible apply Keeps.after (State.onHub_keeps _ _ _) | with_reducible apply Keeps.after (State.count_keeps _ _ _)
    | with_reducible apply Keeps.after (State.raise_keeps _ _ _) | with_reducible apply Keeps.ite | with_reducible apply Keeps.other

theorem State.queueWb_keeps (b : Nat) (poison : Bool) (s : State) : Keeps s (State.queueWb b poison s) := by
  unfold State.queueWb
  repeat' first
    | with_reducible exact .refl _ | with_reducible assumption | with_reducible intro s
    | (extract_lets +onlyGivenNames x; refine (have hx : Keeps s x := ?_; ?_); rotate_left; clear_value x; rotate_right)
    | (extract_lets +onlyGivenNames x; clear_value x) | subst x | with_reducible apply Keeps.after (State.flagCount_keeps _ _ _ _)
    | with_reducible apply Keeps.ite | with_reducible apply Keeps.other | split

theorem State.decodeBurst_keeps (b : Nat) (s : State) : Keeps s (State.decodeBurst b s) := by
  unfold State.decodeBurst
  repeat' first
    | with_reducible exact .refl _ | with_reducible assumption | with_reducible intro s
    | (extract_lets +onlyGivenNames x; refine (have hx : Keeps s x := ?_; ?_); rotate_left; clear_value x; rotate_right)
    | (extract_lets +onlyGivenNames x; clear_value x) | subst x | with_reducible apply Keeps.ite | split
    | with_reducible apply Keeps.after (State.queueWb_keeps _ _ _) | with_reducible apply Keeps.after (State.report_keeps _ _ _)
    | with_reducible apply Keeps.after (State.flagCount_keeps _ _ _ _) | with_reducible apply Keeps.after (State.count_keeps _ _ _)
    | with_reducible apply Keeps.after (State.wr_keeps _ _ _ _) | with_reducible apply Keeps.ite

theorem State.touch_keeps (a n : Nat) (s : State) : Keeps s (State.touch a n s) := by
  unfold State.touch
  repeat' first
    | with_reducible exact .refl _ | with_reducible assumption | with_reducible intro s
    | with_reducible apply Keeps.after (State.decodeBurst_keeps _ _) | with_reducible apply Keeps.ite | (with_reducible apply Keeps.each; intro _ s)
    | split

theorem State.touchOf_keeps (p a n : Nat) (s : State) : Keeps s (State.touchOf p a n s) := by
  unfold State.touchOf
  repeat' first
    | with_reducible exact .refl _ | with_reducible assumption | with_reducible intro s | with_reducible apply Keeps.after (State.touch_keeps _ _ _)
    | with_reducible apply Keeps.ite | (with_reducible apply Keeps.whenB; intro s) | split

theorem State.mwrP_keeps (a : Nat) (bs : List Byte) (ps : List Nat) (s : State) : Keeps s (State.mwrP a bs ps s) := by
  unfold State.mwrP
  repeat' first
    | with_reducible exact .refl _ | with_reducible assumption | with_reducible intro s
    | (extract_lets +onlyGivenNames x; refine (have hx : Keeps s x := ?_; ?_); rotate_left; clear_value x; rotate_right)
    | (extract_lets +onlyGivenNames x; clear_value x) | subst x | with_reducible apply Keeps.after (State.decodeBurst_keeps _ _)
    | with_reducible apply Keeps.after (State.poisonBursts_keeps _ _) | with_reducible apply Keeps.ite | (with_reducible apply Keeps.each; intro _ s)
    | with_reducible apply Keeps.other | (with_reducible apply Keeps.memory; rotate_left; exact Memory.write_wf _ _)
    | (with_reducible apply Keeps.memory; rotate_left; exact Memory.clear_wf _ _)
    | (with_reducible apply Keeps.memory; rotate_left; exact Memory.filter_wf _) | split

theorem State.cancelWb_keeps (a n : Nat) (s : State) : Keeps s (State.cancelWb a n s) := by
  unfold State.cancelWb
  repeat' first
    | with_reducible exact .refl _ | with_reducible assumption | with_reducible intro s | with_reducible apply Keeps.ite
    | with_reducible apply Keeps.other | split

theorem State.zeroMem_keeps (a n : Nat) (s : State) : Keeps s (State.zeroMem a n s) := by
  unfold State.zeroMem
  repeat' first
    | with_reducible exact .refl _ | with_reducible assumption | with_reducible intro s
    | (extract_lets +onlyGivenNames x; refine (have hx : Keeps s x := ?_; ?_); rotate_left; clear_value x; rotate_right)
    | (extract_lets +onlyGivenNames x; clear_value x) | subst x | with_reducible apply Keeps.after (State.cancelWb_keeps _ _ _)
    | with_reducible apply Keeps.ite | with_reducible apply Keeps.other | (with_reducible apply Keeps.memory; rotate_left; exact Memory.write_wf _ _)
    | (with_reducible apply Keeps.memory; rotate_left; exact Memory.clear_wf _ _)
    | (with_reducible apply Keeps.memory; rotate_left; exact Memory.filter_wf _) | split

theorem State.mwr_keeps (a : Nat) (bs : List Byte) (s : State) : Keeps s (State.mwr a bs s) := by
  unfold State.mwr
  repeat' first
    | with_reducible exact .refl _ | with_reducible assumption | with_reducible intro s | with_reducible apply Keeps.after (State.mwrP_keeps _ _ _ _)
    | with_reducible apply Keeps.ite | split

theorem State.mput_keeps (a : Nat) (bs : List Byte) (o : Nat) (s : State) : Keeps s (State.mput a bs o s) := by
  unfold State.mput
  repeat' first
    | with_reducible exact .refl _ | with_reducible assumption | with_reducible intro s | with_reducible apply Keeps.after (State.mwrP_keeps _ _ _ _)
    | with_reducible apply Keeps.ite | split

theorem State.freePieces_keeps (p : Nat) (s : State) : Keeps s (State.freePieces p s) := by
  unfold State.freePieces
  repeat' first
    | with_reducible exact .refl _ | with_reducible assumption | with_reducible intro s | with_reducible apply Keeps.after (State.onPart_keeps _ _ _)
    | with_reducible apply Keeps.after (State.onStk_keeps _ _ _) | with_reducible apply Keeps.ite | (with_reducible apply Keeps.each; intro _ s)
    | split

/-! ### Operands -/

theorem State.touchRow_keeps (t : TensorRec) (r c n : Nat) (s : State) : Keeps s (State.touchRow t r c n s) := by
  unfold State.touchRow
  repeat' first
    | with_reducible exact .refl _ | with_reducible assumption | with_reducible intro s
    | (extract_lets +onlyGivenNames x; refine (have hx : Keeps s x := ?_; ?_); rotate_left; clear_value x; rotate_right)
    | (extract_lets +onlyGivenNames x; clear_value x) | subst x | with_reducible apply Keeps.after (State.touch_keeps _ _ _)
    | with_reducible apply Keeps.ite | (with_reducible apply Keeps.whenB; intro s) | split

/-- A fold over a state and something else. -/
theorem Keeps.foldlFst {α β : Type} {s : State} (l : List α) {f : State × β → α → State × β} {a : State × β}
    (h : ∀ b x, Keeps b.1 (f b x).1) (g : Keeps s a.1) : Keeps s (l.foldl f a).1 := by
  induction l generalizing a with
  | nil => exact g
  | cons x l ih => exact ih ((h a x).after g)

/-- A fold over something else and a state. -/
theorem Keeps.foldlSnd {α β : Type} {s : State} (l : List α) {f : β × State → α → β × State} {a : β × State}
    (h : ∀ b x, Keeps b.2 (f b x).2) (g : Keeps s a.2) : Keeps s (l.foldl f a).2 := by
  induction l generalizing a with
  | nil => exact g
  | cons x l ih => exact ih ((h a x).after g)

theorem State.quantBlocks_keeps (conv : Nat → List Nat → Nat → ABlock) (open_ : List Nat → Bool) (vs : List Nat) (s : State) :
    Keeps s (State.quantBlocks conv open_ vs s).2 := by
  unfold State.quantBlocks
  refine Keeps.foldlSnd _ (fun b x => ?_) (.refl _)
  dsimp only
  split
  · exact State.takeFree_keeps _
  · exact .refl _
theorem State.quantBlocks_eq {conv : Nat → List Nat → Nat → ABlock} {open_ : List Nat → Bool} {vs : List Nat} {s : State} {v : List ABlock} {u : State}
    (heq : State.quantBlocks conv open_ vs s = (v, u)) : Keeps s u := by
  have := State.quantBlocks_keeps conv open_ vs s
  rwa [heq] at this

theorem State.putBlocks_keeps (h : Nat) (t : TensorRec) (r b : Nat) (qs : List ABlock) (ps : List Nat) (s : State) : Keeps s (State.putBlocks h t r b qs ps s) := by
  unfold State.putBlocks
  repeat' first
    | with_reducible exact .refl _ | with_reducible assumption | with_reducible intro s
    | (extract_lets +onlyGivenNames x; refine (have hx : Keeps s x := ?_; ?_); rotate_left; clear_value x; rotate_right)
    | (extract_lets +onlyGivenNames x; clear_value x) | subst x | with_reducible apply Keeps.after (State.mwr_keeps _ _ _)
    | with_reducible apply Keeps.after (State.mwrP_keeps _ _ _ _) | with_reducible apply Keeps.after (State.bump_keeps _ _ _ _)
    | with_reducible apply Keeps.ite | split

theorem State.tensorPut_keeps (h : Nat) (t : TensorRec) (r c : Nat) (vs : List Nat) (ps : List Nat) (s : State) : Keeps s (State.tensorPut h t r c vs ps s) := by
  unfold State.tensorPut
  repeat' first
    | with_reducible exact .refl _ | with_reducible assumption | with_reducible intro s
    | (extract_lets +onlyGivenNames x; refine (have hx : Keeps s x := ?_; ?_); rotate_left; clear_value x; rotate_right)
    | (extract_lets +onlyGivenNames x; clear_value x) | subst x | with_reducible apply Keeps.ite | split
    | with_reducible apply Keeps.after (State.putBlocks_keeps _ _ _ _ _ _ _) | with_reducible apply Keeps.after (State.quantBlocks_keeps _ _ _ _)
    | with_reducible apply Keeps.after (State.mwrP_keeps _ _ _ _) | with_reducible apply Keeps.ite
    | with_reducible refine Keeps.after (State.quantBlocks_eq (by with_reducible assumption)) ?_

theorem State.scrWr_keeps (cn a : Nat) (bs : List Byte) (o : Nat) (s : State) : Keeps s (State.scrWr cn a bs o s) := by
  unfold State.scrWr
  repeat' first
    | with_reducible exact .refl _ | with_reducible assumption | with_reducible intro s | with_reducible apply Keeps.after (State.onCore_keeps _ _ _)
    | with_reducible apply Keeps.after (State.wr_keeps _ _ _ _) | with_reducible apply Keeps.ite | split

/-! ### Fetch -/

theorem State.onPort_keeps (n : Nat) (f : PortSt → PortSt) (s : State) : Keeps s (State.onPort n f s) := by
  unfold State.onPort
  repeat' first
    | with_reducible exact .refl _ | with_reducible assumption | with_reducible intro s | with_reducible apply Keeps.ite
    | with_reducible apply Keeps.other | split

theorem State.portOut_keeps (n : Nat) (x : NetOut) (s : State) : Keeps s (State.portOut n x s) := by
  unfold State.portOut
  repeat' first
    | with_reducible exact .refl _ | with_reducible assumption | with_reducible intro s | with_reducible apply Keeps.after (State.onPort_keeps _ _ _)
    | with_reducible apply Keeps.ite | split

theorem State.send_keeps (n : Nat) (x : NetOut) (bytes : Nat) (s : State) : Keeps s (State.send n x bytes s) := by
  unfold State.send
  repeat' first
    | with_reducible exact .refl _ | with_reducible assumption | with_reducible intro s | with_reducible apply Keeps.after (State.portOut_keeps _ _ _)
    | with_reducible apply Keeps.after (State.onPort_keeps _ _ _) | with_reducible apply Keeps.after (State.bump_keeps _ _ _ _)
    | with_reducible apply Keeps.ite | split

theorem State.goOn_keeps (n : Nat) (s : State) : Keeps s (State.goOn n s) := by
  unfold State.goOn
  repeat' first
    | with_reducible exact .refl _ | with_reducible assumption | with_reducible intro s
    | (extract_lets +onlyGivenNames x; refine (have hx : Keeps s x := ?_; ?_); rotate_left; clear_value x; rotate_right)
    | (extract_lets +onlyGivenNames x; clear_value x) | subst x | with_reducible apply Keeps.after (State.portOut_keeps _ _ _)
    | with_reducible apply Keeps.after (State.onPort_keeps _ _ _) | with_reducible apply Keeps.after (State.bump_keeps _ _ _ _)
    | with_reducible apply Keeps.ite | (with_reducible apply Keeps.each; intro _ s) | split

theorem State.onLoad_keeps (p : Nat) (f : Load → Load) (s : State) : Keeps s (State.onLoad p f s) := by
  unfold State.onLoad
  repeat' first
    | with_reducible exact .refl _ | with_reducible assumption | with_reducible intro s | with_reducible apply Keeps.after (State.onPart_keeps _ _ _)
    | with_reducible apply Keeps.ite | split

theorem State.onFab_keeps (f : FabSt → FabSt) (s : State) : Keeps s (State.onFab f s) := by
  unfold State.onFab
  repeat' first
    | with_reducible exact .refl _ | with_reducible assumption | with_reducible intro s | with_reducible apply Keeps.ite
    | with_reducible apply Keeps.other | split

theorem State.sendCmd_keeps (p src no : Nat) (c : NvmeCmd) (s : State) : Keeps s (State.sendCmd p src no c s) := by
  unfold State.sendCmd
  repeat' first
    | with_reducible exact .refl _ | with_reducible assumption | with_reducible intro s
    | (extract_lets +onlyGivenNames x; refine (have hx : Keeps s x := ?_; ?_); rotate_left; clear_value x; rotate_right)
    | (extract_lets +onlyGivenNames x; clear_value x) | subst x | with_reducible apply Keeps.ite | split
    | with_reducible apply Keeps.after (State.onFab_keeps _ _) | with_reducible apply Keeps.after (State.send_keeps _ _ _ _)
    | with_reducible apply Keeps.after (State.takeFree_keeps _) | with_reducible apply Keeps.ite
    | with_reducible refine Keeps.after (State.takeFree_eq (by with_reducible assumption)) ?_ | exact Keeps.pickFree (by with_reducible assumption)
    | with_reducible apply Keeps.other

theorem State.openSource_keeps (p set src : Nat) (s : State) : Keeps s (State.openSource p set src s) := by
  unfold State.openSource
  repeat' first
    | with_reducible exact .refl _ | with_reducible assumption | with_reducible intro s
    | (extract_lets +onlyGivenNames x; refine (have hx : Keeps s x := ?_; ?_); rotate_left; clear_value x; rotate_right)
    | (extract_lets +onlyGivenNames x; clear_value x) | subst x | with_reducible apply Keeps.after (State.sendCmd_keeps _ _ _ _ _)
    | with_reducible apply Keeps.after (State.onFab_keeps _ _) | with_reducible apply Keeps.ite | (with_reducible apply Keeps.foldl; intro s _)
    | (with_reducible apply Keeps.each; intro _ s) | split

theorem State.sendRead_keeps (p i : Nat) (s : State) : Keeps s (State.sendRead p i s) := by
  unfold State.sendRead
  repeat' first
    | with_reducible exact .refl _ | with_reducible assumption | with_reducible intro s
    | (extract_lets +onlyGivenNames x; refine (have hx : Keeps s x := ?_; ?_); rotate_left; clear_value x; rotate_right)
    | (extract_lets +onlyGivenNames x; clear_value x) | subst x | with_reducible apply Keeps.ite | split
    | with_reducible apply Keeps.after (State.sendCmd_keeps _ _ _ _ _) | with_reducible apply Keeps.after (State.onPart_keeps _ _ _)
    | with_reducible apply Keeps.ite

theorem State.pumpReads_keeps (p : Nat) (s : State) : Keeps s (State.pumpReads p s) := by
  unfold State.pumpReads
  repeat' first
    | with_reducible exact .refl _ | with_reducible assumption | with_reducible intro s
    | with_reducible apply Keeps.after (State.sendRead_keeps _ _ _) | with_reducible apply Keeps.ite | (with_reducible apply Keeps.each; intro _ s)
    | split

theorem State.askBytes_keeps (p : Nat) (what : FetchOf) (first src offset len : Nat) (s : State) : Keeps s (State.askBytes p what first src offset len s) := by
  unfold State.askBytes
  repeat' first
    | with_reducible exact .refl _ | with_reducible assumption | with_reducible intro s
    | (extract_lets +onlyGivenNames x; refine (have hx : Keeps s x := ?_; ?_); rotate_left; clear_value x; rotate_right)
    | (extract_lets +onlyGivenNames x; clear_value x) | subst x | with_reducible apply Keeps.after (State.pumpReads_keeps _ _)
    | with_reducible apply Keeps.after (State.onPart_keeps _ _ _) | with_reducible apply Keeps.ite | split

theorem State.endReads_keeps (p : Nat) (gone : FetchOf → Bool) (s : State) : Keeps s (State.endReads p gone s) := by
  unfold State.endReads
  repeat' first
    | with_reducible exact .refl _ | with_reducible assumption | with_reducible intro s | with_reducible apply Keeps.after (State.pumpReads_keeps _ _)
    | with_reducible apply Keeps.after (State.onPart_keeps _ _ _) | with_reducible apply Keeps.ite | split

theorem State.openFetch_keeps (p : Nat) (s : State) : Keeps s (State.openFetch p s) := by
  unfold State.openFetch
  repeat' first
    | with_reducible exact .refl _ | with_reducible assumption | with_reducible intro s
    | with_reducible apply Keeps.after (State.openSource_keeps _ _ _ _) | with_reducible apply Keeps.ite
    | (with_reducible apply Keeps.each; intro _ s) | (with_reducible apply Keeps.whenB; intro s) | split

theorem State.askShard_keeps (p key n : Nat) (s : State) : Keeps s (State.askShard p key n s) := by
  unfold State.askShard
  repeat' first
    | with_reducible exact .refl _ | with_reducible assumption | with_reducible intro s | with_reducible apply Keeps.ite | split
    | with_reducible apply Keeps.after (State.openFetch_keeps _ _) | with_reducible apply Keeps.after (State.askBytes_keeps _ _ _ _ _ _ _)
    | with_reducible apply Keeps.ite

theorem State.closeSet_keeps (p set : Nat) (s : State) : Keeps s (State.closeSet p set s) := by
  unfold State.closeSet
  repeat' first
    | with_reducible exact .refl _ | with_reducible assumption | with_reducible intro s | with_reducible apply Keeps.after (State.onFab_keeps _ _)
    | with_reducible apply Keeps.ite | split

theorem State.pruneReads_keeps (p : Nat) (s : State) : Keeps s (State.pruneReads p s) := by
  unfold State.pruneReads
  repeat' first
    | with_reducible exact .refl _ | with_reducible assumption | with_reducible intro s
    | (extract_lets +onlyGivenNames x; refine (have hx : Keeps s x := ?_; ?_); rotate_left; clear_value x; rotate_right)
    | (extract_lets +onlyGivenNames x; clear_value x) | subst x | with_reducible apply Keeps.ite | split
    | with_reducible apply Keeps.after (State.closeSet_keeps _ _ _) | with_reducible apply Keeps.after (State.endReads_keeps _ _ _)
    | with_reducible apply Keeps.ite | (with_reducible apply Keeps.whenB; intro s)

theorem State.closeLoad_keeps (p : Nat) (s : State) : Keeps s (State.closeLoad p s) := by
  unfold State.closeLoad
  repeat' first
    | with_reducible exact .refl _ | with_reducible assumption | with_reducible intro s
    | (extract_lets +onlyGivenNames x; refine (have hx : Keeps s x := ?_; ?_); rotate_left; clear_value x; rotate_right)
    | (extract_lets +onlyGivenNames x; clear_value x) | subst x | with_reducible apply Keeps.ite | split
    | with_reducible apply Keeps.after (State.closeSet_keeps _ _ _) | with_reducible apply Keeps.after (State.openFetch_keeps _ _)
    | with_reducible apply Keeps.after (State.pumpReads_keeps _ _) | with_reducible apply Keeps.after (State.onPart_keeps _ _ _)
    | with_reducible apply Keeps.ite | (with_reducible apply Keeps.whenB; intro s)

theorem State.refetch_keeps (p : Nat) (s : State) : Keeps s (State.refetch p s) := by
  unfold State.refetch
  repeat' first
    | with_reducible exact .refl _ | with_reducible assumption | with_reducible intro s
    | (extract_lets +onlyGivenNames x; refine (have hx : Keeps s x := ?_; ?_); rotate_left; clear_value x; rotate_right)
    | (extract_lets +onlyGivenNames x; clear_value x) | subst x | with_reducible apply Keeps.ite | split
    | with_reducible apply Keeps.after (State.closeSet_keeps _ _ _) | with_reducible apply Keeps.after (State.askShard_keeps _ _ _ _)
    | with_reducible apply Keeps.after (State.onPart_keeps _ _ _) | with_reducible apply Keeps.ite | (with_reducible apply Keeps.each; intro _ s)

theorem State.losePort_keeps (n : Nat) (s : State) : Keeps s (State.losePort n s) := by
  unfold State.losePort
  repeat' first
    | with_reducible exact .refl _ | with_reducible assumption | with_reducible intro s
    | (extract_lets +onlyGivenNames x; refine (have hx : Keeps s x := ?_; ?_); rotate_left; clear_value x; rotate_right)
    | (extract_lets +onlyGivenNames x; clear_value x) | subst x | with_reducible apply Keeps.after (State.pumpReads_keeps _ _)
    | with_reducible apply Keeps.after (State.onFab_keeps _ _) | with_reducible apply Keeps.after (State.onPart_keeps _ _ _)
    | with_reducible apply Keeps.ite | (with_reducible apply Keeps.each; intro _ s) | split

theorem execReadTimeout_keeps (part : Fin 12) (read : ReadRef) (s : State) : OutKeeps s (execReadTimeout part read s) := by
  unfold execReadTimeout
  repeat' first
    | with_reducible exact .refl _ | with_reducible assumption | with_reducible intro s | with_reducible apply OutKeeps.refused
    | with_reducible apply OutKeeps.ite
    | (extract_lets +onlyGivenNames x; refine (have hx : Keeps s x := ?_; ?_); rotate_left; clear_value x; rotate_right)
    | (extract_lets +onlyGivenNames x; clear_value x) | subst x | with_reducible apply OutKeeps.next | with_reducible apply Keeps.ite | split
    | with_reducible apply Keeps.after (State.pumpReads_keeps _ _) | with_reducible apply Keeps.after (State.onPart_keeps _ _ _)
    | with_reducible apply Keeps.ite

theorem State.keepAlives_keeps (s : State) : Keeps s (State.keepAlives s) := by
  unfold State.keepAlives
  repeat' first
    | with_reducible exact .refl _ | with_reducible assumption | with_reducible intro s
    | with_reducible apply Keeps.after (State.sendCmd_keeps _ _ _ _ _) | with_reducible apply Keeps.ite | (with_reducible apply Keeps.each; intro _ s)
    | split

theorem State.portsGoOn_keeps (s : State) : Keeps s (State.portsGoOn s) := by
  unfold State.portsGoOn
  repeat' first
    | with_reducible exact .refl _ | with_reducible assumption | with_reducible intro s | with_reducible apply Keeps.after (State.goOn_keeps _ _)
    | with_reducible apply Keeps.ite | (with_reducible apply Keeps.each; intro _ s) | split

/-! ### Arrays -/

theorem State.touchBlk_keeps (b : Blk) (s : State) : Keeps s (State.touchBlk b s) := by
  unfold State.touchBlk
  repeat' first
    | with_reducible exact .refl _ | with_reducible assumption | with_reducible intro s | with_reducible apply Keeps.after (State.touch_keeps _ _ _)
    | with_reducible apply Keeps.ite | (with_reducible apply Keeps.whenB; intro s) | split

theorem State.putBlk_keeps (b : Blk) (bytes : List Byte) (s : State) : Keeps s (State.putBlk b bytes s) := by
  unfold State.putBlk
  repeat' first
    | with_reducible exact .refl _ | with_reducible assumption | with_reducible intro s | with_reducible apply Keeps.after (State.mwr_keeps _ _ _)
    | with_reducible apply Keeps.ite | (with_reducible apply Keeps.whenB; intro s) | split

theorem State.onJob_keeps (k id : Nat) (f : Job → Job) (s : State) : Keeps s (State.onJob k id f s) := by
  unfold State.onJob
  repeat' first
    | with_reducible exact .refl _ | with_reducible assumption | with_reducible intro s | with_reducible apply Keeps.after (State.onStk_keeps _ _ _)
    | with_reducible apply Keeps.ite | split

theorem State.onPair_keeps (k key : Nat) (f : Pair → Pair) (s : State) : Keeps s (State.onPair k key f s) := by
  unfold State.onPair
  repeat' first
    | with_reducible exact .refl _ | with_reducible assumption | with_reducible intro s | with_reducible apply Keeps.after (State.onStk_keeps _ _ _)
    | with_reducible apply Keeps.ite | split

theorem State.queueEsc_keeps (j : Job) (c : ChainRec) (s : State) : Keeps s (State.queueEsc j c s) := by
  unfold State.queueEsc
  repeat' first
    | with_reducible exact .refl _ | with_reducible assumption | with_reducible intro s | with_reducible apply Keeps.after (State.onHub_keeps _ _ _)
    | with_reducible apply Keeps.ite | split

theorem State.repairLost_keeps (p : Nat) (b : Blk) (s : State) : Keeps s (State.repairLost p b s) := by
  unfold State.repairLost
  repeat' first
    | with_reducible exact .refl _ | with_reducible assumption | with_reducible intro s
    | (extract_lets +onlyGivenNames x; refine (have hx : Keeps s x := ?_; ?_); rotate_left; clear_value x; rotate_right)
    | (extract_lets +onlyGivenNames x; clear_value x) | subst x | with_reducible apply Keeps.after (State.pruneReads_keeps _ _)
    | with_reducible apply Keeps.after (State.report_keeps _ _ _) | with_reducible apply Keeps.after (State.onPart_keeps _ _ _)
    | with_reducible apply Keeps.after (State.raise_keeps _ _ _) | with_reducible apply Keeps.ite | split

theorem State.startRepair_keeps (p : Nat) (b : Blk) (s : State) : Keeps s (State.startRepair p b s) := by
  unfold State.startRepair
  repeat' first
    | with_reducible exact .refl _ | with_reducible assumption | with_reducible intro s
    | (extract_lets +onlyGivenNames x; refine (have hx : Keeps s x := ?_; ?_); rotate_left; clear_value x; rotate_right)
    | (extract_lets +onlyGivenNames x; clear_value x) | subst x | with_reducible apply Keeps.after (State.repairLost_keeps _ _ _)
    | with_reducible apply Keeps.after (State.askShard_keeps _ _ _ _) | with_reducible apply Keeps.after (State.report_keeps _ _ _)
    | with_reducible apply Keeps.after (State.onPart_keeps _ _ _) | with_reducible apply Keeps.after (State.count_keeps _ _ _)
    | with_reducible apply Keeps.after (State.raise_keeps _ _ _) | with_reducible apply Keeps.ite | (with_reducible apply Keeps.each; intro _ s)
    | (with_reducible apply Keeps.whenB; intro s) | split

theorem State.foundPoison_keeps (b : Nat) (s : State) : Keeps s (State.foundPoison b s) := by
  unfold State.foundPoison
  repeat' first
    | with_reducible exact .refl _ | with_reducible assumption | with_reducible intro s
    | (extract_lets +onlyGivenNames x; refine (have hx : Keeps s x := ?_; ?_); rotate_left; clear_value x; rotate_right)
    | (extract_lets +onlyGivenNames x; clear_value x) | subst x | with_reducible apply Keeps.ite | split
    | with_reducible apply Keeps.after (State.startRepair_keeps _ _ _) | with_reducible apply Keeps.ite | (with_reducible apply Keeps.each; intro _ s)

theorem State.startRunAt_keeps (k id rung : Nat) (s : State) : Keeps s (State.startRunAt k id rung s) := by
  unfold State.startRunAt
  repeat' first
    | with_reducible exact .refl _ | with_reducible assumption | with_reducible intro s
    | (extract_lets +onlyGivenNames x; refine (have hx : Keeps s x := ?_; ?_); rotate_left; clear_value x; rotate_right)
    | (extract_lets +onlyGivenNames x; clear_value x) | subst x | with_reducible apply Keeps.ite | split
    | with_reducible apply Keeps.after (State.queueEsc_keeps _ _ _) | with_reducible apply Keeps.after (State.onJob_keeps _ _ _ _)
    | with_reducible apply Keeps.ite

theorem State.startRun_keeps (k id : Nat) (s : State) : Keeps s (State.startRun k id s) := by
  unfold State.startRun
  repeat' first
    | with_reducible exact .refl _ | with_reducible assumption | with_reducible intro s
    | (extract_lets +onlyGivenNames x; refine (have hx : Keeps s x := ?_; ?_); rotate_left; clear_value x; rotate_right)
    | (extract_lets +onlyGivenNames x; clear_value x) | subst x | with_reducible apply Keeps.ite | split
    | with_reducible apply Keeps.after (State.startRunAt_keeps _ _ _ _) | with_reducible apply Keeps.after (State.onJob_keeps _ _ _ _)
    | with_reducible apply Keeps.ite

theorem State.completeToken_keeps (g : GroupRef) (t : Nat) (s : State) : Keeps s (State.completeToken g t s) := by
  unfold State.completeToken
  repeat' first
    | with_reducible exact .refl _ | with_reducible assumption | with_reducible intro s | with_reducible apply Keeps.after (State.onGrp_keeps _ _ _)
    | with_reducible apply Keeps.ite | split

theorem State.dropJob_keeps (k id : Nat) (s : State) : Keeps s (State.dropJob k id s) := by
  unfold State.dropJob
  repeat' first
    | with_reducible exact .refl _ | with_reducible assumption | with_reducible intro s | with_reducible apply Keeps.after (State.onStk_keeps _ _ _)
    | with_reducible apply Keeps.ite | split

theorem State.verdictTransient_keeps (p : Nat) (a : AlarmAt) (s : State) : Keeps s (State.verdictTransient p a s) := by
  unfold State.verdictTransient
  repeat' first
    | with_reducible exact .refl _ | with_reducible assumption | with_reducible intro s | with_reducible apply Keeps.after (State.report_keeps _ _ _)
    | with_reducible apply Keeps.after (State.count_keeps _ _ _) | with_reducible apply Keeps.ite | split

theorem State.verdictPermanent_keeps (p : Nat) (a : AlarmAt) (cause : Nat) (s : State) : Keeps s (State.verdictPermanent p a cause s) := by
  unfold State.verdictPermanent
  repeat' first
    | with_reducible exact .refl _ | with_reducible assumption | with_reducible intro s
    | (extract_lets +onlyGivenNames x; refine (have hx : Keeps s x := ?_; ?_); rotate_left; clear_value x; rotate_right)
    | (extract_lets +onlyGivenNames x; clear_value x) | subst x | with_reducible apply Keeps.after (State.report_keeps _ _ _)
    | with_reducible apply Keeps.after (State.onPart_keeps _ _ _) | with_reducible apply Keeps.after (State.count_keeps _ _ _)
    | with_reducible apply Keeps.after (State.raise_keeps _ _ _) | with_reducible apply Keeps.ite | split

theorem State.judge_keeps (p cause : Nat) (suspects alarmed : List AlarmAt) (s : State) : Keeps s (State.judge p cause suspects alarmed s) := by
  unfold State.judge
  repeat' first
    | with_reducible exact .refl _ | with_reducible assumption | with_reducible intro s
    | with_reducible apply Keeps.after (State.verdictPermanent_keeps _ _ _ _) | with_reducible apply Keeps.after (State.verdictTransient_keeps _ _ _)
    | with_reducible apply Keeps.ite | (with_reducible apply Keeps.each; intro _ s) | split

theorem State.dropFiring_keeps (k id : Nat) (s : State) : Keeps s (State.dropFiring k id s) := by
  unfold State.dropFiring
  repeat' first
    | with_reducible exact .refl _ | with_reducible assumption | with_reducible intro s | with_reducible apply Keeps.after (State.onStk_keeps _ _ _)
    | with_reducible apply Keeps.ite | split

theorem State.rerun_keeps (k id rung : Nat) (cad1 : Bool) (s : State) : Keeps s (State.rerun k id rung cad1 s) := by
  unfold State.rerun
  repeat' first
    | with_reducible exact .refl _ | with_reducible assumption | with_reducible intro s
    | (extract_lets +onlyGivenNames x; refine (have hx : Keeps s x := ?_; ?_); rotate_left; clear_value x; rotate_right)
    | (extract_lets +onlyGivenNames x; clear_value x) | subst x | with_reducible apply Keeps.ite | split
    | with_reducible apply Keeps.after (State.dropFiring_keeps _ _ _) | with_reducible apply Keeps.after (State.startRunAt_keeps _ _ _ _)
    | with_reducible apply Keeps.after (State.onPair_keeps _ _ _ _) | with_reducible apply Keeps.after (State.onJob_keeps _ _ _ _)
    | with_reducible apply Keeps.ite | (with_reducible apply Keeps.whenB; intro s)

theorem State.eachOpen_keeps (p : Nat) (f : Nat → Job → ChainRec → State → State) (hf : ∀ x0 x1 x2 u, Keeps u (f x0 x1 x2 u)) (s : State) : Keeps s (State.eachOpen p f s) := by
  unfold State.eachOpen
  repeat' first
    | with_reducible exact .refl _ | with_reducible assumption | with_reducible intro s | with_reducible apply Keeps.after (hf _ _ _ _ )
    | with_reducible apply Keeps.ite | split | with_reducible apply Keeps.ite | (with_reducible apply Keeps.each; intro _ s)
    | (with_reducible apply Keeps.whenB; intro s)

theorem State.raiseLayer_keeps (j : Job) (layer rung : Nat) (s : State) : Keeps s (State.raiseLayer j layer rung s) := by
  unfold State.raiseLayer
  repeat' first
    | with_reducible exact .refl _ | with_reducible assumption | with_reducible intro s
    | (extract_lets +onlyGivenNames x; refine (have hx : Keeps s x := ?_; ?_); rotate_left; clear_value x; rotate_right)
    | (extract_lets +onlyGivenNames x; clear_value x) | subst x | with_reducible apply Keeps.after (State.eachOpen_keeps _ _ ?_ _)
    | with_reducible apply Keeps.after (State.rerun_keeps _ _ _ _ _) | with_reducible apply Keeps.after (State.onStep_keeps _ _ _)
    | with_reducible apply Keeps.ite | (with_reducible apply Keeps.whenB; intro s) | split

theorem State.raiseWaiting_keeps (p layer : Nat) (s : State) : Keeps s (State.raiseWaiting p layer s) := by
  unfold State.raiseWaiting
  repeat' first
    | with_reducible exact .refl _ | with_reducible assumption | with_reducible intro s
    | (extract_lets +onlyGivenNames x; refine (have hx : Keeps s x := ?_; ?_); rotate_left; clear_value x; rotate_right)
    | (extract_lets +onlyGivenNames x; clear_value x) | subst x | with_reducible apply Keeps.after (State.eachOpen_keeps _ _ ?_ _)
    | with_reducible apply Keeps.after (State.startRunAt_keeps _ _ _ _) | with_reducible apply Keeps.ite | (with_reducible apply Keeps.whenB; intro s)
    | split

theorem State.addRepeats_keeps (k id : Nat) (alarms : List AlarmAt) (s : State) : Keeps s (State.addRepeats k id alarms s) := by
  unfold State.addRepeats
  repeat' first
    | with_reducible exact .refl _ | with_reducible assumption | with_reducible intro s
    | (extract_lets +onlyGivenNames x; refine (have hx : Keeps s x := ?_; ?_); rotate_left; clear_value x; rotate_right)
    | (extract_lets +onlyGivenNames x; clear_value x) | subst x | with_reducible apply Keeps.ite | split
    | with_reducible apply Keeps.after (State.onJob_keeps _ _ _ _) | with_reducible apply Keeps.after (State.nonDet_keeps _ _ _)
    | with_reducible apply Keeps.ite | (with_reducible apply Keeps.foldl; intro s _) | (with_reducible apply Keeps.whenB; intro s)

theorem State.exhaust_keeps (k : Nat) (j : Job) (s : State) : Keeps s (State.exhaust k j s) := by
  unfold State.exhaust
  repeat' first
    | with_reducible exact .refl _ | with_reducible assumption | with_reducible intro s
    | (extract_lets +onlyGivenNames x; refine (have hx : Keeps s x := ?_; ?_); rotate_left; clear_value x; rotate_right)
    | (extract_lets +onlyGivenNames x; clear_value x) | subst x | with_reducible apply Keeps.after (State.addRepeats_keeps _ _ _ _)
    | with_reducible apply Keeps.after (State.onJob_keeps _ _ _ _) | with_reducible apply Keeps.after (State.flagCount_keeps _ _ _ _)
    | with_reducible apply Keeps.ite | split

theorem State.escalate_keeps (k id : Nat) (s : State) : Keeps s (State.escalate k id s) := by
  unfold State.escalate
  repeat' first
    | with_reducible exact .refl _ | with_reducible assumption | with_reducible intro s
    | (extract_lets +onlyGivenNames x; refine (have hx : Keeps s x := ?_; ?_); rotate_left; clear_value x; rotate_right)
    | (extract_lets +onlyGivenNames x; clear_value x) | subst x | with_reducible apply Keeps.ite | split
    | with_reducible apply Keeps.after (State.exhaust_keeps _ _ _) | with_reducible apply Keeps.after (State.raiseWaiting_keeps _ _ _)
    | with_reducible apply Keeps.after (State.raiseLayer_keeps _ _ _ _) | with_reducible apply Keeps.after (State.rerun_keeps _ _ _ _ _)
    | with_reducible apply Keeps.after (State.judge_keeps _ _ _ _ _) | with_reducible apply Keeps.after (State.onJob_keeps _ _ _ _)
    | with_reducible apply Keeps.after (State.nonDet_keeps _ _ _) | with_reducible apply Keeps.after (State.onStep_keeps _ _ _)
    | with_reducible apply Keeps.after (State.count_keeps _ _ _) | with_reducible apply Keeps.ite | (with_reducible apply Keeps.whenB; intro s)

theorem State.promote_keeps (k key : Nat) (s : State) : Keeps s (State.promote k key s) := by
  unfold State.promote
  repeat' first
    | with_reducible exact .refl _ | with_reducible assumption | with_reducible intro s
    | (extract_lets +onlyGivenNames x; refine (have hx : Keeps s x := ?_; ?_); rotate_left; clear_value x; rotate_right)
    | (extract_lets +onlyGivenNames x; clear_value x) | subst x | with_reducible apply Keeps.ite | split
    | with_reducible apply Keeps.after (State.onPair_keeps _ _ _ _) | with_reducible apply Keeps.after (State.count_keeps _ _ _)
    | with_reducible apply Keeps.after (State.bump_keeps _ _ _ _) | with_reducible apply Keeps.after (State.raise_keeps _ _ _)
    | with_reducible apply Keeps.ite | (with_reducible apply Keeps.whenB; intro s)

theorem State.noteWiden_keeps (k : Nat) (s : State) : Keeps s (State.noteWiden k s) := by
  unfold State.noteWiden
  repeat' first
    | with_reducible exact .refl _ | with_reducible assumption | with_reducible intro s | with_reducible apply Keeps.after (State.onStk_keeps _ _ _)
    | with_reducible apply Keeps.ite | split

theorem State.openChain_keeps (k : Nat) (j : Job) (c : ChainRec) (s : State) : Keeps s (State.openChain k j c s) := by
  unfold State.openChain
  repeat' first
    | with_reducible exact .refl _ | with_reducible assumption | with_reducible intro s
    | (extract_lets +onlyGivenNames x; refine (have hx : Keeps s x := ?_; ?_); rotate_left; clear_value x; rotate_right)
    | (extract_lets +onlyGivenNames x; clear_value x) | subst x | with_reducible apply Keeps.after (State.onPair_keeps _ _ _ _)
    | with_reducible apply Keeps.after (State.onJob_keeps _ _ _ _) | with_reducible apply Keeps.ite | split

theorem State.saturate_keeps (k : Nat) (j : Job) (cols : Nat → Bool) (s : State) : Keeps s (State.saturate k j cols s) := by
  unfold State.saturate
  repeat' first
    | with_reducible exact .refl _ | with_reducible assumption | with_reducible intro s
    | (extract_lets +onlyGivenNames x; refine (have hx : Keeps s x := ?_; ?_); rotate_left; clear_value x; rotate_right)
    | (extract_lets +onlyGivenNames x; clear_value x) | subst x | with_reducible apply Keeps.after (State.rerun_keeps _ _ _ _ _)
    | with_reducible apply Keeps.after (State.onPair_keeps _ _ _ _) | with_reducible apply Keeps.after (State.nonDet_keeps _ _ _)
    | with_reducible apply Keeps.after (State.flagCount_keeps _ _ _ _) | with_reducible apply Keeps.after (State.count_keeps _ _ _)
    | with_reducible apply Keeps.ite | split

theorem State.addPass_keeps (k : Nat) (j : Job) (c : ChainRec) (it : EvalItem) (phys : Nat) (clipped : Bool) (r : PassRes) (s : State) :
    Keeps s (State.addPass k j c it phys clipped r s).1 := by
  unfold State.addPass
  split
  · exact .refl _
  extract_lets u key ents isMasked rec_ w q raw add sums past flag s1 s2
  have h1 : Keeps s s1 := State.onPair_keeps ..
  have h2 : Keeps s s2 := ⟨h1.mem, h1.pending, h1.fuses⟩
  clear_value s1 s2
  split
  · exact (State.saturate_keeps ..).after h2
  · exact Keeps.whenB (fun _ => State.promote_keeps ..) h2
theorem State.addPass_eq {k : Nat} {j : Job} {c : ChainRec} {it : EvalItem} {phys : Nat} {clipped : Bool} {r : PassRes} {s : State} {v : Bool} {u : State}
    (heq : State.addPass k j c it phys clipped r s = (u, v)) : Keeps s u := by
  have := State.addPass_keeps k j c it phys clipped r s
  rwa [heq] at this

theorem State.coverPass_keeps (k : Nat) (j : Job) (it : EvalItem) (r : PassRes) (s : State) : Keeps s (State.coverPass k j it r s) := by
  unfold State.coverPass
  repeat' first
    | with_reducible exact .refl _ | with_reducible assumption | with_reducible intro s | with_reducible apply Keeps.ite | split
    | with_reducible apply Keeps.after (State.onJob_keeps _ _ _ _) | with_reducible apply Keeps.ite | (with_reducible apply Keeps.whenB; intro s)

theorem State.coverEval_keeps (k : Nat) (j : Job) (it : EvalItem) (s : State) : Keeps s (State.coverEval k j it s) := by
  unfold State.coverEval
  repeat' first
    | with_reducible exact .refl _ | with_reducible assumption | with_reducible intro s
    | (extract_lets +onlyGivenNames x; refine (have hx : Keeps s x := ?_; ?_); rotate_left; clear_value x; rotate_right)
    | (extract_lets +onlyGivenNames x; clear_value x) | subst x | with_reducible apply Keeps.ite | split
    | with_reducible apply Keeps.after (State.onJob_keeps _ _ _ _) | with_reducible apply Keeps.after (State.bump_keeps _ _ _ _)
    | with_reducible apply Keeps.ite | (with_reducible apply Keeps.whenB; intro s)

theorem State.checkPass_keeps (k : Nat) (it : EvalItem) (phys : Nat) (r : PassRes) (s : State) : Keeps s ((State.checkPass k it phys r s).1) := by
  unfold State.checkPass
  repeat' first
    | with_reducible exact .refl _ | with_reducible assumption | with_reducible intro s
    | (extract_lets +onlyGivenNames x; refine (have hx : Keeps s x := ?_; ?_); rotate_left; clear_value x; rotate_right)
    | (extract_lets +onlyGivenNames x; clear_value x) | subst x | with_reducible apply Keeps.after (State.bump_keeps _ _ _ _)
    | with_reducible apply Keeps.after (State.raise_keeps _ _ _) | with_reducible apply Keeps.ite | (with_reducible apply Keeps.whenB; intro s)
    | split
theorem State.checkPass_eq {k : Nat} {it : EvalItem} {phys : Nat} {r : PassRes} {s : State} {v : List AlarmAt} {u : State} (heq : State.checkPass k it phys r s = (u, v)) : Keeps s u := by
  have := State.checkPass_keeps k it phys r s
  rwa [heq] at this

theorem State.gatherDrift_keeps (k : Nat) (it : EvalItem) (phys : Nat) (r : PassRes) (s : State) : Keeps s (State.gatherDrift k it phys r s) := by
  unfold State.gatherDrift
  repeat' first
    | with_reducible exact .refl _ | with_reducible assumption | with_reducible intro s
    | (extract_lets +onlyGivenNames x; refine (have hx : Keeps s x := ?_; ?_); rotate_left; clear_value x; rotate_right)
    | (extract_lets +onlyGivenNames x; clear_value x) | subst x | with_reducible apply Keeps.after (State.onStk_keeps _ _ _)
    | with_reducible apply Keeps.ite | split

theorem State.finishRun_keeps (k id : Nat) (s : State) : Keeps s (State.finishRun k id s) := by
  unfold State.finishRun
  repeat' first
    | with_reducible exact .refl _ | with_reducible assumption | with_reducible intro s
    | (extract_lets +onlyGivenNames x; refine (have hx : Keeps s x := ?_; ?_); rotate_left; clear_value x; rotate_right)
    | (extract_lets +onlyGivenNames x; clear_value x) | subst x | with_reducible apply Keeps.ite | split
    | with_reducible apply Keeps.after (State.promote_keeps _ _ _) | with_reducible apply Keeps.after (State.judge_keeps _ _ _ _ _)
    | with_reducible apply Keeps.after (State.completeToken_keeps _ _ _) | with_reducible apply Keeps.after (State.onPair_keeps _ _ _ _)
    | with_reducible apply Keeps.after (State.onJob_keeps _ _ _ _) | with_reducible apply Keeps.ite | (with_reducible apply Keeps.whenB; intro s)

theorem State.accept_keeps (k id : Nat) (it : EvalItem) (phys : Nat) (s : State) : Keeps s (State.accept k id it phys s) := by
  unfold State.accept
  split
  · exact .refl _
  split
  · exact .refl _
  extract_lets chk
  have h1 : Keeps s chk.1 := by
    refine Keeps.foldlFst _ (fun b x => ?_) (.refl _)
    exact State.checkPass_keeps ..
  clear_value chk
  split
  extract_lets +onlyGivenNames clipped masked u w
  have h2 : Keeps s u := Keeps.whenB (fun _ => State.raise_keeps ..) h1
  have h3 : Keeps s w := Keeps.each _ (fun _ _ => State.gatherDrift_keeps ..) h2
  clear_value u w
  apply Keeps.ite
  · exact ((State.finishRun_keeps ..).after (State.onJob_keeps ..)).after h3
  extract_lets +onlyGivenNames v z
  have h4 : Keeps s v := (State.noteWiden_keeps ..).after (Keeps.whenB (fun _ => State.openChain_keeps ..) h3)
  have h5 : Keeps s z := (State.coverEval_keeps ..).after h4
  clear_value v z
  extract_lets +onlyGivenNames added
  have h6 : Keeps s added.1 := by
    refine Keeps.foldlFst _ (fun b x => ?_) h5
    split
    · exact .refl _
    · exact (State.addPass_keeps ..).after (State.coverPass_keeps ..)
  clear_value added
  split
  apply Keeps.ite
  · exact h6
  extract_lets +onlyGivenNames y
  have h7 : Keeps s y := (State.onJob_keeps ..).after h6
  clear_value y
  repeat' first
    | with_reducible assumption | with_reducible apply Keeps.ite | with_reducible apply Keeps.after (State.addRepeats_keeps _ _ _ _)
    | with_reducible apply Keeps.after (State.escalate_keeps _ _ _) | with_reducible apply Keeps.after (State.onJob_keeps _ _ _ _)
    | with_reducible apply Keeps.after (State.finishRun_keeps _ _ _) | (with_reducible apply Keeps.each; intro _ _; exact State.startRepair_keeps ..)
    | extract_lets

theorem State.countBlocks_keeps (k : Nat) (j : Job) (it : EvalItem) (dr : Driven) (rb : Nat) (s : State) : Keeps s (State.countBlocks k j it dr rb s) := by
  unfold State.countBlocks
  repeat' first
    | with_reducible exact .refl _ | with_reducible assumption | with_reducible intro s
    | (extract_lets +onlyGivenNames x; refine (have hx : Keeps s x := ?_; ?_); rotate_left; clear_value x; rotate_right)
    | (extract_lets +onlyGivenNames x; clear_value x) | subst x | with_reducible apply Keeps.ite | split
    | with_reducible apply Keeps.after (State.escalate_keeps _ _ _) | with_reducible apply Keeps.after (State.onJob_keeps _ _ _ _)
    | with_reducible apply Keeps.after (State.touchRow_keeps _ _ _ _ _) | with_reducible apply Keeps.after (State.bump_keeps _ _ _ _)
    | with_reducible apply Keeps.after (State.raise_keeps _ _ _) | with_reducible apply Keeps.ite | (with_reducible apply Keeps.whenB; intro s)

theorem State.armItem_keeps (k : Nat) (j : Job) (it : EvalItem) (dr : Driven) (rb : Nat) (s : State) : Keeps s (State.armItem k j it dr rb s) := by
  unfold State.armItem
  repeat' first
    | with_reducible exact .refl _ | with_reducible assumption | with_reducible intro s
    | (extract_lets +onlyGivenNames x; refine (have hx : Keeps s x := ?_; ?_); rotate_left; clear_value x; rotate_right)
    | (extract_lets +onlyGivenNames x; clear_value x) | subst x | with_reducible apply Keeps.ite | split
    | with_reducible apply Keeps.after (State.countBlocks_keeps _ _ _ _ _ _) | with_reducible apply Keeps.after (State.accept_keeps _ _ _ _ _)
    | with_reducible apply Keeps.after (State.noteWiden_keeps _ _) | with_reducible apply Keeps.after (State.onJob_keeps _ _ _ _)
    | with_reducible apply Keeps.after (State.flagCount_keeps _ _ _ _) | with_reducible apply Keeps.after (State.onStk_keeps _ _ _)
    | with_reducible apply Keeps.after (State.count_keeps _ _ _) | with_reducible apply Keeps.after (State.raise_keeps _ _ _)
    | with_reducible apply Keeps.ite | (with_reducible apply Keeps.whenB; intro s)

theorem execTierRebias_keeps (stack : Fin 12) (s : State) : OutKeeps s (execTierRebias stack s) := by
  unfold execTierRebias
  repeat' first
    | with_reducible exact .refl _ | with_reducible assumption | with_reducible intro s | with_reducible apply OutKeeps.refused
    | with_reducible apply OutKeeps.ite | with_reducible apply OutKeeps.next | with_reducible apply Keeps.ite | split
    | with_reducible apply Keeps.after (State.onStk_keeps _ _ _) | with_reducible apply Keeps.after (State.count_keeps _ _ _)
    | with_reducible apply Keeps.ite | with_reducible apply Keeps.other

theorem State.dropLater_keeps (k : Nat) (it : EvalItem) (s : State) : Keeps s (State.dropLater k it s) := by
  unfold State.dropLater
  repeat' first
    | with_reducible exact .refl _ | with_reducible assumption | with_reducible intro s
    | (extract_lets +onlyGivenNames x; refine (have hx : Keeps s x := ?_; ?_); rotate_left; clear_value x; rotate_right)
    | (extract_lets +onlyGivenNames x; clear_value x) | subst x | with_reducible apply Keeps.after (State.onJob_keeps _ _ _ _)
    | with_reducible apply Keeps.after (State.onStk_keeps _ _ _) | with_reducible apply Keeps.ite | split

theorem State.passDone_keeps (k : Nat) (it : EvalItem) (r : PassRes) (s : State) : Keeps s (State.passDone k it r s) := by
  unfold State.passDone
  repeat' first
    | with_reducible exact .refl _ | with_reducible assumption | with_reducible intro s
    | (extract_lets +onlyGivenNames x; refine (have hx : Keeps s x := ?_; ?_); rotate_left; clear_value x; rotate_right)
    | (extract_lets +onlyGivenNames x; clear_value x) | subst x | with_reducible apply Keeps.after (State.onJob_keeps _ _ _ _)
    | with_reducible apply Keeps.after (State.onStk_keeps _ _ _) | with_reducible apply Keeps.ite | split

theorem execSampleAndHold_keeps (stack : Fin 12) (array : Nat) (s : State) : OutKeeps s (execSampleAndHold stack array s) := by
  unfold execSampleAndHold
  repeat' first
    | with_reducible exact .refl _ | with_reducible assumption | with_reducible intro s | with_reducible apply OutKeeps.refused
    | with_reducible apply OutKeeps.ite
    | (extract_lets +onlyGivenNames x; refine (have hx : Keeps s x := ?_; ?_); rotate_left; clear_value x; rotate_right)
    | (extract_lets +onlyGivenNames x; clear_value x) | subst x | with_reducible apply OutKeeps.next | with_reducible apply Keeps.ite | split
    | with_reducible apply Keeps.after (State.onJob_keeps _ _ _ _) | with_reducible apply Keeps.after (State.onStk_keeps _ _ _)
    | with_reducible apply Keeps.ite | (with_reducible apply Keeps.each; intro _ s)

theorem execConversionRoundEnd_keeps (stack : Fin 12) (array : Nat) (devs : List Int) (s : State) : OutKeeps s (execConversionRoundEnd stack array devs s) := by
  unfold execConversionRoundEnd
  repeat' first
    | with_reducible exact .refl _ | with_reducible assumption | with_reducible intro s | with_reducible apply OutKeeps.refused
    | with_reducible apply OutKeeps.ite
    | (extract_lets +onlyGivenNames x; refine (have hx : Keeps s x := ?_; ?_); rotate_left; clear_value x; rotate_right)
    | (extract_lets +onlyGivenNames x; clear_value x) | subst x | with_reducible apply OutKeeps.next | with_reducible apply Keeps.ite | split
    | with_reducible apply Keeps.after (State.passDone_keeps _ _ _ _) | with_reducible apply Keeps.after (State.dropLater_keeps _ _ _)
    | with_reducible apply Keeps.after (State.accept_keeps _ _ _ _ _) | with_reducible apply Keeps.after (State.onJob_keeps _ _ _ _)
    | with_reducible apply Keeps.after (State.nonDet_keeps _ _ _) | with_reducible apply Keeps.after (State.flagCount_keeps _ _ _ _)
    | with_reducible apply Keeps.after (State.onStk_keeps _ _ _) | with_reducible apply Keeps.ite

theorem State.abortRepeat_keeps (k : Nat) (f : Firing) (s : State) : Keeps s (State.abortRepeat k f s) := by
  unfold State.abortRepeat
  repeat' first
    | with_reducible exact .refl _ | with_reducible assumption | with_reducible intro s
    | (extract_lets +onlyGivenNames x; refine (have hx : Keeps s x := ?_; ?_); rotate_left; clear_value x; rotate_right)
    | (extract_lets +onlyGivenNames x; clear_value x) | subst x | with_reducible apply Keeps.after (State.dropLater_keeps _ _ _)
    | with_reducible apply Keeps.after (State.onJob_keeps _ _ _ _) | with_reducible apply Keeps.after (State.onStk_keeps _ _ _)
    | with_reducible apply Keeps.after (State.count_keeps _ _ _) | with_reducible apply Keeps.ite | split

theorem execPriorityRead_keeps (stack : Fin 12) (array column : Nat) (slot : Fin 8) (ran : Fin 28) (s : State) : OutKeeps s (execPriorityRead stack array column slot ran s) := by
  unfold execPriorityRead
  repeat' first
    | with_reducible exact .refl _ | with_reducible assumption | with_reducible intro s | with_reducible apply OutKeeps.refused
    | with_reducible apply OutKeeps.ite
    | (extract_lets +onlyGivenNames x; refine (have hx : Keeps s x := ?_; ?_); rotate_left; clear_value x; rotate_right)
    | (extract_lets +onlyGivenNames x; clear_value x) | subst x | with_reducible apply OutKeeps.next | with_reducible apply Keeps.ite | split
    | with_reducible apply Keeps.after (State.abortRepeat_keeps _ _ _) | with_reducible apply Keeps.after (State.onStk_keeps _ _ _)
    | with_reducible apply Keeps.ite

theorem State.thermalUrgent_keeps (k d : Nat) (s : State) : Keeps s (State.thermalUrgent k d s) := by
  unfold State.thermalUrgent
  repeat' first
    | with_reducible exact .refl _ | with_reducible assumption | with_reducible intro s
    | (extract_lets +onlyGivenNames x; refine (have hx : Keeps s x := ?_; ?_); rotate_left; clear_value x; rotate_right)
    | (extract_lets +onlyGivenNames x; clear_value x) | subst x | with_reducible apply Keeps.ite | split
    | with_reducible apply Keeps.after (State.abortRepeat_keeps _ _ _) | with_reducible apply Keeps.after (State.disturb_keeps _ _)
    | with_reducible apply Keeps.after (State.onStk_keeps _ _ _) | with_reducible apply Keeps.ite | (with_reducible apply Keeps.each; intro _ s)

theorem State.nextRow_keeps (k id : Nat) (s : State) : Keeps s (State.nextRow k id s) := by
  unfold State.nextRow
  repeat' first
    | with_reducible exact .refl _ | with_reducible assumption | with_reducible intro s
    | (extract_lets +onlyGivenNames x; refine (have hx : Keeps s x := ?_; ?_); rotate_left; clear_value x; rotate_right)
    | (extract_lets +onlyGivenNames x; clear_value x) | subst x | with_reducible apply Keeps.ite | split
    | with_reducible apply Keeps.after (State.dropJob_keeps _ _ _) | with_reducible apply Keeps.after (State.startRun_keeps _ _ _)
    | with_reducible apply Keeps.after (State.onJob_keeps _ _ _ _) | with_reducible apply Keeps.ite

theorem execReadout_keeps (stack : Fin 12) (tile : Nat) (slot : Fin 16) (s : State) : OutKeeps s (execReadout stack tile slot s) := by
  unfold execReadout
  repeat' first
    | with_reducible exact .refl _ | with_reducible assumption | with_reducible intro s | with_reducible apply OutKeeps.refused
    | with_reducible apply OutKeeps.ite
    | (extract_lets +onlyGivenNames x; refine (have hx : Keeps s x := ?_; ?_); rotate_left; clear_value x; rotate_right)
    | (extract_lets +onlyGivenNames x; clear_value x) | subst x | with_reducible apply OutKeeps.next | with_reducible apply Keeps.ite | split
    | with_reducible apply Keeps.after (State.nextRow_keeps _ _ _) | with_reducible apply Keeps.after (State.onPair_keeps _ _ _ _)
    | with_reducible apply Keeps.after (State.onHub_keeps _ _ _) | with_reducible apply Keeps.ite

theorem State.winReadBy_keeps (h p a n : Nat) (s : State) : Keeps s ((State.winReadBy h p a n s).2) := by
  unfold State.winReadBy
  repeat' first
    | with_reducible exact .refl _ | with_reducible assumption | with_reducible intro s
    | with_reducible apply Keeps.after (State.flagCount_keeps _ _ _ _) | with_reducible apply Keeps.ite | split
theorem State.winReadBy_eq {h p a n : Nat} {s : State} {v : List Byte} {u : State} (heq : State.winReadBy h p a n s = (v, u)) : Keeps s u := by
  have := State.winReadBy_keeps h p a n s
  rwa [heq] at this

theorem State.winWrite_keeps (h p a : Nat) (data : List Byte) (s : State) : Keeps s (State.winWrite h p a data s) := by
  unfold State.winWrite
  repeat' first
    | with_reducible exact .refl _ | with_reducible assumption | with_reducible intro s
    | (extract_lets +onlyGivenNames x; refine (have hx : Keeps s x := ?_; ?_); rotate_left; clear_value x; rotate_right)
    | (extract_lets +onlyGivenNames x; clear_value x) | subst x | with_reducible apply Keeps.ite | split
    | with_reducible apply Keeps.after (State.nextRow_keeps _ _ _) | with_reducible apply Keeps.after (State.flagCount_keeps _ _ _ _)
    | with_reducible apply Keeps.after (State.onStk_keeps _ _ _) | with_reducible apply Keeps.ite | (with_reducible apply Keeps.foldl; intro s _)
    | (with_reducible apply Keeps.each; intro _ s)

theorem execWindowWrite_keeps (hub : Fin 4) (part : Fin 12) (addr : Nat) (data : List Byte) (s : State) : OutKeeps s (execWindowWrite hub part addr data s) := by
  unfold execWindowWrite
  repeat' first
    | with_reducible exact .refl _ | with_reducible assumption | with_reducible intro s | with_reducible apply OutKeeps.refused
    | with_reducible apply OutKeeps.ite | with_reducible apply OutKeeps.next | with_reducible apply Keeps.after (State.winWrite_keeps _ _ _ _ _)
    | with_reducible apply Keeps.ite | split

/-! ### Epilogue -/

theorem State.onVal_keeps (h : Nat) (v : ChainVal) (f : ChainVal → ChainVal) (s : State) : Keeps s (State.onVal h v f s) := by
  unfold State.onVal
  repeat' first
    | with_reducible exact .refl _ | with_reducible assumption | with_reducible intro s | with_reducible apply Keeps.after (State.onHub_keeps _ _ _)
    | with_reducible apply Keeps.ite | split

theorem State.askDigital_keeps (h : Nat) (c : ChainRec) (v : ChainVal) (rung : Nat) (s : State) : Keeps s (State.askDigital h c v rung s) := by
  unfold State.askDigital
  repeat' first
    | with_reducible exact .refl _ | with_reducible assumption | with_reducible intro s | with_reducible apply Keeps.after (State.onVal_keeps _ _ _ _)
    | with_reducible apply Keeps.after (State.onHub_keeps _ _ _) | with_reducible apply Keeps.ite | split

theorem State.rowWritten_keeps (k id : Nat) (s : State) : Keeps s (State.rowWritten k id s) := by
  unfold State.rowWritten
  repeat' first
    | with_reducible exact .refl _ | with_reducible assumption | with_reducible intro s | with_reducible apply Keeps.ite | split
    | with_reducible apply Keeps.after (State.dropJob_keeps _ _ _) | with_reducible apply Keeps.after (State.completeToken_keeps _ _ _)
    | with_reducible apply Keeps.after (State.onJob_keeps _ _ _ _) | with_reducible apply Keeps.ite

theorem State.writeRow_keeps (p h : Nat) (c : ChainRec) (t : TensorRec) (row : Nat) (ys : List PVal) (s : State) : Keeps s (State.writeRow p h c t row ys s) := by
  unfold State.writeRow
  repeat' first
    | with_reducible exact .refl _ | with_reducible assumption | with_reducible intro s
    | (extract_lets +onlyGivenNames x; refine (have hx : Keeps s x := ?_; ?_); rotate_left; clear_value x; rotate_right)
    | (extract_lets +onlyGivenNames x; clear_value x) | subst x | with_reducible apply Keeps.ite | split
    | with_reducible apply Keeps.after (State.tensorPut_keeps _ _ _ _ _ _ _) | with_reducible apply Keeps.after (State.putBlocks_keeps _ _ _ _ _ _ _)
    | with_reducible apply Keeps.after (State.quantBlocks_keeps _ _ _ _) | with_reducible apply Keeps.after (State.bump_keeps _ _ _ _)
    | with_reducible apply Keeps.ite | (with_reducible apply Keeps.each; intro _ s)
    | with_reducible refine Keeps.after (State.quantBlocks_eq (by with_reducible assumption)) ?_ | with_reducible apply Keeps.other

theorem State.columnResult_keeps (p chain row : Nat) (s : State) : Keeps s (State.columnResult p chain row s) := by
  unfold State.columnResult
  repeat' first
    | with_reducible exact .refl _ | with_reducible assumption | with_reducible intro s
    | (extract_lets +onlyGivenNames x; refine (have hx : Keeps s x := ?_; ?_); rotate_left; clear_value x; rotate_right)
    | (extract_lets +onlyGivenNames x; clear_value x) | subst x | with_reducible apply Keeps.ite | split
    | with_reducible apply Keeps.after (State.writeRow_keeps _ _ _ _ _ _ _) | with_reducible apply Keeps.after (State.rowWritten_keeps _ _ _)
    | with_reducible apply Keeps.after (State.askDigital_keeps _ _ _ _ _) | with_reducible apply Keeps.after (State.startRepair_keeps _ _ _)
    | with_reducible apply Keeps.after (State.touchBlk_keeps _ _) | with_reducible apply Keeps.after (State.touchRow_keeps _ _ _ _ _)
    | with_reducible apply Keeps.after (State.nonDet_keeps _ _ _) | with_reducible apply Keeps.after (State.noteStep_keeps _ _ _)
    | with_reducible apply Keeps.after (State.onHub_keeps _ _ _) | with_reducible apply Keeps.after (State.bump_keeps _ _ _ _)
    | with_reducible apply Keeps.after (State.raise_keeps _ _ _) | with_reducible apply Keeps.ite | (with_reducible apply Keeps.foldl; intro s _)
    | (with_reducible apply Keeps.each; intro _ s) | (with_reducible apply Keeps.whenB; intro s)

theorem execColumnResult_keeps (part : Fin 12) (chain row : Nat) (s : State) : OutKeeps s (execColumnResult part chain row s) := by
  unfold execColumnResult
  repeat' first
    | with_reducible exact .refl _ | with_reducible assumption | with_reducible intro s | with_reducible apply OutKeeps.refused
    | with_reducible apply OutKeeps.ite | with_reducible apply OutKeeps.next | with_reducible apply Keeps.after (State.columnResult_keeps _ _ _ _)
    | with_reducible apply Keeps.ite | split

theorem State.queueRecal_keeps (k tile reason : Nat) (s : State) : Keeps s (State.queueRecal k tile reason s) := by
  unfold State.queueRecal
  repeat' first
    | with_reducible exact .refl _ | with_reducible assumption | with_reducible intro s
    | (extract_lets +onlyGivenNames x; refine (have hx : Keeps s x := ?_; ?_); rotate_left; clear_value x; rotate_right)
    | (extract_lets +onlyGivenNames x; clear_value x) | subst x | with_reducible apply Keeps.after (State.onStk_keeps _ _ _)
    | with_reducible apply Keeps.ite | split

theorem State.fitOne_keeps (k key : Nat) (d : DriftStat) (s : State) : Keeps s (State.fitOne k key d s) := by
  unfold State.fitOne
  repeat' first
    | with_reducible exact .refl _ | with_reducible assumption | with_reducible intro s
    | (extract_lets +onlyGivenNames x; refine (have hx : Keeps s x := ?_; ?_); rotate_left; clear_value x; rotate_right)
    | (extract_lets +onlyGivenNames x; clear_value x) | subst x | with_reducible apply Keeps.ite | split
    | with_reducible apply Keeps.after (State.queueRecal_keeps _ _ _ _) | with_reducible apply Keeps.after (State.takeFree_keeps _)
    | with_reducible apply Keeps.after (State.onStk_keeps _ _ _) | with_reducible apply Keeps.after (State.count_keeps _ _ _)
    | with_reducible apply Keeps.after (State.raise_keeps _ _ _) | with_reducible apply Keeps.ite | (with_reducible apply Keeps.whenB; intro s)
    | with_reducible refine Keeps.after (State.takeFree_eq (by with_reducible assumption)) ?_ | exact Keeps.pickFree (by with_reducible assumption)

theorem State.fitStack_keeps (k : Nat) (s : State) : Keeps s (State.fitStack k s) := by
  unfold State.fitStack
  repeat' first
    | with_reducible exact .refl _ | with_reducible assumption | with_reducible intro s
    | (extract_lets +onlyGivenNames x; refine (have hx : Keeps s x := ?_; ?_); rotate_left; clear_value x; rotate_right)
    | (extract_lets +onlyGivenNames x; clear_value x) | subst x | with_reducible apply Keeps.after (State.fitOne_keeps _ _ _ _)
    | with_reducible apply Keeps.after (State.onStk_keeps _ _ _) | with_reducible apply Keeps.ite | (with_reducible apply Keeps.each; intro _ s)
    | split

theorem State.fitHub_keeps (h : Nat) (s : State) : Keeps s (State.fitHub h s) := by
  unfold State.fitHub
  repeat' first
    | with_reducible exact .refl _ | with_reducible assumption | with_reducible intro s | with_reducible apply Keeps.after (State.fitStack_keeps _ _)
    | with_reducible apply Keeps.ite | (with_reducible apply Keeps.each; intro _ s) | (with_reducible apply Keeps.whenB; intro s) | split

theorem execDriftFit_keeps (hub : Fin 4) (s : State) : OutKeeps s (execDriftFit hub s) := by
  unfold execDriftFit
  repeat' first
    | with_reducible exact .refl _ | with_reducible assumption | with_reducible intro s | with_reducible apply OutKeeps.refused
    | with_reducible apply OutKeeps.ite | with_reducible apply OutKeeps.next | with_reducible apply Keeps.after (State.fitHub_keeps _ _)
    | with_reducible apply Keeps.ite | split

theorem State.escStart_keeps (h : Nat) (s : State) : Keeps s (State.escStart h s) := by
  unfold State.escStart
  repeat' first
    | with_reducible exact .refl _ | with_reducible assumption | with_reducible intro s
    | (extract_lets +onlyGivenNames x; refine (have hx : Keeps s x := ?_; ?_); rotate_left; clear_value x; rotate_right)
    | (extract_lets +onlyGivenNames x; clear_value x) | subst x | with_reducible apply Keeps.ite | split
    | with_reducible apply Keeps.after (State.onCore_keeps _ _ _) | with_reducible apply Keeps.after (State.onHub_keeps _ _ _)
    | with_reducible apply Keeps.after (State.count_keeps _ _ _) | with_reducible apply Keeps.ite | (with_reducible apply Keeps.foldl; intro s _)

theorem execEscInvocation_keeps (hub : Fin 4) (s : State) : OutKeeps s (execEscInvocation hub s) := by
  unfold execEscInvocation
  repeat' first
    | with_reducible exact .refl _ | with_reducible assumption | with_reducible intro s | with_reducible apply OutKeeps.refused
    | with_reducible apply OutKeeps.ite | with_reducible apply OutKeeps.next | with_reducible apply Keeps.after (State.escStart_keeps _ _)
    | with_reducible apply Keeps.ite | split

/-! ### TopK -/

theorem State.topkCount_keeps (h : Nat) (t : TopkResult) (s : State) : Keeps s (State.topkCount h t s) := by
  unfold State.topkCount
  repeat' first
    | with_reducible exact .refl _ | with_reducible assumption | with_reducible intro s
    | (extract_lets +onlyGivenNames x; refine (have hx : Keeps s x := ?_; ?_); rotate_left; clear_value x; rotate_right)
    | (extract_lets +onlyGivenNames x; clear_value x) | subst x | with_reducible apply Keeps.after (State.count_keeps _ _ _)
    | with_reducible apply Keeps.after (State.raise_keeps _ _ _) | with_reducible apply Keeps.ite | (with_reducible apply Keeps.whenB; intro s)
    | split

theorem State.topkTouch_keeps (r : TopkRec) (s : State) : Keeps s (State.topkTouch r s) := by
  unfold State.topkTouch
  repeat' first
    | with_reducible exact .refl _ | with_reducible assumption | with_reducible intro s
    | (extract_lets +onlyGivenNames x; refine (have hx : Keeps s x := ?_; ?_); rotate_left; clear_value x; rotate_right)
    | (extract_lets +onlyGivenNames x; clear_value x) | subst x | with_reducible apply Keeps.after (State.touch_keeps _ _ _)
    | with_reducible apply Keeps.ite | (with_reducible apply Keeps.whenB; intro s) | split

theorem State.topkWrite_keeps (out : Nat) (t : TopkResult) (s : State) : Keeps s (State.topkWrite out t s) := by
  unfold State.topkWrite
  repeat' first
    | with_reducible exact .refl _ | with_reducible assumption | with_reducible intro s | with_reducible apply Keeps.after (State.mwrP_keeps _ _ _ _)
    | with_reducible apply Keeps.ite | split

theorem State.topkMerge_keeps (h : Nat) (s : State) : Keeps s (State.topkMerge h s) := by
  unfold State.topkMerge
  repeat' first
    | with_reducible exact .refl _ | with_reducible assumption | with_reducible intro s
    | (extract_lets +onlyGivenNames x; refine (have hx : Keeps s x := ?_; ?_); rotate_left; clear_value x; rotate_right)
    | (extract_lets +onlyGivenNames x; clear_value x) | subst x | with_reducible apply Keeps.ite | split
    | with_reducible apply Keeps.after (State.topkWrite_keeps _ _ _) | with_reducible apply Keeps.after (State.topkTouch_keeps _ _)
    | with_reducible apply Keeps.after (State.topkCount_keeps _ _ _) | with_reducible apply Keeps.after (State.completeToken_keeps _ _ _)
    | with_reducible apply Keeps.after (State.onStep_keeps _ _ _) | with_reducible apply Keeps.after (State.onHub_keeps _ _ _)
    | with_reducible apply Keeps.ite | with_reducible apply Keeps.other

theorem execTopkMerge_keeps (hub : Fin 4) (s : State) : OutKeeps s (execTopkMerge hub s) := by
  unfold execTopkMerge
  repeat' first
    | with_reducible exact .refl _ | with_reducible assumption | with_reducible intro s | with_reducible apply OutKeeps.refused
    | with_reducible apply OutKeeps.ite | with_reducible apply OutKeeps.next | with_reducible apply Keeps.after (State.topkMerge_keeps _ _)
    | with_reducible apply Keeps.ite | split

/-! ### Stop -/

theorem State.startGroups_keeps (p table : Nat) (s : State) : Keeps s (State.startGroups p table s) := by
  unfold State.startGroups
  repeat' first
    | with_reducible exact .refl _ | with_reducible assumption | with_reducible intro s
    | (extract_lets +onlyGivenNames x; refine (have hx : Keeps s x := ?_; ?_); rotate_left; clear_value x; rotate_right)
    | (extract_lets +onlyGivenNames x; clear_value x) | subst x | with_reducible apply Keeps.after (State.onCore_keeps _ _ _)
    | with_reducible apply Keeps.after (State.onHub_keeps _ _ _) | with_reducible apply Keeps.ite | (with_reducible apply Keeps.foldl; intro s _)
    | (with_reducible apply Keeps.each; intro _ s) | split

theorem State.stopWork_keeps (p : Nat) (s : State) : Keeps s (State.stopWork p s) := by
  unfold State.stopWork
  repeat' first
    | with_reducible exact .refl _ | with_reducible assumption | with_reducible intro s
    | (extract_lets +onlyGivenNames x; refine (have hx : Keeps s x := ?_; ?_); rotate_left; clear_value x; rotate_right)
    | (extract_lets +onlyGivenNames x; clear_value x) | subst x | with_reducible apply Keeps.after (State.onCore_keeps _ _ _)
    | with_reducible apply Keeps.after (State.onHub_keeps _ _ _) | with_reducible apply Keeps.after (State.onStk_keeps _ _ _)
    | with_reducible apply Keeps.ite | (with_reducible apply Keeps.each; intro _ s) | split

theorem State.resumeWork_keeps (p : Nat) (s : State) : Keeps s (State.resumeWork p s) := by
  unfold State.resumeWork
  repeat' first
    | with_reducible exact .refl _ | with_reducible assumption | with_reducible intro s
    | (extract_lets +onlyGivenNames x; refine (have hx : Keeps s x := ?_; ?_); rotate_left; clear_value x; rotate_right)
    | (extract_lets +onlyGivenNames x; clear_value x) | subst x | with_reducible apply Keeps.after (State.onCore_keeps _ _ _)
    | with_reducible apply Keeps.after (State.onStep_keeps _ _ _) | with_reducible apply Keeps.after (State.onHub_keeps _ _ _)
    | with_reducible apply Keeps.ite | (with_reducible apply Keeps.each; intro _ s) | split

/-! ### Kve -/

theorem State.kvTouch_keeps (p b : Nat) (s : State) : Keeps s (State.kvTouch p b s) := by
  unfold State.kvTouch
  repeat' first
    | with_reducible exact .refl _ | with_reducible assumption | with_reducible intro s | with_reducible apply Keeps.after (State.touch_keeps _ _ _)
    | with_reducible apply Keeps.ite | split

theorem State.kvRecheck_keeps (p a n : Nat) (s : State) : Keeps s (State.kvRecheck p a n s) := by
  unfold State.kvRecheck
  repeat' first
    | with_reducible exact .refl _ | with_reducible assumption | with_reducible intro s
    | (extract_lets +onlyGivenNames x; refine (have hx : Keeps s x := ?_; ?_); rotate_left; clear_value x; rotate_right)
    | (extract_lets +onlyGivenNames x; clear_value x) | subst x | with_reducible apply Keeps.after (State.mwr_keeps _ _ _)
    | with_reducible apply Keeps.after (State.onPart_keeps _ _ _) | with_reducible apply Keeps.ite | (with_reducible apply Keeps.each; intro _ s)
    | split

theorem State.putSeq_keeps (p slot : Nat) (q : Seq) (s : State) : Keeps s (State.putSeq p slot q s) := by
  unfold State.putSeq
  repeat' first
    | with_reducible exact .refl _ | with_reducible assumption | with_reducible intro s
    | (extract_lets +onlyGivenNames x; refine (have hx : Keeps s x := ?_; ?_); rotate_left; clear_value x; rotate_right)
    | (extract_lets +onlyGivenNames x; clear_value x) | subst x | with_reducible apply Keeps.ite | split
    | with_reducible apply Keeps.after (State.mwr_keeps _ _ _) | with_reducible apply Keeps.after (State.onPart_keeps _ _ _)
    | with_reducible apply Keeps.ite | (with_reducible apply Keeps.each; intro _ s)

theorem State.onSeq_keeps (p slot : Nat) (f : Seq → Seq) (s : State) : Keeps s (State.onSeq p slot f s) := by
  unfold State.onSeq
  repeat' first
    | with_reducible exact .refl _ | with_reducible assumption | with_reducible intro s | with_reducible apply Keeps.ite | split
    | with_reducible apply Keeps.after (State.putSeq_keeps _ _ _ _) | with_reducible apply Keeps.ite | with_reducible apply Keeps.other

theorem State.dropSeq_keeps (p slot : Nat) (s : State) : Keeps s (State.dropSeq p slot s) := by
  unfold State.dropSeq
  repeat' first
    | with_reducible exact .refl _ | with_reducible assumption | with_reducible intro s | with_reducible apply Keeps.after (State.mwr_keeps _ _ _)
    | with_reducible apply Keeps.after (State.onPart_keeps _ _ _) | with_reducible apply Keeps.ite | split

theorem State.putNode_keeps (p i : Nat) (n : Node) (s : State) : Keeps s (State.putNode p i n s) := by
  unfold State.putNode
  repeat' first
    | with_reducible exact .refl _ | with_reducible assumption | with_reducible intro s | with_reducible apply Keeps.after (State.mwr_keeps _ _ _)
    | with_reducible apply Keeps.after (State.onPart_keeps _ _ _) | with_reducible apply Keeps.ite | split

theorem State.onNode_keeps (p i : Nat) (f : Node → Node) (s : State) : Keeps s (State.onNode p i f s) := by
  unfold State.onNode
  repeat' first
    | with_reducible exact .refl _ | with_reducible assumption | with_reducible intro s | with_reducible apply Keeps.ite | split
    | with_reducible apply Keeps.after (State.putNode_keeps _ _ _ _) | with_reducible apply Keeps.ite

theorem State.putBucket_keeps (p b : Nat) (l : List Nat) (s : State) : Keeps s (State.putBucket p b l s) := by
  unfold State.putBucket
  repeat' first
    | with_reducible exact .refl _ | with_reducible assumption | with_reducible intro s
    | (extract_lets +onlyGivenNames x; refine (have hx : Keeps s x := ?_; ?_); rotate_left; clear_value x; rotate_right)
    | (extract_lets +onlyGivenNames x; clear_value x) | subst x | with_reducible apply Keeps.after (State.mwr_keeps _ _ _)
    | with_reducible apply Keeps.after (State.onPart_keeps _ _ _) | with_reducible apply Keeps.ite | split

theorem State.onPages_keeps (p : Nat) (f : FreeList → FreeList) (s : State) : Keeps s (State.onPages p f s) := by
  unfold State.onPages
  repeat' first
    | with_reducible exact .refl _ | with_reducible assumption | with_reducible intro s | with_reducible apply Keeps.after (State.onPart_keeps _ _ _)
    | with_reducible apply Keeps.ite | split

theorem State.removeNode_keeps (p i : Nat) (s : State) : Keeps s (State.removeNode p i s) := by
  unfold State.removeNode
  repeat' first
    | with_reducible exact .refl _ | with_reducible assumption | with_reducible intro s
    | (extract_lets +onlyGivenNames x; refine (have hx : Keeps s x := ?_; ?_); rotate_left; clear_value x; rotate_right)
    | (extract_lets +onlyGivenNames x; clear_value x) | subst x | with_reducible apply Keeps.ite | split
    | with_reducible apply Keeps.after (State.putBucket_keeps _ _ _ _) | with_reducible apply Keeps.after (State.onNode_keeps _ _ _ _)
    | with_reducible apply Keeps.after (State.mwr_keeps _ _ _) | with_reducible apply Keeps.after (State.onPart_keeps _ _ _)
    | with_reducible apply Keeps.ite

theorem State.evictOne_keeps (p : Nat) (s : State) : Keeps s (State.evictOne p s) := by
  unfold State.evictOne
  repeat' first
    | with_reducible exact .refl _ | with_reducible assumption | with_reducible intro s | with_reducible apply Keeps.ite | split
    | with_reducible apply Keeps.after (State.removeNode_keeps _ _ _) | with_reducible apply Keeps.after (State.count_keeps _ _ _)
    | with_reducible apply Keeps.ite

theorem State.evictPages_keeps (p n : Nat) (m : Nat) (s : State) : Keeps s (State.evictPages p n m s) := by
  induction m generalizing s with
  | zero =>
    unfold State.evictPages
    repeat' first
      | with_reducible exact .refl _ | with_reducible assumption | with_reducible intro s
      | with_reducible apply Keeps.after (State.evictOne_keeps _ _) | with_reducible apply Keeps.ite | split
  | succ m ih =>
    unfold State.evictPages
    repeat' first
      | with_reducible apply Keeps.after (ih _) | with_reducible exact .refl _ | with_reducible assumption | with_reducible intro s
      | with_reducible apply Keeps.after (State.evictOne_keeps _ _) | with_reducible apply Keeps.ite | split

theorem State.derefNode_keeps (p i : Nat) (s : State) : Keeps s (State.derefNode p i s) := by
  unfold State.derefNode
  repeat' first
    | with_reducible exact .refl _ | with_reducible assumption | with_reducible intro s
    | (extract_lets +onlyGivenNames x; refine (have hx : Keeps s x := ?_; ?_); rotate_left; clear_value x; rotate_right)
    | (extract_lets +onlyGivenNames x; clear_value x) | subst x | with_reducible apply Keeps.ite | split
    | with_reducible apply Keeps.after (State.removeNode_keeps _ _ _) | with_reducible apply Keeps.after (State.onNode_keeps _ _ _ _)
    | with_reducible apply Keeps.ite

theorem State.lookupFrom_keeps (p slot : Nat) (prompt : List Nat) (m i : Nat) (s : State) : Keeps s (State.lookupFrom p slot prompt m i s) := by
  induction m generalizing i s with
  | zero =>
    unfold State.lookupFrom
    repeat' first
      | with_reducible exact .refl _ | with_reducible assumption | with_reducible intro s
      | (extract_lets +onlyGivenNames x; refine (have hx : Keeps s x := ?_; ?_); rotate_left; clear_value x; rotate_right)
      | (extract_lets +onlyGivenNames x; clear_value x) | subst x | with_reducible apply Keeps.ite | split
      | with_reducible apply Keeps.after (State.onNode_keeps _ _ _ _) | with_reducible apply Keeps.after (State.onSeq_keeps _ _ _ _)
      | with_reducible apply Keeps.after (State.count_keeps _ _ _) | with_reducible apply Keeps.after (State.bump_keeps _ _ _ _)
      | with_reducible apply Keeps.after (State.raise_keeps _ _ _) | with_reducible apply Keeps.ite | (with_reducible apply Keeps.whenB; intro s)
      | with_reducible apply Keeps.other
  | succ m ih =>
    unfold State.lookupFrom
    repeat' first
      | with_reducible apply Keeps.after (ih _ _) | with_reducible exact .refl _ | with_reducible assumption | with_reducible intro s
      | (extract_lets +onlyGivenNames x; refine (have hx : Keeps s x := ?_; ?_); rotate_left; clear_value x; rotate_right)
      | (extract_lets +onlyGivenNames x; clear_value x) | subst x | with_reducible apply Keeps.ite | split
      | with_reducible apply Keeps.after (State.onNode_keeps _ _ _ _) | with_reducible apply Keeps.after (State.onSeq_keeps _ _ _ _)
      | with_reducible apply Keeps.after (State.count_keeps _ _ _) | with_reducible apply Keeps.after (State.bump_keeps _ _ _ _)
      | with_reducible apply Keeps.after (State.raise_keeps _ _ _) | with_reducible apply Keeps.ite | (with_reducible apply Keeps.whenB; intro s)
      | with_reducible apply Keeps.other

theorem State.lookup_keeps (p slot : Nat) (prompt : List Nat) (s : State) : Keeps s (State.lookup p slot prompt s) := by
  unfold State.lookup
  repeat' first
    | with_reducible exact .refl _ | with_reducible assumption | with_reducible intro s | with_reducible apply Keeps.ite | split
    | with_reducible apply Keeps.after (State.lookupFrom_keeps _ _ _ _ _ _) | with_reducible apply Keeps.ite | with_reducible apply Keeps.other

theorem State.park_keeps (p slot : Nat) (s : State) : Keeps s (State.park p slot s) := by
  unfold State.park
  repeat' first
    | with_reducible exact .refl _ | with_reducible assumption | with_reducible intro s
    | (extract_lets +onlyGivenNames x; refine (have hx : Keeps s x := ?_; ?_); rotate_left; clear_value x; rotate_right)
    | (extract_lets +onlyGivenNames x; clear_value x) | subst x | with_reducible apply Keeps.ite | split
    | with_reducible apply Keeps.after (State.derefNode_keeps _ _ _) | with_reducible apply Keeps.after (State.putSeq_keeps _ _ _ _)
    | with_reducible apply Keeps.after (State.count_keeps _ _ _) | with_reducible apply Keeps.after (State.raise_keeps _ _ _)
    | with_reducible apply Keeps.ite | (with_reducible apply Keeps.each; intro _ s) | with_reducible apply Keeps.other

theorem State.allocEntry_keeps (p slot last : Nat) (tree : Bool) (s : State) : Keeps s ((State.allocEntry p slot last tree s).1) := by
  unfold State.allocEntry
  repeat' first
    | with_reducible exact .refl _ | with_reducible assumption | with_reducible intro s
    | (extract_lets +onlyGivenNames x; refine (have hx : Keeps s x := ?_; ?_); rotate_left; clear_value x; rotate_right)
    | (extract_lets +onlyGivenNames x; clear_value x) | subst x | with_reducible apply Keeps.ite | split
    | with_reducible apply Keeps.after (State.park_keeps _ _ _) | with_reducible apply Keeps.after (State.evictPages_keeps _ _ _ _)
    | with_reducible apply Keeps.after (State.onSeq_keeps _ _ _ _) | with_reducible apply Keeps.after (State.onPart_keeps _ _ _)
    | with_reducible apply Keeps.ite | with_reducible apply Keeps.other
theorem State.allocEntry_eq {p slot last : Nat} {tree : Bool} {s : State} {v : Bool} {u : State} (heq : State.allocEntry p slot last tree s = (u, v)) : Keeps s u := by
  have := State.allocEntry_keeps p slot last tree s
  rwa [heq] at this

theorem State.releaseCand_keeps (p slot : Nat) (s : State) : Keeps s (State.releaseCand p slot s) := by
  unfold State.releaseCand
  repeat' first
    | with_reducible exact .refl _ | with_reducible assumption | with_reducible intro s | with_reducible apply Keeps.ite | split
    | with_reducible apply Keeps.after (State.onPages_keeps _ _ _) | with_reducible apply Keeps.after (State.onSeq_keeps _ _ _ _)
    | with_reducible apply Keeps.ite

theorem State.releaseSeq_keeps (p slot : Nat) (s : State) : Keeps s (State.releaseSeq p slot s) := by
  unfold State.releaseSeq
  repeat' first
    | with_reducible exact .refl _ | with_reducible assumption | with_reducible intro s
    | (extract_lets +onlyGivenNames x; refine (have hx : Keeps s x := ?_; ?_); rotate_left; clear_value x; rotate_right)
    | (extract_lets +onlyGivenNames x; clear_value x) | subst x | with_reducible apply Keeps.ite | split
    | with_reducible apply Keeps.after (State.releaseCand_keeps _ _ _) | with_reducible apply Keeps.after (State.derefNode_keeps _ _ _)
    | with_reducible apply Keeps.after (State.onPages_keeps _ _ _) | with_reducible apply Keeps.after (State.dropSeq_keeps _ _ _)
    | with_reducible apply Keeps.after (State.onPart_keeps _ _ _) | with_reducible apply Keeps.ite | (with_reducible apply Keeps.foldl; intro s _)
    | (with_reducible apply Keeps.each; intro _ s) | with_reducible apply Keeps.other

theorem State.trimPages_keeps (p slot : Nat) (s : State) : Keeps s (State.trimPages p slot s) := by
  unfold State.trimPages
  repeat' first
    | with_reducible exact .refl _ | with_reducible assumption | with_reducible intro s
    | (extract_lets +onlyGivenNames x; refine (have hx : Keeps s x := ?_; ?_); rotate_left; clear_value x; rotate_right)
    | (extract_lets +onlyGivenNames x; clear_value x) | subst x | with_reducible apply Keeps.ite | split
    | with_reducible apply Keeps.after (State.putSeq_keeps _ _ _ _) | with_reducible apply Keeps.after (State.onPart_keeps _ _ _)
    | with_reducible apply Keeps.ite | (with_reducible apply Keeps.foldl; intro s _) | with_reducible apply Keeps.other

theorem State.insertSkip_keeps (p slot : Nat) (s : State) : Keeps s (State.insertSkip p slot s) := by
  unfold State.insertSkip
  repeat' first
    | with_reducible exact .refl _ | with_reducible assumption | with_reducible intro s | with_reducible apply Keeps.after (State.onSeq_keeps _ _ _ _)
    | with_reducible apply Keeps.after (State.count_keeps _ _ _) | with_reducible apply Keeps.after (State.raise_keeps _ _ _)
    | with_reducible apply Keeps.ite | split

theorem State.insertOne_keeps (p slot : Nat) (s : State) : Keeps s (State.insertOne p slot s) := by
  unfold State.insertOne
  repeat' first
    | with_reducible exact .refl _ | with_reducible assumption | with_reducible intro s
    | (extract_lets +onlyGivenNames x; refine (have hx : Keeps s x := ?_; ?_); rotate_left; clear_value x; rotate_right)
    | (extract_lets +onlyGivenNames x; clear_value x) | subst x | with_reducible apply Keeps.ite | split
    | with_reducible apply Keeps.after (State.insertSkip_keeps _ _ _) | with_reducible apply Keeps.after (State.evictOne_keeps _ _)
    | with_reducible apply Keeps.after (State.putBucket_keeps _ _ _ _) | with_reducible apply Keeps.after (State.onNode_keeps _ _ _ _)
    | with_reducible apply Keeps.after (State.putNode_keeps _ _ _ _) | with_reducible apply Keeps.after (State.onSeq_keeps _ _ _ _)
    | with_reducible apply Keeps.after (State.onPart_keeps _ _ _) | with_reducible apply Keeps.ite | with_reducible apply Keeps.other

theorem State.insertFull_keeps (p slot : Nat) (m : Nat) (s : State) : Keeps s (State.insertFull p slot m s) := by
  induction m generalizing s with
  | zero =>
    unfold State.insertFull
    repeat' first
      | with_reducible exact .refl _ | with_reducible assumption | with_reducible intro s | with_reducible apply Keeps.ite | split
      | with_reducible apply Keeps.after (State.insertOne_keeps _ _ _) | with_reducible apply Keeps.ite | with_reducible apply Keeps.other
  | succ m ih =>
    unfold State.insertFull
    repeat' first
      | with_reducible apply Keeps.after (ih _) | with_reducible exact .refl _ | with_reducible assumption | with_reducible intro s
      | with_reducible apply Keeps.ite | split | with_reducible apply Keeps.after (State.insertOne_keeps _ _ _) | with_reducible apply Keeps.ite
      | with_reducible apply Keeps.other

theorem State.flushTree_keeps (p : Nat) (s : State) : Keeps s (State.flushTree p s) := by
  unfold State.flushTree
  repeat' first
    | with_reducible exact .refl _ | with_reducible assumption | with_reducible intro s
    | (extract_lets +onlyGivenNames x; refine (have hx : Keeps s x := ?_; ?_); rotate_left; clear_value x; rotate_right)
    | (extract_lets +onlyGivenNames x; clear_value x) | subst x | with_reducible apply Keeps.after (State.removeNode_keeps _ _ _)
    | with_reducible apply Keeps.after (State.onNode_keeps _ _ _ _) | with_reducible apply Keeps.after (State.onPart_keeps _ _ _)
    | with_reducible apply Keeps.after (State.raise_keeps _ _ _) | with_reducible apply Keeps.ite | (with_reducible apply Keeps.each; intro _ s)
    | split

theorem State.kveInit_keeps (p : Nat) (s : State) : Keeps s (State.kveInit p s) := by
  unfold State.kveInit
  repeat' first
    | with_reducible exact .refl _ | with_reducible assumption | with_reducible intro s
    | (extract_lets +onlyGivenNames x; refine (have hx : Keeps s x := ?_; ?_); rotate_left; clear_value x; rotate_right)
    | (extract_lets +onlyGivenNames x; clear_value x) | subst x | with_reducible apply Keeps.after (State.zeroMem_keeps _ _ _)
    | with_reducible apply Keeps.after (State.onPart_keeps _ _ _) | with_reducible apply Keeps.after (State.count_keeps _ _ _)
    | with_reducible apply Keeps.after (State.wr_keeps _ _ _ _) | with_reducible apply Keeps.ite | split

theorem State.kvError_keeps (p entry : Nat) (s : State) : Keeps s (State.kvError p entry s) := by
  unfold State.kvError
  repeat' first
    | with_reducible exact .refl _ | with_reducible assumption | with_reducible intro s
    | (extract_lets +onlyGivenNames x; refine (have hx : Keeps s x := ?_; ?_); rotate_left; clear_value x; rotate_right)
    | (extract_lets +onlyGivenNames x; clear_value x) | subst x | with_reducible apply Keeps.after (State.onStep_keeps _ _ _)
    | with_reducible apply Keeps.after (State.count_keeps _ _ _) | with_reducible apply Keeps.after (State.raise_keeps _ _ _)
    | with_reducible apply Keeps.ite | split

theorem State.consume_keeps (p slot o : Nat) (s : State) : Keeps s (State.consume p slot o s) := by
  unfold State.consume
  repeat' first
    | with_reducible exact .refl _ | with_reducible assumption | with_reducible intro s | with_reducible apply Keeps.after (State.onSeq_keeps _ _ _ _)
    | with_reducible apply Keeps.ite | split

theorem State.appendOne_keeps (p cn src a : Nat) (s : State) : Keeps s (State.appendOne p cn src a s) := by
  unfold State.appendOne
  repeat' first
    | with_reducible exact .refl _ | with_reducible assumption | with_reducible intro s
    | (extract_lets +onlyGivenNames x; refine (have hx : Keeps s x := ?_; ?_); rotate_left; clear_value x; rotate_right)
    | (extract_lets +onlyGivenNames x; clear_value x) | subst x | with_reducible apply Keeps.after (State.kvRecheck_keeps _ _ _ _)
    | with_reducible apply Keeps.after (State.mwrP_keeps _ _ _ _) | with_reducible apply Keeps.ite | split

theorem State.kvAppend_keeps (p cn scr entry layer k count : Nat) (s : State) : Keeps s (State.kvAppend p cn scr entry layer k count s) := by
  unfold State.kvAppend
  repeat' first
    | with_reducible exact .refl _ | with_reducible assumption | with_reducible intro s
    | (extract_lets +onlyGivenNames x; refine (have hx : Keeps s x := ?_; ?_); rotate_left; clear_value x; rotate_right)
    | (extract_lets +onlyGivenNames x; clear_value x) | subst x | with_reducible apply Keeps.ite | split
    | with_reducible apply Keeps.after (State.appendOne_keeps _ _ _ _ _) | with_reducible apply Keeps.after (State.consume_keeps _ _ _ _)
    | with_reducible apply Keeps.after (State.kvError_keeps _ _ _) | with_reducible apply Keeps.after (State.count_keeps _ _ _)
    | with_reducible apply Keeps.after (State.raise_keeps _ _ _) | with_reducible apply Keeps.ite | (with_reducible apply Keeps.each; intro _ s)
    | with_reducible apply Keeps.other

theorem State.pagePoison_keeps (p page : Nat) (s : State) : Keeps s (State.pagePoison p page s) := by
  unfold State.pagePoison
  repeat' first
    | with_reducible exact .refl _ | with_reducible assumption | with_reducible intro s
    | (extract_lets +onlyGivenNames x; refine (have hx : Keeps s x := ?_; ?_); rotate_left; clear_value x; rotate_right)
    | (extract_lets +onlyGivenNames x; clear_value x) | subst x | with_reducible apply Keeps.ite | split
    | with_reducible apply Keeps.after (State.onNode_keeps _ _ _ _) | with_reducible apply Keeps.after (State.count_keeps _ _ _)
    | with_reducible apply Keeps.after (State.raise_keeps _ _ _) | with_reducible apply Keeps.ite

theorem State.zeroMasks_keeps (p cn scr count : Nat) (s : State) : Keeps s (State.zeroMasks p cn scr count s) := by
  unfold State.zeroMasks
  repeat' first
    | with_reducible exact .refl _ | with_reducible assumption | with_reducible intro s
    | with_reducible apply Keeps.after (State.scrWr_keeps _ _ _ _ _) | with_reducible apply Keeps.after (State.count_keeps _ _ _)
    | with_reducible apply Keeps.ite | split

theorem State.fetchBlock_keeps (p cn slot page b dst : Nat) (s : State) : Keeps s (State.fetchBlock p cn slot page b dst s) := by
  unfold State.fetchBlock
  repeat' first
    | with_reducible exact .refl _ | with_reducible assumption | with_reducible intro s
    | (extract_lets +onlyGivenNames x; refine (have hx : Keeps s x := ?_; ?_); rotate_left; clear_value x; rotate_right)
    | (extract_lets +onlyGivenNames x; clear_value x) | subst x | with_reducible apply Keeps.after (State.pagePoison_keeps _ _ _)
    | with_reducible apply Keeps.after (State.consume_keeps _ _ _ _) | with_reducible apply Keeps.after (State.kvTouch_keeps _ _ _)
    | with_reducible apply Keeps.after (State.scrWr_keeps _ _ _ _ _) | with_reducible apply Keeps.ite | (with_reducible apply Keeps.whenB; intro s)
    | split

theorem State.kvFetch_keeps (p cn scr entry layer : Nat) (ord : Option Nat) (k count : Nat) (s : State) : Keeps s (State.kvFetch p cn scr entry layer ord k count s) := by
  unfold State.kvFetch
  repeat' first
    | with_reducible exact .refl _ | with_reducible assumption | with_reducible intro s
    | (extract_lets +onlyGivenNames x; refine (have hx : Keeps s x := ?_; ?_); rotate_left; clear_value x; rotate_right)
    | (extract_lets +onlyGivenNames x; clear_value x) | subst x | with_reducible apply Keeps.ite | split
    | with_reducible apply Keeps.after (State.fetchBlock_keeps _ _ _ _ _ _ _) | with_reducible apply Keeps.after (State.zeroMasks_keeps _ _ _ _ _)
    | with_reducible apply Keeps.after (State.kvError_keeps _ _ _) | with_reducible apply Keeps.after (State.scrWr_keeps _ _ _ _ _)
    | with_reducible apply Keeps.after (State.count_keeps _ _ _) | with_reducible apply Keeps.after (State.raise_keeps _ _ _)
    | with_reducible apply Keeps.ite | (with_reducible apply Keeps.each; intro _ s) | with_reducible apply Keeps.other

theorem State.kvQend_keeps (p cn scr entry layer k bytes : Nat) (s : State) : Keeps s (State.kvQend p cn scr entry layer k bytes s) := by
  unfold State.kvQend
  repeat' first
    | with_reducible exact .refl _ | with_reducible assumption | with_reducible intro s
    | (extract_lets +onlyGivenNames x; refine (have hx : Keeps s x := ?_; ?_); rotate_left; clear_value x; rotate_right)
    | (extract_lets +onlyGivenNames x; clear_value x) | subst x | with_reducible apply Keeps.ite | split
    | with_reducible apply Keeps.after (State.kvError_keeps _ _ _) | with_reducible apply Keeps.after (State.onSeq_keeps _ _ _ _)
    | with_reducible apply Keeps.after (State.scrWr_keeps _ _ _ _ _) | with_reducible apply Keeps.after (State.count_keeps _ _ _)
    | with_reducible apply Keeps.after (State.raise_keeps _ _ _) | with_reducible apply Keeps.ite | with_reducible apply Keeps.other

theorem State.copyEntry_keeps (p src dst : Nat) (s : State) : Keeps s (State.copyEntry p src dst s) := by
  unfold State.copyEntry
  repeat' first
    | with_reducible exact .refl _ | with_reducible assumption | with_reducible intro s
    | (extract_lets +onlyGivenNames x; refine (have hx : Keeps s x := ?_; ?_); rotate_left; clear_value x; rotate_right)
    | (extract_lets +onlyGivenNames x; clear_value x) | subst x | with_reducible apply Keeps.after (State.kvRecheck_keeps _ _ _ _)
    | with_reducible apply Keeps.after (State.kvTouch_keeps _ _ _) | with_reducible apply Keeps.after (State.mwr_keeps _ _ _)
    | with_reducible apply Keeps.after (State.mwrP_keeps _ _ _ _) | with_reducible apply Keeps.after (State.count_keeps _ _ _)
    | with_reducible apply Keeps.after (State.raise_keeps _ _ _) | with_reducible apply Keeps.ite | (with_reducible apply Keeps.each; intro _ s)
    | split

theorem State.copyPath_keeps (p : Nat) (e : StepEntry) (path : List Nat) (s : State) : Keeps s (State.copyPath p e path s) := by
  unfold State.copyPath
  repeat' first
    | with_reducible exact .refl _ | with_reducible assumption | with_reducible intro s
    | (extract_lets +onlyGivenNames x; refine (have hx : Keeps s x := ?_; ?_); rotate_left; clear_value x; rotate_right)
    | (extract_lets +onlyGivenNames x; clear_value x) | subst x | with_reducible apply Keeps.ite | split
    | with_reducible apply Keeps.after (State.copyEntry_keeps _ _ _ _) | with_reducible apply Keeps.after (State.releaseCand_keeps _ _ _)
    | with_reducible apply Keeps.after (State.bump_keeps _ _ _ _) | with_reducible apply Keeps.ite | (with_reducible apply Keeps.each; intro _ s)
    | with_reducible apply Keeps.other

/-! ### Admission -/

theorem State.ringWrite_keeps (p off : Nat) (bs : List Byte) (s : State) : Keeps s (State.ringWrite p off bs s) := by
  unfold State.ringWrite
  repeat' first
    | with_reducible exact .refl _ | with_reducible assumption | with_reducible intro s
    | (extract_lets +onlyGivenNames x; refine (have hx : Keeps s x := ?_; ?_); rotate_left; clear_value x; rotate_right)
    | (extract_lets +onlyGivenNames x; clear_value x) | subst x | with_reducible apply Keeps.after (State.mwr_keeps _ _ _)
    | with_reducible apply Keeps.ite | split

theorem State.pushFrame_keeps (p : Nat) (f : List Byte) (s : State) : Keeps s (State.pushFrame p f s) := by
  unfold State.pushFrame
  repeat' first
    | with_reducible exact .refl _ | with_reducible assumption | with_reducible intro s
    | (extract_lets +onlyGivenNames x; refine (have hx : Keeps s x := ?_; ?_); rotate_left; clear_value x; rotate_right)
    | (extract_lets +onlyGivenNames x; clear_value x) | subst x | with_reducible apply Keeps.after (State.ringWrite_keeps _ _ _ _)
    | with_reducible apply Keeps.after (State.onPart_keeps _ _ _) | with_reducible apply Keeps.ite | split

theorem State.drainWait_keeps (p : Nat) (m : Nat) (s : State) : Keeps s (State.drainWait p m s) := by
  induction m generalizing s with
  | zero =>
    unfold State.drainWait
    repeat' first
      | with_reducible exact .refl _ | with_reducible assumption | with_reducible intro s
      | (extract_lets +onlyGivenNames x; refine (have hx : Keeps s x := ?_; ?_); rotate_left; clear_value x; rotate_right)
      | (extract_lets +onlyGivenNames x; clear_value x) | subst x | with_reducible apply Keeps.ite | split
      | with_reducible apply Keeps.after (State.ringWrite_keeps _ _ _ _) | with_reducible apply Keeps.after (State.onPart_keeps _ _ _)
      | with_reducible apply Keeps.ite
  | succ m ih =>
    unfold State.drainWait
    repeat' first
      | with_reducible apply Keeps.after (ih _) | with_reducible exact .refl _ | with_reducible assumption | with_reducible intro s
      | (extract_lets +onlyGivenNames x; refine (have hx : Keeps s x := ?_; ?_); rotate_left; clear_value x; rotate_right)
      | (extract_lets +onlyGivenNames x; clear_value x) | subst x | with_reducible apply Keeps.ite | split
      | with_reducible apply Keeps.after (State.ringWrite_keeps _ _ _ _) | with_reducible apply Keeps.after (State.onPart_keeps _ _ _)
      | with_reducible apply Keeps.ite

theorem State.respond_keeps (p : Nat) (payload : List Byte) (s : State) : Keeps s (State.respond p payload s) := by
  unfold State.respond
  repeat' first
    | with_reducible exact .refl _ | with_reducible assumption | with_reducible intro s
    | with_reducible apply Keeps.after (State.pushFrame_keeps _ _ _) | with_reducible apply Keeps.ite | split

theorem State.putHamper_keeps (p slot : Nat) (h : Hamper) (s : State) : Keeps s (State.putHamper p slot h s) := by
  unfold State.putHamper
  repeat' first
    | with_reducible exact .refl _ | with_reducible assumption | with_reducible intro s | with_reducible apply Keeps.after (State.mwr_keeps _ _ _)
    | with_reducible apply Keeps.after (State.onPart_keeps _ _ _) | with_reducible apply Keeps.ite | split

theorem State.onHamper_keeps (p slot : Nat) (f : Hamper → Hamper) (s : State) : Keeps s (State.onHamper p slot f s) := by
  unfold State.onHamper
  repeat' first
    | with_reducible exact .refl _ | with_reducible assumption | with_reducible intro s | with_reducible apply Keeps.ite | split
    | with_reducible apply Keeps.after (State.putHamper_keeps _ _ _ _) | with_reducible apply Keeps.ite | with_reducible apply Keeps.other

theorem State.putCounts_keeps (p slot : Nat) (h : Hamper) (s : State) : Keeps s (State.putCounts p slot h s) := by
  unfold State.putCounts
  repeat' first
    | with_reducible exact .refl _ | with_reducible assumption | with_reducible intro s | with_reducible apply Keeps.after (State.mwr_keeps _ _ _)
    | with_reducible apply Keeps.ite | split

theorem State.takeExtent_keeps (p slot off : Nat) (toks : List Nat) (s : State) : Keeps s (State.takeExtent p slot off toks s) := by
  unfold State.takeExtent
  repeat' first
    | with_reducible exact .refl _ | with_reducible assumption | with_reducible intro s
    | (extract_lets +onlyGivenNames x; refine (have hx : Keeps s x := ?_; ?_); rotate_left; clear_value x; rotate_right)
    | (extract_lets +onlyGivenNames x; clear_value x) | subst x | with_reducible apply Keeps.after (State.mwr_keeps _ _ _)
    | with_reducible apply Keeps.after (State.onPart_keeps _ _ _) | with_reducible apply Keeps.ite | split

theorem State.releaseExtent_keeps (p slot : Nat) (s : State) : Keeps s (State.releaseExtent p slot s) := by
  unfold State.releaseExtent
  repeat' first
    | with_reducible exact .refl _ | with_reducible assumption | with_reducible intro s
    | (extract_lets +onlyGivenNames x; refine (have hx : Keeps s x := ?_; ?_); rotate_left; clear_value x; rotate_right)
    | (extract_lets +onlyGivenNames x; clear_value x) | subst x | with_reducible apply Keeps.ite | split
    | with_reducible apply Keeps.after (State.onHamper_keeps _ _ _ _) | with_reducible apply Keeps.after (State.onPart_keeps _ _ _)
    | with_reducible apply Keeps.ite

theorem State.freeHamper_keeps (p slot : Nat) (s : State) : Keeps s (State.freeHamper p slot s) := by
  unfold State.freeHamper
  repeat' first
    | with_reducible exact .refl _ | with_reducible assumption | with_reducible intro s
    | (extract_lets +onlyGivenNames x; refine (have hx : Keeps s x := ?_; ?_); rotate_left; clear_value x; rotate_right)
    | (extract_lets +onlyGivenNames x; clear_value x) | subst x | with_reducible apply Keeps.ite | split
    | with_reducible apply Keeps.after (State.releaseExtent_keeps _ _ _) | with_reducible apply Keeps.after (State.releaseSeq_keeps _ _ _)
    | with_reducible apply Keeps.after (State.onPart_keeps _ _ _) | with_reducible apply Keeps.after (State.raise_keeps _ _ _)
    | with_reducible apply Keeps.ite | (with_reducible apply Keeps.whenB; intro s) | with_reducible apply Keeps.other

theorem State.countEnd_keeps (p status : Nat) (s : State) : Keeps s (State.countEnd p status s) := by
  unfold State.countEnd
  repeat' first
    | with_reducible exact .refl _ | with_reducible assumption | with_reducible intro s
    | (extract_lets +onlyGivenNames x; refine (have hx : Keeps s x := ?_; ?_); rotate_left; clear_value x; rotate_right)
    | (extract_lets +onlyGivenNames x; clear_value x) | subst x | with_reducible apply Keeps.after (State.count_keeps _ _ _)
    | with_reducible apply Keeps.after (State.raise_keeps _ _ _) | with_reducible apply Keeps.ite | (with_reducible apply Keeps.whenB; intro s)
    | split

theorem State.finalise_keeps (p slot status time first : Nat) (toks : List Nat) (s : State) : Keeps s (State.finalise p slot status time first toks s) := by
  unfold State.finalise
  repeat' first
    | with_reducible exact .refl _ | with_reducible assumption | with_reducible intro s
    | (extract_lets +onlyGivenNames x; refine (have hx : Keeps s x := ?_; ?_); rotate_left; clear_value x; rotate_right)
    | (extract_lets +onlyGivenNames x; clear_value x) | subst x | with_reducible apply Keeps.ite | split
    | with_reducible apply Keeps.after (State.countEnd_keeps _ _ _) | with_reducible apply Keeps.after (State.putHamper_keeps _ _ _ _)
    | with_reducible apply Keeps.after (State.respond_keeps _ _ _) | with_reducible apply Keeps.ite | with_reducible apply Keeps.other

theorem State.cancelResult_keeps (p reqId status time : Nat) (full : Bool) (s : State) : Keeps s (State.cancelResult p reqId status time full s) := by
  unfold State.cancelResult
  repeat' first
    | with_reducible exact .refl _ | with_reducible assumption | with_reducible intro s | with_reducible apply Keeps.after (State.respond_keeps _ _ _)
    | with_reducible apply Keeps.ite | split

theorem State.endReq_keeps (p slot status time first : Nat) (toks : List Nat) (s : State) : Keeps s (State.endReq p slot status time first toks s) := by
  unfold State.endReq
  repeat' first
    | with_reducible exact .refl _ | with_reducible assumption | with_reducible intro s
    | (extract_lets +onlyGivenNames x; refine (have hx : Keeps s x := ?_; ?_); rotate_left; clear_value x; rotate_right)
    | (extract_lets +onlyGivenNames x; clear_value x) | subst x | with_reducible apply Keeps.ite | split
    | with_reducible apply Keeps.after (State.cancelResult_keeps _ _ _ _ _ _) | with_reducible apply Keeps.after (State.finalise_keeps _ _ _ _ _ _ _)
    | with_reducible apply Keeps.after (State.releaseExtent_keeps _ _ _) | with_reducible apply Keeps.after (State.onHamper_keeps _ _ _ _)
    | with_reducible apply Keeps.ite | (with_reducible apply Keeps.each; intro _ s) | with_reducible apply Keeps.other

theorem State.endNow_keeps (p slot status time : Nat) (s : State) : Keeps s (State.endNow p slot status time s) := by
  unfold State.endNow
  repeat' first
    | with_reducible exact .refl _ | with_reducible assumption | with_reducible intro s
    | (extract_lets +onlyGivenNames x; refine (have hx : Keeps s x := ?_; ?_); rotate_left; clear_value x; rotate_right)
    | (extract_lets +onlyGivenNames x; clear_value x) | subst x | with_reducible apply Keeps.ite | split
    | with_reducible apply Keeps.after (State.endReq_keeps _ _ _ _ _ _ _) | with_reducible apply Keeps.after (State.freeHamper_keeps _ _ _)
    | with_reducible apply Keeps.ite | with_reducible apply Keeps.other

theorem State.admitReq_keeps (r : ReqFrame) (s : State) : Keeps s (State.admitReq r s) := by
  unfold State.admitReq
  repeat' first
    | with_reducible exact .refl _ | with_reducible assumption | with_reducible intro s
    | (extract_lets +onlyGivenNames x; refine (have hx : Keeps s x := ?_; ?_); rotate_left; clear_value x; rotate_right)
    | (extract_lets +onlyGivenNames x; clear_value x) | subst x | with_reducible apply Keeps.after (State.endNow_keeps _ _ _ _ _)
    | with_reducible apply Keeps.after (State.takeExtent_keeps _ _ _ _ _) | with_reducible apply Keeps.after (State.putCounts_keeps _ _ _ _)
    | with_reducible apply Keeps.after (State.putHamper_keeps _ _ _ _) | with_reducible apply Keeps.after (State.onPart_keeps _ _ _)
    | with_reducible apply Keeps.after (State.count_keeps _ _ _) | with_reducible apply Keeps.ite | (with_reducible apply Keeps.foldl; intro s _)
    | split

theorem State.request_keeps (fmt : Nat) (b : List Byte) (s : State) : Keeps s (State.request fmt b s) := by
  unfold State.request
  repeat' first
    | with_reducible exact .refl _ | with_reducible assumption | with_reducible intro s
    | (extract_lets +onlyGivenNames x; refine (have hx : Keeps s x := ?_; ?_); rotate_left; clear_value x; rotate_right)
    | (extract_lets +onlyGivenNames x; clear_value x) | subst x | with_reducible apply Keeps.ite | split
    | with_reducible apply Keeps.after (State.admitReq_keeps _ _) | with_reducible apply Keeps.after (State.respond_keeps _ _ _)
    | with_reducible apply Keeps.after (State.flagCount_keeps _ _ _ _) | with_reducible apply Keeps.ite | with_reducible apply Keeps.other

theorem State.onEntry_keeps (p i : Nat) (f : StepEntry → StepEntry) (s : State) : Keeps s (State.onEntry p i f s) := by
  unfold State.onEntry
  repeat' first
    | with_reducible exact .refl _ | with_reducible assumption | with_reducible intro s | with_reducible apply Keeps.after (State.onStep_keeps _ _ _)
    | with_reducible apply Keeps.ite | split

theorem State.cancelEntry_keeps (p i : Nat) (s : State) : Keeps s (State.cancelEntry p i s) := by
  unfold State.cancelEntry
  repeat' first
    | with_reducible exact .refl _ | with_reducible assumption | with_reducible intro s
    | (extract_lets +onlyGivenNames x; refine (have hx : Keeps s x := ?_; ?_); rotate_left; clear_value x; rotate_right)
    | (extract_lets +onlyGivenNames x; clear_value x) | subst x | with_reducible apply Keeps.after (State.onEntry_keeps _ _ _ _)
    | with_reducible apply Keeps.after (State.mwr_keeps _ _ _) | with_reducible apply Keeps.ite | split

theorem State.cancel_keeps (b : List Byte) (now : Nat) (s : State) : Keeps s (State.cancel b now s) := by
  unfold State.cancel
  repeat' first
    | with_reducible exact .refl _ | with_reducible assumption | with_reducible intro s
    | (extract_lets +onlyGivenNames x; refine (have hx : Keeps s x := ?_; ?_); rotate_left; clear_value x; rotate_right)
    | (extract_lets +onlyGivenNames x; clear_value x) | subst x | with_reducible apply Keeps.ite | split
    | with_reducible apply Keeps.after (State.cancelEntry_keeps _ _ _) | with_reducible apply Keeps.after (State.endNow_keeps _ _ _ _ _)
    | with_reducible apply Keeps.after (State.cancelResult_keeps _ _ _ _ _ _) | with_reducible apply Keeps.after (State.onHamper_keeps _ _ _ _)
    | with_reducible apply Keeps.after (State.flagCount_keeps _ _ _ _) | with_reducible apply Keeps.ite | (with_reducible apply Keeps.whenB; intro s)
    | with_reducible apply Keeps.other

theorem State.returnCredits_keeps (ch n : Nat) (s : State) : Keeps s (State.returnCredits ch n s) := by
  unfold State.returnCredits
  repeat' first
    | with_reducible exact .refl _ | with_reducible assumption | with_reducible intro s | with_reducible apply Keeps.ite
    | with_reducible apply Keeps.other | split

theorem State.takeFrame_keeps (f : InFrame) (s : State) : Keeps s (State.takeFrame f s) := by
  unfold State.takeFrame
  repeat' first
    | with_reducible exact .refl _ | with_reducible assumption | with_reducible intro s
    | with_reducible apply Keeps.after (State.returnCredits_keeps _ _ _) | with_reducible apply Keeps.after (State.cancel_keeps _ _ _)
    | with_reducible apply Keeps.after (State.request_keeps _ _ _) | with_reducible apply Keeps.ite | split

theorem State.drainInbox_keeps (p : Nat) (m : Nat) (s : State) : Keeps s (State.drainInbox p m s) := by
  induction m generalizing s with
  | zero =>
    unfold State.drainInbox
    repeat' first
      | with_reducible exact .refl _ | with_reducible assumption | with_reducible intro s
      | (extract_lets +onlyGivenNames x; refine (have hx : Keeps s x := ?_; ?_); rotate_left; clear_value x; rotate_right)
      | (extract_lets +onlyGivenNames x; clear_value x) | subst x | with_reducible apply Keeps.ite | split
      | with_reducible apply Keeps.after (State.takeFrame_keeps _ _) | with_reducible apply Keeps.after (State.onPart_keeps _ _ _)
      | with_reducible apply Keeps.ite | with_reducible apply Keeps.other
  | succ m ih =>
    unfold State.drainInbox
    repeat' first
      | with_reducible apply Keeps.after (ih _) | with_reducible exact .refl _ | with_reducible assumption | with_reducible intro s
      | (extract_lets +onlyGivenNames x; refine (have hx : Keeps s x := ?_; ?_); rotate_left; clear_value x; rotate_right)
      | (extract_lets +onlyGivenNames x; clear_value x) | subst x | with_reducible apply Keeps.ite | split
      | with_reducible apply Keeps.after (State.takeFrame_keeps _ _) | with_reducible apply Keeps.after (State.onPart_keeps _ _ _)
      | with_reducible apply Keeps.ite | with_reducible apply Keeps.other

theorem State.acceptFrame_keeps (req : Bool) (b : List Byte) (s : State) : Keeps s (State.acceptFrame req b s) := by
  unfold State.acceptFrame
  repeat' first
    | with_reducible exact .refl _ | with_reducible assumption | with_reducible intro s
    | (extract_lets +onlyGivenNames x; refine (have hx : Keeps s x := ?_; ?_); rotate_left; clear_value x; rotate_right)
    | (extract_lets +onlyGivenNames x; clear_value x) | subst x | with_reducible apply Keeps.after (State.drainInbox_keeps _ _ _)
    | with_reducible apply Keeps.after (State.takeFrame_keeps _ _) | with_reducible apply Keeps.after (State.onPart_keeps _ _ _)
    | with_reducible apply Keeps.ite | split

theorem State.discardFrame_keeps (s : State) : Keeps s (State.discardFrame s) := by
  unfold State.discardFrame
  repeat' first
    | with_reducible exact .refl _ | with_reducible assumption | with_reducible intro s
    | with_reducible apply Keeps.after (State.flagCount_keeps _ _ _ _) | with_reducible apply Keeps.ite | split

theorem State.unread_keeps (type len : Nat) (s : State) : Keeps s (State.unread type len s) := by
  unfold State.unread
  repeat' first
    | with_reducible exact .refl _ | with_reducible assumption | with_reducible intro s | with_reducible apply Keeps.ite | split
    | with_reducible apply Keeps.after (State.discardFrame_keeps _) | with_reducible apply Keeps.after (State.returnCredits_keeps _ _ _)
    | with_reducible apply Keeps.ite

theorem State.fromHost_keeps (type : Nat) (b : List Byte) (f : State → State) (hf : ∀ u, Keeps u (f  u)) (s : State) : Keeps s (State.fromHost type b f s) := by
  unfold State.fromHost
  repeat' first
    | with_reducible exact .refl _ | with_reducible assumption | with_reducible intro s | with_reducible apply Keeps.after (hf _ )
    | with_reducible apply Keeps.after (State.unread_keeps _ _ _) | with_reducible apply Keeps.after (State.count_keeps _ _ _)
    | with_reducible apply Keeps.ite | split

theorem execRequest_keeps (payload : List Byte) (s : State) : OutKeeps s (execRequest payload s) := by
  unfold execRequest
  repeat' first
    | with_reducible exact .refl _ | with_reducible assumption | with_reducible intro s | with_reducible apply OutKeeps.refused
    | with_reducible apply OutKeeps.ite | with_reducible apply OutKeeps.next | with_reducible apply Keeps.after (State.fromHost_keeps _ _ _ ?_ _)
    | with_reducible apply Keeps.after (State.acceptFrame_keeps _ _ _) | with_reducible apply Keeps.ite | split

theorem execCancel_keeps (payload : List Byte) (s : State) : OutKeeps s (execCancel payload s) := by
  unfold execCancel
  repeat' first
    | with_reducible exact .refl _ | with_reducible assumption | with_reducible intro s | with_reducible apply OutKeeps.refused
    | with_reducible apply OutKeeps.ite | with_reducible apply OutKeeps.next | with_reducible apply Keeps.after (State.fromHost_keeps _ _ _ ?_ _)
    | with_reducible apply Keeps.after (State.acceptFrame_keeps _ _ _) | with_reducible apply Keeps.ite | split

theorem State.wrongState_keeps (p : Nat) (s : State) : Keeps s (State.wrongState p s) := by
  unfold State.wrongState
  repeat' first
    | with_reducible exact .refl _ | with_reducible assumption | with_reducible intro s
    | with_reducible apply Keeps.after (State.flagCount_keeps _ _ _ _) | with_reducible apply Keeps.ite | split

theorem State.preemptNow_keeps (p slot : Nat) (s : State) : Keeps s (State.preemptNow p slot s) := by
  unfold State.preemptNow
  dsimp only
  repeat' first
    | with_reducible exact .refl _ | with_reducible assumption | with_reducible intro s | with_reducible apply Keeps.ite | split
    | with_reducible apply Keeps.after (State.releaseExtent_keeps _ _ _) | with_reducible apply Keeps.after (State.takeExtent_keeps _ _ _ _ _)
    | with_reducible apply Keeps.after (State.onHamper_keeps _ _ _ _) | with_reducible apply Keeps.after (State.releaseSeq_keeps _ _ _)
    | with_reducible apply Keeps.after (State.count_keeps _ _ _) | with_reducible apply Keeps.after (State.raise_keeps _ _ _)
    | with_reducible apply Keeps.ite | with_reducible apply Keeps.other

theorem State.actPreempt_keeps (p : Nat) (s : State) : Keeps s (State.actPreempt p s) := by
  unfold State.actPreempt
  repeat' first
    | with_reducible exact .refl _ | with_reducible assumption | with_reducible intro s
    | (extract_lets +onlyGivenNames x; refine (have hx : Keeps s x := ?_; ?_); rotate_left; clear_value x; rotate_right)
    | (extract_lets +onlyGivenNames x; clear_value x) | subst x | with_reducible apply Keeps.ite | split
    | with_reducible apply Keeps.after (State.preemptNow_keeps _ _ _) | with_reducible apply Keeps.after (State.wrongState_keeps _ _)
    | with_reducible apply Keeps.after (State.onHamper_keeps _ _ _ _) | with_reducible apply Keeps.after (State.raise_keeps _ _ _)
    | with_reducible apply Keeps.ite | with_reducible apply Keeps.other

theorem State.actEnd_keeps (p : Nat) (s : State) : Keeps s (State.actEnd p s) := by
  unfold State.actEnd
  repeat' first
    | with_reducible exact .refl _ | with_reducible assumption | with_reducible intro s
    | (extract_lets +onlyGivenNames x; refine (have hx : Keeps s x := ?_; ?_); rotate_left; clear_value x; rotate_right)
    | (extract_lets +onlyGivenNames x; clear_value x) | subst x | with_reducible apply Keeps.ite | split
    | with_reducible apply Keeps.after (State.wrongState_keeps _ _) | with_reducible apply Keeps.after (State.endNow_keeps _ _ _ _ _)
    | with_reducible apply Keeps.after (State.onHamper_keeps _ _ _ _) | with_reducible apply Keeps.ite | with_reducible apply Keeps.other

theorem State.actFlush_keeps (p : Nat) (s : State) : Keeps s (State.actFlush p s) := by
  unfold State.actFlush
  repeat' first
    | with_reducible exact .refl _ | with_reducible assumption | with_reducible intro s | with_reducible apply Keeps.after (State.flushTree_keeps _ _)
    | with_reducible apply Keeps.after (State.onPart_keeps _ _ _) | with_reducible apply Keeps.ite | (with_reducible apply Keeps.whenB; intro s)
    | split

theorem execSrvPreempt_keeps (part : Fin 12) (s : State) : OutKeeps s (execSrvPreempt part s) := by
  unfold execSrvPreempt
  repeat' first
    | with_reducible exact .refl _ | with_reducible assumption | with_reducible intro s | with_reducible apply OutKeeps.refused
    | with_reducible apply OutKeeps.ite | with_reducible apply OutKeeps.next | with_reducible apply Keeps.after (State.actPreempt_keeps _ _)
    | with_reducible apply Keeps.after (State.ofPart_keeps _ _ ?_ _) | with_reducible apply Keeps.ite | split

theorem execSrvEnd_keeps (part : Fin 12) (s : State) : OutKeeps s (execSrvEnd part s) := by
  unfold execSrvEnd
  repeat' first
    | with_reducible exact .refl _ | with_reducible assumption | with_reducible intro s | with_reducible apply OutKeeps.refused
    | with_reducible apply OutKeeps.ite | with_reducible apply OutKeeps.next | with_reducible apply Keeps.after (State.actEnd_keeps _ _)
    | with_reducible apply Keeps.after (State.ofPart_keeps _ _ ?_ _) | with_reducible apply Keeps.ite | split

theorem execKveFlush_keeps (part : Fin 12) (s : State) : OutKeeps s (execKveFlush part s) := by
  unfold execKveFlush
  repeat' first
    | with_reducible exact .refl _ | with_reducible assumption | with_reducible intro s | with_reducible apply OutKeeps.refused
    | with_reducible apply OutKeeps.ite | with_reducible apply OutKeeps.next | with_reducible apply Keeps.after (State.actFlush_keeps _ _)
    | with_reducible apply Keeps.after (State.ofPart_keeps _ _ ?_ _) | with_reducible apply Keeps.ite | split

theorem execDeadlineCheck_keeps (part : Fin 12) (s : State) : OutKeeps s (execDeadlineCheck part s) := by
  unfold execDeadlineCheck
  repeat' first
    | with_reducible exact .refl _ | with_reducible assumption | with_reducible intro s | with_reducible apply OutKeeps.refused
    | with_reducible apply OutKeeps.ite
    | (extract_lets +onlyGivenNames x; refine (have hx : Keeps s x := ?_; ?_); rotate_left; clear_value x; rotate_right)
    | (extract_lets +onlyGivenNames x; clear_value x) | subst x | with_reducible apply OutKeeps.next
    | with_reducible apply Keeps.after (State.endNow_keeps _ _ _ _ _) | with_reducible apply Keeps.ite | (with_reducible apply Keeps.each; intro _ s)
    | split

/-! ### Serving -/

theorem State.writeStepTable_keeps (p : Nat) (s : State) : Keeps s (State.writeStepTable p s) := by
  unfold State.writeStepTable
  repeat' first
    | with_reducible exact .refl _ | with_reducible assumption | with_reducible intro s
    | (extract_lets +onlyGivenNames x; refine (have hx : Keeps s x := ?_; ?_); rotate_left; clear_value x; rotate_right)
    | (extract_lets +onlyGivenNames x; clear_value x) | subst x | with_reducible apply Keeps.ite | split
    | with_reducible apply Keeps.after (State.mwr_keeps _ _ _) | with_reducible apply Keeps.after (State.zeroMem_keeps _ _ _)
    | with_reducible apply Keeps.ite | (with_reducible apply Keeps.foldl; intro s _)

theorem FormAcc.decode_keeps (p slot : Nat) (h : Hamper) (a : FormAcc) : Keeps a.s (FormAcc.decode p slot h a).s := by
  unfold FormAcc.decode
  split
  · exact .refl _
  extract_lets len want t0 bad fits u
  have hu : Keeps a.s u := Keeps.whenB (fun _ => State.onHamper_keeps ..) (.refl _)
  clear_value u
  split
  next heq =>
  have hv := (State.allocEntry_eq heq).after hu
  extract_lets
  split <;> exact hv

theorem FormAcc.prefill_keeps (p slot : Nat) (h : Hamper) (a : FormAcc) : Keeps a.s (FormAcc.prefill p slot h a).s := by
  unfold FormAcc.prefill
  split
  · exact .refl _
  extract_lets +onlyGivenNames held u v
  have hu : Keeps a.s v := (State.lookup_keeps ..).after (Keeps.ite (.refl _) (State.putSeq_keeps ..))
  clear_value v
  extract_lets len n
  split
  next heq =>
  have hv := (State.allocEntry_eq heq).after hu
  extract_lets
  split
  · exact (State.onHamper_keeps ..).after hv
  · exact hv

theorem FormAcc.take_keeps (p slot : Nat) (d : Bool) (a : FormAcc) : Keeps a.s (FormAcc.take p slot d a).s := by
  unfold FormAcc.take
  split
  · exact .refl _
  split
  · exact .refl _
  split
  · exact FormAcc.decode_keeps ..
  · exact FormAcc.prefill_keeps ..

theorem FormAcc.fold_keeps (p : Nat) (l : List (Nat × Bool)) (a : FormAcc) : Keeps a.s (l.foldl (fun a c => a.take p c.1 c.2) a).s := by
  induction l generalizing a with
  | nil => exact .refl _
  | cons x l ih => exact (ih _).after (FormAcc.take_keeps ..)

theorem State.formStep_keeps (p : Nat) (s : State) : Keeps s (State.formStep p s) := by
  unfold State.formStep
  extract_lets +onlyGivenNames a0 a u
  have h : Keeps s u := FormAcc.fold_keeps p _ a0
  clear_value u
  extract_lets +onlyGivenNames v
  have h2 : Keeps s v := Keeps.whenB (fun _ => State.raise_keeps ..) h
  clear_value v
  apply Keeps.ite
  · exact h2
  split
  extract_lets
  exact (State.startGroups_keeps ..).after ((State.mwr_keeps ..).after ((State.writeStepTable_keeps ..).after ((State.onPart_keeps ..).after
    ((State.touch_keeps ..).after h2))))

theorem State.draw_keeps (p : Nat) (e : StepEntry) (h : Hamper) (counts : List (Nat × Nat)) (row n : Nat) (s : State) : Keeps s ((State.draw p e h counts row n s).2) := by
  unfold State.draw
  repeat' first
    | with_reducible exact .refl _ | with_reducible assumption | with_reducible intro s
    | (extract_lets +onlyGivenNames x; refine (have hx : Keeps s x := ?_; ?_); rotate_left; clear_value x; rotate_right)
    | (extract_lets +onlyGivenNames x; clear_value x) | subst x | with_reducible apply Keeps.ite | split
    | with_reducible apply Keeps.after (State.consume_keeps _ _ _ _) | with_reducible apply Keeps.after (State.topkCount_keeps _ _ _)
    | with_reducible apply Keeps.after (State.touch_keeps _ _ _) | with_reducible apply Keeps.after (State.takeFree_keeps _)
    | with_reducible apply Keeps.after (State.onStep_keeps _ _ _) | with_reducible apply Keeps.ite
    | with_reducible refine Keeps.after (State.takeFree_eq (by with_reducible assumption)) ?_ | exact Keeps.pickFree (by with_reducible assumption)
    | with_reducible apply Keeps.other
theorem State.draw_eq {p : Nat} {e : StepEntry} {h : Hamper} {counts : List (Nat × Nat)} {row n : Nat} {s : State} {v : DrawRes} {u : State} (heq : State.draw p e h counts row n s = (v, u)) : Keeps s u := by
  have := State.draw_keeps p e h counts row n s
  rwa [heq] at this

theorem State.drawWalk_keeps (p i : Nat) (h : Hamper) (m : Nat) (l : List (Nat × Nat)) (a : Nat) (o : Option Nat) (s : State) : Keeps s (State.drawWalk p i h m l a o s) := by
  induction m generalizing l a o s with
  | zero =>
    unfold State.drawWalk
    repeat' first
      | with_reducible exact .refl _ | with_reducible assumption | with_reducible intro s
      | (extract_lets +onlyGivenNames x; refine (have hx : Keeps s x := ?_; ?_); rotate_left; clear_value x; rotate_right)
      | (extract_lets +onlyGivenNames x; clear_value x) | subst x | with_reducible apply Keeps.ite | split
      | with_reducible apply Keeps.after (State.draw_keeps _ _ _ _ _ _ _) | with_reducible apply Keeps.after (State.onEntry_keeps _ _ _ _)
      | with_reducible apply Keeps.ite | with_reducible refine Keeps.after (State.draw_eq (by with_reducible assumption)) ?_
      | with_reducible apply Keeps.other
  | succ m ih =>
    unfold State.drawWalk
    repeat' first
      | with_reducible apply Keeps.after (ih _ _ _ _) | with_reducible exact .refl _ | with_reducible assumption | with_reducible intro s
      | (extract_lets +onlyGivenNames x; refine (have hx : Keeps s x := ?_; ?_); rotate_left; clear_value x; rotate_right)
      | (extract_lets +onlyGivenNames x; clear_value x) | subst x | with_reducible apply Keeps.ite | split
      | with_reducible apply Keeps.after (State.draw_keeps _ _ _ _ _ _ _) | with_reducible apply Keeps.after (State.onEntry_keeps _ _ _ _)
      | with_reducible apply Keeps.ite | with_reducible refine Keeps.after (State.draw_eq (by with_reducible assumption)) ?_
      | with_reducible apply Keeps.other

theorem State.signal_keeps (p h e : Nat) (s : State) : Keeps s (State.signal p h e s) := by
  unfold State.signal
  repeat' first
    | with_reducible exact .refl _ | with_reducible assumption | with_reducible intro s
    | (extract_lets +onlyGivenNames x; refine (have hx : Keeps s x := ?_; ?_); rotate_left; clear_value x; rotate_right)
    | (extract_lets +onlyGivenNames x; clear_value x) | subst x | with_reducible apply Keeps.ite | split
    | with_reducible apply Keeps.after (State.onCore_keeps _ _ _) | with_reducible apply Keeps.after (State.onHub_keeps _ _ _)
    | with_reducible apply Keeps.ite | (with_reducible apply Keeps.each; intro _ s)

theorem State.readLogits_keeps (p : Nat) (e : StepEntry) (s : State) : Keeps s (State.readLogits p e s) := by
  unfold State.readLogits
  repeat' first
    | with_reducible exact .refl _ | with_reducible assumption | with_reducible intro s
    | (extract_lets +onlyGivenNames x; refine (have hx : Keeps s x := ?_; ?_); rotate_left; clear_value x; rotate_right)
    | (extract_lets +onlyGivenNames x; clear_value x) | subst x | with_reducible apply Keeps.ite | split
    | with_reducible apply Keeps.after (State.consume_keeps _ _ _ _) | with_reducible apply Keeps.after (State.touch_keeps _ _ _)
    | with_reducible apply Keeps.ite | (with_reducible apply Keeps.each; intro _ s)

theorem State.sampling_keeps (p : Nat) (s : State) : Keeps s (State.sampling p s) := by
  unfold State.sampling
  repeat' first
    | with_reducible exact .refl _ | with_reducible assumption | with_reducible intro s
    | (extract_lets +onlyGivenNames x; refine (have hx : Keeps s x := ?_; ?_); rotate_left; clear_value x; rotate_right)
    | (extract_lets +onlyGivenNames x; clear_value x) | subst x | with_reducible apply Keeps.ite | split
    | with_reducible apply Keeps.after (State.readLogits_keeps _ _ _) | with_reducible apply Keeps.after (State.signal_keeps _ _ _ _)
    | with_reducible apply Keeps.after (State.drawWalk_keeps _ _ _ _ _ _ _ _) | with_reducible apply Keeps.after (State.mwr_keeps _ _ _)
    | with_reducible apply Keeps.after (State.onStep_keeps _ _ _) | with_reducible apply Keeps.ite | (with_reducible apply Keeps.each; intro _ s)
    | with_reducible apply Keeps.other

theorem execSampling_keeps (part : Fin 12) (s : State) : OutKeeps s (execSampling part s) := by
  unfold execSampling
  repeat' first
    | with_reducible exact .refl _ | with_reducible assumption | with_reducible intro s | with_reducible apply OutKeeps.refused
    | with_reducible apply OutKeeps.ite | with_reducible apply OutKeeps.next | with_reducible apply Keeps.after (State.sampling_keeps _ _)
    | with_reducible apply Keeps.ite | split

theorem State.laneBytes_keeps (p : Nat) (s : State) : Keeps s (State.laneBytes p s) := by
  unfold State.laneBytes
  repeat' first
    | with_reducible exact .refl _ | with_reducible assumption | with_reducible intro s
    | (extract_lets +onlyGivenNames x; refine (have hx : Keeps s x := ?_; ?_); rotate_left; clear_value x; rotate_right)
    | (extract_lets +onlyGivenNames x; clear_value x) | subst x | with_reducible apply Keeps.ite | split
    | with_reducible apply Keeps.after (State.takeFree_keeps _) | with_reducible apply Keeps.after (State.bump_keeps _ _ _ _)
    | with_reducible apply Keeps.ite | (with_reducible apply Keeps.each; intro _ s) | (with_reducible apply Keeps.whenB; intro s)
    | with_reducible refine Keeps.after (State.takeFree_eq (by with_reducible assumption)) ?_

theorem State.commitCut_keeps (p hc : Nat) (s : State) : Keeps s (State.commitCut p hc s) := by
  unfold State.commitCut
  repeat' first
    | with_reducible exact .refl _ | with_reducible assumption | with_reducible intro s
    | (extract_lets +onlyGivenNames x; refine (have hx : Keeps s x := ?_; ?_); rotate_left; clear_value x; rotate_right)
    | (extract_lets +onlyGivenNames x; clear_value x) | subst x | with_reducible apply Keeps.after (State.laneBytes_keeps _ _)
    | with_reducible apply Keeps.after (State.onPart_keeps _ _ _) | with_reducible apply Keeps.after (State.count_keeps _ _ _)
    | with_reducible apply Keeps.after (State.wr_keeps _ _ _ _) | with_reducible apply Keeps.ite | (with_reducible apply Keeps.each; intro _ s)
    | with_reducible apply Keeps.other | split

theorem execCommitCut_keeps (part : Fin 12) (hc : Nat) (s : State) : OutKeeps s (execCommitCut part hc s) := by
  unfold execCommitCut
  repeat' first
    | with_reducible exact .refl _ | with_reducible assumption | with_reducible intro s | with_reducible apply OutKeeps.refused
    | with_reducible apply OutKeeps.ite | with_reducible apply OutKeeps.next | with_reducible apply Keeps.after (State.commitCut_keeps _ _ _)
    | with_reducible apply Keeps.ite | split

theorem State.putToken_keeps (p slot pos tok : Nat) (s : State) : Keeps s (State.putToken p slot pos tok s) := by
  unfold State.putToken
  repeat' first
    | with_reducible exact .refl _ | with_reducible assumption | with_reducible intro s
    | (extract_lets +onlyGivenNames x; refine (have hx : Keeps s x := ?_; ?_); rotate_left; clear_value x; rotate_right)
    | (extract_lets +onlyGivenNames x; clear_value x) | subst x | with_reducible apply Keeps.ite | split
    | with_reducible apply Keeps.after (State.mwr_keeps _ _ _) | with_reducible apply Keeps.after (State.onPart_keeps _ _ _)
    | with_reducible apply Keeps.ite

theorem State.noTree_keeps (p slot : Nat) (s : State) : Keeps s (State.noTree p slot s) := by
  unfold State.noTree
  repeat' first
    | with_reducible exact .refl _ | with_reducible assumption | with_reducible intro s
    | with_reducible apply Keeps.after (State.onHamper_keeps _ _ _ _) | with_reducible apply Keeps.ite | split

theorem State.endEntry_keeps (p slot status time : Nat) (h : Hamper) (s : State) : Keeps s (State.endEntry p slot status time h s) := by
  unfold State.endEntry
  repeat' first
    | with_reducible exact .refl _ | with_reducible assumption | with_reducible intro s | with_reducible apply Keeps.after (State.noTree_keeps _ _ _)
    | with_reducible apply Keeps.after (State.endReq_keeps _ _ _ _ _ _ _) | with_reducible apply Keeps.ite | split

theorem State.commitEntry_keeps (p i : Nat) (e : StepEntry) (h : Hamper) (s : State) : Keeps s (State.commitEntry p i e h s) := by
  unfold State.commitEntry
  repeat' first
    | with_reducible exact .refl _ | with_reducible assumption | with_reducible intro s
    | (extract_lets +onlyGivenNames x; refine (have hx : Keeps s x := ?_; ?_); rotate_left; clear_value x; rotate_right)
    | (extract_lets +onlyGivenNames x; clear_value x) | subst x | with_reducible apply Keeps.ite | split
    | with_reducible apply Keeps.after (State.putToken_keeps _ _ _ _ _) | with_reducible apply Keeps.after (State.endReq_keeps _ _ _ _ _ _ _)
    | with_reducible apply Keeps.after (State.releaseExtent_keeps _ _ _) | with_reducible apply Keeps.after (State.putCounts_keeps _ _ _ _)
    | with_reducible apply Keeps.after (State.onHamper_keeps _ _ _ _) | with_reducible apply Keeps.after (State.putHamper_keeps _ _ _ _)
    | with_reducible apply Keeps.after (State.respond_keeps _ _ _) | with_reducible apply Keeps.after (State.copyPath_keeps _ _ _ _)
    | with_reducible apply Keeps.after (State.insertFull_keeps _ _ _ _) | with_reducible apply Keeps.after (State.trimPages_keeps _ _ _)
    | with_reducible apply Keeps.after (State.onSeq_keeps _ _ _ _) | with_reducible apply Keeps.after (State.touch_keeps _ _ _)
    | with_reducible apply Keeps.after (State.bump_keeps _ _ _ _) | with_reducible apply Keeps.ite | (with_reducible apply Keeps.each; intro _ s)
    | (with_reducible apply Keeps.whenB; intro s) | with_reducible apply Keeps.other

theorem State.withdraw_keeps (p : Nat) (e : StepEntry) (s : State) : Keeps s (State.withdraw p e s) := by
  unfold State.withdraw
  repeat' first
    | with_reducible exact .refl _ | with_reducible assumption | with_reducible intro s
    | (extract_lets +onlyGivenNames x; refine (have hx : Keeps s x := ?_; ?_); rotate_left; clear_value x; rotate_right)
    | (extract_lets +onlyGivenNames x; clear_value x) | subst x | with_reducible apply Keeps.after (State.releaseCand_keeps _ _ _)
    | with_reducible apply Keeps.after (State.onSeq_keeps _ _ _ _) | with_reducible apply Keeps.after (State.flagCount_keeps _ _ _ _)
    | with_reducible apply Keeps.ite | split

theorem State.resolveEntry_keeps (p i : Nat) (s : State) : Keeps s (State.resolveEntry p i s) := by
  unfold State.resolveEntry
  repeat' first
    | with_reducible exact .refl _ | with_reducible assumption | with_reducible intro s
    | (extract_lets +onlyGivenNames x; refine (have hx : Keeps s x := ?_; ?_); rotate_left; clear_value x; rotate_right)
    | (extract_lets +onlyGivenNames x; clear_value x) | subst x | with_reducible apply Keeps.ite | split
    | with_reducible apply Keeps.after (State.withdraw_keeps _ _ _) | with_reducible apply Keeps.after (State.commitEntry_keeps _ _ _ _ _)
    | with_reducible apply Keeps.after (State.endEntry_keeps _ _ _ _ _ _) | with_reducible apply Keeps.after (State.noTree_keeps _ _ _)
    | with_reducible apply Keeps.after (State.putHamper_keeps _ _ _ _) | with_reducible apply Keeps.after (State.releaseCand_keeps _ _ _)
    | with_reducible apply Keeps.ite | (with_reducible apply Keeps.whenB; intro s) | with_reducible apply Keeps.other

theorem State.resolveCommit_keeps (p : Nat) (s : State) : Keeps s (State.resolveCommit p s) := by
  unfold State.resolveCommit
  repeat' first
    | with_reducible exact .refl _ | with_reducible assumption | with_reducible intro s
    | (extract_lets +onlyGivenNames x; refine (have hx : Keeps s x := ?_; ?_); rotate_left; clear_value x; rotate_right)
    | (extract_lets +onlyGivenNames x; clear_value x) | subst x | with_reducible apply Keeps.ite | split
    | with_reducible apply Keeps.after (State.resolveEntry_keeps _ _ _) | with_reducible apply Keeps.after (State.drainInbox_keeps _ _ _)
    | with_reducible apply Keeps.after (State.endReq_keeps _ _ _ _ _ _ _) | with_reducible apply Keeps.after (State.freeHamper_keeps _ _ _)
    | with_reducible apply Keeps.after (State.fitStack_keeps _ _) | with_reducible apply Keeps.after (State.onPart_keeps _ _ _)
    | with_reducible apply Keeps.after (State.onStk_keeps _ _ _) | with_reducible apply Keeps.after (State.count_keeps _ _ _)
    | with_reducible apply Keeps.ite | (with_reducible apply Keeps.each; intro _ s) | with_reducible apply Keeps.other

theorem execCommitResolution_keeps (part : Fin 12) (s : State) : OutKeeps s (execCommitResolution part s) := by
  unfold execCommitResolution
  repeat' first
    | with_reducible exact .refl _ | with_reducible assumption | with_reducible intro s | with_reducible apply OutKeeps.refused
    | with_reducible apply OutKeeps.ite
    | (extract_lets +onlyGivenNames x; refine (have hx : Keeps s x := ?_; ?_); rotate_left; clear_value x; rotate_right)
    | (extract_lets +onlyGivenNames x; clear_value x) | subst x | with_reducible apply OutKeeps.next
    | with_reducible apply Keeps.after (State.resolveCommit_keeps _ _) | with_reducible apply Keeps.ite | split

/-! ### CoreOps -/

theorem issue_keeps (i : Instr) (mn : String) (ok : Bool) (g : GroupRef) (f : Nat → State → State) (hf : ∀ x0 u, Keeps u (f x0 u)) (s : State) : OutKeeps s (issue i mn ok g f s) := by
  unfold issue
  repeat' first
    | with_reducible exact .refl _ | with_reducible assumption | with_reducible intro s | with_reducible apply Keeps.after (hf _ _ )
    | with_reducible apply OutKeeps.refused | with_reducible apply OutKeeps.ite | with_reducible apply OutKeeps.next | with_reducible apply Keeps.ite
    | split | with_reducible apply Keeps.after (State.count_keeps _ _ _) | with_reducible apply Keeps.ite

theorem State.retire_keeps (g : GroupRef) (f : Group → Group) (s : State) : Keeps s (State.retire g f s) := by
  unfold State.retire
  repeat' first
    | with_reducible exact .refl _ | with_reducible assumption | with_reducible intro s | with_reducible apply Keeps.after (State.onGrp_keeps _ _ _)
    | with_reducible apply Keeps.ite | split

theorem State.recordFault_keeps (p cause hub core group pc : Nat) (s : State) : Keeps s (State.recordFault p cause hub core group pc s) := by
  unfold State.recordFault
  repeat' first
    | with_reducible exact .refl _ | with_reducible assumption | with_reducible intro s
    | (extract_lets +onlyGivenNames x; refine (have hx : Keeps s x := ?_; ?_); rotate_left; clear_value x; rotate_right)
    | (extract_lets +onlyGivenNames x; clear_value x) | subst x | with_reducible apply Keeps.after (State.wr_keeps _ _ _ _)
    | with_reducible apply Keeps.ite | split

theorem State.haltStep_keeps (p kind : Nat) (o : Origin) (s : State) : Keeps s (State.haltStep p kind o s) := by
  unfold State.haltStep
  repeat' first
    | with_reducible exact .refl _ | with_reducible assumption | with_reducible intro s
    | (extract_lets +onlyGivenNames x; refine (have hx : Keeps s x := ?_; ?_); rotate_left; clear_value x; rotate_right)
    | (extract_lets +onlyGivenNames x; clear_value x) | subst x | with_reducible apply Keeps.after (State.stopWork_keeps _ _)
    | with_reducible apply Keeps.after (State.report_keeps _ _ _) | with_reducible apply Keeps.after (State.onStep_keeps _ _ _)
    | with_reducible apply Keeps.after (State.raise_keeps _ _ _) | with_reducible apply Keeps.after (State.wr_keeps _ _ _ _)
    | with_reducible apply Keeps.ite | split

theorem State.faultAct_keeps (p : Nat) (o : Origin) (s : State) : Keeps s (State.faultAct p o s) := by
  unfold State.faultAct
  repeat' first
    | with_reducible exact .refl _ | with_reducible assumption | with_reducible intro s
    | (extract_lets +onlyGivenNames x; refine (have hx : Keeps s x := ?_; ?_); rotate_left; clear_value x; rotate_right)
    | (extract_lets +onlyGivenNames x; clear_value x) | subst x | with_reducible apply Keeps.after (State.haltStep_keeps _ _ _ _)
    | with_reducible apply Keeps.after (State.resumeWork_keeps _ _) | with_reducible apply Keeps.after (State.stopWork_keeps _ _)
    | with_reducible apply Keeps.after (State.disturb_keeps _ _) | with_reducible apply Keeps.after (State.onStep_keeps _ _ _)
    | with_reducible apply Keeps.after (State.count_keeps _ _ _) | with_reducible apply Keeps.after (State.raise_keeps _ _ _)
    | with_reducible apply Keeps.ite | split

theorem State.coreFault_keeps (g : GroupRef) (p cause : Nat) (s : State) : Keeps s (State.coreFault g p cause s) := by
  unfold State.coreFault
  repeat' first
    | with_reducible exact .refl _ | with_reducible assumption | with_reducible intro s
    | with_reducible apply Keeps.after (State.faultAct_keeps _ _ _) | with_reducible apply Keeps.after (State.recordFault_keeps _ _ _ _ _ _ _)
    | with_reducible apply Keeps.ite | split

theorem State.freeScalar_keeps (g : GroupRef) (d o : Nat) (s : State) : Keeps s (State.freeScalar g d o s) := by
  unfold State.freeScalar
  repeat' first
    | with_reducible exact .refl _ | with_reducible assumption | with_reducible intro s
    | (extract_lets +onlyGivenNames x; refine (have hx : Keeps s x := ?_; ?_); rotate_left; clear_value x; rotate_right)
    | (extract_lets +onlyGivenNames x; clear_value x) | subst x | with_reducible apply Keeps.ite | split
    | with_reducible apply Keeps.after (State.retire_keeps _ _ _) | with_reducible apply Keeps.after (State.takeFree_keeps _)
    | with_reducible apply Keeps.ite | with_reducible refine Keeps.after (State.takeFree_eq (by with_reducible assumption)) ?_

theorem State.computeD_keeps (g : GroupRef) (f : VFmt) (n : Arity) (lane : Nat → Nat → Nat → Nat) (scal : Nat → Nat → Nat → Nat) (s : State) : Keeps s (State.computeD g f n lane scal s) := by
  unfold State.computeD
  repeat' first
    | with_reducible exact .refl _ | with_reducible assumption | with_reducible intro s
    | (extract_lets +onlyGivenNames x; refine (have hx : Keeps s x := ?_; ?_); rotate_left; clear_value x; rotate_right)
    | (extract_lets +onlyGivenNames x; clear_value x) | subst x | with_reducible apply Keeps.after (State.freeScalar_keeps _ _ _ _)
    | with_reducible apply Keeps.after (State.retire_keeps _ _ _) | with_reducible apply Keeps.ite | split

theorem State.takeToken_keeps (g : GroupRef) (t : Nat) (s : State) : Keeps s (State.takeToken g t s) := by
  unfold State.takeToken
  repeat' first
    | with_reducible exact .refl _ | with_reducible assumption | with_reducible intro s | with_reducible apply Keeps.after (State.retire_keeps _ _ _)
    | with_reducible apply Keeps.ite | split

theorem State.queueXfer_keeps (g : GroupRef) (x : Xfer) (s : State) : Keeps s (State.queueXfer g x s) := by
  unfold State.queueXfer
  repeat' first
    | with_reducible exact .refl _ | with_reducible assumption | with_reducible intro s
    | with_reducible apply Keeps.after (State.takeToken_keeps _ _ _) | with_reducible apply Keeps.after (State.onCore_keeps _ _ _)
    | with_reducible apply Keeps.ite | split

/-! ### CoreInt -/

theorem State.intOp_keeps (g : GroupRef) (f : VFmt) (n : Arity) (op : Int → Int → Int → Int) (s : State) : Keeps s (State.intOp g f n op s) := by
  unfold State.intOp
  repeat' first
    | with_reducible exact .refl _ | with_reducible assumption | with_reducible intro s
    | (extract_lets +onlyGivenNames x; refine (have hx : Keeps s x := ?_; ?_); rotate_left; clear_value x; rotate_right)
    | (extract_lets +onlyGivenNames x; clear_value x) | subst x | with_reducible apply Keeps.after (State.computeD_keeps _ _ _ _ _ _)
    | with_reducible apply Keeps.ite | split

theorem State.bitOp_keeps (g : GroupRef) (f : VFmt) (n : Arity) (op : Nat → Nat → Nat → Nat → Nat) (s : State) : Keeps s (State.bitOp g f n op s) := by
  unfold State.bitOp
  repeat' first
    | with_reducible exact .refl _ | with_reducible assumption | with_reducible intro s
    | (extract_lets +onlyGivenNames x; refine (have hx : Keeps s x := ?_; ?_); rotate_left; clear_value x; rotate_right)
    | (extract_lets +onlyGivenNames x; clear_value x) | subst x | with_reducible apply Keeps.after (State.computeD_keeps _ _ _ _ _ _)
    | with_reducible apply Keeps.ite | split

theorem execCoreIadd_keeps (g : GroupRef) (f : VFmt) (s : State) : OutKeeps s (execCoreIadd g f s) := by
  unfold execCoreIadd
  repeat' first
    | with_reducible exact .refl _ | with_reducible assumption | with_reducible intro s | with_reducible apply OutKeeps.refused
    | with_reducible apply OutKeeps.ite | with_reducible apply OutKeeps.next | with_reducible apply Keeps.after (State.intOp_keeps _ _ _ _ _)
    | with_reducible apply issue_keeps | with_reducible apply Keeps.ite | split

theorem execCoreIsub_keeps (g : GroupRef) (f : VFmt) (s : State) : OutKeeps s (execCoreIsub g f s) := by
  unfold execCoreIsub
  repeat' first
    | with_reducible exact .refl _ | with_reducible assumption | with_reducible intro s | with_reducible apply OutKeeps.refused
    | with_reducible apply OutKeeps.ite | with_reducible apply OutKeeps.next | with_reducible apply Keeps.after (State.intOp_keeps _ _ _ _ _)
    | with_reducible apply issue_keeps | with_reducible apply Keeps.ite | split

theorem execCoreImul_keeps (g : GroupRef) (f : VFmt) (s : State) : OutKeeps s (execCoreImul g f s) := by
  unfold execCoreImul
  repeat' first
    | with_reducible exact .refl _ | with_reducible assumption | with_reducible intro s | with_reducible apply OutKeeps.refused
    | with_reducible apply OutKeeps.ite | with_reducible apply OutKeeps.next | with_reducible apply Keeps.after (State.intOp_keeps _ _ _ _ _)
    | with_reducible apply issue_keeps | with_reducible apply Keeps.ite | split

theorem execCoreImad_keeps (g : GroupRef) (f : VFmt) (s : State) : OutKeeps s (execCoreImad g f s) := by
  unfold execCoreImad
  repeat' first
    | with_reducible exact .refl _ | with_reducible assumption | with_reducible intro s | with_reducible apply OutKeeps.refused
    | with_reducible apply OutKeeps.ite | with_reducible apply OutKeeps.next | with_reducible apply Keeps.after (State.intOp_keeps _ _ _ _ _)
    | with_reducible apply issue_keeps | with_reducible apply Keeps.ite | split

theorem execCoreAnd_keeps (g : GroupRef) (f : VFmt) (s : State) : OutKeeps s (execCoreAnd g f s) := by
  unfold execCoreAnd
  repeat' first
    | with_reducible exact .refl _ | with_reducible assumption | with_reducible intro s | with_reducible apply OutKeeps.refused
    | with_reducible apply OutKeeps.ite | with_reducible apply OutKeeps.next | with_reducible apply Keeps.after (State.bitOp_keeps _ _ _ _ _)
    | with_reducible apply issue_keeps | with_reducible apply Keeps.ite | split

theorem execCoreOr_keeps (g : GroupRef) (f : VFmt) (s : State) : OutKeeps s (execCoreOr g f s) := by
  unfold execCoreOr
  repeat' first
    | with_reducible exact .refl _ | with_reducible assumption | with_reducible intro s | with_reducible apply OutKeeps.refused
    | with_reducible apply OutKeeps.ite | with_reducible apply OutKeeps.next | with_reducible apply Keeps.after (State.bitOp_keeps _ _ _ _ _)
    | with_reducible apply issue_keeps | with_reducible apply Keeps.ite | split

theorem execCoreXor_keeps (g : GroupRef) (f : VFmt) (s : State) : OutKeeps s (execCoreXor g f s) := by
  unfold execCoreXor
  repeat' first
    | with_reducible exact .refl _ | with_reducible assumption | with_reducible intro s | with_reducible apply OutKeeps.refused
    | with_reducible apply OutKeeps.ite | with_reducible apply OutKeeps.next | with_reducible apply Keeps.after (State.bitOp_keeps _ _ _ _ _)
    | with_reducible apply issue_keeps | with_reducible apply Keeps.ite | split

theorem execCoreShl_keeps (g : GroupRef) (f : VFmt) (s : State) : OutKeeps s (execCoreShl g f s) := by
  unfold execCoreShl
  repeat' first
    | with_reducible exact .refl _ | with_reducible assumption | with_reducible intro s | with_reducible apply OutKeeps.refused
    | with_reducible apply OutKeeps.ite | with_reducible apply OutKeeps.next | with_reducible apply Keeps.after (State.bitOp_keeps _ _ _ _ _)
    | with_reducible apply issue_keeps | with_reducible apply Keeps.ite | split

theorem execCoreShr_keeps (g : GroupRef) (f : VFmt) (s : State) : OutKeeps s (execCoreShr g f s) := by
  unfold execCoreShr
  repeat' first
    | with_reducible exact .refl _ | with_reducible assumption | with_reducible intro s | with_reducible apply OutKeeps.refused
    | with_reducible apply OutKeeps.ite | with_reducible apply OutKeeps.next | with_reducible apply Keeps.after (State.bitOp_keeps _ _ _ _ _)
    | with_reducible apply issue_keeps | with_reducible apply Keeps.ite | split

theorem execCoreSar_keeps (g : GroupRef) (f : VFmt) (s : State) : OutKeeps s (execCoreSar g f s) := by
  unfold execCoreSar
  repeat' first
    | with_reducible exact .refl _ | with_reducible assumption | with_reducible intro s | with_reducible apply OutKeeps.refused
    | with_reducible apply OutKeeps.ite | with_reducible apply OutKeeps.next | with_reducible apply Keeps.after (State.bitOp_keeps _ _ _ _ _)
    | with_reducible apply issue_keeps | with_reducible apply Keeps.ite | split

theorem execCoreImin_keeps (g : GroupRef) (f : VFmt) (s : State) : OutKeeps s (execCoreImin g f s) := by
  unfold execCoreImin
  repeat' first
    | with_reducible exact .refl _ | with_reducible assumption | with_reducible intro s | with_reducible apply OutKeeps.refused
    | with_reducible apply OutKeeps.ite | with_reducible apply OutKeeps.next | with_reducible apply Keeps.after (State.intOp_keeps _ _ _ _ _)
    | with_reducible apply issue_keeps | with_reducible apply Keeps.ite | split

theorem execCoreImax_keeps (g : GroupRef) (f : VFmt) (s : State) : OutKeeps s (execCoreImax g f s) := by
  unfold execCoreImax
  repeat' first
    | with_reducible exact .refl _ | with_reducible assumption | with_reducible intro s | with_reducible apply OutKeeps.refused
    | with_reducible apply OutKeeps.ite | with_reducible apply OutKeeps.next | with_reducible apply Keeps.after (State.intOp_keeps _ _ _ _ _)
    | with_reducible apply issue_keeps | with_reducible apply Keeps.ite | split

theorem execCoreIcmp_keeps (g : GroupRef) (f : VFmt) (s : State) : OutKeeps s (execCoreIcmp g f s) := by
  unfold execCoreIcmp
  repeat' first
    | with_reducible exact .refl _ | with_reducible assumption | with_reducible intro s | with_reducible apply OutKeeps.refused
    | with_reducible apply OutKeeps.ite
    | (extract_lets +onlyGivenNames x; refine (have hx : Keeps s x := ?_; ?_); rotate_left; clear_value x; rotate_right)
    | (extract_lets +onlyGivenNames x; clear_value x) | subst x | with_reducible apply OutKeeps.next
    | with_reducible apply Keeps.after (State.retire_keeps _ _ _) | with_reducible apply issue_keeps | with_reducible apply Keeps.ite | split

theorem execCoreSel_keeps (g : GroupRef) (f : VFmt) (s : State) : OutKeeps s (execCoreSel g f s) := by
  unfold execCoreSel
  repeat' first
    | with_reducible exact .refl _ | with_reducible assumption | with_reducible intro s | with_reducible apply OutKeeps.refused
    | with_reducible apply OutKeeps.ite
    | (extract_lets +onlyGivenNames x; refine (have hx : Keeps s x := ?_; ?_); rotate_left; clear_value x; rotate_right)
    | (extract_lets +onlyGivenNames x; clear_value x) | subst x | with_reducible apply OutKeeps.next
    | with_reducible apply Keeps.after (State.freeScalar_keeps _ _ _ _) | with_reducible apply Keeps.after (State.retire_keeps _ _ _)
    | with_reducible apply issue_keeps | with_reducible apply Keeps.ite | split

theorem execCoreMov_keeps (g : GroupRef) (f : VFmt) (s : State) : OutKeeps s (execCoreMov g f s) := by
  unfold execCoreMov
  repeat' first
    | with_reducible exact .refl _ | with_reducible assumption | with_reducible intro s | with_reducible apply OutKeeps.refused
    | with_reducible apply OutKeeps.ite | with_reducible apply OutKeeps.next | with_reducible apply Keeps.after (State.bitOp_keeps _ _ _ _ _)
    | with_reducible apply issue_keeps | with_reducible apply Keeps.ite | split

theorem State.immOp_keeps (g : GroupRef) (f : IFmt) (useA : Bool) (op : Int → Int → Int) (s : State) : Keeps s (State.immOp g f useA op s) := by
  unfold State.immOp
  repeat' first
    | with_reducible exact .refl _ | with_reducible assumption | with_reducible intro s
    | (extract_lets +onlyGivenNames x; refine (have hx : Keeps s x := ?_; ?_); rotate_left; clear_value x; rotate_right)
    | (extract_lets +onlyGivenNames x; clear_value x) | subst x | with_reducible apply Keeps.after (State.freeScalar_keeps _ _ _ _)
    | with_reducible apply Keeps.after (State.retire_keeps _ _ _) | with_reducible apply Keeps.ite | split

theorem execCoreMovi_keeps (g : GroupRef) (f : IFmt) (s : State) : OutKeeps s (execCoreMovi g f s) := by
  unfold execCoreMovi
  repeat' first
    | with_reducible exact .refl _ | with_reducible assumption | with_reducible intro s | with_reducible apply OutKeeps.refused
    | with_reducible apply OutKeeps.ite | with_reducible apply OutKeeps.next | with_reducible apply Keeps.after (State.immOp_keeps _ _ _ _ _)
    | with_reducible apply issue_keeps | with_reducible apply Keeps.ite | split

theorem execCoreIaddi_keeps (g : GroupRef) (f : IFmt) (s : State) : OutKeeps s (execCoreIaddi g f s) := by
  unfold execCoreIaddi
  repeat' first
    | with_reducible exact .refl _ | with_reducible assumption | with_reducible intro s | with_reducible apply OutKeeps.refused
    | with_reducible apply OutKeeps.ite | with_reducible apply OutKeeps.next | with_reducible apply Keeps.after (State.immOp_keeps _ _ _ _ _)
    | with_reducible apply issue_keeps | with_reducible apply Keeps.ite | split

theorem execCoreLaneid_keeps (g : GroupRef) (f : VFmt) (s : State) : OutKeeps s (execCoreLaneid g f s) := by
  unfold execCoreLaneid
  repeat' first
    | with_reducible exact .refl _ | with_reducible assumption | with_reducible intro s | with_reducible apply OutKeeps.refused
    | with_reducible apply OutKeeps.ite | with_reducible apply OutKeeps.next | with_reducible apply Keeps.after (State.freeScalar_keeps _ _ _ _)
    | with_reducible apply Keeps.after (State.retire_keeps _ _ _) | with_reducible apply issue_keeps | with_reducible apply Keeps.ite | split

theorem execCoreShfl_keeps (g : GroupRef) (f : VFmt) (s : State) : OutKeeps s (execCoreShfl g f s) := by
  unfold execCoreShfl
  repeat' first
    | with_reducible exact .refl _ | with_reducible assumption | with_reducible intro s | with_reducible apply OutKeeps.refused
    | with_reducible apply OutKeeps.ite
    | (extract_lets +onlyGivenNames x; refine (have hx : Keeps s x := ?_; ?_); rotate_left; clear_value x; rotate_right)
    | (extract_lets +onlyGivenNames x; clear_value x) | subst x | with_reducible apply OutKeeps.next
    | with_reducible apply Keeps.after (State.freeScalar_keeps _ _ _ _) | with_reducible apply Keeps.after (State.retire_keeps _ _ _)
    | with_reducible apply issue_keeps | with_reducible apply Keeps.ite | split

/-! ### CoreFp -/

theorem State.fpOp_keeps (g : GroupRef) (f : VFmt) (n : Arity) (op : Nat → Nat → Nat → Nat) (s : State) : Keeps s (State.fpOp g f n op s) := by
  unfold State.fpOp
  repeat' first
    | with_reducible exact .refl _ | with_reducible assumption | with_reducible intro s
    | (extract_lets +onlyGivenNames x; refine (have hx : Keeps s x := ?_; ?_); rotate_left; clear_value x; rotate_right)
    | (extract_lets +onlyGivenNames x; clear_value x) | subst x | with_reducible apply Keeps.after (State.computeD_keeps _ _ _ _ _ _)
    | with_reducible apply Keeps.ite | split

theorem execCoreFadd_keeps (g : GroupRef) (f : VFmt) (s : State) : OutKeeps s (execCoreFadd g f s) := by
  unfold execCoreFadd
  repeat' first
    | with_reducible exact .refl _ | with_reducible assumption | with_reducible intro s | with_reducible apply OutKeeps.refused
    | with_reducible apply OutKeeps.ite | with_reducible apply OutKeeps.next | with_reducible apply Keeps.after (State.fpOp_keeps _ _ _ _ _)
    | with_reducible apply issue_keeps | with_reducible apply Keeps.ite | split

theorem execCoreFmul_keeps (g : GroupRef) (f : VFmt) (s : State) : OutKeeps s (execCoreFmul g f s) := by
  unfold execCoreFmul
  repeat' first
    | with_reducible exact .refl _ | with_reducible assumption | with_reducible intro s | with_reducible apply OutKeeps.refused
    | with_reducible apply OutKeeps.ite | with_reducible apply OutKeeps.next | with_reducible apply Keeps.after (State.fpOp_keeps _ _ _ _ _)
    | with_reducible apply issue_keeps | with_reducible apply Keeps.ite | split

theorem execCoreFfma_keeps (g : GroupRef) (f : VFmt) (s : State) : OutKeeps s (execCoreFfma g f s) := by
  unfold execCoreFfma
  repeat' first
    | with_reducible exact .refl _ | with_reducible assumption | with_reducible intro s | with_reducible apply OutKeeps.refused
    | with_reducible apply OutKeeps.ite | with_reducible apply OutKeeps.next | with_reducible apply Keeps.after (State.fpOp_keeps _ _ _ _ _)
    | with_reducible apply issue_keeps | with_reducible apply Keeps.ite | split

theorem execCoreFmin_keeps (g : GroupRef) (f : VFmt) (s : State) : OutKeeps s (execCoreFmin g f s) := by
  unfold execCoreFmin
  repeat' first
    | with_reducible exact .refl _ | with_reducible assumption | with_reducible intro s | with_reducible apply OutKeeps.refused
    | with_reducible apply OutKeeps.ite | with_reducible apply OutKeeps.next | with_reducible apply Keeps.after (State.fpOp_keeps _ _ _ _ _)
    | with_reducible apply issue_keeps | with_reducible apply Keeps.ite | split

theorem execCoreFmax_keeps (g : GroupRef) (f : VFmt) (s : State) : OutKeeps s (execCoreFmax g f s) := by
  unfold execCoreFmax
  repeat' first
    | with_reducible exact .refl _ | with_reducible assumption | with_reducible intro s | with_reducible apply OutKeeps.refused
    | with_reducible apply OutKeeps.ite | with_reducible apply OutKeeps.next | with_reducible apply Keeps.after (State.fpOp_keeps _ _ _ _ _)
    | with_reducible apply issue_keeps | with_reducible apply Keeps.ite | split

theorem execCoreFcmp_keeps (g : GroupRef) (f : VFmt) (s : State) : OutKeeps s (execCoreFcmp g f s) := by
  unfold execCoreFcmp
  repeat' first
    | with_reducible exact .refl _ | with_reducible assumption | with_reducible intro s | with_reducible apply OutKeeps.refused
    | with_reducible apply OutKeeps.ite
    | (extract_lets +onlyGivenNames x; refine (have hx : Keeps s x := ?_; ?_); rotate_left; clear_value x; rotate_right)
    | (extract_lets +onlyGivenNames x; clear_value x) | subst x | with_reducible apply OutKeeps.next
    | with_reducible apply Keeps.after (State.retire_keeps _ _ _) | with_reducible apply issue_keeps | with_reducible apply Keeps.ite | split

theorem execCoreFex2_keeps (g : GroupRef) (f : VFmt) (s : State) : OutKeeps s (execCoreFex2 g f s) := by
  unfold execCoreFex2
  repeat' first
    | with_reducible exact .refl _ | with_reducible assumption | with_reducible intro s | with_reducible apply OutKeeps.refused
    | with_reducible apply OutKeeps.ite | with_reducible apply OutKeeps.next | with_reducible apply Keeps.after (State.fpOp_keeps _ _ _ _ _)
    | with_reducible apply issue_keeps | with_reducible apply Keeps.ite | split

theorem execCoreFlg2_keeps (g : GroupRef) (f : VFmt) (s : State) : OutKeeps s (execCoreFlg2 g f s) := by
  unfold execCoreFlg2
  repeat' first
    | with_reducible exact .refl _ | with_reducible assumption | with_reducible intro s | with_reducible apply OutKeeps.refused
    | with_reducible apply OutKeeps.ite | with_reducible apply OutKeeps.next | with_reducible apply Keeps.after (State.fpOp_keeps _ _ _ _ _)
    | with_reducible apply issue_keeps | with_reducible apply Keeps.ite | split

theorem execCoreFrcp_keeps (g : GroupRef) (f : VFmt) (s : State) : OutKeeps s (execCoreFrcp g f s) := by
  unfold execCoreFrcp
  repeat' first
    | with_reducible exact .refl _ | with_reducible assumption | with_reducible intro s | with_reducible apply OutKeeps.refused
    | with_reducible apply OutKeeps.ite | with_reducible apply OutKeeps.next | with_reducible apply Keeps.after (State.fpOp_keeps _ _ _ _ _)
    | with_reducible apply issue_keeps | with_reducible apply Keeps.ite | split

theorem execCoreFrsq_keeps (g : GroupRef) (f : VFmt) (s : State) : OutKeeps s (execCoreFrsq g f s) := by
  unfold execCoreFrsq
  repeat' first
    | with_reducible exact .refl _ | with_reducible assumption | with_reducible intro s | with_reducible apply OutKeeps.refused
    | with_reducible apply OutKeeps.ite | with_reducible apply OutKeeps.next | with_reducible apply Keeps.after (State.fpOp_keeps _ _ _ _ _)
    | with_reducible apply issue_keeps | with_reducible apply Keeps.ite | split

theorem execCoreFcvt_keeps (g : GroupRef) (f : VFmt) (s : State) : OutKeeps s (execCoreFcvt g f s) := by
  unfold execCoreFcvt
  repeat' first
    | with_reducible exact .refl _ | with_reducible assumption | with_reducible intro s | with_reducible apply OutKeeps.refused
    | with_reducible apply OutKeeps.ite
    | (extract_lets +onlyGivenNames x; refine (have hx : Keeps s x := ?_; ?_); rotate_left; clear_value x; rotate_right)
    | (extract_lets +onlyGivenNames x; clear_value x) | subst x | with_reducible apply OutKeeps.next | with_reducible apply Keeps.ite | split
    | with_reducible apply Keeps.after (State.freeScalar_keeps _ _ _ _) | with_reducible apply Keeps.after (State.retire_keeps _ _ _)
    | with_reducible apply issue_keeps | with_reducible apply Keeps.after (State.takeFree_keeps _) | with_reducible apply Keeps.ite
    | with_reducible refine Keeps.after (State.takeFree_eq (by with_reducible assumption)) ?_

theorem State.reduce_keeps (g : GroupRef) (f : VFmt) (op : Nat → Nat → Nat) (s : State) : Keeps s (State.reduce g f op s) := by
  unfold State.reduce
  repeat' first
    | with_reducible exact .refl _ | with_reducible assumption | with_reducible intro s
    | (extract_lets +onlyGivenNames x; refine (have hx : Keeps s x := ?_; ?_); rotate_left; clear_value x; rotate_right)
    | (extract_lets +onlyGivenNames x; clear_value x) | subst x | with_reducible apply Keeps.after (State.retire_keeps _ _ _)
    | with_reducible apply Keeps.ite | split

theorem execCoreFred_keeps (g : GroupRef) (f : VFmt) (s : State) : OutKeeps s (execCoreFred g f s) := by
  unfold execCoreFred
  repeat' first
    | with_reducible exact .refl _ | with_reducible assumption | with_reducible intro s | with_reducible apply OutKeeps.refused
    | with_reducible apply OutKeeps.ite | with_reducible apply OutKeeps.next | with_reducible apply Keeps.after (State.reduce_keeps _ _ _ _)
    | with_reducible apply issue_keeps | with_reducible apply Keeps.ite | split

theorem execCoreFrmax_keeps (g : GroupRef) (f : VFmt) (s : State) : OutKeeps s (execCoreFrmax g f s) := by
  unfold execCoreFrmax
  repeat' first
    | with_reducible exact .refl _ | with_reducible assumption | with_reducible intro s | with_reducible apply OutKeeps.refused
    | with_reducible apply OutKeeps.ite | with_reducible apply OutKeeps.next | with_reducible apply Keeps.after (State.reduce_keeps _ _ _ _)
    | with_reducible apply issue_keeps | with_reducible apply Keeps.ite | split

theorem execCoreQblk_keeps (g : GroupRef) (f : VFmt) (s : State) : OutKeeps s (execCoreQblk g f s) := by
  unfold execCoreQblk
  repeat' first
    | with_reducible exact .refl _ | with_reducible assumption | with_reducible intro s | with_reducible apply OutKeeps.refused
    | with_reducible apply OutKeeps.ite
    | (extract_lets +onlyGivenNames x; refine (have hx : Keeps s x := ?_; ?_); rotate_left; clear_value x; rotate_right)
    | (extract_lets +onlyGivenNames x; clear_value x) | subst x | with_reducible apply OutKeeps.next | with_reducible apply Keeps.ite | split
    | with_reducible apply Keeps.after (State.retire_keeps _ _ _) | with_reducible apply issue_keeps
    | with_reducible apply Keeps.after (State.takeFree_keeps _) | with_reducible apply Keeps.after (State.count_keeps _ _ _)
    | with_reducible apply Keeps.ite | (with_reducible apply Keeps.whenB; intro s)
    | with_reducible refine Keeps.after (State.takeFree_eq (by with_reducible assumption)) ?_

theorem execCoreQarr_keeps (g : GroupRef) (f : VFmt) (s : State) : OutKeeps s (execCoreQarr g f s) := by
  unfold execCoreQarr
  repeat' first
    | with_reducible exact .refl _ | with_reducible assumption | with_reducible intro s | with_reducible apply OutKeeps.refused
    | with_reducible apply OutKeeps.ite
    | (extract_lets +onlyGivenNames x; refine (have hx : Keeps s x := ?_; ?_); rotate_left; clear_value x; rotate_right)
    | (extract_lets +onlyGivenNames x; clear_value x) | subst x | with_reducible apply OutKeeps.next | with_reducible apply Keeps.ite | split
    | with_reducible apply Keeps.after (State.retire_keeps _ _ _) | with_reducible apply issue_keeps
    | with_reducible apply Keeps.after (State.takeFree_keeps _) | with_reducible apply Keeps.after (State.count_keeps _ _ _)
    | with_reducible apply Keeps.ite | (with_reducible apply Keeps.whenB; intro s)
    | with_reducible refine Keeps.after (State.takeFree_eq (by with_reducible assumption)) ?_

/-! ### Detect -/

theorem State.replayStep_keeps (p : Nat) (s : State) : Keeps s (State.replayStep p s) := by
  unfold State.replayStep
  repeat' first
    | with_reducible exact .refl _ | with_reducible assumption | with_reducible intro s
    | (extract_lets +onlyGivenNames x; refine (have hx : Keeps s x := ?_; ?_); rotate_left; clear_value x; rotate_right)
    | (extract_lets +onlyGivenNames x; clear_value x) | subst x | with_reducible apply Keeps.after (State.resumeWork_keeps _ _)
    | with_reducible apply Keeps.after (State.stopWork_keeps _ _) | with_reducible apply Keeps.after (State.disturb_keeps _ _)
    | with_reducible apply Keeps.after (State.onStep_keeps _ _ _) | with_reducible apply Keeps.ite | split

theorem State.scratchParity_keeps (p : Nat) (o : Origin) (s : State) : Keeps s (State.scratchParity p o s) := by
  unfold State.scratchParity
  repeat' first
    | with_reducible exact .refl _ | with_reducible assumption | with_reducible intro s
    | (extract_lets +onlyGivenNames x; refine (have hx : Keeps s x := ?_; ?_); rotate_left; clear_value x; rotate_right)
    | (extract_lets +onlyGivenNames x; clear_value x) | subst x | with_reducible apply Keeps.after (State.flagCount_keeps _ _ _ _)
    | with_reducible apply Keeps.after (State.onCore_keeps _ _ _) | with_reducible apply Keeps.ite | split

theorem State.parityOf_keeps (p : Nat) (o : Origin) (s : State) : Keeps s (State.parityOf p o s) := by
  unfold State.parityOf
  repeat' first
    | with_reducible exact .refl _ | with_reducible assumption | with_reducible intro s
    | with_reducible apply Keeps.after (State.scratchParity_keeps _ _ _) | with_reducible apply Keeps.after (State.flagCount_keeps _ _ _ _)
    | with_reducible apply Keeps.ite | (with_reducible apply Keeps.whenB; intro s) | split

theorem State.noteError_keeps (p : Nat) (o : Origin) (s : State) : Keeps s (State.noteError p o s) := by
  unfold State.noteError
  repeat' first
    | with_reducible exact .refl _ | with_reducible assumption | with_reducible intro s
    | (extract_lets +onlyGivenNames x; refine (have hx : Keeps s x := ?_; ?_); rotate_left; clear_value x; rotate_right)
    | (extract_lets +onlyGivenNames x; clear_value x) | subst x | with_reducible apply Keeps.after (State.parityOf_keeps _ _ _)
    | with_reducible apply Keeps.after (State.report_keeps _ _ _) | with_reducible apply Keeps.after (State.flagCount_keeps _ _ _ _)
    | with_reducible apply Keeps.ite | split

theorem State.stepError_keeps (p : Nat) (o : Origin) (s : State) : Keeps s (State.stepError p o s) := by
  unfold State.stepError
  repeat' first
    | with_reducible exact .refl _ | with_reducible assumption | with_reducible intro s
    | (extract_lets +onlyGivenNames x; refine (have hx : Keeps s x := ?_; ?_); rotate_left; clear_value x; rotate_right)
    | (extract_lets +onlyGivenNames x; clear_value x) | subst x | with_reducible apply Keeps.after (State.replayStep_keeps _ _)
    | with_reducible apply Keeps.after (State.haltStep_keeps _ _ _ _) | with_reducible apply Keeps.after (State.onStep_keeps _ _ _)
    | with_reducible apply Keeps.after (State.count_keeps _ _ _) | with_reducible apply Keeps.ite | split

theorem State.armChecked_keeps (k : Nat) (j : Job) (it : EvalItem) (dr : Driven) (rb : Nat) (s : State) : Keeps s (State.armChecked k j it dr rb s) := by
  unfold State.armChecked
  repeat' first
    | with_reducible exact .refl _ | with_reducible assumption | with_reducible intro s | with_reducible apply Keeps.ite | split
    | with_reducible apply Keeps.after (State.stepError_keeps _ _ _) | with_reducible apply Keeps.after (State.armItem_keeps _ _ _ _ _ _)
    | with_reducible apply Keeps.after (State.onStk_keeps _ _ _) | with_reducible apply Keeps.ite

theorem execEvaluationArm_keeps (stack : Fin 12) (s : State) : OutKeeps s (execEvaluationArm stack s) := by
  unfold execEvaluationArm
  repeat' first
    | with_reducible exact .refl _ | with_reducible assumption | with_reducible intro s | with_reducible apply OutKeeps.refused
    | with_reducible apply OutKeeps.ite | with_reducible apply OutKeeps.next | with_reducible apply Keeps.ite | split
    | with_reducible apply Keeps.after (State.armChecked_keeps _ _ _ _ _ _) | with_reducible apply Keeps.ite | with_reducible apply Keeps.other

theorem execRangePass_keeps (stack : Fin 12) (s : State) : OutKeeps s (execRangePass stack s) := by
  unfold execRangePass
  repeat' first
    | with_reducible exact .refl _ | with_reducible assumption | with_reducible intro s | with_reducible apply OutKeeps.refused
    | with_reducible apply OutKeeps.ite | with_reducible apply OutKeeps.next | with_reducible apply Keeps.ite | split
    | with_reducible apply Keeps.after (State.armChecked_keeps _ _ _ _ _ _) | with_reducible apply Keeps.ite | with_reducible apply Keeps.other

/-! ### Wentar -/

theorem State.onRoute_keeps (m : Nat) (f : Route → Route) (s : State) : Keeps s (State.onRoute m f s) := by
  unfold State.onRoute
  repeat' first
    | with_reducible exact .refl _ | with_reducible assumption | with_reducible intro s | with_reducible apply Keeps.ite
    | with_reducible apply Keeps.other | split

theorem State.pumpPort_keeps (n : Nat) (m : Nat) (s : State) : Keeps s (State.pumpPort n m s) := by
  induction m generalizing s with
  | zero =>
    unfold State.pumpPort
    repeat' first
      | with_reducible exact .refl _ | with_reducible assumption | with_reducible intro s
      | (extract_lets +onlyGivenNames x; refine (have hx : Keeps s x := ?_; ?_); rotate_left; clear_value x; rotate_right)
      | (extract_lets +onlyGivenNames x; clear_value x) | subst x | with_reducible apply Keeps.ite | split
      | with_reducible apply Keeps.after (State.onPort_keeps _ _ _) | with_reducible apply Keeps.after (State.bump_keeps _ _ _ _)
      | with_reducible apply Keeps.ite
  | succ m ih =>
    unfold State.pumpPort
    repeat' first
      | with_reducible apply Keeps.after (ih _) | with_reducible exact .refl _ | with_reducible assumption | with_reducible intro s
      | (extract_lets +onlyGivenNames x; refine (have hx : Keeps s x := ?_; ?_); rotate_left; clear_value x; rotate_right)
      | (extract_lets +onlyGivenNames x; clear_value x) | subst x | with_reducible apply Keeps.ite | split
      | with_reducible apply Keeps.after (State.onPort_keeps _ _ _) | with_reducible apply Keeps.after (State.bump_keeps _ _ _ _)
      | with_reducible apply Keeps.ite

theorem State.sendFlit_keeps (n : Nat) (f : List Byte) (s : State) : Keeps s (State.sendFlit n f s) := by
  unfold State.sendFlit
  repeat' first
    | with_reducible exact .refl _ | with_reducible assumption | with_reducible intro s
    | (extract_lets +onlyGivenNames x; refine (have hx : Keeps s x := ?_; ?_); rotate_left; clear_value x; rotate_right)
    | (extract_lets +onlyGivenNames x; clear_value x) | subst x | with_reducible apply Keeps.after (State.pumpPort_keeps _ _ _)
    | with_reducible apply Keeps.after (State.onPort_keeps _ _ _) | with_reducible apply Keeps.ite | split

theorem State.linkOn_keeps (n : Nat) (f : List Byte) (s : State) : Keeps s (State.linkOn n f s) := by
  unfold State.linkOn
  repeat' first
    | with_reducible exact .refl _ | with_reducible assumption | with_reducible intro s
    | (extract_lets +onlyGivenNames x; refine (have hx : Keeps s x := ?_; ?_); rotate_left; clear_value x; rotate_right)
    | (extract_lets +onlyGivenNames x; clear_value x) | subst x | with_reducible apply Keeps.after (State.portOut_keeps _ _ _)
    | with_reducible apply Keeps.after (State.bump_keeps _ _ _ _) | with_reducible apply Keeps.ite | split

theorem State.askResend_keeps (n : Nat) (s : State) : Keeps s (State.askResend n s) := by
  unfold State.askResend
  repeat' first
    | with_reducible exact .refl _ | with_reducible assumption | with_reducible intro s | with_reducible apply Keeps.after (State.linkOn_keeps _ _ _)
    | with_reducible apply Keeps.ite | split

theorem State.sendTo_keeps (m : Nat) (f : List Byte) (s : State) : Keeps s (State.sendTo m f s) := by
  unfold State.sendTo
  repeat' first
    | with_reducible exact .refl _ | with_reducible assumption | with_reducible intro s
    | with_reducible apply Keeps.after (State.sendFlit_keeps _ _ _) | with_reducible apply Keeps.ite | (with_reducible apply Keeps.whenB; intro s)
    | split

theorem State.sendRoll_keeps (p code dest src : Nat) (payload : List Byte) (s : State) : Keeps s (State.sendRoll p code dest src payload s) := by
  unfold State.sendRoll
  repeat' first
    | with_reducible exact .refl _ | with_reducible assumption | with_reducible intro s | with_reducible apply Keeps.after (State.sendTo_keeps _ _ _)
    | with_reducible apply Keeps.ite | split

theorem State.rollDown_keeps (p code : Nat) (payload : List Byte) (s : State) : Keeps s (State.rollDown p code payload s) := by
  unfold State.rollDown
  repeat' first
    | with_reducible exact .refl _ | with_reducible assumption | with_reducible intro s
    | with_reducible apply Keeps.after (State.sendRoll_keeps _ _ _ _ _ _) | with_reducible apply Keeps.ite
    | (with_reducible apply Keeps.each; intro _ s) | split

theorem State.onRoll_keeps (p : Nat) (f : RollSt → RollSt) (s : State) : Keeps s (State.onRoll p f s) := by
  unfold State.onRoll
  repeat' first
    | with_reducible exact .refl _ | with_reducible assumption | with_reducible intro s | with_reducible apply Keeps.after (State.onPart_keeps _ _ _)
    | with_reducible apply Keeps.ite | split

theorem State.rollFail_keeps (p : Nat) (s : State) : Keeps s (State.rollFail p s) := by
  unfold State.rollFail
  repeat' first
    | with_reducible exact .refl _ | with_reducible assumption | with_reducible intro s
    | (extract_lets +onlyGivenNames x; refine (have hx : Keeps s x := ?_; ?_); rotate_left; clear_value x; rotate_right)
    | (extract_lets +onlyGivenNames x; clear_value x) | subst x | with_reducible apply Keeps.after (State.onRoll_keeps _ _ _)
    | with_reducible apply Keeps.after (State.freePieces_keeps _ _) | with_reducible apply Keeps.after (State.flagCount_keeps _ _ _ _)
    | with_reducible apply Keeps.after (State.wr_keeps _ _ _ _) | with_reducible apply Keeps.ite | split

theorem State.leaderAbort_keeps (p : Nat) (s : State) : Keeps s (State.leaderAbort p s) := by
  unfold State.leaderAbort
  repeat' first
    | with_reducible exact .refl _ | with_reducible assumption | with_reducible intro s | with_reducible apply Keeps.after (State.rollFail_keeps _ _)
    | with_reducible apply Keeps.after (State.rollDown_keeps _ _ _ _) | with_reducible apply Keeps.ite | split

theorem State.spanReplay_keeps (p : Nat) (s : State) : Keeps s (State.spanReplay p s) := by
  unfold State.spanReplay
  repeat' first
    | with_reducible exact .refl _ | with_reducible assumption | with_reducible intro s
    | (extract_lets +onlyGivenNames x; refine (have hx : Keeps s x := ?_; ?_); rotate_left; clear_value x; rotate_right)
    | (extract_lets +onlyGivenNames x; clear_value x) | subst x | with_reducible apply Keeps.after (State.leaderAbort_keeps _ _)
    | with_reducible apply Keeps.after (State.onRoll_keeps _ _ _) | with_reducible apply Keeps.after (State.replayStep_keeps _ _)
    | with_reducible apply Keeps.after (State.flagCount_keeps _ _ _ _) | with_reducible apply Keeps.ite | (with_reducible apply Keeps.whenB; intro s)
    | split

theorem State.leaderReplay_keeps (p : Nat) (s : State) : Keeps s (State.leaderReplay p s) := by
  unfold State.leaderReplay
  repeat' first
    | with_reducible exact .refl _ | with_reducible assumption | with_reducible intro s
    | with_reducible apply Keeps.after (State.spanReplay_keeps _ _) | with_reducible apply Keeps.after (State.rollDown_keeps _ _ _ _)
    | with_reducible apply Keeps.ite | split

theorem State.askReplay_keeps (p : Nat) (s : State) : Keeps s (State.askReplay p s) := by
  unfold State.askReplay
  repeat' first
    | with_reducible exact .refl _ | with_reducible assumption | with_reducible intro s
    | with_reducible apply Keeps.after (State.leaderReplay_keeps _ _) | with_reducible apply Keeps.after (State.sendRoll_keeps _ _ _ _ _ _)
    | with_reducible apply Keeps.ite | split

theorem State.lateFlit_keeps (p port : Nat) (s : State) : Keeps s (State.lateFlit p port s) := by
  unfold State.lateFlit
  repeat' first
    | with_reducible exact .refl _ | with_reducible assumption | with_reducible intro s
    | (extract_lets +onlyGivenNames x; refine (have hx : Keeps s x := ?_; ?_); rotate_left; clear_value x; rotate_right)
    | (extract_lets +onlyGivenNames x; clear_value x) | subst x | with_reducible apply Keeps.after (State.askReplay_keeps _ _)
    | with_reducible apply Keeps.after (State.leaderAbort_keeps _ _) | with_reducible apply Keeps.after (State.onRoll_keeps _ _ _)
    | with_reducible apply Keeps.after (State.sendRoll_keeps _ _ _ _ _ _) | with_reducible apply Keeps.after (State.stepError_keeps _ _ _)
    | with_reducible apply Keeps.after (State.noteError_keeps _ _ _) | with_reducible apply Keeps.after (State.flagCount_keeps _ _ _ _)
    | with_reducible apply Keeps.after (State.onStep_keeps _ _ _) | with_reducible apply Keeps.ite | split

theorem State.sendWrite_keeps (p : Nat) (w : SpanWrite) (s : State) : Keeps s (State.sendWrite p w s) := by
  unfold State.sendWrite
  repeat' first
    | with_reducible exact .refl _ | with_reducible assumption | with_reducible intro s
    | (extract_lets +onlyGivenNames x; refine (have hx : Keeps s x := ?_; ?_); rotate_left; clear_value x; rotate_right)
    | (extract_lets +onlyGivenNames x; clear_value x) | subst x | with_reducible apply Keeps.after (State.sendTo_keeps _ _ _)
    | with_reducible apply Keeps.ite | split

theorem State.sendWrites_keeps (p member : Nat) (ws : List SpanWrite) (s : State) : Keeps s (State.sendWrites p member ws s) := by
  unfold State.sendWrites
  repeat' first
    | with_reducible exact .refl _ | with_reducible assumption | with_reducible intro s
    | with_reducible apply Keeps.after (State.sendWrite_keeps _ _ _) | with_reducible apply Keeps.after (State.lateFlit_keeps _ _ _)
    | with_reducible apply Keeps.ite | (with_reducible apply Keeps.each; intro _ s) | split

theorem State.dropOn_keeps (n : Nat) (s : State) : Keeps s (State.dropOn n s) := by
  unfold State.dropOn
  repeat' first
    | with_reducible exact .refl _ | with_reducible assumption | with_reducible intro s
    | with_reducible apply Keeps.after (State.flagCount_keeps _ _ _ _) | with_reducible apply Keeps.ite | split

theorem State.portDown_keeps (n : Nat) (s : State) : Keeps s (State.portDown n s) := by
  unfold State.portDown
  repeat' first
    | with_reducible exact .refl _ | with_reducible assumption | with_reducible intro s
    | (extract_lets +onlyGivenNames x; refine (have hx : Keeps s x := ?_; ?_); rotate_left; clear_value x; rotate_right)
    | (extract_lets +onlyGivenNames x; clear_value x) | subst x | with_reducible apply Keeps.ite | split
    | with_reducible apply Keeps.after (State.lateFlit_keeps _ _ _) | with_reducible apply Keeps.after (State.losePort_keeps _ _)
    | with_reducible apply Keeps.after (State.onPort_keeps _ _ _) | with_reducible apply Keeps.after (State.raise_keeps _ _ _)
    | with_reducible apply Keeps.after (State.wrB_keeps _ _ _ _) | with_reducible apply Keeps.after (State.wr_keeps _ _ _ _)
    | with_reducible apply Keeps.ite | (with_reducible apply Keeps.each; intro _ s) | (with_reducible apply Keeps.whenB; intro s)

theorem State.resendPort_keeps (n : Nat) (s : State) : Keeps s (State.resendPort n s) := by
  unfold State.resendPort
  repeat' first
    | with_reducible exact .refl _ | with_reducible assumption | with_reducible intro s
    | (extract_lets +onlyGivenNames x; refine (have hx : Keeps s x := ?_; ?_); rotate_left; clear_value x; rotate_right)
    | (extract_lets +onlyGivenNames x; clear_value x) | subst x | with_reducible apply Keeps.after (State.portDown_keeps _ _)
    | with_reducible apply Keeps.after (State.onPort_keeps _ _ _) | with_reducible apply Keeps.after (State.bump_keeps _ _ _ _)
    | with_reducible apply Keeps.ite | split

theorem State.takeLack_keeps (n lack : Nat) (s : State) : Keeps s (State.takeLack n lack s) := by
  unfold State.takeLack
  repeat' first
    | with_reducible exact .refl _ | with_reducible assumption | with_reducible intro s
    | (extract_lets +onlyGivenNames x; refine (have hx : Keeps s x := ?_; ?_); rotate_left; clear_value x; rotate_right)
    | (extract_lets +onlyGivenNames x; clear_value x) | subst x | with_reducible apply Keeps.after (State.pumpPort_keeps _ _ _)
    | with_reducible apply Keeps.after (State.onPort_keeps _ _ _) | with_reducible apply Keeps.ite | split

theorem State.linkReceive_keeps (n : Nat) (f : List Byte) (s : State) : Keeps s ((State.linkReceive n f s).2) := by
  unfold State.linkReceive
  repeat' first
    | with_reducible exact .refl _ | with_reducible assumption | with_reducible intro s
    | (extract_lets +onlyGivenNames x; refine (have hx : Keeps s x := ?_; ?_); rotate_left; clear_value x; rotate_right)
    | (extract_lets +onlyGivenNames x; clear_value x) | subst x | with_reducible apply Keeps.after (State.takeLack_keeps _ _ _)
    | with_reducible apply Keeps.after (State.askResend_keeps _ _) | with_reducible apply Keeps.after (State.onPort_keeps _ _ _)
    | with_reducible apply Keeps.after (State.count_keeps _ _ _) | with_reducible apply Keeps.after (State.bump_keeps _ _ _ _)
    | with_reducible apply Keeps.ite | (with_reducible apply Keeps.whenB; intro s) | split
theorem State.linkReceive_eq {n : Nat} {f : List Byte} {s : State} {v : Bool} {u : State} (heq : State.linkReceive n f s = (v, u)) : Keeps s u := by
  have := State.linkReceive_keeps n f s
  rwa [heq] at this

theorem State.handFlit_keeps (n : Nat) (f : List Byte) (act : Nat → State → State) (hact : ∀ x0 u, Keeps u (act x0 u)) (s : State) : Keeps s (State.handFlit n f act s) := by
  unfold State.handFlit
  repeat' first
    | with_reducible exact .refl _ | with_reducible assumption | with_reducible intro s | with_reducible apply Keeps.after (hact _ _ )
    | with_reducible apply Keeps.ite | split | with_reducible apply Keeps.after (State.dropOn_keeps _ _)
    | with_reducible apply Keeps.after (State.sendTo_keeps _ _ _) | with_reducible apply Keeps.ite

/-! ### CoreMem -/

theorem State.scratchAccess_keeps (g : GroupRef) (p : Nat) (f : SFmt) (n : Nat) (act : Group → State → State) (hact : ∀ x0 u, Keeps u (act x0 u)) (s : State) : Keeps s (State.scratchAccess g p f n act s) := by
  unfold State.scratchAccess
  repeat' first
    | with_reducible exact .refl _ | with_reducible assumption | with_reducible intro s | with_reducible apply Keeps.after (hact _ _ )
    | (extract_lets +onlyGivenNames x; refine (have hx : Keeps s x := ?_; ?_); rotate_left; clear_value x; rotate_right)
    | (extract_lets +onlyGivenNames x; clear_value x) | subst x | with_reducible apply Keeps.ite | split
    | with_reducible apply Keeps.after (State.coreFault_keeps _ _ _ _) | with_reducible apply Keeps.ite

theorem execCoreLds_keeps (g : GroupRef) (f : SFmt) (s : State) : OutKeeps s (execCoreLds g f s) := by
  unfold execCoreLds
  repeat' first
    | with_reducible exact .refl _ | with_reducible assumption | with_reducible intro s | with_reducible apply OutKeeps.refused
    | with_reducible apply OutKeeps.ite
    | (extract_lets +onlyGivenNames x; refine (have hx : Keeps s x := ?_; ?_); rotate_left; clear_value x; rotate_right)
    | (extract_lets +onlyGivenNames x; clear_value x) | subst x | with_reducible apply OutKeeps.next
    | with_reducible apply Keeps.after (State.scratchAccess_keeps _ _ _ _ _ ?_ _) | with_reducible apply Keeps.after (State.retire_keeps _ _ _)
    | with_reducible apply issue_keeps | with_reducible apply Keeps.ite | (with_reducible apply Keeps.foldl; intro s _) | split

theorem execCoreSts_keeps (g : GroupRef) (f : SFmt) (s : State) : OutKeeps s (execCoreSts g f s) := by
  unfold execCoreSts
  repeat' first
    | with_reducible exact .refl _ | with_reducible assumption | with_reducible intro s | with_reducible apply OutKeeps.refused
    | with_reducible apply OutKeeps.ite
    | (extract_lets +onlyGivenNames x; refine (have hx : Keeps s x := ?_; ?_); rotate_left; clear_value x; rotate_right)
    | (extract_lets +onlyGivenNames x; clear_value x) | subst x | with_reducible apply OutKeeps.next | with_reducible apply Keeps.ite | split
    | with_reducible apply Keeps.after (State.scratchAccess_keeps _ _ _ _ _ ?_ _) | with_reducible apply Keeps.after (State.retire_keeps _ _ _)
    | with_reducible apply issue_keeps | with_reducible apply Keeps.after (State.scrWr_keeps _ _ _ _ _)
    | with_reducible apply Keeps.after (State.takeFree_keeps _) | with_reducible apply Keeps.after (State.onCore_keeps _ _ _)
    | with_reducible apply Keeps.ite | (with_reducible apply Keeps.foldl; intro s _) | (with_reducible apply Keeps.each; intro _ s)
    | with_reducible refine Keeps.after (State.takeFree_eq (by with_reducible assumption)) ?_

theorem execCoreAadd_keeps (g : GroupRef) (f : SFmt) (s : State) : OutKeeps s (execCoreAadd g f s) := by
  unfold execCoreAadd
  repeat' first
    | with_reducible exact .refl _ | with_reducible assumption | with_reducible intro s | with_reducible apply OutKeeps.refused
    | with_reducible apply OutKeeps.ite
    | (extract_lets +onlyGivenNames x; refine (have hx : Keeps s x := ?_; ?_); rotate_left; clear_value x; rotate_right)
    | (extract_lets +onlyGivenNames x; clear_value x) | subst x | with_reducible apply OutKeeps.next | with_reducible apply Keeps.ite | split
    | with_reducible apply Keeps.after (State.scratchAccess_keeps _ _ _ _ _ ?_ _) | with_reducible apply Keeps.after (State.retire_keeps _ _ _)
    | with_reducible apply issue_keeps | with_reducible apply Keeps.after (State.scrWr_keeps _ _ _ _ _)
    | with_reducible apply Keeps.after (State.takeFree_keeps _) | with_reducible apply Keeps.ite | (with_reducible apply Keeps.each; intro _ s)
    | with_reducible refine Keeps.after (State.takeFree_eq (by with_reducible assumption)) ?_

theorem issueTok_keeps (i : Instr) (mn : String) (ok : Bool) (g : GroupRef) (t : Nat) (f : Nat → State → State) (hf : ∀ x0 u, Keeps u (f x0 u)) (s : State) : OutKeeps s (issueTok i mn ok g t f s) := by
  unfold issueTok
  repeat' first
    | with_reducible exact .refl _ | with_reducible assumption | with_reducible intro s | with_reducible apply Keeps.after (hf _ _ )
    | with_reducible apply OutKeeps.refused | with_reducible apply OutKeeps.ite | with_reducible apply OutKeeps.next
    | with_reducible apply issue_keeps | with_reducible apply Keeps.ite | split

theorem State.memXfer_keeps (g : GroupRef) (p : Nat) (f : MFmt) (k : XferKind) (s : State) : Keeps s (State.memXfer g p f k s) := by
  unfold State.memXfer
  repeat' first
    | with_reducible exact .refl _ | with_reducible assumption | with_reducible intro s
    | (extract_lets +onlyGivenNames x; refine (have hx : Keeps s x := ?_; ?_); rotate_left; clear_value x; rotate_right)
    | (extract_lets +onlyGivenNames x; clear_value x) | subst x | with_reducible apply Keeps.ite | split
    | with_reducible apply Keeps.after (State.queueXfer_keeps _ _ _) | with_reducible apply Keeps.after (State.coreFault_keeps _ _ _ _)
    | with_reducible apply Keeps.ite | (with_reducible apply Keeps.memory; rotate_left; exact Memory.write_wf _ _)
    | (with_reducible apply Keeps.memory; rotate_left; exact Memory.clear_wf _ _)
    | (with_reducible apply Keeps.memory; rotate_left; exact Memory.filter_wf _)

theorem execCoreXld_keeps (g : GroupRef) (f : MFmt) (s : State) : OutKeeps s (execCoreXld g f s) := by
  unfold execCoreXld
  repeat' first
    | with_reducible exact .refl _ | with_reducible assumption | with_reducible intro s | with_reducible apply OutKeeps.refused
    | with_reducible apply OutKeeps.ite | with_reducible apply OutKeeps.next | with_reducible apply Keeps.after (State.memXfer_keeps _ _ _ _ _)
    | with_reducible apply issueTok_keeps | with_reducible apply Keeps.ite | split

theorem execCoreXst_keeps (g : GroupRef) (f : MFmt) (s : State) : OutKeeps s (execCoreXst g f s) := by
  unfold execCoreXst
  repeat' first
    | with_reducible exact .refl _ | with_reducible assumption | with_reducible intro s | with_reducible apply OutKeeps.refused
    | with_reducible apply OutKeeps.ite | with_reducible apply OutKeeps.next | with_reducible apply Keeps.after (State.memXfer_keeps _ _ _ _ _)
    | with_reducible apply issueTok_keeps | with_reducible apply Keeps.ite | split

theorem State.remoteCopy_keeps (g : GroupRef) (p : Nat) (f : MFmt) (scr sm len : Nat) (s : State) : Keeps s (State.remoteCopy g p f scr sm len s) := by
  unfold State.remoteCopy
  repeat' first
    | with_reducible exact .refl _ | with_reducible assumption | with_reducible intro s
    | (extract_lets +onlyGivenNames x; refine (have hx : Keeps s x := ?_; ?_); rotate_left; clear_value x; rotate_right)
    | (extract_lets +onlyGivenNames x; clear_value x) | subst x | with_reducible apply Keeps.ite | split
    | with_reducible apply Keeps.after (State.sendWrites_keeps _ _ _ _) | with_reducible apply Keeps.after (State.queueXfer_keeps _ _ _)
    | with_reducible apply Keeps.after (State.coreFault_keeps _ _ _ _) | with_reducible apply Keeps.after (State.takeFree_keeps _)
    | with_reducible apply Keeps.after (State.onPart_keeps _ _ _) | with_reducible apply Keeps.after (State.count_keeps _ _ _)
    | with_reducible apply Keeps.ite | with_reducible refine Keeps.after (State.takeFree_eq (by with_reducible assumption)) ?_
    | (with_reducible apply Keeps.memory; rotate_left; exact Memory.write_wf _ _)
    | (with_reducible apply Keeps.memory; rotate_left; exact Memory.clear_wf _ _)
    | (with_reducible apply Keeps.memory; rotate_left; exact Memory.filter_wf _)

theorem execCoreXcp_keeps (g : GroupRef) (f : MFmt) (s : State) : OutKeeps s (execCoreXcp g f s) := by
  unfold execCoreXcp
  repeat' first
    | with_reducible exact .refl _ | with_reducible assumption | with_reducible intro s | with_reducible apply OutKeeps.refused
    | with_reducible apply OutKeeps.ite
    | (extract_lets +onlyGivenNames x; refine (have hx : Keeps s x := ?_; ?_); rotate_left; clear_value x; rotate_right)
    | (extract_lets +onlyGivenNames x; clear_value x) | subst x | with_reducible apply OutKeeps.next
    | with_reducible apply Keeps.after (State.remoteCopy_keeps _ _ _ _ _ _ _) | with_reducible apply issueTok_keeps
    | with_reducible apply Keeps.after (State.queueXfer_keeps _ _ _) | with_reducible apply Keeps.after (State.coreFault_keeps _ _ _ _)
    | with_reducible apply Keeps.ite | (with_reducible apply Keeps.memory; rotate_left; exact Memory.write_wf _ _)
    | (with_reducible apply Keeps.memory; rotate_left; exact Memory.clear_wf _ _)
    | (with_reducible apply Keeps.memory; rotate_left; exact Memory.filter_wf _) | split

theorem execCoreXgth_keeps (g : GroupRef) (f : MFmt) (s : State) : OutKeeps s (execCoreXgth g f s) := by
  unfold execCoreXgth
  repeat' first
    | with_reducible exact .refl _ | with_reducible assumption | with_reducible intro s | with_reducible apply OutKeeps.refused
    | with_reducible apply OutKeeps.ite
    | (extract_lets +onlyGivenNames x; refine (have hx : Keeps s x := ?_; ?_); rotate_left; clear_value x; rotate_right)
    | (extract_lets +onlyGivenNames x; clear_value x) | subst x | with_reducible apply OutKeeps.next | with_reducible apply issueTok_keeps
    | with_reducible apply Keeps.after (State.queueXfer_keeps _ _ _) | with_reducible apply Keeps.after (State.coreFault_keeps _ _ _ _)
    | with_reducible apply Keeps.ite | (with_reducible apply Keeps.memory; rotate_left; exact Memory.write_wf _ _)
    | (with_reducible apply Keeps.memory; rotate_left; exact Memory.clear_wf _ _)
    | (with_reducible apply Keeps.memory; rotate_left; exact Memory.filter_wf _) | split

theorem State.toScratch_keeps (cn scr : Nat) (bs : List Byte) (o : Nat) (s : State) : Keeps s (State.toScratch cn scr bs o s) := by
  unfold State.toScratch
  repeat' first
    | with_reducible exact .refl _ | with_reducible assumption | with_reducible intro s
    | with_reducible apply Keeps.after (State.scrWr_keeps _ _ _ _ _) | with_reducible apply Keeps.ite | split

theorem State.readBurst_keeps (p h a : Nat) (s : State) : Keeps s ((State.readBurst p h a s).2) := by
  unfold State.readBurst
  repeat' first
    | with_reducible exact .refl _ | with_reducible assumption | with_reducible intro s
    | (extract_lets +onlyGivenNames x; refine (have hx : Keeps s x := ?_; ?_); rotate_left; clear_value x; rotate_right)
    | (extract_lets +onlyGivenNames x; clear_value x) | subst x | with_reducible apply Keeps.ite | split
    | with_reducible apply Keeps.after (State.winReadBy_keeps _ _ _ _ _) | with_reducible apply Keeps.after (State.touch_keeps _ _ _)
    | with_reducible apply Keeps.ite | with_reducible refine Keeps.after (State.winReadBy_eq (by with_reducible assumption)) ?_
theorem State.readBurst_eq {p h a : Nat} {s : State} {v : (List Byte × Nat)} {u : State} (heq : State.readBurst p h a s = (v, u)) : Keeps s u := by
  have := State.readBurst_keeps p h a s
  rwa [heq] at this

theorem State.writeBurst_keeps (p h a : Nat) (bs : List Byte) (o : Nat) (s : State) : Keeps s (State.writeBurst p h a bs o s) := by
  unfold State.writeBurst
  repeat' first
    | with_reducible exact .refl _ | with_reducible assumption | with_reducible intro s
    | with_reducible apply Keeps.after (State.winWrite_keeps _ _ _ _ _) | with_reducible apply Keeps.after (State.mput_keeps _ _ _ _)
    | with_reducible apply Keeps.ite | split

theorem State.noteShared_keeps (p a o : Nat) (s : State) : Keeps s (State.noteShared p a o s) := by
  unfold State.noteShared
  repeat' first
    | with_reducible exact .refl _ | with_reducible assumption | with_reducible intro s | with_reducible apply Keeps.ite | split
    | with_reducible apply Keeps.after (State.startRepair_keeps _ _ _) | with_reducible apply Keeps.ite

theorem State.loadBurst_keeps (cn p a scr : Nat) (s : State) : Keeps s (State.loadBurst cn p a scr s) := by
  unfold State.loadBurst
  repeat' first
    | with_reducible exact .refl _ | with_reducible assumption | with_reducible intro s
    | (extract_lets +onlyGivenNames x; refine (have hx : Keeps s x := ?_; ?_); rotate_left; clear_value x; rotate_right)
    | (extract_lets +onlyGivenNames x; clear_value x) | subst x | with_reducible apply Keeps.ite | split
    | with_reducible apply Keeps.after (State.noteShared_keeps _ _ _ _) | with_reducible apply Keeps.after (State.readBurst_keeps _ _ _ _)
    | with_reducible apply Keeps.after (State.toScratch_keeps _ _ _ _ _) | with_reducible apply Keeps.ite
    | with_reducible refine Keeps.after (State.readBurst_eq (by with_reducible assumption)) ?_

theorem State.moveBurst_keeps (cn : Nat) (x : Xfer) (i : Nat) (s : State) : Keeps s (State.moveBurst cn x i s) := by
  unfold State.moveBurst
  repeat' first
    | with_reducible exact .refl _ | with_reducible assumption | with_reducible intro s
    | (extract_lets +onlyGivenNames x; refine (have hx : Keeps s x := ?_; ?_); rotate_left; clear_value x; rotate_right)
    | (extract_lets +onlyGivenNames x; clear_value x) | subst x | with_reducible apply Keeps.ite | split
    | with_reducible apply Keeps.after (State.loadBurst_keeps _ _ _ _ _) | with_reducible apply Keeps.after (State.writeBurst_keeps _ _ _ _ _ _)
    | with_reducible apply Keeps.after (State.scrWr_keeps _ _ _ _ _) | with_reducible apply Keeps.ite

theorem State.finishXfer_keeps (cn : Nat) (x : Xfer) (s : State) : Keeps s (State.finishXfer cn x s) := by
  unfold State.finishXfer
  repeat' first
    | with_reducible exact .refl _ | with_reducible assumption | with_reducible intro s
    | (extract_lets +onlyGivenNames x; refine (have hx : Keeps s x := ?_; ?_); rotate_left; clear_value x; rotate_right)
    | (extract_lets +onlyGivenNames x; clear_value x) | subst x | with_reducible apply Keeps.ite | split
    | with_reducible apply Keeps.after (State.kvQend_keeps _ _ _ _ _ _ _ _) | with_reducible apply Keeps.after (State.kvFetch_keeps _ _ _ _ _ _ _ _ _)
    | with_reducible apply Keeps.after (State.kvAppend_keeps _ _ _ _ _ _ _ _) | with_reducible apply Keeps.after (State.completeToken_keeps _ _ _)
    | with_reducible apply Keeps.after (State.onCore_keeps _ _ _) | with_reducible apply Keeps.ite

theorem execTransferComplete_keeps (g : GroupRef) (token : Fin 16) (s : State) : OutKeeps s (execTransferComplete g token s) := by
  unfold execTransferComplete
  repeat' first
    | with_reducible exact .refl _ | with_reducible assumption | with_reducible intro s | with_reducible apply OutKeeps.refused
    | with_reducible apply OutKeeps.ite
    | (extract_lets +onlyGivenNames x; refine (have hx : Keeps s x := ?_; ?_); rotate_left; clear_value x; rotate_right)
    | (extract_lets +onlyGivenNames x; clear_value x) | subst x | with_reducible apply OutKeeps.next | with_reducible apply Keeps.ite | split
    | with_reducible apply Keeps.after (State.finishXfer_keeps _ _ _) | with_reducible apply Keeps.ite

theorem execCoreWait_keeps (g : GroupRef) (f : XFmt) (s : State) : OutKeeps s (execCoreWait g f s) := by
  unfold execCoreWait
  repeat' first
    | with_reducible exact .refl _ | with_reducible assumption | with_reducible intro s | with_reducible apply OutKeeps.refused
    | with_reducible apply OutKeeps.ite | with_reducible apply OutKeeps.next | with_reducible apply Keeps.after (State.retire_keeps _ _ _)
    | with_reducible apply issue_keeps | with_reducible apply Keeps.ite | split

/-! ### CoreTensor -/

theorem State.putTile_keeps (cn a : Nat) (t : List PVal) (s : State) : Keeps s (State.putTile cn a t s) := by
  unfold State.putTile
  repeat' first
    | with_reducible exact .refl _ | with_reducible assumption | with_reducible intro s | with_reducible apply Keeps.after (State.onCore_keeps _ _ _)
    | with_reducible apply Keeps.ite | split

theorem execCoreMma_keeps (g : GroupRef) (f : TFmt) (s : State) : OutKeeps s (execCoreMma g f s) := by
  unfold execCoreMma
  repeat' first
    | with_reducible exact .refl _ | with_reducible assumption | with_reducible intro s | with_reducible apply OutKeeps.refused
    | with_reducible apply OutKeeps.ite
    | (extract_lets +onlyGivenNames x; refine (have hx : Keeps s x := ?_; ?_); rotate_left; clear_value x; rotate_right)
    | (extract_lets +onlyGivenNames x; clear_value x) | subst x | with_reducible apply OutKeeps.next | with_reducible apply Keeps.ite | split
    | with_reducible apply Keeps.after (State.putTile_keeps _ _ _ _) | with_reducible apply Keeps.after (State.coreFault_keeps _ _ _ _)
    | with_reducible apply Keeps.after (State.retire_keeps _ _ _) | with_reducible apply issue_keeps
    | with_reducible apply Keeps.after (State.count_keeps _ _ _) | with_reducible apply Keeps.after (State.bump_keeps _ _ _ _)
    | with_reducible apply Keeps.after (State.raise_keeps _ _ _) | with_reducible apply Keeps.ite | (with_reducible apply Keeps.whenB; intro s)

theorem execCoreAld_keeps (g : GroupRef) (f : TFmt) (s : State) : OutKeeps s (execCoreAld g f s) := by
  unfold execCoreAld
  repeat' first
    | with_reducible exact .refl _ | with_reducible assumption | with_reducible intro s | with_reducible apply OutKeeps.refused
    | with_reducible apply OutKeeps.ite
    | (extract_lets +onlyGivenNames x; refine (have hx : Keeps s x := ?_; ?_); rotate_left; clear_value x; rotate_right)
    | (extract_lets +onlyGivenNames x; clear_value x) | subst x | with_reducible apply OutKeeps.next | with_reducible apply Keeps.ite | split
    | with_reducible apply Keeps.after (State.putTile_keeps _ _ _ _) | with_reducible apply Keeps.after (State.coreFault_keeps _ _ _ _)
    | with_reducible apply Keeps.after (State.retire_keeps _ _ _) | with_reducible apply issue_keeps | with_reducible apply Keeps.ite

theorem execCoreAst_keeps (g : GroupRef) (f : TFmt) (s : State) : OutKeeps s (execCoreAst g f s) := by
  unfold execCoreAst
  repeat' first
    | with_reducible exact .refl _ | with_reducible assumption | with_reducible intro s | with_reducible apply OutKeeps.refused
    | with_reducible apply OutKeeps.ite
    | (extract_lets +onlyGivenNames x; refine (have hx : Keeps s x := ?_; ?_); rotate_left; clear_value x; rotate_right)
    | (extract_lets +onlyGivenNames x; clear_value x) | subst x | with_reducible apply OutKeeps.next | with_reducible apply Keeps.ite | split
    | with_reducible apply Keeps.after (State.coreFault_keeps _ _ _ _) | with_reducible apply Keeps.after (State.retire_keeps _ _ _)
    | with_reducible apply issue_keeps | with_reducible apply Keeps.after (State.scrWr_keeps _ _ _ _ _)
    | with_reducible apply Keeps.after (State.onCore_keeps _ _ _) | with_reducible apply Keeps.ite | (with_reducible apply Keeps.each; intro _ s)

theorem execCoreAz_keeps (g : GroupRef) (f : TFmt) (s : State) : OutKeeps s (execCoreAz g f s) := by
  unfold execCoreAz
  repeat' first
    | with_reducible exact .refl _ | with_reducible assumption | with_reducible intro s | with_reducible apply OutKeeps.refused
    | with_reducible apply OutKeeps.ite | with_reducible apply OutKeeps.next | with_reducible apply Keeps.after (State.putTile_keeps _ _ _ _)
    | with_reducible apply Keeps.after (State.retire_keeps _ _ _) | with_reducible apply issue_keeps | with_reducible apply Keeps.ite | split

/-! ### CoreCtl -/

theorem execCoreBr_keeps (g : GroupRef) (f : BFmt) (s : State) : OutKeeps s (execCoreBr g f s) := by
  unfold execCoreBr
  repeat' first
    | with_reducible exact .refl _ | with_reducible assumption | with_reducible intro s | with_reducible apply OutKeeps.refused
    | with_reducible apply OutKeeps.ite
    | (extract_lets +onlyGivenNames x; refine (have hx : Keeps s x := ?_; ?_); rotate_left; clear_value x; rotate_right)
    | (extract_lets +onlyGivenNames x; clear_value x) | subst x | with_reducible apply OutKeeps.next
    | with_reducible apply Keeps.after (State.coreFault_keeps _ _ _ _) | with_reducible apply issue_keeps
    | with_reducible apply Keeps.after (State.onGrp_keeps _ _ _) | with_reducible apply Keeps.ite | split

theorem execCoreLoop_keeps (g : GroupRef) (f : BFmt) (s : State) : OutKeeps s (execCoreLoop g f s) := by
  unfold execCoreLoop
  repeat' first
    | with_reducible exact .refl _ | with_reducible assumption | with_reducible intro s | with_reducible apply OutKeeps.refused
    | with_reducible apply OutKeeps.ite
    | (extract_lets +onlyGivenNames x; refine (have hx : Keeps s x := ?_; ?_); rotate_left; clear_value x; rotate_right)
    | (extract_lets +onlyGivenNames x; clear_value x) | subst x | with_reducible apply OutKeeps.next
    | with_reducible apply Keeps.after (State.coreFault_keeps _ _ _ _) | with_reducible apply issue_keeps
    | with_reducible apply Keeps.after (State.onGrp_keeps _ _ _) | with_reducible apply Keeps.ite | split

theorem execCoreCall_keeps (g : GroupRef) (f : BFmt) (s : State) : OutKeeps s (execCoreCall g f s) := by
  unfold execCoreCall
  repeat' first
    | with_reducible exact .refl _ | with_reducible assumption | with_reducible intro s | with_reducible apply OutKeeps.refused
    | with_reducible apply OutKeeps.ite
    | (extract_lets +onlyGivenNames x; refine (have hx : Keeps s x := ?_; ?_); rotate_left; clear_value x; rotate_right)
    | (extract_lets +onlyGivenNames x; clear_value x) | subst x | with_reducible apply OutKeeps.next
    | with_reducible apply Keeps.after (State.coreFault_keeps _ _ _ _) | with_reducible apply Keeps.after (State.retire_keeps _ _ _)
    | with_reducible apply issue_keeps | with_reducible apply Keeps.after (State.onGrp_keeps _ _ _) | with_reducible apply Keeps.ite | split

theorem execCoreRet_keeps (g : GroupRef) (f : BFmt) (s : State) : OutKeeps s (execCoreRet g f s) := by
  unfold execCoreRet
  repeat' first
    | with_reducible exact .refl _ | with_reducible assumption | with_reducible intro s | with_reducible apply OutKeeps.refused
    | with_reducible apply OutKeeps.ite
    | (extract_lets +onlyGivenNames x; refine (have hx : Keeps s x := ?_; ?_); rotate_left; clear_value x; rotate_right)
    | (extract_lets +onlyGivenNames x; clear_value x) | subst x | with_reducible apply OutKeeps.next | with_reducible apply Keeps.ite | split
    | with_reducible apply Keeps.after (State.coreFault_keeps _ _ _ _) | with_reducible apply Keeps.after (State.retire_keeps _ _ _)
    | with_reducible apply issue_keeps | with_reducible apply Keeps.after (State.onGrp_keeps _ _ _) | with_reducible apply Keeps.ite

theorem execCoreEnd_keeps (g : GroupRef) (f : BFmt) (s : State) : OutKeeps s (execCoreEnd g f s) := by
  unfold execCoreEnd
  repeat' first
    | with_reducible exact .refl _ | with_reducible assumption | with_reducible intro s | with_reducible apply OutKeeps.refused
    | with_reducible apply OutKeeps.ite | with_reducible apply OutKeeps.next | with_reducible apply issue_keeps
    | with_reducible apply Keeps.after (State.onGrp_keeps _ _ _) | with_reducible apply Keeps.ite | split

theorem execCoreBar_keeps (g : GroupRef) (f : XFmt) (s : State) : OutKeeps s (execCoreBar g f s) := by
  unfold execCoreBar
  repeat' first
    | with_reducible exact .refl _ | with_reducible assumption | with_reducible intro s | with_reducible apply OutKeeps.refused
    | with_reducible apply OutKeeps.ite
    | (extract_lets +onlyGivenNames x; refine (have hx : Keeps s x := ?_; ?_); rotate_left; clear_value x; rotate_right)
    | (extract_lets +onlyGivenNames x; clear_value x) | subst x | with_reducible apply OutKeeps.next
    | with_reducible apply Keeps.after (State.retire_keeps _ _ _) | with_reducible apply issue_keeps
    | with_reducible apply Keeps.after (State.onGrp_keeps _ _ _) | with_reducible apply Keeps.after (State.onCore_keeps _ _ _)
    | with_reducible apply Keeps.ite | split

theorem execCoreSig_keeps (g : GroupRef) (f : XFmt) (s : State) : OutKeeps s (execCoreSig g f s) := by
  unfold execCoreSig
  repeat' first
    | with_reducible exact .refl _ | with_reducible assumption | with_reducible intro s | with_reducible apply OutKeeps.refused
    | with_reducible apply OutKeeps.ite | with_reducible apply OutKeeps.next | with_reducible apply Keeps.after (State.retire_keeps _ _ _)
    | with_reducible apply issue_keeps | with_reducible apply Keeps.after (State.signal_keeps _ _ _ _) | with_reducible apply Keeps.ite
    | (with_reducible apply Keeps.each; intro _ s) | split

theorem execCoreWev_keeps (g : GroupRef) (f : XFmt) (s : State) : OutKeeps s (execCoreWev g f s) := by
  unfold execCoreWev
  repeat' first
    | with_reducible exact .refl _ | with_reducible assumption | with_reducible intro s | with_reducible apply OutKeeps.refused
    | with_reducible apply OutKeeps.ite
    | (extract_lets +onlyGivenNames x; refine (have hx : Keeps s x := ?_; ?_); rotate_left; clear_value x; rotate_right)
    | (extract_lets +onlyGivenNames x; clear_value x) | subst x | with_reducible apply OutKeeps.next
    | with_reducible apply Keeps.after (State.coreFault_keeps _ _ _ _) | with_reducible apply Keeps.after (State.retire_keeps _ _ _)
    | with_reducible apply issue_keeps | with_reducible apply Keeps.ite | split

theorem State.releaseWpt_keeps (p k : Nat) (s : State) : Keeps s (State.releaseWpt p k s) := by
  unfold State.releaseWpt
  repeat' first
    | with_reducible exact .refl _ | with_reducible assumption | with_reducible intro s
    | (extract_lets +onlyGivenNames x; refine (have hx : Keeps s x := ?_; ?_); rotate_left; clear_value x; rotate_right)
    | (extract_lets +onlyGivenNames x; clear_value x) | subst x | with_reducible apply Keeps.after (State.onCore_keeps _ _ _)
    | with_reducible apply Keeps.after (State.onStep_keeps _ _ _) | with_reducible apply Keeps.ite | (with_reducible apply Keeps.each; intro _ s)
    | split

theorem execCoreWpt_keeps (g : GroupRef) (f : XFmt) (s : State) : OutKeeps s (execCoreWpt g f s) := by
  unfold execCoreWpt
  repeat' first
    | with_reducible exact .refl _ | with_reducible assumption | with_reducible intro s | with_reducible apply OutKeeps.refused
    | with_reducible apply OutKeeps.ite
    | (extract_lets +onlyGivenNames x; refine (have hx : Keeps s x := ?_; ?_); rotate_left; clear_value x; rotate_right)
    | (extract_lets +onlyGivenNames x; clear_value x) | subst x | with_reducible apply OutKeeps.next
    | with_reducible apply Keeps.after (State.releaseWpt_keeps _ _ _) | with_reducible apply Keeps.after (State.retire_keeps _ _ _)
    | with_reducible apply issue_keeps | with_reducible apply Keeps.ite | split

theorem execCoreAcall_keeps (g : GroupRef) (f : XFmt) (s : State) : OutKeeps s (execCoreAcall g f s) := by
  unfold execCoreAcall
  repeat' first
    | with_reducible exact .refl _ | with_reducible assumption | with_reducible intro s | with_reducible apply OutKeeps.refused
    | with_reducible apply OutKeeps.ite
    | (extract_lets +onlyGivenNames x; refine (have hx : Keeps s x := ?_; ?_); rotate_left; clear_value x; rotate_right)
    | (extract_lets +onlyGivenNames x; clear_value x) | subst x | with_reducible apply OutKeeps.next | with_reducible apply Keeps.ite | split
    | with_reducible apply issueTok_keeps | with_reducible apply Keeps.after (State.takeToken_keeps _ _ _)
    | with_reducible apply Keeps.after (State.coreFault_keeps _ _ _ _) | with_reducible apply Keeps.after (State.startRun_keeps _ _ _)
    | with_reducible apply Keeps.after (State.onStk_keeps _ _ _) | with_reducible apply Keeps.ite | with_reducible apply Keeps.other

theorem execCoreTopk_keeps (g : GroupRef) (f : XFmt) (s : State) : OutKeeps s (execCoreTopk g f s) := by
  unfold execCoreTopk
  repeat' first
    | with_reducible exact .refl _ | with_reducible assumption | with_reducible intro s | with_reducible apply OutKeeps.refused
    | with_reducible apply OutKeeps.ite
    | (extract_lets +onlyGivenNames x; refine (have hx : Keeps s x := ?_; ?_); rotate_left; clear_value x; rotate_right)
    | (extract_lets +onlyGivenNames x; clear_value x) | subst x | with_reducible apply OutKeeps.next | with_reducible apply Keeps.ite | split
    | with_reducible apply issueTok_keeps | with_reducible apply Keeps.after (State.takeToken_keeps _ _ _)
    | with_reducible apply Keeps.after (State.coreFault_keeps _ _ _ _) | with_reducible apply Keeps.after (State.touch_keeps _ _ _)
    | with_reducible apply Keeps.after (State.onStep_keeps _ _ _) | with_reducible apply Keeps.after (State.onHub_keeps _ _ _)
    | with_reducible apply Keeps.ite | (with_reducible apply Keeps.whenB; intro s)

theorem State.deliver_keeps (p chain row : Nat) (c : ChainRec) (vals : List PVal) (s : State) : Keeps s (State.deliver p chain row c vals s) := by
  unfold State.deliver
  repeat' first
    | with_reducible exact .refl _ | with_reducible assumption | with_reducible intro s
    | (extract_lets +onlyGivenNames x; refine (have hx : Keeps s x := ?_; ?_); rotate_left; clear_value x; rotate_right)
    | (extract_lets +onlyGivenNames x; clear_value x) | subst x | with_reducible apply Keeps.ite | split
    | with_reducible apply Keeps.after (State.onVal_keeps _ _ _ _) | with_reducible apply Keeps.after (State.nextRow_keeps _ _ _)
    | with_reducible apply Keeps.after (State.completeToken_keeps _ _ _) | with_reducible apply Keeps.after (State.onHub_keeps _ _ _)
    | with_reducible apply Keeps.ite

theorem execCoreEput_keeps (g : GroupRef) (f : XFmt) (s : State) : OutKeeps s (execCoreEput g f s) := by
  unfold execCoreEput
  repeat' first
    | with_reducible exact .refl _ | with_reducible assumption | with_reducible intro s | with_reducible apply OutKeeps.refused
    | with_reducible apply OutKeeps.ite
    | (extract_lets +onlyGivenNames x; refine (have hx : Keeps s x := ?_; ?_); rotate_left; clear_value x; rotate_right)
    | (extract_lets +onlyGivenNames x; clear_value x) | subst x | with_reducible apply OutKeeps.next | with_reducible apply Keeps.ite | split
    | with_reducible apply Keeps.after (State.deliver_keeps _ _ _ _ _ _) | with_reducible apply issueTok_keeps
    | with_reducible apply Keeps.after (State.coreFault_keeps _ _ _ _) | with_reducible apply Keeps.after (State.retire_keeps _ _ _)
    | with_reducible apply Keeps.ite | with_reducible apply Keeps.other

theorem State.kvop_keeps (g : GroupRef) (p : Nat) (f : XFmt) (bytes : Nat → Nat) (kind : Nat → Nat → XferKind) (s : State) : Keeps s (State.kvop g p f bytes kind s) := by
  unfold State.kvop
  repeat' first
    | with_reducible exact .refl _ | with_reducible assumption | with_reducible intro s
    | (extract_lets +onlyGivenNames x; refine (have hx : Keeps s x := ?_; ?_); rotate_left; clear_value x; rotate_right)
    | (extract_lets +onlyGivenNames x; clear_value x) | subst x | with_reducible apply Keeps.after (State.queueXfer_keeps _ _ _)
    | with_reducible apply Keeps.after (State.coreFault_keeps _ _ _ _) | with_reducible apply Keeps.ite
    | (with_reducible apply Keeps.memory; rotate_left; exact Memory.write_wf _ _)
    | (with_reducible apply Keeps.memory; rotate_left; exact Memory.clear_wf _ _)
    | (with_reducible apply Keeps.memory; rotate_left; exact Memory.filter_wf _) | split

theorem execCoreAppend_keeps (g : GroupRef) (f : XFmt) (s : State) : OutKeeps s (execCoreAppend g f s) := by
  unfold execCoreAppend
  repeat' first
    | with_reducible exact .refl _ | with_reducible assumption | with_reducible intro s | with_reducible apply OutKeeps.refused
    | with_reducible apply OutKeeps.ite | with_reducible apply OutKeeps.next | with_reducible apply Keeps.after (State.kvop_keeps _ _ _ _ _ _)
    | with_reducible apply issueTok_keeps | with_reducible apply Keeps.ite | split

theorem execCoreFetch_keeps (g : GroupRef) (f : XFmt) (s : State) : OutKeeps s (execCoreFetch g f s) := by
  unfold execCoreFetch
  repeat' first
    | with_reducible exact .refl _ | with_reducible assumption | with_reducible intro s | with_reducible apply OutKeeps.refused
    | with_reducible apply OutKeeps.ite | with_reducible apply OutKeeps.next | with_reducible apply Keeps.after (State.kvop_keeps _ _ _ _ _ _)
    | with_reducible apply issueTok_keeps | with_reducible apply Keeps.ite | split

theorem execCoreQend_keeps (g : GroupRef) (f : XFmt) (s : State) : OutKeeps s (execCoreQend g f s) := by
  unfold execCoreQend
  repeat' first
    | with_reducible exact .refl _ | with_reducible assumption | with_reducible intro s | with_reducible apply OutKeeps.refused
    | with_reducible apply OutKeeps.ite | with_reducible apply OutKeeps.next | with_reducible apply Keeps.after (State.kvop_keeps _ _ _ _ _ _)
    | with_reducible apply issueTok_keeps | with_reducible apply Keeps.ite | split

theorem execStepTimeout_keeps (part : Fin 12) (s : State) : OutKeeps s (execStepTimeout part s) := by
  unfold execStepTimeout
  repeat' first
    | with_reducible exact .refl _ | with_reducible assumption | with_reducible intro s | with_reducible apply OutKeeps.refused
    | with_reducible apply OutKeeps.ite
    | (extract_lets +onlyGivenNames x; refine (have hx : Keeps s x := ?_; ?_); rotate_left; clear_value x; rotate_right)
    | (extract_lets +onlyGivenNames x; clear_value x) | subst x | with_reducible apply OutKeeps.next | with_reducible apply Keeps.ite | split
    | with_reducible apply Keeps.after (State.faultAct_keeps _ _ _) | with_reducible apply Keeps.after (State.recordFault_keeps _ _ _ _ _ _ _)
    | with_reducible apply Keeps.after (State.takeFree_keeps _) | with_reducible apply Keeps.ite
    | with_reducible refine Keeps.after (State.takeFree_eq (by with_reducible assumption)) ?_

theorem State.actFaultClr_keeps (p : Nat) (s : State) : Keeps s (State.actFaultClr p s) := by
  unfold State.actFaultClr
  repeat' first
    | with_reducible exact .refl _ | with_reducible assumption | with_reducible intro s
    | (extract_lets +onlyGivenNames x; refine (have hx : Keeps s x := ?_; ?_); rotate_left; clear_value x; rotate_right)
    | (extract_lets +onlyGivenNames x; clear_value x) | subst x | with_reducible apply Keeps.after (State.wr_keeps _ _ _ _)
    | with_reducible apply Keeps.ite | split

theorem execFaultClr_keeps (part : Fin 12) (s : State) : OutKeeps s (execFaultClr part s) := by
  unfold execFaultClr
  repeat' first
    | with_reducible exact .refl _ | with_reducible assumption | with_reducible intro s | with_reducible apply OutKeeps.refused
    | with_reducible apply OutKeeps.ite | with_reducible apply OutKeeps.next | with_reducible apply Keeps.after (State.actFaultClr_keeps _ _)
    | with_reducible apply Keeps.after (State.ofPart_keeps _ _ ?_ _) | with_reducible apply Keeps.ite | split

/-! ### Reports -/

theorem State.ringPut_keeps (h : Nat) (b : List Byte) (s : State) : Keeps s (State.ringPut h b s) := by
  unfold State.ringPut
  repeat' first
    | with_reducible exact .refl _ | with_reducible assumption | with_reducible intro s | with_reducible apply Keeps.after (State.onHub_keeps _ _ _)
    | with_reducible apply Keeps.ite | split

theorem State.hostCopy_keeps (h : Nat) (b : List Byte) (s : State) : Keeps s (State.hostCopy h b s) := by
  unfold State.hostCopy
  repeat' first
    | with_reducible exact .refl _ | with_reducible assumption | with_reducible intro s
    | with_reducible apply Keeps.after (State.flagCount_keeps _ _ _ _) | with_reducible apply Keeps.ite | with_reducible apply Keeps.other | split

theorem State.onMgt_keeps (f : MgtSt → MgtSt) (s : State) : Keeps s (State.onMgt f s) := by
  unfold State.onMgt
  repeat' first
    | with_reducible exact .refl _ | with_reducible assumption | with_reducible intro s | with_reducible apply Keeps.ite
    | with_reducible apply Keeps.other | split

theorem State.raiseIbi_keeps (s : State) : Keeps s (State.raiseIbi s) := by
  unfold State.raiseIbi
  repeat' first
    | with_reducible exact .refl _ | with_reducible assumption | with_reducible intro s | with_reducible apply Keeps.after (State.onMgt_keeps _ _)
    | with_reducible apply Keeps.ite | split

theorem State.mctpSend_keeps (b : List Byte) (s : State) : Keeps s (State.mctpSend b s) := by
  unfold State.mctpSend
  repeat' first
    | with_reducible exact .refl _ | with_reducible assumption | with_reducible intro s | with_reducible apply Keeps.after (State.raiseIbi_keeps _)
    | with_reducible apply Keeps.after (State.onMgt_keeps _ _) | with_reducible apply Keeps.ite | (with_reducible apply Keeps.whenB; intro s) | split

theorem State.lanSend_keeps (kind count seq : Nat) (payload : List Byte) (s : State) : Keeps s (State.lanSend kind count seq payload s) := by
  unfold State.lanSend
  repeat' first
    | with_reducible exact .refl _ | with_reducible assumption | with_reducible intro s
    | (extract_lets +onlyGivenNames x; refine (have hx : Keeps s x := ?_; ?_); rotate_left; clear_value x; rotate_right)
    | (extract_lets +onlyGivenNames x; clear_value x) | subst x | with_reducible apply Keeps.after (State.onMgt_keeps _ _)
    | with_reducible apply Keeps.after (State.count_keeps _ _ _) | with_reducible apply Keeps.ite | split

theorem State.lanFlush_keeps (s : State) : Keeps s (State.lanFlush s) := by
  unfold State.lanFlush
  repeat' first
    | with_reducible exact .refl _ | with_reducible assumption | with_reducible intro s
    | (extract_lets +onlyGivenNames x; refine (have hx : Keeps s x := ?_; ?_); rotate_left; clear_value x; rotate_right)
    | (extract_lets +onlyGivenNames x; clear_value x) | subst x | with_reducible apply Keeps.ite | split
    | with_reducible apply Keeps.after (State.lanSend_keeps _ _ _ _ _) | with_reducible apply Keeps.after (State.onMgt_keeps _ _)
    | with_reducible apply Keeps.ite | with_reducible apply Keeps.other

theorem State.lanDue_keeps (s : State) : Keeps s (State.lanDue s) := by
  unfold State.lanDue
  repeat' first
    | with_reducible exact .refl _ | with_reducible assumption | with_reducible intro s
    | (extract_lets +onlyGivenNames x; refine (have hx : Keeps s x := ?_; ?_); rotate_left; clear_value x; rotate_right)
    | (extract_lets +onlyGivenNames x; clear_value x) | subst x | with_reducible apply Keeps.ite | split
    | with_reducible apply Keeps.after (State.lanFlush_keeps _) | with_reducible apply Keeps.after (State.lanSend_keeps _ _ _ _ _)
    | with_reducible apply Keeps.after (State.onMgt_keeps _ _) | with_reducible apply Keeps.ite | (with_reducible apply Keeps.each; intro _ s)
    | (with_reducible apply Keeps.whenB; intro s) | with_reducible apply Keeps.other

theorem State.lanRecord_keeps (b : List Byte) (sev : Nat) (s : State) : Keeps s (State.lanRecord b sev s) := by
  unfold State.lanRecord
  repeat' first
    | with_reducible exact .refl _ | with_reducible assumption | with_reducible intro s
    | (extract_lets +onlyGivenNames x; refine (have hx : Keeps s x := ?_; ?_); rotate_left; clear_value x; rotate_right)
    | (extract_lets +onlyGivenNames x; clear_value x) | subst x | with_reducible apply Keeps.ite | split
    | with_reducible apply Keeps.after (State.lanDue_keeps _) | with_reducible apply Keeps.after (State.lanFlush_keeps _)
    | with_reducible apply Keeps.after (State.lanSend_keeps _ _ _ _ _) | with_reducible apply Keeps.after (State.onMgt_keeps _ _)
    | with_reducible apply Keeps.ite | (with_reducible apply Keeps.whenB; intro s) | with_reducible apply Keeps.other

theorem State.pldmEvent_keeps (b : List Byte) (sev : Nat) (s : State) : Keeps s (State.pldmEvent b sev s) := by
  unfold State.pldmEvent
  repeat' first
    | with_reducible exact .refl _ | with_reducible assumption | with_reducible intro s
    | (extract_lets +onlyGivenNames x; refine (have hx : Keeps s x := ?_; ?_); rotate_left; clear_value x; rotate_right)
    | (extract_lets +onlyGivenNames x; clear_value x) | subst x | with_reducible apply Keeps.ite | split
    | with_reducible apply Keeps.after (State.mctpSend_keeps _ _) | with_reducible apply Keeps.after (State.onMgt_keeps _ _)
    | with_reducible apply Keeps.after (State.flagCount_keeps _ _ _ _) | with_reducible apply Keeps.ite

theorem State.emitRec_keeps (h : Nat) (b : List Byte) (sev : Nat) (s : State) : Keeps s (State.emitRec h b sev s) := by
  unfold State.emitRec
  repeat' first
    | with_reducible exact .refl _ | with_reducible assumption | with_reducible intro s
    | with_reducible apply Keeps.after (State.pldmEvent_keeps _ _ _) | with_reducible apply Keeps.after (State.lanRecord_keeps _ _ _)
    | with_reducible apply Keeps.after (State.hostCopy_keeps _ _ _) | with_reducible apply Keeps.after (State.ringPut_keeps _ _ _)
    | with_reducible apply Keeps.after (State.count_keeps _ _ _) | with_reducible apply Keeps.ite | split

theorem State.closeAll_keeps (h : Nat) (s : State) : Keeps s (State.closeAll h s) := by
  unfold State.closeAll
  repeat' first
    | with_reducible exact .refl _ | with_reducible assumption | with_reducible intro s
    | (extract_lets +onlyGivenNames x; refine (have hx : Keeps s x := ?_; ?_); rotate_left; clear_value x; rotate_right)
    | (extract_lets +onlyGivenNames x; clear_value x) | subst x | with_reducible apply Keeps.after (State.emitRec_keeps _ _ _ _)
    | with_reducible apply Keeps.after (State.onHub_keeps _ _ _) | with_reducible apply Keeps.ite | (with_reducible apply Keeps.each; intro _ s)
    | split

theorem State.testTo_keeps (n : Nat) (s : State) : Keeps s (State.testTo n s) := by
  unfold State.testTo
  repeat' first
    | with_reducible exact .refl _ | with_reducible assumption | with_reducible intro s
    | (extract_lets +onlyGivenNames x; refine (have hx : Keeps s x := ?_; ?_); rotate_left; clear_value x; rotate_right)
    | (extract_lets +onlyGivenNames x; clear_value x) | subst x | with_reducible apply Keeps.ite | split
    | with_reducible apply Keeps.after (State.freeTrains_keeps _) | with_reducible apply Keeps.after (State.wearStack_keeps _ _ _)
    | with_reducible apply Keeps.after (State.takeDraw_keeps _) | with_reducible apply Keeps.ite | (with_reducible apply Keeps.each; intro _ s)
    | (with_reducible apply Keeps.nv; rotate_left; rfl; rfl; rfl; rfl; rfl)
    | with_reducible refine Keeps.after (State.takeDraw_eq (by with_reducible assumption)) ?_ | with_reducible apply Keeps.other

theorem State.testGoesOn_keeps (s : State) : Keeps s (State.testGoesOn s) := by
  unfold State.testGoesOn
  repeat' first
    | with_reducible exact .refl _ | with_reducible assumption | with_reducible intro s
    | (extract_lets +onlyGivenNames x; refine (have hx : Keeps s x := ?_; ?_); rotate_left; clear_value x; rotate_right)
    | (extract_lets +onlyGivenNames x; clear_value x) | subst x | with_reducible apply Keeps.ite | split
    | with_reducible apply Keeps.after (State.testTo_keeps _ _) | with_reducible apply Keeps.after (State.takeFree_keeps _)
    | with_reducible apply Keeps.ite | with_reducible refine Keeps.after (State.takeFree_eq (by with_reducible assumption)) ?_

theorem State.stopTest_keeps (s : State) : Keeps s (State.stopTest s) := by
  unfold State.stopTest
  repeat' first
    | with_reducible exact .refl _ | with_reducible assumption | with_reducible intro s | with_reducible apply Keeps.after (State.testGoesOn_keeps _)
    | with_reducible apply Keeps.after (State.setProgramming_keeps _) | with_reducible apply Keeps.after (State.raise_keeps _ _ _)
    | with_reducible apply Keeps.after (State.wr_keeps _ _ _ _) | with_reducible apply Keeps.ite | split

theorem State.startCommit_keeps (h cause : Nat) (s : State) : Keeps s (State.startCommit h cause s) := by
  unfold State.startCommit
  repeat' first
    | with_reducible exact .refl _ | with_reducible assumption | with_reducible intro s
    | (extract_lets +onlyGivenNames x; refine (have hx : Keeps s x := ?_; ?_); rotate_left; clear_value x; rotate_right)
    | (extract_lets +onlyGivenNames x; clear_value x) | subst x | with_reducible apply Keeps.after (State.closeAll_keeps _ _)
    | with_reducible apply Keeps.after (State.onHub_keeps _ _ _) | with_reducible apply Keeps.after (State.wr_keeps _ _ _ _)
    | with_reducible apply Keeps.ite | split

theorem State.reportSevere_keeps (h : Nat) (r : Report) (cause : Nat) (s : State) : Keeps s (State.reportSevere h r cause s) := by
  unfold State.reportSevere
  repeat' first
    | with_reducible exact .refl _ | with_reducible assumption | with_reducible intro s
    | with_reducible apply Keeps.after (State.startCommit_keeps _ _ _) | with_reducible apply Keeps.after (State.closeAll_keeps _ _)
    | with_reducible apply Keeps.after (State.report_keeps _ _ _) | with_reducible apply Keeps.ite | split

theorem State.closeWindow_keeps (h w : Nat) (s : State) : Keeps s (State.closeWindow h w s) := by
  unfold State.closeWindow
  repeat' first
    | with_reducible exact .refl _ | with_reducible assumption | with_reducible intro s
    | (extract_lets +onlyGivenNames x; refine (have hx : Keeps s x := ?_; ?_); rotate_left; clear_value x; rotate_right)
    | (extract_lets +onlyGivenNames x; clear_value x) | subst x | with_reducible apply Keeps.ite | split
    | with_reducible apply Keeps.after (State.startCommit_keeps _ _ _) | with_reducible apply Keeps.after (State.closeAll_keeps _ _)
    | with_reducible apply Keeps.after (State.emitRec_keeps _ _ _ _) | with_reducible apply Keeps.after (State.onHub_keeps _ _ _)
    | with_reducible apply Keeps.ite

theorem execCoalescingWindowClose_keeps (hub : Fin 4) (window : Nat) (s : State) : OutKeeps s (execCoalescingWindowClose hub window s) := by
  unfold execCoalescingWindowClose
  repeat' first
    | with_reducible exact .refl _ | with_reducible assumption | with_reducible intro s | with_reducible apply OutKeeps.refused
    | with_reducible apply OutKeeps.ite | with_reducible apply OutKeeps.next | with_reducible apply Keeps.after (State.closeWindow_keeps _ _ _)
    | with_reducible apply Keeps.ite | (with_reducible apply Keeps.whenB; intro s) | split

theorem State.actPush_keeps (h : Nat) (s : State) : Keeps s (State.actPush h s) := by
  unfold State.actPush
  repeat' first
    | with_reducible exact .refl _ | with_reducible assumption | with_reducible intro s
    | (extract_lets +onlyGivenNames x; refine (have hx : Keeps s x := ?_; ?_); rotate_left; clear_value x; rotate_right)
    | (extract_lets +onlyGivenNames x; clear_value x) | subst x | with_reducible apply Keeps.after (State.startCommit_keeps _ _ _)
    | with_reducible apply Keeps.after (State.closeAll_keeps _ _) | with_reducible apply Keeps.after (State.emitRec_keeps _ _ _ _)
    | with_reducible apply Keeps.ite | split

theorem execPush_keeps (hub : Fin 4) (s : State) : OutKeeps s (execPush hub s) := by
  unfold execPush
  repeat' first
    | with_reducible exact .refl _ | with_reducible assumption | with_reducible intro s | with_reducible apply OutKeeps.refused
    | with_reducible apply OutKeeps.ite | with_reducible apply OutKeeps.next | with_reducible apply Keeps.after (State.actPush_keeps _ _)
    | with_reducible apply Keeps.ite | split

theorem execCommit_keeps (hub : Fin 4) (s : State) : OutKeeps s (execCommit hub s) := by
  unfold execCommit
  repeat' first
    | with_reducible exact .refl _ | with_reducible assumption | with_reducible intro s | with_reducible apply OutKeeps.refused
    | with_reducible apply OutKeeps.ite | with_reducible apply OutKeeps.next | with_reducible apply Keeps.after (State.startCommit_keeps _ _ _)
    | with_reducible apply Keeps.ite | split

theorem State.toReset_keeps (cause : Nat) (s : State) : Keeps s (State.toReset cause s) := by
  have h := State.stopTest_keeps s
  exact ⟨fun _ => rfl, h.pending, h.fuses⟩

theorem State.resetDue_keeps (s : State) : Keeps s (State.resetDue s) := by
  unfold State.resetDue
  repeat' first
    | with_reducible exact .refl _ | with_reducible assumption | with_reducible intro s | with_reducible apply Keeps.after (State.toReset_keeps _ _)
    | with_reducible apply Keeps.ite | split

theorem execBbCommitted_keeps (hub : Fin 4) (s : State) : OutKeeps s (execBbCommitted hub s) := by
  unfold execBbCommitted
  repeat' first
    | with_reducible exact .refl _ | with_reducible assumption | with_reducible intro s | with_reducible apply OutKeeps.refused
    | with_reducible apply OutKeeps.ite
    | (extract_lets +onlyGivenNames x; refine (have hx : Keeps s x := ?_; ?_); rotate_left; clear_value x; rotate_right)
    | (extract_lets +onlyGivenNames x; clear_value x) | subst x | with_reducible apply OutKeeps.next | with_reducible apply Keeps.ite | split
    | with_reducible apply Keeps.after (State.resetDue_keeps _) | with_reducible apply Keeps.after (State.flagCount_keeps _ _ _ _)
    | with_reducible apply Keeps.after (State.takeFree_keeps _) | with_reducible apply Keeps.after (State.onHub_keeps _ _ _)
    | with_reducible apply Keeps.after (State.wr_keeps _ _ _ _) | with_reducible apply Keeps.ite
    | (with_reducible apply Keeps.nv; rotate_left; rfl; rfl; rfl; rfl; rfl)
    | with_reducible refine Keeps.after (State.takeFree_eq (by with_reducible assumption)) ?_

theorem State.fatal_keeps (h : Nat) (r : Report) (s : State) : Keeps s (State.fatal h r s) := by
  unfold State.fatal
  repeat' first
    | with_reducible exact .refl _ | with_reducible assumption | with_reducible intro s
    | (extract_lets +onlyGivenNames x; refine (have hx : Keeps s x := ?_; ?_); rotate_left; clear_value x; rotate_right)
    | (extract_lets +onlyGivenNames x; clear_value x) | subst x | with_reducible apply Keeps.after (State.reportSevere_keeps _ _ _ _)
    | with_reducible apply Keeps.after (State.startCommit_keeps _ _ _) | with_reducible apply Keeps.after (State.stopTest_keeps _)
    | with_reducible apply Keeps.after (State.raise_keeps _ _ _) | with_reducible apply Keeps.after (State.wr_keeps _ _ _ _)
    | with_reducible apply Keeps.ite | (with_reducible apply Keeps.each; intro _ s) | split

theorem execSecurityParityFailure_keeps (hub : Fin 4) (detail : Nat) (s : State) : OutKeeps s (execSecurityParityFailure hub detail s) := by
  unfold execSecurityParityFailure
  repeat' first
    | with_reducible exact .refl _ | with_reducible assumption | with_reducible intro s | with_reducible apply OutKeeps.refused
    | with_reducible apply OutKeeps.ite | with_reducible apply OutKeeps.next | with_reducible apply Keeps.after (State.fatal_keeps _ _ _)
    | with_reducible apply Keeps.ite | split

theorem execInputOvervoltage_keeps (mv : Nat) (s : State) : OutKeeps s (execInputOvervoltage mv s) := by
  unfold execInputOvervoltage
  repeat' first
    | with_reducible exact .refl _ | with_reducible assumption | with_reducible intro s | with_reducible apply OutKeeps.refused
    | with_reducible apply OutKeeps.ite | with_reducible apply OutKeeps.next | with_reducible apply Keeps.after (State.fatal_keeps _ _ _)
    | with_reducible apply Keeps.after (State.wr_keeps _ _ _ _) | with_reducible apply Keeps.ite | split

theorem execRailFault_keeps (hub : Fin 4) (rail : Nat) (s : State) : OutKeeps s (execRailFault hub rail s) := by
  unfold execRailFault
  repeat' first
    | with_reducible exact .refl _ | with_reducible assumption | with_reducible intro s | with_reducible apply OutKeeps.refused
    | with_reducible apply OutKeeps.ite | with_reducible apply OutKeeps.next | with_reducible apply Keeps.after (State.fatal_keeps _ _ _)
    | with_reducible apply Keeps.ite | split

/-! ### Conv -/

theorem State.setRepairStat_keeps (p : Nat) (s : State) : Keeps s (State.setRepairStat p s) := by
  unfold State.setRepairStat
  repeat' first
    | with_reducible exact .refl _ | with_reducible assumption | with_reducible intro s
    | (extract_lets +onlyGivenNames x; refine (have hx : Keeps s x := ?_; ?_); rotate_left; clear_value x; rotate_right)
    | (extract_lets +onlyGivenNames x; clear_value x) | subst x | with_reducible apply Keeps.after (State.wrB_keeps _ _ _ _)
    | with_reducible apply Keeps.after (State.wr_keeps _ _ _ _) | with_reducible apply Keeps.ite | (with_reducible apply Keeps.foldl; intro s _)
    | split

theorem State.releaseVerdict_keeps (p k array : Nat) (s : State) : Keeps s (State.releaseVerdict p k array s) := by
  unfold State.releaseVerdict
  repeat' first
    | with_reducible exact .refl _ | with_reducible assumption | with_reducible intro s | with_reducible apply Keeps.after (State.onPart_keeps _ _ _)
    | with_reducible apply Keeps.ite | split

theorem State.liftMask_keeps (p k array : Nat) (s : State) : Keeps s (State.liftMask p k array s) := by
  unfold State.liftMask
  repeat' first
    | with_reducible exact .refl _ | with_reducible assumption | with_reducible intro s
    | (extract_lets +onlyGivenNames x; refine (have hx : Keeps s x := ?_; ?_); rotate_left; clear_value x; rotate_right)
    | (extract_lets +onlyGivenNames x; clear_value x) | subst x | with_reducible apply Keeps.after (State.releaseVerdict_keeps _ _ _ _)
    | with_reducible apply Keeps.after (State.setRepairStat_keeps _ _) | with_reducible apply Keeps.after (State.pruneReads_keeps _ _)
    | with_reducible apply Keeps.after (State.onPart_keeps _ _ _) | with_reducible apply Keeps.after (State.onStk_keeps _ _ _)
    | with_reducible apply Keeps.ite | split

theorem State.liftSubstituted_keeps (k : Nat) (old : AMap Nat) (s : State) : Keeps s (State.liftSubstituted k old s) := by
  unfold State.liftSubstituted
  repeat' first
    | with_reducible exact .refl _ | with_reducible assumption | with_reducible intro s
    | (extract_lets +onlyGivenNames x; refine (have hx : Keeps s x := ?_; ?_); rotate_left; clear_value x; rotate_right)
    | (extract_lets +onlyGivenNames x; clear_value x) | subst x | with_reducible apply Keeps.ite | split
    | with_reducible apply Keeps.after (State.liftMask_keeps _ _ _ _) | with_reducible apply Keeps.ite | (with_reducible apply Keeps.each; intro _ s)

theorem State.mapExchange_keeps (k : Nat) (s : State) : Keeps s (State.mapExchange k s) := by
  unfold State.mapExchange
  repeat' first
    | with_reducible exact .refl _ | with_reducible assumption | with_reducible intro s
    | (extract_lets +onlyGivenNames x; refine (have hx : Keeps s x := ?_; ?_); rotate_left; clear_value x; rotate_right)
    | (extract_lets +onlyGivenNames x; clear_value x) | subst x | with_reducible apply Keeps.after (State.liftSubstituted_keeps _ _ _)
    | with_reducible apply Keeps.after (State.onStk_keeps _ _ _) | with_reducible apply Keeps.after (State.refuseWrite_keeps _ _ _)
    | with_reducible apply Keeps.after (State.raise_keeps _ _ _) | with_reducible apply Keeps.ite | split

theorem State.actMapSwap_keeps (k : Nat) (s : State) : Keeps s (State.actMapSwap k s) := by
  unfold State.actMapSwap
  repeat' first
    | with_reducible exact .refl _ | with_reducible assumption | with_reducible intro s
    | with_reducible apply Keeps.after (State.mapExchange_keeps _ _) | with_reducible apply Keeps.after (State.onStk_keeps _ _ _)
    | with_reducible apply Keeps.ite | split

theorem execMapSwap_keeps (stack : Fin 12) (s : State) : OutKeeps s (execMapSwap stack s) := by
  unfold execMapSwap
  repeat' first
    | with_reducible exact .refl _ | with_reducible assumption | with_reducible intro s | with_reducible apply OutKeeps.refused
    | with_reducible apply OutKeeps.ite | with_reducible apply OutKeeps.next | with_reducible apply Keeps.after (State.actMapSwap_keeps _ _)
    | with_reducible apply Keeps.ite | split

theorem execAfdCap_keeps (stack : Fin 12) (cap : Fin 512) (s : State) : OutKeeps s (execAfdCap stack cap s) := by
  unfold execAfdCap
  repeat' first
    | with_reducible exact .refl _ | with_reducible assumption | with_reducible intro s | with_reducible apply OutKeeps.refused
    | with_reducible apply OutKeeps.ite | with_reducible apply OutKeeps.next | with_reducible apply Keeps.after (State.wr_keeps _ _ _ _)
    | with_reducible apply Keeps.ite | split

theorem State.failNote_keeps (k phys : Nat) (isRef : Bool) (s : State) : Keeps s (State.failNote k phys isRef s) := by
  unfold State.failNote
  repeat' first
    | with_reducible exact .refl _ | with_reducible assumption | with_reducible intro s
    | (extract_lets +onlyGivenNames x; refine (have hx : Keeps s x := ?_; ?_); rotate_left; clear_value x; rotate_right)
    | (extract_lets +onlyGivenNames x; clear_value x) | subst x | with_reducible apply Keeps.ite | split
    | with_reducible apply Keeps.after (State.verdictPermanent_keeps _ _ _ _) | with_reducible apply Keeps.after (State.flagCount_keeps _ _ _ _)
    | with_reducible apply Keeps.after (State.takeFree_keeps _) | with_reducible apply Keeps.after (State.onStk_keeps _ _ _)
    | with_reducible apply Keeps.after (State.raise_keeps _ _ _) | with_reducible apply Keeps.ite | (with_reducible apply Keeps.whenB; intro s)
    | with_reducible refine Keeps.after (State.takeFree_eq (by with_reducible assumption)) ?_ | with_reducible apply Keeps.other

theorem State.failConv_keeps (k key : Nat) (s : State) : Keeps s (State.failConv k key s) := by
  unfold State.failConv
  repeat' first
    | with_reducible exact .refl _ | with_reducible assumption | with_reducible intro s
    | with_reducible apply Keeps.after (State.failNote_keeps _ _ _ _) | with_reducible apply Keeps.after (State.onStk_keeps _ _ _)
    | with_reducible apply Keeps.after (State.raise_keeps _ _ _) | with_reducible apply Keeps.ite | split

theorem State.failGroup_keeps (k g : Nat) (but : List Nat) (s : State) : Keeps s (State.failGroup k g but s) := by
  unfold State.failGroup
  repeat' first
    | with_reducible exact .refl _ | with_reducible assumption | with_reducible intro s
    | (extract_lets +onlyGivenNames x; refine (have hx : Keeps s x := ?_; ?_); rotate_left; clear_value x; rotate_right)
    | (extract_lets +onlyGivenNames x; clear_value x) | subst x | with_reducible apply Keeps.ite | split
    | with_reducible apply Keeps.after (State.failNote_keeps _ _ _ _) | with_reducible apply Keeps.after (State.onStk_keeps _ _ _)
    | with_reducible apply Keeps.after (State.raise_keeps _ _ _) | with_reducible apply Keeps.ite | (with_reducible apply Keeps.each; intro _ s)
    | (with_reducible apply Keeps.whenB; intro s)

theorem State.exchangeTrims_keeps (k : Nat) (tiles : List Nat) (s : State) : Keeps s (State.exchangeTrims k tiles s) := by
  unfold State.exchangeTrims
  repeat' first
    | with_reducible exact .refl _ | with_reducible assumption | with_reducible intro s
    | (extract_lets +onlyGivenNames x; refine (have hx : Keeps s x := ?_; ?_); rotate_left; clear_value x; rotate_right)
    | (extract_lets +onlyGivenNames x; clear_value x) | subst x | with_reducible apply Keeps.after (State.failGroup_keeps _ _ _ _)
    | with_reducible apply Keeps.after (State.failConv_keeps _ _ _) | with_reducible apply Keeps.after (State.onStk_keeps _ _ _)
    | with_reducible apply Keeps.after (State.raise_keeps _ _ _) | with_reducible apply Keeps.ite | (with_reducible apply Keeps.foldl; intro s _)
    | (with_reducible apply Keeps.each; intro _ s) | split

theorem State.actTrimSwap_keeps (k : Nat) (s : State) : Keeps s (State.actTrimSwap k s) := by
  unfold State.actTrimSwap
  repeat' first
    | with_reducible exact .refl _ | with_reducible assumption | with_reducible intro s
    | with_reducible apply Keeps.after (State.exchangeTrims_keeps _ _ _) | with_reducible apply Keeps.after (State.onStk_keeps _ _ _)
    | with_reducible apply Keeps.ite | split

theorem execTrimSwap_keeps (stack : Fin 12) (s : State) : OutKeeps s (execTrimSwap stack s) := by
  unfold execTrimSwap
  repeat' first
    | with_reducible exact .refl _ | with_reducible assumption | with_reducible intro s | with_reducible apply OutKeeps.refused
    | with_reducible apply OutKeeps.ite | with_reducible apply OutKeeps.next | with_reducible apply Keeps.after (State.actTrimSwap_keeps _ _)
    | with_reducible apply Keeps.ite | split

theorem State.actSelfcal_keeps (k : Nat) (tileScope : Bool) (s : State) : Keeps s (State.actSelfcal k tileScope s) := by
  unfold State.actSelfcal
  repeat' first
    | with_reducible exact .refl _ | with_reducible assumption | with_reducible intro s
    | (extract_lets +onlyGivenNames x; refine (have hx : Keeps s x := ?_; ?_); rotate_left; clear_value x; rotate_right)
    | (extract_lets +onlyGivenNames x; clear_value x) | subst x | with_reducible apply Keeps.after (State.onStk_keeps _ _ _)
    | with_reducible apply Keeps.after (State.refuseWrite_keeps _ _ _) | with_reducible apply Keeps.after (State.wr_keeps _ _ _ _)
    | with_reducible apply Keeps.ite | split

theorem execStackSelfcal_keeps (stack : Fin 12) (s : State) : OutKeeps s (execStackSelfcal stack s) := by
  unfold execStackSelfcal
  repeat' first
    | with_reducible exact .refl _ | with_reducible assumption | with_reducible intro s | with_reducible apply OutKeeps.refused
    | with_reducible apply OutKeeps.ite | with_reducible apply OutKeeps.next | with_reducible apply Keeps.after (State.actSelfcal_keeps _ _ _)
    | with_reducible apply Keeps.ite | split

theorem execTileSelfcal_keeps (stack : Fin 12) (s : State) : OutKeeps s (execTileSelfcal stack s) := by
  unfold execTileSelfcal
  repeat' first
    | with_reducible exact .refl _ | with_reducible assumption | with_reducible intro s | with_reducible apply OutKeeps.refused
    | with_reducible apply OutKeeps.ite | with_reducible apply OutKeeps.next | with_reducible apply Keeps.after (State.actSelfcal_keeps _ _ _)
    | with_reducible apply Keeps.ite | split

theorem State.freshTrims_keeps (k : Nat) (groups : List Nat) (s : State) : Keeps s (State.freshTrims k groups s) := by
  unfold State.freshTrims
  repeat' first
    | with_reducible exact .refl _ | with_reducible assumption | with_reducible intro s
    | (extract_lets +onlyGivenNames x; refine (have hx : Keeps s x := ?_; ?_); rotate_left; clear_value x; rotate_right)
    | (extract_lets +onlyGivenNames x; clear_value x) | subst x | with_reducible apply Keeps.ite | split
    | with_reducible apply Keeps.after (State.takeDraw_keeps _) | with_reducible apply Keeps.after (State.onStk_keeps _ _ _)
    | with_reducible apply Keeps.ite | (with_reducible apply Keeps.foldl; intro s _)
    | with_reducible refine Keeps.after (State.takeDraw_eq (by with_reducible assumption)) ?_

theorem State.selfcalResults_keeps (k : Nat) (covers : Nat → Bool) (trims : List (Nat × Nat)) (bad : List Nat) (s : State) : Keeps s (State.selfcalResults k covers trims bad s) := by
  unfold State.selfcalResults
  repeat' first
    | with_reducible exact .refl _ | with_reducible assumption | with_reducible intro s
    | (extract_lets +onlyGivenNames x; refine (have hx : Keeps s x := ?_; ?_); rotate_left; clear_value x; rotate_right)
    | (extract_lets +onlyGivenNames x; clear_value x) | subst x | with_reducible apply Keeps.after (State.failConv_keeps _ _ _)
    | with_reducible apply Keeps.after (State.onStk_keeps _ _ _) | with_reducible apply Keeps.ite | (with_reducible apply Keeps.foldl; intro s _)
    | (with_reducible apply Keeps.each; intro _ s) | split

theorem State.foldArray_keeps (k phys : Nat) (refs : List (Nat × List Int)) (draw : Nat) (s : State) : Keeps s ((State.foldArray k phys refs draw s).1) := by
  unfold State.foldArray
  repeat' first
    | with_reducible exact .refl _ | with_reducible assumption | with_reducible intro s
    | (extract_lets +onlyGivenNames x; refine (have hx : Keeps s x := ?_; ?_); rotate_left; clear_value x; rotate_right)
    | (extract_lets +onlyGivenNames x; clear_value x) | subst x | with_reducible apply Keeps.after (State.draw_keeps _ _ _ _ _ _ _)
    | with_reducible apply Keeps.after (State.flagCount_keeps _ _ _ _) | with_reducible apply Keeps.after (State.onStk_keeps _ _ _)
    | with_reducible apply Keeps.ite | (with_reducible apply Keeps.foldl; intro s _)
    | with_reducible refine Keeps.after (State.draw_eq (by with_reducible assumption)) ?_ | split
theorem State.foldArray_eq {k phys : Nat} {refs : List (Nat × List Int)} {draw : Nat} {s : State} {v : Bool} {u : State} (heq : State.foldArray k phys refs draw s = (u, v)) : Keeps s u := by
  have := State.foldArray_keeps k phys refs draw s
  rwa [heq] at this

/-- A draw unless a condition holds. -/
theorem Keeps.unlessDraw {s u : State} {c : Prop} [Decidable c] {w v : Nat} (h : (if c then (w, s) else s.takeDraw) = (v, u)) : Keeps s u := by
  split at h
  · obtain ⟨-, rfl⟩ := Prod.mk.injEq .. ▸ h
    exact .refl _
  · obtain ⟨-, rfl⟩ := Prod.mk.injEq .. ▸ h
    exact ⟨id, rfl, .refl _⟩

theorem State.sweepTile_keeps (k tile : Nat) (refs : List (Nat × List Int)) (s : State) : Keeps s (State.sweepTile k tile refs s) := by
  unfold State.sweepTile
  extract_lets masked arrays
  split
  next heq =>
  extract_lets r
  have h : Keeps s r.1 := Keeps.foldlFst _ (fun b x => State.foldArray_keeps ..) (State.takeDraw_eq heq)
  exact (State.onStk_keeps ..).after h

theorem State.adoptTile_keeps (k tile temp : Nat) (s : State) : Keeps s (State.adoptTile k tile temp s) := by
  unfold State.adoptTile
  repeat' first
    | with_reducible exact .refl _ | with_reducible assumption | with_reducible intro s
    | (extract_lets +onlyGivenNames x; refine (have hx : Keeps s x := ?_; ?_); rotate_left; clear_value x; rotate_right)
    | (extract_lets +onlyGivenNames x; clear_value x) | subst x | with_reducible apply Keeps.after (State.exchangeTrims_keeps _ _ _)
    | with_reducible apply Keeps.after (State.onStk_keeps _ _ _) | with_reducible apply Keeps.ite | (with_reducible apply Keeps.foldl; intro s _)
    | split

theorem State.calAdopt_keeps (k tile : Nat) (s : State) : Keeps s (State.calAdopt k tile s) := by
  unfold State.calAdopt
  repeat' first
    | with_reducible exact .refl _ | with_reducible assumption | with_reducible intro s
    | (extract_lets +onlyGivenNames x; refine (have hx : Keeps s x := ?_; ?_); rotate_left; clear_value x; rotate_right)
    | (extract_lets +onlyGivenNames x; clear_value x) | subst x | with_reducible apply Keeps.after (State.adoptTile_keeps _ _ _ _)
    | with_reducible apply Keeps.after (State.flagCount_keeps _ _ _ _) | with_reducible apply Keeps.after (State.onStk_keeps _ _ _)
    | with_reducible apply Keeps.ite | split

theorem State.adoptAll_keeps (k : Nat) (s : State) : Keeps s (State.adoptAll k s) := by
  unfold State.adoptAll
  repeat' first
    | with_reducible exact .refl _ | with_reducible assumption | with_reducible intro s
    | with_reducible apply Keeps.after (State.calAdopt_keeps _ _ _) | with_reducible apply Keeps.after (State.onStk_keeps _ _ _)
    | with_reducible apply Keeps.ite | (with_reducible apply Keeps.each; intro _ s) | split

theorem State.windowEnded_keeps (k : Nat) (s : State) : Keeps s (State.windowEnded k s) := by
  unfold State.windowEnded
  repeat' first
    | with_reducible exact .refl _ | with_reducible assumption | with_reducible intro s | with_reducible apply Keeps.after (State.adoptAll_keeps _ _)
    | with_reducible apply Keeps.ite | (with_reducible apply Keeps.whenB; intro s) | split

theorem State.stackCalDone_keeps (k : Nat) (refs : List (Nat × List Int)) (s : State) : Keeps s (State.stackCalDone k refs s) := by
  unfold State.stackCalDone
  repeat' first
    | with_reducible exact .refl _ | with_reducible assumption | with_reducible intro s
    | (extract_lets +onlyGivenNames x; refine (have hx : Keeps s x := ?_; ?_); rotate_left; clear_value x; rotate_right)
    | (extract_lets +onlyGivenNames x; clear_value x) | subst x | with_reducible apply Keeps.after (State.sweepTile_keeps _ _ _ _)
    | with_reducible apply Keeps.after (State.exchangeTrims_keeps _ _ _) | with_reducible apply Keeps.after (State.onStk_keeps _ _ _)
    | with_reducible apply Keeps.after (State.wr_keeps _ _ _ _) | with_reducible apply Keeps.ite | (with_reducible apply Keeps.foldl; intro s _)
    | (with_reducible apply Keeps.each; intro _ s) | split

theorem execSelfcalComplete_keeps (stack : Fin 12) (trims : List (Nat × Nat)) (bad : List Nat) (refs : List (Nat × List Int)) (s : State) :
    OutKeeps s (execSelfcalComplete stack trims bad refs s) := by
  unfold execSelfcalComplete
  extract_lets k finish
  have hf : ∀ u, Keeps u (finish u) := fun u => (State.raise_keeps ..).after ((State.wr_keeps ..).after (State.onStk_keeps ..))
  clear_value finish
  split
  · exact .next (.refl _)
  · apply OutKeeps.ite
    · exact .next (.refl _)
    · exact .next ((hf _).after ((State.stackCalDone_keeps ..).after ((State.selfcalResults_keeps ..).after (State.freshTrims_keeps ..))))
  · extract_lets u
    have hu : Keeps s u := (hf _).after ((State.selfcalResults_keeps ..).after (State.freshTrims_keeps ..))
    apply OutKeeps.ite
    · exact .next ((State.exchangeTrims_keeps ..).after hu)
    · exact .next ((State.onStk_keeps ..).after hu)

/-! ### Power -/

theorem State.onPwr_keeps (f : PwrSt → PwrSt) (s : State) : Keeps s (State.onPwr f s) := by
  unfold State.onPwr
  repeat' first
    | with_reducible exact .refl _ | with_reducible assumption | with_reducible intro s | with_reducible apply Keeps.ite
    | with_reducible apply Keeps.other | split

theorem State.setTransition_keeps (s : State) : Keeps s (State.setTransition s) := by
  unfold State.setTransition
  repeat' first
    | with_reducible exact .refl _ | with_reducible assumption | with_reducible intro s | with_reducible apply Keeps.after (State.wrB_keeps _ _ _ _)
    | with_reducible apply Keeps.ite | split

theorem State.stateReport_keeps (h parts : Nat) (s : State) : Keeps s (State.stateReport h parts s) := by
  unfold State.stateReport
  repeat' first
    | with_reducible exact .refl _ | with_reducible assumption | with_reducible intro s | with_reducible apply Keeps.after (State.report_keeps _ _ _)
    | with_reducible apply Keeps.ite | split

theorem State.unlock_keeps (d : Nat) (s : State) : Keeps s (State.unlock d s) := by
  unfold State.unlock
  repeat' first
    | with_reducible exact .refl _ | with_reducible assumption | with_reducible intro s
    | (extract_lets +onlyGivenNames x; refine (have hx : Keeps s x := ?_; ?_); rotate_left; clear_value x; rotate_right)
    | (extract_lets +onlyGivenNames x; clear_value x) | subst x | with_reducible apply Keeps.after (State.report_keeps _ _ _)
    | with_reducible apply Keeps.after (State.raise_keeps _ _ _) | with_reducible apply Keeps.after (State.wr_keeps _ _ _ _)
    | with_reducible apply Keeps.ite | (with_reducible apply Keeps.each; intro _ s) | split

/-- A free value drawn unless a condition holds. -/
theorem Keeps.unlessFree {s u : State} {c : Prop} [Decidable c] {w v : Nat} (h : (if c then (w, s) else s.takeFree) = (v, u)) : Keeps s u := by
  split at h
  · obtain ⟨-, rfl⟩ := Prod.mk.injEq .. ▸ h
    exact .refl _
  · obtain ⟨-, rfl⟩ := Prod.mk.injEq .. ▸ h
    exact ⟨id, rfl, .refl _⟩

theorem State.window_keeps (d c : Nat) (s : State) : Keeps s (State.window d c s) := by
  unfold State.window
  apply Keeps.ite
  · exact (State.wr_keeps ..).after ((State.wr_keeps ..).after ((State.onPwr_keeps ..).after (Keeps.each _ (fun _ _ => State.wr_keeps ..) (.refl _))))
  extract_lets t v lock run unl u
  split
  next heq =>
  extract_lets w
  refine Keeps.whenB (fun _ => State.unlock_keeps ..) ?_
  exact (State.wrB_keeps ..).after ((State.wr_keeps ..).after ((Keeps.unlessFree heq).after (State.onPwr_keeps ..)))

theorem State.judgeLock_keeps (p : Nat) (s : State) : Keeps s (State.judgeLock p s) := by
  unfold State.judgeLock
  repeat' first
    | with_reducible exact .refl _ | with_reducible assumption | with_reducible intro s | with_reducible apply Keeps.after (State.onStep_keeps _ _ _)
    | with_reducible apply Keeps.after (State.wr_keeps _ _ _ _) | with_reducible apply Keeps.ite | split

theorem execPaceWindow_keeps (counts : List Nat) (s : State) : OutKeeps s (execPaceWindow counts s) := by
  unfold execPaceWindow
  repeat' first
    | with_reducible exact .refl _ | with_reducible assumption | with_reducible intro s | with_reducible apply OutKeeps.refused
    | with_reducible apply OutKeeps.ite
    | (extract_lets +onlyGivenNames x; refine (have hx : Keeps s x := ?_; ?_); rotate_left; clear_value x; rotate_right)
    | (extract_lets +onlyGivenNames x; clear_value x) | subst x | with_reducible apply OutKeeps.next
    | with_reducible apply Keeps.after (State.judgeLock_keeps _ _) | with_reducible apply Keeps.after (State.window_keeps _ _ _)
    | with_reducible apply Keeps.ite | (with_reducible apply Keeps.each; intro _ s) | split

theorem State.abortStep_keeps (p : Nat) (s : State) : Keeps s (State.abortStep p s) := by
  unfold State.abortStep
  repeat' first
    | with_reducible exact .refl _ | with_reducible assumption | with_reducible intro s
    | (extract_lets +onlyGivenNames x; refine (have hx : Keeps s x := ?_; ?_); rotate_left; clear_value x; rotate_right)
    | (extract_lets +onlyGivenNames x; clear_value x) | subst x | with_reducible apply Keeps.ite | split
    | with_reducible apply Keeps.after (State.withdraw_keeps _ _ _) | with_reducible apply Keeps.after (State.drainInbox_keeps _ _ _)
    | with_reducible apply Keeps.after (State.freeHamper_keeps _ _ _) | with_reducible apply Keeps.after (State.releaseCand_keeps _ _ _)
    | with_reducible apply Keeps.after (State.stopWork_keeps _ _) | with_reducible apply Keeps.after (State.onPart_keeps _ _ _)
    | with_reducible apply Keeps.ite | (with_reducible apply Keeps.each; intro _ s) | with_reducible apply Keeps.other

theorem State.quietStack_keeps (k : Nat) (s : State) : Keeps s (State.quietStack k s) := by
  unfold State.quietStack
  repeat' first
    | with_reducible exact .refl _ | with_reducible assumption | with_reducible intro s | with_reducible apply Keeps.after (State.adoptAll_keeps _ _)
    | with_reducible apply Keeps.after (State.setStackState_keeps _ _ _) | with_reducible apply Keeps.after (State.onStk_keeps _ _ _)
    | with_reducible apply Keeps.ite | split

theorem State.enterQuiet_keeps (p : Nat) (s : State) : Keeps s (State.enterQuiet p s) := by
  unfold State.enterQuiet
  repeat' first
    | with_reducible exact .refl _ | with_reducible assumption | with_reducible intro s
    | (extract_lets +onlyGivenNames x; refine (have hx : Keeps s x := ?_; ?_); rotate_left; clear_value x; rotate_right)
    | (extract_lets +onlyGivenNames x; clear_value x) | subst x | with_reducible apply Keeps.after (State.quietStack_keeps _ _)
    | with_reducible apply Keeps.after (State.stateReport_keeps _ _ _) | with_reducible apply Keeps.after (State.setTransition_keeps _)
    | with_reducible apply Keeps.after (State.onPwr_keeps _ _) | with_reducible apply Keeps.after (State.setPartState_keeps _ _ _)
    | with_reducible apply Keeps.after (State.onPart_keeps _ _ _) | with_reducible apply Keeps.after (State.raise_keeps _ _ _)
    | with_reducible apply Keeps.ite | (with_reducible apply Keeps.each; intro _ s) | split

theorem State.toQuiet_keeps (p : Nat) (s : State) : Keeps s (State.toQuiet p s) := by
  unfold State.toQuiet
  repeat' first
    | with_reducible exact .refl _ | with_reducible assumption | with_reducible intro s
    | (extract_lets +onlyGivenNames x; refine (have hx : Keeps s x := ?_; ?_); rotate_left; clear_value x; rotate_right)
    | (extract_lets +onlyGivenNames x; clear_value x) | subst x | with_reducible apply Keeps.ite | split
    | with_reducible apply Keeps.after (State.enterQuiet_keeps _ _) | with_reducible apply Keeps.after (State.abortStep_keeps _ _)
    | with_reducible apply Keeps.after (State.onPart_keeps _ _ _) | with_reducible apply Keeps.after (State.onStk_keeps _ _ _)
    | with_reducible apply Keeps.ite | (with_reducible apply Keeps.each; intro _ s) | with_reducible apply Keeps.other

theorem State.refuseState_keeps (s : State) : Keeps s (State.refuseState s) := by
  unfold State.refuseState
  repeat' first
    | with_reducible exact .refl _ | with_reducible assumption | with_reducible intro s | with_reducible apply Keeps.after (State.raise_keeps _ _ _)
    | with_reducible apply Keeps.ite | split

theorem State.actQuiet_keeps (s : State) : Keeps s (State.actQuiet s) := by
  unfold State.actQuiet
  repeat' first
    | with_reducible exact .refl _ | with_reducible assumption | with_reducible intro s | with_reducible apply Keeps.ite | split
    | with_reducible apply Keeps.after (State.enterQuiet_keeps _ _) | with_reducible apply Keeps.after (State.onPart_keeps _ _ _)
    | with_reducible apply Keeps.ite | with_reducible apply Keeps.other

theorem execQuiet_keeps (s : State) : OutKeeps s (execQuiet s) := by
  unfold execQuiet
  repeat' first
    | with_reducible exact .refl _ | with_reducible assumption | with_reducible intro s | with_reducible apply OutKeeps.refused
    | with_reducible apply OutKeeps.ite | with_reducible apply OutKeeps.next | with_reducible apply Keeps.after (State.actQuiet_keeps _)
    | with_reducible apply Keeps.ite | split

theorem State.actActive_keeps (s : State) : Keeps s (State.actActive s) := by
  unfold State.actActive
  repeat' first
    | with_reducible exact .refl _ | with_reducible assumption | with_reducible intro s
    | (extract_lets +onlyGivenNames x; refine (have hx : Keeps s x := ?_; ?_); rotate_left; clear_value x; rotate_right)
    | (extract_lets +onlyGivenNames x; clear_value x) | subst x | with_reducible apply Keeps.ite | split
    | with_reducible apply Keeps.after (State.refuseState_keeps _) | with_reducible apply Keeps.after (State.setTransition_keeps _)
    | with_reducible apply Keeps.after (State.onPwr_keeps _ _) | with_reducible apply Keeps.after (State.stopTest_keeps _)
    | with_reducible apply Keeps.ite | (with_reducible apply Keeps.whenB; intro s) | with_reducible apply Keeps.other

theorem execActive_keeps (s : State) : OutKeeps s (execActive s) := by
  unfold execActive
  repeat' first
    | with_reducible exact .refl _ | with_reducible assumption | with_reducible intro s | with_reducible apply OutKeeps.refused
    | with_reducible apply OutKeeps.ite | with_reducible apply OutKeeps.next | with_reducible apply Keeps.after (State.actActive_keeps _)
    | with_reducible apply Keeps.ite | split

theorem State.activeDone_keeps (p : Nat) (s : State) : Keeps s (State.activeDone p s) := by
  unfold State.activeDone
  repeat' first
    | with_reducible exact .refl _ | with_reducible assumption | with_reducible intro s
    | (extract_lets +onlyGivenNames x; refine (have hx : Keeps s x := ?_; ?_); rotate_left; clear_value x; rotate_right)
    | (extract_lets +onlyGivenNames x; clear_value x) | subst x | with_reducible apply Keeps.after (State.stateReport_keeps _ _ _)
    | with_reducible apply Keeps.after (State.setTransition_keeps _) | with_reducible apply Keeps.after (State.onPwr_keeps _ _)
    | with_reducible apply Keeps.after (State.setStackState_keeps _ _ _) | with_reducible apply Keeps.after (State.setPartState_keeps _ _ _)
    | with_reducible apply Keeps.after (State.onStk_keeps _ _ _) | with_reducible apply Keeps.after (State.raise_keeps _ _ _)
    | with_reducible apply Keeps.ite | (with_reducible apply Keeps.each; intro _ s) | split

theorem State.limiter_keeps (w : Nat) (s : State) : Keeps s (State.limiter w s) := by
  unfold State.limiter
  repeat' first
    | with_reducible exact .refl _ | with_reducible assumption | with_reducible intro s
    | (extract_lets +onlyGivenNames x; refine (have hx : Keeps s x := ?_; ?_); rotate_left; clear_value x; rotate_right)
    | (extract_lets +onlyGivenNames x; clear_value x) | subst x | with_reducible apply Keeps.after (State.onPwr_keeps _ _)
    | with_reducible apply Keeps.after (State.count_keeps _ _ _) | with_reducible apply Keeps.after (State.raise_keeps _ _ _)
    | with_reducible apply Keeps.after (State.wrB_keeps _ _ _ _) | with_reducible apply Keeps.after (State.wr_keeps _ _ _ _)
    | with_reducible apply Keeps.ite | split

theorem State.overLimit_keeps (s : State) : Keeps s (State.overLimit s) := by
  unfold State.overLimit
  repeat' first
    | with_reducible exact .refl _ | with_reducible assumption | with_reducible intro s
    | (extract_lets +onlyGivenNames x; refine (have hx : Keeps s x := ?_; ?_); rotate_left; clear_value x; rotate_right)
    | (extract_lets +onlyGivenNames x; clear_value x) | subst x | with_reducible apply Keeps.after (State.toQuiet_keeps _ _)
    | with_reducible apply Keeps.after (State.stateReport_keeps _ _ _) | with_reducible apply Keeps.after (State.raise_keeps _ _ _)
    | with_reducible apply Keeps.ite | (with_reducible apply Keeps.each; intro _ s) | split

theorem execLimiterPeriod_keeps (watts mv ma : Nat) (s : State) : OutKeeps s (execLimiterPeriod watts mv ma s) := by
  unfold execLimiterPeriod
  repeat' first
    | with_reducible exact .refl _ | with_reducible assumption | with_reducible intro s | with_reducible apply OutKeeps.refused
    | with_reducible apply OutKeeps.ite
    | (extract_lets +onlyGivenNames x; refine (have hx : Keeps s x := ?_; ?_); rotate_left; clear_value x; rotate_right)
    | (extract_lets +onlyGivenNames x; clear_value x) | subst x | with_reducible apply OutKeeps.next
    | with_reducible apply Keeps.after (State.overLimit_keeps _) | with_reducible apply Keeps.after (State.limiter_keeps _ _)
    | with_reducible apply Keeps.after (State.onPwr_keeps _ _) | with_reducible apply Keeps.after (State.bump_keeps _ _ _ _)
    | with_reducible apply Keeps.after (State.wr_keeps _ _ _ _) | with_reducible apply Keeps.ite | split

/-! ### Thermal -/

theorem State.setLevel_keeps (h : Nat) (d : Dom) (v : Nat) (s : State) : Keeps s (State.setLevel h d v s) := by
  unfold State.setLevel
  repeat' first
    | with_reducible exact .refl _ | with_reducible assumption | with_reducible intro s | with_reducible apply Keeps.ite | split
    | with_reducible apply Keeps.after (State.wr_keeps _ _ _ _) | with_reducible apply Keeps.ite

theorem State.thermalReport_keeps (h : Nat) (d : Dom) (sev : Nat) (s : State) : Keeps s (State.thermalReport h d sev s) := by
  unfold State.thermalReport
  repeat' first
    | with_reducible exact .refl _ | with_reducible assumption | with_reducible intro s
    | (extract_lets +onlyGivenNames x; refine (have hx : Keeps s x := ?_; ?_); rotate_left; clear_value x; rotate_right)
    | (extract_lets +onlyGivenNames x; clear_value x) | subst x | with_reducible apply Keeps.ite | split
    | with_reducible apply Keeps.after (State.report_keeps _ _ _) | with_reducible apply Keeps.ite

theorem State.actOn_keeps (h : Nat) (d : Dom) (s : State) : Keeps s (State.actOn h d s) := by
  unfold State.actOn
  repeat' first
    | with_reducible exact .refl _ | with_reducible assumption | with_reducible intro s
    | (extract_lets +onlyGivenNames x; refine (have hx : Keeps s x := ?_; ?_); rotate_left; clear_value x; rotate_right)
    | (extract_lets +onlyGivenNames x; clear_value x) | subst x | with_reducible apply Keeps.ite | split
    | with_reducible apply Keeps.after (State.thermalUrgent_keeps _ _ _) | with_reducible apply Keeps.after (State.takeDraw_keeps _)
    | with_reducible apply Keeps.after (State.onStk_keeps _ _ _) | with_reducible apply Keeps.after (State.wr_keeps _ _ _ _)
    | with_reducible apply Keeps.ite | with_reducible refine Keeps.after (State.takeDraw_eq (by with_reducible assumption)) ?_

theorem State.liftAct_keeps (k : Nat) (s : State) : Keeps s (State.liftAct k s) := by
  unfold State.liftAct
  repeat' first
    | with_reducible exact .refl _ | with_reducible assumption | with_reducible intro s | with_reducible apply Keeps.after (State.onStk_keeps _ _ _)
    | with_reducible apply Keeps.after (State.wr_keeps _ _ _ _) | with_reducible apply Keeps.ite | split

theorem State.stopSelfcal_keeps (k : Nat) (s : State) : Keeps s (State.stopSelfcal k s) := by
  unfold State.stopSelfcal
  repeat' first
    | with_reducible exact .refl _ | with_reducible assumption | with_reducible intro s | with_reducible apply Keeps.after (State.onStk_keeps _ _ _)
    | with_reducible apply Keeps.after (State.wr_keeps _ _ _ _) | with_reducible apply Keeps.ite | split

theorem State.levelOnset_keeps (h : Nat) (d : Dom) (v : Nat) (s : State) : Keeps s (State.levelOnset h d v s) := by
  unfold State.levelOnset
  repeat' first
    | with_reducible exact .refl _ | with_reducible assumption | with_reducible intro s
    | (extract_lets +onlyGivenNames x; refine (have hx : Keeps s x := ?_; ?_); rotate_left; clear_value x; rotate_right)
    | (extract_lets +onlyGivenNames x; clear_value x) | subst x | with_reducible apply Keeps.ite | split
    | with_reducible apply Keeps.after (State.stopSelfcal_keeps _ _) | with_reducible apply Keeps.after (State.actOn_keeps _ _ _)
    | with_reducible apply Keeps.after (State.thermalReport_keeps _ _ _ _) | with_reducible apply Keeps.after (State.setLevel_keeps _ _ _ _)
    | with_reducible apply Keeps.after (State.toQuiet_keeps _ _) | with_reducible apply Keeps.after (State.quietStack_keeps _ _)
    | with_reducible apply Keeps.after (State.stopTest_keeps _) | with_reducible apply Keeps.after (State.disturb_keeps _ _)
    | with_reducible apply Keeps.after (State.flagCount_keeps _ _ _ _) | with_reducible apply Keeps.after (State.onStk_keeps _ _ _)
    | with_reducible apply Keeps.ite | (with_reducible apply Keeps.each; intro _ s)

theorem State.levelFall_keeps (h : Nat) (d : Dom) (v : Nat) (s : State) : Keeps s (State.levelFall h d v s) := by
  unfold State.levelFall
  repeat' first
    | with_reducible exact .refl _ | with_reducible assumption | with_reducible intro s
    | (extract_lets +onlyGivenNames x; refine (have hx : Keeps s x := ?_; ?_); rotate_left; clear_value x; rotate_right)
    | (extract_lets +onlyGivenNames x; clear_value x) | subst x | with_reducible apply Keeps.ite | split
    | with_reducible apply Keeps.after (State.liftAct_keeps _ _) | with_reducible apply Keeps.after (State.setLevel_keeps _ _ _ _)
    | with_reducible apply Keeps.after (State.disturb_keeps _ _) | with_reducible apply Keeps.after (State.onStk_keeps _ _ _)
    | with_reducible apply Keeps.after (State.raise_keeps _ _ _) | with_reducible apply Keeps.ite | (with_reducible apply Keeps.each; intro _ s)

theorem State.judgeLevel_keeps (h : Nat) (d : Dom) (l : Limits) (xs : List Sensor) (s : State) : Keeps s (State.judgeLevel h d l xs s) := by
  unfold State.judgeLevel
  extract_lets v on hold
  have hh : ∀ n u, Keeps u (hold n u) := fun n u => State.onHub_keeps ..
  clear_value hold
  apply Keeps.ite
  · exact (State.levelOnset_keeps ..).after (hh ..)
  apply Keeps.ite
  · exact .refl _
  apply Keeps.ite
  · apply Keeps.ite
    · exact (State.levelFall_keeps ..).after (hh ..)
    · exact hh ..
  · exact hh ..

theorem State.noteSuspects_keeps (h : Nat) (old new : List Sensor) (s : State) : Keeps s (State.noteSuspects h old new s) := by
  unfold State.noteSuspects
  repeat' first
    | with_reducible exact .refl _ | with_reducible assumption | with_reducible intro s
    | (extract_lets +onlyGivenNames x; refine (have hx : Keeps s x := ?_; ?_); rotate_left; clear_value x; rotate_right)
    | (extract_lets +onlyGivenNames x; clear_value x) | subst x | with_reducible apply Keeps.after (State.bump_keeps _ _ _ _)
    | with_reducible apply Keeps.after (State.raise_keeps _ _ _) | with_reducible apply Keeps.ite | (with_reducible apply Keeps.whenB; intro s)
    | split

theorem State.queueMoved_keeps (k : Nat) (s : State) : Keeps s (State.queueMoved k s) := by
  unfold State.queueMoved
  repeat' first
    | with_reducible exact .refl _ | with_reducible assumption | with_reducible intro s
    | (extract_lets +onlyGivenNames x; refine (have hx : Keeps s x := ?_; ?_); rotate_left; clear_value x; rotate_right)
    | (extract_lets +onlyGivenNames x; clear_value x) | subst x | with_reducible apply Keeps.after (State.queueRecal_keeps _ _ _ _)
    | with_reducible apply Keeps.ite | (with_reducible apply Keeps.each; intro _ s) | split

theorem State.sensorReading_keeps (h : Nat) (readings : List Nat) (s : State) : Keeps s (State.sensorReading h readings s) := by
  unfold State.sensorReading
  repeat' first
    | with_reducible exact .refl _ | with_reducible assumption | with_reducible intro s
    | (extract_lets +onlyGivenNames x; refine (have hx : Keeps s x := ?_; ?_); rotate_left; clear_value x; rotate_right)
    | (extract_lets +onlyGivenNames x; clear_value x) | subst x | with_reducible apply Keeps.after (State.queueMoved_keeps _ _)
    | with_reducible apply Keeps.after (State.noteSuspects_keeps _ _ _ _) | with_reducible apply Keeps.after (State.judgeLevel_keeps _ _ _ _ _)
    | with_reducible apply Keeps.after (State.noteWiden_keeps _ _) | with_reducible apply Keeps.after (State.onHub_keeps _ _ _)
    | with_reducible apply Keeps.after (State.onStk_keeps _ _ _) | with_reducible apply Keeps.after (State.wr_keeps _ _ _ _)
    | with_reducible apply Keeps.ite | (with_reducible apply Keeps.each; intro _ s) | with_reducible apply Keeps.other | split

theorem execSensorReading_keeps (hub : Fin 4) (readings : List Nat) (s : State) : OutKeeps s (execSensorReading hub readings s) := by
  unfold execSensorReading
  repeat' first
    | with_reducible exact .refl _ | with_reducible assumption | with_reducible intro s | with_reducible apply OutKeeps.refused
    | with_reducible apply OutKeeps.ite | with_reducible apply OutKeeps.next | with_reducible apply Keeps.after (State.sensorReading_keeps _ _ _)
    | with_reducible apply Keeps.ite | split

theorem State.onSensor_keeps (h unit i : Nat) (f : Sensor → Sensor) (s : State) : Keeps s (State.onSensor h unit i f s) := by
  unfold State.onSensor
  repeat' first
    | with_reducible exact .refl _ | with_reducible assumption | with_reducible intro s | with_reducible apply Keeps.after (State.onHub_keeps _ _ _)
    | with_reducible apply Keeps.after (State.onStk_keeps _ _ _) | with_reducible apply Keeps.ite | split

theorem State.actExclude_keeps (h : Nat) (s : State) : Keeps s (State.actExclude h s) := by
  unfold State.actExclude
  repeat' first
    | with_reducible exact .refl _ | with_reducible assumption | with_reducible intro s
    | (extract_lets +onlyGivenNames x; refine (have hx : Keeps s x := ?_; ?_); rotate_left; clear_value x; rotate_right)
    | (extract_lets +onlyGivenNames x; clear_value x) | subst x | with_reducible apply Keeps.ite | split
    | with_reducible apply Keeps.after (State.onSensor_keeps _ _ _ _ _) | with_reducible apply Keeps.after (State.refuseWrite_keeps _ _ _)
    | with_reducible apply Keeps.ite

theorem execExclude_keeps (hub : Fin 4) (s : State) : OutKeeps s (execExclude hub s) := by
  unfold execExclude
  repeat' first
    | with_reducible exact .refl _ | with_reducible assumption | with_reducible intro s | with_reducible apply OutKeeps.refused
    | with_reducible apply OutKeeps.ite | with_reducible apply OutKeeps.next | with_reducible apply Keeps.after (State.actExclude_keeps _ _)
    | with_reducible apply Keeps.ite | split

theorem State.actReinstate_keeps (h : Nat) (s : State) : Keeps s (State.actReinstate h s) := by
  unfold State.actReinstate
  repeat' first
    | with_reducible exact .refl _ | with_reducible assumption | with_reducible intro s
    | (extract_lets +onlyGivenNames x; refine (have hx : Keeps s x := ?_; ?_); rotate_left; clear_value x; rotate_right)
    | (extract_lets +onlyGivenNames x; clear_value x) | subst x | with_reducible apply Keeps.after (State.onSensor_keeps _ _ _ _ _)
    | with_reducible apply Keeps.after (State.raise_keeps _ _ _) | with_reducible apply Keeps.ite | (with_reducible apply Keeps.whenB; intro s)
    | split

theorem execReinstate_keeps (hub : Fin 4) (s : State) : OutKeeps s (execReinstate hub s) := by
  unfold execReinstate
  repeat' first
    | with_reducible exact .refl _ | with_reducible assumption | with_reducible intro s | with_reducible apply OutKeeps.refused
    | with_reducible apply OutKeeps.ite | with_reducible apply OutKeeps.next | with_reducible apply Keeps.after (State.actReinstate_keeps _ _)
    | with_reducible apply Keeps.ite | split

theorem State.actRecalReq_keeps (h : Nat) (s : State) : Keeps s (State.actRecalReq h s) := by
  unfold State.actRecalReq
  repeat' first
    | with_reducible exact .refl _ | with_reducible assumption | with_reducible intro s
    | (extract_lets +onlyGivenNames x; refine (have hx : Keeps s x := ?_; ?_); rotate_left; clear_value x; rotate_right)
    | (extract_lets +onlyGivenNames x; clear_value x) | subst x | with_reducible apply Keeps.after (State.queueRecal_keeps _ _ _ _)
    | with_reducible apply Keeps.ite | split

theorem execRecalReq_keeps (hub : Fin 4) (s : State) : OutKeeps s (execRecalReq hub s) := by
  unfold execRecalReq
  repeat' first
    | with_reducible exact .refl _ | with_reducible assumption | with_reducible intro s | with_reducible apply OutKeeps.refused
    | with_reducible apply OutKeeps.ite | with_reducible apply OutKeeps.next | with_reducible apply Keeps.after (State.actRecalReq_keeps _ _)
    | with_reducible apply Keeps.ite | split

theorem State.startPieces_keeps (k : Nat) (s : State) : Keeps s (State.startPieces k s) := by
  unfold State.startPieces
  repeat' first
    | with_reducible exact .refl _ | with_reducible assumption | with_reducible intro s
    | (extract_lets +onlyGivenNames x; refine (have hx : Keeps s x := ?_; ?_); rotate_left; clear_value x; rotate_right)
    | (extract_lets +onlyGivenNames x; clear_value x) | subst x | with_reducible apply Keeps.after (State.onStk_keeps _ _ _)
    | with_reducible apply Keeps.ite | (with_reducible apply Keeps.foldl; intro s _) | split

theorem State.nextPieces_keeps (k : Nat) (s : State) : Keeps s (State.nextPieces k s) := by
  unfold State.nextPieces
  repeat' first
    | with_reducible exact .refl _ | with_reducible assumption | with_reducible intro s
    | (extract_lets +onlyGivenNames x; refine (have hx : Keeps s x := ?_; ?_); rotate_left; clear_value x; rotate_right)
    | (extract_lets +onlyGivenNames x; clear_value x) | subst x | with_reducible apply Keeps.after (State.startPieces_keeps _ _)
    | with_reducible apply Keeps.after (State.windowEnded_keeps _ _) | with_reducible apply Keeps.ite | split

theorem execCalibrationWindow_keeps (part : Fin 12) (hub : Fin 4) (us : Nat) (s : State) : OutKeeps s (execCalibrationWindow part hub us s) := by
  unfold execCalibrationWindow
  repeat' first
    | with_reducible exact .refl _ | with_reducible assumption | with_reducible intro s | with_reducible apply OutKeeps.refused
    | with_reducible apply OutKeeps.ite
    | (extract_lets +onlyGivenNames x; refine (have hx : Keeps s x := ?_; ?_); rotate_left; clear_value x; rotate_right)
    | (extract_lets +onlyGivenNames x; clear_value x) | subst x | with_reducible apply OutKeeps.next
    | with_reducible apply Keeps.after (State.nextPieces_keeps _ _) | with_reducible apply Keeps.after (State.onStk_keeps _ _ _)
    | with_reducible apply Keeps.after (State.bump_keeps _ _ _ _) | with_reducible apply Keeps.ite | (with_reducible apply Keeps.each; intro _ s)
    | split

theorem execCalPieceEnd_keeps (stack : Fin 12) (tile : Nat) (trims : List (Nat × Nat)) (bad : List Nat) (refs : List (Nat × List Int)) (s : State) : OutKeeps s (execCalPieceEnd stack tile trims bad refs s) := by
  unfold execCalPieceEnd
  repeat' first
    | with_reducible exact .refl _ | with_reducible assumption | with_reducible intro s | with_reducible apply OutKeeps.refused
    | with_reducible apply OutKeeps.ite
    | (extract_lets +onlyGivenNames x; refine (have hx : Keeps s x := ?_; ?_); rotate_left; clear_value x; rotate_right)
    | (extract_lets +onlyGivenNames x; clear_value x) | subst x | with_reducible apply OutKeeps.next
    | with_reducible apply Keeps.after (State.nextPieces_keeps _ _) | with_reducible apply Keeps.after (State.calAdopt_keeps _ _ _)
    | with_reducible apply Keeps.after (State.sweepTile_keeps _ _ _ _) | with_reducible apply Keeps.after (State.selfcalResults_keeps _ _ _ _ _)
    | with_reducible apply Keeps.after (State.freshTrims_keeps _ _ _) | with_reducible apply Keeps.after (State.onStk_keeps _ _ _)
    | with_reducible apply Keeps.ite | (with_reducible apply Keeps.whenB; intro s) | split

theorem State.holdPieces_keeps (p : Nat) (s : State) : Keeps s (State.holdPieces p s) := by
  unfold State.holdPieces
  repeat' first
    | with_reducible exact .refl _ | with_reducible assumption | with_reducible intro s | with_reducible apply Keeps.after (State.onStk_keeps _ _ _)
    | with_reducible apply Keeps.ite | (with_reducible apply Keeps.each; intro _ s) | split

/-! ### MemCtl -/

theorem State.actTrain_keeps (h : Nat) (s : State) : Keeps s (State.actTrain h s) := by
  unfold State.actTrain
  repeat' first
    | with_reducible exact .refl _ | with_reducible assumption | with_reducible intro s | with_reducible apply Keeps.after (State.onHub_keeps _ _ _)
    | with_reducible apply Keeps.after (State.refuseWrite_keeps _ _ _) | with_reducible apply Keeps.ite | split

theorem execMemTrain_keeps (hub : Fin 4) (s : State) : OutKeeps s (execMemTrain hub s) := by
  unfold execMemTrain
  repeat' first
    | with_reducible exact .refl _ | with_reducible assumption | with_reducible intro s | with_reducible apply OutKeeps.refused
    | with_reducible apply OutKeeps.ite | with_reducible apply OutKeeps.next | with_reducible apply Keeps.after (State.actTrain_keeps _ _)
    | with_reducible apply Keeps.ite | split

theorem execTrainingEnd_keeps (hub : Fin 4) (ok : BitVec 128) (s : State) : OutKeeps s (execTrainingEnd hub ok s) := by
  unfold execTrainingEnd
  repeat' first
    | with_reducible exact .refl _ | with_reducible assumption | with_reducible intro s | with_reducible apply OutKeeps.refused
    | with_reducible apply OutKeeps.ite
    | (extract_lets +onlyGivenNames x; refine (have hx : Keeps s x := ?_; ?_); rotate_left; clear_value x; rotate_right)
    | (extract_lets +onlyGivenNames x; clear_value x) | subst x | with_reducible apply OutKeeps.next
    | with_reducible apply Keeps.after (State.onHub_keeps _ _ _) | with_reducible apply Keeps.after (State.raise_keeps _ _ _)
    | with_reducible apply Keeps.after (State.wr_keeps _ _ _ _) | with_reducible apply Keeps.ite | (with_reducible apply Keeps.each; intro _ s)
    | (with_reducible apply Keeps.whenB; intro s) | split

theorem State.setClearing_keeps (h : Nat) (s : State) : Keeps s (State.setClearing h s) := by
  unfold State.setClearing
  repeat' first
    | with_reducible exact .refl _ | with_reducible assumption | with_reducible intro s | with_reducible apply Keeps.after (State.wrB_keeps _ _ _ _)
    | with_reducible apply Keeps.ite | split

theorem State.rekey_keeps (old new : List Byte) (a n : Nat) (s : State) : Keeps s (State.rekey old new a n s) := by
  unfold State.rekey
  repeat' first
    | with_reducible exact .refl _ | with_reducible assumption | with_reducible intro s
    | (extract_lets +onlyGivenNames x; refine (have hx : Keeps s x := ?_; ?_); rotate_left; clear_value x; rotate_right)
    | (extract_lets +onlyGivenNames x; clear_value x) | subst x | with_reducible apply Keeps.ite | (with_reducible apply Keeps.each; intro _ s)
    | with_reducible apply Keeps.other | (with_reducible apply Keeps.memory; rotate_left; exact Memory.write_wf _ _)
    | (with_reducible apply Keeps.memory; rotate_left; exact Memory.clear_wf _ _)
    | (with_reducible apply Keeps.memory; rotate_left; exact Memory.filter_wf _) | split

theorem State.dropRange_keeps (p : Nat) (r : Nat × Nat × Nat) (s : State) : Keeps s (State.dropRange p r s) := by
  unfold State.dropRange
  repeat' first
    | with_reducible exact .refl _ | with_reducible assumption | with_reducible intro s
    | with_reducible apply Keeps.after (State.rekey_keeps _ _ _ _ _) | with_reducible apply Keeps.ite | split

theorem State.actApply_keeps (h : Nat) (s : State) : Keeps s (State.actApply h s) := by
  unfold State.actApply
  repeat' first
    | with_reducible exact .refl _ | with_reducible assumption | with_reducible intro s
    | (extract_lets +onlyGivenNames x; refine (have hx : Keeps s x := ?_; ?_); rotate_left; clear_value x; rotate_right)
    | (extract_lets +onlyGivenNames x; clear_value x) | subst x | with_reducible apply Keeps.ite | split
    | with_reducible apply Keeps.after (State.dropRange_keeps _ _ _) | with_reducible apply Keeps.after (State.setClearing_keeps _ _)
    | with_reducible apply Keeps.after (State.cancelWb_keeps _ _ _) | with_reducible apply Keeps.after (State.onPart_keeps _ _ _)
    | with_reducible apply Keeps.after (State.onHub_keeps _ _ _) | with_reducible apply Keeps.after (State.refuseWrite_keeps _ _ _)
    | with_reducible apply Keeps.ite | (with_reducible apply Keeps.each; intro _ s)

theorem execApply_keeps (hub : Fin 4) (s : State) : OutKeeps s (execApply hub s) := by
  unfold execApply
  repeat' first
    | with_reducible exact .refl _ | with_reducible assumption | with_reducible intro s | with_reducible apply OutKeeps.refused
    | with_reducible apply OutKeeps.ite | with_reducible apply OutKeeps.next | with_reducible apply Keeps.after (State.actApply_keeps _ _)
    | with_reducible apply Keeps.ite | split

theorem State.clearDone_keeps (h p : Nat) (s : State) : Keeps s (State.clearDone h p s) := by
  unfold State.clearDone
  repeat' first
    | with_reducible exact .refl _ | with_reducible assumption | with_reducible intro s
    | (extract_lets +onlyGivenNames x; refine (have hx : Keeps s x := ?_; ?_); rotate_left; clear_value x; rotate_right)
    | (extract_lets +onlyGivenNames x; clear_value x) | subst x | with_reducible apply Keeps.after (State.setClearing_keeps _ _)
    | with_reducible apply Keeps.after (State.drainInbox_keeps _ _ _) | with_reducible apply Keeps.after (State.zeroMem_keeps _ _ _)
    | with_reducible apply Keeps.after (State.onHub_keeps _ _ _) | with_reducible apply Keeps.after (State.raise_keeps _ _ _)
    | with_reducible apply Keeps.ite | (with_reducible apply Keeps.each; intro _ s) | split

theorem State.frameWrite_keeps (h i v : Nat) (s : State) : Keeps s (State.frameWrite h i v s) := by
  unfold State.frameWrite
  repeat' first
    | with_reducible exact .refl _ | with_reducible assumption | with_reducible intro s | with_reducible apply Keeps.after (State.onHub_keeps _ _ _)
    | with_reducible apply Keeps.ite | split

theorem State.frameSetLen_keeps (h n : Nat) (s : State) : Keeps s (State.frameSetLen h n s) := by
  unfold State.frameSetLen
  repeat' first
    | with_reducible exact .refl _ | with_reducible assumption | with_reducible intro s | with_reducible apply Keeps.after (State.onHub_keeps _ _ _)
    | with_reducible apply Keeps.ite | split

theorem State.actSwap_keeps (h : Nat) (s : State) : Keeps s (State.actSwap h s) := by
  unfold State.actSwap
  repeat' first
    | with_reducible exact .refl _ | with_reducible assumption | with_reducible intro s | with_reducible apply Keeps.after (State.wr_keeps _ _ _ _)
    | with_reducible apply Keeps.ite | split

theorem execFrameSwap_keeps (hub : Fin 4) (s : State) : OutKeeps s (execFrameSwap hub s) := by
  unfold execFrameSwap
  repeat' first
    | with_reducible exact .refl _ | with_reducible assumption | with_reducible intro s | with_reducible apply OutKeeps.refused
    | with_reducible apply OutKeeps.ite | with_reducible apply OutKeeps.next | with_reducible apply Keeps.after (State.actSwap_keeps _ _)
    | with_reducible apply Keeps.ite | split

theorem execFrameCheck_keeps (hub : Fin 4) (s : State) : OutKeeps s (execFrameCheck hub s) := by
  unfold execFrameCheck
  repeat' first
    | with_reducible exact .refl _ | with_reducible assumption | with_reducible intro s | with_reducible apply OutKeeps.refused
    | with_reducible apply OutKeeps.ite
    | (extract_lets +onlyGivenNames x; refine (have hx : Keeps s x := ?_; ?_); rotate_left; clear_value x; rotate_right)
    | (extract_lets +onlyGivenNames x; clear_value x) | subst x | with_reducible apply OutKeeps.next | with_reducible apply Keeps.ite | split
    | with_reducible apply Keeps.after (State.takeFree_keeps _) | with_reducible apply Keeps.after (State.onHub_keeps _ _ _)
    | with_reducible apply Keeps.after (State.raise_keeps _ _ _) | with_reducible apply Keeps.after (State.wr_keeps _ _ _ _)
    | with_reducible apply Keeps.ite | with_reducible refine Keeps.after (State.takeFree_eq (by with_reducible assumption)) ?_
    | with_reducible apply Keeps.other

theorem State.beginSlot_keeps (h slot : Nat) (s : State) : Keeps s (State.beginSlot h slot s) := by
  unfold State.beginSlot
  repeat' first
    | with_reducible exact .refl _ | with_reducible assumption | with_reducible intro s
    | (extract_lets +onlyGivenNames x; refine (have hx : Keeps s x := ?_; ?_); rotate_left; clear_value x; rotate_right)
    | (extract_lets +onlyGivenNames x; clear_value x) | subst x | with_reducible apply Keeps.after (State.nonDet_keeps _ _ _)
    | with_reducible apply Keeps.after (State.flagCount_keeps _ _ _ _) | with_reducible apply Keeps.after (State.onHub_keeps _ _ _)
    | with_reducible apply Keeps.ite | (with_reducible apply Keeps.each; intro _ s) | with_reducible apply Keeps.other | split

theorem State.freeTaken_keeps (h ch : Nat) (s : State) : Keeps s (State.freeTaken h ch s) := by
  unfold State.freeTaken
  repeat' first
    | with_reducible exact .refl _ | with_reducible assumption | with_reducible intro s | with_reducible apply Keeps.after (State.onHub_keeps _ _ _)
    | with_reducible apply Keeps.ite | split

theorem execRefreshSlot_keeps (hub : Fin 4) (s : State) : OutKeeps s (execRefreshSlot hub s) := by
  unfold execRefreshSlot
  repeat' first
    | with_reducible exact .refl _ | with_reducible assumption | with_reducible intro s | with_reducible apply OutKeeps.refused
    | with_reducible apply OutKeeps.ite
    | (extract_lets +onlyGivenNames x; refine (have hx : Keeps s x := ?_; ?_); rotate_left; clear_value x; rotate_right)
    | (extract_lets +onlyGivenNames x; clear_value x) | subst x | with_reducible apply OutKeeps.next | with_reducible apply Keeps.ite | split
    | with_reducible apply Keeps.after (State.beginSlot_keeps _ _ _) | with_reducible apply Keeps.after (State.onHub_keeps _ _ _)
    | with_reducible apply Keeps.ite

theorem execForcedRefresh_keeps (hub : Fin 4) (channel : Fin 128) (s : State) : OutKeeps s (execForcedRefresh hub channel s) := by
  unfold execForcedRefresh
  repeat' first
    | with_reducible exact .refl _ | with_reducible assumption | with_reducible intro s | with_reducible apply OutKeeps.refused
    | with_reducible apply OutKeeps.ite
    | (extract_lets +onlyGivenNames x; refine (have hx : Keeps s x := ?_; ?_); rotate_left; clear_value x; rotate_right)
    | (extract_lets +onlyGivenNames x; clear_value x) | subst x | with_reducible apply OutKeeps.next | with_reducible apply Keeps.ite | split
    | with_reducible apply Keeps.after (State.nonDet_keeps _ _ _) | with_reducible apply Keeps.after (State.flagCount_keeps _ _ _ _)
    | with_reducible apply Keeps.after (State.onHub_keeps _ _ _) | with_reducible apply Keeps.ite | (with_reducible apply Keeps.whenB; intro s)

theorem State.writeBack_keeps (b : Nat) (poison : Bool) (s : State) : Keeps s (State.writeBack b poison s) := by
  unfold State.writeBack
  repeat' first
    | with_reducible exact .refl _ | with_reducible assumption | with_reducible intro s
    | (extract_lets +onlyGivenNames x; refine (have hx : Keeps s x := ?_; ?_); rotate_left; clear_value x; rotate_right)
    | (extract_lets +onlyGivenNames x; clear_value x) | subst x | with_reducible apply Keeps.after (State.mpoison_keeps _ _ _)
    | with_reducible apply Keeps.ite | (with_reducible apply Keeps.whenB; intro s) | with_reducible apply Keeps.other
    | (with_reducible apply Keeps.memory; rotate_left; exact Memory.write_wf _ _)
    | (with_reducible apply Keeps.memory; rotate_left; exact Memory.clear_wf _ _)
    | (with_reducible apply Keeps.memory; rotate_left; exact Memory.filter_wf _) | split

theorem State.scrub_keeps (h ch : Nat) (s : State) : Keeps s (State.scrub h ch s) := by
  unfold State.scrub
  repeat' first
    | with_reducible exact .refl _ | with_reducible assumption | with_reducible intro s
    | (extract_lets +onlyGivenNames x; refine (have hx : Keeps s x := ?_; ?_); rotate_left; clear_value x; rotate_right)
    | (extract_lets +onlyGivenNames x; clear_value x) | subst x | with_reducible apply Keeps.ite | split
    | with_reducible apply Keeps.after (State.writeBack_keeps _ _ _) | with_reducible apply Keeps.after (State.foundPoison_keeps _ _)
    | with_reducible apply Keeps.after (State.decodeBurst_keeps _ _) | with_reducible apply Keeps.after (State.flagCount_keeps _ _ _ _)
    | with_reducible apply Keeps.after (State.onHub_keeps _ _ _) | with_reducible apply Keeps.ite | (with_reducible apply Keeps.whenB; intro s)
    | with_reducible apply Keeps.other

theorem execScrubSlot_keeps (hub : Fin 4) (channel : Fin 128) (s : State) : OutKeeps s (execScrubSlot hub channel s) := by
  unfold execScrubSlot
  repeat' first
    | with_reducible exact .refl _ | with_reducible assumption | with_reducible intro s | with_reducible apply OutKeeps.refused
    | with_reducible apply OutKeeps.ite
    | (extract_lets +onlyGivenNames x; refine (have hx : Keeps s x := ?_; ?_); rotate_left; clear_value x; rotate_right)
    | (extract_lets +onlyGivenNames x; clear_value x) | subst x | with_reducible apply OutKeeps.next
    | with_reducible apply Keeps.after (State.scrub_keeps _ _ _) | with_reducible apply Keeps.after (State.freeTaken_keeps _ _ _)
    | with_reducible apply Keeps.after (State.beginSlot_keeps _ _ _) | with_reducible apply Keeps.after (State.onHub_keeps _ _ _)
    | with_reducible apply Keeps.ite | split

theorem execStepSlot_keeps (hub : Fin 4) (channel : Fin 128) (slot : Nat) (s : State) : OutKeeps s (execStepSlot hub channel slot s) := by
  unfold execStepSlot
  repeat' first
    | with_reducible exact .refl _ | with_reducible assumption | with_reducible intro s | with_reducible apply OutKeeps.refused
    | with_reducible apply OutKeeps.ite
    | (extract_lets +onlyGivenNames x; refine (have hx : Keeps s x := ?_; ?_); rotate_left; clear_value x; rotate_right)
    | (extract_lets +onlyGivenNames x; clear_value x) | subst x | with_reducible apply OutKeeps.next | with_reducible apply Keeps.ite | split
    | with_reducible apply Keeps.after (State.freeTaken_keeps _ _ _) | with_reducible apply Keeps.after (State.beginSlot_keeps _ _ _)
    | with_reducible apply Keeps.after (State.moveBurst_keeps _ _ _ _) | with_reducible apply Keeps.after (State.onCore_keeps _ _ _)
    | with_reducible apply Keeps.ite | with_reducible apply Keeps.other

/-! ### Verify -/

theorem State.actVerify_keeps (p : Nat) (s : State) : Keeps s (State.actVerify p s) := by
  unfold State.actVerify
  repeat' first
    | with_reducible exact .refl _ | with_reducible assumption | with_reducible intro s
    | (extract_lets +onlyGivenNames x; refine (have hx : Keeps s x := ?_; ?_); rotate_left; clear_value x; rotate_right)
    | (extract_lets +onlyGivenNames x; clear_value x) | subst x | with_reducible apply Keeps.after (State.onPart_keeps _ _ _)
    | with_reducible apply Keeps.after (State.refuseWrite_keeps _ _ _) | with_reducible apply Keeps.after (State.wr_keeps _ _ _ _)
    | with_reducible apply Keeps.ite | split

theorem execVerify_keeps (part : Fin 12) (s : State) : OutKeeps s (execVerify part s) := by
  unfold execVerify
  repeat' first
    | with_reducible exact .refl _ | with_reducible assumption | with_reducible intro s | with_reducible apply OutKeeps.refused
    | with_reducible apply OutKeeps.ite | with_reducible apply OutKeeps.next | with_reducible apply Keeps.after (State.actVerify_keeps _ _)
    | with_reducible apply Keeps.after (State.ofPart_keeps _ _ ?_ _) | with_reducible apply Keeps.ite | split

theorem State.setAccepted_keeps (p : Nat) (z : StepSet) (s : State) : Keeps s (State.setAccepted p z s) := by
  unfold State.setAccepted
  repeat' first
    | with_reducible exact .refl _ | with_reducible assumption | with_reducible intro s
    | (extract_lets +onlyGivenNames x; refine (have hx : Keeps s x := ?_; ?_); rotate_left; clear_value x; rotate_right)
    | (extract_lets +onlyGivenNames x; clear_value x) | subst x | with_reducible apply Keeps.after (State.onPart_keeps _ _ _)
    | with_reducible apply Keeps.after (State.raise_keeps _ _ _) | with_reducible apply Keeps.after (State.wr_keeps _ _ _ _)
    | with_reducible apply Keeps.ite | split

theorem State.setRejected_keeps (p : Nat) (code : Option Nat) (place : Option (Nat × Nat)) (s : State) :
    Keeps s (State.setRejected p code place s) := by
  have tail : ∀ (t : State) (c f1 f2 : Nat), Keeps s t → Keeps s (((((((t.onPart p (fun q => { q with setNew := {} })).wr
      R.DCR.SET_STAT_CODE p c).wr R.DCR.SET_STAT_SECTION p f1).wr R.DCR.SET_ERR_OFF p f2).wr R.DCR.STAT_VERIFIED p 0).raise R.DCR.EVT_SET_REJECTED p)) := by
    intro t c f1 f2 h
    exact (State.raise_keeps ..).after ((State.wr_keeps ..).after ((State.wr_keeps ..).after ((State.wr_keeps ..).after
      ((State.wr_keeps ..).after ((State.onPart_keeps ..).after h)))))
  have free : ∀ t : State, Keeps s t → Keeps s { t with free := t.free + 1 } := fun t h => ⟨h.mem, h.pending, h.fuses⟩
  unfold State.setRejected
  cases code <;> cases place
  · exact tail _ _ _ _ (free _ (free _ (.refl _)))
  · exact tail _ _ _ _ (free _ (.refl _))
  · exact tail _ _ _ _ (free _ (.refl _))
  · exact tail _ _ _ _ (.refl _)

theorem execSetVerifyDone_keeps (part : Fin 12) (s : State) : OutKeeps s (execSetVerifyDone part s) := by
  unfold execSetVerifyDone
  repeat' first
    | with_reducible exact .refl _ | with_reducible assumption | with_reducible intro s | with_reducible apply OutKeeps.refused
    | with_reducible apply OutKeeps.ite
    | (extract_lets +onlyGivenNames x; refine (have hx : Keeps s x := ?_; ?_); rotate_left; clear_value x; rotate_right)
    | (extract_lets +onlyGivenNames x; clear_value x) | subst x | with_reducible apply OutKeeps.next | with_reducible apply Keeps.ite | split
    | with_reducible apply Keeps.after (State.setRejected_keeps _ _ _ _) | with_reducible apply Keeps.after (State.setAccepted_keeps _ _ _)
    | with_reducible apply Keeps.after (State.touchOf_keeps _ _ _ _) | with_reducible apply Keeps.after (State.onPart_keeps _ _ _)
    | with_reducible apply Keeps.ite

/-! ### Loader -/

theorem State.setCorrBytes_keeps (s : State) : Keeps s (State.setCorrBytes s) := by
  unfold State.setCorrBytes
  repeat' first
    | with_reducible exact .refl _ | with_reducible assumption | with_reducible intro s
    | (extract_lets +onlyGivenNames x; refine (have hx : Keeps s x := ?_; ?_); rotate_left; clear_value x; rotate_right)
    | (extract_lets +onlyGivenNames x; clear_value x) | subst x | with_reducible apply Keeps.after (State.wr_keeps _ _ _ _)
    | with_reducible apply Keeps.ite | (with_reducible apply Keeps.foldl; intro s _) | (with_reducible apply Keeps.each; intro _ s) | split

theorem State.loadFail_keeps (p code : Nat) (shard : Option Nat) (s : State) : Keeps s (State.loadFail p code shard s) := by
  unfold State.loadFail
  repeat' first
    | with_reducible exact .refl _ | with_reducible assumption | with_reducible intro s
    | (extract_lets +onlyGivenNames x; refine (have hx : Keeps s x := ?_; ?_); rotate_left; clear_value x; rotate_right)
    | (extract_lets +onlyGivenNames x; clear_value x) | subst x | with_reducible apply Keeps.ite | split
    | with_reducible apply Keeps.after (State.setCorrBytes_keeps _) | with_reducible apply Keeps.after (State.closeLoad_keeps _ _)
    | with_reducible apply Keeps.after (State.setProgramming_keeps _) | with_reducible apply Keeps.after (State.onPart_keeps _ _ _)
    | with_reducible apply Keeps.after (State.onStk_keeps _ _ _) | with_reducible apply Keeps.after (State.raise_keeps _ _ _)
    | with_reducible apply Keeps.after (State.wr_keeps _ _ _ _) | with_reducible apply Keeps.ite | (with_reducible apply Keeps.each; intro _ s)
    | with_reducible apply Keeps.other

theorem State.readShard_keeps (p src i : Nat) (s : State) : Keeps s (State.readShard p src i s) := by
  unfold State.readShard
  repeat' first
    | with_reducible exact .refl _ | with_reducible assumption | with_reducible intro s | with_reducible apply Keeps.ite | split
    | with_reducible apply Keeps.after (State.endReads_keeps _ _ _) | with_reducible apply Keeps.after (State.askBytes_keeps _ _ _ _ _ _ _)
    | with_reducible apply Keeps.ite

theorem State.beginLoad_keeps (p : Nat) (s : State) : Keeps s (State.beginLoad p s) := by
  unfold State.beginLoad
  repeat' first
    | with_reducible exact .refl _ | with_reducible assumption | with_reducible intro s
    | (extract_lets +onlyGivenNames x; refine (have hx : Keeps s x := ?_; ?_); rotate_left; clear_value x; rotate_right)
    | (extract_lets +onlyGivenNames x; clear_value x) | subst x | with_reducible apply Keeps.after (State.loadFail_keeps _ _ _ _)
    | with_reducible apply Keeps.after (State.askBytes_keeps _ _ _ _ _ _ _) | with_reducible apply Keeps.after (State.openSource_keeps _ _ _ _)
    | with_reducible apply Keeps.after (State.touchOf_keeps _ _ _ _) | with_reducible apply Keeps.after (State.onPart_keeps _ _ _)
    | with_reducible apply Keeps.ite | (with_reducible apply Keeps.each; intro _ s) | split

theorem State.actLoadStart_keeps (p : Nat) (s : State) : Keeps s (State.actLoadStart p s) := by
  unfold State.actLoadStart
  repeat' first
    | with_reducible exact .refl _ | with_reducible assumption | with_reducible intro s
    | (extract_lets +onlyGivenNames x; refine (have hx : Keeps s x := ?_; ?_); rotate_left; clear_value x; rotate_right)
    | (extract_lets +onlyGivenNames x; clear_value x) | subst x | with_reducible apply Keeps.after (State.beginLoad_keeps _ _)
    | with_reducible apply Keeps.after (State.onPart_keeps _ _ _) | with_reducible apply Keeps.after (State.raise_keeps _ _ _)
    | with_reducible apply Keeps.after (State.wr_keeps _ _ _ _) | with_reducible apply Keeps.ite | split

theorem execLoadStart_keeps (part : Fin 12) (s : State) : OutKeeps s (execLoadStart part s) := by
  unfold execLoadStart
  repeat' first
    | with_reducible exact .refl _ | with_reducible assumption | with_reducible intro s | with_reducible apply OutKeeps.refused
    | with_reducible apply OutKeeps.ite | with_reducible apply OutKeeps.next | with_reducible apply Keeps.after (State.actLoadStart_keeps _ _)
    | with_reducible apply Keeps.after (State.ofPart_keeps _ _ ?_ _) | with_reducible apply Keeps.ite | split

theorem execClearDone_keeps (hub : Fin 4) (part : Fin 12) (s : State) : OutKeeps s (execClearDone hub part s) := by
  unfold execClearDone
  repeat' first
    | with_reducible exact .refl _ | with_reducible assumption | with_reducible intro s | with_reducible apply OutKeeps.refused
    | with_reducible apply OutKeeps.ite
    | (extract_lets +onlyGivenNames x; refine (have hx : Keeps s x := ?_; ?_); rotate_left; clear_value x; rotate_right)
    | (extract_lets +onlyGivenNames x; clear_value x) | subst x | with_reducible apply OutKeeps.next
    | with_reducible apply Keeps.after (State.beginLoad_keeps _ _) | with_reducible apply Keeps.after (State.clearDone_keeps _ _ _)
    | with_reducible apply Keeps.ite | (with_reducible apply Keeps.whenB; intro s) | split

theorem State.actLoadAbort_keeps (p : Nat) (s : State) : Keeps s (State.actLoadAbort p s) := by
  unfold State.actLoadAbort
  repeat' first
    | with_reducible exact .refl _ | with_reducible assumption | with_reducible intro s
    | with_reducible apply Keeps.after (State.loadFail_keeps _ _ _ _) | with_reducible apply Keeps.ite | (with_reducible apply Keeps.whenB; intro s)
    | split

theorem execLoadAbort_keeps (part : Fin 12) (s : State) : OutKeeps s (execLoadAbort part s) := by
  unfold execLoadAbort
  repeat' first
    | with_reducible exact .refl _ | with_reducible assumption | with_reducible intro s | with_reducible apply OutKeeps.refused
    | with_reducible apply OutKeeps.ite | with_reducible apply OutKeeps.next | with_reducible apply Keeps.after (State.actLoadAbort_keeps _ _)
    | with_reducible apply Keeps.after (State.ofPart_keeps _ _ ?_ _) | with_reducible apply Keeps.ite | split

theorem execConnectTimeout_keeps (part : Fin 12) (s : State) : OutKeeps s (execConnectTimeout part s) := by
  unfold execConnectTimeout
  repeat' first
    | with_reducible exact .refl _ | with_reducible assumption | with_reducible intro s | with_reducible apply OutKeeps.refused
    | with_reducible apply OutKeeps.ite | with_reducible apply OutKeeps.next | with_reducible apply Keeps.ite | split
    | with_reducible apply Keeps.after (State.loadFail_keeps _ _ _ _) | with_reducible apply Keeps.ite | (with_reducible apply Keeps.whenB; intro s)

theorem State.requestShards_keeps (p : Nat) (s : State) : Keeps s (State.requestShards p s) := by
  unfold State.requestShards
  repeat' first
    | with_reducible exact .refl _ | with_reducible assumption | with_reducible intro s
    | (extract_lets +onlyGivenNames x; refine (have hx : Keeps s x := ?_; ?_); rotate_left; clear_value x; rotate_right)
    | (extract_lets +onlyGivenNames x; clear_value x) | subst x | with_reducible apply Keeps.ite | split
    | with_reducible apply Keeps.after (State.readShard_keeps _ _ _ _) | with_reducible apply Keeps.after (State.request_keeps _ _ _)
    | with_reducible apply Keeps.after (State.onLoad_keeps _ _ _) | with_reducible apply Keeps.ite | (with_reducible apply Keeps.each; intro _ s)

theorem State.discardShard_keeps (p i : Nat) (s : State) : Keeps s (State.discardShard p i s) := by
  unfold State.discardShard
  repeat' first
    | with_reducible exact .refl _ | with_reducible assumption | with_reducible intro s | with_reducible apply Keeps.after (State.onLoad_keeps _ _ _)
    | with_reducible apply Keeps.after (State.wr_keeps _ _ _ _) | with_reducible apply Keeps.ite | (with_reducible apply Keeps.foldl; intro s _)
    | split

theorem State.badAttempt_keeps (p i : Nat) (s : State) : Keeps s (State.badAttempt p i s) := by
  unfold State.badAttempt
  repeat' first
    | with_reducible exact .refl _ | with_reducible assumption | with_reducible intro s
    | (extract_lets +onlyGivenNames x; refine (have hx : Keeps s x := ?_; ?_); rotate_left; clear_value x; rotate_right)
    | (extract_lets +onlyGivenNames x; clear_value x) | subst x | with_reducible apply Keeps.ite | split
    | with_reducible apply Keeps.after (State.discardShard_keeps _ _ _) | with_reducible apply Keeps.after (State.requestShards_keeps _ _)
    | with_reducible apply Keeps.after (State.readShard_keeps _ _ _ _) | with_reducible apply Keeps.after (State.loadFail_keeps _ _ _ _)
    | with_reducible apply Keeps.after (State.onLoad_keeps _ _ _) | with_reducible apply Keeps.after (State.count_keeps _ _ _)
    | with_reducible apply Keeps.ite | (with_reducible apply Keeps.whenB; intro s) | with_reducible apply Keeps.other

theorem State.tryDone_keeps (p : Nat) (s : State) : Keeps s (State.tryDone p s) := by
  unfold State.tryDone
  repeat' first
    | with_reducible exact .refl _ | with_reducible assumption | with_reducible intro s
    | (extract_lets +onlyGivenNames x; refine (have hx : Keeps s x := ?_; ?_); rotate_left; clear_value x; rotate_right)
    | (extract_lets +onlyGivenNames x; clear_value x) | subst x | with_reducible apply Keeps.ite | split
    | with_reducible apply Keeps.after (State.badAttempt_keeps _ _ _) | with_reducible apply Keeps.after (State.closeLoad_keeps _ _)
    | with_reducible apply Keeps.after (State.onPart_keeps _ _ _) | with_reducible apply Keeps.after (State.raise_keeps _ _ _)
    | with_reducible apply Keeps.after (State.wr_keeps _ _ _ _) | with_reducible apply Keeps.ite | (with_reducible apply Keeps.each; intro _ s)
    | with_reducible apply Keeps.other

theorem State.askManifest_keeps (p : Nat) (l : Load) (head : List Byte) (s : State) : Keeps s (State.askManifest p l head s) := by
  unfold State.askManifest
  repeat' first
    | with_reducible exact .refl _ | with_reducible assumption | with_reducible intro s
    | with_reducible apply Keeps.after (State.endReads_keeps _ _ _) | with_reducible apply Keeps.after (State.askBytes_keeps _ _ _ _ _ _ _)
    | with_reducible apply Keeps.ite | split

theorem State.manifestCheck_keeps (p : Nat) (m : List Byte) (s : State) : Keeps s (State.manifestCheck p m s) := by
  unfold State.manifestCheck
  repeat' first
    | with_reducible exact .refl _ | with_reducible assumption | with_reducible intro s
    | (extract_lets +onlyGivenNames x; refine (have hx : Keeps s x := ?_; ?_); rotate_left; clear_value x; rotate_right)
    | (extract_lets +onlyGivenNames x; clear_value x) | subst x | with_reducible apply Keeps.ite | split
    | with_reducible apply Keeps.after (State.askManifest_keeps _ _ _ _) | with_reducible apply Keeps.after (State.tryDone_keeps _ _)
    | with_reducible apply Keeps.after (State.requestShards_keeps _ _) | with_reducible apply Keeps.after (State.loadFail_keeps _ _ _ _)
    | with_reducible apply Keeps.after (State.setCorrBytes_keeps _) | with_reducible apply Keeps.after (State.endReads_keeps _ _ _)
    | with_reducible apply Keeps.after (State.onLoad_keeps _ _ _) | with_reducible apply Keeps.after (State.touchOf_keeps _ _ _ _)
    | with_reducible apply Keeps.after (State.raise_keeps _ _ _) | with_reducible apply Keeps.after (State.wr_keeps _ _ _ _)
    | with_reducible apply Keeps.ite | (with_reducible apply Keeps.each; intro _ s) | (with_reducible apply Keeps.whenB; intro s)
    | with_reducible apply Keeps.other

theorem execManifestCheck_keeps (part : Fin 12) (manifest : List Byte) (s : State) : OutKeeps s (execManifestCheck part manifest s) := by
  unfold execManifestCheck
  repeat' first
    | with_reducible exact .refl _ | with_reducible assumption | with_reducible intro s | with_reducible apply OutKeeps.refused
    | with_reducible apply OutKeeps.ite | with_reducible apply OutKeeps.next | with_reducible apply Keeps.after (State.manifestCheck_keeps _ _ _)
    | with_reducible apply Keeps.ite | split

theorem State.placeBlk_keeps (p : Nat) (plain : List Byte) (b : Blk) (acc : Bool × State) : Keeps acc.2 (State.placeBlk p plain b acc).2 := by
  obtain ⟨bad, s⟩ := acc
  unfold State.placeBlk
  dsimp only
  repeat' split
  all_goals first
    | exact .refl _
    | exact Keeps.each _ (fun _ _ => State.touchBlk_keeps ..) (.refl _)
    | exact ((State.onLoad_keeps ..).after (State.putBlk_keeps ..)).after (Keeps.each _ (fun _ _ => State.touchBlk_keeps ..) (.refl _))

theorem State.stage_keeps (l : Load) (slot : Nat) (plain : List Byte) (s : State) : Keeps s (State.stage l slot plain s) := by
  unfold State.stage
  repeat' first
    | with_reducible exact .refl _ | with_reducible assumption | with_reducible intro s
    | (extract_lets +onlyGivenNames x; refine (have hx : Keeps s x := ?_; ?_); rotate_left; clear_value x; rotate_right)
    | (extract_lets +onlyGivenNames x; clear_value x) | subst x | with_reducible apply Keeps.after (State.mwr_keeps _ _ _)
    | with_reducible apply Keeps.ite | split

theorem State.touchStaged_keeps (l : Load) (slot off len : Nat) (s : State) : Keeps s (State.touchStaged l slot off len s) := by
  unfold State.touchStaged
  repeat' first
    | with_reducible exact .refl _ | with_reducible assumption | with_reducible intro s
    | (extract_lets +onlyGivenNames x; refine (have hx : Keeps s x := ?_; ?_); rotate_left; clear_value x; rotate_right)
    | (extract_lets +onlyGivenNames x; clear_value x) | subst x | with_reducible apply Keeps.ite | split
    | with_reducible apply Keeps.after (State.touch_keeps _ _ _) | with_reducible apply Keeps.ite

theorem State.releaseShard_keeps (p i : Nat) (s : State) : Keeps s (State.releaseShard p i s) := by
  unfold State.releaseShard
  repeat' first
    | with_reducible exact .refl _ | with_reducible assumption | with_reducible intro s | with_reducible apply Keeps.ite | split
    | with_reducible apply Keeps.after (State.onLoad_keeps _ _ _) | with_reducible apply Keeps.ite

theorem State.takeShard_keeps (p i slot : Nat) (plain : List Byte) (s : State) : Keeps s (State.takeShard p i slot plain s) := by
  unfold State.takeShard
  split
  · exact .refl _
  extract_lets +onlyGivenNames u
  have h1 : Keeps s u := State.stage_keeps ..
  extract_lets +onlyGivenNames mine r
  have h2 : Keeps s r.2 := Keeps.foldlSnd _ (fun b x => State.placeBlk_keeps ..) h1
  clear_value r
  extract_lets
  apply Keeps.ite
  · exact (State.badAttempt_keeps ..).after h1
  apply Keeps.ite
  · exact (State.loadFail_keeps ..).after h2
  · exact (State.tryDone_keeps ..).after ((State.setCorrBytes_keeps ..).after ((State.requestShards_keeps ..).after
      ((State.releaseShard_keeps ..).after ((State.count_keeps ..).after ((State.onLoad_keeps ..).after h2)))))

theorem execShardAccepted_keeps (part : Fin 12) (shard : Nat) (stored : List Byte) (s : State) : OutKeeps s (execShardAccepted part shard stored s) := by
  unfold execShardAccepted
  repeat' first
    | with_reducible exact .refl _ | with_reducible assumption | with_reducible intro s | with_reducible apply OutKeeps.refused
    | with_reducible apply OutKeeps.ite
    | (extract_lets +onlyGivenNames x; refine (have hx : Keeps s x := ?_; ?_); rotate_left; clear_value x; rotate_right)
    | (extract_lets +onlyGivenNames x; clear_value x) | subst x | with_reducible apply OutKeeps.next | with_reducible apply Keeps.ite | split
    | with_reducible apply Keeps.after (State.takeShard_keeps _ _ _ _ _) | with_reducible apply Keeps.after (State.badAttempt_keeps _ _ _)
    | with_reducible apply Keeps.after (State.loadFail_keeps _ _ _ _) | with_reducible apply Keeps.after (State.endReads_keeps _ _ _)
    | with_reducible apply Keeps.after (State.bump_keeps _ _ _ _) | with_reducible apply Keeps.ite | with_reducible apply Keeps.other

theorem execShardTimeout_keeps (part : Fin 12) (shard : Nat) (s : State) : OutKeeps s (execShardTimeout part shard s) := by
  unfold execShardTimeout
  repeat' first
    | with_reducible exact .refl _ | with_reducible assumption | with_reducible intro s | with_reducible apply OutKeeps.refused
    | with_reducible apply OutKeeps.ite | with_reducible apply OutKeeps.next | with_reducible apply Keeps.ite | split
    | with_reducible apply Keeps.after (State.loadFail_keeps _ _ _ _) | with_reducible apply Keeps.ite | (with_reducible apply Keeps.whenB; intro s)
    | with_reducible apply Keeps.other

theorem State.startProgram_keeps (k phys tier : Nat) (s : State) : Keeps s (State.startProgram k phys tier s) := by
  unfold State.startProgram
  repeat' first
    | with_reducible exact .refl _ | with_reducible assumption | with_reducible intro s
    | with_reducible apply Keeps.after (State.setProgramming_keeps _) | with_reducible apply Keeps.after (State.wearOut_keeps _ _ _ _)
    | with_reducible apply Keeps.after (State.onStk_keeps _ _ _) | with_reducible apply Keeps.ite | split

theorem State.endProgram_keeps (k phys tier : Nat) (cells : TierCells) (failed : List (Nat × Nat)) (refs : Bool) (s : State) :
    Keeps s (State.endProgram k phys tier cells failed refs s) := by
  unfold State.endProgram
  extract_lets key bad good
  split
  next heq =>
  have h := Keeps.unlessDraw heq
  extract_lets cs u v
  have hu : Keeps s u := Keeps.nv _ h rfl rfl rfl rfl rfl
  clear_value u
  exact Keeps.whenB (fun _ => State.queueRecal_keeps ..) ((State.setProgramming_keeps ..).after ((State.onStk_keeps ..).after hu))

theorem State.countProgram_keeps (trains cells : Nat) (s : State) : Keeps s (State.countProgram trains cells s) := by
  unfold State.countProgram
  repeat' first
    | with_reducible exact .refl _ | with_reducible assumption | with_reducible intro s
    | (extract_lets +onlyGivenNames x; refine (have hx : Keeps s x := ?_; ?_); rotate_left; clear_value x; rotate_right)
    | (extract_lets +onlyGivenNames x; clear_value x) | subst x | with_reducible apply Keeps.after (State.bump_keeps _ _ _ _)
    | with_reducible apply Keeps.after (State.raise_keeps _ _ _) | with_reducible apply Keeps.ite | (with_reducible apply Keeps.whenB; intro s)
    | split

theorem execProgramArrayTier_keeps (part : Fin 12) (entry : Nat) (s : State) : OutKeeps s (execProgramArrayTier part entry s) := by
  unfold execProgramArrayTier
  repeat' first
    | with_reducible exact .refl _ | with_reducible assumption | with_reducible intro s | with_reducible apply OutKeeps.refused
    | with_reducible apply OutKeeps.ite
    | (extract_lets +onlyGivenNames x; refine (have hx : Keeps s x := ?_; ?_); rotate_left; clear_value x; rotate_right)
    | (extract_lets +onlyGivenNames x; clear_value x) | subst x | with_reducible apply OutKeeps.next | with_reducible apply Keeps.ite | split
    | with_reducible apply Keeps.after (State.startProgram_keeps _ _ _ _) | with_reducible apply Keeps.after (State.touchStaged_keeps _ _ _ _ _)
    | with_reducible apply Keeps.after (State.badAttempt_keeps _ _ _) | with_reducible apply Keeps.after (State.loadFail_keeps _ _ _ _)
    | with_reducible apply Keeps.after (State.onLoad_keeps _ _ _) | with_reducible apply Keeps.ite | with_reducible apply Keeps.other

theorem State.faultRecords_keeps (p k phys tier : Nat) (failed : List (Nat × Nat)) (s : State) : Keeps s (State.faultRecords p k phys tier failed s) := by
  unfold State.faultRecords
  repeat' first
    | with_reducible exact .refl _ | with_reducible assumption | with_reducible intro s
    | (extract_lets +onlyGivenNames x; refine (have hx : Keeps s x := ?_; ?_); rotate_left; clear_value x; rotate_right)
    | (extract_lets +onlyGivenNames x; clear_value x) | subst x | with_reducible apply Keeps.ite | split
    | with_reducible apply Keeps.after (State.onLoad_keeps _ _ _) | with_reducible apply Keeps.after (State.mwr_keeps _ _ _)
    | with_reducible apply Keeps.after (State.count_keeps _ _ _) | with_reducible apply Keeps.ite | (with_reducible apply Keeps.each; intro _ s)

theorem execProgramVerifyEnd_keeps (part : Fin 12) (entry trains : Nat) (failed : List (Nat × Nat)) (s : State) : OutKeeps s (execProgramVerifyEnd part entry trains failed s) := by
  unfold execProgramVerifyEnd
  repeat' first
    | with_reducible exact .refl _ | with_reducible assumption | with_reducible intro s | with_reducible apply OutKeeps.refused
    | with_reducible apply OutKeeps.ite
    | (extract_lets +onlyGivenNames x; refine (have hx : Keeps s x := ?_; ?_); rotate_left; clear_value x; rotate_right)
    | (extract_lets +onlyGivenNames x; clear_value x) | subst x | with_reducible apply OutKeeps.next | with_reducible apply Keeps.ite | split
    | with_reducible apply Keeps.after (State.faultRecords_keeps _ _ _ _ _ _) | with_reducible apply Keeps.after (State.countProgram_keeps _ _ _)
    | with_reducible apply Keeps.after (State.endProgram_keeps _ _ _ _ _ _ _) | with_reducible apply Keeps.after (State.releaseShard_keeps _ _ _)
    | with_reducible apply Keeps.after (State.tryDone_keeps _ _) | with_reducible apply Keeps.after (State.requestShards_keeps _ _)
    | with_reducible apply Keeps.after (State.onLoad_keeps _ _ _) | with_reducible apply Keeps.ite | (with_reducible apply Keeps.foldl; intro s _)
    | (with_reducible apply Keeps.nv; rotate_left; rfl; rfl; rfl; rfl; rfl) | with_reducible apply Keeps.other

/-! ### Repair -/

theorem State.setVerdictCover_keeps (p k array v slot : Nat) (s : State) : Keeps s (State.setVerdictCover p k array v slot s) := by
  unfold State.setVerdictCover
  repeat' first
    | with_reducible exact .refl _ | with_reducible assumption | with_reducible intro s | with_reducible apply Keeps.after (State.onPart_keeps _ _ _)
    | with_reducible apply Keeps.ite | split

theorem State.repairFailed_keeps (p k array : Nat) (s : State) : Keeps s (State.repairFailed p k array s) := by
  unfold State.repairFailed
  repeat' first
    | with_reducible exact .refl _ | with_reducible assumption | with_reducible intro s | with_reducible apply Keeps.after (State.report_keeps _ _ _)
    | with_reducible apply Keeps.after (State.raise_keeps _ _ _) | with_reducible apply Keeps.ite | split

theorem execCoverFetch_keeps (part : Fin 12) (s : State) : OutKeeps s (execCoverFetch part s) := by
  unfold execCoverFetch
  repeat' first
    | with_reducible exact .refl _ | with_reducible assumption | with_reducible intro s | with_reducible apply OutKeeps.refused
    | with_reducible apply OutKeeps.ite
    | (extract_lets +onlyGivenNames x; refine (have hx : Keeps s x := ?_; ?_); rotate_left; clear_value x; rotate_right)
    | (extract_lets +onlyGivenNames x; clear_value x) | subst x | with_reducible apply OutKeeps.next | with_reducible apply Keeps.ite | split
    | with_reducible apply Keeps.after (State.repairFailed_keeps _ _ _ _) | with_reducible apply Keeps.after (State.setVerdictCover_keeps _ _ _ _ _ _)
    | with_reducible apply Keeps.after (State.setRepairStat_keeps _ _) | with_reducible apply Keeps.after (State.askShard_keeps _ _ _ _)
    | with_reducible apply Keeps.after (State.onPart_keeps _ _ _) | with_reducible apply Keeps.ite | (with_reducible apply Keeps.each; intro _ s)

theorem State.putCover_keeps (p slot tier : Nat) (bytes : List Byte) (s : State) : Keeps s (State.putCover p slot tier bytes s) := by
  unfold State.putCover
  repeat' first
    | with_reducible exact .refl _ | with_reducible assumption | with_reducible intro s
    | (extract_lets +onlyGivenNames x; refine (have hx : Keeps s x := ?_; ?_); rotate_left; clear_value x; rotate_right)
    | (extract_lets +onlyGivenNames x; clear_value x) | subst x | with_reducible apply Keeps.after (State.mwr_keeps _ _ _)
    | with_reducible apply Keeps.ite | split

theorem State.coverFailed_keeps (p slot : Nat) (c : Cover) (s : State) : Keeps s (State.coverFailed p slot c s) := by
  unfold State.coverFailed
  repeat' first
    | with_reducible exact .refl _ | with_reducible assumption | with_reducible intro s
    | (extract_lets +onlyGivenNames x; refine (have hx : Keeps s x := ?_; ?_); rotate_left; clear_value x; rotate_right)
    | (extract_lets +onlyGivenNames x; clear_value x) | subst x | with_reducible apply Keeps.after (State.repairFailed_keeps _ _ _ _)
    | with_reducible apply Keeps.after (State.setVerdictCover_keeps _ _ _ _ _ _) | with_reducible apply Keeps.after (State.setRepairStat_keeps _ _)
    | with_reducible apply Keeps.after (State.pruneReads_keeps _ _) | with_reducible apply Keeps.after (State.onPart_keeps _ _ _)
    | with_reducible apply Keeps.ite | split

theorem State.reFetch_keeps (p key failed : Nat) (s : State) : Keeps s (State.reFetch p key failed s) := by
  unfold State.reFetch
  repeat' first
    | with_reducible exact .refl _ | with_reducible assumption | with_reducible intro s
    | with_reducible apply Keeps.after (State.askShard_keeps _ _ _ _) | with_reducible apply Keeps.after (State.endReads_keeps _ _ _)
    | with_reducible apply Keeps.after (State.count_keeps _ _ _) | with_reducible apply Keeps.ite | split

theorem State.coverTake_keeps (p slot : Nat) (c : Cover) (got : Nat → ShardGot) (s : State) : Keeps s (State.coverTake p slot c got s) := by
  unfold State.coverTake
  repeat' first
    | with_reducible exact .refl _ | with_reducible assumption | with_reducible intro s
    | (extract_lets +onlyGivenNames x; refine (have hx : Keeps s x := ?_; ?_); rotate_left; clear_value x; rotate_right)
    | (extract_lets +onlyGivenNames x; clear_value x) | subst x | with_reducible apply Keeps.ite | split
    | with_reducible apply Keeps.after (State.reFetch_keeps _ _ _ _) | with_reducible apply Keeps.after (State.coverFailed_keeps _ _ _ _)
    | with_reducible apply Keeps.after (State.putCover_keeps _ _ _ _ _) | with_reducible apply Keeps.after (State.setVerdictCover_keeps _ _ _ _ _ _)
    | with_reducible apply Keeps.after (State.setRepairStat_keeps _ _) | with_reducible apply Keeps.after (State.onPart_keeps _ _ _)
    | with_reducible apply Keeps.after (State.raise_keeps _ _ _) | with_reducible apply Keeps.ite | (with_reducible apply Keeps.foldl; intro s _)
    | (with_reducible apply Keeps.each; intro _ s) | with_reducible apply Keeps.other

theorem State.repairTake_keeps (p : Nat) (x : Nat × Blk) (got : Nat → ShardGot) (s : State) : Keeps s (State.repairTake p x got s) := by
  unfold State.repairTake
  repeat' first
    | with_reducible exact .refl _ | with_reducible assumption | with_reducible intro s
    | (extract_lets +onlyGivenNames x; refine (have hx : Keeps s x := ?_; ?_); rotate_left; clear_value x; rotate_right)
    | (extract_lets +onlyGivenNames x; clear_value x) | subst x | with_reducible apply Keeps.ite | split
    | with_reducible apply Keeps.after (State.reFetch_keeps _ _ _ _) | with_reducible apply Keeps.after (State.repairLost_keeps _ _ _)
    | with_reducible apply Keeps.after (State.putBlk_keeps _ _ _) | with_reducible apply Keeps.after (State.report_keeps _ _ _)
    | with_reducible apply Keeps.after (State.onPart_keeps _ _ _) | with_reducible apply Keeps.ite

theorem State.fetched_keeps (p slot : Nat) (got : Nat → ShardGot) (s : State) : Keeps s (State.fetched p slot got s) := by
  unfold State.fetched
  repeat' first
    | with_reducible exact .refl _ | with_reducible assumption | with_reducible intro s
    | (extract_lets +onlyGivenNames x; refine (have hx : Keeps s x := ?_; ?_); rotate_left; clear_value x; rotate_right)
    | (extract_lets +onlyGivenNames x; clear_value x) | subst x | with_reducible apply Keeps.ite | split
    | with_reducible apply Keeps.after (State.repairTake_keeps _ _ _ _) | with_reducible apply Keeps.after (State.coverTake_keeps _ _ _ _ _)
    | with_reducible apply Keeps.after (State.pruneReads_keeps _ _) | with_reducible apply Keeps.ite | (with_reducible apply Keeps.each; intro _ s)
    | with_reducible apply Keeps.other

theorem execCoverReady_keeps (part : Fin 12) (slot : Fin 32) (stored : List (Nat × List Byte)) (s : State) : OutKeeps s (execCoverReady part slot stored s) := by
  unfold execCoverReady
  repeat' first
    | with_reducible exact .refl _ | with_reducible assumption | with_reducible intro s | with_reducible apply OutKeeps.refused
    | with_reducible apply OutKeeps.ite
    | (extract_lets +onlyGivenNames x; refine (have hx : Keeps s x := ?_; ?_); rotate_left; clear_value x; rotate_right)
    | (extract_lets +onlyGivenNames x; clear_value x) | subst x | with_reducible apply OutKeeps.next
    | with_reducible apply Keeps.after (State.fetched_keeps _ _ _ _) | with_reducible apply Keeps.after (State.bump_keeps _ _ _ _)
    | with_reducible apply Keeps.ite | (with_reducible apply Keeps.foldl; intro s _) | split

theorem State.fetchError_keeps (p key : Nat) (s : State) : Keeps s (State.fetchError p key s) := by
  unfold State.fetchError
  repeat' first
    | with_reducible exact .refl _ | with_reducible assumption | with_reducible intro s
    | (extract_lets +onlyGivenNames x; refine (have hx : Keeps s x := ?_; ?_); rotate_left; clear_value x; rotate_right)
    | (extract_lets +onlyGivenNames x; clear_value x) | subst x | with_reducible apply Keeps.after (State.repairTake_keeps _ _ _ _)
    | with_reducible apply Keeps.after (State.coverTake_keeps _ _ _ _ _) | with_reducible apply Keeps.after (State.pruneReads_keeps _ _)
    | with_reducible apply Keeps.ite | (with_reducible apply Keeps.each; intro _ s) | split

theorem State.idleError_keeps (p : Nat) (o : Origin) (s : State) : Keeps s (State.idleError p o s) := by
  unfold State.idleError
  repeat' first
    | with_reducible exact .refl _ | with_reducible assumption | with_reducible intro s
    | (extract_lets +onlyGivenNames x; refine (have hx : Keeps s x := ?_; ?_); rotate_left; clear_value x; rotate_right)
    | (extract_lets +onlyGivenNames x; clear_value x) | subst x | with_reducible apply Keeps.ite | split
    | with_reducible apply Keeps.after (State.fetchError_keeps _ _ _) | with_reducible apply Keeps.after (State.badAttempt_keeps _ _ _)
    | with_reducible apply Keeps.after (State.drainInbox_keeps _ _ _) | with_reducible apply Keeps.after (State.returnCredits_keeps _ _ _)
    | with_reducible apply Keeps.after (State.cancelResult_keeps _ _ _ _ _ _) | with_reducible apply Keeps.after (State.respond_keeps _ _ _)
    | with_reducible apply Keeps.after (State.stewardParity_keeps _ _) | with_reducible apply Keeps.after (State.flagCount_keeps _ _ _ _)
    | with_reducible apply Keeps.after (State.onPart_keeps _ _ _) | with_reducible apply Keeps.after (State.onStk_keeps _ _ _)
    | with_reducible apply Keeps.ite

theorem execDetectedError_keeps (part : Fin 12) (origin : Origin) (s : State) : OutKeeps s (execDetectedError part origin s) := by
  unfold execDetectedError
  repeat' first
    | with_reducible exact .refl _ | with_reducible assumption | with_reducible intro s | with_reducible apply OutKeeps.refused
    | with_reducible apply OutKeeps.ite
    | (extract_lets +onlyGivenNames x; refine (have hx : Keeps s x := ?_; ?_); rotate_left; clear_value x; rotate_right)
    | (extract_lets +onlyGivenNames x; clear_value x) | subst x | with_reducible apply OutKeeps.next
    | with_reducible apply Keeps.after (State.idleError_keeps _ _ _) | with_reducible apply Keeps.after (State.stepError_keeps _ _ _)
    | with_reducible apply Keeps.after (State.noteError_keeps _ _ _) | with_reducible apply Keeps.ite | split

theorem State.stopCovers_keeps (p : Nat) (s : State) : Keeps s (State.stopCovers p s) := by
  unfold State.stopCovers
  repeat' first
    | with_reducible exact .refl _ | with_reducible assumption | with_reducible intro s
    | with_reducible apply Keeps.after (State.coverFailed_keeps _ _ _ _) | with_reducible apply Keeps.ite
    | (with_reducible apply Keeps.each; intro _ s) | split

theorem State.maskReady_keeps (p : Nat) (s : State) : Keeps s (State.maskReady p s) := by
  unfold State.maskReady
  repeat' first
    | with_reducible exact .refl _ | with_reducible assumption | with_reducible intro s
    | (extract_lets +onlyGivenNames x; refine (have hx : Keeps s x := ?_; ?_); rotate_left; clear_value x; rotate_right)
    | (extract_lets +onlyGivenNames x; clear_value x) | subst x | with_reducible apply Keeps.after (State.setRepairStat_keeps _ _)
    | with_reducible apply Keeps.after (State.onPart_keeps _ _ _) | with_reducible apply Keeps.after (State.onStk_keeps _ _ _)
    | with_reducible apply Keeps.ite | (with_reducible apply Keeps.each; intro _ s) | split

theorem State.liftPending_keeps (p : Nat) (s : State) : Keeps s (State.liftPending p s) := by
  unfold State.liftPending
  repeat' first
    | with_reducible exact .refl _ | with_reducible assumption | with_reducible intro s
    | (extract_lets +onlyGivenNames x; refine (have hx : Keeps s x := ?_; ?_); rotate_left; clear_value x; rotate_right)
    | (extract_lets +onlyGivenNames x; clear_value x) | subst x | with_reducible apply Keeps.after (State.liftMask_keeps _ _ _ _)
    | with_reducible apply Keeps.after (State.onPart_keeps _ _ _) | with_reducible apply Keeps.ite | (with_reducible apply Keeps.each; intro _ s)
    | split

theorem State.dropCovers_keeps (p : Nat) (s : State) : Keeps s (State.dropCovers p s) := by
  unfold State.dropCovers
  repeat' first
    | with_reducible exact .refl _ | with_reducible assumption | with_reducible intro s
    | (extract_lets +onlyGivenNames x; refine (have hx : Keeps s x := ?_; ?_); rotate_left; clear_value x; rotate_right)
    | (extract_lets +onlyGivenNames x; clear_value x) | subst x | with_reducible apply Keeps.after (State.releaseVerdict_keeps _ _ _ _)
    | with_reducible apply Keeps.after (State.setRepairStat_keeps _ _) | with_reducible apply Keeps.after (State.pruneReads_keeps _ _)
    | with_reducible apply Keeps.after (State.onPart_keeps _ _ _) | with_reducible apply Keeps.after (State.onStk_keeps _ _ _)
    | with_reducible apply Keeps.ite | (with_reducible apply Keeps.each; intro _ s) | split

theorem State.actMaskClear_keeps (p : Nat) (s : State) : Keeps s (State.actMaskClear p s) := by
  unfold State.actMaskClear
  repeat' first
    | with_reducible exact .refl _ | with_reducible assumption | with_reducible intro s
    | (extract_lets +onlyGivenNames x; refine (have hx : Keeps s x := ?_; ?_); rotate_left; clear_value x; rotate_right)
    | (extract_lets +onlyGivenNames x; clear_value x) | subst x | with_reducible apply Keeps.after (State.liftPending_keeps _ _)
    | with_reducible apply Keeps.after (State.onPart_keeps _ _ _) | with_reducible apply Keeps.ite | (with_reducible apply Keeps.whenB; intro s)
    | split

theorem execMaskClear_keeps (part : Fin 12) (s : State) : OutKeeps s (execMaskClear part s) := by
  unfold execMaskClear
  repeat' first
    | with_reducible exact .refl _ | with_reducible assumption | with_reducible intro s | with_reducible apply OutKeeps.refused
    | with_reducible apply OutKeeps.ite | with_reducible apply OutKeeps.next | with_reducible apply Keeps.after (State.actMaskClear_keeps _ _)
    | with_reducible apply Keeps.after (State.ofPart_keeps _ _ ?_ _) | with_reducible apply Keeps.ite | split

theorem State.spareRefused_keeps (p : Nat) (s : State) : Keeps s (State.spareRefused p s) := by
  unfold State.spareRefused
  repeat' first
    | with_reducible exact .refl _ | with_reducible assumption | with_reducible intro s | with_reducible apply Keeps.after (State.raise_keeps _ _ _)
    | with_reducible apply Keeps.after (State.wr_keeps _ _ _ _) | with_reducible apply Keeps.ite | split

theorem State.actSpareGo_keeps (p mode : Nat) (s : State) : Keeps s (State.actSpareGo p mode s) := by
  unfold State.actSpareGo
  repeat' first
    | with_reducible exact .refl _ | with_reducible assumption | with_reducible intro s
    | (extract_lets +onlyGivenNames x; refine (have hx : Keeps s x := ?_; ?_); rotate_left; clear_value x; rotate_right)
    | (extract_lets +onlyGivenNames x; clear_value x) | subst x | with_reducible apply Keeps.ite | split
    | with_reducible apply Keeps.after (State.spareRefused_keeps _ _) | with_reducible apply Keeps.after (State.startProgram_keeps _ _ _ _)
    | with_reducible apply Keeps.after (State.setRepairStat_keeps _ _) | with_reducible apply Keeps.after (State.onPart_keeps _ _ _)
    | with_reducible apply Keeps.after (State.wr_keeps _ _ _ _) | with_reducible apply Keeps.ite | (with_reducible apply Keeps.each; intro _ s)

theorem execSpareArrayProgram_keeps (part : Fin 12) (s : State) : OutKeeps s (execSpareArrayProgram part s) := by
  unfold execSpareArrayProgram
  repeat' first
    | with_reducible exact .refl _ | with_reducible assumption | with_reducible intro s | with_reducible apply OutKeeps.refused
    | with_reducible apply OutKeeps.ite | with_reducible apply OutKeeps.next | with_reducible apply Keeps.after (State.actSpareGo_keeps _ _ _)
    | with_reducible apply Keeps.after (State.ofPart_keeps _ _ ?_ _) | with_reducible apply Keeps.after (State.wr_keeps _ _ _ _)
    | with_reducible apply Keeps.ite | split

theorem execSpareColumnProgram_keeps (part : Fin 12) (s : State) : OutKeeps s (execSpareColumnProgram part s) := by
  unfold execSpareColumnProgram
  repeat' first
    | with_reducible exact .refl _ | with_reducible assumption | with_reducible intro s | with_reducible apply OutKeeps.refused
    | with_reducible apply OutKeeps.ite | with_reducible apply OutKeeps.next | with_reducible apply Keeps.after (State.actSpareGo_keeps _ _ _)
    | with_reducible apply Keeps.after (State.ofPart_keeps _ _ ?_ _) | with_reducible apply Keeps.after (State.wr_keeps _ _ _ _)
    | with_reducible apply Keeps.ite | split

theorem State.spareFail_keeps (p k phys : Nat) (s : State) : Keeps s (State.spareFail p k phys s) := by
  unfold State.spareFail
  repeat' first
    | with_reducible exact .refl _ | with_reducible assumption | with_reducible intro s | with_reducible apply Keeps.after (State.report_keeps _ _ _)
    | with_reducible apply Keeps.after (State.raise_keeps _ _ _) | with_reducible apply Keeps.after (State.wr_keeps _ _ _ _)
    | with_reducible apply Keeps.ite | split

theorem State.endSpareTier_keeps (p k phys array : Nat) (cols : Option (List (Nat × Nat))) (failed : List (Nat × Nat))
    (t : Nat × Nat × List Byte) (s : State) : Keeps s (State.endSpareTier p k phys array cols failed t s) := by
  unfold State.endSpareTier
  extract_lets block old cells u
  have hu : Keeps s u := State.endProgram_keeps ..
  clear_value u
  split
  · exact hu
  split
  · exact (Keeps.nv _ hu rfl rfl rfl rfl rfl)
  · exact hu

theorem execSpareProgramEnd_keeps (part : Fin 12) (trains failed : Nat) (s : State) : OutKeeps s (execSpareProgramEnd part trains failed s) := by
  unfold execSpareProgramEnd
  extract_lets p cols u
  split
  · exact .next (.refl _)
  apply OutKeeps.ite
  · exact .next (.refl _)
  extract_lets tiers at_
  have hu : Keeps s u := State.countProgram_keeps ..
  clear_value u
  split
  next heq =>
  have hd := (Keeps.unlessDraw heq).after hu
  extract_lets v w x
  have hv : Keeps s v := Keeps.each _ (fun _ _ => State.endSpareTier_keeps ..) hd
  have hx : Keeps s x := (State.raise_keeps ..).after ((State.setRepairStat_keeps ..).after ((State.wr_keeps ..).after ((State.onPart_keeps ..).after hv)))
  clear_value v w x
  apply OutKeeps.ite
  · exact .next ((State.report_keeps ..).after ((State.wr_keeps ..).after hx))
  · exact .next ((State.spareFail_keeps ..).after hx)

theorem State.stopSpare_keeps (p : Nat) (s : State) : Keeps s (State.stopSpare p s) := by
  unfold State.stopSpare
  repeat' first
    | with_reducible exact .refl _ | with_reducible assumption | with_reducible intro s
    | (extract_lets +onlyGivenNames x; refine (have hx : Keeps s x := ?_; ?_); rotate_left; clear_value x; rotate_right)
    | (extract_lets +onlyGivenNames x; clear_value x) | subst x | with_reducible apply Keeps.ite | split
    | with_reducible apply Keeps.after (State.spareFail_keeps _ _ _ _) | with_reducible apply Keeps.after (State.setRepairStat_keeps _ _)
    | with_reducible apply Keeps.after (State.setProgramming_keeps _) | with_reducible apply Keeps.after (State.onPart_keeps _ _ _)
    | with_reducible apply Keeps.after (State.onStk_keeps _ _ _) | with_reducible apply Keeps.ite | with_reducible apply Keeps.other

theorem State.applyUnavail_keeps (p : Nat) (s : State) : Keeps s (State.applyUnavail p s) := by
  unfold State.applyUnavail
  repeat' first
    | with_reducible exact .refl _ | with_reducible assumption | with_reducible intro s
    | (extract_lets +onlyGivenNames x; refine (have hx : Keeps s x := ?_; ?_); rotate_left; clear_value x; rotate_right)
    | (extract_lets +onlyGivenNames x; clear_value x) | subst x | with_reducible apply Keeps.ite | split
    | with_reducible apply Keeps.after (State.mwr_keeps _ _ _) | with_reducible apply Keeps.after (State.report_keeps _ _ _)
    | with_reducible apply Keeps.after (State.onPart_keeps _ _ _) | with_reducible apply Keeps.ite | (with_reducible apply Keeps.each; intro _ s)
    | (with_reducible apply Keeps.whenB; intro s)

theorem State.actUnavail_keeps (p : Nat) (on : Bool) (s : State) : Keeps s (State.actUnavail p on s) := by
  unfold State.actUnavail
  repeat' first
    | with_reducible exact .refl _ | with_reducible assumption | with_reducible intro s
    | (extract_lets +onlyGivenNames x; refine (have hx : Keeps s x := ?_; ?_); rotate_left; clear_value x; rotate_right)
    | (extract_lets +onlyGivenNames x; clear_value x) | subst x | with_reducible apply Keeps.after (State.applyUnavail_keeps _ _)
    | with_reducible apply Keeps.after (State.onPart_keeps _ _ _) | with_reducible apply Keeps.ite | (with_reducible apply Keeps.whenB; intro s)
    | split

theorem execUnavailSet_keeps (part : Fin 12) (s : State) : OutKeeps s (execUnavailSet part s) := by
  unfold execUnavailSet
  repeat' first
    | with_reducible exact .refl _ | with_reducible assumption | with_reducible intro s | with_reducible apply OutKeeps.refused
    | with_reducible apply OutKeeps.ite | with_reducible apply OutKeeps.next | with_reducible apply Keeps.after (State.actUnavail_keeps _ _ _)
    | with_reducible apply Keeps.after (State.ofPart_keeps _ _ ?_ _) | with_reducible apply Keeps.ite | split

theorem execUnavailClear_keeps (part : Fin 12) (s : State) : OutKeeps s (execUnavailClear part s) := by
  unfold execUnavailClear
  repeat' first
    | with_reducible exact .refl _ | with_reducible assumption | with_reducible intro s | with_reducible apply OutKeeps.refused
    | with_reducible apply OutKeeps.ite | with_reducible apply OutKeeps.next | with_reducible apply Keeps.after (State.actUnavail_keeps _ _ _)
    | with_reducible apply Keeps.after (State.ofPart_keeps _ _ ?_ _) | with_reducible apply Keeps.ite | split

theorem State.actVerdictPop_keeps (p : Nat) (s : State) : Keeps s (State.actVerdictPop p s) := by
  unfold State.actVerdictPop
  repeat' first
    | with_reducible exact .refl _ | with_reducible assumption | with_reducible intro s | with_reducible apply Keeps.after (State.onPart_keeps _ _ _)
    | with_reducible apply Keeps.ite | split

theorem execVerdictPop_keeps (part : Fin 12) (s : State) : OutKeeps s (execVerdictPop part s) := by
  unfold execVerdictPop
  repeat' first
    | with_reducible exact .refl _ | with_reducible assumption | with_reducible intro s | with_reducible apply OutKeeps.refused
    | with_reducible apply OutKeeps.ite | with_reducible apply OutKeeps.next | with_reducible apply Keeps.after (State.actVerdictPop_keeps _ _)
    | with_reducible apply Keeps.after (State.ofPart_keeps _ _ ?_ _) | with_reducible apply Keeps.ite | split

/-! ### Boundary -/

theorem State.cfgFirst_keeps (p : Nat) (s : State) : Keeps s (State.cfgFirst p s) := by
  unfold State.cfgFirst
  repeat' first
    | with_reducible exact .refl _ | with_reducible assumption | with_reducible intro s
    | (extract_lets +onlyGivenNames x; refine (have hx : Keeps s x := ?_; ?_); rotate_left; clear_value x; rotate_right)
    | (extract_lets +onlyGivenNames x; clear_value x) | subst x | with_reducible apply Keeps.after (State.onPart_keeps _ _ _)
    | with_reducible apply Keeps.ite | split

theorem State.cfgUpdate_keeps (p : Nat) (s : State) : Keeps s (State.cfgUpdate p s) := by
  unfold State.cfgUpdate
  repeat' first
    | with_reducible exact .refl _ | with_reducible assumption | with_reducible intro s
    | (extract_lets +onlyGivenNames x; refine (have hx : Keeps s x := ?_; ?_); rotate_left; clear_value x; rotate_right)
    | (extract_lets +onlyGivenNames x; clear_value x) | subst x | with_reducible apply Keeps.after (State.flagCount_keeps _ _ _ _)
    | with_reducible apply Keeps.after (State.onPart_keeps _ _ _) | with_reducible apply Keeps.ite | split

theorem State.setPlacementRegs_keeps (p : Nat) (s : State) : Keeps s (State.setPlacementRegs p s) := by
  unfold State.setPlacementRegs
  repeat' first
    | with_reducible exact .refl _ | with_reducible assumption | with_reducible intro s
    | (extract_lets +onlyGivenNames x; refine (have hx : Keeps s x := ?_; ?_); rotate_left; clear_value x; rotate_right)
    | (extract_lets +onlyGivenNames x; clear_value x) | subst x | with_reducible apply Keeps.ite | split
    | with_reducible apply Keeps.after (State.wrB_keeps _ _ _ _) | with_reducible apply Keeps.after (State.wr_keeps _ _ _ _)
    | with_reducible apply Keeps.ite

theorem State.placeReport_keeps (p : Nat) (s : State) : Keeps s (State.placeReport p s) := by
  unfold State.placeReport
  repeat' first
    | with_reducible exact .refl _ | with_reducible assumption | with_reducible intro s | with_reducible apply Keeps.after (State.report_keeps _ _ _)
    | with_reducible apply Keeps.ite | split

theorem State.switchNow_keeps (p : Nat) (drain : Bool) (s : State) : Keeps s (State.switchNow p drain s) := by
  unfold State.switchNow
  repeat' first
    | with_reducible exact .refl _ | with_reducible assumption | with_reducible intro s
    | (extract_lets +onlyGivenNames x; refine (have hx : Keeps s x := ?_; ?_); rotate_left; clear_value x; rotate_right)
    | (extract_lets +onlyGivenNames x; clear_value x) | subst x | with_reducible apply Keeps.ite | split
    | with_reducible apply Keeps.after (State.placeReport_keeps _ _) | with_reducible apply Keeps.after (State.setPlacementRegs_keeps _ _)
    | with_reducible apply Keeps.after (State.setCorrBytes_keeps _) | with_reducible apply Keeps.after (State.flushTree_keeps _ _)
    | with_reducible apply Keeps.after (State.refetch_keeps _ _) | with_reducible apply Keeps.after (State.onPart_keeps _ _ _)
    | with_reducible apply Keeps.after (State.raise_keeps _ _ _) | with_reducible apply Keeps.after (State.wr_keeps _ _ _ _)
    | with_reducible apply Keeps.ite | (with_reducible apply Keeps.whenB; intro s)

theorem State.trySwitch_keeps (p : Nat) (s : State) : Keeps s (State.trySwitch p s) := by
  unfold State.trySwitch
  repeat' first
    | with_reducible exact .refl _ | with_reducible assumption | with_reducible intro s
    | with_reducible apply Keeps.after (State.switchNow_keeps _ _ _) | with_reducible apply Keeps.ite | (with_reducible apply Keeps.whenB; intro s)
    | split

theorem State.actSwitch_keeps (p : Nat) (immediate : Bool) (s : State) : Keeps s (State.actSwitch p immediate s) := by
  unfold State.actSwitch
  repeat' first
    | with_reducible exact .refl _ | with_reducible assumption | with_reducible intro s
    | (extract_lets +onlyGivenNames x; refine (have hx : Keeps s x := ?_; ?_); rotate_left; clear_value x; rotate_right)
    | (extract_lets +onlyGivenNames x; clear_value x) | subst x | with_reducible apply Keeps.after (State.trySwitch_keeps _ _)
    | with_reducible apply Keeps.after (State.onPart_keeps _ _ _) | with_reducible apply Keeps.after (State.raise_keeps _ _ _)
    | with_reducible apply Keeps.after (State.wr_keeps _ _ _ _) | with_reducible apply Keeps.ite | (with_reducible apply Keeps.whenB; intro s) | split

theorem execSwitchDrain_keeps (part : Fin 12) (s : State) : OutKeeps s (execSwitchDrain part s) := by
  unfold execSwitchDrain
  repeat' first
    | with_reducible exact .refl _ | with_reducible assumption | with_reducible intro s | with_reducible apply OutKeeps.refused
    | with_reducible apply OutKeeps.ite | with_reducible apply OutKeeps.next | with_reducible apply Keeps.after (State.actSwitch_keeps _ _ _)
    | with_reducible apply Keeps.after (State.ofPart_keeps _ _ ?_ _) | with_reducible apply Keeps.after (State.wr_keeps _ _ _ _)
    | with_reducible apply Keeps.ite | split

theorem execSwitchImmediate_keeps (part : Fin 12) (s : State) : OutKeeps s (execSwitchImmediate part s) := by
  unfold execSwitchImmediate
  repeat' first
    | with_reducible exact .refl _ | with_reducible assumption | with_reducible intro s | with_reducible apply OutKeeps.refused
    | with_reducible apply OutKeeps.ite | with_reducible apply OutKeeps.next | with_reducible apply Keeps.after (State.actSwitch_keeps _ _ _)
    | with_reducible apply Keeps.after (State.ofPart_keeps _ _ ?_ _) | with_reducible apply Keeps.after (State.wr_keeps _ _ _ _)
    | with_reducible apply Keeps.ite | split

theorem State.actRetire_keeps (p : Nat) (s : State) : Keeps s (State.actRetire p s) := by
  unfold State.actRetire
  repeat' first
    | with_reducible exact .refl _ | with_reducible assumption | with_reducible intro s
    | (extract_lets +onlyGivenNames x; refine (have hx : Keeps s x := ?_; ?_); rotate_left; clear_value x; rotate_right)
    | (extract_lets +onlyGivenNames x; clear_value x) | subst x | with_reducible apply Keeps.after (State.placeReport_keeps _ _)
    | with_reducible apply Keeps.after (State.setPlacementRegs_keeps _ _) | with_reducible apply Keeps.after (State.dropCovers_keeps _ _)
    | with_reducible apply Keeps.after (State.setCorrBytes_keeps _) | with_reducible apply Keeps.after (State.onPart_keeps _ _ _)
    | with_reducible apply Keeps.after (State.raise_keeps _ _ _) | with_reducible apply Keeps.ite | split

theorem execRetire_keeps (part : Fin 12) (s : State) : OutKeeps s (execRetire part s) := by
  unfold execRetire
  repeat' first
    | with_reducible exact .refl _ | with_reducible assumption | with_reducible intro s | with_reducible apply OutKeeps.refused
    | with_reducible apply OutKeeps.ite | with_reducible apply OutKeeps.next | with_reducible apply Keeps.after (State.actRetire_keeps _ _)
    | with_reducible apply Keeps.after (State.ofPart_keeps _ _ ?_ _) | with_reducible apply Keeps.ite | split

theorem State.disableDue_keeps (p : Nat) (s : State) : Keeps s (State.disableDue p s) := by
  unfold State.disableDue
  repeat' first
    | with_reducible exact .refl _ | with_reducible assumption | with_reducible intro s
    | (extract_lets +onlyGivenNames x; refine (have hx : Keeps s x := ?_; ?_); rotate_left; clear_value x; rotate_right)
    | (extract_lets +onlyGivenNames x; clear_value x) | subst x | with_reducible apply Keeps.after (State.onPart_keeps _ _ _)
    | with_reducible apply Keeps.after (State.wr_keeps _ _ _ _) | with_reducible apply Keeps.ite | (with_reducible apply Keeps.each; intro _ s)
    | (with_reducible apply Keeps.whenB; intro s) | split

theorem State.stackBoundary_keeps (k : Nat) (s : State) : Keeps s (State.stackBoundary k s) := by
  unfold State.stackBoundary
  repeat' first
    | with_reducible exact .refl _ | with_reducible assumption | with_reducible intro s
    | (extract_lets +onlyGivenNames x; refine (have hx : Keeps s x := ?_; ?_); rotate_left; clear_value x; rotate_right)
    | (extract_lets +onlyGivenNames x; clear_value x) | subst x | with_reducible apply Keeps.after (State.liftAct_keeps _ _)
    | with_reducible apply Keeps.after (State.windowEnded_keeps _ _) | with_reducible apply Keeps.after (State.exchangeTrims_keeps _ _ _)
    | with_reducible apply Keeps.after (State.mapExchange_keeps _ _) | with_reducible apply Keeps.after (State.onStk_keeps _ _ _)
    | with_reducible apply Keeps.ite | (with_reducible apply Keeps.foldl; intro s _) | (with_reducible apply Keeps.whenB; intro s) | split

theorem State.boundary_keeps (p : Nat) (s : State) : Keeps s (State.boundary p s) := by
  unfold State.boundary
  repeat' first
    | with_reducible exact .refl _ | with_reducible assumption | with_reducible intro s
    | (extract_lets +onlyGivenNames x; refine (have hx : Keeps s x := ?_; ?_); rotate_left; clear_value x; rotate_right)
    | (extract_lets +onlyGivenNames x; clear_value x) | subst x | with_reducible apply Keeps.after (State.stackBoundary_keeps _ _)
    | with_reducible apply Keeps.after (State.disableDue_keeps _ _) | with_reducible apply Keeps.after (State.trySwitch_keeps _ _)
    | with_reducible apply Keeps.after (State.cfgUpdate_keeps _ _) | with_reducible apply Keeps.after (State.applyUnavail_keeps _ _)
    | with_reducible apply Keeps.after (State.liftPending_keeps _ _) | with_reducible apply Keeps.after (State.maskReady_keeps _ _)
    | with_reducible apply Keeps.after (State.enterQuiet_keeps _ _) | with_reducible apply Keeps.after (State.preemptNow_keeps _ _ _)
    | with_reducible apply Keeps.after (State.flushTree_keeps _ _) | with_reducible apply Keeps.ite | (with_reducible apply Keeps.each; intro _ s)
    | (with_reducible apply Keeps.whenB; intro s) | split

theorem execStepBoundary_keeps (part : Fin 12) (s : State) : OutKeeps s (execStepBoundary part s) := by
  unfold execStepBoundary
  repeat' first
    | with_reducible exact .refl _ | with_reducible assumption | with_reducible intro s | with_reducible apply OutKeeps.refused
    | with_reducible apply OutKeeps.ite | with_reducible apply OutKeeps.next | with_reducible apply Keeps.after (State.boundary_keeps _ _)
    | with_reducible apply Keeps.ite | split

theorem State.boundaryForm_keeps (p : Nat) (s : State) : Keeps s (State.boundaryForm p s) := by
  unfold State.boundaryForm
  repeat' first
    | with_reducible exact .refl _ | with_reducible assumption | with_reducible intro s
    | (extract_lets +onlyGivenNames x; refine (have hx : Keeps s x := ?_; ?_); rotate_left; clear_value x; rotate_right)
    | (extract_lets +onlyGivenNames x; clear_value x) | subst x | with_reducible apply Keeps.after (State.boundary_keeps _ _)
    | with_reducible apply Keeps.after (State.holdPieces_keeps _ _) | with_reducible apply Keeps.after (State.formStep_keeps _ _)
    | with_reducible apply Keeps.after (State.freePieces_keeps _ _) | with_reducible apply Keeps.ite | (with_reducible apply Keeps.whenB; intro s)
    | split

/-! ### Fabric -/

theorem State.applyMoves_keeps (p : Nat) (s : State) : Keeps s (State.applyMoves p s) := by
  unfold State.applyMoves
  repeat' first
    | with_reducible exact .refl _ | with_reducible assumption | with_reducible intro s
    | (extract_lets +onlyGivenNames x; refine (have hx : Keeps s x := ?_; ?_); rotate_left; clear_value x; rotate_right)
    | (extract_lets +onlyGivenNames x; clear_value x) | subst x | with_reducible apply Keeps.after (State.onRoll_keeps _ _ _)
    | with_reducible apply Keeps.after (State.mwr_keeps _ _ _) | with_reducible apply Keeps.after (State.nonDet_keeps _ _ _)
    | with_reducible apply Keeps.after (State.flagCount_keeps _ _ _ _) | with_reducible apply Keeps.ite | (with_reducible apply Keeps.each; intro _ s)
    | (with_reducible apply Keeps.whenB; intro s) | split

theorem State.takeGo_keeps (p : Nat) (moves : List (Nat × Nat)) (s : State) : Keeps s (State.takeGo p moves s) := by
  unfold State.takeGo
  repeat' first
    | with_reducible exact .refl _ | with_reducible assumption | with_reducible intro s
    | (extract_lets +onlyGivenNames x; refine (have hx : Keeps s x := ?_; ?_); rotate_left; clear_value x; rotate_right)
    | (extract_lets +onlyGivenNames x; clear_value x) | subst x | with_reducible apply Keeps.after (State.onRoll_keeps _ _ _)
    | with_reducible apply Keeps.after (State.count_keeps _ _ _) | with_reducible apply Keeps.after (State.wr_keeps _ _ _ _)
    | with_reducible apply Keeps.ite | split

theorem State.leaderReady_keeps (p src : Nat) (s : State) : Keeps s (State.leaderReady p src s) := by
  unfold State.leaderReady
  repeat' first
    | with_reducible exact .refl _ | with_reducible assumption | with_reducible intro s
    | (extract_lets +onlyGivenNames x; refine (have hx : Keeps s x := ?_; ?_); rotate_left; clear_value x; rotate_right)
    | (extract_lets +onlyGivenNames x; clear_value x) | subst x | with_reducible apply Keeps.after (State.takeGo_keeps _ _ _)
    | with_reducible apply Keeps.after (State.onRoll_keeps _ _ _) | with_reducible apply Keeps.after (State.rollDown_keeps _ _ _ _)
    | with_reducible apply Keeps.ite | split

theorem State.rollStart_keeps (p : Nat) (s : State) : Keeps s (State.rollStart p s) := by
  unfold State.rollStart
  repeat' first
    | with_reducible exact .refl _ | with_reducible assumption | with_reducible intro s
    | (extract_lets +onlyGivenNames x; refine (have hx : Keeps s x := ?_; ?_); rotate_left; clear_value x; rotate_right)
    | (extract_lets +onlyGivenNames x; clear_value x) | subst x | with_reducible apply Keeps.after (State.leaderReady_keeps _ _ _)
    | with_reducible apply Keeps.after (State.onRoll_keeps _ _ _) | with_reducible apply Keeps.after (State.sendRoll_keeps _ _ _ _ _ _)
    | with_reducible apply Keeps.after (State.wr_keeps _ _ _ _) | with_reducible apply Keeps.ite | split

theorem execFormStep_keeps (part : Fin 12) (s : State) : OutKeeps s (execFormStep part s) := by
  unfold execFormStep
  repeat' first
    | with_reducible exact .refl _ | with_reducible assumption | with_reducible intro s | with_reducible apply OutKeeps.refused
    | with_reducible apply OutKeeps.ite
    | (extract_lets +onlyGivenNames x; refine (have hx : Keeps s x := ?_; ?_); rotate_left; clear_value x; rotate_right)
    | (extract_lets +onlyGivenNames x; clear_value x) | subst x | with_reducible apply OutKeeps.next
    | with_reducible apply Keeps.after (State.rollStart_keeps _ _) | with_reducible apply Keeps.after (State.boundaryForm_keeps _ _)
    | with_reducible apply Keeps.after (State.boundary_keeps _ _) | with_reducible apply Keeps.after (State.holdPieces_keeps _ _)
    | with_reducible apply Keeps.after (State.freePieces_keeps _ _) | with_reducible apply Keeps.ite | split

theorem State.rollIn_keeps (p code : Nat) (x : PortFlit) (act : State → State) (hact : ∀ u, Keeps u (act  u)) (s : State) : Keeps s (State.rollIn p code x act s) := by
  unfold State.rollIn
  repeat' first
    | with_reducible exact .refl _ | with_reducible assumption | with_reducible intro s | with_reducible apply Keeps.after (hact _ )
    | (extract_lets +onlyGivenNames x; refine (have hx : Keeps s x := ?_; ?_); rotate_left; clear_value x; rotate_right)
    | (extract_lets +onlyGivenNames x; clear_value x) | subst x | with_reducible apply Keeps.ite | split
    | with_reducible apply Keeps.after (State.handFlit_keeps _ _ _ ?_ _) | with_reducible apply Keeps.after (State.linkReceive_keeps _ _ _)
    | with_reducible apply Keeps.after (State.dropOn_keeps _ _) | with_reducible apply Keeps.ite | (with_reducible apply Keeps.whenB; intro s)
    | with_reducible refine Keeps.after (State.linkReceive_eq (by with_reducible assumption)) ?_

theorem execRollReady_keeps (part : Fin 12) (payload : PortFlit) (s : State) : OutKeeps s (execRollReady part payload s) := by
  unfold execRollReady
  repeat' first
    | with_reducible exact .refl _ | with_reducible assumption | with_reducible intro s | with_reducible apply OutKeeps.refused
    | with_reducible apply OutKeeps.ite
    | (extract_lets +onlyGivenNames x; refine (have hx : Keeps s x := ?_; ?_); rotate_left; clear_value x; rotate_right)
    | (extract_lets +onlyGivenNames x; clear_value x) | subst x | with_reducible apply OutKeeps.next
    | with_reducible apply Keeps.after (State.rollIn_keeps _ _ _ _ ?_ _) | with_reducible apply Keeps.after (State.leaderReady_keeps _ _ _)
    | with_reducible apply Keeps.after (State.sendRoll_keeps _ _ _ _ _ _) | with_reducible apply Keeps.ite | split

theorem execRollGo_keeps (part : Fin 12) (payload : PortFlit) (s : State) : OutKeeps s (execRollGo part payload s) := by
  unfold execRollGo
  repeat' first
    | with_reducible exact .refl _ | with_reducible assumption | with_reducible intro s | with_reducible apply OutKeeps.refused
    | with_reducible apply OutKeeps.ite
    | (extract_lets +onlyGivenNames x; refine (have hx : Keeps s x := ?_; ?_); rotate_left; clear_value x; rotate_right)
    | (extract_lets +onlyGivenNames x; clear_value x) | subst x | with_reducible apply OutKeeps.next
    | with_reducible apply Keeps.after (State.rollIn_keeps _ _ _ _ ?_ _) | with_reducible apply Keeps.after (State.takeGo_keeps _ _ _)
    | with_reducible apply Keeps.after (State.rollDown_keeps _ _ _ _) | with_reducible apply Keeps.ite | (with_reducible apply Keeps.whenB; intro s)
    | split

theorem execRollAbort_keeps (part : Fin 12) (payload : PortFlit) (s : State) : OutKeeps s (execRollAbort part payload s) := by
  unfold execRollAbort
  repeat' first
    | with_reducible exact .refl _ | with_reducible assumption | with_reducible intro s | with_reducible apply OutKeeps.refused
    | with_reducible apply OutKeeps.ite | with_reducible apply OutKeeps.next | with_reducible apply Keeps.after (State.rollIn_keeps _ _ _ _ ?_ _)
    | with_reducible apply Keeps.after (State.leaderAbort_keeps _ _) | with_reducible apply Keeps.ite | split

theorem execRollReplay_keeps (part : Fin 12) (payload : PortFlit) (s : State) : OutKeeps s (execRollReplay part payload s) := by
  unfold execRollReplay
  repeat' first
    | with_reducible exact .refl _ | with_reducible assumption | with_reducible intro s | with_reducible apply OutKeeps.refused
    | with_reducible apply OutKeeps.ite | with_reducible apply OutKeeps.next | with_reducible apply Keeps.after (State.rollIn_keeps _ _ _ _ ?_ _)
    | with_reducible apply Keeps.after (State.leaderReplay_keeps _ _) | with_reducible apply Keeps.ite | split

theorem execRollTimeout_keeps (part : Fin 12) (s : State) : OutKeeps s (execRollTimeout part s) := by
  unfold execRollTimeout
  repeat' first
    | with_reducible exact .refl _ | with_reducible assumption | with_reducible intro s | with_reducible apply OutKeeps.refused
    | with_reducible apply OutKeeps.ite
    | (extract_lets +onlyGivenNames x; refine (have hx : Keeps s x := ?_; ?_); rotate_left; clear_value x; rotate_right)
    | (extract_lets +onlyGivenNames x; clear_value x) | subst x | with_reducible apply OutKeeps.next
    | with_reducible apply Keeps.after (State.leaderAbort_keeps _ _) | with_reducible apply Keeps.ite | split

theorem execRollWaitTimeout_keeps (part : Fin 12) (s : State) : OutKeeps s (execRollWaitTimeout part s) := by
  unfold execRollWaitTimeout
  repeat' first
    | with_reducible exact .refl _ | with_reducible assumption | with_reducible intro s | with_reducible apply OutKeeps.refused
    | with_reducible apply OutKeeps.ite
    | (extract_lets +onlyGivenNames x; refine (have hx : Keeps s x := ?_; ?_); rotate_left; clear_value x; rotate_right)
    | (extract_lets +onlyGivenNames x; clear_value x) | subst x | with_reducible apply OutKeeps.next
    | with_reducible apply Keeps.after (State.rollFail_keeps _ _) | with_reducible apply Keeps.ite | split

theorem execEqualisingDelayEnd_keeps (part : Fin 12) (s : State) : OutKeeps s (execEqualisingDelayEnd part s) := by
  unfold execEqualisingDelayEnd
  repeat' first
    | with_reducible exact .refl _ | with_reducible assumption | with_reducible intro s | with_reducible apply OutKeeps.refused
    | with_reducible apply OutKeeps.ite
    | (extract_lets +onlyGivenNames x; refine (have hx : Keeps s x := ?_; ?_); rotate_left; clear_value x; rotate_right)
    | (extract_lets +onlyGivenNames x; clear_value x) | subst x | with_reducible apply OutKeeps.next
    | with_reducible apply Keeps.after (State.applyMoves_keeps _ _) | with_reducible apply Keeps.after (State.boundaryForm_keeps _ _)
    | with_reducible apply Keeps.after (State.onRoll_keeps _ _ _) | with_reducible apply Keeps.after (State.noteStep_keeps _ _ _)
    | with_reducible apply Keeps.after (State.count_keeps _ _ _) | with_reducible apply Keeps.ite | (with_reducible apply Keeps.whenB; intro s)
    | split

theorem State.actRollRetry_keeps (p : Nat) (s : State) : Keeps s (State.actRollRetry p s) := by
  unfold State.actRollRetry
  repeat' first
    | with_reducible exact .refl _ | with_reducible assumption | with_reducible intro s | with_reducible apply Keeps.after (State.onRoll_keeps _ _ _)
    | with_reducible apply Keeps.after (State.refuseWrite_keeps _ _ _) | with_reducible apply Keeps.ite | split

theorem execRollRetry_keeps (part : Fin 12) (s : State) : OutKeeps s (execRollRetry part s) := by
  unfold execRollRetry
  repeat' first
    | with_reducible exact .refl _ | with_reducible assumption | with_reducible intro s | with_reducible apply OutKeeps.refused
    | with_reducible apply OutKeeps.ite | with_reducible apply OutKeeps.next | with_reducible apply Keeps.after (State.actRollRetry_keeps _ _)
    | with_reducible apply Keeps.after (State.ofPart_keeps _ _ ?_ _) | with_reducible apply Keeps.ite | split

theorem State.actForm_keeps (lats : List Nat) (s : State) : Keeps s (State.actForm lats s) := by
  unfold State.actForm
  repeat' first
    | with_reducible exact .refl _ | with_reducible assumption | with_reducible intro s
    | (extract_lets +onlyGivenNames x; refine (have hx : Keeps s x := ?_; ?_); rotate_left; clear_value x; rotate_right)
    | (extract_lets +onlyGivenNames x; clear_value x) | subst x | with_reducible apply Keeps.ite | split
    | with_reducible apply Keeps.after (State.linkOn_keeps _ _ _) | with_reducible apply Keeps.after (State.onRoute_keeps _ _ _)
    | with_reducible apply Keeps.after (State.mwr_keeps _ _ _) | with_reducible apply Keeps.after (State.refuseWrite_keeps _ _ _)
    | with_reducible apply Keeps.after (State.raise_keeps _ _ _) | with_reducible apply Keeps.after (State.wr_keeps _ _ _ _)
    | with_reducible apply Keeps.ite | (with_reducible apply Keeps.each; intro _ s) | with_reducible apply Keeps.other

theorem execForm_keeps (lats : List Nat) (s : State) : OutKeeps s (execForm lats s) := by
  unfold execForm
  repeat' first
    | with_reducible exact .refl _ | with_reducible assumption | with_reducible intro s | with_reducible apply OutKeeps.refused
    | with_reducible apply OutKeeps.ite | with_reducible apply OutKeeps.next | with_reducible apply Keeps.after (State.actForm_keeps _ _)
    | with_reducible apply Keeps.ite | split

theorem execPortTrained_keeps (port : Fin 16) (peer : List Byte) (latency : Nat) (s : State) : OutKeeps s (execPortTrained port peer latency s) := by
  unfold execPortTrained
  repeat' first
    | with_reducible exact .refl _ | with_reducible assumption | with_reducible intro s | with_reducible apply OutKeeps.refused
    | with_reducible apply OutKeeps.ite
    | (extract_lets +onlyGivenNames x; refine (have hx : Keeps s x := ?_; ?_); rotate_left; clear_value x; rotate_right)
    | (extract_lets +onlyGivenNames x; clear_value x) | subst x | with_reducible apply OutKeeps.next
    | with_reducible apply Keeps.after (State.linkOn_keeps _ _ _) | with_reducible apply Keeps.after (State.raise_keeps _ _ _)
    | with_reducible apply Keeps.after (State.wr_keeps _ _ _ _) | with_reducible apply Keeps.ite | (with_reducible apply Keeps.each; intro _ s)
    | split

theorem execPortLinkDown_keeps (port : Fin 16) (s : State) : OutKeeps s (execPortLinkDown port s) := by
  unfold execPortLinkDown
  repeat' first
    | with_reducible exact .refl _ | with_reducible assumption | with_reducible intro s | with_reducible apply OutKeeps.refused
    | with_reducible apply OutKeeps.ite | with_reducible apply OutKeeps.next | with_reducible apply Keeps.after (State.portDown_keeps _ _)
    | with_reducible apply Keeps.ite | split

theorem execWentarAckTimeout_keeps (port : Fin 16) (s : State) : OutKeeps s (execWentarAckTimeout port s) := by
  unfold execWentarAckTimeout
  repeat' first
    | with_reducible exact .refl _ | with_reducible assumption | with_reducible intro s | with_reducible apply OutKeeps.refused
    | with_reducible apply OutKeeps.ite | with_reducible apply OutKeeps.next | with_reducible apply Keeps.after (State.resendPort_keeps _ _)
    | with_reducible apply Keeps.ite | (with_reducible apply Keeps.whenB; intro s) | split

theorem State.takeLink_keeps (n : Nat) (f : List Byte) (s : State) : Keeps s (State.takeLink n f s) := by
  unfold State.takeLink
  repeat' first
    | with_reducible exact .refl _ | with_reducible assumption | with_reducible intro s
    | (extract_lets +onlyGivenNames x; refine (have hx : Keeps s x := ?_; ?_); rotate_left; clear_value x; rotate_right)
    | (extract_lets +onlyGivenNames x; clear_value x) | subst x | with_reducible apply Keeps.after (State.resendPort_keeps _ _)
    | with_reducible apply Keeps.after (State.dropOn_keeps _ _) | with_reducible apply Keeps.after (State.linkOn_keeps _ _ _)
    | with_reducible apply Keeps.ite | split

theorem execWentarLink_keeps (port : Fin 16) (flit : List Byte) (s : State) : OutKeeps s (execWentarLink port flit s) := by
  unfold execWentarLink
  repeat' first
    | with_reducible exact .refl _ | with_reducible assumption | with_reducible intro s | with_reducible apply OutKeeps.refused
    | with_reducible apply OutKeeps.ite
    | (extract_lets +onlyGivenNames x; refine (have hx : Keeps s x := ?_; ?_); rotate_left; clear_value x; rotate_right)
    | (extract_lets +onlyGivenNames x; clear_value x) | subst x | with_reducible apply OutKeeps.next | with_reducible apply Keeps.ite | split
    | with_reducible apply Keeps.after (State.takeLink_keeps _ _ _) | with_reducible apply Keeps.after (State.linkReceive_keeps _ _ _)
    | with_reducible apply Keeps.after (State.count_keeps _ _ _) | with_reducible apply Keeps.after (State.bump_keeps _ _ _ _)
    | with_reducible apply Keeps.ite | (with_reducible apply Keeps.whenB; intro s)
    | with_reducible refine Keeps.after (State.linkReceive_eq (by with_reducible assumption)) ?_

theorem State.takeWrite_keeps (n : Nat) (f : List Byte) (p : Nat) (s : State) : Keeps s (State.takeWrite n f p s) := by
  unfold State.takeWrite
  repeat' first
    | with_reducible exact .refl _ | with_reducible assumption | with_reducible intro s
    | (extract_lets +onlyGivenNames x; refine (have hx : Keeps s x := ?_; ?_); rotate_left; clear_value x; rotate_right)
    | (extract_lets +onlyGivenNames x; clear_value x) | subst x | with_reducible apply Keeps.after (State.dropOn_keeps _ _)
    | with_reducible apply Keeps.after (State.lateFlit_keeps _ _ _) | with_reducible apply Keeps.after (State.onPart_keeps _ _ _)
    | with_reducible apply Keeps.after (State.count_keeps _ _ _) | with_reducible apply Keeps.ite | split

theorem execWentarWrite_keeps (port : Fin 16) (flit : List Byte) (s : State) : OutKeeps s (execWentarWrite port flit s) := by
  unfold execWentarWrite
  repeat' first
    | with_reducible exact .refl _ | with_reducible assumption | with_reducible intro s | with_reducible apply OutKeeps.refused
    | with_reducible apply OutKeeps.ite
    | (extract_lets +onlyGivenNames x; refine (have hx : Keeps s x := ?_; ?_); rotate_left; clear_value x; rotate_right)
    | (extract_lets +onlyGivenNames x; clear_value x) | subst x | with_reducible apply OutKeeps.next | with_reducible apply Keeps.ite | split
    | with_reducible apply Keeps.after (State.takeWrite_keeps _ _ _ _) | with_reducible apply Keeps.after (State.handFlit_keeps _ _ _ ?_ _)
    | with_reducible apply Keeps.after (State.linkReceive_keeps _ _ _) | with_reducible apply Keeps.after (State.dropOn_keeps _ _)
    | with_reducible apply Keeps.ite | with_reducible refine Keeps.after (State.linkReceive_eq (by with_reducible assumption)) ?_

theorem State.deliverWrite_keeps (p : Nat) (w : SpanWrite) (s : State) : Keeps s (State.deliverWrite p w s) := by
  unfold State.deliverWrite
  repeat' first
    | with_reducible exact .refl _ | with_reducible assumption | with_reducible intro s
    | (extract_lets +onlyGivenNames x; refine (have hx : Keeps s x := ?_; ?_); rotate_left; clear_value x; rotate_right)
    | (extract_lets +onlyGivenNames x; clear_value x) | subst x | with_reducible apply Keeps.ite | split
    | with_reducible apply Keeps.after (State.signal_keeps _ _ _ _) | with_reducible apply Keeps.after (State.scrWr_keeps _ _ _ _ _)
    | with_reducible apply Keeps.ite | with_reducible apply Keeps.other

theorem execWriteDeliver_keeps (part : Fin 12) (count : Nat) (s : State) : OutKeeps s (execWriteDeliver part count s) := by
  unfold execWriteDeliver
  repeat' first
    | with_reducible exact .refl _ | with_reducible assumption | with_reducible intro s | with_reducible apply OutKeeps.refused
    | with_reducible apply OutKeeps.ite
    | (extract_lets +onlyGivenNames x; refine (have hx : Keeps s x := ?_; ?_); rotate_left; clear_value x; rotate_right)
    | (extract_lets +onlyGivenNames x; clear_value x) | subst x | with_reducible apply OutKeeps.next
    | with_reducible apply Keeps.after (State.deliverWrite_keeps _ _ _) | with_reducible apply Keeps.after (State.deliver_keeps _ _ _ _ _ _)
    | with_reducible apply Keeps.after (State.onRoll_keeps _ _ _) | with_reducible apply Keeps.after (State.onPart_keeps _ _ _)
    | with_reducible apply Keeps.after (State.count_keeps _ _ _) | with_reducible apply Keeps.ite | (with_reducible apply Keeps.each; intro _ s)
    | split

theorem State.frameIn__keeps (n : Nat) (f : List Byte) (s : State) : Keeps s ((State.frameIn_ n f s).2) := by
  unfold State.frameIn_
  repeat' first
    | with_reducible exact .refl _ | with_reducible assumption | with_reducible intro s
    | (extract_lets +onlyGivenNames x; refine (have hx : Keeps s x := ?_; ?_); rotate_left; clear_value x; rotate_right)
    | (extract_lets +onlyGivenNames x; clear_value x) | subst x | with_reducible apply Keeps.ite | split
    | with_reducible apply Keeps.after (State.dropOn_keeps _ _) | with_reducible apply Keeps.after (State.count_keeps _ _ _)
    | with_reducible apply Keeps.after (State.bump_keeps _ _ _ _) | with_reducible apply Keeps.ite
theorem State.frameIn__eq {n : Nat} {f : List Byte} {s : State} {v : Option Nat} {u : State} (heq : State.frameIn_ n f s = (v, u)) : Keeps s u := by
  have := State.frameIn__keeps n f s
  rwa [heq] at this

theorem State.takePfc_keeps (n : Nat) (f : List Byte) (o : Nat) (s : State) : Keeps s (State.takePfc n f o s) := by
  unfold State.takePfc
  repeat' first
    | with_reducible exact .refl _ | with_reducible assumption | with_reducible intro s
    | (extract_lets +onlyGivenNames x; refine (have hx : Keeps s x := ?_; ?_); rotate_left; clear_value x; rotate_right)
    | (extract_lets +onlyGivenNames x; clear_value x) | subst x | with_reducible apply Keeps.after (State.goOn_keeps _ _)
    | with_reducible apply Keeps.after (State.onPort_keeps _ _ _) | with_reducible apply Keeps.ite | split

theorem execEthernetFrame_keeps (port : Fin 16) (frame : List Byte) (s : State) : OutKeeps s (execEthernetFrame port frame s) := by
  unfold execEthernetFrame
  repeat' first
    | with_reducible exact .refl _ | with_reducible assumption | with_reducible intro s | with_reducible apply OutKeeps.refused
    | with_reducible apply OutKeeps.ite
    | (extract_lets +onlyGivenNames x; refine (have hx : Keeps s x := ?_; ?_); rotate_left; clear_value x; rotate_right)
    | (extract_lets +onlyGivenNames x; clear_value x) | subst x | with_reducible apply OutKeeps.next | with_reducible apply Keeps.ite | split
    | with_reducible apply Keeps.after (State.takePfc_keeps _ _ _ _) | with_reducible apply Keeps.after (State.frameIn__keeps _ _ _)
    | with_reducible apply Keeps.after (State.send_keeps _ _ _ _) | with_reducible apply Keeps.after (State.takeFree_keeps _)
    | with_reducible apply Keeps.ite | with_reducible refine Keeps.after (State.frameIn__eq (by with_reducible assumption)) ?_
    | with_reducible refine Keeps.after (State.takeFree_eq (by with_reducible assumption)) ?_

theorem State.answerOn_keeps (n : Nat) (x : NetOut) (bytes : Nat) (s : State) : Keeps s (State.answerOn n x bytes s) := by
  unfold State.answerOn
  repeat' first
    | with_reducible exact .refl _ | with_reducible assumption | with_reducible intro s | with_reducible apply Keeps.after (State.send_keeps _ _ _ _)
    | with_reducible apply Keeps.ite | with_reducible apply Keeps.other | split

theorem execArp_keeps (port : Fin 17) (frame : List Byte) (s : State) : OutKeeps s (execArp port frame s) := by
  unfold execArp
  repeat' first
    | with_reducible exact .refl _ | with_reducible assumption | with_reducible intro s | with_reducible apply OutKeeps.refused
    | with_reducible apply OutKeeps.ite
    | (extract_lets +onlyGivenNames x; refine (have hx : Keeps s x := ?_; ?_); rotate_left; clear_value x; rotate_right)
    | (extract_lets +onlyGivenNames x; clear_value x) | subst x | with_reducible apply OutKeeps.next | with_reducible apply Keeps.ite | split
    | with_reducible apply Keeps.after (State.answerOn_keeps _ _ _ _) | with_reducible apply Keeps.after (State.frameIn__keeps _ _ _)
    | with_reducible apply Keeps.ite | with_reducible refine Keeps.after (State.frameIn__eq (by with_reducible assumption)) ?_

theorem execNeighbourSolicitation_keeps (port : Fin 17) (frame : List Byte) (s : State) : OutKeeps s (execNeighbourSolicitation port frame s) := by
  unfold execNeighbourSolicitation
  repeat' first
    | with_reducible exact .refl _ | with_reducible assumption | with_reducible intro s | with_reducible apply OutKeeps.refused
    | with_reducible apply OutKeeps.ite
    | (extract_lets +onlyGivenNames x; refine (have hx : Keeps s x := ?_; ?_); rotate_left; clear_value x; rotate_right)
    | (extract_lets +onlyGivenNames x; clear_value x) | subst x | with_reducible apply OutKeeps.next | with_reducible apply Keeps.ite | split
    | with_reducible apply Keeps.after (State.answerOn_keeps _ _ _ _) | with_reducible apply Keeps.after (State.frameIn__keeps _ _ _)
    | with_reducible apply Keeps.ite | with_reducible refine Keeps.after (State.frameIn__eq (by with_reducible assumption)) ?_

theorem execEchoRequest_keeps (port : Fin 17) (frame : List Byte) (s : State) : OutKeeps s (execEchoRequest port frame s) := by
  unfold execEchoRequest
  repeat' first
    | with_reducible exact .refl _ | with_reducible assumption | with_reducible intro s | with_reducible apply OutKeeps.refused
    | with_reducible apply OutKeeps.ite
    | (extract_lets +onlyGivenNames x; refine (have hx : Keeps s x := ?_; ?_); rotate_left; clear_value x; rotate_right)
    | (extract_lets +onlyGivenNames x; clear_value x) | subst x | with_reducible apply OutKeeps.next | with_reducible apply Keeps.ite | split
    | with_reducible apply Keeps.after (State.answerOn_keeps _ _ _ _) | with_reducible apply Keeps.after (State.frameIn__keeps _ _ _)
    | with_reducible apply Keeps.ite | with_reducible refine Keeps.after (State.frameIn__eq (by with_reducible assumption)) ?_

theorem execCongestionNotification_keeps (port : Fin 16) (qp : Nat) (s : State) : OutKeeps s (execCongestionNotification port qp s) := by
  unfold execCongestionNotification
  repeat' first
    | with_reducible exact .refl _ | with_reducible assumption | with_reducible intro s | with_reducible apply OutKeeps.refused
    | with_reducible apply OutKeeps.ite
    | (extract_lets +onlyGivenNames x; refine (have hx : Keeps s x := ?_; ?_); rotate_left; clear_value x; rotate_right)
    | (extract_lets +onlyGivenNames x; clear_value x) | subst x | with_reducible apply OutKeeps.next
    | with_reducible apply Keeps.after (State.onPort_keeps _ _ _) | with_reducible apply Keeps.after (State.count_keeps _ _ _)
    | with_reducible apply Keeps.ite | (with_reducible apply Keeps.whenB; intro s) | split

theorem execRateIncreaseTimer_keeps (port : Fin 16) (qp : Nat) (s : State) : OutKeeps s (execRateIncreaseTimer port qp s) := by
  unfold execRateIncreaseTimer
  repeat' first
    | with_reducible exact .refl _ | with_reducible assumption | with_reducible intro s | with_reducible apply OutKeeps.refused
    | with_reducible apply OutKeeps.ite
    | (extract_lets +onlyGivenNames x; refine (have hx : Keeps s x := ?_; ?_); rotate_left; clear_value x; rotate_right)
    | (extract_lets +onlyGivenNames x; clear_value x) | subst x | with_reducible apply OutKeeps.next
    | with_reducible apply Keeps.after (State.onPort_keeps _ _ _) | with_reducible apply Keeps.ite | (with_reducible apply Keeps.whenB; intro s)
    | split

theorem execRdmaWrite_keeps (port : Fin 16) (qp _rkey addr : Nat) (data : List Byte) (s : State) : OutKeeps s (execRdmaWrite port qp _rkey addr data s) := by
  unfold execRdmaWrite
  repeat' first
    | with_reducible exact .refl _ | with_reducible assumption | with_reducible intro s | with_reducible apply OutKeeps.refused
    | with_reducible apply OutKeeps.ite
    | (extract_lets +onlyGivenNames x; refine (have hx : Keeps s x := ?_; ?_); rotate_left; clear_value x; rotate_right)
    | (extract_lets +onlyGivenNames x; clear_value x) | subst x | with_reducible apply OutKeeps.next | with_reducible apply Keeps.ite | split
    | with_reducible apply Keeps.after (State.dropOn_keeps _ _) | with_reducible apply Keeps.after (State.onFab_keeps _ _)
    | with_reducible apply Keeps.after (State.mwr_keeps _ _ _) | with_reducible apply Keeps.after (State.takeFree_keeps _)
    | with_reducible apply Keeps.after (State.bump_keeps _ _ _ _) | with_reducible apply Keeps.ite
    | with_reducible refine Keeps.after (State.takeFree_eq (by with_reducible assumption)) ?_

/-! ### Security -/

theorem State.onSec_keeps (f : SecSt → SecSt) (s : State) : Keeps s (State.onSec f s) := by
  unfold State.onSec
  repeat' first
    | with_reducible exact .refl _ | with_reducible assumption | with_reducible intro s | with_reducible apply Keeps.ite
    | with_reducible apply Keeps.other | split

/-- Fuses of the life cycle that burn. -/
theorem FusesOnlyBurn.burnLc (n : NonVol) (c : Nat) : FusesOnlyBurn n { n with lc := n.lc.map (· ||| c) } := by
  refine ⟨rfl, rfl, Nat.le_refl _, fun _ h => h, by simp, fun j i h => ?_⟩
  rw [List.getD_eq_getElem?_getD] at h ⊢
  rw [List.getElem?_map]
  cases hj : n.lc[j]? with
  | none => simp [hj] at h
  | some x => simp [hj] at h ⊢; exact Or.inl h

theorem State.actLcGo_keeps (s : State) : Keeps s (State.actLcGo s) := by
  unfold State.actLcGo
  extract_lets t
  apply Keeps.ite
  · exact State.raise_keeps ..
  · exact (State.raise_keeps ..).after ((State.wr_keeps ..).after ⟨id, rfl, .burnLc _ _⟩)

theorem execLcGo_keeps (s : State) : OutKeeps s (execLcGo s) := by
  unfold execLcGo
  repeat' first
    | with_reducible exact .refl _ | with_reducible assumption | with_reducible intro s | with_reducible apply OutKeeps.refused
    | with_reducible apply OutKeeps.ite | with_reducible apply OutKeeps.next | with_reducible apply Keeps.after (State.actLcGo_keeps _)
    | with_reducible apply Keeps.ite | split

theorem State.deriveAlias_keeps (s : State) : Keeps s (State.deriveAlias s) := by
  unfold State.deriveAlias
  repeat' first
    | with_reducible exact .refl _ | with_reducible assumption | with_reducible intro s | with_reducible apply Keeps.ite | split
    | with_reducible apply Keeps.after (State.onSec_keeps _ _) | with_reducible apply Keeps.ite | with_reducible apply Keeps.other

theorem State.actVerifyStage_keeps (s : State) : Keeps s (State.actVerifyStage s) := by
  unfold State.actVerifyStage
  repeat' first
    | with_reducible exact .refl _ | with_reducible assumption | with_reducible intro s
    | (extract_lets +onlyGivenNames x; refine (have hx : Keeps s x := ?_; ?_); rotate_left; clear_value x; rotate_right)
    | (extract_lets +onlyGivenNames x; clear_value x) | subst x | with_reducible apply Keeps.after (State.deriveAlias_keeps _)
    | with_reducible apply Keeps.after (State.onSec_keeps _ _) | with_reducible apply Keeps.after (State.stage_keeps _ _ _ _)
    | with_reducible apply Keeps.after (State.onMgt_keeps _ _) | with_reducible apply Keeps.after (State.raise_keeps _ _ _)
    | with_reducible apply Keeps.after (State.wr_keeps _ _ _ _) | with_reducible apply Keeps.ite | (with_reducible apply Keeps.whenB; intro s) | split

theorem execSecVerify_keeps (s : State) : OutKeeps s (execSecVerify s) := by
  unfold execSecVerify
  repeat' first
    | with_reducible exact .refl _ | with_reducible assumption | with_reducible intro s | with_reducible apply OutKeeps.refused
    | with_reducible apply OutKeeps.ite | with_reducible apply OutKeeps.next | with_reducible apply Keeps.after (State.actVerifyStage_keeps _)
    | with_reducible apply Keeps.ite | split

theorem State.actSvnCommit_keeps (s : State) : Keeps s (State.actSvnCommit s) := by
  unfold State.actSvnCommit
  extract_lets r u
  refine (State.raise_keeps ..).after ?_
  show Keeps s (State.whenB _ _ _)
  unfold State.whenB
  split
  · next h =>
    refine (State.wr_keeps ..).after ⟨id, rfl, ⟨rfl, rfl, ?_, fun _ h => h, rfl, fun _ _ h => h⟩⟩
    exact Nat.le_of_lt (of_decide_eq_true h)
  · exact .refl _

theorem execSvnCommit_keeps (s : State) : OutKeeps s (execSvnCommit s) := by
  unfold execSvnCommit
  repeat' first
    | with_reducible exact .refl _ | with_reducible assumption | with_reducible intro s | with_reducible apply OutKeeps.refused
    | with_reducible apply OutKeeps.ite | with_reducible apply OutKeeps.next | with_reducible apply Keeps.after (State.actSvnCommit_keeps _)
    | with_reducible apply Keeps.ite | split

theorem State.actKeyRevoke_keeps (s : State) : Keeps s (State.actKeyRevoke s) := by
  unfold State.actKeyRevoke
  extract_lets k left
  split
  · exact .refl _
  · refine (State.wr_keeps ..).after ⟨id, rfl, ⟨rfl, rfl, Nat.le_refl _, fun i h => ?_, rfl, fun _ _ h => h⟩⟩
    show (s.nv.revoked ||| _).testBit i = true
    rw [Nat.testBit_or, h, Bool.true_or]

theorem execKeyRevoke_keeps (s : State) : OutKeeps s (execKeyRevoke s) := by
  unfold execKeyRevoke
  repeat' first
    | with_reducible exact .refl _ | with_reducible assumption | with_reducible intro s | with_reducible apply OutKeeps.refused
    | with_reducible apply OutKeeps.ite | with_reducible apply OutKeeps.next | with_reducible apply Keeps.after (State.actKeyRevoke_keeps _)
    | with_reducible apply Keeps.ite | split

theorem State.showIdentity_keeps (s : State) : Keeps s (State.showIdentity s) := by
  unfold State.showIdentity
  repeat' first
    | with_reducible exact .refl _ | with_reducible assumption | with_reducible intro s
    | (extract_lets +onlyGivenNames x; refine (have hx : Keeps s x := ?_; ?_); rotate_left; clear_value x; rotate_right)
    | (extract_lets +onlyGivenNames x; clear_value x) | subst x | with_reducible apply Keeps.ite | split
    | with_reducible apply Keeps.after (State.wr_keeps _ _ _ _) | with_reducible apply Keeps.ite | (with_reducible apply Keeps.each; intro _ s)
    | with_reducible apply Keeps.other

theorem State.actIdCreate_keeps (entropy : List Byte) (s : State) : Keeps s (State.actIdCreate entropy s) := by
  unfold State.actIdCreate
  repeat' first
    | with_reducible exact .refl _ | with_reducible assumption | with_reducible intro s
    | (extract_lets +onlyGivenNames x; refine (have hx : Keeps s x := ?_; ?_); rotate_left; clear_value x; rotate_right)
    | (extract_lets +onlyGivenNames x; clear_value x) | subst x | with_reducible apply Keeps.ite | split
    | with_reducible apply Keeps.after (State.showIdentity_keeps _) | with_reducible apply Keeps.after (State.refuseWrite_keeps _ _ _)
    | with_reducible apply Keeps.ite | (with_reducible apply Keeps.nv; rotate_left; rfl; rfl; rfl; rfl; rfl)

theorem execIdCreate_keeps (entropy : List Byte) (s : State) : OutKeeps s (execIdCreate entropy s) := by
  unfold execIdCreate
  repeat' first
    | with_reducible exact .refl _ | with_reducible assumption | with_reducible intro s | with_reducible apply OutKeeps.refused
    | with_reducible apply OutKeeps.ite | with_reducible apply OutKeeps.next | with_reducible apply Keeps.after (State.actIdCreate_keeps _ _)
    | with_reducible apply Keeps.ite | split

theorem State.refusePart_keeps (r : Nat) (s : State) : Keeps s (State.refusePart r s) := by
  unfold State.refusePart
  repeat' first
    | with_reducible exact .refl _ | with_reducible assumption | with_reducible intro s | with_reducible apply Keeps.after (State.raise_keeps _ _ _)
    | with_reducible apply Keeps.after (State.wr_keeps _ _ _ _) | with_reducible apply Keeps.ite | split

theorem State.setExists_keeps (m : Nat) (s : State) : Keeps s (State.setExists m s) := by
  unfold State.setExists
  repeat' first
    | with_reducible exact .refl _ | with_reducible assumption | with_reducible intro s | with_reducible apply Keeps.after (State.wr_keeps _ _ _ _)
    | with_reducible apply Keeps.ite | split

theorem State.setPartClearing_keeps (p : Nat) (s : State) : Keeps s (State.setPartClearing p s) := by
  unfold State.setPartClearing
  repeat' first
    | with_reducible exact .refl _ | with_reducible assumption | with_reducible intro s
    | (extract_lets +onlyGivenNames x; refine (have hx : Keeps s x := ?_; ?_); rotate_left; clear_value x; rotate_right)
    | (extract_lets +onlyGivenNames x; clear_value x) | subst x | with_reducible apply Keeps.after (State.wr_keeps _ _ _ _)
    | with_reducible apply Keeps.ite | split

theorem State.entropy_keeps (n : Nat) (s : State) : Keeps s ((State.entropy n s).2) := by
  unfold State.entropy
  repeat' first
    | with_reducible exact .refl _ | with_reducible assumption | with_reducible intro s | with_reducible apply Keeps.ite
    | with_reducible apply Keeps.other | split
theorem State.entropy_eq {n : Nat} {s : State} {v : List Byte} {u : State} (heq : State.entropy n s = (v, u)) : Keeps s u := by
  have := State.entropy_keeps n s
  rwa [heq] at this

theorem State.createDone_keeps (p : Nat) (s : State) : Keeps s (State.createDone p s) := by
  unfold State.createDone
  repeat' first
    | with_reducible exact .refl _ | with_reducible assumption | with_reducible intro s
    | (extract_lets +onlyGivenNames x; refine (have hx : Keeps s x := ?_; ?_); rotate_left; clear_value x; rotate_right)
    | (extract_lets +onlyGivenNames x; clear_value x) | subst x | with_reducible apply Keeps.after (State.setPartClearing_keeps _ _)
    | with_reducible apply Keeps.after (State.freeTrains_keeps _) | with_reducible apply Keeps.after (State.setProgramming_keeps _)
    | with_reducible apply Keeps.after (State.onPart_keeps _ _ _) | with_reducible apply Keeps.after (State.raise_keeps _ _ _)
    | with_reducible apply Keeps.ite | (with_reducible apply Keeps.each; intro _ s) | (with_reducible apply Keeps.whenB; intro s)
    | (with_reducible apply Keeps.nv; rotate_left; rfl; rfl; rfl; rfl; rfl) | split

theorem State.createNow_keeps (q : PartReq) (s : State) : Keeps s (State.createNow q s) := by
  unfold State.createNow
  repeat' first
    | with_reducible exact .refl _ | with_reducible assumption | with_reducible intro s
    | (extract_lets +onlyGivenNames x; refine (have hx : Keeps s x := ?_; ?_); rotate_left; clear_value x; rotate_right)
    | (extract_lets +onlyGivenNames x; clear_value x) | subst x | with_reducible apply Keeps.ite | split
    | with_reducible apply Keeps.after (State.createDone_keeps _ _) | with_reducible apply Keeps.after (State.entropy_keeps _ _)
    | with_reducible apply Keeps.after (State.setPartClearing_keeps _ _) | with_reducible apply Keeps.after (State.setExists_keeps _ _)
    | with_reducible apply Keeps.after (State.refusePart_keeps _ _) | with_reducible apply Keeps.after (State.cfgFirst_keeps _ _)
    | with_reducible apply Keeps.after (State.quietStack_keeps _ _) | with_reducible apply Keeps.after (State.setProgramming_keeps _)
    | with_reducible apply Keeps.after (State.clearStack_keeps _ _) | with_reducible apply Keeps.after (State.setPartState_keeps _ _ _)
    | with_reducible apply Keeps.after (State.takeFree_keeps _) | with_reducible apply Keeps.after (State.onPart_keeps _ _ _)
    | with_reducible apply Keeps.after (State.onHub_keeps _ _ _) | with_reducible apply Keeps.after (State.wr_keeps _ _ _ _)
    | with_reducible apply Keeps.ite | (with_reducible apply Keeps.each; intro _ s) | (with_reducible apply Keeps.whenB; intro s)
    | with_reducible refine Keeps.after (State.entropy_eq (by with_reducible assumption)) ?_
    | with_reducible refine Keeps.after (State.takeFree_eq (by with_reducible assumption)) ?_

theorem State.zeroPages_keeps (p : Nat) (s : State) : Keeps s (State.zeroPages p s) := by
  unfold State.zeroPages
  repeat' first
    | with_reducible exact .refl _ | with_reducible assumption | with_reducible intro s | with_reducible apply Keeps.after (State.wr_keeps _ _ _ _)
    | with_reducible apply Keeps.ite | (with_reducible apply Keeps.each; intro _ s) | split

theorem State.endSessions_keeps (via : Nat) (s : State) : Keeps s (State.endSessions via s) := by
  unfold State.endSessions
  repeat' first
    | with_reducible exact .refl _ | with_reducible assumption | with_reducible intro s
    | (extract_lets +onlyGivenNames x; refine (have hx : Keeps s x := ?_; ?_); rotate_left; clear_value x; rotate_right)
    | (extract_lets +onlyGivenNames x; clear_value x) | subst x | with_reducible apply Keeps.after (State.onSec_keeps _ _)
    | with_reducible apply Keeps.after (State.wr_keeps _ _ _ _) | with_reducible apply Keeps.ite | split

theorem State.hostParts_keeps (v : Nat) (s : State) : Keeps s (State.hostParts v s) := by
  unfold State.hostParts
  repeat' first
    | with_reducible exact .refl _ | with_reducible assumption | with_reducible intro s
    | (extract_lets +onlyGivenNames x; refine (have hx : Keeps s x := ?_; ?_); rotate_left; clear_value x; rotate_right)
    | (extract_lets +onlyGivenNames x; clear_value x) | subst x | with_reducible apply Keeps.after (State.onSec_keeps _ _)
    | with_reducible apply Keeps.after (State.wr_keeps _ _ _ _) | with_reducible apply Keeps.ite | split

theorem State.mailboxUsed_keeps (p : Nat) (s : State) : Keeps s (State.mailboxUsed p s) := by
  unfold State.mailboxUsed
  repeat' first
    | with_reducible exact .refl _ | with_reducible assumption | with_reducible intro s
    | with_reducible apply Keeps.after (State.endSessions_keeps _ _) | with_reducible apply Keeps.ite | (with_reducible apply Keeps.whenB; intro s)
    | split

theorem State.freeFiles_keeps (k : Nat) (s : State) : Keeps s (State.freeFiles k s) := by
  unfold State.freeFiles
  repeat' first
    | with_reducible exact .refl _ | with_reducible assumption | with_reducible intro s | with_reducible apply Keeps.after (State.onStk_keeps _ _ _)
    | with_reducible apply Keeps.ite | split

theorem State.destroyNow_keeps (p : Nat) (s : State) : Keeps s (State.destroyNow p s) := by
  unfold State.destroyNow
  repeat' first
    | with_reducible exact .refl _ | with_reducible assumption | with_reducible intro s
    | (extract_lets +onlyGivenNames x; refine (have hx : Keeps s x := ?_; ?_); rotate_left; clear_value x; rotate_right)
    | (extract_lets +onlyGivenNames x; clear_value x) | subst x | with_reducible apply Keeps.ite | split
    | with_reducible apply Keeps.after (State.freeFiles_keeps _ _) | with_reducible apply Keeps.after (State.endSessions_keeps _ _)
    | with_reducible apply Keeps.after (State.zeroPages_keeps _ _) | with_reducible apply Keeps.after (State.setExists_keeps _ _)
    | with_reducible apply Keeps.after (State.refusePart_keeps _ _) | with_reducible apply Keeps.after (State.dropRange_keeps _ _ _)
    | with_reducible apply Keeps.after (State.setClearing_keeps _ _) | with_reducible apply Keeps.after (State.setTransition_keeps _)
    | with_reducible apply Keeps.after (State.onPwr_keeps _ _) | with_reducible apply Keeps.after (State.closeSet_keeps _ _ _)
    | with_reducible apply Keeps.after (State.setPartState_keeps _ _ _) | with_reducible apply Keeps.after (State.onHub_keeps _ _ _)
    | with_reducible apply Keeps.after (State.raise_keeps _ _ _) | with_reducible apply Keeps.after (State.wr_keeps _ _ _ _)
    | with_reducible apply Keeps.ite | (with_reducible apply Keeps.each; intro _ s) | with_reducible apply Keeps.other

theorem State.partRun_keeps (r : PartReq) (s : State) : Keeps s (State.partRun r s) := by
  unfold State.partRun; split
  · exact State.createNow_keeps _ _
  · exact State.destroyNow_keeps _ _

theorem State.partRequest_keeps (r : PartReq) (s : State) : Keeps s (State.partRequest r s) := by
  unfold State.partRequest; split
  · exact State.onSec_keeps _ _
  · exact State.partRun_keeps _ _

theorem State.partDrain_keeps (n : Nat) (s : State) : Keeps s (State.partDrain n s) := by
  induction n generalizing s with
  | zero => exact .refl _
  | succ n ih =>
    unfold State.partDrain; split
    · exact .refl _
    · split
      · exact .refl _
      · exact Keeps.after (ih _) (Keeps.after (State.partRun_keeps _ _) (State.onSec_keeps _ _))

theorem State.actPartCreate_keeps (s : State) : Keeps s (State.actPartCreate s) := State.partRequest_keeps _ _

theorem execPartCreate_keeps (s : State) : OutKeeps s (execPartCreate s) := by
  unfold execPartCreate
  repeat' first
    | with_reducible exact .refl _ | with_reducible assumption | with_reducible intro s | with_reducible apply OutKeeps.refused
    | with_reducible apply OutKeeps.ite | with_reducible apply OutKeeps.next | with_reducible apply Keeps.after (State.actPartCreate_keeps _)
    | with_reducible apply Keeps.ite | split

theorem State.actPartDestroy_keeps (s : State) : Keeps s (State.actPartDestroy s) := State.partRequest_keeps _ _

theorem execPartDestroy_keeps (s : State) : OutKeeps s (execPartDestroy s) := by
  unfold execPartDestroy
  repeat' first
    | with_reducible exact .refl _ | with_reducible assumption | with_reducible intro s | with_reducible apply OutKeeps.refused
    | with_reducible apply OutKeeps.ite | with_reducible apply OutKeeps.next | with_reducible apply Keeps.after (State.actPartDestroy_keeps _)
    | with_reducible apply Keeps.ite | split

theorem execPartClearDone_keeps (part : Fin 12) (s : State) : OutKeeps s (execPartClearDone part s) := by
  unfold execPartClearDone
  repeat' first
    | with_reducible exact .refl _ | with_reducible assumption | with_reducible intro s | with_reducible apply OutKeeps.refused
    | with_reducible apply OutKeeps.ite
    | (extract_lets +onlyGivenNames x; refine (have hx : Keeps s x := ?_; ?_); rotate_left; clear_value x; rotate_right)
    | (extract_lets +onlyGivenNames x; clear_value x) | subst x | with_reducible apply OutKeeps.next
    | with_reducible apply Keeps.after (State.partDrain_keeps _ _) | with_reducible apply Keeps.after (State.createDone_keeps _ _)
    | with_reducible apply Keeps.after (State.clearStack_keeps _ _) | with_reducible apply Keeps.ite | (with_reducible apply Keeps.each; intro _ s)
    | split

/-! ### Spdm -/

theorem State.mctpIn_keeps (m : List Byte) (act : State → State) (hact : ∀ u, Keeps u (act  u)) (s : State) : Keeps s (State.mctpIn m act s) := by
  unfold State.mctpIn
  repeat' first
    | with_reducible exact .refl _ | with_reducible assumption | with_reducible intro s | with_reducible apply Keeps.after (hact _ )
    | with_reducible apply Keeps.after (State.count_keeps _ _ _) | with_reducible apply Keeps.ite | split

theorem State.mboxPut_keeps (p : Nat) (bs : List Byte) (s : State) : Keeps s (State.mboxPut p bs s) := by
  unfold State.mboxPut
  repeat' first
    | with_reducible exact .refl _ | with_reducible assumption | with_reducible intro s | with_reducible apply Keeps.after (State.onPart_keeps _ _ _)
    | with_reducible apply Keeps.ite | (with_reducible apply Keeps.foldl; intro s _) | split

theorem State.spdmPut_keeps (via : Nat) (body : List Byte) (s : State) : Keeps s (State.spdmPut via body s) := by
  unfold State.spdmPut
  repeat' first
    | with_reducible exact .refl _ | with_reducible assumption | with_reducible intro s
    | (extract_lets +onlyGivenNames x; refine (have hx : Keeps s x := ?_; ?_); rotate_left; clear_value x; rotate_right)
    | (extract_lets +onlyGivenNames x; clear_value x) | subst x | with_reducible apply Keeps.after (State.mboxPut_keeps _ _ _)
    | with_reducible apply Keeps.after (State.mctpSend_keeps _ _) | with_reducible apply Keeps.after (State.raise_keeps _ _ _)
    | with_reducible apply Keeps.after (State.wr_keeps _ _ _ _) | with_reducible apply Keeps.ite | split

theorem State.onSession_keeps (id : Nat) (f : Session → Session) (s : State) : Keeps s (State.onSession id f s) := by
  unfold State.onSession
  repeat' first
    | with_reducible exact .refl _ | with_reducible assumption | with_reducible intro s | with_reducible apply Keeps.after (State.onSec_keeps _ _)
    | with_reducible apply Keeps.ite | split

theorem State.onConn_keeps (via : Nat) (f : SpdmConn → SpdmConn) (s : State) : Keeps s (State.onConn via f s) := by
  unfold State.onConn
  repeat' first
    | with_reducible exact .refl _ | with_reducible assumption | with_reducible intro s | with_reducible apply Keeps.after (State.onSec_keeps _ _)
    | with_reducible apply Keeps.ite | split

theorem State.spdmAnswer_keeps (r : SpdmReq) (a : List Byte) (s : State) : Keeps s (State.spdmAnswer r a s) := by
  unfold State.spdmAnswer
  repeat' first
    | with_reducible exact .refl _ | with_reducible assumption | with_reducible intro s
    | (extract_lets +onlyGivenNames x; refine (have hx : Keeps s x := ?_; ?_); rotate_left; clear_value x; rotate_right)
    | (extract_lets +onlyGivenNames x; clear_value x) | subst x | with_reducible apply Keeps.ite | split
    | with_reducible apply Keeps.after (State.onConn_keeps _ _ _) | with_reducible apply Keeps.after (State.onSession_keeps _ _ _)
    | with_reducible apply Keeps.after (State.spdmPut_keeps _ _ _) | with_reducible apply Keeps.ite | with_reducible apply Keeps.other

theorem State.spdmTook_keeps (r : SpdmReq) (s : State) : Keeps s (State.spdmTook r s) := by
  unfold State.spdmTook
  repeat' first
    | with_reducible exact .refl _ | with_reducible assumption | with_reducible intro s | with_reducible apply Keeps.ite | split
    | with_reducible apply Keeps.after (State.onSession_keeps _ _ _) | with_reducible apply Keeps.ite | with_reducible apply Keeps.other

theorem State.aliasSign_keeps (m : List Byte) (s : State) : Keeps s ((State.aliasSign m s).2) := by
  unfold State.aliasSign
  repeat' first
    | with_reducible exact .refl _ | with_reducible assumption | with_reducible intro s
    | (extract_lets +onlyGivenNames x; refine (have hx : Keeps s x := ?_; ?_); rotate_left; clear_value x; rotate_right)
    | (extract_lets +onlyGivenNames x; clear_value x) | subst x | with_reducible apply Keeps.ite | split
    | with_reducible apply Keeps.after (State.takeFree_keeps _) | with_reducible apply Keeps.ite
    | with_reducible refine Keeps.after (State.takeFree_eq (by with_reducible assumption)) ?_
theorem State.aliasSign_eq {m : List Byte} {s : State} {v : List Byte} {u : State} (heq : State.aliasSign m s = (v, u)) : Keeps s u := by
  have := State.aliasSign_keeps m s
  rwa [heq] at this

theorem State.ansVersion_keeps (r : SpdmReq) (s : State) : Keeps s ((State.ansVersion r s).2) := by
  unfold State.ansVersion
  repeat' first
    | with_reducible exact .refl _ | with_reducible assumption | with_reducible intro s
    | (extract_lets +onlyGivenNames x; refine (have hx : Keeps s x := ?_; ?_); rotate_left; clear_value x; rotate_right)
    | (extract_lets +onlyGivenNames x; clear_value x) | subst x | with_reducible apply Keeps.after (State.onConn_keeps _ _ _)
    | with_reducible apply Keeps.after (State.stage_keeps _ _ _ _) | with_reducible apply Keeps.ite | split
theorem State.ansVersion_eq {r : SpdmReq} {s : State} {v : List Byte} {u : State} (heq : State.ansVersion r s = (v, u)) : Keeps s u := by
  have := State.ansVersion_keeps r s
  rwa [heq] at this

theorem State.ansCapabilities_keeps (r : SpdmReq) (s : State) : Keeps s ((State.ansCapabilities r s).2) := by
  unfold State.ansCapabilities
  repeat' first
    | with_reducible exact .refl _ | with_reducible assumption | with_reducible intro s
    | (extract_lets +onlyGivenNames x; refine (have hx : Keeps s x := ?_; ?_); rotate_left; clear_value x; rotate_right)
    | (extract_lets +onlyGivenNames x; clear_value x) | subst x | with_reducible apply Keeps.ite | split
    | with_reducible apply Keeps.after (State.onConn_keeps _ _ _) | with_reducible apply Keeps.after (State.stage_keeps _ _ _ _)
    | with_reducible apply Keeps.after (State.takeFree_keeps _) | with_reducible apply Keeps.ite
    | with_reducible refine Keeps.after (State.takeFree_eq (by with_reducible assumption)) ?_
theorem State.ansCapabilities_eq {r : SpdmReq} {s : State} {v : List Byte} {u : State} (heq : State.ansCapabilities r s = (v, u)) : Keeps s u := by
  have := State.ansCapabilities_keeps r s
  rwa [heq] at this

theorem State.ansAlgorithms_keeps (r : SpdmReq) (s : State) : Keeps s ((State.ansAlgorithms r s).2) := by
  unfold State.ansAlgorithms
  repeat' first
    | with_reducible exact .refl _ | with_reducible assumption | with_reducible intro s
    | (extract_lets +onlyGivenNames x; refine (have hx : Keeps s x := ?_; ?_); rotate_left; clear_value x; rotate_right)
    | (extract_lets +onlyGivenNames x; clear_value x) | subst x | with_reducible apply Keeps.after (State.onConn_keeps _ _ _)
    | with_reducible apply Keeps.after (State.stage_keeps _ _ _ _) | with_reducible apply Keeps.ite | split
theorem State.ansAlgorithms_eq {r : SpdmReq} {s : State} {v : List Byte} {u : State} (heq : State.ansAlgorithms r s = (v, u)) : Keeps s u := by
  have := State.ansAlgorithms_keeps r s
  rwa [heq] at this

theorem State.ansDigests_keeps (r : SpdmReq) (s : State) : Keeps s ((State.ansDigests r s).2) := by
  unfold State.ansDigests
  repeat' first
    | with_reducible exact .refl _ | with_reducible assumption | with_reducible intro s | with_reducible apply Keeps.ite | split
theorem State.ansDigests_eq {r : SpdmReq} {s : State} {v : List Byte} {u : State} (heq : State.ansDigests r s = (v, u)) : Keeps s u := by
  have := State.ansDigests_keeps r s
  rwa [heq] at this

theorem State.ansCertificate_keeps (r : SpdmReq) (s : State) : Keeps s ((State.ansCertificate r s).2) := by
  unfold State.ansCertificate
  repeat' first
    | with_reducible exact .refl _ | with_reducible assumption | with_reducible intro s
    | (extract_lets +onlyGivenNames x; refine (have hx : Keeps s x := ?_; ?_); rotate_left; clear_value x; rotate_right)
    | (extract_lets +onlyGivenNames x; clear_value x) | subst x | with_reducible apply Keeps.ite | split
theorem State.ansCertificate_eq {r : SpdmReq} {s : State} {v : List Byte} {u : State} (heq : State.ansCertificate r s = (v, u)) : Keeps s u := by
  have := State.ansCertificate_keeps r s
  rwa [heq] at this

theorem State.ansMeasurements_keeps (r : SpdmReq) (s : State) : Keeps s ((State.ansMeasurements r s).2) := by
  unfold State.ansMeasurements
  repeat' first
    | with_reducible exact .refl _ | with_reducible assumption | with_reducible intro s
    | (extract_lets +onlyGivenNames x; refine (have hx : Keeps s x := ?_; ?_); rotate_left; clear_value x; rotate_right)
    | (extract_lets +onlyGivenNames x; clear_value x) | subst x | with_reducible apply Keeps.ite | split
    | with_reducible apply Keeps.after (State.aliasSign_keeps _ _) | with_reducible apply Keeps.after (State.onConn_keeps _ _ _)
    | with_reducible apply Keeps.after (State.entropy_keeps _ _) | with_reducible apply Keeps.ite
    | with_reducible refine Keeps.after (State.aliasSign_eq (by with_reducible assumption)) ?_
    | with_reducible refine Keeps.after (State.entropy_eq (by with_reducible assumption)) ?_
theorem State.ansMeasurements_eq {r : SpdmReq} {s : State} {v : List Byte} {u : State} (heq : State.ansMeasurements r s = (v, u)) : Keeps s u := by
  have := State.ansMeasurements_keeps r s
  rwa [heq] at this

theorem State.ansChallenge_keeps (r : SpdmReq) (s : State) : Keeps s ((State.ansChallenge r s).2) := by
  unfold State.ansChallenge
  repeat' first
    | with_reducible exact .refl _ | with_reducible assumption | with_reducible intro s
    | (extract_lets +onlyGivenNames x; refine (have hx : Keeps s x := ?_; ?_); rotate_left; clear_value x; rotate_right)
    | (extract_lets +onlyGivenNames x; clear_value x) | subst x | with_reducible apply Keeps.ite | split
    | with_reducible apply Keeps.after (State.aliasSign_keeps _ _) | with_reducible apply Keeps.after (State.entropy_keeps _ _)
    | with_reducible apply Keeps.ite | with_reducible refine Keeps.after (State.aliasSign_eq (by with_reducible assumption)) ?_
    | with_reducible refine Keeps.after (State.entropy_eq (by with_reducible assumption)) ?_
theorem State.ansChallenge_eq {r : SpdmReq} {s : State} {v : List Byte} {u : State} (heq : State.ansChallenge r s = (v, u)) : Keeps s u := by
  have := State.ansChallenge_keeps r s
  rwa [heq] at this

theorem State.setSessions_keeps (s : State) : Keeps s (State.setSessions s) := by
  unfold State.setSessions
  repeat' first
    | with_reducible exact .refl _ | with_reducible assumption | with_reducible intro s | with_reducible apply Keeps.after (State.wr_keeps _ _ _ _)
    | with_reducible apply Keeps.ite | split

theorem State.ansKeyExchange_keeps (r : SpdmReq) (s : State) : Keeps s ((State.ansKeyExchange r s).2) := by
  unfold State.ansKeyExchange
  repeat' first
    | with_reducible exact .refl _ | with_reducible assumption | with_reducible intro s
    | (extract_lets +onlyGivenNames x; refine (have hx : Keeps s x := ?_; ?_); rotate_left; clear_value x; rotate_right)
    | (extract_lets +onlyGivenNames x; clear_value x) | subst x | with_reducible apply Keeps.ite | split
    | with_reducible apply Keeps.after (State.setSessions_keeps _) | with_reducible apply Keeps.after (State.aliasSign_keeps _ _)
    | with_reducible apply Keeps.after (State.entropy_keeps _ _) | with_reducible apply Keeps.after (State.onSec_keeps _ _)
    | with_reducible apply Keeps.ite | with_reducible refine Keeps.after (State.aliasSign_eq (by with_reducible assumption)) ?_
    | with_reducible refine Keeps.after (State.entropy_eq (by with_reducible assumption)) ?_
theorem State.ansKeyExchange_eq {r : SpdmReq} {s : State} {v : List Byte} {u : State} (heq : State.ansKeyExchange r s = (v, u)) : Keeps s u := by
  have := State.ansKeyExchange_keeps r s
  rwa [heq] at this

theorem State.ansFinish_keeps (r : SpdmReq) (s : State) : Keeps s ((State.ansFinish r s).2) := by
  unfold State.ansFinish
  repeat' first
    | with_reducible exact .refl _ | with_reducible assumption | with_reducible intro s | with_reducible apply Keeps.ite | split
    | with_reducible apply Keeps.ite | with_reducible apply Keeps.other
theorem State.ansFinish_eq {r : SpdmReq} {s : State} {v : List Byte} {u : State} (heq : State.ansFinish r s = (v, u)) : Keeps s u := by
  have := State.ansFinish_keeps r s
  rwa [heq] at this

theorem State.sessionOpen_keeps (r : SpdmReq) (a : List Byte) (s : State) : Keeps s (State.sessionOpen r a s) := by
  unfold State.sessionOpen
  repeat' first
    | with_reducible exact .refl _ | with_reducible assumption | with_reducible intro s | with_reducible apply Keeps.ite | split
    | with_reducible apply Keeps.after (State.onSession_keeps _ _ _) | with_reducible apply Keeps.ite | with_reducible apply Keeps.other

theorem State.ansHeartbeat_keeps (r : SpdmReq) (s : State) : Keeps s ((State.ansHeartbeat r s).2) := by
  unfold State.ansHeartbeat
  repeat' first
    | with_reducible exact .refl _ | with_reducible assumption | with_reducible intro s | with_reducible apply Keeps.ite | split
theorem State.ansHeartbeat_eq {r : SpdmReq} {s : State} {v : List Byte} {u : State} (heq : State.ansHeartbeat r s = (v, u)) : Keeps s u := by
  have := State.ansHeartbeat_keeps r s
  rwa [heq] at this

theorem State.ansKeyUpdate_keeps (r : SpdmReq) (s : State) : Keeps s ((State.ansKeyUpdate r s).2) := by
  unfold State.ansKeyUpdate
  repeat' first
    | with_reducible exact .refl _ | with_reducible assumption | with_reducible intro s
    | (extract_lets +onlyGivenNames x; refine (have hx : Keeps s x := ?_; ?_); rotate_left; clear_value x; rotate_right)
    | (extract_lets +onlyGivenNames x; clear_value x) | subst x | with_reducible apply Keeps.ite | split
    | with_reducible apply Keeps.after (State.onSession_keeps _ _ _) | with_reducible apply Keeps.ite | with_reducible apply Keeps.other
theorem State.ansKeyUpdate_eq {r : SpdmReq} {s : State} {v : List Byte} {u : State} (heq : State.ansKeyUpdate r s = (v, u)) : Keeps s u := by
  have := State.ansKeyUpdate_keeps r s
  rwa [heq] at this

theorem State.ansEndSession_keeps (r : SpdmReq) (s : State) : Keeps s ((State.ansEndSession r s).2) := by
  unfold State.ansEndSession
  repeat' first
    | with_reducible exact .refl _ | with_reducible assumption | with_reducible intro s | with_reducible apply Keeps.ite | split
theorem State.ansEndSession_eq {r : SpdmReq} {s : State} {v : List Byte} {u : State} (heq : State.ansEndSession r s = (v, u)) : Keeps s u := by
  have := State.ansEndSession_keeps r s
  rwa [heq] at this

theorem State.sessionGone_keeps (r : SpdmReq) (a : List Byte) (s : State) : Keeps s (State.sessionGone r a s) := by
  unfold State.sessionGone
  repeat' first
    | with_reducible exact .refl _ | with_reducible assumption | with_reducible intro s | with_reducible apply Keeps.ite | split
    | with_reducible apply Keeps.after (State.setSessions_keeps _) | with_reducible apply Keeps.after (State.onSec_keeps _ _)
    | with_reducible apply Keeps.ite | with_reducible apply Keeps.other

theorem State.setKeysHeld_keeps (p : Nat) (s : State) : Keeps s (State.setKeysHeld p s) := by
  unfold State.setKeysHeld
  repeat' first
    | with_reducible exact .refl _ | with_reducible assumption | with_reducible intro s | with_reducible apply Keeps.after (State.wr_keeps _ _ _ _)
    | with_reducible apply Keeps.ite | split

theorem State.setPubkeys_keeps (s : State) : Keeps s (State.setPubkeys s) := by
  unfold State.setPubkeys
  repeat' first
    | with_reducible exact .refl _ | with_reducible assumption | with_reducible intro s | with_reducible apply Keeps.after (State.wr_keeps _ _ _ _)
    | with_reducible apply Keeps.ite | split

theorem State.keyDeliver_keeps (r : SpdmReq) (s : State) : Keeps s ((State.keyDeliver r s).2) := by
  unfold State.keyDeliver
  repeat' first
    | with_reducible exact .refl _ | with_reducible assumption | with_reducible intro s
    | (extract_lets +onlyGivenNames x; refine (have hx : Keeps s x := ?_; ?_); rotate_left; clear_value x; rotate_right)
    | (extract_lets +onlyGivenNames x; clear_value x) | subst x | with_reducible apply Keeps.after (State.setKeysHeld_keeps _ _)
    | with_reducible apply Keeps.after (State.onPart_keeps _ _ _) | with_reducible apply Keeps.ite | split
theorem State.keyDeliver_eq {r : SpdmReq} {s : State} {v : Nat} {u : State} (heq : State.keyDeliver r s = (v, u)) : Keeps s u := by
  have := State.keyDeliver_keeps r s
  rwa [heq] at this

theorem State.keyErase_keeps (r : SpdmReq) (s : State) : Keeps s ((State.keyErase r s).2) := by
  unfold State.keyErase
  repeat' first
    | with_reducible exact .refl _ | with_reducible assumption | with_reducible intro s
    | (extract_lets +onlyGivenNames x; refine (have hx : Keeps s x := ?_; ?_); rotate_left; clear_value x; rotate_right)
    | (extract_lets +onlyGivenNames x; clear_value x) | subst x | with_reducible apply Keeps.after (State.setKeysHeld_keeps _ _)
    | with_reducible apply Keeps.after (State.onPart_keeps _ _ _) | with_reducible apply Keeps.ite | split
theorem State.keyErase_eq {r : SpdmReq} {s : State} {v : Nat} {u : State} (heq : State.keyErase r s = (v, u)) : Keeps s u := by
  have := State.keyErase_keeps r s
  rwa [heq] at this

theorem State.pubkeyAdd_keeps (r : SpdmReq) (s : State) : Keeps s ((State.pubkeyAdd r s).2) := by
  unfold State.pubkeyAdd
  repeat' first
    | with_reducible exact .refl _ | with_reducible assumption | with_reducible intro s
    | (extract_lets +onlyGivenNames x; refine (have hx : Keeps s x := ?_; ?_); rotate_left; clear_value x; rotate_right)
    | (extract_lets +onlyGivenNames x; clear_value x) | subst x | with_reducible apply Keeps.after (State.setPubkeys_keeps _)
    | with_reducible apply Keeps.ite | (with_reducible apply Keeps.nv; rotate_left; rfl; rfl; rfl; rfl; rfl) | split
theorem State.pubkeyAdd_eq {r : SpdmReq} {s : State} {v : Nat} {u : State} (heq : State.pubkeyAdd r s = (v, u)) : Keeps s u := by
  have := State.pubkeyAdd_keeps r s
  rwa [heq] at this

theorem State.pubkeyRemove_keeps (r : SpdmReq) (s : State) : Keeps s ((State.pubkeyRemove r s).2) := by
  unfold State.pubkeyRemove
  repeat' first
    | with_reducible exact .refl _ | with_reducible assumption | with_reducible intro s
    | (extract_lets +onlyGivenNames x; refine (have hx : Keeps s x := ?_; ?_); rotate_left; clear_value x; rotate_right)
    | (extract_lets +onlyGivenNames x; clear_value x) | subst x | with_reducible apply Keeps.ite | split
    | with_reducible apply Keeps.after (State.setPubkeys_keeps _) | with_reducible apply Keeps.ite
    | (with_reducible apply Keeps.nv; rotate_left; rfl; rfl; rfl; rfl; rfl)
theorem State.pubkeyRemove_eq {r : SpdmReq} {s : State} {v : Nat} {u : State} (heq : State.pubkeyRemove r s = (v, u)) : Keeps s u := by
  have := State.pubkeyRemove_keeps r s
  rwa [heq] at this

theorem State.ansVendor_keeps (f : SpdmReq → State → Nat × State) (hf : ∀ r u, Keeps u (f r u).2) (r : SpdmReq) (s : State) :
    Keeps s (State.ansVendor f r s).2 := by
  unfold State.ansVendor
  split
  · exact .refl _
  split
  · exact .refl _
  · exact hf ..

theorem State.answerTo_keeps (r : SpdmReq) (s : State) : Keeps s ((State.answerTo r s).2) := by
  unfold State.answerTo
  repeat' first
    | with_reducible exact .refl _ | with_reducible assumption | with_reducible intro s
    | (extract_lets +onlyGivenNames x; refine (have hx : Keeps s x := ?_; ?_); rotate_left; clear_value x; rotate_right)
    | (extract_lets +onlyGivenNames x; clear_value x) | subst x | with_reducible apply Keeps.ite | split
    | with_reducible apply Keeps.after (State.ansVendor_keeps _ ?_ _ _) | with_reducible apply Keeps.after (State.pubkeyRemove_keeps _ _)
    | with_reducible apply Keeps.after (State.pubkeyAdd_keeps _ _) | with_reducible apply Keeps.after (State.keyErase_keeps _ _)
    | with_reducible apply Keeps.after (State.keyDeliver_keeps _ _) | with_reducible apply Keeps.after (State.ansEndSession_keeps _ _)
    | with_reducible apply Keeps.after (State.ansKeyUpdate_keeps _ _) | with_reducible apply Keeps.after (State.ansHeartbeat_keeps _ _)
    | with_reducible apply Keeps.after (State.ansFinish_keeps _ _) | with_reducible apply Keeps.after (State.ansKeyExchange_keeps _ _)
    | with_reducible apply Keeps.after (State.ansChallenge_keeps _ _) | with_reducible apply Keeps.after (State.ansMeasurements_keeps _ _)
    | with_reducible apply Keeps.after (State.ansCertificate_keeps _ _) | with_reducible apply Keeps.after (State.ansDigests_keeps _ _)
    | with_reducible apply Keeps.after (State.ansAlgorithms_keeps _ _) | with_reducible apply Keeps.after (State.ansCapabilities_keeps _ _)
    | with_reducible apply Keeps.after (State.ansVersion_keeps _ _) | with_reducible apply Keeps.ite
    | with_reducible refine Keeps.after (State.ansVendor_eq (by with_reducible assumption)) ?_
    | with_reducible refine Keeps.after (State.pubkeyRemove_eq (by with_reducible assumption)) ?_
    | with_reducible refine Keeps.after (State.pubkeyAdd_eq (by with_reducible assumption)) ?_
    | with_reducible refine Keeps.after (State.keyErase_eq (by with_reducible assumption)) ?_
    | with_reducible refine Keeps.after (State.keyDeliver_eq (by with_reducible assumption)) ?_
    | with_reducible refine Keeps.after (State.ansEndSession_eq (by with_reducible assumption)) ?_
    | with_reducible refine Keeps.after (State.ansKeyUpdate_eq (by with_reducible assumption)) ?_
    | with_reducible refine Keeps.after (State.ansHeartbeat_eq (by with_reducible assumption)) ?_
    | with_reducible refine Keeps.after (State.ansFinish_eq (by with_reducible assumption)) ?_
    | with_reducible refine Keeps.after (State.ansKeyExchange_eq (by with_reducible assumption)) ?_
    | with_reducible refine Keeps.after (State.ansChallenge_eq (by with_reducible assumption)) ?_
    | with_reducible refine Keeps.after (State.ansMeasurements_eq (by with_reducible assumption)) ?_
    | with_reducible refine Keeps.after (State.ansCertificate_eq (by with_reducible assumption)) ?_
    | with_reducible refine Keeps.after (State.ansDigests_eq (by with_reducible assumption)) ?_
    | with_reducible refine Keeps.after (State.ansAlgorithms_eq (by with_reducible assumption)) ?_
    | with_reducible refine Keeps.after (State.ansCapabilities_eq (by with_reducible assumption)) ?_
    | with_reducible refine Keeps.after (State.ansVersion_eq (by with_reducible assumption)) ?_
theorem State.answerTo_eq {r : SpdmReq} {s : State} {v : List Byte} {u : State} (heq : State.answerTo r s = (v, u)) : Keeps s u := by
  have := State.answerTo_keeps r s
  rwa [heq] at this

theorem State.ansChunkSend_keeps (r : SpdmReq) (s : State) : Keeps s ((State.ansChunkSend r s).2) := by
  unfold State.ansChunkSend
  repeat' first
    | with_reducible exact .refl _ | with_reducible assumption | with_reducible intro s
    | (extract_lets +onlyGivenNames x; refine (have hx : Keeps s x := ?_; ?_); rotate_left; clear_value x; rotate_right)
    | (extract_lets +onlyGivenNames x; clear_value x) | subst x | with_reducible apply Keeps.ite | split
    | with_reducible apply Keeps.after (State.answerTo_keeps _ _) | with_reducible apply Keeps.after (State.onConn_keeps _ _ _)
    | with_reducible apply Keeps.ite | with_reducible refine Keeps.after (State.answerTo_eq (by with_reducible assumption)) ?_
theorem State.ansChunkSend_eq {r : SpdmReq} {s : State} {v : List Byte} {u : State} (heq : State.ansChunkSend r s = (v, u)) : Keeps s u := by
  have := State.ansChunkSend_keeps r s
  rwa [heq] at this

theorem State.ansChunkGet_keeps (r : SpdmReq) (s : State) : Keeps s ((State.ansChunkGet r s).2) := by
  unfold State.ansChunkGet
  repeat' first
    | with_reducible exact .refl _ | with_reducible assumption | with_reducible intro s
    | (extract_lets +onlyGivenNames x; refine (have hx : Keeps s x := ?_; ?_); rotate_left; clear_value x; rotate_right)
    | (extract_lets +onlyGivenNames x; clear_value x) | subst x | with_reducible apply Keeps.after (State.onConn_keeps _ _ _)
    | with_reducible apply Keeps.ite | split
theorem State.ansChunkGet_eq {r : SpdmReq} {s : State} {v : List Byte} {u : State} (heq : State.ansChunkGet r s = (v, u)) : Keeps s u := by
  have := State.ansChunkGet_keeps r s
  rwa [heq] at this

theorem State.spdmDo_keeps (f : SpdmReq → State → List Byte × State) (hf : ∀ r u, Keeps u (f r u).2) (r : SpdmReq) (s : State) :
    Keeps s (State.spdmDo f r s) := by
  unfold State.spdmDo
  split
  next heq =>
  have := hf r (s.spdmTook r)
  rw [heq] at this
  exact (State.sessionGone_keeps ..).after ((State.sessionOpen_keeps ..).after ((State.spdmAnswer_keeps ..).after (this.after (State.spdmTook_keeps ..))))

theorem State.spdmTake_keeps (mine : SpdmReq → Bool) (f : SpdmReq → State → List Byte × State) (hf : ∀ x0 u, Keeps u (f x0 u).2) (v : Nat) (msg : List Byte) (s : State) : Keeps s (State.spdmTake mine f v msg s) := by
  unfold State.spdmTake
  repeat' first
    | with_reducible exact .refl _ | with_reducible assumption | with_reducible intro s | with_reducible apply Keeps.after (hf _ _ )
    | with_reducible apply Keeps.ite | split | with_reducible apply Keeps.after (State.spdmDo_keeps _ ?_ _ _) | with_reducible apply Keeps.ite

theorem State.spdmCmd_keeps (mine : SpdmReq → Bool) (f : SpdmReq → State → List Byte × State) (hf : ∀ x0 u, Keeps u (f x0 u).2) (via : SpdmVia) (msg : List Byte) (s : State) : Keeps s (State.spdmCmd mine f via msg s) := by
  unfold State.spdmCmd
  repeat' first
    | with_reducible exact .refl _ | with_reducible assumption | with_reducible intro s | with_reducible apply Keeps.after (hf _ _ )
    | (extract_lets +onlyGivenNames x; refine (have hx : Keeps s x := ?_; ?_); rotate_left; clear_value x; rotate_right)
    | (extract_lets +onlyGivenNames x; clear_value x) | subst x | with_reducible apply Keeps.after (State.spdmTake_keeps _ _ ?_ _ _ _)
    | with_reducible apply Keeps.after (State.mctpIn_keeps _ _ ?_ _) | with_reducible apply Keeps.ite | split

theorem execSpdmGetVersion_keeps (via : SpdmVia) (msg : List Byte) (s : State) : OutKeeps s (execSpdmGetVersion via msg s) := by
  unfold execSpdmGetVersion
  repeat' first
    | with_reducible exact .refl _ | with_reducible assumption | with_reducible intro s | with_reducible apply OutKeeps.refused
    | with_reducible apply OutKeeps.ite | with_reducible apply OutKeeps.next | with_reducible apply Keeps.after (State.spdmCmd_keeps _ _ ?_ _ _ _)
    | with_reducible apply Keeps.after (State.answerTo_keeps _ _) | with_reducible apply Keeps.ite
    | with_reducible refine Keeps.after (State.answerTo_eq (by with_reducible assumption)) ?_ | split

theorem execSpdmGetCapabilities_keeps (via : SpdmVia) (msg : List Byte) (s : State) : OutKeeps s (execSpdmGetCapabilities via msg s) := by
  unfold execSpdmGetCapabilities
  repeat' first
    | with_reducible exact .refl _ | with_reducible assumption | with_reducible intro s | with_reducible apply OutKeeps.refused
    | with_reducible apply OutKeeps.ite | with_reducible apply OutKeeps.next | with_reducible apply Keeps.after (State.spdmCmd_keeps _ _ ?_ _ _ _)
    | with_reducible apply Keeps.after (State.answerTo_keeps _ _) | with_reducible apply Keeps.ite
    | with_reducible refine Keeps.after (State.answerTo_eq (by with_reducible assumption)) ?_ | split

theorem execSpdmNegotiateAlgorithms_keeps (via : SpdmVia) (msg : List Byte) (s : State) : OutKeeps s (execSpdmNegotiateAlgorithms via msg s) := by
  unfold execSpdmNegotiateAlgorithms
  repeat' first
    | with_reducible exact .refl _ | with_reducible assumption | with_reducible intro s | with_reducible apply OutKeeps.refused
    | with_reducible apply OutKeeps.ite | with_reducible apply OutKeeps.next | with_reducible apply Keeps.after (State.spdmCmd_keeps _ _ ?_ _ _ _)
    | with_reducible apply Keeps.after (State.answerTo_keeps _ _) | with_reducible apply Keeps.ite
    | with_reducible refine Keeps.after (State.answerTo_eq (by with_reducible assumption)) ?_ | split

theorem execSpdmGetDigests_keeps (via : SpdmVia) (msg : List Byte) (s : State) : OutKeeps s (execSpdmGetDigests via msg s) := by
  unfold execSpdmGetDigests
  repeat' first
    | with_reducible exact .refl _ | with_reducible assumption | with_reducible intro s | with_reducible apply OutKeeps.refused
    | with_reducible apply OutKeeps.ite | with_reducible apply OutKeeps.next | with_reducible apply Keeps.after (State.spdmCmd_keeps _ _ ?_ _ _ _)
    | with_reducible apply Keeps.after (State.answerTo_keeps _ _) | with_reducible apply Keeps.ite
    | with_reducible refine Keeps.after (State.answerTo_eq (by with_reducible assumption)) ?_ | split

theorem execSpdmGetCertificate_keeps (via : SpdmVia) (msg : List Byte) (s : State) : OutKeeps s (execSpdmGetCertificate via msg s) := by
  unfold execSpdmGetCertificate
  repeat' first
    | with_reducible exact .refl _ | with_reducible assumption | with_reducible intro s | with_reducible apply OutKeeps.refused
    | with_reducible apply OutKeeps.ite | with_reducible apply OutKeeps.next | with_reducible apply Keeps.after (State.spdmCmd_keeps _ _ ?_ _ _ _)
    | with_reducible apply Keeps.after (State.answerTo_keeps _ _) | with_reducible apply Keeps.ite
    | with_reducible refine Keeps.after (State.answerTo_eq (by with_reducible assumption)) ?_ | split

theorem execSpdmChallenge_keeps (via : SpdmVia) (msg : List Byte) (s : State) : OutKeeps s (execSpdmChallenge via msg s) := by
  unfold execSpdmChallenge
  repeat' first
    | with_reducible exact .refl _ | with_reducible assumption | with_reducible intro s | with_reducible apply OutKeeps.refused
    | with_reducible apply OutKeeps.ite | with_reducible apply OutKeeps.next | with_reducible apply Keeps.after (State.spdmCmd_keeps _ _ ?_ _ _ _)
    | with_reducible apply Keeps.after (State.answerTo_keeps _ _) | with_reducible apply Keeps.ite
    | with_reducible refine Keeps.after (State.answerTo_eq (by with_reducible assumption)) ?_ | split

theorem execSpdmGetMeasurements_keeps (via : SpdmVia) (msg : List Byte) (s : State) : OutKeeps s (execSpdmGetMeasurements via msg s) := by
  unfold execSpdmGetMeasurements
  repeat' first
    | with_reducible exact .refl _ | with_reducible assumption | with_reducible intro s | with_reducible apply OutKeeps.refused
    | with_reducible apply OutKeeps.ite | with_reducible apply OutKeeps.next | with_reducible apply Keeps.after (State.spdmCmd_keeps _ _ ?_ _ _ _)
    | with_reducible apply Keeps.after (State.answerTo_keeps _ _) | with_reducible apply Keeps.ite
    | with_reducible refine Keeps.after (State.answerTo_eq (by with_reducible assumption)) ?_ | split

theorem execSpdmKeyExchange_keeps (via : SpdmVia) (msg : List Byte) (s : State) : OutKeeps s (execSpdmKeyExchange via msg s) := by
  unfold execSpdmKeyExchange
  repeat' first
    | with_reducible exact .refl _ | with_reducible assumption | with_reducible intro s | with_reducible apply OutKeeps.refused
    | with_reducible apply OutKeeps.ite | with_reducible apply OutKeeps.next | with_reducible apply Keeps.after (State.spdmCmd_keeps _ _ ?_ _ _ _)
    | with_reducible apply Keeps.after (State.answerTo_keeps _ _) | with_reducible apply Keeps.ite
    | with_reducible refine Keeps.after (State.answerTo_eq (by with_reducible assumption)) ?_ | split

theorem execSpdmFinish_keeps (via : SpdmVia) (msg : List Byte) (s : State) : OutKeeps s (execSpdmFinish via msg s) := by
  unfold execSpdmFinish
  repeat' first
    | with_reducible exact .refl _ | with_reducible assumption | with_reducible intro s | with_reducible apply OutKeeps.refused
    | with_reducible apply OutKeeps.ite | with_reducible apply OutKeeps.next | with_reducible apply Keeps.after (State.spdmCmd_keeps _ _ ?_ _ _ _)
    | with_reducible apply Keeps.after (State.answerTo_keeps _ _) | with_reducible apply Keeps.ite
    | with_reducible refine Keeps.after (State.answerTo_eq (by with_reducible assumption)) ?_ | split

theorem execSpdmHeartbeat_keeps (via : SpdmVia) (msg : List Byte) (s : State) : OutKeeps s (execSpdmHeartbeat via msg s) := by
  unfold execSpdmHeartbeat
  repeat' first
    | with_reducible exact .refl _ | with_reducible assumption | with_reducible intro s | with_reducible apply OutKeeps.refused
    | with_reducible apply OutKeeps.ite | with_reducible apply OutKeeps.next | with_reducible apply Keeps.after (State.spdmCmd_keeps _ _ ?_ _ _ _)
    | with_reducible apply Keeps.after (State.answerTo_keeps _ _) | with_reducible apply Keeps.ite
    | with_reducible refine Keeps.after (State.answerTo_eq (by with_reducible assumption)) ?_ | split

theorem execSpdmKeyUpdate_keeps (via : SpdmVia) (msg : List Byte) (s : State) : OutKeeps s (execSpdmKeyUpdate via msg s) := by
  unfold execSpdmKeyUpdate
  repeat' first
    | with_reducible exact .refl _ | with_reducible assumption | with_reducible intro s | with_reducible apply OutKeeps.refused
    | with_reducible apply OutKeeps.ite | with_reducible apply OutKeeps.next | with_reducible apply Keeps.after (State.spdmCmd_keeps _ _ ?_ _ _ _)
    | with_reducible apply Keeps.after (State.answerTo_keeps _ _) | with_reducible apply Keeps.ite
    | with_reducible refine Keeps.after (State.answerTo_eq (by with_reducible assumption)) ?_ | split

theorem execSpdmEndSession_keeps (via : SpdmVia) (msg : List Byte) (s : State) : OutKeeps s (execSpdmEndSession via msg s) := by
  unfold execSpdmEndSession
  repeat' first
    | with_reducible exact .refl _ | with_reducible assumption | with_reducible intro s | with_reducible apply OutKeeps.refused
    | with_reducible apply OutKeeps.ite | with_reducible apply OutKeeps.next | with_reducible apply Keeps.after (State.spdmCmd_keeps _ _ ?_ _ _ _)
    | with_reducible apply Keeps.after (State.answerTo_keeps _ _) | with_reducible apply Keeps.ite
    | with_reducible refine Keeps.after (State.answerTo_eq (by with_reducible assumption)) ?_ | split

theorem execSpdmChunkSend_keeps (via : SpdmVia) (msg : List Byte) (s : State) : OutKeeps s (execSpdmChunkSend via msg s) := by
  unfold execSpdmChunkSend
  repeat' first
    | with_reducible exact .refl _ | with_reducible assumption | with_reducible intro s | with_reducible apply OutKeeps.refused
    | with_reducible apply OutKeeps.ite | with_reducible apply OutKeeps.next | with_reducible apply Keeps.after (State.spdmCmd_keeps _ _ ?_ _ _ _)
    | with_reducible apply Keeps.after (State.ansChunkSend_keeps _ _) | with_reducible apply Keeps.ite
    | with_reducible refine Keeps.after (State.ansChunkSend_eq (by with_reducible assumption)) ?_ | split

theorem execSpdmChunkGet_keeps (via : SpdmVia) (msg : List Byte) (s : State) : OutKeeps s (execSpdmChunkGet via msg s) := by
  unfold execSpdmChunkGet
  repeat' first
    | with_reducible exact .refl _ | with_reducible assumption | with_reducible intro s | with_reducible apply OutKeeps.refused
    | with_reducible apply OutKeeps.ite | with_reducible apply OutKeeps.next | with_reducible apply Keeps.after (State.spdmCmd_keeps _ _ ?_ _ _ _)
    | with_reducible apply Keeps.after (State.ansChunkGet_keeps _ _) | with_reducible apply Keeps.ite
    | with_reducible refine Keeps.after (State.ansChunkGet_eq (by with_reducible assumption)) ?_ | split

theorem execSpdmKeyDeliver_keeps (via : SpdmVia) (msg : List Byte) (s : State) : OutKeeps s (execSpdmKeyDeliver via msg s) := by
  unfold execSpdmKeyDeliver
  repeat' first
    | with_reducible exact .refl _ | with_reducible assumption | with_reducible intro s | with_reducible apply OutKeeps.refused
    | with_reducible apply OutKeeps.ite | with_reducible apply OutKeeps.next | with_reducible apply Keeps.after (State.spdmCmd_keeps _ _ ?_ _ _ _)
    | with_reducible apply Keeps.after (State.answerTo_keeps _ _) | with_reducible apply Keeps.ite
    | with_reducible refine Keeps.after (State.answerTo_eq (by with_reducible assumption)) ?_ | split

theorem execSpdmKeyErase_keeps (via : SpdmVia) (msg : List Byte) (s : State) : OutKeeps s (execSpdmKeyErase via msg s) := by
  unfold execSpdmKeyErase
  repeat' first
    | with_reducible exact .refl _ | with_reducible assumption | with_reducible intro s | with_reducible apply OutKeeps.refused
    | with_reducible apply OutKeeps.ite | with_reducible apply OutKeeps.next | with_reducible apply Keeps.after (State.spdmCmd_keeps _ _ ?_ _ _ _)
    | with_reducible apply Keeps.after (State.answerTo_keeps _ _) | with_reducible apply Keeps.ite
    | with_reducible refine Keeps.after (State.answerTo_eq (by with_reducible assumption)) ?_ | split

theorem execSpdmPubkeyAdd_keeps (via : SpdmVia) (msg : List Byte) (s : State) : OutKeeps s (execSpdmPubkeyAdd via msg s) := by
  unfold execSpdmPubkeyAdd
  repeat' first
    | with_reducible exact .refl _ | with_reducible assumption | with_reducible intro s | with_reducible apply OutKeeps.refused
    | with_reducible apply OutKeeps.ite | with_reducible apply OutKeeps.next | with_reducible apply Keeps.after (State.spdmCmd_keeps _ _ ?_ _ _ _)
    | with_reducible apply Keeps.after (State.answerTo_keeps _ _) | with_reducible apply Keeps.ite
    | with_reducible refine Keeps.after (State.answerTo_eq (by with_reducible assumption)) ?_ | split

theorem execSpdmPubkeyRemove_keeps (via : SpdmVia) (msg : List Byte) (s : State) : OutKeeps s (execSpdmPubkeyRemove via msg s) := by
  unfold execSpdmPubkeyRemove
  repeat' first
    | with_reducible exact .refl _ | with_reducible assumption | with_reducible intro s | with_reducible apply OutKeeps.refused
    | with_reducible apply OutKeeps.ite | with_reducible apply OutKeeps.next | with_reducible apply Keeps.after (State.spdmCmd_keeps _ _ ?_ _ _ _)
    | with_reducible apply Keeps.after (State.answerTo_keeps _ _) | with_reducible apply Keeps.ite
    | with_reducible refine Keeps.after (State.answerTo_eq (by with_reducible assumption)) ?_ | split

theorem State.actSend_keeps (p : Nat) (s : State) : Keeps s (State.actSend p s) := by
  unfold State.actSend
  repeat' first
    | with_reducible exact .refl _ | with_reducible assumption | with_reducible intro s
    | (extract_lets +onlyGivenNames x; refine (have hx : Keeps s x := ?_; ?_); rotate_left; clear_value x; rotate_right)
    | (extract_lets +onlyGivenNames x; clear_value x) | subst x | with_reducible apply Keeps.ite | split
    | with_reducible apply Keeps.after (State.spdmDo_keeps _ ?_ _ _) | with_reducible apply Keeps.after (State.answerTo_keeps _ _)
    | with_reducible apply Keeps.after (State.spdmPut_keeps _ _ _) | with_reducible apply Keeps.after (State.mailboxUsed_keeps _ _)
    | with_reducible apply Keeps.after (State.refuseWrite_keeps _ _ _) | with_reducible apply Keeps.after (State.wr_keeps _ _ _ _)
    | with_reducible apply Keeps.ite | (with_reducible apply Keeps.whenB; intro s)
    | with_reducible refine Keeps.after (State.answerTo_eq (by with_reducible assumption)) ?_

theorem execSend_keeps (part : Fin 12) (s : State) : OutKeeps s (execSend part s) := by
  unfold execSend
  repeat' first
    | with_reducible exact .refl _ | with_reducible assumption | with_reducible intro s | with_reducible apply OutKeeps.refused
    | with_reducible apply OutKeeps.ite | with_reducible apply OutKeeps.next | with_reducible apply Keeps.after (State.actSend_keeps _ _)
    | with_reducible apply Keeps.after (State.ofPart_keeps _ _ ?_ _) | with_reducible apply Keeps.ite | split

/-! ### Mgmt -/

theorem State.actKick_keeps (h mask : Nat) (s : State) : Keeps s (State.actKick h mask s) := by
  unfold State.actKick
  repeat' first
    | with_reducible exact .refl _ | with_reducible assumption | with_reducible intro s | with_reducible apply Keeps.after (State.onMgt_keeps _ _)
    | with_reducible apply Keeps.ite | (with_reducible apply Keeps.each; intro _ s) | split

theorem execWdogKick_keeps (hub : Fin 4) (mask : BitVec 4) (s : State) : OutKeeps s (execWdogKick hub mask s) := by
  unfold execWdogKick
  repeat' first
    | with_reducible exact .refl _ | with_reducible assumption | with_reducible intro s | with_reducible apply OutKeeps.refused
    | with_reducible apply OutKeeps.ite | with_reducible apply OutKeeps.next | with_reducible apply Keeps.after (State.actKick_keeps _ _ _)
    | with_reducible apply Keeps.ite | split

theorem State.stewardLost_keeps (h c : Nat) (s : State) : Keeps s (State.stewardLost h c s) := by
  unfold State.stewardLost
  repeat' first
    | with_reducible exact .refl _ | with_reducible assumption | with_reducible intro s
    | (extract_lets +onlyGivenNames x; refine (have hx : Keeps s x := ?_; ?_); rotate_left; clear_value x; rotate_right)
    | (extract_lets +onlyGivenNames x; clear_value x) | subst x | with_reducible apply Keeps.after (State.fatal_keeps _ _ _)
    | with_reducible apply Keeps.after (State.onMgt_keeps _ _) | with_reducible apply Keeps.after (State.report_keeps _ _ _)
    | with_reducible apply Keeps.after (State.raise_keeps _ _ _) | with_reducible apply Keeps.after (State.wr_keeps _ _ _ _)
    | with_reducible apply Keeps.ite | (with_reducible apply Keeps.whenB; intro s) | split

theorem execWatchdogExpiry_keeps (hub core : Fin 4) (s : State) : OutKeeps s (execWatchdogExpiry hub core s) := by
  unfold execWatchdogExpiry
  repeat' first
    | with_reducible exact .refl _ | with_reducible assumption | with_reducible intro s | with_reducible apply OutKeeps.refused
    | with_reducible apply OutKeeps.ite
    | (extract_lets +onlyGivenNames x; refine (have hx : Keeps s x := ?_; ?_); rotate_left; clear_value x; rotate_right)
    | (extract_lets +onlyGivenNames x; clear_value x) | subst x | with_reducible apply OutKeeps.next
    | with_reducible apply Keeps.after (State.stewardLost_keeps _ _ _) | with_reducible apply Keeps.after (State.onMgt_keeps _ _)
    | with_reducible apply Keeps.after (State.report_keeps _ _ _) | with_reducible apply Keeps.after (State.flagCount_keeps _ _ _ _)
    | with_reducible apply Keeps.ite | (with_reducible apply Keeps.whenB; intro s) | split

theorem State.i3cAnswer_keeps (b : List Byte) (s : State) : Keeps s (State.i3cAnswer b s) := by
  unfold State.i3cAnswer
  repeat' first
    | with_reducible exact .refl _ | with_reducible assumption | with_reducible intro s | with_reducible apply Keeps.after (State.onMgt_keeps _ _)
    | with_reducible apply Keeps.ite | split

theorem State.setDyn_keeps (a : Nat) (s : State) : Keeps s (State.setDyn a s) := by
  unfold State.setDyn
  repeat' first
    | with_reducible exact .refl _ | with_reducible assumption | with_reducible intro s | with_reducible apply Keeps.after (State.wrB_keeps _ _ _ _)
    | with_reducible apply Keeps.after (State.wr_keeps _ _ _ _) | with_reducible apply Keeps.ite | split

theorem execI3cEnec_keeps (mask : Byte) (s : State) : OutKeeps s (execI3cEnec mask s) := by
  unfold execI3cEnec
  repeat' first
    | with_reducible exact .refl _ | with_reducible assumption | with_reducible intro s | with_reducible apply OutKeeps.refused
    | with_reducible apply OutKeeps.ite
    | (extract_lets +onlyGivenNames x; refine (have hx : Keeps s x := ?_; ?_); rotate_left; clear_value x; rotate_right)
    | (extract_lets +onlyGivenNames x; clear_value x) | subst x | with_reducible apply OutKeeps.next
    | with_reducible apply Keeps.after (State.raiseIbi_keeps _) | with_reducible apply Keeps.after (State.onMgt_keeps _ _)
    | with_reducible apply Keeps.ite | (with_reducible apply Keeps.whenB; intro s) | split

theorem execI3cDisec_keeps (mask : Byte) (s : State) : OutKeeps s (execI3cDisec mask s) := by
  unfold execI3cDisec
  repeat' first
    | with_reducible exact .refl _ | with_reducible assumption | with_reducible intro s | with_reducible apply OutKeeps.refused
    | with_reducible apply OutKeeps.ite | with_reducible apply OutKeeps.next | with_reducible apply Keeps.after (State.onMgt_keeps _ _)
    | with_reducible apply Keeps.ite | split

theorem execI3cRstdaa_keeps (s : State) : OutKeeps s (execI3cRstdaa s) := by
  unfold execI3cRstdaa
  repeat' first
    | with_reducible exact .refl _ | with_reducible assumption | with_reducible intro s | with_reducible apply OutKeeps.refused
    | with_reducible apply OutKeeps.ite | with_reducible apply OutKeeps.next | with_reducible apply Keeps.after (State.setDyn_keeps _ _)
    | with_reducible apply Keeps.ite | split

theorem execI3cEntdaa_keeps (addr : Fin 128) (s : State) : OutKeeps s (execI3cEntdaa addr s) := by
  unfold execI3cEntdaa
  repeat' first
    | with_reducible exact .refl _ | with_reducible assumption | with_reducible intro s | with_reducible apply OutKeeps.refused
    | with_reducible apply OutKeeps.ite
    | (extract_lets +onlyGivenNames x; refine (have hx : Keeps s x := ?_; ?_); rotate_left; clear_value x; rotate_right)
    | (extract_lets +onlyGivenNames x; clear_value x) | subst x | with_reducible apply OutKeeps.next | with_reducible apply Keeps.ite | split
    | with_reducible apply Keeps.after (State.setDyn_keeps _ _) | with_reducible apply Keeps.after (State.i3cAnswer_keeps _ _)
    | with_reducible apply Keeps.after (State.takeFree_keeps _) | with_reducible apply Keeps.ite
    | with_reducible refine Keeps.after (State.takeFree_eq (by with_reducible assumption)) ?_

theorem execI3cSetdasa_keeps (pair : DasaPair) (s : State) : OutKeeps s (execI3cSetdasa pair s) := by
  unfold execI3cSetdasa
  repeat' first
    | with_reducible exact .refl _ | with_reducible assumption | with_reducible intro s | with_reducible apply OutKeeps.refused
    | with_reducible apply OutKeeps.ite | with_reducible apply OutKeeps.next | with_reducible apply Keeps.after (State.setDyn_keeps _ _)
    | with_reducible apply Keeps.ite | split

theorem execI3cGetpid_keeps (s : State) : OutKeeps s (execI3cGetpid s) := by
  unfold execI3cGetpid
  repeat' first
    | with_reducible exact .refl _ | with_reducible assumption | with_reducible intro s | with_reducible apply OutKeeps.refused
    | with_reducible apply OutKeeps.ite | with_reducible apply OutKeeps.next | with_reducible apply Keeps.after (State.i3cAnswer_keeps _ _)
    | with_reducible apply Keeps.ite | split

theorem execI3cGetbcr_keeps (s : State) : OutKeeps s (execI3cGetbcr s) := by
  unfold execI3cGetbcr
  repeat' first
    | with_reducible exact .refl _ | with_reducible assumption | with_reducible intro s | with_reducible apply OutKeeps.refused
    | with_reducible apply OutKeeps.ite | with_reducible apply OutKeeps.next | with_reducible apply Keeps.after (State.i3cAnswer_keeps _ _)
    | with_reducible apply Keeps.ite | split

theorem execI3cGetdcr_keeps (s : State) : OutKeeps s (execI3cGetdcr s) := by
  unfold execI3cGetdcr
  repeat' first
    | with_reducible exact .refl _ | with_reducible assumption | with_reducible intro s | with_reducible apply OutKeeps.refused
    | with_reducible apply OutKeeps.ite
    | (extract_lets +onlyGivenNames x; refine (have hx : Keeps s x := ?_; ?_); rotate_left; clear_value x; rotate_right)
    | (extract_lets +onlyGivenNames x; clear_value x) | subst x | with_reducible apply OutKeeps.next | with_reducible apply Keeps.ite | split
    | with_reducible apply Keeps.after (State.i3cAnswer_keeps _ _) | with_reducible apply Keeps.after (State.takeFree_keeps _)
    | with_reducible apply Keeps.ite | with_reducible refine Keeps.after (State.takeFree_eq (by with_reducible assumption)) ?_

theorem execI3cGetmwl_keeps (s : State) : OutKeeps s (execI3cGetmwl s) := by
  unfold execI3cGetmwl
  repeat' first
    | with_reducible exact .refl _ | with_reducible assumption | with_reducible intro s | with_reducible apply OutKeeps.refused
    | with_reducible apply OutKeeps.ite | with_reducible apply OutKeeps.next | with_reducible apply Keeps.after (State.i3cAnswer_keeps _ _)
    | with_reducible apply Keeps.ite | split

theorem execI3cGetmrl_keeps (s : State) : OutKeeps s (execI3cGetmrl s) := by
  unfold execI3cGetmrl
  repeat' first
    | with_reducible exact .refl _ | with_reducible assumption | with_reducible intro s | with_reducible apply OutKeeps.refused
    | with_reducible apply OutKeeps.ite | with_reducible apply OutKeeps.next | with_reducible apply Keeps.after (State.i3cAnswer_keeps _ _)
    | with_reducible apply Keeps.ite | split

theorem execI3cGetstatus_keeps (s : State) : OutKeeps s (execI3cGetstatus s) := by
  unfold execI3cGetstatus
  repeat' first
    | with_reducible exact .refl _ | with_reducible assumption | with_reducible intro s | with_reducible apply OutKeeps.refused
    | with_reducible apply OutKeeps.ite
    | (extract_lets +onlyGivenNames x; refine (have hx : Keeps s x := ?_; ?_); rotate_left; clear_value x; rotate_right)
    | (extract_lets +onlyGivenNames x; clear_value x) | subst x | with_reducible apply OutKeeps.next | with_reducible apply Keeps.ite | split
    | with_reducible apply Keeps.after (State.i3cAnswer_keeps _ _) | with_reducible apply Keeps.after (State.takeFree_keeps _)
    | with_reducible apply Keeps.ite | with_reducible refine Keeps.after (State.takeFree_eq (by with_reducible assumption)) ?_

theorem State.ctlAnswer_keeps (m : List Byte) (data : List Byte) (s : State) : Keeps s (State.ctlAnswer m data s) := by
  unfold State.ctlAnswer
  repeat' first
    | with_reducible exact .refl _ | with_reducible assumption | with_reducible intro s | with_reducible apply Keeps.after (State.mctpSend_keeps _ _)
    | with_reducible apply Keeps.ite | split

theorem State.control_keeps (cmd : Nat) (m : List Byte) (act : State → State) (hact : ∀ u, Keeps u (act  u)) (s : State) : Keeps s (State.control cmd m act s) := by
  unfold State.control
  repeat' first
    | with_reducible exact .refl _ | with_reducible assumption | with_reducible intro s | with_reducible apply Keeps.after (hact _ )
    | with_reducible apply Keeps.after (State.mctpIn_keeps _ _ ?_ _) | with_reducible apply Keeps.ite | (with_reducible apply Keeps.whenB; intro s)
    | split

theorem State.setEid_keeps (msg : List Byte) (s : State) : Keeps s (State.setEid msg s) := by
  unfold State.setEid
  repeat' first
    | with_reducible exact .refl _ | with_reducible assumption | with_reducible intro s
    | (extract_lets +onlyGivenNames x; refine (have hx : Keeps s x := ?_; ?_); rotate_left; clear_value x; rotate_right)
    | (extract_lets +onlyGivenNames x; clear_value x) | subst x | with_reducible apply Keeps.after (State.ctlAnswer_keeps _ _ _)
    | with_reducible apply Keeps.after (State.wr_keeps _ _ _ _) | with_reducible apply Keeps.ite | split

theorem execSetEndpointId_keeps (msg : List Byte) (s : State) : OutKeeps s (execSetEndpointId msg s) := by
  unfold execSetEndpointId
  repeat' first
    | with_reducible exact .refl _ | with_reducible assumption | with_reducible intro s | with_reducible apply OutKeeps.refused
    | with_reducible apply OutKeeps.ite | with_reducible apply OutKeeps.next | with_reducible apply Keeps.after (State.setEid_keeps _ _)
    | with_reducible apply Keeps.after (State.control_keeps _ _ _ ?_ _) | with_reducible apply Keeps.ite | split

theorem execGetEndpointId_keeps (msg : List Byte) (s : State) : OutKeeps s (execGetEndpointId msg s) := by
  unfold execGetEndpointId
  repeat' first
    | with_reducible exact .refl _ | with_reducible assumption | with_reducible intro s | with_reducible apply OutKeeps.refused
    | with_reducible apply OutKeeps.ite | with_reducible apply OutKeeps.next | with_reducible apply Keeps.after (State.control_keeps _ _ _ ?_ _)
    | with_reducible apply Keeps.after (State.ctlAnswer_keeps _ _ _) | with_reducible apply Keeps.ite | split

theorem execGetEndpointUuid_keeps (msg : List Byte) (s : State) : OutKeeps s (execGetEndpointUuid msg s) := by
  unfold execGetEndpointUuid
  repeat' first
    | with_reducible exact .refl _ | with_reducible assumption | with_reducible intro s | with_reducible apply OutKeeps.refused
    | with_reducible apply OutKeeps.ite | with_reducible apply OutKeeps.next | with_reducible apply Keeps.after (State.control_keeps _ _ _ ?_ _)
    | with_reducible apply Keeps.after (State.ctlAnswer_keeps _ _ _) | with_reducible apply Keeps.ite | split

theorem State.mctpVersions_keeps (msg : List Byte) (s : State) : Keeps s (State.mctpVersions msg s) := by
  unfold State.mctpVersions
  repeat' first
    | with_reducible exact .refl _ | with_reducible assumption | with_reducible intro s
    | (extract_lets +onlyGivenNames x; refine (have hx : Keeps s x := ?_; ?_); rotate_left; clear_value x; rotate_right)
    | (extract_lets +onlyGivenNames x; clear_value x) | subst x | with_reducible apply Keeps.ite | split
    | with_reducible apply Keeps.after (State.ctlAnswer_keeps _ _ _) | with_reducible apply Keeps.after (State.takeFree_keeps _)
    | with_reducible apply Keeps.ite | with_reducible refine Keeps.after (State.takeFree_eq (by with_reducible assumption)) ?_

theorem execGetMctpVersionSupport_keeps (msg : List Byte) (s : State) : OutKeeps s (execGetMctpVersionSupport msg s) := by
  unfold execGetMctpVersionSupport
  repeat' first
    | with_reducible exact .refl _ | with_reducible assumption | with_reducible intro s | with_reducible apply OutKeeps.refused
    | with_reducible apply OutKeeps.ite | with_reducible apply OutKeeps.next | with_reducible apply Keeps.after (State.mctpVersions_keeps _ _)
    | with_reducible apply Keeps.after (State.control_keeps _ _ _ ?_ _) | with_reducible apply Keeps.ite | split

theorem execGetMessageTypeSupport_keeps (msg : List Byte) (s : State) : OutKeeps s (execGetMessageTypeSupport msg s) := by
  unfold execGetMessageTypeSupport
  repeat' first
    | with_reducible exact .refl _ | with_reducible assumption | with_reducible intro s | with_reducible apply OutKeeps.refused
    | with_reducible apply OutKeeps.ite | with_reducible apply OutKeeps.next | with_reducible apply Keeps.after (State.control_keeps _ _ _ ?_ _)
    | with_reducible apply Keeps.after (State.ctlAnswer_keeps _ _ _) | with_reducible apply Keeps.ite | split

theorem State.pldmAnswer_keeps (m : List Byte) (data : List Byte) (s : State) : Keeps s (State.pldmAnswer m data s) := by
  unfold State.pldmAnswer
  repeat' first
    | with_reducible exact .refl _ | with_reducible assumption | with_reducible intro s | with_reducible apply Keeps.after (State.mctpSend_keeps _ _)
    | with_reducible apply Keeps.ite | split

theorem State.pldm_keeps (type cmd : Nat) (live : Bool) (m : List Byte) (act : State → State) (hact : ∀ u, Keeps u (act  u)) (s : State) : Keeps s (State.pldm type cmd live m act s) := by
  unfold State.pldm
  repeat' first
    | with_reducible exact .refl _ | with_reducible assumption | with_reducible intro s | with_reducible apply Keeps.after (hact _ )
    | with_reducible apply Keeps.after (State.pldmAnswer_keeps _ _ _) | with_reducible apply Keeps.after (State.mctpIn_keeps _ _ ?_ _)
    | with_reducible apply Keeps.ite | (with_reducible apply Keeps.whenB; intro s) | split

theorem execGetTid_keeps (msg : List Byte) (s : State) : OutKeeps s (execGetTid msg s) := by
  unfold execGetTid
  repeat' first
    | with_reducible exact .refl _ | with_reducible assumption | with_reducible intro s | with_reducible apply OutKeeps.refused
    | with_reducible apply OutKeeps.ite | with_reducible apply OutKeeps.next | with_reducible apply Keeps.after (State.pldm_keeps _ _ _ _ _ ?_ _)
    | with_reducible apply Keeps.after (State.pldmAnswer_keeps _ _ _) | with_reducible apply Keeps.ite | split

theorem execSetTid_keeps (msg : List Byte) (s : State) : OutKeeps s (execSetTid msg s) := by
  unfold execSetTid
  repeat' first
    | with_reducible exact .refl _ | with_reducible assumption | with_reducible intro s | with_reducible apply OutKeeps.refused
    | with_reducible apply OutKeeps.ite
    | (extract_lets +onlyGivenNames x; refine (have hx : Keeps s x := ?_; ?_); rotate_left; clear_value x; rotate_right)
    | (extract_lets +onlyGivenNames x; clear_value x) | subst x | with_reducible apply OutKeeps.next
    | with_reducible apply Keeps.after (State.pldm_keeps _ _ _ _ _ ?_ _) | with_reducible apply Keeps.after (State.pldmAnswer_keeps _ _ _)
    | with_reducible apply Keeps.after (State.onMgt_keeps _ _) | with_reducible apply Keeps.ite | split

theorem execGetPldmVersion_keeps (msg : List Byte) (s : State) : OutKeeps s (execGetPldmVersion msg s) := by
  unfold execGetPldmVersion
  repeat' first
    | with_reducible exact .refl _ | with_reducible assumption | with_reducible intro s | with_reducible apply OutKeeps.refused
    | with_reducible apply OutKeeps.ite | with_reducible apply OutKeeps.next | with_reducible apply Keeps.ite | split
    | with_reducible apply Keeps.after (State.pldm_keeps _ _ _ _ _ ?_ _) | with_reducible apply Keeps.after (State.pldmAnswer_keeps _ _ _)
    | with_reducible apply Keeps.ite

theorem execGetPldmTypes_keeps (msg : List Byte) (s : State) : OutKeeps s (execGetPldmTypes msg s) := by
  unfold execGetPldmTypes
  repeat' first
    | with_reducible exact .refl _ | with_reducible assumption | with_reducible intro s | with_reducible apply OutKeeps.refused
    | with_reducible apply OutKeeps.ite | with_reducible apply OutKeeps.next | with_reducible apply Keeps.after (State.pldm_keeps _ _ _ _ _ ?_ _)
    | with_reducible apply Keeps.after (State.pldmAnswer_keeps _ _ _) | with_reducible apply Keeps.ite | split

theorem execGetPldmCommands_keeps (msg : List Byte) (s : State) : OutKeeps s (execGetPldmCommands msg s) := by
  unfold execGetPldmCommands
  repeat' first
    | with_reducible exact .refl _ | with_reducible assumption | with_reducible intro s | with_reducible apply OutKeeps.refused
    | with_reducible apply OutKeeps.ite | with_reducible apply OutKeeps.next | with_reducible apply Keeps.ite | split
    | with_reducible apply Keeps.after (State.pldm_keeps _ _ _ _ _ ?_ _) | with_reducible apply Keeps.after (State.pldmAnswer_keeps _ _ _)
    | with_reducible apply Keeps.ite

theorem execGetSensorReading_keeps (msg : List Byte) (s : State) : OutKeeps s (execGetSensorReading msg s) := by
  unfold execGetSensorReading
  repeat' first
    | with_reducible exact .refl _ | with_reducible assumption | with_reducible intro s | with_reducible apply OutKeeps.refused
    | with_reducible apply OutKeeps.ite
    | (extract_lets +onlyGivenNames x; refine (have hx : Keeps s x := ?_; ?_); rotate_left; clear_value x; rotate_right)
    | (extract_lets +onlyGivenNames x; clear_value x) | subst x | with_reducible apply OutKeeps.next | with_reducible apply Keeps.ite | split
    | with_reducible apply Keeps.after (State.pldm_keeps _ _ _ _ _ ?_ _) | with_reducible apply Keeps.after (State.pldmAnswer_keeps _ _ _)
    | with_reducible apply Keeps.ite

theorem execGetStateSensorReadings_keeps (msg : List Byte) (s : State) : OutKeeps s (execGetStateSensorReadings msg s) := by
  unfold execGetStateSensorReadings
  repeat' first
    | with_reducible exact .refl _ | with_reducible assumption | with_reducible intro s | with_reducible apply OutKeeps.refused
    | with_reducible apply OutKeeps.ite
    | (extract_lets +onlyGivenNames x; refine (have hx : Keeps s x := ?_; ?_); rotate_left; clear_value x; rotate_right)
    | (extract_lets +onlyGivenNames x; clear_value x) | subst x | with_reducible apply OutKeeps.next | with_reducible apply Keeps.ite | split
    | with_reducible apply Keeps.after (State.pldm_keeps _ _ _ _ _ ?_ _) | with_reducible apply Keeps.after (State.pldmAnswer_keeps _ _ _)
    | with_reducible apply Keeps.ite

theorem State.pdrInfo_keeps (msg : List Byte) (s : State) : Keeps s (State.pdrInfo msg s) := by
  unfold State.pdrInfo
  repeat' first
    | with_reducible exact .refl _ | with_reducible assumption | with_reducible intro s
    | (extract_lets +onlyGivenNames x; refine (have hx : Keeps s x := ?_; ?_); rotate_left; clear_value x; rotate_right)
    | (extract_lets +onlyGivenNames x; clear_value x) | subst x | with_reducible apply Keeps.ite | split
    | with_reducible apply Keeps.after (State.pldmAnswer_keeps _ _ _) | with_reducible apply Keeps.after (State.takeFree_keeps _)
    | with_reducible apply Keeps.ite | with_reducible refine Keeps.after (State.takeFree_eq (by with_reducible assumption)) ?_

theorem execGetPdrRepositoryInfo_keeps (msg : List Byte) (s : State) : OutKeeps s (execGetPdrRepositoryInfo msg s) := by
  unfold execGetPdrRepositoryInfo
  repeat' first
    | with_reducible exact .refl _ | with_reducible assumption | with_reducible intro s | with_reducible apply OutKeeps.refused
    | with_reducible apply OutKeeps.ite | with_reducible apply OutKeeps.next | with_reducible apply Keeps.after (State.pdrInfo_keeps _ _)
    | with_reducible apply Keeps.after (State.pldm_keeps _ _ _ _ _ ?_ _) | with_reducible apply Keeps.ite | split

theorem State.givePdr_keeps (msg : List Byte) (s : State) : Keeps s (State.givePdr msg s) := by
  unfold State.givePdr
  repeat' first
    | with_reducible exact .refl _ | with_reducible assumption | with_reducible intro s
    | (extract_lets +onlyGivenNames x; refine (have hx : Keeps s x := ?_; ?_); rotate_left; clear_value x; rotate_right)
    | (extract_lets +onlyGivenNames x; clear_value x) | subst x | with_reducible apply Keeps.ite | split
    | with_reducible apply Keeps.after (State.pldmAnswer_keeps _ _ _) | with_reducible apply Keeps.after (State.takeFree_keeps _)
    | with_reducible apply Keeps.ite | with_reducible refine Keeps.after (State.takeFree_eq (by with_reducible assumption)) ?_

theorem execGetPdr_keeps (msg : List Byte) (s : State) : OutKeeps s (execGetPdr msg s) := by
  unfold execGetPdr
  repeat' first
    | with_reducible exact .refl _ | with_reducible assumption | with_reducible intro s | with_reducible apply OutKeeps.refused
    | with_reducible apply OutKeeps.ite | with_reducible apply OutKeeps.next | with_reducible apply Keeps.after (State.givePdr_keeps _ _)
    | with_reducible apply Keeps.after (State.pldm_keeps _ _ _ _ _ ?_ _) | with_reducible apply Keeps.ite | split

theorem execSetEventReceiver_keeps (msg : List Byte) (s : State) : OutKeeps s (execSetEventReceiver msg s) := by
  unfold execSetEventReceiver
  repeat' first
    | with_reducible exact .refl _ | with_reducible assumption | with_reducible intro s | with_reducible apply OutKeeps.refused
    | with_reducible apply OutKeeps.ite | with_reducible apply OutKeeps.next | with_reducible apply Keeps.after (State.pldm_keeps _ _ _ _ _ ?_ _)
    | with_reducible apply Keeps.after (State.pldmAnswer_keeps _ _ _) | with_reducible apply Keeps.after (State.onMgt_keeps _ _)
    | with_reducible apply Keeps.ite | split

theorem State.ackEvent_keeps (s : State) : Keeps s (State.ackEvent s) := by
  unfold State.ackEvent
  repeat' first
    | with_reducible exact .refl _ | with_reducible assumption | with_reducible intro s | with_reducible apply Keeps.after (State.onMgt_keeps _ _)
    | with_reducible apply Keeps.ite | split

theorem State.pollEvent_keeps (msg : List Byte) (s : State) : Keeps s (State.pollEvent msg s) := by
  unfold State.pollEvent
  repeat' first
    | with_reducible exact .refl _ | with_reducible assumption | with_reducible intro s
    | (extract_lets +onlyGivenNames x; refine (have hx : Keeps s x := ?_; ?_); rotate_left; clear_value x; rotate_right)
    | (extract_lets +onlyGivenNames x; clear_value x) | subst x | with_reducible apply Keeps.ite | split
    | with_reducible apply Keeps.after (State.ackEvent_keeps _) | with_reducible apply Keeps.after (State.pldmAnswer_keeps _ _ _)
    | with_reducible apply Keeps.ite | (with_reducible apply Keeps.whenB; intro s) | with_reducible apply Keeps.other

theorem execPollForPlatformEventMessage_keeps (msg : List Byte) (s : State) : OutKeeps s (execPollForPlatformEventMessage msg s) := by
  unfold execPollForPlatformEventMessage
  repeat' first
    | with_reducible exact .refl _ | with_reducible assumption | with_reducible intro s | with_reducible apply OutKeeps.refused
    | with_reducible apply OutKeeps.ite | with_reducible apply OutKeeps.next | with_reducible apply Keeps.after (State.pollEvent_keeps _ _)
    | with_reducible apply Keeps.after (State.pldm_keeps _ _ _ _ _ ?_ _) | with_reducible apply Keeps.ite | split

theorem execPlatformEventResend_keeps (s : State) : OutKeeps s (execPlatformEventResend s) := by
  unfold execPlatformEventResend
  repeat' first
    | with_reducible exact .refl _ | with_reducible assumption | with_reducible intro s | with_reducible apply OutKeeps.refused
    | with_reducible apply OutKeeps.ite | with_reducible apply OutKeeps.next | with_reducible apply Keeps.after (State.mctpSend_keeps _ _)
    | with_reducible apply Keeps.after (State.onMgt_keeps _ _) | with_reducible apply Keeps.ite | (with_reducible apply Keeps.each; intro _ s) | split

theorem execPlatformEventMessageResponse_keeps (msg : List Byte) (s : State) : OutKeeps s (execPlatformEventMessageResponse msg s) := by
  unfold execPlatformEventMessageResponse
  repeat' first
    | with_reducible exact .refl _ | with_reducible assumption | with_reducible intro s | with_reducible apply OutKeeps.refused
    | with_reducible apply OutKeeps.ite
    | (extract_lets +onlyGivenNames x; refine (have hx : Keeps s x := ?_; ?_); rotate_left; clear_value x; rotate_right)
    | (extract_lets +onlyGivenNames x; clear_value x) | subst x | with_reducible apply OutKeeps.next
    | with_reducible apply Keeps.after (State.ackEvent_keeps _) | with_reducible apply Keeps.after (State.mctpIn_keeps _ _ ?_ _)
    | with_reducible apply Keeps.ite | (with_reducible apply Keeps.whenB; intro s) | split

theorem execLanternHeartbeat_keeps (s : State) : OutKeeps s (execLanternHeartbeat s) := by
  unfold execLanternHeartbeat
  repeat' first
    | with_reducible exact .refl _ | with_reducible assumption | with_reducible intro s | with_reducible apply OutKeeps.refused
    | with_reducible apply OutKeeps.ite | with_reducible apply OutKeeps.next | with_reducible apply Keeps.after (State.lanSend_keeps _ _ _ _ _)
    | with_reducible apply Keeps.after (State.onMgt_keeps _ _) | with_reducible apply Keeps.ite | split

theorem execResendReq_keeps (frame : List Byte) (s : State) : OutKeeps s (execResendReq frame s) := by
  unfold execResendReq
  repeat' first
    | with_reducible exact .refl _ | with_reducible assumption | with_reducible intro s | with_reducible apply OutKeeps.refused
    | with_reducible apply OutKeeps.ite
    | (extract_lets +onlyGivenNames x; refine (have hx : Keeps s x := ?_; ?_); rotate_left; clear_value x; rotate_right)
    | (extract_lets +onlyGivenNames x; clear_value x) | subst x | with_reducible apply OutKeeps.next | with_reducible apply Keeps.ite | split
    | with_reducible apply Keeps.after (State.lanSend_keeps _ _ _ _ _) | with_reducible apply Keeps.after (State.count_keeps _ _ _)
    | with_reducible apply Keeps.ite

theorem execManagementEthernetLink_keeps (up : Bool) (s : State) : OutKeeps s (execManagementEthernetLink up s) := by
  unfold execManagementEthernetLink
  repeat' first
    | with_reducible exact .refl _ | with_reducible assumption | with_reducible intro s | with_reducible apply OutKeeps.refused
    | with_reducible apply OutKeeps.ite | with_reducible apply OutKeeps.next | with_reducible apply Keeps.after (State.wrB_keeps _ _ _ _)
    | with_reducible apply Keeps.ite | split

/-! ### Bist -/

theorem State.actTest_keeps (test : Nat) (firmware : Bool) (s : State) : Keeps s (State.actTest test firmware s) := by
  unfold State.actTest
  repeat' first
    | with_reducible exact .refl _ | with_reducible assumption | with_reducible intro s
    | (extract_lets +onlyGivenNames x; refine (have hx : Keeps s x := ?_; ?_); rotate_left; clear_value x; rotate_right)
    | (extract_lets +onlyGivenNames x; clear_value x) | subst x | with_reducible apply Keeps.after (State.setProgramming_keeps _)
    | with_reducible apply Keeps.after (State.count_keeps _ _ _) | with_reducible apply Keeps.after (State.raise_keeps _ _ _)
    | with_reducible apply Keeps.after (State.wr_keeps _ _ _ _) | with_reducible apply Keeps.ite | (with_reducible apply Keeps.whenB; intro s)
    | with_reducible apply Keeps.other | split

theorem execFieldSelfTest_keeps (s : State) : OutKeeps s (execFieldSelfTest s) := by
  unfold execFieldSelfTest
  repeat' first
    | with_reducible exact .refl _ | with_reducible assumption | with_reducible intro s | with_reducible apply OutKeeps.refused
    | with_reducible apply OutKeeps.ite | with_reducible apply OutKeeps.next | with_reducible apply Keeps.after (State.actTest_keeps _ _ _)
    | with_reducible apply Keeps.ite | split

theorem execFullSelfTest_keeps (s : State) : OutKeeps s (execFullSelfTest s) := by
  unfold execFullSelfTest
  repeat' first
    | with_reducible exact .refl _ | with_reducible assumption | with_reducible intro s | with_reducible apply OutKeeps.refused
    | with_reducible apply OutKeeps.ite | with_reducible apply OutKeeps.next | with_reducible apply Keeps.after (State.actTest_keeps _ _ _)
    | with_reducible apply Keeps.ite | split

theorem execMemorySelfTest_keeps (s : State) : OutKeeps s (execMemorySelfTest s) := by
  unfold execMemorySelfTest
  repeat' first
    | with_reducible exact .refl _ | with_reducible assumption | with_reducible intro s | with_reducible apply OutKeeps.refused
    | with_reducible apply OutKeeps.ite | with_reducible apply OutKeeps.next | with_reducible apply Keeps.after (State.actTest_keeps _ _ _)
    | with_reducible apply Keeps.ite | split

theorem execSelfTestAbort_keeps (s : State) : OutKeeps s (execSelfTestAbort s) := by
  unfold execSelfTestAbort
  repeat' first
    | with_reducible exact .refl _ | with_reducible assumption | with_reducible intro s | with_reducible apply OutKeeps.refused
    | with_reducible apply OutKeeps.ite | with_reducible apply OutKeeps.next | with_reducible apply Keeps.after (State.stopTest_keeps _)
    | with_reducible apply Keeps.ite | split

theorem State.fullTestDone_keeps (k : Nat) (s : State) : Keeps s (State.fullTestDone k s) := by
  unfold State.fullTestDone
  repeat' first
    | with_reducible exact .refl _ | with_reducible assumption | with_reducible intro s | with_reducible apply Keeps.ite
    | (with_reducible apply Keeps.nv; rotate_left; rfl; rfl; rfl; rfl; rfl) | split

theorem State.memTestDone_keeps (units : Nat) (s : State) : Keeps s (State.memTestDone units s) := by
  unfold State.memTestDone
  repeat' first
    | with_reducible exact .refl _ | with_reducible assumption | with_reducible intro s | with_reducible apply Keeps.ite
    | with_reducible apply Keeps.other | (with_reducible apply Keeps.memory; rotate_left; exact Memory.write_wf _ _)
    | (with_reducible apply Keeps.memory; rotate_left; exact Memory.clear_wf _ _)
    | (with_reducible apply Keeps.memory; rotate_left; exact Memory.filter_wf _) | split

theorem execSelfTestEnd_keeps (faults : List TestFault) (ms : Nat) (s : State) : OutKeeps s (execSelfTestEnd faults ms s) := by
  unfold execSelfTestEnd
  repeat' first
    | with_reducible exact .refl _ | with_reducible assumption | with_reducible intro s | with_reducible apply OutKeeps.refused
    | with_reducible apply OutKeeps.ite
    | (extract_lets +onlyGivenNames x; refine (have hx : Keeps s x := ?_; ?_); rotate_left; clear_value x; rotate_right)
    | (extract_lets +onlyGivenNames x; clear_value x) | subst x | with_reducible apply OutKeeps.next | with_reducible apply Keeps.ite | split
    | with_reducible apply Keeps.after (State.memTestDone_keeps _ _) | with_reducible apply Keeps.after (State.fullTestDone_keeps _ _)
    | with_reducible apply Keeps.after (State.testTo_keeps _ _) | with_reducible apply Keeps.after (State.mwr_keeps _ _ _)
    | with_reducible apply Keeps.after (State.setProgramming_keeps _) | with_reducible apply Keeps.after (State.takeFree_keeps _)
    | with_reducible apply Keeps.after (State.count_keeps _ _ _) | with_reducible apply Keeps.after (State.bump_keeps _ _ _ _)
    | with_reducible apply Keeps.after (State.raise_keeps _ _ _) | with_reducible apply Keeps.after (State.wr_keeps _ _ _ _)
    | with_reducible apply Keeps.ite | (with_reducible apply Keeps.foldl; intro s _) | (with_reducible apply Keeps.each; intro _ s)
    | (with_reducible apply Keeps.whenB; intro s) | with_reducible refine Keeps.after (State.takeFree_eq (by with_reducible assumption)) ?_
    | exact Keeps.pickFree (by with_reducible assumption) | with_reducible apply Keeps.other

/-! ### Modes -/

theorem State.pfwStop_keeps (p : Nat) (s : State) : Keeps s (State.pfwStop p s) := by
  unfold State.pfwStop
  repeat' first
    | with_reducible exact .refl _ | with_reducible assumption | with_reducible intro s
    | (extract_lets +onlyGivenNames x; refine (have hx : Keeps s x := ?_; ?_); rotate_left; clear_value x; rotate_right)
    | (extract_lets +onlyGivenNames x; clear_value x) | subst x | with_reducible apply Keeps.after (State.stopSpare_keeps _ _)
    | with_reducible apply Keeps.after (State.stopCovers_keeps _ _) | with_reducible apply Keeps.after (State.loadFail_keeps _ _ _ _)
    | with_reducible apply Keeps.ite | (with_reducible apply Keeps.whenB; intro s) | split

theorem State.powerFail_keeps (s : State) : Keeps s (State.powerFail s) := by
  unfold State.powerFail
  repeat' first
    | with_reducible exact .refl _ | with_reducible assumption | with_reducible intro s
    | (extract_lets +onlyGivenNames x; refine (have hx : Keeps s x := ?_; ?_); rotate_left; clear_value x; rotate_right)
    | (extract_lets +onlyGivenNames x; clear_value x) | subst x | with_reducible apply Keeps.after (State.pfwStop_keeps _ _)
    | with_reducible apply Keeps.after (State.toQuiet_keeps _ _) | with_reducible apply Keeps.after (State.onPwr_keeps _ _)
    | with_reducible apply Keeps.after (State.reportSevere_keeps _ _ _ _) | with_reducible apply Keeps.after (State.startCommit_keeps _ _ _)
    | with_reducible apply Keeps.after (State.stopTest_keeps _) | with_reducible apply Keeps.after (State.count_keeps _ _ _)
    | with_reducible apply Keeps.after (State.raise_keeps _ _ _) | with_reducible apply Keeps.after (State.wr_keeps _ _ _ _)
    | with_reducible apply Keeps.ite | (with_reducible apply Keeps.each; intro _ s) | (with_reducible apply Keeps.whenB; intro s) | split

theorem execPowerFailWarning_keeps (s : State) : OutKeeps s (execPowerFailWarning s) := by
  unfold execPowerFailWarning
  repeat' first
    | with_reducible exact .refl _ | with_reducible assumption | with_reducible intro s | with_reducible apply OutKeeps.refused
    | with_reducible apply OutKeeps.ite | with_reducible apply OutKeeps.next | with_reducible apply Keeps.after (State.powerFail_keeps _)
    | with_reducible apply Keeps.ite | split

theorem execPfwDeassert_keeps (s : State) : OutKeeps s (execPfwDeassert s) := by
  unfold execPfwDeassert
  repeat' first
    | with_reducible exact .refl _ | with_reducible assumption | with_reducible intro s | with_reducible apply OutKeeps.refused
    | with_reducible apply OutKeeps.ite | with_reducible apply OutKeeps.next | with_reducible apply Keeps.after (State.onPwr_keeps _ _)
    | with_reducible apply Keeps.after (State.raise_keeps _ _ _) | with_reducible apply Keeps.after (State.wr_keeps _ _ _ _)
    | with_reducible apply Keeps.ite | split

theorem execInputUndervoltage_keeps (mv : Nat) (s : State) : OutKeeps s (execInputUndervoltage mv s) := by
  unfold execInputUndervoltage
  repeat' first
    | with_reducible exact .refl _ | with_reducible assumption | with_reducible intro s | with_reducible apply OutKeeps.refused
    | with_reducible apply OutKeeps.ite
    | (extract_lets +onlyGivenNames x; refine (have hx : Keeps s x := ?_; ?_); rotate_left; clear_value x; rotate_right)
    | (extract_lets +onlyGivenNames x; clear_value x) | subst x | with_reducible apply OutKeeps.next
    | with_reducible apply Keeps.after (State.powerFail_keeps _) | with_reducible apply Keeps.after (State.wr_keeps _ _ _ _)
    | with_reducible apply Keeps.ite | split

theorem State.actDoze_keeps (s : State) : Keeps s (State.actDoze s) := by
  unfold State.actDoze
  repeat' first
    | with_reducible exact .refl _ | with_reducible assumption | with_reducible intro s
    | (extract_lets +onlyGivenNames x; refine (have hx : Keeps s x := ?_; ?_); rotate_left; clear_value x; rotate_right)
    | (extract_lets +onlyGivenNames x; clear_value x) | subst x | with_reducible apply Keeps.after (State.refuseState_keeps _)
    | with_reducible apply Keeps.after (State.setTransition_keeps _) | with_reducible apply Keeps.after (State.onPwr_keeps _ _)
    | with_reducible apply Keeps.after (State.portDown_keeps _ _) | with_reducible apply Keeps.after (State.wr_keeps _ _ _ _)
    | with_reducible apply Keeps.ite | (with_reducible apply Keeps.each; intro _ s) | split

theorem execDoze_keeps (s : State) : OutKeeps s (execDoze s) := by
  unfold execDoze
  repeat' first
    | with_reducible exact .refl _ | with_reducible assumption | with_reducible intro s | with_reducible apply OutKeeps.refused
    | with_reducible apply OutKeeps.ite | with_reducible apply OutKeeps.next | with_reducible apply Keeps.after (State.actDoze_keeps _)
    | with_reducible apply Keeps.ite | split

theorem State.actWake_keeps (s : State) : Keeps s (State.actWake s) := by
  unfold State.actWake
  repeat' first
    | with_reducible exact .refl _ | with_reducible assumption | with_reducible intro s | with_reducible apply Keeps.after (State.refuseState_keeps _)
    | with_reducible apply Keeps.after (State.setTransition_keeps _) | with_reducible apply Keeps.after (State.onPwr_keeps _ _)
    | with_reducible apply Keeps.ite | split

theorem execWake_keeps (s : State) : OutKeeps s (execWake s) := by
  unfold execWake
  repeat' first
    | with_reducible exact .refl _ | with_reducible assumption | with_reducible intro s | with_reducible apply OutKeeps.refused
    | with_reducible apply OutKeeps.ite | with_reducible apply OutKeeps.next | with_reducible apply Keeps.after (State.actWake_keeps _)
    | with_reducible apply Keeps.ite | split

theorem State.moveDone_keeps (s : State) : Keeps s (State.moveDone s) := by
  unfold State.moveDone
  repeat' first
    | with_reducible exact .refl _ | with_reducible assumption | with_reducible intro s
    | (extract_lets +onlyGivenNames x; refine (have hx : Keeps s x := ?_; ?_); rotate_left; clear_value x; rotate_right)
    | (extract_lets +onlyGivenNames x; clear_value x) | subst x | with_reducible apply Keeps.after (State.stateReport_keeps _ _ _)
    | with_reducible apply Keeps.after (State.setTransition_keeps _) | with_reducible apply Keeps.after (State.onPwr_keeps _ _)
    | with_reducible apply Keeps.after (State.raise_keeps _ _ _) | with_reducible apply Keeps.after (State.wrB_keeps _ _ _ _)
    | with_reducible apply Keeps.after (State.wr_keeps _ _ _ _) | with_reducible apply Keeps.ite | (with_reducible apply Keeps.each; intro _ s)
    | (with_reducible apply Keeps.whenB; intro s) | split

theorem execStateDone_keeps (part : Option (Fin 12)) (s : State) : OutKeeps s (execStateDone part s) := by
  unfold execStateDone
  repeat' first
    | with_reducible exact .refl _ | with_reducible assumption | with_reducible intro s | with_reducible apply OutKeeps.refused
    | with_reducible apply OutKeeps.ite | with_reducible apply OutKeeps.next | with_reducible apply Keeps.ite | split
    | with_reducible apply Keeps.after (State.moveDone_keeps _) | with_reducible apply Keeps.after (State.activeDone_keeps _ _)
    | with_reducible apply Keeps.ite

/-! ### HostLink -/

theorem State.onLink_keeps (f : LinkSt → LinkSt) (s : State) : Keeps s (State.onLink f s) := by
  unfold State.onLink
  repeat' first
    | with_reducible exact .refl _ | with_reducible assumption | with_reducible intro s | with_reducible apply Keeps.ite
    | with_reducible apply Keeps.other | split

theorem State.linkSay_keeps (st chosen : Nat) (s : State) : Keeps s (State.linkSay st chosen s) := by
  unfold State.linkSay
  repeat' first
    | with_reducible exact .refl _ | with_reducible assumption | with_reducible intro s
    | (extract_lets +onlyGivenNames x; refine (have hx : Keeps s x := ?_; ?_); rotate_left; clear_value x; rotate_right)
    | (extract_lets +onlyGivenNames x; clear_value x) | subst x | with_reducible apply Keeps.after (State.onLink_keeps _ _)
    | with_reducible apply Keeps.ite | split

theorem State.startTraining_keeps (s : State) : Keeps s (State.startTraining s) := by
  unfold State.startTraining
  repeat' first
    | with_reducible exact .refl _ | with_reducible assumption | with_reducible intro s | with_reducible apply Keeps.after (State.onLink_keeps _ _)
    | with_reducible apply Keeps.after (State.wr_keeps _ _ _ _) | with_reducible apply Keeps.ite | split

theorem State.linkShowDown_keeps (s : State) : Keeps s (State.linkShowDown s) := by
  unfold State.linkShowDown
  repeat' first
    | with_reducible exact .refl _ | with_reducible assumption | with_reducible intro s
    | (extract_lets +onlyGivenNames x; refine (have hx : Keeps s x := ?_; ?_); rotate_left; clear_value x; rotate_right)
    | (extract_lets +onlyGivenNames x; clear_value x) | subst x | with_reducible apply Keeps.after (State.onLink_keeps _ _)
    | with_reducible apply Keeps.after (State.raise_keeps _ _ _) | with_reducible apply Keeps.after (State.wr_keeps _ _ _ _)
    | with_reducible apply Keeps.ite | (with_reducible apply Keeps.whenB; intro s) | split

theorem State.retrain_keeps (s : State) : Keeps s (State.retrain s) := by
  unfold State.retrain
  repeat' first
    | with_reducible exact .refl _ | with_reducible assumption | with_reducible intro s
    | with_reducible apply Keeps.after (State.linkShowDown_keeps _) | with_reducible apply Keeps.after (State.startTraining_keeps _)
    | with_reducible apply Keeps.after (State.flagCount_keeps _ _ _ _) | with_reducible apply Keeps.ite | split

theorem State.hlkEnable_keeps (s : State) : Keeps s (State.hlkEnable s) := by
  unfold State.hlkEnable
  repeat' first
    | with_reducible exact .refl _ | with_reducible assumption | with_reducible intro s
    | with_reducible apply Keeps.after (State.startTraining_keeps _) | with_reducible apply Keeps.after (State.onLink_keeps _ _)
    | with_reducible apply Keeps.ite | split

theorem State.hlkDisable_keeps (s : State) : Keeps s (State.hlkDisable s) := by
  unfold State.hlkDisable
  repeat' first
    | with_reducible exact .refl _ | with_reducible assumption | with_reducible intro s
    | with_reducible apply Keeps.after (State.linkShowDown_keeps _) | with_reducible apply Keeps.after (State.startTraining_keeps _)
    | with_reducible apply Keeps.after (State.wr_keeps _ _ _ _) | with_reducible apply Keeps.ite | split

theorem execHostLinkTrained_keeps (s : State) : OutKeeps s (execHostLinkTrained s) := by
  unfold execHostLinkTrained
  repeat' first
    | with_reducible exact .refl _ | with_reducible assumption | with_reducible intro s | with_reducible apply OutKeeps.refused
    | with_reducible apply OutKeeps.ite | with_reducible apply OutKeeps.next | with_reducible apply Keeps.after (State.linkSay_keeps _ _ _)
    | with_reducible apply Keeps.after (State.onLink_keeps _ _) | with_reducible apply Keeps.ite | split

theorem execOfferRepeat_keeps (s : State) : OutKeeps s (execOfferRepeat s) := by
  unfold execOfferRepeat
  repeat' first
    | with_reducible exact .refl _ | with_reducible assumption | with_reducible intro s | with_reducible apply OutKeeps.refused
    | with_reducible apply OutKeeps.ite | with_reducible apply OutKeeps.next | with_reducible apply Keeps.after (State.linkSay_keeps _ _ _)
    | with_reducible apply Keeps.ite | split

theorem State.ringPop_keeps (p : Nat) (s : State) : Keeps s (State.ringPop p s) := by
  unfold State.ringPop
  repeat' first
    | with_reducible exact .refl _ | with_reducible assumption | with_reducible intro s
    | (extract_lets +onlyGivenNames x; refine (have hx : Keeps s x := ?_; ?_); rotate_left; clear_value x; rotate_right)
    | (extract_lets +onlyGivenNames x; clear_value x) | subst x | with_reducible apply Keeps.after (State.drainInbox_keeps _ _ _)
    | with_reducible apply Keeps.after (State.drainWait_keeps _ _ _) | with_reducible apply Keeps.after (State.onPart_keeps _ _ _)
    | with_reducible apply Keeps.ite | split

theorem State.ackTo_keeps (fack : Nat) (s : State) : Keeps s (State.ackTo fack s) := by
  unfold State.ackTo
  repeat' first
    | with_reducible exact .refl _ | with_reducible assumption | with_reducible intro s
    | (extract_lets +onlyGivenNames x; refine (have hx : Keeps s x := ?_; ?_); rotate_left; clear_value x; rotate_right)
    | (extract_lets +onlyGivenNames x; clear_value x) | subst x | with_reducible apply Keeps.after (State.ringPop_keeps _ _)
    | with_reducible apply Keeps.after (State.onLink_keeps _ _) | with_reducible apply Keeps.ite | (with_reducible apply Keeps.each; intro _ s)
    | split

theorem State.linkUp_keeps (o : List Byte) (chosen : Nat) (s : State) : Keeps s (State.linkUp o chosen s) := by
  unfold State.linkUp
  repeat' first
    | with_reducible exact .refl _ | with_reducible assumption | with_reducible intro s
    | (extract_lets +onlyGivenNames x; refine (have hx : Keeps s x := ?_; ?_); rotate_left; clear_value x; rotate_right)
    | (extract_lets +onlyGivenNames x; clear_value x) | subst x | with_reducible apply Keeps.after (State.ackTo_keeps _ _)
    | with_reducible apply Keeps.after (State.onLink_keeps _ _) | with_reducible apply Keeps.after (State.flagCount_keeps _ _ _ _)
    | with_reducible apply Keeps.after (State.onPart_keeps _ _ _) | with_reducible apply Keeps.after (State.raise_keeps _ _ _)
    | with_reducible apply Keeps.after (State.wr_keeps _ _ _ _) | with_reducible apply Keeps.ite | (with_reducible apply Keeps.each; intro _ s)
    | split

theorem State.negFail_keeps (s : State) : Keeps s (State.negFail s) := by
  unfold State.negFail
  repeat' first
    | with_reducible exact .refl _ | with_reducible assumption | with_reducible intro s | with_reducible apply Keeps.after (State.onLink_keeps _ _)
    | with_reducible apply Keeps.after (State.raise_keeps _ _ _) | with_reducible apply Keeps.after (State.wr_keeps _ _ _ _)
    | with_reducible apply Keeps.ite | split

theorem State.tryUp_keeps (s : State) : Keeps s (State.tryUp s) := by
  unfold State.tryUp
  repeat' first
    | with_reducible exact .refl _ | with_reducible assumption | with_reducible intro s | with_reducible apply Keeps.ite | split
    | with_reducible apply Keeps.after (State.linkUp_keeps _ _ _) | with_reducible apply Keeps.ite | with_reducible apply Keeps.other

theorem State.takeOffer_keeps (o : List Byte) (s : State) : Keeps s (State.takeOffer o s) := by
  unfold State.takeOffer
  repeat' first
    | with_reducible exact .refl _ | with_reducible assumption | with_reducible intro s | with_reducible apply Keeps.ite | split
    | with_reducible apply Keeps.after (State.negFail_keeps _) | with_reducible apply Keeps.after (State.linkSay_keeps _ _ _)
    | with_reducible apply Keeps.after (State.onLink_keeps _ _) | with_reducible apply Keeps.after (State.discardFrame_keeps _)
    | with_reducible apply Keeps.ite

theorem State.takeConfirm_keeps (c : List Byte) (s : State) : Keeps s (State.takeConfirm c s) := by
  unfold State.takeConfirm
  repeat' first
    | with_reducible exact .refl _ | with_reducible assumption | with_reducible intro s | with_reducible apply Keeps.ite | split
    | with_reducible apply Keeps.after (State.tryUp_keeps _) | with_reducible apply Keeps.after (State.negFail_keeps _)
    | with_reducible apply Keeps.after (State.onLink_keeps _ _) | with_reducible apply Keeps.after (State.discardFrame_keeps _)
    | with_reducible apply Keeps.ite | with_reducible apply Keeps.other

theorem State.linkFrameIn_keeps (st : Nat) (payload : List Byte) (act : State → State) (hact : ∀ u, Keeps u (act  u)) (s : State) : Keeps s (State.linkFrameIn st payload act s) := by
  unfold State.linkFrameIn
  repeat' first
    | with_reducible exact .refl _ | with_reducible assumption | with_reducible intro s | with_reducible apply Keeps.after (hact _ )
    | (extract_lets +onlyGivenNames x; refine (have hx : Keeps s x := ?_; ?_); rotate_left; clear_value x; rotate_right)
    | (extract_lets +onlyGivenNames x; clear_value x) | subst x | with_reducible apply Keeps.after (State.discardFrame_keeps _)
    | with_reducible apply Keeps.after (State.count_keeps _ _ _) | with_reducible apply Keeps.ite | split

theorem execLinkOffer_keeps (payload : List Byte) (s : State) : OutKeeps s (execLinkOffer payload s) := by
  unfold execLinkOffer
  repeat' first
    | with_reducible exact .refl _ | with_reducible assumption | with_reducible intro s | with_reducible apply OutKeeps.refused
    | with_reducible apply OutKeeps.ite | with_reducible apply OutKeeps.next | with_reducible apply Keeps.after (State.linkFrameIn_keeps _ _ _ ?_ _)
    | with_reducible apply Keeps.after (State.takeOffer_keeps _ _) | with_reducible apply Keeps.ite | split

theorem execLinkConfirm_keeps (payload : List Byte) (s : State) : OutKeeps s (execLinkConfirm payload s) := by
  unfold execLinkConfirm
  repeat' first
    | with_reducible exact .refl _ | with_reducible assumption | with_reducible intro s | with_reducible apply OutKeeps.refused
    | with_reducible apply OutKeeps.ite | with_reducible apply OutKeeps.next | with_reducible apply Keeps.after (State.linkFrameIn_keeps _ _ _ ?_ _)
    | with_reducible apply Keeps.after (State.takeConfirm_keeps _ _) | with_reducible apply Keeps.ite | split

theorem execFecLockLost_keeps (s : State) : OutKeeps s (execFecLockLost s) := by
  unfold execFecLockLost
  repeat' first
    | with_reducible exact .refl _ | with_reducible assumption | with_reducible intro s | with_reducible apply OutKeeps.refused
    | with_reducible apply OutKeeps.ite | with_reducible apply OutKeeps.next | with_reducible apply Keeps.after (State.retrain_keeps _)
    | with_reducible apply Keeps.ite | split

theorem execHostAdapterTraining_keeps (s : State) : OutKeeps s (execHostAdapterTraining s) := by
  unfold execHostAdapterTraining
  repeat' first
    | with_reducible exact .refl _ | with_reducible assumption | with_reducible intro s | with_reducible apply OutKeeps.refused
    | with_reducible apply OutKeeps.ite | with_reducible apply OutKeeps.next | with_reducible apply Keeps.after (State.retrain_keeps _)
    | with_reducible apply Keeps.ite | split

theorem execHostLinkDownTimeout_keeps (s : State) : OutKeeps s (execHostLinkDownTimeout s) := by
  unfold execHostLinkDownTimeout
  repeat' first
    | with_reducible exact .refl _ | with_reducible assumption | with_reducible intro s | with_reducible apply OutKeeps.refused
    | with_reducible apply OutKeeps.ite | with_reducible apply OutKeeps.next | with_reducible apply Keeps.after (State.report_keeps _ _ _)
    | with_reducible apply Keeps.after (State.raise_keeps _ _ _) | with_reducible apply Keeps.after (State.wr_keeps _ _ _ _)
    | with_reducible apply Keeps.ite | split

theorem State.beginFrame_keeps (ch : Nat) (p : Option Nat) (f : List Byte) (s : State) : Keeps s (State.beginFrame ch p f s) := by
  unfold State.beginFrame
  repeat' first
    | with_reducible exact .refl _ | with_reducible assumption | with_reducible intro s | with_reducible apply Keeps.after (State.onLink_keeps _ _)
    | with_reducible apply Keeps.after (State.count_keeps _ _ _) | with_reducible apply Keeps.ite | split

theorem State.beginFrame_eq {ch : Nat} {p : Option Nat} {f : List Byte} {s t u : State} (h : some (State.beginFrame ch p f t) = some u)
    (g : Keeps s t) : Keeps s u := by
  cases h
  exact (State.beginFrame_keeps ..).after g

theorem State.nextFrame_keeps {s u : State} (h : s.nextFrame = some u) : Keeps s u := by
  unfold State.nextFrame at h
  split at h
  · exact State.beginFrame_eq h (State.onLink_keeps ..)
  · exact State.beginFrame_eq h (State.onLink_keeps ..)
  · exact State.beginFrame_eq h (State.onLink_keeps ..)
  · dsimp only at h
    split at h
    · cases h
    · exact State.beginFrame_eq h ((State.onLink_keeps ..).after (State.onPart_keeps ..))

theorem State.fillData_keeps (f n : Nat) (s : State) : Keeps s (State.fillData f n s).2.2 := by
  induction f generalizing n s with
  | zero => exact .refl _
  | succ f ih =>
    unfold State.fillData
    split
    · exact .refl _
    split
    · split
      · exact .refl _
      · next heq => exact (ih _ _).after (State.nextFrame_keeps heq)
    · exact (ih _ _).after (State.onLink_keeps ..)

theorem State.fillData_eq {f n : Nat} {s : State} {a : List Byte} {b : List Nat} {u : State} (h : State.fillData f n s = (a, b, u)) : Keeps s u := by
  have := State.fillData_keeps f n s
  rwa [h] at this

theorem State.flitOut_keeps (f : List Byte) (s : State) : Keeps s (State.flitOut f s) := by
  unfold State.flitOut
  repeat' first
    | with_reducible exact .refl _ | with_reducible assumption | with_reducible intro s | with_reducible apply Keeps.after (State.onLink_keeps _ _)
    | with_reducible apply Keeps.ite | split

theorem State.sendNext_keeps (s : State) : Keeps s (State.sendNext s) := by
  unfold State.sendNext
  extract_lets l fack flags
  apply Keeps.ite
  · split
    · exact (State.flitOut_keeps ..).after ((State.count_keeps ..).after (State.onLink_keeps ..))
    · exact State.onLink_keeps ..
  apply Keeps.ite
  · exact (State.flitOut_keeps ..).after (State.onLink_keeps ..)
  split
  next heq =>
  extract_lets
  exact (State.flitOut_keeps ..).after ((State.onLink_keeps ..).after (State.fillData_eq heq))

theorem State.linkFrameOut_keeps (f : List Byte) (s : State) : Keeps s (State.linkFrameOut f s) := by
  unfold State.linkFrameOut
  repeat' first
    | with_reducible exact .refl _ | with_reducible assumption | with_reducible intro s
    | (extract_lets +onlyGivenNames x; refine (have hx : Keeps s x := ?_; ?_); rotate_left; clear_value x; rotate_right)
    | (extract_lets +onlyGivenNames x; clear_value x) | subst x | with_reducible apply Keeps.after (State.flitOut_keeps _ _)
    | with_reducible apply Keeps.after (State.tryUp_keeps _) | with_reducible apply Keeps.after (State.onLink_keeps _ _)
    | with_reducible apply Keeps.after (State.count_keeps _ _ _) | with_reducible apply Keeps.ite | split

theorem execFlitTransmit_keeps (s : State) : OutKeeps s (execFlitTransmit s) := by
  unfold execFlitTransmit
  repeat' first
    | with_reducible exact .refl _ | with_reducible assumption | with_reducible intro s | with_reducible apply OutKeeps.refused
    | with_reducible apply OutKeeps.ite
    | (extract_lets +onlyGivenNames x; refine (have hx : Keeps s x := ?_; ?_); rotate_left; clear_value x; rotate_right)
    | (extract_lets +onlyGivenNames x; clear_value x) | subst x | with_reducible apply OutKeeps.next | with_reducible apply Keeps.ite | split
    | with_reducible apply Keeps.after (State.linkFrameOut_keeps _ _) | with_reducible apply Keeps.after (State.sendNext_keeps _)
    | with_reducible apply Keeps.after (State.flitOut_keeps _ _) | with_reducible apply Keeps.after (State.onLink_keeps _ _)
    | with_reducible apply Keeps.ite | with_reducible apply Keeps.other

theorem State.linkResend_keeps (s : State) : Keeps s (State.linkResend s) := by
  unfold State.linkResend
  repeat' first
    | with_reducible exact .refl _ | with_reducible assumption | with_reducible intro s | with_reducible apply Keeps.after (State.retrain_keeps _)
    | with_reducible apply Keeps.after (State.onLink_keeps _ _) | with_reducible apply Keeps.ite | split

theorem execAdtikResendTimeout_keeps (s : State) : OutKeeps s (execAdtikResendTimeout s) := by
  unfold execAdtikResendTimeout
  repeat' first
    | with_reducible exact .refl _ | with_reducible assumption | with_reducible intro s | with_reducible apply OutKeeps.refused
    | with_reducible apply OutKeeps.ite | with_reducible apply OutKeeps.next | with_reducible apply Keeps.after (State.linkResend_keeps _)
    | with_reducible apply Keeps.ite | split

/-! ### RegAccess -/

theorem State.readListed_keeps (who : Requester) (g : Page) (i off : Nat) (s : State) : Keeps s ((State.readListed who g i off s).2) := by
  unfold State.readListed
  repeat' first
    | with_reducible exact .refl _ | with_reducible assumption | with_reducible intro s
    | (extract_lets +onlyGivenNames x; refine (have hx : Keeps s x := ?_; ?_); rotate_left; clear_value x; rotate_right)
    | (extract_lets +onlyGivenNames x; clear_value x) | subst x | with_reducible apply Keeps.ite | split
    | with_reducible apply Keeps.after (State.takeFree_keeps _) | with_reducible apply Keeps.ite
    | with_reducible refine Keeps.after (State.takeFree_eq (by with_reducible assumption)) ?_ | exact Keeps.pickFree (by with_reducible assumption)
    | with_reducible apply Keeps.other
theorem State.readListed_eq {who : Requester} {g : Page} {i off : Nat} {s : State} {v : Nat} {u : State} (heq : State.readListed who g i off s = (v, u)) : Keeps s u := by
  have := State.readListed_keeps who g i off s
  rwa [heq] at this

theorem State.unmapped_keeps (s : State) : Keeps s (State.unmapped s) := by
  unfold State.unmapped
  repeat' first
    | with_reducible exact .refl _ | with_reducible assumption | with_reducible intro s
    | with_reducible apply Keeps.after (State.flagCount_keeps _ _ _ _) | with_reducible apply Keeps.ite | split

theorem State.hostRefused_keeps (s : State) : Keeps s (State.hostRefused s) := by
  unfold State.hostRefused
  repeat' first
    | with_reducible exact .refl _ | with_reducible assumption | with_reducible intro s
    | with_reducible apply Keeps.after (State.flagCount_keeps _ _ _ _) | with_reducible apply Keeps.ite | split

theorem State.reachMailbox_keeps (a : Nat) (s : State) : Keeps s (State.reachMailbox a s) := by
  unfold State.reachMailbox
  repeat' first
    | with_reducible exact .refl _ | with_reducible assumption | with_reducible intro s | with_reducible apply Keeps.ite | split
    | with_reducible apply Keeps.after (State.mailboxUsed_keeps _ _) | with_reducible apply Keeps.ite | (with_reducible apply Keeps.whenB; intro s)

theorem State.regRead_keeps (who : Requester) (a : Nat) (s : State) : Keeps s ((State.regRead who a s).2) := by
  unfold State.regRead
  repeat' first
    | with_reducible exact .refl _ | with_reducible assumption | with_reducible intro s
    | (extract_lets +onlyGivenNames x; refine (have hx : Keeps s x := ?_; ?_); rotate_left; clear_value x; rotate_right)
    | (extract_lets +onlyGivenNames x; clear_value x) | subst x | with_reducible apply Keeps.ite | split
    | with_reducible apply Keeps.after (State.unmapped_keeps _) | with_reducible apply Keeps.after (State.readListed_keeps _ _ _ _ _)
    | with_reducible apply Keeps.after (State.testGoesOn_keeps _) | with_reducible apply Keeps.after (State.noPart_keeps _)
    | with_reducible apply Keeps.ite | (with_reducible apply Keeps.whenB; intro s)
    | with_reducible refine Keeps.after (State.readListed_eq (by with_reducible assumption)) ?_
theorem State.regRead_eq {who : Requester} {a : Nat} {s : State} {v : Nat} {u : State} (heq : State.regRead who a s = (v, u)) : Keeps s u := by
  have := State.regRead_keeps who a s
  rwa [heq] at this

theorem State.putMapData_keeps (k v : Nat) (s : State) : Keeps s (State.putMapData k v s) := by
  unfold State.putMapData
  repeat' first
    | with_reducible exact .refl _ | with_reducible assumption | with_reducible intro s
    | (extract_lets +onlyGivenNames x; refine (have hx : Keeps s x := ?_; ?_); rotate_left; clear_value x; rotate_right)
    | (extract_lets +onlyGivenNames x; clear_value x) | subst x | with_reducible apply Keeps.after (State.onStk_keeps _ _ _)
    | with_reducible apply Keeps.ite | split

theorem State.putTrimData_keeps (k : Nat) (high : Bool) (v : Nat) (s : State) : Keeps s (State.putTrimData k high v s) := by
  unfold State.putTrimData
  repeat' first
    | with_reducible exact .refl _ | with_reducible assumption | with_reducible intro s
    | (extract_lets +onlyGivenNames x; refine (have hx : Keeps s x := ?_; ?_); rotate_left; clear_value x; rotate_right)
    | (extract_lets +onlyGivenNames x; clear_value x) | subst x | with_reducible apply Keeps.after (State.onStk_keeps _ _ _)
    | with_reducible apply Keeps.ite | split

theorem State.putField_keeps (f : Field) (i v : Nat) (s : State) : Keeps s (State.putField f i v s) := by
  unfold State.putField
  repeat' first
    | with_reducible exact .refl _ | with_reducible assumption | with_reducible intro s
    | with_reducible apply Keeps.after (State.putTrimData_keeps _ _ _ _) | with_reducible apply Keeps.after (State.putMapData_keeps _ _ _)
    | with_reducible apply Keeps.after (State.hostParts_keeps _ _) | with_reducible apply Keeps.after (State.frameSetLen_keeps _ _ _)
    | with_reducible apply Keeps.after (State.frameWrite_keeps _ _ _ _) | with_reducible apply Keeps.after (State.onRoute_keeps _ _ _)
    | with_reducible apply Keeps.after (State.onHub_keeps _ _ _) | with_reducible apply Keeps.after (State.wr_keeps _ _ _ _)
    | with_reducible apply Keeps.ite | split

theorem State.formMeasure_keeps (s : State) : Keeps s ((State.formMeasure s).2) := by
  unfold State.formMeasure
  repeat' first
    | with_reducible exact .refl _ | with_reducible assumption | with_reducible intro s | with_reducible apply Keeps.ite
    | with_reducible apply Keeps.other | split
theorem State.formMeasure_eq {s : State} {v : List Nat} {u : State} (heq : State.formMeasure s = (v, u)) : Keeps s u := by
  have := State.formMeasure_keeps s
  rwa [heq] at this

theorem State.hubAction_keeps (f : Field) (i v : Nat) (s : State) : Keeps s (State.hubAction f i v s) := by
  unfold State.hubAction
  repeat' first
    | with_reducible exact .refl _ | with_reducible assumption | with_reducible intro s | with_reducible apply Keeps.after (State.actKick_keeps _ _ _)
    | with_reducible apply Keeps.after (State.actSwap_keeps _ _) | with_reducible apply Keeps.after (State.actApply_keeps _ _)
    | with_reducible apply Keeps.after (State.actTrain_keeps _ _) | with_reducible apply Keeps.after (State.actRecalReq_keeps _ _)
    | with_reducible apply Keeps.after (State.actReinstate_keeps _ _) | with_reducible apply Keeps.after (State.actExclude_keeps _ _)
    | with_reducible apply Keeps.after (State.actSelfcal_keeps _ _ _) | with_reducible apply Keeps.after (State.actTrimSwap_keeps _ _)
    | with_reducible apply Keeps.after (State.actMapSwap_keeps _ _) | with_reducible apply Keeps.after (State.actPush_keeps _ _)
    | with_reducible apply Keeps.after (State.startCommit_keeps _ _ _) | with_reducible apply Keeps.ite | split

theorem State.moduleAction_keeps (who : Requester) (f : Field) (s : State) : Keeps s (State.moduleAction who f s) := by
  unfold State.moduleAction
  repeat' first
    | with_reducible exact .refl _ | with_reducible assumption | with_reducible intro s
    | (extract_lets +onlyGivenNames x; refine (have hx : Keeps s x := ?_; ?_); rotate_left; clear_value x; rotate_right)
    | (extract_lets +onlyGivenNames x; clear_value x) | subst x | with_reducible apply Keeps.ite | split
    | with_reducible apply Keeps.after (State.formMeasure_keeps _) | with_reducible apply Keeps.after (State.actWake_keeps _)
    | with_reducible apply Keeps.after (State.actDoze_keeps _) | with_reducible apply Keeps.after (State.actTest_keeps _ _ _)
    | with_reducible apply Keeps.after (State.actPartDestroy_keeps _) | with_reducible apply Keeps.after (State.actPartCreate_keeps _)
    | with_reducible apply Keeps.after (State.entropy_keeps _ _) | with_reducible apply Keeps.after (State.actIdCreate_keeps _ _)
    | with_reducible apply Keeps.after (State.actKeyRevoke_keeps _) | with_reducible apply Keeps.after (State.actSvnCommit_keeps _)
    | with_reducible apply Keeps.after (State.actVerifyStage_keeps _) | with_reducible apply Keeps.after (State.actLcGo_keeps _)
    | with_reducible apply Keeps.after (State.actForm_keeps _ _) | with_reducible apply Keeps.after (State.actActive_keeps _)
    | with_reducible apply Keeps.after (State.actQuiet_keeps _) | with_reducible apply Keeps.after (State.stopTest_keeps _)
    | with_reducible apply Keeps.ite | with_reducible refine Keeps.after (State.formMeasure_eq (by with_reducible assumption)) ?_
    | with_reducible refine Keeps.after (State.entropy_eq (by with_reducible assumption)) ?_

theorem State.partAction_keeps (f : Field) (p : Nat) (s : State) : Keeps s (State.partAction f p s) := by
  unfold State.partAction
  repeat' first
    | with_reducible exact .refl _ | with_reducible assumption | with_reducible intro s | with_reducible apply Keeps.after (State.actSend_keeps _ _)
    | with_reducible apply Keeps.after (State.actRollRetry_keeps _ _) | with_reducible apply Keeps.after (State.actRetire_keeps _ _)
    | with_reducible apply Keeps.after (State.actSwitch_keeps _ _ _) | with_reducible apply Keeps.after (State.actVerdictPop_keeps _ _)
    | with_reducible apply Keeps.after (State.actUnavail_keeps _ _ _) | with_reducible apply Keeps.after (State.actSpareGo_keeps _ _ _)
    | with_reducible apply Keeps.after (State.actMaskClear_keeps _ _) | with_reducible apply Keeps.after (State.actLoadAbort_keeps _ _)
    | with_reducible apply Keeps.after (State.actLoadStart_keeps _ _) | with_reducible apply Keeps.after (State.actVerify_keeps _ _)
    | with_reducible apply Keeps.after (State.actFaultClr_keeps _ _) | with_reducible apply Keeps.after (State.actFlush_keeps _ _)
    | with_reducible apply Keeps.after (State.actEnd_keeps _ _) | with_reducible apply Keeps.after (State.actPreempt_keeps _ _)
    | with_reducible apply Keeps.ite | split

theorem State.doAction_keeps (who : Requester) (f : Field) (i v : Nat) (s : State) : Keeps s (State.doAction who f i v s) := by
  unfold State.doAction
  repeat' first
    | with_reducible exact .refl _ | with_reducible assumption | with_reducible intro s
    | with_reducible apply Keeps.after (State.partAction_keeps _ _ _) | with_reducible apply Keeps.after (State.moduleAction_keeps _ _ _)
    | with_reducible apply Keeps.after (State.hubAction_keeps _ _ _ _) | with_reducible apply Keeps.ite | split

/-! ### RegWrite -/

theorem State.enabled_keeps (g : Page) (i : Nat) (s : State) : Keeps s (State.enabled g i s) := by
  unfold State.enabled
  repeat' first
    | with_reducible exact .refl _ | with_reducible assumption | with_reducible intro s | with_reducible apply Keeps.ite | split
    | with_reducible apply Keeps.after (State.hlkEnable_keeps _) | with_reducible apply Keeps.after (State.kveInit_keeps _ _)
    | with_reducible apply Keeps.after (State.onPart_keeps _ _ _) | with_reducible apply Keeps.after (State.wrB_keeps _ _ _ _)
    | with_reducible apply Keeps.after (State.wr_keeps _ _ _ _) | with_reducible apply Keeps.ite | (with_reducible apply Keeps.each; intro _ s)
    | (with_reducible apply Keeps.whenB; intro s)

theorem State.actEnable_keeps (g : Page) (i : Nat) (s : State) : Keeps s (State.actEnable g i s) := by
  unfold State.actEnable
  repeat' first
    | with_reducible exact .refl _ | with_reducible assumption | with_reducible intro s | with_reducible apply Keeps.after (State.enabled_keeps _ _ _)
    | with_reducible apply Keeps.after (State.refuseWrite_keeps _ _ _) | with_reducible apply Keeps.after (State.raise_keeps _ _ _)
    | with_reducible apply Keeps.after (State.wr_keeps _ _ _ _) | with_reducible apply Keeps.ite | split

theorem State.disabled_keeps (g : Page) (i : Nat) (s : State) : Keeps s (State.disabled g i s) := by
  unfold State.disabled
  repeat' first
    | with_reducible exact .refl _ | with_reducible assumption | with_reducible intro s | with_reducible apply Keeps.ite | split
    | with_reducible apply Keeps.after (State.hlkDisable_keeps _) | with_reducible apply Keeps.after (State.portDown_keeps _ _)
    | with_reducible apply Keeps.after (State.wr_keeps _ _ _ _) | with_reducible apply Keeps.ite | (with_reducible apply Keeps.whenB; intro s)

theorem State.actDisable_keeps (g : Page) (i : Nat) (s : State) : Keeps s (State.actDisable g i s) := by
  unfold State.actDisable
  repeat' first
    | with_reducible exact .refl _ | with_reducible assumption | with_reducible intro s
    | (extract_lets +onlyGivenNames x; refine (have hx : Keeps s x := ?_; ?_); rotate_left; clear_value x; rotate_right)
    | (extract_lets +onlyGivenNames x; clear_value x) | subst x | with_reducible apply Keeps.after (State.disabled_keeps _ _ _)
    | with_reducible apply Keeps.after (State.wrongState_keeps _ _) | with_reducible apply Keeps.after (State.onPart_keeps _ _ _)
    | with_reducible apply Keeps.after (State.refuseWrite_keeps _ _ _) | with_reducible apply Keeps.after (State.wr_keeps _ _ _ _)
    | with_reducible apply Keeps.ite | (with_reducible apply Keeps.each; intro _ s) | (with_reducible apply Keeps.whenB; intro s) | split

theorem State.storeFields_keeps (g : Page) (i : Nat) (news : List (Field × Nat)) (s : State) : Keeps s (State.storeFields g i news s) := by
  unfold State.storeFields
  repeat' first
    | with_reducible exact .refl _ | with_reducible assumption | with_reducible intro s
    | (extract_lets +onlyGivenNames x; refine (have hx : Keeps s x := ?_; ?_); rotate_left; clear_value x; rotate_right)
    | (extract_lets +onlyGivenNames x; clear_value x) | subst x | with_reducible apply Keeps.ite | split
    | with_reducible apply Keeps.after (State.putField_keeps _ _ _ _) | with_reducible apply Keeps.after (State.refuseWrite_keeps _ _ _)
    | with_reducible apply Keeps.ite | (with_reducible apply Keeps.each; intro _ s) | (with_reducible apply Keeps.whenB; intro s)

theorem State.writeEn_keeps (g : Page) (i view v : Nat) (s : State) : Keeps s (State.writeEn g i view v s) := by
  unfold State.writeEn
  repeat' first
    | with_reducible exact .refl _ | with_reducible assumption | with_reducible intro s
    | (extract_lets +onlyGivenNames x; refine (have hx : Keeps s x := ?_; ?_); rotate_left; clear_value x; rotate_right)
    | (extract_lets +onlyGivenNames x; clear_value x) | subst x | with_reducible apply Keeps.after (State.actDisable_keeps _ _ _)
    | with_reducible apply Keeps.after (State.actEnable_keeps _ _ _) | with_reducible apply Keeps.ite | split

theorem State.clearEvents_keeps (g : Page) (i v : Nat) (hc : SameHc) (s : State) : Keeps s (State.clearEvents g i v hc s) := by
  unfold State.clearEvents
  repeat' first
    | with_reducible exact .refl _ | with_reducible assumption | with_reducible intro s | with_reducible apply Keeps.after (State.count_keeps _ _ _)
    | with_reducible apply Keeps.after (State.raise_keeps _ _ _) | with_reducible apply Keeps.after (State.wr_keeps _ _ _ _)
    | with_reducible apply Keeps.ite | (with_reducible apply Keeps.each; intro _ s) | split

theorem State.writeMailbox_keeps (p off view v : Nat) (s : State) : Keeps s (State.writeMailbox p off view v s) := by
  unfold State.writeMailbox
  repeat' first
    | with_reducible exact .refl _ | with_reducible assumption | with_reducible intro s
    | (extract_lets +onlyGivenNames x; refine (have hx : Keeps s x := ?_; ?_); rotate_left; clear_value x; rotate_right)
    | (extract_lets +onlyGivenNames x; clear_value x) | subst x | with_reducible apply Keeps.after (State.onPart_keeps _ _ _)
    | with_reducible apply Keeps.ite | (with_reducible apply Keeps.foldl; intro s _) | split

theorem State.writeWord_keeps (who : Requester) (g : Page) (i off view v : Nat) (s : State) : Keeps s (State.writeWord who g i off view v s) := by
  unfold State.writeWord
  repeat' first
    | with_reducible exact .refl _ | with_reducible assumption | with_reducible intro s
    | (extract_lets +onlyGivenNames x; refine (have hx : Keeps s x := ?_; ?_); rotate_left; clear_value x; rotate_right)
    | (extract_lets +onlyGivenNames x; clear_value x) | subst x | with_reducible apply Keeps.after (State.storeFields_keeps _ _ _ _)
    | with_reducible apply Keeps.after (State.doAction_keeps _ _ _ _ _) | with_reducible apply Keeps.after (State.wr_keeps _ _ _ _)
    | with_reducible apply Keeps.ite | (with_reducible apply Keeps.each; intro _ s) | split

theorem State.writePair_keeps (who : Requester) (g : Page) (i : Nat) (f : Field) (view v : Nat) (s : State) : Keeps s (State.writePair who g i f view v s) := by
  unfold State.writePair
  repeat' first
    | with_reducible exact .refl _ | with_reducible assumption | with_reducible intro s
    | (extract_lets +onlyGivenNames x; refine (have hx : Keeps s x := ?_; ?_); rotate_left; clear_value x; rotate_right)
    | (extract_lets +onlyGivenNames x; clear_value x) | subst x | with_reducible apply Keeps.ite | split
    | with_reducible apply Keeps.after (State.storeFields_keeps _ _ _ _) | with_reducible apply Keeps.ite | with_reducible apply Keeps.other

theorem State.countAfter_keeps (g : Page) (i off : Nat) (hc : SameHc) (s : State) : Keeps s (State.countAfter g i off hc s) := by
  unfold State.countAfter
  repeat' first
    | with_reducible exact .refl _ | with_reducible assumption | with_reducible intro s | with_reducible apply Keeps.after (State.bump_keeps _ _ _ _)
    | with_reducible apply Keeps.ite | (with_reducible apply Keeps.each; intro _ s) | split

theorem State.writeListed_keeps (who : Requester) (g : Page) (i off view v : Nat) (hc : SameHc) (s : State) : Keeps s (State.writeListed who g i off view v hc s) := by
  unfold State.writeListed
  repeat' first
    | with_reducible exact .refl _ | with_reducible assumption | with_reducible intro s | with_reducible apply Keeps.ite | split
    | with_reducible apply Keeps.after (State.countAfter_keeps _ _ _ _ _) | with_reducible apply Keeps.after (State.writePair_keeps _ _ _ _ _ _ _)
    | with_reducible apply Keeps.after (State.writeWord_keeps _ _ _ _ _ _ _) | with_reducible apply Keeps.after (State.writeMailbox_keeps _ _ _ _ _)
    | with_reducible apply Keeps.after (State.clearEvents_keeps _ _ _ _ _) | with_reducible apply Keeps.after (State.writeEn_keeps _ _ _ _ _)
    | with_reducible apply Keeps.ite | (with_reducible apply Keeps.whenB; intro s) | with_reducible apply Keeps.other

theorem State.regWrite_keeps (who : Requester) (a v : Nat) (hc : SameHc) (s : State) : Keeps s (State.regWrite who a v hc s) := by
  unfold State.regWrite
  repeat' first
    | with_reducible exact .refl _ | with_reducible assumption | with_reducible intro s | with_reducible apply Keeps.ite | split
    | with_reducible apply Keeps.after (State.writeListed_keeps _ _ _ _ _ _ _ _) | with_reducible apply Keeps.after (State.unmapped_keeps _)
    | with_reducible apply Keeps.after (State.noPart_keeps _) | with_reducible apply Keeps.ite

theorem State.bring_keeps (who : Requester) (v : Nat) (s : State) : Keeps s (State.bring who v s) := by
  unfold State.bring
  repeat' first
    | with_reducible exact .refl _ | with_reducible assumption | with_reducible intro s | with_reducible apply Keeps.ite
    | with_reducible apply Keeps.other | split

theorem State.faultAccess_keeps (who : Requester) (s : State) : Keeps s (State.faultAccess who s) := by
  unfold State.faultAccess
  repeat' first
    | with_reducible exact .refl _ | with_reducible assumption | with_reducible intro s | with_reducible apply Keeps.ite | split
    | with_reducible apply Keeps.after (State.bring_keeps _ _ _) | with_reducible apply Keeps.ite

theorem State.stewLoad_keeps (who : Requester) (h a n : Nat) (s : State) : Keeps s (State.stewLoad who h a n s) := by
  unfold State.stewLoad
  repeat' first
    | with_reducible exact .refl _ | with_reducible assumption | with_reducible intro s
    | (extract_lets +onlyGivenNames x; refine (have hx : Keeps s x := ?_; ?_); rotate_left; clear_value x; rotate_right)
    | (extract_lets +onlyGivenNames x; clear_value x) | subst x | with_reducible apply Keeps.ite | split
    | with_reducible apply Keeps.after (State.bring_keeps _ _ _) | with_reducible apply Keeps.after (State.winReadBy_keeps _ _ _ _ _)
    | with_reducible apply Keeps.after (State.touch_keeps _ _ _) | with_reducible apply Keeps.ite
    | with_reducible refine Keeps.after (State.winReadBy_eq (by with_reducible assumption)) ?_

theorem State.stewStore_keeps (who : Requester) (h a : Nat) (data : List Byte) (s : State) : Keeps s (State.stewStore who h a data s) := by
  unfold State.stewStore
  repeat' first
    | with_reducible exact .refl _ | with_reducible assumption | with_reducible intro s
    | (extract_lets +onlyGivenNames x; refine (have hx : Keeps s x := ?_; ?_); rotate_left; clear_value x; rotate_right)
    | (extract_lets +onlyGivenNames x; clear_value x) | subst x | with_reducible apply Keeps.after (State.bring_keeps _ _ _)
    | with_reducible apply Keeps.after (State.winWrite_keeps _ _ _ _ _) | with_reducible apply Keeps.after (State.mwr_keeps _ _ _)
    | with_reducible apply Keeps.after (State.stewWr_keeps _ _ _ _) | with_reducible apply Keeps.ite | (with_reducible apply Keeps.whenB; intro s)
    | split

theorem State.access_keeps (who : Requester) (a size : Nat) (s : State) : Keeps s (State.access who a size s) := by
  unfold State.access
  repeat' first
    | with_reducible exact .refl _ | with_reducible assumption | with_reducible intro s
    | (extract_lets +onlyGivenNames x; refine (have hx : Keeps s x := ?_; ?_); rotate_left; clear_value x; rotate_right)
    | (extract_lets +onlyGivenNames x; clear_value x) | subst x | with_reducible apply Keeps.ite | split
    | with_reducible apply Keeps.after (State.stewLoad_keeps _ _ _ _ _) | with_reducible apply Keeps.after (State.faultAccess_keeps _ _)
    | with_reducible apply Keeps.after (State.bring_keeps _ _ _) | with_reducible apply Keeps.after (State.regRead_keeps _ _ _)
    | with_reducible apply Keeps.after (State.reachMailbox_keeps _ _) | with_reducible apply Keeps.after (State.hostRefused_keeps _)
    | with_reducible apply Keeps.ite | with_reducible refine Keeps.after (State.regRead_eq (by with_reducible assumption)) ?_

theorem State.accessW_keeps (who : Requester) (a : Nat) (d : StoreData) (hc : SameHc) (s : State) : Keeps s (State.accessW who a d hc s) := by
  unfold State.accessW
  repeat' first
    | with_reducible exact .refl _ | with_reducible assumption | with_reducible intro s | with_reducible apply Keeps.ite | split
    | with_reducible apply Keeps.after (State.stewStore_keeps _ _ _ _ _) | with_reducible apply Keeps.after (State.faultAccess_keeps _ _)
    | with_reducible apply Keeps.after (State.regWrite_keeps _ _ _ _ _) | with_reducible apply Keeps.after (State.reachMailbox_keeps _ _)
    | with_reducible apply Keeps.after (State.hostRefused_keeps _) | with_reducible apply Keeps.ite

theorem State.accessOf_keeps (hc : SameHc) (x : RegAccess) (s : State) : Keeps s (State.accessOf hc x s) := by
  unfold State.accessOf
  repeat' first
    | with_reducible exact .refl _ | with_reducible assumption | with_reducible intro s | with_reducible apply Keeps.ite | split
    | with_reducible apply Keeps.after (State.accessW_keeps _ _ _ _ _) | with_reducible apply Keeps.after (State.access_keeps _ _ _ _)
    | with_reducible apply Keeps.ite | with_reducible apply Keeps.other

theorem execRegisterWrite_keeps (who : Requester) (addr : Nat) (value : StoreData) (raced : SameHc) (s : State) : OutKeeps s (execRegisterWrite who addr value raced s) := by
  unfold execRegisterWrite
  repeat' first
    | with_reducible exact .refl _ | with_reducible assumption | with_reducible intro s | with_reducible apply OutKeeps.refused
    | with_reducible apply OutKeeps.ite
    | (extract_lets +onlyGivenNames x; refine (have hx : Keeps s x := ?_; ?_); rotate_left; clear_value x; rotate_right)
    | (extract_lets +onlyGivenNames x; clear_value x) | subst x | with_reducible apply OutKeeps.next
    | with_reducible apply Keeps.after (State.accessOf_keeps _ _ _) | with_reducible apply Keeps.ite | (with_reducible apply Keeps.each; intro _ s)
    | split

theorem execRegisterRead_keeps (who : Requester) (addr size : Nat) (s : State) : OutKeeps s (execRegisterRead who addr size s) := by
  unfold execRegisterRead
  repeat' first
    | with_reducible exact .refl _ | with_reducible assumption | with_reducible intro s | with_reducible apply OutKeeps.refused
    | with_reducible apply OutKeeps.ite | with_reducible apply OutKeeps.next | with_reducible apply Keeps.after (State.access_keeps _ _ _ _)
    | with_reducible apply Keeps.ite | split

theorem execLoRead_keeps (who : Requester) (addr : Nat) (s : State) : OutKeeps s (execLoRead who addr s) := by
  unfold execLoRead
  repeat' first
    | with_reducible exact .refl _ | with_reducible assumption | with_reducible intro s | with_reducible apply OutKeeps.refused
    | with_reducible apply OutKeeps.ite | with_reducible apply OutKeeps.next | with_reducible apply Keeps.after (State.access_keeps _ _ _ _)
    | with_reducible apply Keeps.ite | split

theorem execBlockEnable_keeps (who : Requester) (addr : Nat) (s : State) : OutKeeps s (execBlockEnable who addr s) := by
  unfold execBlockEnable
  repeat' first
    | with_reducible exact .refl _ | with_reducible assumption | with_reducible intro s | with_reducible apply OutKeeps.refused
    | with_reducible apply OutKeeps.ite | with_reducible apply OutKeeps.next | with_reducible apply Keeps.after (State.accessW_keeps _ _ _ _ _)
    | with_reducible apply Keeps.ite | split

theorem execBlockDisable_keeps (who : Requester) (addr : Nat) (s : State) : OutKeeps s (execBlockDisable who addr s) := by
  unfold execBlockDisable
  repeat' first
    | with_reducible exact .refl _ | with_reducible assumption | with_reducible intro s | with_reducible apply OutKeeps.refused
    | with_reducible apply OutKeeps.ite | with_reducible apply OutKeeps.next | with_reducible apply Keeps.after (State.accessW_keeps _ _ _ _ _)
    | with_reducible apply Keeps.ite | split

/-! ### RegLink -/

theorem State.complete_keeps (tag status : Nat) (words : List Nat) (s : State) : Keeps s (State.complete tag status words s) := by
  unfold State.complete
  repeat' first
    | with_reducible exact .refl _ | with_reducible assumption | with_reducible intro s | with_reducible apply Keeps.after (State.onLink_keeps _ _)
    | with_reducible apply Keeps.ite | split

theorem State.hostWords_keeps (a : Nat) (m : Nat) (s : State) : Keeps s ((State.hostWords a m s).2) := by
  induction m generalizing a s with
  | zero =>
    unfold State.hostWords
    repeat' first
      | with_reducible exact .refl _ | with_reducible assumption | with_reducible intro s
      | (extract_lets +onlyGivenNames x; refine (have hx : Keeps s x := ?_; ?_); rotate_left; clear_value x; rotate_right)
      | (extract_lets +onlyGivenNames x; clear_value x) | subst x | with_reducible apply Keeps.ite | split
      | with_reducible apply Keeps.after (State.regRead_keeps _ _ _) | with_reducible apply Keeps.after (State.reachMailbox_keeps _ _)
      | with_reducible apply Keeps.ite | with_reducible refine Keeps.after (State.regRead_eq (by with_reducible assumption)) ?_
  | succ m ih =>
    unfold State.hostWords
    repeat' first
      | with_reducible apply Keeps.after (ih _ _) | with_reducible exact .refl _ | with_reducible assumption | with_reducible intro s
      | (extract_lets +onlyGivenNames x; refine (have hx : Keeps s x := ?_; ?_); rotate_left; clear_value x; rotate_right)
      | (extract_lets +onlyGivenNames x; clear_value x) | subst x | with_reducible apply Keeps.ite | split
      | with_reducible apply Keeps.after (State.regRead_keeps _ _ _) | with_reducible apply Keeps.after (State.reachMailbox_keeps _ _)
      | with_reducible apply Keeps.ite | with_reducible refine Keeps.after (State.regRead_eq (by with_reducible assumption)) ?_

theorem State.hostRead_keeps (tag : Nat) (b : List Byte) (s : State) : Keeps s (State.hostRead tag b s) := by
  unfold State.hostRead
  extract_lets a n u
  refine (State.returnCredits_keeps ..).after ?_
  show Keeps s (if _ then _ else _)
  apply Keeps.ite
  · exact (State.complete_keeps ..).after (State.hostRefused_keeps ..)
  apply Keeps.ite
  · exact (State.complete_keeps ..).after ((State.hostRefused_keeps ..).after (Keeps.each _ (fun _ _ => State.reachMailbox_keeps ..) (.refl _)))
  split
  next heq =>
  have h := State.hostWords_keeps a n s
  rw [heq] at h
  exact (State.complete_keeps ..).after h

theorem State.hostWrite_keeps (b : List Byte) (s : State) : Keeps s (State.hostWrite b s) := by
  unfold State.hostWrite
  repeat' first
    | with_reducible exact .refl _ | with_reducible assumption | with_reducible intro s
    | (extract_lets +onlyGivenNames x; refine (have hx : Keeps s x := ?_; ?_); rotate_left; clear_value x; rotate_right)
    | (extract_lets +onlyGivenNames x; clear_value x) | subst x | with_reducible apply Keeps.after (State.accessW_keeps _ _ _ _ _)
    | with_reducible apply Keeps.after (State.hostRefused_keeps _) | with_reducible apply Keeps.after (State.returnCredits_keeps _ _ _)
    | with_reducible apply Keeps.ite | split

theorem execRegReadFrame_keeps (payload : List Byte) (s : State) : OutKeeps s (execRegReadFrame payload s) := by
  unfold execRegReadFrame
  repeat' first
    | with_reducible exact .refl _ | with_reducible assumption | with_reducible intro s | with_reducible apply OutKeeps.refused
    | with_reducible apply OutKeeps.ite | with_reducible apply OutKeeps.next | with_reducible apply Keeps.after (State.hostRead_keeps _ _ _)
    | with_reducible apply Keeps.after (State.fromHost_keeps _ _ _ ?_ _) | with_reducible apply Keeps.ite | split

theorem execRegWriteFrame_keeps (payload : List Byte) (s : State) : OutKeeps s (execRegWriteFrame payload s) := by
  unfold execRegWriteFrame
  repeat' first
    | with_reducible exact .refl _ | with_reducible assumption | with_reducible intro s | with_reducible apply OutKeeps.refused
    | with_reducible apply OutKeeps.ite | with_reducible apply OutKeeps.next | with_reducible apply Keeps.after (State.hostWrite_keeps _ _)
    | with_reducible apply Keeps.after (State.fromHost_keeps _ _ _ ?_ _) | with_reducible apply Keeps.ite | split

theorem State.skipFrame_keeps (type len : Nat) (s : State) : Keeps s (State.skipFrame type len s) := by
  unfold State.skipFrame
  repeat' first
    | with_reducible exact .refl _ | with_reducible assumption | with_reducible intro s | with_reducible apply Keeps.after (State.onLink_keeps _ _)
    | with_reducible apply Keeps.after (State.unread_keeps _ _ _) | with_reducible apply Keeps.ite | split

theorem State.onFrame_keeps (type tag : Nat) (b : List Byte) (s : State) : Keeps s (State.onFrame type tag b s) := by
  unfold State.onFrame
  repeat' first
    | with_reducible exact .refl _ | with_reducible assumption | with_reducible intro s | with_reducible apply Keeps.after (State.hostWrite_keeps _ _)
    | with_reducible apply Keeps.after (State.hostRead_keeps _ _ _) | with_reducible apply Keeps.after (State.acceptFrame_keeps _ _ _)
    | with_reducible apply Keeps.ite | split

theorem State.takeStream_keeps  (m : Nat) (s : State) : Keeps s (State.takeStream m s) := by
  induction m generalizing s with
  | zero =>
    unfold State.takeStream
    repeat' first
      | with_reducible exact .refl _ | with_reducible assumption | with_reducible intro s
      | (extract_lets +onlyGivenNames x; refine (have hx : Keeps s x := ?_; ?_); rotate_left; clear_value x; rotate_right)
      | (extract_lets +onlyGivenNames x; clear_value x) | subst x | with_reducible apply Keeps.ite | split
      | with_reducible apply Keeps.after (State.onFrame_keeps _ _ _ _) | with_reducible apply Keeps.after (State.skipFrame_keeps _ _ _)
      | with_reducible apply Keeps.after (State.onLink_keeps _ _) | with_reducible apply Keeps.after (State.count_keeps _ _ _)
      | with_reducible apply Keeps.ite | (with_reducible apply Keeps.whenB; intro s)
  | succ m ih =>
    unfold State.takeStream
    repeat' first
      | with_reducible apply Keeps.after (ih _) | with_reducible exact .refl _ | with_reducible assumption | with_reducible intro s
      | (extract_lets +onlyGivenNames x; refine (have hx : Keeps s x := ?_; ?_); rotate_left; clear_value x; rotate_right)
      | (extract_lets +onlyGivenNames x; clear_value x) | subst x | with_reducible apply Keeps.ite | split
      | with_reducible apply Keeps.after (State.onFrame_keeps _ _ _ _) | with_reducible apply Keeps.after (State.skipFrame_keeps _ _ _)
      | with_reducible apply Keeps.after (State.onLink_keeps _ _) | with_reducible apply Keeps.after (State.count_keeps _ _ _)
      | with_reducible apply Keeps.ite | (with_reducible apply Keeps.whenB; intro s)

theorem State.onLinkFrame_keeps (p : List Byte) (s : State) : Keeps s (State.onLinkFrame p s) := by
  unfold State.onLinkFrame
  repeat' first
    | with_reducible exact .refl _ | with_reducible assumption | with_reducible intro s
    | (extract_lets +onlyGivenNames x; refine (have hx : Keeps s x := ?_; ?_); rotate_left; clear_value x; rotate_right)
    | (extract_lets +onlyGivenNames x; clear_value x) | subst x | with_reducible apply Keeps.after (State.takeConfirm_keeps _ _)
    | with_reducible apply Keeps.after (State.takeOffer_keeps _ _) | with_reducible apply Keeps.after (State.count_keeps _ _ _)
    | with_reducible apply Keeps.ite | split

theorem State.takeTraining_keeps  (m : Nat) (s : State) : Keeps s (State.takeTraining m s) := by
  induction m generalizing s with
  | zero =>
    unfold State.takeTraining
    repeat' first
      | with_reducible exact .refl _ | with_reducible assumption | with_reducible intro s
      | (extract_lets +onlyGivenNames x; refine (have hx : Keeps s x := ?_; ?_); rotate_left; clear_value x; rotate_right)
      | (extract_lets +onlyGivenNames x; clear_value x) | subst x | with_reducible apply Keeps.after (State.onLinkFrame_keeps _ _)
      | with_reducible apply Keeps.after (State.onLink_keeps _ _) | with_reducible apply Keeps.after (State.discardFrame_keeps _)
      | with_reducible apply Keeps.after (State.count_keeps _ _ _) | with_reducible apply Keeps.ite | split
  | succ m ih =>
    unfold State.takeTraining
    repeat' first
      | with_reducible apply Keeps.after (ih _) | with_reducible exact .refl _ | with_reducible assumption | with_reducible intro s
      | (extract_lets +onlyGivenNames x; refine (have hx : Keeps s x := ?_; ?_); rotate_left; clear_value x; rotate_right)
      | (extract_lets +onlyGivenNames x; clear_value x) | subst x | with_reducible apply Keeps.after (State.onLinkFrame_keeps _ _)
      | with_reducible apply Keeps.after (State.onLink_keeps _ _) | with_reducible apply Keeps.after (State.discardFrame_keeps _)
      | with_reducible apply Keeps.after (State.count_keeps _ _ _) | with_reducible apply Keeps.ite | split

theorem State.badFlit_keeps (s : State) : Keeps s (State.badFlit s) := by
  unfold State.badFlit
  repeat' first
    | with_reducible exact .refl _ | with_reducible assumption | with_reducible intro s | with_reducible apply Keeps.after (State.onLink_keeps _ _)
    | with_reducible apply Keeps.after (State.count_keeps _ _ _) | with_reducible apply Keeps.ite | split

theorem State.addCredits_keeps (ch n : Nat) (s : State) : Keeps s (State.addCredits ch n s) := by
  unfold State.addCredits
  repeat' first
    | with_reducible exact .refl _ | with_reducible assumption | with_reducible intro s | with_reducible apply Keeps.after (State.onLink_keeps _ _)
    | with_reducible apply Keeps.ite | split

theorem State.goodFlit_keeps (f : List Byte) (s : State) : Keeps s (State.goodFlit f s) := by
  unfold State.goodFlit
  repeat' first
    | with_reducible exact .refl _ | with_reducible assumption | with_reducible intro s
    | (extract_lets +onlyGivenNames x; refine (have hx : Keeps s x := ?_; ?_); rotate_left; clear_value x; rotate_right)
    | (extract_lets +onlyGivenNames x; clear_value x) | subst x | with_reducible apply Keeps.after (State.addCredits_keeps _ _ _)
    | with_reducible apply Keeps.after (State.takeStream_keeps _ _) | with_reducible apply Keeps.after (State.linkResend_keeps _)
    | with_reducible apply Keeps.after (State.ackTo_keeps _ _) | with_reducible apply Keeps.after (State.onLink_keeps _ _)
    | with_reducible apply Keeps.ite | (with_reducible apply Keeps.whenB; intro s) | split

theorem State.syncNumber_keeps (f : List Byte) (s : State) : Keeps s (State.syncNumber f s) := by
  unfold State.syncNumber
  repeat' first
    | with_reducible exact .refl _ | with_reducible assumption | with_reducible intro s | with_reducible apply Keeps.after (State.onLink_keeps _ _)
    | with_reducible apply Keeps.ite | (with_reducible apply Keeps.whenB; intro s) | split

theorem execAdtikFlit_keeps (flit : List Byte) (s : State) : OutKeeps s (execAdtikFlit flit s) := by
  unfold execAdtikFlit
  repeat' first
    | with_reducible exact .refl _ | with_reducible assumption | with_reducible intro s | with_reducible apply OutKeeps.refused
    | with_reducible apply OutKeeps.ite
    | (extract_lets +onlyGivenNames x; refine (have hx : Keeps s x := ?_; ?_); rotate_left; clear_value x; rotate_right)
    | (extract_lets +onlyGivenNames x; clear_value x) | subst x | with_reducible apply OutKeeps.next
    | with_reducible apply Keeps.after (State.syncNumber_keeps _ _) | with_reducible apply Keeps.after (State.goodFlit_keeps _ _)
    | with_reducible apply Keeps.after (State.badFlit_keeps _) | with_reducible apply Keeps.after (State.takeTraining_keeps _ _)
    | with_reducible apply Keeps.after (State.onLink_keeps _ _) | with_reducible apply Keeps.ite | split

/-! ### Boot -/

theorem State.onClk_keeps (f : Clk → Clk) (s : State) : Keeps s (State.onClk f s) := by
  unfold State.onClk
  repeat' first
    | with_reducible exact .refl _ | with_reducible assumption | with_reducible intro s | with_reducible apply Keeps.ite
    | with_reducible apply Keeps.other | split

theorem State.bootSlot_keeps (k : Nat) (s : State) : Keeps s (State.bootSlot k s) := by
  unfold State.bootSlot
  repeat' first
    | with_reducible exact .refl _ | with_reducible assumption | with_reducible intro s
    | (extract_lets +onlyGivenNames x; refine (have hx : Keeps s x := ?_; ?_); rotate_left; clear_value x; rotate_right)
    | (extract_lets +onlyGivenNames x; clear_value x) | subst x | with_reducible apply Keeps.ite | split
    | with_reducible apply Keeps.after (State.onSec_keeps _ _) | with_reducible apply Keeps.after (State.onMgt_keeps _ _)
    | with_reducible apply Keeps.after (State.stewWr_keeps _ _ _ _) | with_reducible apply Keeps.after (State.takeFree_keeps _)
    | with_reducible apply Keeps.after (State.wr_keeps _ _ _ _) | with_reducible apply Keeps.ite | (with_reducible apply Keeps.each; intro _ s)
    | with_reducible refine Keeps.after (State.takeFree_eq (by with_reducible assumption)) ?_

theorem State.trailhead_keeps (s : State) : Keeps s (State.trailhead s) := by
  unfold State.trailhead
  repeat' first
    | with_reducible exact .refl _ | with_reducible assumption | with_reducible intro s | with_reducible apply Keeps.ite | split
    | with_reducible apply Keeps.after (State.bootSlot_keeps _ _) | with_reducible apply Keeps.after (State.wr_keeps _ _ _ _)
    | with_reducible apply Keeps.ite | with_reducible apply Keeps.other

theorem State.decideLc_keeps (s : State) : Keeps s (State.decideLc s) := by
  unfold State.decideLc
  split
  · exact (State.wr_keeps ..).after ⟨id, rfl, .burnLc _ _⟩
  · exact (State.fatal_keeps ..).after (State.wr_keeps ..)

theorem State.showFuses_keeps (s : State) : Keeps s (State.showFuses s) := by
  unfold State.showFuses
  repeat' first
    | with_reducible exact .refl _ | with_reducible assumption | with_reducible intro s
    | (extract_lets +onlyGivenNames x; refine (have hx : Keeps s x := ?_; ?_); rotate_left; clear_value x; rotate_right)
    | (extract_lets +onlyGivenNames x; clear_value x) | subst x | with_reducible apply Keeps.after (State.showIdentity_keeps _)
    | with_reducible apply Keeps.after (State.wr_keeps _ _ _ _) | with_reducible apply Keeps.ite | split

theorem State.bootStart_keeps (s : State) : Keeps s (State.bootStart s) := by
  unfold State.bootStart
  repeat' first
    | with_reducible exact .refl _ | with_reducible assumption | with_reducible intro s
    | (extract_lets +onlyGivenNames x; refine (have hx : Keeps s x := ?_; ?_); rotate_left; clear_value x; rotate_right)
    | (extract_lets +onlyGivenNames x; clear_value x) | subst x | with_reducible apply Keeps.after (State.trailhead_keeps _)
    | with_reducible apply Keeps.after (State.onSec_keeps _ _) | with_reducible apply Keeps.after (State.setProgramming_keeps _)
    | with_reducible apply Keeps.after (State.clearStack_keeps _ _) | with_reducible apply Keeps.ite | (with_reducible apply Keeps.each; intro _ s)
    | split

theorem execReturnClearEnd_keeps (stack : Fin 12) (s : State) : OutKeeps s (execReturnClearEnd stack s) := by
  unfold execReturnClearEnd
  repeat' first
    | with_reducible exact .refl _ | with_reducible assumption | with_reducible intro s | with_reducible apply OutKeeps.refused
    | with_reducible apply OutKeeps.ite
    | (extract_lets +onlyGivenNames x; refine (have hx : Keeps s x := ?_; ?_); rotate_left; clear_value x; rotate_right)
    | (extract_lets +onlyGivenNames x; clear_value x) | subst x | with_reducible apply OutKeeps.next
    | with_reducible apply Keeps.after (State.trailhead_keeps _) | with_reducible apply Keeps.after (State.onSec_keeps _ _)
    | with_reducible apply Keeps.after (State.freeTrains_keeps _) | with_reducible apply Keeps.after (State.setProgramming_keeps _)
    | with_reducible apply Keeps.ite | (with_reducible apply Keeps.nv; rotate_left; rfl; rfl; rfl; rfl; rfl) | split

theorem State.trainHub_keeps (h w : Nat) (s : State) : Keeps s (State.trainHub h w s) := by
  unfold State.trainHub
  repeat' first
    | with_reducible exact .refl _ | with_reducible assumption | with_reducible intro s
    | (extract_lets +onlyGivenNames x; refine (have hx : Keeps s x := ?_; ?_); rotate_left; clear_value x; rotate_right)
    | (extract_lets +onlyGivenNames x; clear_value x) | subst x | with_reducible apply Keeps.after (State.raise_keeps _ _ _)
    | with_reducible apply Keeps.after (State.wr_keeps _ _ _ _) | with_reducible apply Keeps.ite | (with_reducible apply Keeps.whenB; intro s) | split

theorem execResetRelease_keeps (straps : BitVec 5) (lanes : List Nat) (pfw : Bool) (s : State) : OutKeeps s (execResetRelease straps lanes pfw s) := by
  unfold execResetRelease
  repeat' first
    | with_reducible exact .refl _ | with_reducible assumption | with_reducible intro s | with_reducible apply OutKeeps.refused
    | with_reducible apply OutKeeps.ite
    | (extract_lets +onlyGivenNames x; refine (have hx : Keeps s x := ?_; ?_); rotate_left; clear_value x; rotate_right)
    | (extract_lets +onlyGivenNames x; clear_value x) | subst x | with_reducible apply OutKeeps.next | with_reducible apply Keeps.ite | split
    | with_reducible apply Keeps.after (State.trainHub_keeps _ _ _) | with_reducible apply Keeps.after (State.bootStart_keeps _)
    | with_reducible apply Keeps.after (State.showFuses_keeps _) | with_reducible apply Keeps.after (State.decideLc_keeps _)
    | with_reducible apply Keeps.after (State.onClk_keeps _ _) | with_reducible apply Keeps.after (State.powerFail_keeps _)
    | with_reducible apply Keeps.after (State.entropy_keeps _ _) | with_reducible apply Keeps.after (State.onSec_keeps _ _)
    | with_reducible apply Keeps.after (State.toReset_keeps _ _) | with_reducible apply Keeps.after (State.onHub_keeps _ _ _)
    | with_reducible apply Keeps.after (State.wr_keeps _ _ _ _) | with_reducible apply Keeps.ite | (with_reducible apply Keeps.each; intro _ s)
    | (with_reducible apply Keeps.whenB; intro s) | with_reducible refine Keeps.after (State.entropy_eq (by with_reducible assumption)) ?_

theorem execResetAssert_keeps (s : State) : OutKeeps s (execResetAssert s) := by
  unfold execResetAssert
  repeat' first
    | with_reducible exact .refl _ | with_reducible assumption | with_reducible intro s | with_reducible apply OutKeeps.refused
    | with_reducible apply OutKeeps.ite | with_reducible apply OutKeeps.next | with_reducible apply Keeps.after (State.onClk_keeps _ _)
    | with_reducible apply Keeps.after (State.resetDue_keeps _) | with_reducible apply Keeps.ite | split

theorem State.loseCommit_keeps (h : Nat) (s : State) : Keeps s (State.loseCommit h s) := by
  unfold State.loseCommit
  repeat' first
    | with_reducible exact .refl _ | with_reducible assumption | with_reducible intro s
    | (extract_lets +onlyGivenNames x; refine (have hx : Keeps s x := ?_; ?_); rotate_left; clear_value x; rotate_right)
    | (extract_lets +onlyGivenNames x; clear_value x) | subst x | with_reducible apply Keeps.ite | split
    | with_reducible apply Keeps.after (State.takeFree_keeps _) | with_reducible apply Keeps.ite
    | (with_reducible apply Keeps.nv; rotate_left; rfl; rfl; rfl; rfl; rfl)
    | with_reducible refine Keeps.after (State.takeFree_eq (by with_reducible assumption)) ?_

theorem execInputLoss_keeps (mv : Nat) (s : State) : OutKeeps s (execInputLoss mv s) := by
  unfold execInputLoss
  repeat' first
    | with_reducible exact .refl _ | with_reducible assumption | with_reducible intro s | with_reducible apply OutKeeps.refused
    | with_reducible apply OutKeeps.ite | with_reducible apply OutKeeps.next | with_reducible apply Keeps.after (State.loseCommit_keeps _ _)
    | with_reducible apply Keeps.after (State.toReset_keeps _ _) | with_reducible apply Keeps.ite | (with_reducible apply Keeps.each; intro _ s)
    | split

theorem execRefclkLost_keeps (s : State) : OutKeeps s (execRefclkLost s) := by
  unfold execRefclkLost
  repeat' first
    | with_reducible exact .refl _ | with_reducible assumption | with_reducible intro s | with_reducible apply OutKeeps.refused
    | with_reducible apply OutKeeps.ite
    | (extract_lets +onlyGivenNames x; refine (have hx : Keeps s x := ?_; ?_); rotate_left; clear_value x; rotate_right)
    | (extract_lets +onlyGivenNames x; clear_value x) | subst x | with_reducible apply OutKeeps.next
    | with_reducible apply Keeps.after (State.onClk_keeps _ _) | with_reducible apply Keeps.after (State.retrain_keeps _)
    | with_reducible apply Keeps.after (State.portDown_keeps _ _) | with_reducible apply Keeps.after (State.wr_keeps _ _ _ _)
    | with_reducible apply Keeps.ite | (with_reducible apply Keeps.each; intro _ s) | (with_reducible apply Keeps.whenB; intro s) | split

theorem execRefclkReturn_keeps (s : State) : OutKeeps s (execRefclkReturn s) := by
  unfold execRefclkReturn
  repeat' first
    | with_reducible exact .refl _ | with_reducible assumption | with_reducible intro s | with_reducible apply OutKeeps.refused
    | with_reducible apply OutKeeps.ite
    | (extract_lets +onlyGivenNames x; refine (have hx : Keeps s x := ?_; ?_); rotate_left; clear_value x; rotate_right)
    | (extract_lets +onlyGivenNames x; clear_value x) | subst x | with_reducible apply OutKeeps.next
    | with_reducible apply Keeps.after (State.onClk_keeps _ _) | with_reducible apply Keeps.after (State.wrB_keeps _ _ _ _)
    | with_reducible apply Keeps.ite | (with_reducible apply Keeps.each; intro _ s) | split

theorem State.onFwSlot_keeps (k : Nat) (f : FwSlot → FwSlot) (s : State) : Keeps s (State.onFwSlot k f s) := by
  unfold State.onFwSlot
  repeat' first
    | with_reducible exact .refl _ | with_reducible assumption | with_reducible intro s | with_reducible apply Keeps.ite
    | (with_reducible apply Keeps.nv; rotate_left; rfl; rfl; rfl; rfl; rfl) | split

theorem execFirmwareUpdateData_keeps (component : Fin 2) (offset : Nat) (data : List Byte) (s : State) : OutKeeps s (execFirmwareUpdateData component offset data s) := by
  unfold execFirmwareUpdateData
  repeat' first
    | with_reducible exact .refl _ | with_reducible assumption | with_reducible intro s | with_reducible apply OutKeeps.refused
    | with_reducible apply OutKeeps.ite
    | (extract_lets +onlyGivenNames x; refine (have hx : Keeps s x := ?_; ?_); rotate_left; clear_value x; rotate_right)
    | (extract_lets +onlyGivenNames x; clear_value x) | subst x | with_reducible apply OutKeeps.next
    | with_reducible apply Keeps.after (State.onFwSlot_keeps _ _ _) | with_reducible apply Keeps.after (State.onMgt_keeps _ _)
    | with_reducible apply Keeps.ite | (with_reducible apply Keeps.whenB; intro s) | split

theorem execVerifyComplete_keeps (s : State) : OutKeeps s (execVerifyComplete s) := by
  unfold execVerifyComplete
  repeat' first
    | with_reducible exact .refl _ | with_reducible assumption | with_reducible intro s | with_reducible apply OutKeeps.refused
    | with_reducible apply OutKeeps.ite
    | (extract_lets +onlyGivenNames x; refine (have hx : Keeps s x := ?_; ?_); rotate_left; clear_value x; rotate_right)
    | (extract_lets +onlyGivenNames x; clear_value x) | subst x | with_reducible apply OutKeeps.next
    | with_reducible apply Keeps.after (State.bootSlot_keeps _ _) | with_reducible apply Keeps.after (State.mctpSend_keeps _ _)
    | with_reducible apply Keeps.after (State.onMgt_keeps _ _) | with_reducible apply Keeps.ite | (with_reducible apply Keeps.whenB; intro s) | split

theorem State.activate_keeps (msg : List Byte) (s : State) : Keeps s (State.activate msg s) := by
  unfold State.activate
  repeat' first
    | with_reducible exact .refl _ | with_reducible assumption | with_reducible intro s
    | with_reducible apply Keeps.after (State.pldmAnswer_keeps _ _ _) | with_reducible apply Keeps.after (State.onMgt_keeps _ _)
    | with_reducible apply Keeps.ite | split

theorem execActivateFirmware_keeps (msg : List Byte) (s : State) : OutKeeps s (execActivateFirmware msg s) := by
  unfold execActivateFirmware
  repeat' first
    | with_reducible exact .refl _ | with_reducible assumption | with_reducible intro s | with_reducible apply OutKeeps.refused
    | with_reducible apply OutKeeps.ite | with_reducible apply OutKeeps.next | with_reducible apply Keeps.after (State.activate_keeps _ _)
    | with_reducible apply Keeps.after (State.pldm_keeps _ _ _ _ _ ?_ _) | with_reducible apply Keeps.ite | split

end Sys2Proof.Machine
end

