-- ==== Sys2Proof/Laws/RegTable.lean ====
section
/-! SUPPORT. Facts about the register table, page by page: fields lie in their page, no two overlap, and pairs stand alone. -/
namespace Sys2Proof.Machine

/-- Every field belongs to its page, below the common counters, in a word, and has a width. -/
theorem Page.fields_place (g : Page) : ∀ f ∈ g.fields, f.page = g ∧ f.off < 0x7F8 ∧ f.off % 4 = 0 ∧ f.lo < 32 ∧ 0 < f.width := by
  cases g <;> decide

/-- No two fields of a page share a bit; a pair takes its word and the next. -/
theorem Page.fields_apart (g : Page) : g.fields.Pairwise (fun a b =>
    (a.off ≠ b.off ∨ a.lo + a.width ≤ b.lo ∨ b.lo + b.width ≤ a.lo) ∧ (a.off ≠ b.off ∨ a.lo ≠ b.lo)) := by
  cases g <;> decide

/-- The fields of BLOCK_EVT are exactly the event flags, one bit each (R466). -/
theorem Page.event_place (g : Page) : ∀ f ∈ g.fields, f.acc = .ev → f.off = 0x010 ∧ f.width = 1 ∧ f.pair = false := by
  cases g <;> decide

end Sys2Proof.Machine
end

