-- ==== Sys2Proof/WellFormed.lean ====
section
/-! DEFINITION. Which commands can reach the module at all: the lengths and ranges that the spec fixes for what comes from
outside. A unit number out of range cannot be written (the operands are Fin); a meaning does not rest on these checks. -/
namespace Sys2Proof

/-- Is a command well-formed. -/
def Instr.wf : Instr → Bool
  | .request _ => true
  | .cancel _ => true
  | .regReadFrame _ => true
  | .regWriteFrame _ => true
  | .linkOffer _ => true
  | .linkConfirm _ => true
  | .adtikFlit flit => flit.length == 256
  | .adtikResendTimeout => true
  | .hostLinkTrained => true
  | .fecLockLost => true
  | .hostLinkDownTimeout => true
  | .formStep _ => true
  | .sampling _ => true
  | .commitCut _ _ => true
  | .commitResolution _ => true
  | .stepBoundary _ => true
  | .calibrationWindow _ _ _ => true
  | .deadlineCheck _ => true
  | .evaluationArm _ => true
  | .tierRebias _ => true
  | .sampleAndHold _ _ => true
  | .conversionRoundEnd _ _ devs => devs.length == 2112 && devs.all (fun c => decide (-1024 ≤ c) && decide (c ≤ 1023))
  | .priorityRead _ _ column _ _ => decide (2048 ≤ column) && decide (column < 2080)
  | .rangePass _ => true
  | .readout _ _ _ => true
  | .columnResult _ _ _ => true
  | .driftFit _ => true
  | .escInvocation _ => true
  | .windowWrite _ _ _ data => data.length != 0
  | .topkMerge _ => true
  | .coreIadd _ _ => true
  | .coreIsub _ _ => true
  | .coreImul _ _ => true
  | .coreImad _ _ => true
  | .coreAnd _ _ => true
  | .coreOr _ _ => true
  | .coreXor _ _ => true
  | .coreShl _ _ => true
  | .coreShr _ _ => true
  | .coreSar _ _ => true
  | .coreImin _ _ => true
  | .coreImax _ _ => true
  | .coreIcmp _ _ => true
  | .coreSel _ _ => true
  | .coreMov _ _ => true
  | .coreMovi _ _ => true
  | .coreIaddi _ _ => true
  | .coreLaneid _ _ => true
  | .coreShfl _ _ => true
  | .coreFadd _ _ => true
  | .coreFmul _ _ => true
  | .coreFfma _ _ => true
  | .coreFmin _ _ => true
  | .coreFmax _ _ => true
  | .coreFcmp _ _ => true
  | .coreFcvt _ _ => true
  | .coreFex2 _ _ => true
  | .coreFlg2 _ _ => true
  | .coreFrcp _ _ => true
  | .coreFrsq _ _ => true
  | .coreFred _ _ => true
  | .coreFrmax _ _ => true
  | .coreQblk _ _ => true
  | .coreQarr _ _ => true
  | .coreLds _ _ => true
  | .coreSts _ _ => true
  | .coreAadd _ _ => true
  | .coreXld _ _ => true
  | .coreXst _ _ => true
  | .coreXcp _ _ => true
  | .coreXgth _ _ => true
  | .transferComplete _ _ => true
  | .coreWait _ _ => true
  | .coreMma _ _ => true
  | .coreAld _ _ => true
  | .coreAst _ _ => true
  | .coreAz _ _ => true
  | .coreBr _ _ => true
  | .coreLoop _ _ => true
  | .coreCall _ _ => true
  | .coreRet _ _ => true
  | .coreEnd _ _ => true
  | .coreBar _ _ => true
  | .coreSig _ _ => true
  | .coreWev _ _ => true
  | .coreWpt _ _ => true
  | .coreAcall _ _ => true
  | .coreTopk _ _ => true
  | .coreEput _ _ => true
  | .coreAppend _ _ => true
  | .coreFetch _ _ => true
  | .coreQend _ _ => true
  | .stepTimeout _ => true
  | .faultClr _ => true
  | .verify _ => true
  | .setVerifyDone _ => true
  | .loadStart _ => true
  | .loadAbort _ => true
  | .retire _ => true
  | .manifestCheck _ _ => true
  | .shardAccepted _ _ _ => true
  | .readTimeout _ _ => true
  | .shardTimeout _ _ => true
  | .programArrayTier _ _ => true
  | .programVerifyEnd _ _ _ _ => true
  | .switchDrain _ => true
  | .switchImmediate _ => true
  | .stackSelfcal _ => true
  | .tileSelfcal _ => true
  | .selfcalComplete _ _ _ _ => true
  | .trimSwap _ => true
  | .mapSwap _ => true
  | .afdCap _ _ => true
  | .memTrain _ => true
  | .trainingEnd _ _ => true
  | .apply _ => true
  | .clearDone _ _ => true
  | .frameSwap _ => true
  | .frameCheck _ => true
  | .refreshSlot _ => true
  | .forcedRefresh _ _ => true
  | .scrubSlot _ _ => true
  | .stepSlot _ _ _ => true
  | .paceWindow _ => true
  | .rollReady _ payload => payload.flit.length == 288
  | .rollGo _ payload => payload.flit.length == 288
  | .rollAbort _ payload => payload.flit.length == 288
  | .rollReplay _ payload => payload.flit.length == 288
  | .rollTimeout _ => true
  | .equalisingDelayEnd _ => true
  | .rollRetry _ => true
  | .detectedError _ _ => true
  | .coverFetch _ => true
  | .coverReady _ _ _ => true
  | .spareArrayProgram _ => true
  | .spareColumnProgram _ => true
  | .spareProgramEnd _ _ _ => true
  | .maskClear _ => true
  | .unavailSet _ => true
  | .unavailClear _ => true
  | .verdictPop _ => true
  | .coalescingWindowClose _ _ => true
  | .push _ => true
  | .commit _ => true
  | .bbCommitted _ => true
  | .sensorReading _ readings => readings.all (fun x => decide (x < 2 ^ 16))
  | .exclude _ => true
  | .reinstate _ => true
  | .recalReq _ => true
  | .calPieceEnd _ _ _ _ _ => true
  | .powerFailWarning => true
  | .pfwDeassert => true
  | .inputUndervoltage _ => true
  | .inputOvervoltage _ => true
  | .railFault _ _ => true
  | .limiterPeriod _ _ _ => true
  | .quiet => true
  | .active => true
  | .doze => true
  | .wake => true
  | .resetRelease _ _ _ => true
  | .resetAssert => true
  | .refclkLost => true
  | .refclkReturn => true
  | .portTrained _ _ _ => true
  | .ethernetFrame _ _ => true
  | .arp _ _ => true
  | .neighbourSolicitation _ _ => true
  | .echoRequest _ _ => true
  | .congestionNotification _ _ => true
  | .rateIncreaseTimer _ _ => true
  | .rdmaWrite _ _ _ _ _ => true
  | .wentarLink _ flit => flit.length == 288
  | .wentarWrite _ flit => flit.length == 288
  | .wentarAckTimeout _ => true
  | .writeDeliver _ _ => true
  | .form _ => true
  | .lcGo => true
  | .secVerify => true
  | .svnCommit => true
  | .keyRevoke => true
  | .idCreate _ => true
  | .partCreate => true
  | .partClearDone _ => true
  | .partDestroy => true
  | .send _ => true
  | .spdmGetVersion _ _ => true
  | .spdmGetCapabilities _ _ => true
  | .spdmNegotiateAlgorithms _ _ => true
  | .spdmGetDigests _ _ => true
  | .spdmGetCertificate _ _ => true
  | .spdmChallenge _ _ => true
  | .spdmGetMeasurements _ _ => true
  | .spdmKeyExchange _ _ => true
  | .spdmFinish _ _ => true
  | .spdmHeartbeat _ _ => true
  | .spdmKeyUpdate _ _ => true
  | .spdmEndSession _ _ => true
  | .spdmChunkSend _ _ => true
  | .spdmChunkGet _ _ => true
  | .spdmKeyDeliver _ _ => true
  | .spdmKeyErase _ _ => true
  | .spdmPubkeyAdd _ _ => true
  | .spdmPubkeyRemove _ _ => true
  | .watchdogExpiry _ _ => true
  | .wdogKick _ _ => true
  | .i3cEnec _ => true
  | .i3cDisec _ => true
  | .i3cRstdaa => true
  | .i3cEntdaa _ => true
  | .i3cSetdasa _ => true
  | .i3cGetpid => true
  | .i3cGetbcr => true
  | .i3cGetdcr => true
  | .i3cGetmwl => true
  | .i3cGetmrl => true
  | .i3cGetstatus => true
  | .setEndpointId _ => true
  | .getEndpointId _ => true
  | .getMctpVersionSupport _ => true
  | .getMessageTypeSupport _ => true
  | .getEndpointUuid _ => true
  | .getTid _ => true
  | .setTid _ => true
  | .getPldmVersion _ => true
  | .getPldmTypes _ => true
  | .getPldmCommands _ => true
  | .getSensorReading _ => true
  | .getStateSensorReadings _ => true
  | .getPdrRepositoryInfo _ => true
  | .getPdr _ => true
  | .setEventReceiver _ => true
  | .pollForPlatformEventMessage _ => true
  | .platformEventResend => true
  | .verifyComplete => true
  | .activateFirmware _ => true
  | .lanternHeartbeat => true
  | .resendReq frame => frame.length != 0
  | .fieldSelfTest => true
  | .fullSelfTest => true
  | .memorySelfTest => true
  | .selfTestAbort => true
  | .selfTestEnd _ _ => true
  | .registerWrite _ _ _ _ => true
  | .loRead _ _ => true
  | .blockEnable _ _ => true
  | .blockDisable _ _ => true
  | .kveFlush _ => true
  | .srvPreempt _ => true
  | .srvEnd _ => true
  | .flitTransmit => true
  | .offerRepeat => true
  | .hostAdapterTraining => true
  | .connectTimeout _ => true
  | .rollWaitTimeout _ => true
  | .portLinkDown _ => true
  | .stateDone _ => true
  | .inputLoss _ => true
  | .securityParityFailure _ _ => true
  | .managementEthernetLink _ => true
  | .firmwareUpdateData _ _ _ => true
  | .platformEventMessageResponse _ => true
  | .registerRead _ _ _ => true
  | .returnClearEnd _ => true

end Sys2Proof
end

