-- ==== Sys2Proof/Tests/Slice0.lean ====
section
/-! SUPPORT. The tests of the model: each check of `Instr.wf` refuses an ill-formed command, and for each statement with hypotheses
small concrete states and operands that meet them, clause by clause. -/
namespace Sys2Proof.Tests
open Sys2Proof Sys2Proof.Machine
set_option Elab.async false

/-! ### Small states -/

/-- The module once its reset is released. -/
def up : State := { State.reset with clk := { State.reset.clk with released := true } }

/-- The released module with the listed register fields: field, page instance, value. -/
def regs (l : List (Field × Nat × Nat)) : State := l.foldl (fun s x => s.wr x.1 x.2.1 x.2.2) up

/-- A steward core. -/
def st0 : Requester := .steward 0 0

/-- Bytes of a frame or a flit. -/
def bytes (l : List Nat) : List Byte := l.map (BitVec.ofNat 8)

/-- A frame of n bytes that are zero but for the listed ones: offset and bytes. -/
def frame (n : Nat) (l : List (Nat × List Nat)) : List Byte :=
  l.foldl (fun b x => b.take x.1 ++ bytes x.2 ++ b.drop (x.1 + x.2.length)) (List.replicate n 0)

/-- Does a command go on to a next state of which a check holds. -/
def after (c : Instr) (s : State) (b : State → Bool) : Bool := match exec c s with | .next t => b t | _ => false

/-- Does a step go on to a next state. -/
def goesOn (s : State) : Bool := match step s with | .next _ => true | _ => false

/-! ### Ill-formed commands -/

theorem test_wf_adtik_flit : (Instr.adtikFlit []).wf = false := by decide
theorem test_wf_codes_short : (Instr.conversionRoundEnd 0 0 [0]).wf = false := by decide
theorem test_wf_code_range : (Instr.conversionRoundEnd 0 0 (List.replicate 2112 1024)).wf = false := by decide +kernel
theorem test_wf_priority_column : (Instr.priorityRead 0 0 2047 0 0).wf = false ∧ (Instr.priorityRead 0 0 2080 0 0).wf = false := by decide
theorem test_wf_window_write : (Instr.windowWrite 0 0 0 []).wf = false := by decide
theorem test_wf_roll_call : (Instr.rollReady 0 ⟨0, List.replicate 256 0⟩).wf = false ∧ (Instr.rollGo 0 ⟨0, []⟩).wf = false ∧
    (Instr.rollAbort 0 ⟨0, []⟩).wf = false ∧ (Instr.rollReplay 0 ⟨0, []⟩).wf = false := by decide +kernel
theorem test_wf_sensor : (Instr.sensorReading 0 [65536]).wf = false := by decide
theorem test_wf_wentar : (Instr.wentarLink 0 (List.replicate 256 0)).wf = false ∧ (Instr.wentarWrite 0 []).wf = false := by decide +kernel
theorem test_wf_resend_req : (Instr.resendReq []).wf = false := by decide

/-! ### The block and its queue -/

/-- The reset module with its reset released and the last phase of a group of periods. -/
def running : State := { State.reset with clk := { released := true, phase := 4, devTime := 2 ^ 64 - 1 } }

theorem test_idle_step : running.pending = [] ∧ running.clk.released = true ∧ running.clk.refOn = true ∧ running.clk.phase < 5 ∧
    running.clk.devTime < 2 ^ 64 ∧ State.reset.pending = [] ∧ State.reset.clk.released = false ∧
    ({ running with clk := { running.clk with refOn := false } } : State).clk.refOn = false ∧
    running.mgt.lanOpen = none ∧ running.mgt.lanAgain = [] ∧ running.fab.qps = [] ∧ (∀ n < 16, (running.port n).held = []) := by decide +kernel
theorem test_five_periods : periodNs 0 + periodNs 1 + periodNs 2 + periodNs 3 + periodNs 4 = 32 := by decide +kernel

/-- One listed byte at the last address of memory, and a command that waits. -/
def oneByte : State := { State.reset with mem := [(memEnd - 1, 1)], pending := [.hostLinkTrained] }

theorem test_step_keeps_memory : oneByte.mem.wf = true ∧ goesOn oneByte = true := by decide +kernel
theorem test_step_takes_one : after .hostLinkTrained oneByte (fun _ => true) = true ∧
    goesOn (State.reset.withPending [.lcGo, .svnCommit]) = true := by decide +kernel
theorem test_step_burns : after .svnCommit (regs [(R.SECG.SVN_RUNNING, 0, 3)]) (fun t => t.nv.svn == 3) = true := by decide +kernel

/-! ### Registers -/

theorem test_unmapped : st0 ≠ .host ∧ up.present st0 = true ∧ regEnd - 4 < regEnd ∧ (regEnd - 4) % 4 = 0 ∧
    pageAt (regEnd - 4) = none ∧ pageAt 0 = none ∧
    pageAt 0x00080FF0 = some (.afd, 0) ∧ Page.afd.listed (offAt 0x00080FF0) = false ∧ admits st0 .afd = true ∧
    after (.registerWrite st0 0 { val := 1 } {}) up (fun t => t.rd R.GLBG.UNMAPPED_CNT 0 == 1) = true ∧
    after (.loRead st0 0) up (fun t => t.rd R.GLBG.UNMAPPED_CNT 0 == 1) = true := by decide +kernel
theorem test_not_admitted :
    let s : State := regs [(R.SECG.STAT_LC_STATE, 0, 0)]
    s.lcState = 0 ∧ s.present .debug = true ∧ pageAt 0x00780000 = some (.secG, 0) ∧ admits .debug .secG = false := by decide +kernel
theorem test_no_partition : pageAt 0x01014000 = some (.dcr, 0) ∧ Page.dcr.isPart = true ∧ up.partExists 0 = false ∧
    pageAt 0x03C4FFFC = some (.rel, 11) ∧ up.partExists 11 = false ∧
    after (.registerWrite st0 0x01014000 { val := 1 } {}) up (fun t => t.rd R.SECG.NOPART_CNT 0 == 1) = true ∧
    after (.spareArrayProgram 11) up (fun t => t.rd R.SECG.NOPART_CNT 0 == 1) = true := by decide +kernel
theorem test_access_size : 0 < regEnd ∧ (8 ≠ 4 ∨ 0 % 4 ≠ 0) ∧ regEnd - 1 < regEnd ∧ (regEnd - 1) % 4 ≠ 0 ∧
    after (.registerWrite st0 0 { val := 1, size := 8 } {}) up (fun t => AMap.get? t.rdVal (requesterNo st0) == some accessFault) = true := by
  decide +kernel
theorem test_steward_memory : (0 : Nat) < 8 ∧ stewSize - 8 + 8 ≤ stewSize ∧
    after (.registerWrite st0 (stewBase + (stewSize - 8)) { val := 0x80, size := 8 } {}) up (fun t =>
      t.stewRd 0 (stewSize - 8) 1 == [0x80]) = true := by
  decide +kernel
theorem test_beyond_pages : regEnd ≤ regEnd ∧ inRun stewBase (stewBase + stewSize) regEnd 4 = false ∧
    inRun winBase (winBase + winBytes) regEnd 4 = false ∧ inRun memBase memEnd regEnd 4 = false ∧ 4 ∈ [1, 2, 4, 8] := by decide +kernel
theorem test_absent_requesters : up.present .host = false ∧ State.reset.present st0 = false ∧
    (regs [(R.SECG.STAT_LC_STATE, 0, 2)]).present .debug = false := by decide +kernel
-- R465: in one hc the steward core acts first and the host last
theorem test_same_hc : (pageAt 0x01014000).isSome = true ∧
    after (.registerWrite .debug 0x5C0018 { val := 5 } { others := [{ who := st0, addr := 0x5C0018, store := some { val := 7 } }] })
      (regs [(R.SECG.STAT_LC_STATE, 0, 0)]) (fun t => t.rd R.FABS.PART_TAG1 0 == 5) = true := by decide +kernel

theorem test_clear_view : pageAt 0x00082010 = some (.afd, 0) ∧ Page.afd.isPart = false ∧ admits st0 .afd = true ∧ offAt 0x00082010 = 0x010 ∧
    viewAt 0x00082010 = 2 ∧ viewAt 0x00080010 ≠ 2 ∧ up.rd (fieldRaceCnt .afd) 0 ≤ 0xFFFFFFFF := by decide +kernel
theorem test_clear_view_race : after (.registerWrite st0 0x00082010 { val := 3 } { flags := 2 }) (regs [(fieldConfigRefused .afd, 0, 1)])
    (fun t => t.rd (fieldConfigRefused .afd) 0 == 0) = true := by decide +kernel

theorem test_config_refused :
    let s := regs [(fieldEN .fab, 0, 1)]
    let f := R.FAB.PORT_CFG_MODE
    s.present st0 = true ∧ pageAt (0x00580000 + f.off) = some (.fab, 0) ∧ admits st0 .fab = true ∧ (0x00580000 + f.off) % 4 = 0 ∧
      f ∈ Page.fab.fields ∧
      f.cfg = true ∧ f.acc = .rw ∧ f.pair = false ∧ offAt (0x00580000 + f.off) = f.off ∧
      (∀ e ∈ Page.fab.fields, e.off = f.off → e.acc ≠ .wo) ∧ s.en .fab 0 = true ∧ viewAt (0x00580000 + f.off) < 4 ∧
      applyView f.acc f.counter 0 (s.fieldVal f 0) (f.slice ((1 <<< f.lo) % 2 ^ 32)) % 2 ^ f.width ≠ s.fieldVal f 0 := by decide +kernel

theorem test_high_word :
    let f := R.FAB.RX_BYTES
    let a := 0x00580000 + f.off
    pageAt a = some (.fab, 0) ∧ admits st0 .fab = true ∧ a < regEnd ∧ a % 4 = 0 ∧ f ∈ Page.fab.fields ∧ f.pair = true ∧ offAt a = f.off ∧
      (atPage .fab up).wordOpen .fab 0 f.off = false ∧ up.present st0 = true := by decide +kernel

/-- The host link is up and the host may reach partition 0. -/
def hosted : State := regs [(R.HLK.STAT_LINK_UP, 0, 1), (R.HLK.HOST_PARTS, 0, 1)]

theorem test_host_refused : hosted.present .host = true ∧ hosted.hostReaches 0x00600000 true = false ∧
    (regs [(R.HLK.STAT_LINK_UP, 0, 1)]).hostReaches 0x01014000 false = false ∧ 0x01014000 % 4 = 0 ∧ 0x01014000 < regEnd ∧ regEnd ≤ regEnd ∧
    after (.registerWrite .host 0x00600000 { val := 1 } {}) hosted (fun t => t.rd R.HLK.REG_REFUSED_CNT 0 == 1) = true := by decide +kernel
-- R435: the mailbox of a partition that the host has lost ends its sessions at the next access
theorem test_host_mailbox :
    let s : State := { regs [(R.HLK.STAT_LINK_UP, 0, 1)] with sec := { lostHost := [0], sessions := [(1, { via := 0, th := [], secret := [] })] } }
    (∃ o, o < 0x4000 ∧ mailboxWord o = true) ∧ s.sec.lostHost.contains 1 = false := by
  refine ⟨⟨0x800, ?_⟩, ?_⟩ <;> decide +kernel
theorem test_host_frames :
    hosted.linkIsUp = true ∧ hosted.readFormOk [] = false ∧ hosted.readFormOk (bytes [0, 0x40, 0x01, 1, 1, 0, 0, 0]) = true ∧
      hosted.hostReaches 0x01014000 false = true ∧ fieldLE (bytes [0, 0x40, 0x01, 1, 1, 0, 0, 0]) 0 4 = 0x01014000 ∧
      byteAt (bytes [0, 0x40, 0x01, 1, 1, 0, 0, 0]) 4 = 1 ∧ hosted.readFormOk (bytes [0, 0x40, 0x41, 1, 1, 0, 0, 0]) = true ∧
      hosted.hostReaches 0x01414000 false = false ∧ 8 < (List.replicate 9 (0 : Byte)).length ∧
      after (.regWriteFrame (List.replicate 8 0)) hosted (fun t => t.link.creditRet.getD 2 0 == 1) = true := by decide +kernel

/-- Partition 0 alone exists. -/
def part0 : State := regs [(R.SECG.PART_STAT_EXISTS, 0, 1)]

theorem test_enable : pageAt (ctlAddr 0x00580000) = some (.fab, 0) ∧ ctlAddr 0x00580000 < regEnd ∧ up.en .fab 0 = false ∧
    up.enableOk .fab 0 = true ∧ pageAt (ctlAddr 0x01018000) = some (.kve, 0) ∧ part0.partExists 0 = true ∧
    part0.en .kve 0 = false ∧ part0.enableOk .kve 0 = false ∧ after (.blockEnable st0 0x00580000) up (fun t => t.en .fab 0) = true := by
  decide +kernel
theorem test_disable :
    let s := regs [(fieldEN .fab, 0, 1)]
    s.en .fab 0 = true ∧ s.disableRefused .fab 0 = false ∧ s.disableAsked (Page.fab.idx, 0) = false ∧ s.disableWaits .fab 0 = [] := by
  decide +kernel
theorem test_disable_refused :
    let s := (regs [(R.SECG.PART_STAT_EXISTS, 0, 1), (fieldEN .srv, 0, 1), (fieldEN .kve, 0, 1)]).onPart 0 (fun q => { q with
      step := { phase := .running }, stepped := true })
    let u := s.onPart 0 (fun q => { q with disPend := [(Page.srv.idx, 0)] })
    s.en .srv 0 = true ∧ s.disableRefused .srv 0 = false ∧ s.disableAsked (Page.srv.idx, 0) = false ∧ s.disableWaits .srv 0 ≠ [] ∧
      s.en .kve 0 = true ∧ s.disableRefused .kve 0 = true ∧ u.en .srv 0 = true ∧ u.disableRefused .srv 0 = false ∧
      u.disableAsked (Page.srv.idx, 0) = true := by decide +kernel

theorem test_uncalibrated : up.en .afd 11 = false ∧ up.rd R.CNV.SELFCAL_STAT_DONE 11 = 0 ∧
    after (.blockEnable st0 0x000AC000) up (fun t => t.rd R.AFD.EVT_NOT_CALIBRATED 11 == 1 && !t.en .afd 11) = true := by decide +kernel

theorem test_array_counters :
    let f := fieldRaceCnt .cnv
    let a := 0x00100000 + 0x2000 + f.off
    f ∈ Page.cnv.allFields ∧ f.counter = true ∧ admits st0 .cnv = true ∧ a < regEnd ∧ a % 4 = 0 ∧ pageAt a = some (.cnv, 0) ∧
      offAt a = f.off ∧ viewAt a = 2 := by decide +kernel

-- R396 and R470: a span tag is configuration
theorem test_span_config :
    let w : Instr := .registerWrite (.steward 0 0) 0x5C0018 { val := 5 } {}
    after w up (fun t => t.rd R.FABS.PART_TAG1 0 == 5 && !t.is R.FABS.EVT_CONFIG_REFUSED 0) = true ∧
    after w (regs [(fieldEN .fabS, 0, 1)]) (fun t => t.rd R.FABS.PART_TAG1 0 == 0 && t.is R.FABS.EVT_CONFIG_REFUSED 0) = true := by decide +kernel

/-! ### The host link -/

/-- A link that trains, with FEC lock. -/
def training (o : Option (List Byte)) : State :=
  { regs [(R.HLK.STAT_TRAINING, 0, 1)] with link := { trained := true, offer := o, confirmOut := o.isSome } }
/-- An OFFER of version 1.0 and format 1 with the least credits. -/
def offer : List Byte := frame 32 [(0, [1, 1, 1]), (8, [5]), (12, [1]), (16, [2])]
/-- The CONFIRM of the choice of that offer. -/
def confirm : List Byte := frame 32 [(0, [2, 0, 0, 0x11])]

theorem test_host_link_trained : (regs [(R.HLK.STAT_TRAINING, 0, 1)]).is R.HLK.STAT_TRAINING 0 = true ∧
    (regs [(R.HLK.STAT_TRAINING, 0, 1)]).link.trained = false ∧ (regs [(R.HLK.STAT_TRAINING, 0, 1)]).clk.refOn = true := by decide +kernel
theorem test_offer_repeat : (training none).link.trained = true ∧ (training none).linkIsUp = false ∧ (training none).link.offer = none := by
  decide +kernel
theorem test_link_offer : byteAt offer 0 = 1 ∧ offer.length = 32 ∧ (training none).linkChoice offer = some 0x11 ∧
    (training none).link.confirmIn = false ∧
    (training none).linkChoice (frame 32 [(0, [1, 1, 1]), (8, [4]), (12, [1]), (16, [2])]) = none := by decide +kernel
theorem test_link_confirm : byteAt confirm 0 = 2 ∧ confirm.length = 32 ∧ (training (some offer)).link.offer = some offer ∧
    (training (some offer)).linkChoice offer = some (byteAt confirm 3) ∧ (training (some offer)).link.confirmOut = true ∧
    byteAt offer 6 ≠ 1 ∧ after (.linkConfirm confirm) (training (some offer)) (fun t => t.linkIsUp && t.link.credits == [5, 1, 2]) = true := by
  decide +kernel

theorem test_confirm_first :
    let s : State := { training (some offer) with link := { trained := true, offer := some offer } }
    s.linkIsUp = false ∧ s.link.confirmOut = false ∧ after (.linkConfirm confirm) s (fun t => !t.linkIsUp && t.link.confirmIn) = true := by
  decide +kernel
theorem test_link_frame_long : 32 < (frame 33 []).length ∧ (training none).link.trained = true ∧
    after (.linkOffer (frame 33 [])) (training none) (fun t => t.rd R.HLK.DISCARD_CNT 0 == 1) = true := by decide +kernel

/-- A link that is up, with one flit not acknowledged and already sent n times. -/
def linkUp (q : List (List Byte × List Nat)) (n : Nat) : State :=
  { regs [(R.HLK.STAT_LINK_UP, 0, 1), (fieldEN .hlk, 0, 1)] with link := { trained := true, replay := q, fails := n } }

theorem test_retrain : (linkUp [] 0).linkIsUp = true ∧ (linkUp [] 0).en .hlk 0 = true ∧ (training none).link.trained = true := by decide +kernel
/-- A state at a moment of device time. -/
def atTime (n : Nat) (s : State) : State := { s with clk := { s.clk with devTime := n } }

theorem test_host_lost :
    let s := regs [(fieldEN .hlk, 0, 1), (R.HLK.DOWN_TMO, 0, 5)]
    s.linkIsUp = false ∧ s.is R.HLK.STAT_HOST_LOST 0 = false ∧ s.en .hlk 0 = true ∧ s.link.downAt + 1000000 * s.rd R.HLK.DOWN_TMO 0 = 5000000 ∧
      after .hostLinkDownTimeout (atTime 4999999 s) (fun t => !t.is R.HLK.STAT_HOST_LOST 0) = true ∧
      after .hostLinkDownTimeout (atTime 5000000 s) (fun t => t.is R.HLK.STAT_HOST_LOST 0) = true := by decide +kernel
theorem test_resend : (linkUp [([], [])] 7).linkIsUp = true ∧ (linkUp [([], [])] 7).link.replay ≠ [] ∧ (linkUp [([], [])] 7).link.fails < 8 ∧
    (linkUp [([], [])] 7).link.since = 0 ∧
    after .adtikResendTimeout (atTime 3999 (linkUp [([], [])] 7)) (fun t => t.link.resend == 0) = true ∧
    after .adtikResendTimeout (atTime 4000 (linkUp [([], [])] 7)) (fun t => t.link.resend == 1 && t.link.fails == 8) = true := by
  decide +kernel

/-- An idle flit in order that returns one credit on channel 2. -/
def idleIn : List Byte := adtikFlit 0 0 2 0 1 []

theorem test_bad_flit : flitGood (List.replicate 256 0) = false ∧ flitGood (adtikFlit 1 0 255 0 0 []) = true ∧
    (let s : State := { linkUp [] 0 with link := { (linkUp [] 0).link with rxValid := true } }
     s.linkIsUp = true ∧ s.link.rxValid = true ∧ fieldLE (adtikFlit 1 0 255 0 0 []) 0 2 ≠ s.link.rxNext ∧
       after (.adtikFlit (adtikFlit 1 0 255 0 0 [])) s (fun t => t.link.nak && t.rd R.HLK.CRC_FLIT_CNT 0 == 1) = true) := by decide +kernel
theorem test_credit_flit : flitGood idleIn = true ∧ fieldLE idleIn 0 2 = (linkUp [] 0).link.rxNext ∧ (linkUp [] 0).link.replay = [] ∧
    (byteAt idleIn 5).testBit 0 = false ∧ (idleIn.drop 8).take flitData = List.replicate flitData 0 ∧ byteAt idleIn 4 < 3 ∧
    (linkUp [] 0).link.stream = [] ∧ (linkUp [] 0).link.skip = 0 ∧ (linkUp [] 0).link.rxValid = false ∧
    after (.adtikFlit idleIn) (linkUp [] 0) (fun t => t.link.credits == [0, 0, 1] && t.link.rxNext == 1) = true := by decide +kernel
theorem test_transmit : (linkUp [] 0).link.resend = 0 ∧ (linkUp [] 0).link.replay.length < replayFlits ∧ (linkUp [] 0).link.sending = [] ∧
    (linkUp [] 0).nextFrame.isNone = true ∧ (linkUp [] 0).link.creditRet = [0, 0, 0] ∧
    ({ training none with link := { trained := true, linkOut := [[]] } } : State).linkIsUp = false ∧
    byteAt (linkFrame 1 0 ((training none).linkPayload 2 0x11)) 16 = 2 ∧
    (let l : LinkSt := { trained := true, offer := some offer, confirmIn := true, linkOut := [linkFrame 1 0 ((training none).linkPayload 2 0x11)] }
     after .flitTransmit { training (some offer) with link := l } (fun t => t.linkIsUp && t.link.out.length == 1) = true) := by
  decide +kernel

/-! ### Requests -/

/-- Partition 0 serves: it exists with 1 GiB, a response ring, SRV and KVE enabled, a placement, and the host link is up. -/
def serving : State :=
  (regs [(R.HLK.STAT_LINK_UP, 0, 1), (R.HLK.STAT_VERSION, 0, 1), (R.HLK.STAT_FORMAT, 0, 1), (R.SECG.PART_STAT_EXISTS, 0, 1), (fieldEN .srv, 0, 1),
    (fieldEN .kve, 0, 1), (R.HLK.RSP_BASE, 1, memBase), (R.HLK.RSP_MIB, 1, 8), (R.SRV.VOCAB, 0, 16), (R.SRV.LIMIT, 0, 4),
    (R.SRV.RING_SIZE, 0, 65537)]).onPart 0 (fun q => { q with ranges := [(0, 0, 1)], active := some {} })

/-- The smallest REQUEST: one prompt token, one token wanted, temperature 0. -/
def req : List Byte :=
  frame 148 [(0, [1, 1, 0]), (8, [7]), (32, [1]), (36, [1]), (44, [0, 0, 0x80, 0x3F]), (48, [1]), (52, [0, 0, 0x80, 0x3F]), (144, [15])]

theorem test_takes_frames : serving.takesFrames 0 := by unfold State.takesFrames; decide +kernel
theorem test_mem_clean : MemClean serving ∧ MemClean State.reset := by unfold MemClean; decide +kernel
theorem test_request : serving.linkIsUp = true ∧ serving.rd R.HLK.STAT_FORMAT 0 = 1 ∧ req.length ≤ 4195472 ∧ byteAt req 2 = 0 ∧
  serving.refusal 1 req (ReqFrame.ofBytes req) = none ∧
    (ReqFrame.ofBytes req).q.deadline = 0 ∧ after (.request req) serving (fun t => (t.part 0).hampers.length == 1) = true := by decide +kernel
theorem test_request_refused : serving.refusal 1 (req.take 147) (ReqFrame.ofBytes (req.take 147)) = some stRejFormat ∧
    (serving.wr (fieldEN .srv) 0 0).refusal 1 req (ReqFrame.ofBytes req) = some stWrongState ∧
    (serving.wr R.SRV.LIMIT 0 0).refusal 1 req (ReqFrame.ofBytes req) = some stRejFull := by decide +kernel
/-- A frame longer than any REQUEST, for partition 0. -/
def longReq : List Byte := req ++ List.replicate 4195472 0
theorem test_request_long : 4195472 < longReq.length ∧ byteAt longReq 2 = 0 := by
  constructor
  · unfold longReq
    rw [List.length_append, List.length_replicate]
    have h : req.length = 148 := by decide +kernel
    omega
  · unfold longReq byteAt
    rw [List.getD_eq_getElem?_getD, List.getElem?_append_left (by decide +kernel)]
    decide +kernel

/-- A hamper in a state. -/
def hamperIn (st : Nat) : Hamper :=
  { q := (ReqFrame.ofBytes req).q, admSeq := 0, admTime := 0, state := st, promptLen := 1, prompt := [15], ringOff := none, generation := 0 }
/-- The serving module with one request, in slot 0. -/
def oneReq (st : Nat) : State := serving.onPart 0 (fun q => { q with hampers := [(0, hamperIn st)] })

theorem test_cancel_answers : byteAt (frame 16 [(0, [7])]) 8 = 0 ∧ zerosAt (frame 16 [(0, [7])]) 9 7 = true ∧
    (serving.part 0).hampers.find? (fun e => e.2.q.reqId == fieldLE (frame 16 [(0, [7])]) 0 8 && e.2.state != 4) = none ∧
    serving.en .srv 0 = true ∧ (serving.wr (fieldEN .srv) 0 0).en .srv 0 = false ∧ (frame 15 []).length ≠ 16 ∧
    (frame 15 []).length ≤ 16 ∧ byteAt (frame 15 []) 8 = 0 ∧ 16 < (frame 17 []).length ∧ byteAt (frame 17 []) 8 = 0 ∧
    after (.cancel (frame 17 [])) serving (fun t => t.rd R.HLK.DISCARD_CNT 0 == 1) = true := by decide +kernel
theorem test_cancel_ends : ((oneReq 1).part 0).hampers.find? (fun e => e.2.q.reqId == fieldLE (frame 16 [(0, [7])]) 0 8 && e.2.state != 4) =
      some (0, hamperIn 1) ∧ (oneReq 1).hamper 0 0 = some (hamperIn 1) ∧ (oneReq 1).seq 0 0 = none ∧ (oneReq 1).stepRuns 0 = false ∧
    (hamperIn 1).ringOff = none ∧ (hamperIn 1).cancels = 0 ∧ after (.cancel (frame 16 [(0, [7])])) (oneReq 1) (fun t =>
      (t.part 0).hampers.isEmpty && (t.part 0).resp.length == 2) = true := by
  decide +kernel

/-- The same with a running step that holds the request's entry. -/
def stepReq : State := (oneReq 2).onStep 0 (fun t => { t with
  phase := .running, entries := [{ slot := 0, first := 0, n := 1, prefill := true, sample := false, tokAddr := 0 }] })

theorem test_preempt : serving.hamper 0 (serving.rd R.SRV.PREEMPT_SLOT 0) = none ∧
    (oneReq 2).hamper 0 ((oneReq 2).rd R.SRV.PREEMPT_SLOT 0) = some (hamperIn 2) ∧ (hamperIn 2).preemptReq = false ∧ (hamperIn 2).state = 2 ∧
    (oneReq 2).stepRuns 0 = false ∧ stepReq.stepRuns 0 = true ∧ stepReq.hamper 0 (stepReq.rd R.SRV.PREEMPT_SLOT 0) = some (hamperIn 2) ∧
    (oneReq 2).seq 0 ((oneReq 2).rd R.SRV.PREEMPT_SLOT 0) = none := by decide +kernel
theorem test_end : (oneReq 4).hamper 0 ((oneReq 4).rd R.SRV.END_SLOT 0) = some (hamperIn 4) ∧
    (oneReq 2).hamper 0 ((oneReq 2).rd R.SRV.END_SLOT 0) = some (hamperIn 2) ∧ (hamperIn 2).endPend = false ∧
    stepReq.entryOf 0 (stepReq.rd R.SRV.END_SLOT 0) = some 0 ∧
    after (.srvEnd 0) (oneReq 2) (fun t => (t.part 0).hampers.isEmpty) = true := by decide +kernel
theorem test_flush : serving.en .kve 0 = true ∧ serving.unstepped 0 = true ∧ State.reset.en .kve 0 = false ∧
    (serving.onPart 0 (fun q => { q with stepped := true })).unstepped 0 = false := by decide +kernel
theorem test_deadline :
    let h := { hamperIn 1 with q := { (hamperIn 1).q with deadline := 5 } }
    let s : State := { serving.onPart 0 (fun q => { q with hampers := [(0, h)] }) with clk := { devTime := 5 } }
    s.stepRuns 0 = false ∧ (s.part 0).hampers = [(0, h)] ∧ h.q.deadline ≠ 0 ∧ h.q.deadline ≤ s.clk.devTime ∧ s.seq 0 0 = none ∧
      after (.deadlineCheck 0) s (fun t => (t.part 0).hampers.isEmpty && t.rd R.SRV.DEADLINE_CNT 0 == 1) = true := by decide +kernel

/-! ### Digital cores -/

/-- Group 63 of core 191 of hub 3. -/
def gLast : GroupRef := { hub := 3, core := 191, group := 63 }
/-- Group 0 of core 0 of hub 0. -/
def g0 : GroupRef := { hub := 0, core := 0, group := 0 }

/-- Partition 0 owns the first core set of hub 0 and the last of hub 3 and runs a step, with GiB 0 of hub 0; the group stands as given. -/
def coreSt (g : GroupRef) (r : Group) : State :=
  (part0.onPart 0 (fun q => { q with sets := [1, 0, 0, 2048], ranges := [(0, 0, 1)], step := { phase := .running } })).onGrp g (fun _ => r)

/-- A running group. -/
def run0 : Group := { running := true }
/-- A running group with scalar registers. -/
def runS (l : List (Nat × Nat)) : Group := { run0 with s := l.map (fun x => (x.1, { v := x.2 })) }

/-- The same state with a core instruction in its core's store where its group comes to it. -/
def atWord (i : Instr) (s : State) : State :=
  match coreWord i with
  | some (g, w) => s.onPart 0 (fun q => { q with setAct := { q.setAct with code := [(coreNo g, List.replicate (s.grp g).pc 0 ++ [w])] } })
  | none => s
/-- A group comes to its instruction and goes on to a next state of which a check holds. -/
def issues (i : Instr) (s : State) (b : State → Bool) : Bool := (atWord i s).comesTo i && after i (atWord i s) b

/-- Operands all scalar. -/
def vScalar : VFmt := { dsc := true, asc := true, bsc := true, csc := true }

theorem test_can_issue : (coreSt g0 run0).canIssue g0 = some 0 ∧ (coreSt gLast run0).canIssue gLast = some 0 := by decide +kernel
-- the words that R193 works out for FFMA under p2 and for MMA
theorem test_core_words : coreWord (.coreFfma g0 { pr := 2, d := 4, a := 1, b := 2, c := 3, pd := 0 }) = some (g0, 0x0000000188240222) ∧
    coreWord (.coreMma g0 { ty := 2, at_ := 5, sa := 2, sb := 3, ssa := 4, ssb := 5, usa := true, usb := true }) = some (g0, 0x0000006A86452800) := by
  decide +kernel
-- what R180 asks of a group: each instruction of the arithmetic statements, come to at the 6th word
theorem test_comes_to_arithmetic :
    ([Instr.coreIadd, .coreIsub, .coreImul, .coreImad, .coreAnd, .coreOr, .coreXor, .coreShl, .coreShr, .coreSar, .coreImin, .coreImax, .coreMov,
      .coreFadd, .coreFmul, .coreFfma, .coreFmin, .coreFmax, .coreFex2, .coreFlg2, .coreFrcp, .coreFrsq].all (fun mk =>
        (atWord (mk g0 {}) (coreSt g0 { run0 with pc := 5 })).comesTo (mk g0 {}) &&
          (atWord (mk g0 {}) (coreSt g0 { run0 with pc := 5 })).canIssue g0 == some 0 &&
          !(coreSt g0 { run0 with pc := 5 }).comesTo (mk g0 {}))) = true := by decide +kernel
theorem test_int_forms : vOkInt {} 2 = true ∧ vOkInt {} 3 = true ∧ vOkInt {} 1 = true ∧ vOkInt vScalar 3 = true ∧ vAllScalar vScalar 3 = true ∧
    vOkInt { dsc := true, ty := 3 } 2 = true ∧ vAllScalar { dsc := true, ty := 3 } 2 = false := by decide +kernel
theorem test_fp_forms : vOkFp {} 2 = true ∧ vOkFp { ty := 1 } 3 = true ∧ vOkFp {} 1 = true ∧ vOkFp vScalar 3 = true ∧
    vOkFp { dsc := true } 2 = true ∧ vAllScalar { dsc := true } 2 = false := by decide +kernel
theorem test_iadd_wraps : issues (.coreIadd gLast { vScalar with d := 15, a := 1, b := 2 }) (coreSt gLast (runS [(1, 2 ^ 32 - 1), (2, 2)]))
    (fun t => ((t.grp gLast).sreg 15).v == 1) = true := by decide +kernel
theorem test_fadd : issues (.coreFadd g0 { vScalar with d := 15, a := 1, b := 2 }) (coreSt g0 (runS [(1, 0x3F800000), (2, 0x40000000)]))
    (fun t => ((t.grp g0).sreg 15).v == 0x40400000) = true := by decide +kernel

theorem test_comes_to_moves :
    ([Instr.coreIcmp g0 { pd := 1 }, .coreFcmp g0 { pd := 1 }, .coreSel g0 {}, .coreLaneid g0 {}, .coreShfl g0 {}, .coreMovi g0 {}, .coreIaddi g0 {},
      .coreFred g0 {}, .coreFrmax g0 {}, .coreFcvt g0 {}, .coreQblk g0 { ty := 2 }, .coreQarr g0 { ty := 7 }].all (fun i =>
        (atWord i (coreSt g0 run0)).comesTo i && (atWord i (coreSt g0 run0)).canIssue g0 == some 0)) = true := by decide +kernel
theorem test_compares : (0 : Fin 16).val < 2 ∧ vOkP { c := 6, pd := 7 } = true ∧ vOkP { c := 0, ty := 1 } = true ∧
    issues (.coreIcmp g0 { c := 2, pd := 7, a := 1, b := 2, asc := true, bsc := true }) (coreSt g0 (runS [(1, 0xFFFFFFFF)]))
      (fun t => (t.grp g0).preg 7 == 0xFFFFFFFF) = true ∧
    issues (.coreIcmp g0 { c := 2, pd := 7, a := 1, b := 2, asc := true, bsc := true, ty := 1 }) (coreSt g0 (runS [(1, 0xFFFFFFFF)]))
      (fun t => (t.grp g0).preg 7 == 0) = true := by decide +kernel
theorem test_move_forms : vOkInt { c := 7 } 2 = true ∧ vOkInt { dsc := true } 2 = true ∧ vOkInt {} 0 = true ∧ vOkInt { dsc := true } 0 = true ∧
    vOkInt { dsc := true, bsc := true } 2 = true ∧ iOk {} false = true ∧ iOk { dsc := true } false = true ∧ iOk {} true = true ∧
    iOk { dsc := true, asc := true } true = true ∧ iOk { dsc := true } true = true := by decide +kernel
theorem test_laneid : issues (.coreLaneid g0 { d := 31 }) (coreSt g0 run0) (fun t => ((t.grp g0).vreg 31 31).v == 31) = true := by decide +kernel
theorem test_reduction_forms : vOkFp { ty := 1 } 1 = true ∧ vOkFp { dsc := true } 1 = true ∧ (9 : Fin 16).val < 10 ∧ (9 : Fin 32).val % 16 < 10 ∧
    vOk { ty := 9, c := 9 } 1 = true ∧ vOk { dsc := true, asc := true, ty := 9, c := 9 } 1 = true ∧ vOk { dsc := true, ty := 9, c := 9 } 1 = true ∧
    cvtCode 0 1 0x3F800000 = some 0x3F80 ∧ cvtCode 0 2 0xFFC00000 = some 0xFF := by decide +kernel
theorem test_quantization_forms : fmtBlock 2 = true ∧ fmtBlock 9 = true ∧ selOk true 15 = true ∧ selOk false 31 = true ∧ srefOk 0x28 = true ∧
    srefOk 0xF8 = true ∧ (30 : Fin 32).val < 31 := by decide +kernel
theorem test_fred : issues (.coreFred g0 { dsc := true, d := 0, a := 5, asc := true }) (coreSt g0 (runS [(5, 0x3F800000)]))
    (fun t => ((t.grp g0).sreg 0).v == 0x42000000) = true := by decide +kernel

theorem test_comes_to_scratch :
    ([Instr.coreLds g0 {}, .coreSts g0 {}, .coreAadd g0 {}, .coreXld g0 {}, .coreXst g0 {}, .coreXcp g0 {}, .coreXgth g0 {}, .coreAppend g0 {},
      .coreFetch g0 {}, .coreQend g0 {}, .coreWait g0 {}, .coreAz g0 {}, .coreAld g0 {}, .coreAst g0 {}, .coreMma g0 {}].all (fun i =>
        (atWord i (coreSt g0 run0)).comesTo i && (atWord i (coreSt g0 run0)).canIssue g0 == some 0)) = true := by decide +kernel
theorem test_scratch_completes : aaddOk {} = true ∧ aaddOk { ty := 2 } = false ∧
    issues (.coreLds g0 { pr := 1, asc := true, d := 3 }) (coreSt g0 { runS [(0, 16)] with p := [(1, 1)] }) (fun t => (t.grp g0).pc == 1) = true ∧
    issues (.coreAadd g0 { pr := 1, asc := true, d := 3 })
      (coreSt g0 { runS [(0, 16)] with p := [(1, 1)], v := [(96, { v := 5 })] }) (fun t => (t.core 0).rd 16 4 == [5, 0, 0, 0]) = true := by
  decide +kernel
theorem test_scratch_forms : sOk {} = true ∧ lanesAccess run0 { asc := true } 4 ∧ lanesAccess (runS [(0, scratchBytes - 4)]) { asc := true } 4 := by
  unfold lanesAccess; decide +kernel
theorem test_lanes_apart : lanesApart { run0 with p := [(1, 1)] } { pr := 1, asc := true } 4 := by
  have h : ∀ i, i < 32 → ∀ j, j < 32 → i ≠ j → ({ run0 with p := [(1, 1)] } : Group).active ({ pr := 1 } : SFmt).toCommon i = true →
      ({ run0 with p := [(1, 1)] } : Group).active ({ pr := 1 } : SFmt).toCommon j ≠ true := by decide +kernel
  exact fun i j hi hj hne ha hb => absurd hb (h i hi j hj hne ha)
theorem test_scratch_faults : (run0.addrOf {} 0).o = 0 ∧ scratchBytes < ((runS [(0, scratchBytes - 3)]).addrOf { asc := true } 0).v + accBytes {} ∧
    accFault ((runS [(0, 8)]).addrOf { asc := true } 0) 16 = some 2 ∧ (run0.active ({} : SFmt).toCommon 0) = true ∧
      (({ run0 with s := [(0, { o := 1 })] } : Group).addrOf { asc := true } 0).o ≠ 0 := by decide +kernel
theorem test_sts : issues (.coreSts g0 { pr := 1, asc := true, d := 3 })
    (coreSt g0 { runS [(0, 16)] with p := [(1, 1)], v := [(96, { v := 0x01020304 })] })
    (fun t => (t.core 0).rd 16 5 == [4, 3, 2, 1, 0]) = true := by decide +kernel

/-- A group whose s0 is a scratch address, s1 a memory address and s2 a length. -/
def moves (mem len : Nat) : Group := runS [(0, scratchBytes - 64), (1, mem), (2, len)]

/-- The operands of a transfer: s0, s1, s2, with token 15. -/
def mf : MFmt := { sa := 0, sm := 1, sl := 2, tok := 15, plan := 255, sx := 3 }

theorem test_pending_token : (coreSt g0 { run0 with toks := 0x8000 }).tokPending g0 15 = true ∧ (coreSt g0 run0).tokPending g0 15 = false ∧
    Common.plain mf.toCommon = true := by decide +kernel
theorem test_transfers : ((moves memBase 64).sreg 0).o = 0 ∧ ((moves memBase 64).sreg 0).v < scratchBytes ∧
    ((moves memBase 64).sreg 0).v + ((moves memBase 64).sreg 2).v ≤ scratchBytes ∧ memBase % 64 = 0 ∧
    (coreSt g0 (moves memBase 64)).xferMemOk 0 g0 255 memBase 64 = true := by decide +kernel
theorem test_copy : (0 : Nat).testBit 63 = false ∧ bits 0 0 20 + 64 ≤ scratchBytes ∧ bits 0 40 8 < 192 ∧
    (coreSt g0 (moves 0 64)).partOfCore 0 (bits 0 40 8) = some 0 := by decide +kernel
theorem test_gather :
    let s := coreSt g0 (moves memBase (64 + 2 ^ 32))
    let len := ((s.grp g0).sreg 2).v
    bits len 32 16 = 1 ∧ bits len 0 24 = 64 ∧ ((s.grp g0).sreg 0).v + 1 * 64 ≤ scratchBytes ∧ ((s.grp g0).sreg 3).v + 4 * 1 ≤ scratchBytes ∧
      (s.core 0).poi ((s.grp g0).sreg 3).v 4 = 0 ∧
      s.xferMemOk 0 g0 255 (memBase + leNat ((s.core 0).rd (((s.grp g0).sreg 3).v + 4 * 0) 4) * 64) 64 = true := by decide +kernel
theorem test_kvop : (0x0301 : Word).toNat < 65536 ∧ (0x0301 : Word).toNat % 256 = 1 ∧ (0x0302 : Word).toNat % 256 = 2 ∧
    (0x0303 : Word).toNat % 256 = 3 ∧ ((moves 0 0).sreg 0).v < scratchBytes ∧
      ((moves 0 0).sreg 0).v + bits 0 24 16 * (coreSt g0 run0).kvPlb 0 ≤ scratchBytes ∧
    ((runS []).sreg 0).v + (64 * (coreSt g0 run0).kvPlb 0 + 8 * bits 0 48 8) ≤ scratchBytes ∧
    (∀ k ∈ [XferKind.append 0 0 0 0, .fetch 0 0 (some 0) 0 0, .qend 0 0 0 0],
      (coreSt g0 run0).xferBursts { src := g0, tok := 0, plan := 3, kind := k, scr := 0, mem := 0, len := 0, part := 0 } = []) := by decide +kernel

/-- A queued transfer of 64 bytes. -/
def xfer (k : XferKind) : Xfer := { src := g0, tok := 15, plan := 0, kind := k, scr := 0, mem := memBase, len := 64, part := 0 }

theorem test_complete :
    let s (l : List Nat) := (coreSt g0 { run0 with toks := 0x8000 }).onCore 0 (fun c => { c with xfers := [{ xfer .store with moved := l }] })
    ((s [0]).core (coreNo g0)).xfers = { xfer .store with moved := [0] } :: [] ∧ (xfer .store).src = g0 ∧ (xfer .store).tok = (15 : Fin 16).val ∧
      (s []).xferLeft (xfer .store) ≠ [] ∧ (s [0]).xferLeft { xfer .store with moved := [0] } = [] ∧
      after (.transferComplete g0 15) (s []) (fun t => (t.grp g0).toks == 0x8000) = true ∧
      after (.transferComplete g0 15) (s [0]) (fun t => (t.grp g0).toks == 0 && (t.core 0).xfers.isEmpty) = true := by decide +kernel
theorem test_complete_nothing : ((coreSt g0 run0).core (coreNo g0)).xfers = [] := by decide +kernel

theorem test_tensor_forms : Common.plain ({} : TFmt).toCommon = true ∧ ((runS [(0, scratchBytes - 2048)]).sreg 0).v + 2048 ≤ scratchBytes ∧
    ((runS [(0, scratchBytes - 2048)]).sreg 0).v % 64 = 0 ∧ mmaFault run0 { ty := 7 } = none ∧ mmaFault run0 { ty := 9, usa := true } = none ∧
    mmaFault run0 { ty := 1 } = none ∧ mmaFault run0 { ty := 6, usa := true, usb := true } = none := by decide +kernel
theorem test_comes_to_control :
    ([Instr.coreBr g0 {}, .coreLoop g0 {}, .coreCall g0 {}, .coreRet g0 {}, .coreEnd g0 {}, .coreBar g0 {}, .coreSig g0 {}, .coreWev g0 {}, .coreWpt g0 {},
      .coreAcall g0 {}, .coreTopk g0 {}, .coreEput g0 {}].all (fun i =>
        (atWord i (coreSt g0 run0)).comesTo i && (atWord i (coreSt g0 run0)).canIssue g0 == some 0)) = true := by decide +kernel
-- R180: a group does not issue an instruction that its program counter does not name
theorem test_out_of_order : vOkInt {} 2 = true ∧ (atWord (.coreEnd g0 {}) (coreSt g0 run0)).comesTo (.coreIadd g0 {}) = false ∧
    after (.coreIadd g0 {}) (atWord (.coreEnd g0 {}) (coreSt g0 run0)) (fun t => (t.grp g0).pc == 0) = true := by decide +kernel
theorem test_branch_forms : (coreSt g0 run0).brOk g0 { tgt := 16383 } = true ∧ (coreSt g0 run0).brOk g0 {} = true ∧
    (∀ i, i < 32 → run0.predPoi ({} : BFmt).toCommon i = 0) ∧ (2 : Fin 4).val < 3 ∧ ((runS [(0, 1)]).sreg 0).o = 0 ∧ (15 : Fin 32).val < 16 ∧
    ({ run0 with pp := [(32, 1)] } : Group).predPoi ({ pr := 1 } : BFmt).toCommon 0 ≠ 0 := by decide +kernel
theorem test_calls : run0.active ({} : BFmt).toCommon 0 = true ∧ (∀ i, i < 32 → run0.active ({ pr := 1 } : BFmt).toCommon i = false) ∧
    issues (.coreCall g0 { pr := 1, tgt := 7 }) (coreSt g0 run0) (fun t => (t.grp g0).pc == 1 && (t.grp g0).ret == []) = true ∧
      run0.ret.length < 8 ∧ 8 ≤ (List.replicate 8 0).length ∧ ({ run0 with ret := [5] } : Group).ret = 5 :: [] ∧ run0.ret = [] := by
  decide +kernel
theorem test_loop : issues (.coreLoop g0 { sc := 3, tgt := 16383 }) (coreSt g0 (runS [(3, 2)])) (fun t => (t.grp g0).pc == 16383) = true ∧
    issues (.coreLoop g0 { sc := 3, tgt := 16383 }) (coreSt g0 (runS [(3, 1)])) (fun t => (t.grp g0).pc == 1) = true := by decide +kernel

theorem test_bar : 1 ≤ (0x0100 : Word).toNat / 256 % 128 ∧ (0x4000 : Word).toNat / 256 % 128 = 64 ∧
    (0x0100 : Word).toNat / 256 % 128 ≤ AMap.getD ((coreSt g0 run0).core (coreNo g0)).bars 0 0 + 1 ∧
    AMap.getD ((coreSt g0 run0).core (coreNo g0)).bars 0 0 + 1 < (0x4000 : Word).toNat / 256 % 128 := by decide +kernel
theorem test_wev : ((coreSt g0 run0).grp g0).sreg 0 = {} := by decide +kernel
theorem test_wpt :
    let s := (coreSt g0 { run0 with saved := true })
    let u := s.onGrp gLast (fun _ => { run0 with saved := true })
    (s.core (coreNo g0)).groups = [(0, { run0 with saved := true })] ∧ (s.grp g0).saved = true ∧
      (∀ c ∈ s.ownCores 0, c ≠ coreNo g0 → ∀ e ∈ (s.core c).groups, e.2.saved = true → e.2.wait = .waypoint 7) ∧
      gLast ≠ g0 ∧ u.partOfCore 3 191 = some 0 ∧ (u.grp gLast).saved = true ∧ (u.grp gLast).wait ≠ .waypoint 7 := by decide +kernel
theorem test_sig_wakes :
    let s := coreSt g0 { run0 with wait := .event 255 1 }
    (0x1FF : Word).toNat / 256 % 16 = 1 ∧ s.partOfCore 0 0 = some 0 ∧ (s.grp g0).wait = .event 255 1 ∧ 1 ≤ (0 + 1) % 2 ^ 32 := by decide +kernel

/-- A chain of one descriptor on stack 0, that collects on hub 0 and writes tensor 0. -/
def chain0 : ChainRec :=
  { descFirst := 0, descCount := 0, stack := 0, flags := 0, cadence := 8, sref := 0x78, rung := 0, fused := 0, outFmt := 0, collHub := 0
    chain := 0, layer := 0, expert := 0, matrix := 0, colblk := 0, outTensor := 0, opndTensor := 0xFFFF, consChain := 0xFFFF, digTensor := 0 }
/-- A tensor of one row and 2,048 columns. -/
def tensor0 (fmt : Nat) : TensorRec := { base := memBase, scaleBase := memBase + 65536, fmt := fmt, rows := 1, cols := 2048, stride := 8192 }
/-- A call record: SRC 1, K 1 and n inputs. -/
def topk0 (n : Nat) : List Byte := frame 48 [(0, [n]), (4, [1, 0, 1]), (8, [64, 0, 0, 0, 0, 1]), (32, [0, 0, 0, 0, 0, 1])]

/-- A set with them, and partition 0 with stack 0. -/
def unitSt (r : Group) : State :=
  (coreSt g0 r).onPart 0 (fun q => { q with stks := 1, setAct := { q.setAct with chains := [chain0], tensors := [tensor0 7], topk := [topk0 0, topk0 1] } })

theorem test_acall :
    let s := unitSt (runS [(3, 1)])
    s.chainRec 0 0 = some chain0 ∧ s.tensorRec 0 0 = some (tensor0 7) ∧ s.owns 0 0 = true ∧ s.acallWide 0 chain0 (tensor0 7) = true ∧
      bits ((s.grp g0).sreg 3).v 0 16 = 1 ∧ s.chainRec 0 1 = none := by decide +kernel
theorem test_topk_call :
    let s := unitSt (runS [(1, 1)])
    (1 : Word).toNat.testBit 0 = true ∧ (s.part 0).setAct.topk[((s.grp g0).sreg 0).v]? = some (topk0 0) ∧ (TopkRec.ofBytes (topk0 0)).bad = true ∧
      s.inPart 0 (TopkRec.ofBytes (topk0 0)).outAddr 16 = true ∧ (s.part 0).setAct.topk[((s.grp g0).sreg 1).v]? = some (topk0 1) ∧
      (TopkRec.ofBytes (topk0 1)).bad = false ∧ s.topkAreasOk 0 (TopkRec.ofBytes (topk0 1)) = true := by decide +kernel

/-- A value of chain 0, row 0, that waits at hub 0 for the digital rung. -/
def asked : ChainVal := { part := 0, chain := 0, row := 0, job := 1, rung := 0, vals := [], flags := [], tensor := 0, asked := true }

theorem test_eput :
    let s := (unitSt (runS [(3, scratchBytes - 8192)])).onHub 0 (fun u => { u with vals := [asked] })
    s.chainRec 0 0 = some chain0 ∧ s.tensorRec 0 chain0.outTensor = some (tensor0 7) ∧ (tensor0 7).cols ≤ 2048 ∧
      ((s.grp g0).sreg 3).v < scratchBytes ∧ ((s.grp g0).sreg 3).v + 4 * (tensor0 7).cols ≤ scratchBytes ∧
      (s.hub chain0.collHub).vals.find? (fun v => v.part == 0 && v.chain == 0 && v.row == ((s.grp g0).sreg 2).v && v.asked) = some asked := by
  decide +kernel

theorem test_core_fault : (coreSt g0 run0).rd R.DCR.FAULT_INFO_CAUSE 0 = 0 ∧ ((coreSt g0 run0).part 0).step.coreFaults = 0 ∧
    ((coreSt g0 run0).part 0).step.phase = .running ∧ ((coreSt g0 run0).part 0).step.halted = false ∧
    ((coreSt g0 run0).wr R.DCR.FAULT_INFO_CAUSE 0 7).rd R.DCR.FAULT_INFO_CAUSE 0 ≠ 0 ∧
    (((coreSt g0 run0).onStep 0 (fun t => { t with coreFaults := 1 })).part 0).step.coreFaults ≠ 0 ∧
    State.reset.canIssue g0 = none := by decide +kernel
theorem test_step_timeout :
    let s := (coreSt g0 run0).wr R.DCR.STEP_TMO 0 3
    (s.part 0).step.phase = .running ∧ (s.part 0).step.halted = false ∧ s.rd R.DCR.FAULT_INFO_CAUSE 0 = 0 ∧
      (s.part 0).step.started + 1000000 * s.rd R.DCR.STEP_TMO 0 = 3000000 ∧ (atTime 3000000 s).stepLate 0 = true ∧
      after (.stepTimeout 0) (atTime 2999999 s) (fun t => t.rd R.DCR.FAULT_INFO_CAUSE 0 == 0) = true := by decide +kernel

/-! ### The fabric -/

/-- Partition 0 as a span partition with tag 7: size, position, and further fields. -/
def span (size pos : Nat) (l : List (Field × Nat × Nat)) : State :=
  regs ([(R.SECG.PART_STAT_EXISTS, 0, 1), (R.GLB.SPAN_CTL_SPAN_EN, 0, 1), (R.GLB.SPAN_CTL_SIZE, 0, size), (R.GLB.SPAN_CTL_POSITION, 0, pos),
    (R.FABS.PART_TAG0, 0, 7)] ++ l)
/-- A ROLL flit of tag 7 from a member to another, with a code. -/
def roll (code src dst : Nat) : List Byte := sealFlit 0 0 (mkFlit ftRoll 0 7 dst src 0 0 0 code [])

theorem crcBit_lt {c : Nat} (h : c < 2 ^ 32) : crcBit c < 2 ^ 32 := by
  unfold crcBit; split
  · exact Nat.xor_lt_two_pow (by omega) (by decide)
  · omega
theorem crcStep_lt {c : Nat} (b : Byte) (h : c < 2 ^ 32) : crcStep c b < 2 ^ 32 := by
  have hb : b.toNat < 2 ^ 32 := Nat.lt_trans b.isLt (by decide)
  exact crcBit_lt (crcBit_lt (crcBit_lt (crcBit_lt (crcBit_lt (crcBit_lt (crcBit_lt (crcBit_lt (Nat.xor_lt_two_pow h hb))))))))
theorem crc32c_lt (m : List Byte) : crc32c m < 2 ^ 32 := by
  have go : ∀ (l : List Byte) (c : Nat), c < 2 ^ 32 → l.foldl crcStep c < 2 ^ 32 := by
    intro l; induction l with
    | nil => intro c h; exact h
    | cons b t ih => intro c h; exact ih _ (crcStep_lt b h)
  exact Nat.xor_lt_two_pow (go m _ (by decide)) (by decide)
theorem leBytes_length (n v : Nat) : (leBytes n v).length = n := by
  induction n generalizing v with
  | zero => rfl
  | succ n ih => simp [leBytes, ih]
theorem leNat_leBytes (n v : Nat) (h : v < 256 ^ n) : leNat (leBytes n v) = v := by
  induction n generalizing v with
  | zero => simp [leBytes, leNat]; omega
  | succ n ih =>
    simp only [leBytes, leNat, BitVec.toNat_ofNat]
    rw [ih (v / 256) (Nat.div_lt_of_lt_mul (by rw [Nat.pow_succ] at h; omega))]; omega
/-- A sealed flit is whole: its last bytes are the CRC of the others. -/
theorem sealFlit_ok {f : List Byte} (a b : Nat) (h : f.length = 284) : flitOk (sealFlit a b f) = true := by
  have hl : (f.take 8 ++ leBytes 2 a ++ leBytes 2 b ++ (f.drop 12).take 272).length = 284 := by simp [leBytes_length]; omega
  unfold flitOk sealFlit fieldLE
  simp only [Bool.and_eq_true, beq_iff_eq]
  refine ⟨by simp only [List.length_append, hl, leBytes_length], ?_⟩
  rw [List.drop_left' hl, List.take_left' hl, List.take_of_length_le (by simp [leBytes_length]), leNat_leBytes _ _ (crc32c_lt _)]

theorem mkFlit_length (t f g d s n v a e : Nat) (l : List Byte) : (mkFlit t f g d s n v a e l).length = 284 := by
  simp [mkFlit, leBytes_length, padTo]; omega
theorem roll_ok (code src dst : Nat) : flitOk (roll code src dst) = true := sealFlit_ok 0 0 (mkFlit_length ..)

/-- The span partition of a member at a position, port 0 up in fabric mode. -/
def member (size pos : Nat) (l : List (Field × Nat × Nat)) : State :=
  span size pos ([(R.FAB.STAT_LINK_UP, 0, 1), (R.FAB.PORT_CFG_MODE, 0, 1), (R.GLBG.STRAP_POSITION, 0, pos)] ++ l)
/-- What the roll call asks of a flit on port 0, but for its check sequence. -/
def rollFits (s : State) (code : Nat) (f : List Byte) : Bool :=
  s.portUp 0 1 && flitType f == ftRoll && fieldLE f 8 2 == (s.port 0).rxNext && (s.port 0).replay == [] &&
    byteAt f 4 == s.rd R.GLBG.STRAP_POSITION 0 && s.flitPart f == some 0 && fieldLE f 24 4 == code
theorem rollTaken_of {s : State} {code c src dst : Nat} (h : rollFits s code (roll c src dst) = true) : rollTaken 0 code ⟨0, roll c src dst⟩ s := by
  simp only [rollFits, Bool.and_eq_true, beq_iff_eq] at h
  obtain ⟨⟨⟨⟨⟨⟨h1, h2⟩, h3⟩, h4⟩, h5⟩, h6⟩, h7⟩ := h
  exact ⟨h1, roll_ok c src dst, h2, h3, h4, h5, h6, h7⟩

theorem test_roll_ready : rollTaken 0 rcReady ⟨0, roll 1 1 0⟩ (member 2 0 []) := rollTaken_of (by decide +kernel)
theorem test_roll_last : (member 2 0 []).spanPos 0 = 0 ∧
    ((member 2 0 []).part 0).roll.ready.length + 1 ≠ (member 2 0 []).spanSize 0 ∧
    (let s := (member 2 0 []).onRoll 0 (fun r => { r with ready := [(0, 5)] })
     rollFits s rcReady (roll 1 1 0) = true ∧ (∀ x ∈ (s.part 0).roll.ready, x.1 ≠ byteAt (roll 1 1 0) 5) ∧
      (s.part 0).roll.ready.length + 1 = s.spanSize 0 ∧ s.is R.GLB.SPAN_CTL_BAL_EN 0 = false) := by decide +kernel
theorem test_roll_up : rollTaken 0 rcReady ⟨0, roll 1 0 31⟩ (member 32 31 []) := rollTaken_of (by decide +kernel)
theorem test_roll_no_route : (member 32 31 []).spanPos 0 ≠ 0 ∧
    (member 32 31 []).routeUp (rollParent 31) = false := by decide +kernel
theorem test_roll_go : rollTaken 0 rcGo ⟨0, roll 2 0 1⟩ (member 2 1 [(R.GLB.STAT_ROLL_WAIT, 0, 1)]) ∧
    (member 2 1 [(R.GLB.STAT_ROLL_WAIT, 0, 1)]).is R.GLB.STAT_ROLL_WAIT 0 = true := ⟨rollTaken_of (by decide +kernel), by decide +kernel⟩
theorem test_roll_abort : rollTaken 0 rcAbort ⟨0, roll 3 0 1⟩ (member 2 1 []) := rollTaken_of (by decide +kernel)
theorem test_roll_missing : (span 2 0 [(R.GLB.STAT_ROLL_WAIT, 0, 1)]).isSpan 0 = true ∧
    (span 2 0 [(R.GLB.STAT_ROLL_WAIT, 0, 1)]).spanPos 0 = 0 ∧
    (let s := span 2 0 [(R.GLB.STAT_ROLL_WAIT, 0, 1), (R.GLB.ROLL_TMO, 0, 1)]
     s.is R.GLB.STAT_ROLL_WAIT 0 = true ∧ (s.part 0).roll.since + 1000000 * s.rd R.GLB.ROLL_TMO 0 = 1000000 ∧
       (atTime 1000000 s).rollOver 0 1 = true ∧ (atTime 999999 s).rollOver 0 1 = false ∧ (atTime 2000000 s).rollOver 0 2 = true ∧
       (atTime 1999999 s).rollOver 0 2 = false) := by decide +kernel
theorem test_roll_retry : (span 2 0 []).partExists 0 = true ∧ (span 2 0 []).is R.GLB.STAT_ROLL_WAIT 0 = false ∧
    ((span 2 0 []).part 0).roll.delay = false ∧
    (((span 2 0 []).onRoll 0 (fun r => { r with delay := true })).part 0).roll.delay = true := by decide +kernel
theorem test_roll_replay :
    let s := (member 2 1 []).onStep 0 (fun t => { t with phase := .running })
    rollTaken 0 rcReplay ⟨0, roll 4 0 1⟩ s ∧ s.beforeCut 0 = true ∧ (s.part 0).roll.replayed = false :=
  ⟨rollTaken_of (by decide +kernel), by decide +kernel, by decide +kernel⟩
theorem test_delay_end :
    let s := (span 2 1 []).onRoll 0 (fun r => { r with delay := true })
    (s.part 0).roll.delay = true ∧ (s.part 0).roll.moves = [] ∧ ((span 2 1 []).part 0).roll.delay = false := by decide +kernel
/-- A READY flit of the next number but one, and one of a tag that no partition has. -/
def oddRolls : List (List Byte) :=
  [sealFlit 1 0 (mkFlit ftRoll 0 7 0 1 0 0 0 1 []), sealFlit 0 0 (mkFlit ftRoll 0 8 0 1 0 0 0 1 [])]
theorem test_odd_rolls :
    let s := member 2 0 []
    (span 2 0 []).portUp 0 1 = false ∧ s.portUp 0 1 = true ∧ (∀ f ∈ oddRolls, flitType f = ftRoll ∧ flitOk f = true) ∧
      fieldLE (oddRolls[0]!) 8 2 ≠ (s.port 0).rxNext ∧ fieldLE (oddRolls[1]!) 8 2 = (s.port 0).rxNext ∧
      byteAt (oddRolls[1]!) 4 = s.rd R.GLBG.STRAP_POSITION 0 ∧ s.flitPart (oddRolls[1]!) = none := by
  refine ⟨by decide +kernel, by decide +kernel, ?_, by decide +kernel, by decide +kernel, by decide +kernel, by decide +kernel⟩
  intro f hf
  simp only [oddRolls, List.mem_cons, List.not_mem_nil, or_false] at hf
  obtain rfl | rfl := hf
  · exact ⟨by decide +kernel, sealFlit_ok 1 0 (mkFlit_length ..)⟩
  · exact ⟨by decide +kernel, sealFlit_ok 0 0 (mkFlit_length ..)⟩

theorem test_port_trained :
    let s := regs [(fieldEN .fab, 15, 1)]
    let f := regs [(fieldEN .fab, 15, 1), (R.FAB.PORT_CFG_MODE, 15, 1), (R.FAB.PORT_CFG_VERSIONS, 15, 7)]
    s.en .fab 15 = true ∧ s.is R.FAB.STAT_LINK_UP 15 = false ∧ s.inDoze = false ∧ s.pwr.move ≠ 1 ∧ s.clk.refOn = true ∧
      s.rd R.FAB.PORT_CFG_MODE 15 = 0 ∧ f.rd R.FAB.PORT_CFG_MODE 15 ≠ 0 ∧
        topVersion (byteAt (bytes [7, 3]) 0 &&& f.rd R.FAB.PORT_CFG_VERSIONS 15) = 3 ∧
      topVersion (byteAt (bytes [0]) 0 &&& f.rd R.FAB.PORT_CFG_VERSIONS 15) = 0 ∧
      after (.portTrained 15 (bytes [7, 3]) 300) f (fun t => t.rd R.FAB.STAT_VERSION 15 == 3 && t.is R.FAB.STAT_LINK_UP 15) = true ∧
      after (.portTrained 15 (bytes [7, 3]) 301) f (fun t =>
        t.is R.FAB.EVT_VERSION_FAIL 15 && !t.is R.FAB.STAT_LINK_UP 15) = true := by decide +kernel

/-- Port 0 up in fabric mode, with replay buffer and resends. -/
def fabric (q : List (List Byte)) (n : Nat) (l : List (Field × Nat × Nat)) : State :=
  (span 2 0 ([(R.FAB.STAT_LINK_UP, 0, 1), (R.FAB.PORT_CFG_MODE, 0, 1)] ++ l)).onPort 0 (fun p => { p with replay := q, resends := n })

theorem test_port_down : (fabric [] 0 []).is R.FAB.STAT_LINK_UP 0 = true ∧
    (∀ f ∈ ((fabric [[]] 8 []).port 0).replay ++ ((fabric [[]] 8 []).port 0).wait, (fabric [[]] 8 []).writerOf f = none) ∧
    (∃ r ∈ ((fabric [] 0 []).onRoute 1 (fun r => { r with valid := true })).fab.routes, r.2.valid = true ∧ r.2.port = 0) :=
  ⟨by decide +kernel, by decide +kernel, (1, { valid := true }), by decide +kernel⟩
theorem test_ack_timeout : ((fabric [[]] 7 []).port 0).replay ≠ [] ∧ ((fabric [[]] 7 []).port 0).resends < 8 ∧
    8 ≤ ((fabric [[]] 8 []).port 0).resends ∧ ((fabric [[]] 7 []).port 0).since + 2000 = 2000 ∧ (atTime 2000 (fabric [[]] 7 [])).clk.devTime = 2000 ∧
    ((atTime 2000 (fabric [[]] 7 [])).port 0).replay ≠ [] := by decide +kernel
/-- A LINK flit with a payload. -/
def linkFlit (payload : List Byte) : List Byte := sealFlit 9 0 (mkFlit ftLink 0 0 0 0 payload.length 0 0 0 payload)
theorem linkFlit_ok (l : List Byte) : flitOk (linkFlit l) = true := sealFlit_ok 9 0 (mkFlit_length ..)
/-- A measuring flit of member 1 for a member. -/
def measuring (dest : Nat) : List Byte := sealFlit 9 0 (measuringFlit dest 1 0 (leBytes 8 5))
theorem measuring_ok (d : Nat) : flitOk (measuring d) = true := sealFlit_ok 9 0 (mkFlit_length ..)
/-- A LINK flit with a reserved FLAGS bit. -/
def oddLink : List Byte := sealFlit 9 0 (mkFlit ftLink 4 0 0 0 0 0 0 0 [])
theorem test_odd_link : flitOk oddLink = true ∧ flitType oddLink = ftLink ∧ flitReserved oddLink = true :=
  ⟨sealFlit_ok 9 0 (mkFlit_length ..), by decide +kernel, by decide +kernel⟩
theorem test_link_flit :
    let s := (fabric [] 0 []).onRoute 1 (fun r => { r with valid := true })
    (fabric [] 0 []).portUp 0 1 = true ∧ ((fabric [] 0 []).port 0).replay = [] ∧
    flitType (linkFlit []) = ftLink ∧ flitReserved (linkFlit []) = false ∧ fieldLE (linkFlit []) 6 2 = 0 ∧
    flitType (measuring 0) = ftLink ∧ flitReserved (measuring 0) = false ∧ fieldLE (measuring 0) 6 2 ≠ 0 ∧
    byteAt (measuring 0) 4 = s.rd R.GLBG.STRAP_POSITION 0 ∧ fieldLE (measuring 0) 24 4 = 0 ∧
    byteAt (measuring 1) 4 ≠ s.rd R.GLBG.STRAP_POSITION 0 ∧ s.portUp 0 1 = true ∧ s.routeUp (byteAt (measuring 1) 4) = true ∧
    s.routeUp (byteAt (measuring 0) 5) = true ∧ (fabric [] 0 []).routeUp (byteAt (measuring 0) 5) = false := by decide +kernel
/-- A WRITE flit of 256 bytes to the end of the scratch of core 0 of hub 0, for delivery at 5. -/
def write (tag : Nat) : List Byte := sealFlit 0 0 (mkFlit ftWrite 0 tag 0 1 256 5 (2 ^ 20 - 256) 0 (List.replicate 256 3))
theorem write_ok (tag : Nat) : flitOk (write tag) = true := sealFlit_ok 0 0 (mkFlit_length ..)
/-- WRITE flits of 60 bytes, and of 64 that pass the end of a scratch. -/
def oddWrites : List (List Byte) :=
  [sealFlit 0 0 (mkFlit ftWrite 0 7 0 1 60 5 0 0 []), sealFlit 0 0 (mkFlit ftWrite 0 7 0 1 64 5 (2 ^ 20 - 32) 0 [])]
theorem test_write_flit :
    let s := (fabric [] 0 []).onPart 0 (fun q => { q with sets := [1] })
    flitType (write 7) = ftWrite ∧ fieldLE (write 7) 8 2 = (s.port 0).rxNext ∧
      byteAt (write 7) 4 = s.rd R.GLBG.STRAP_POSITION 0 ∧ s.flitPart (write 8) = none ∧ s.flitPart (write 7) = some 0 ∧
      fieldLE (write 7) 6 2 % 64 = 0 ∧ fieldLE (write 7) 6 2 ≤ 256 ∧ bits (fieldLE (write 7) 16 8) 20 8 < 192 ∧
      s.partOfCore (bits (fieldLE (write 7) 16 8) 28 2) (bits (fieldLE (write 7) 16 8) 20 8) = some 0 ∧
      bits (fieldLE (write 7) 16 8) 0 20 + fieldLE (write 7) 6 2 ≤ 2 ^ 20 ∧ (s.part 0).step.phase ≠ .cut ∧
      (s.part 0).roll.count ≤ fieldLE (write 7) 12 4 ∧
      (oddWrites.all (fun f => flitType f == ftWrite && fieldLE f 8 2 == (s.port 0).rxNext && byteAt f 4 == s.rd R.GLBG.STRAP_POSITION 0 &&
        s.flitPart f == some 0 && (fieldLE f 6 2 % 64 != 0 || decide (2 ^ 20 < bits (fieldLE f 16 8) 0 20 + fieldLE f 6 2)))) = true := by
  decide +kernel
-- a remote write of member 1 whose link goes down past the cut of its span step
theorem test_late_write :
    let w := mkFlit ftWrite 0 7 0 1 64 5 0 0 []
    let s := ((member 2 1 []).onStep 0 (fun t => { t with phase := .cut })).onPort 0 (fun p => { p with replay := [w] })
    s.is R.FAB.STAT_LINK_UP 0 = true ∧ (s.port 0).replay ++ (s.port 0).wait = [w] ∧ s.writerOf w = some 0 ∧ s.beforeCut 0 = false ∧
      s.spanPos 0 ≠ 0 ∧ after (.portLinkDown 0) s (fun t => t.rd R.FAB.LATE_CNT 0 == 1) = true := by decide +kernel
theorem test_deliver :
    let w : SpanWrite := { member := 0, hub := 0, core := 0, scr := 0, deliver := 5, data := bytes [9] }
    let s := (fabric [] 0 []).onPart 0 (fun q => { q with spanIn := [w], step := { phase := .running } })
    s.stepRuns 0 = true ∧ (s.part 0).spanIn = [w] ∧ w.deliver ≤ 5 ∧ w.sig = none := by decide +kernel
theorem test_form :
    let s := (fabric [] 0 [(R.FABS.DELIVER_HC, 0, 2000)]).onRoute 1 (fun r => { r with valid := true })
    s.tagged.any s.formsSteps = false ∧ s.formFault [0, 300 + 65536] = none ∧ (∀ p ∈ s.tagged, s.is R.GLB.SPAN_CTL_BAL_EN p = false) ∧
      s.formFault [] = some (1, 1) ∧ 1 ∈ s.spanMembers.2 ∧ s.routeUp 1 = true ∧
        (s.wr (fieldEN .srv) 0 1).tagged.any (s.wr (fieldEN .srv) 0 1).formsSteps = true := by decide +kernel

/-- Port 0 up in Ethernet mode with an address, and the management port up with another. -/
def ether : State :=
  regs [(R.FAB.STAT_LINK_UP, 0, 1), (R.FAB.IP4, 0, 0x0A000001), (R.FAB.ETH_CTL_ECN_EN, 0, 1), (R.FAB.ETH_CTL_PFC_EN, 0, 1),
    (R.MGT.STAT_LAN_UP, 0, 1), (R.MGT.LAN_IP4, 0, 0x0A000002)]
/-- The same port after a PFC frame. -/
def stopped : State := ether.onPort 0 (fun q => { q with pausedTo := 1 })
/-- A frame with its check sequence. -/
def sealed (b : List Byte) : List Byte := b ++ leBytes 4 (fcs b)
/-- An ARP request for an address. -/
def arpFor (ip : List Nat) : List Byte := sealed (frame 42 [(12, [8, 6]), (20, [0, 1]), (38, ip)])
/-- An IPv4 UDP packet of RDMA with its type of service and opcode. -/
def rocePkt (tos op : Nat) : List Byte := sealed (frame 60 [(12, [8, 0, 0x45, tos]), (23, [17]), (36, [0x12, 0xB7]), (42, [op])])
/-- An ICMP echo request for an address. -/
def ping (ip : List Nat) : List Byte := sealed (frame 60 [(12, [8, 0, 0x45]), (23, [1]), (30, ip), (34, [8])])
/-- An ICMPv6 message of a type for a target whose last byte is given, in the header of an echo request or the body of a solicitation. -/
def icmp6 (type last : Nat) : List Byte :=
  sealed (frame 90 [(0, [0x33, 0x33, 0xFF, 0, 0, 0]), (12, [0x86, 0xDD]), (20, [58]), (54, [type]), (if type = 135 then 77 else 53, [last])])
/-- A PFC frame that names priority 3 or 0, for 256 units. -/
def pfc (classes : Nat) : List Byte :=
  sealed (frame 60 [(0, [1, 0x80, 0xC2, 0, 0, 1]), (12, [0x88, 8, 1, 1, 0, classes]), (24, [1, 0])])
/-- What `heard` asks of a frame on port 0. -/
def hears (s : State) (f : List Byte) : Bool :=
  s.portUp 0 0 && frameOk f && s.portType 0 f == some 12 && decide (f.length ≤ 4352) &&
    (f.take 6 == macBytes (s.rd R.FAB.MAC 0) || isSolicit f 12 && f.take 6 == [0x33, 0x33, 0xFF] ++ (leBytes 3 (s.ip6Of 0)).reverse ||
      fieldBE f 12 2 == 0x8808 && f.take 6 == [0x01, 0x80, 0xC2, 0x00, 0x00, 0x01])
theorem heard_of {s : State} {f : List Byte} (h : hears s f = true) : heard 0 f 12 s := by
  simp only [hears, Bool.and_eq_true, Bool.or_eq_true, beq_iff_eq, decide_eq_true_eq] at h
  obtain ⟨⟨⟨⟨h1, h2⟩, h3⟩, h4⟩, h5⟩ := h
  refine ⟨h1, h2, h3, h4, ?_⟩
  obtain (h | h) | h := h5
  · exact .inl h
  · exact .inr (.inr (.inl h))
  · exact .inr (.inr (.inr h))

theorem test_frames : ether.portUp 0 0 = true ∧ frameOk (frame 60 []) = false ∧ frameOk (rocePkt 0 12) = true ∧
    ether.portType 0 (rocePkt 0 12) = some 12 ∧ ether.payloadOk 0 (rocePkt 0 12) 12 = false ∧
    frameOk (icmp6 128 0) = true ∧ ether.portType 0 (icmp6 128 0) = some 12 ∧ (icmp6 128 0).take 6 ≠ macBytes (ether.rd R.FAB.MAC 0) ∧
    (icmp6 128 0).take 6 ≠ List.replicate 6 0xFF ∧ isSolicit (icmp6 128 0) 12 = false ∧ fieldBE (icmp6 128 0) 12 2 ≠ 0x8808 ∧
    frameOk (sealed (frame 60 [(12, [0x81, 0])])) = true ∧ ether.portType 0 (sealed (frame 60 [(12, [0x81, 0])])) = none := by decide +kernel
theorem test_payloads : heard 0 (rocePkt 0 4) 12 ether ∧ heard 0 (rocePkt 3 4) 12 ether ∧
    ether.payloadOk 0 (rocePkt 0 4) 12 = true ∧ isCe (rocePkt 0 4) 12 = false ∧ fieldBE (rocePkt 0 4) 12 2 ≠ 0x8808 ∧
    ether.payloadOk 0 (rocePkt 3 4) 12 = true ∧ isCe (rocePkt 3 4) 12 = true ∧ fieldBE (rocePkt 3 4) 12 2 ≠ 0x8808 ∧
    ether.is R.FAB.ETH_CTL_ECN_EN 0 = true ∧ ether.pfcStops 0 = false ∧ stopped.pfcStops 0 = true ∧ hears stopped (rocePkt 3 4) = true ∧
    hears stopped (arpFor [10, 0, 0, 1]) = true :=
  ⟨heard_of (by decide +kernel), heard_of (by decide +kernel), by decide +kernel⟩
theorem test_pfc : heard 0 (pfc 8) 12 ether ∧ heard 0 (pfc 1) 12 ether ∧ ether.payloadOk 0 (pfc 8) 12 = true ∧ ether.payloadOk 0 (pfc 1) 12 = true ∧
    fieldBE (pfc 8) 12 2 = 0x8808 ∧ fieldBE (pfc 1) 12 2 = 0x8808 ∧ (fieldBE (pfc 8) 16 2).testBit (ether.rd R.FAB.ETH_CTL_PFC_PRIO 0) = true ∧
    (fieldBE (pfc 1) 16 2).testBit (ether.rd R.FAB.ETH_CTL_PFC_PRIO 0) = false ∧
    after (.ethernetFrame 0 (pfc 8)) ether (fun t => (t.port 0).pausedTo == 164) = true :=
  ⟨heard_of (by decide +kernel), heard_of (by decide +kernel), by decide +kernel⟩
theorem test_arp : heard 0 (arpFor [10, 0, 0, 1]) 12 ether ∧ heard 0 (arpFor [10, 0, 0, 2]) 12 ether ∧
    fieldBE (arpFor [10, 0, 0, 1]) 12 2 = 0x0806 ∧ fieldBE (arpFor [10, 0, 0, 1]) 20 2 = 1 ∧ ether.rd R.FAB.IP4 0 ≠ 0 ∧
    fieldBE (arpFor [10, 0, 0, 1]) 38 4 = ether.rd R.FAB.IP4 0 ∧ fieldBE (arpFor [10, 0, 0, 2]) 38 4 ≠ ether.rd R.FAB.IP4 0 ∧
    after (.arp 0 (arpFor [10, 0, 0, 1])) ether (fun t => (t.port 0).out.length == 1) = true :=
  ⟨heard_of (by decide +kernel), heard_of (by decide +kernel), by decide +kernel⟩
theorem test_solicitation : heard 0 (icmp6 135 0) 12 ether ∧ heard 0 (icmp6 135 1) 12 ether ∧ isSolicit (icmp6 135 0) 12 = true ∧
    fieldBE (icmp6 135 0) 62 16 = ether.ip6Of 0 ∧ isSolicit (icmp6 135 1) 12 = true ∧ fieldBE (icmp6 135 1) 62 16 ≠ ether.ip6Of 0 :=
  ⟨heard_of (by decide +kernel), heard_of (by decide +kernel), by decide +kernel⟩
theorem test_echo : heard 0 (ping [10, 0, 0, 1]) 12 ether ∧ heard 0 (ping [10, 0, 0, 2]) 12 ether ∧
    fieldBE (ping [10, 0, 0, 1]) 12 2 = 0x0800 ∧ byteAt (ping [10, 0, 0, 1]) 23 = 1 ∧ byteAt (ping [10, 0, 0, 1]) 34 = 8 ∧
    ether.payloadOk 0 (ping [10, 0, 0, 1]) 12 = true ∧ ether.payloadOk 0 (ping [10, 0, 0, 2]) 12 = true ∧
    fieldBE (ping [10, 0, 0, 1]) 30 4 = ether.rd R.FAB.IP4 0 ∧ fieldBE (ping [10, 0, 0, 2]) 30 4 ≠ ether.rd R.FAB.IP4 0 :=
  ⟨heard_of (by decide +kernel), heard_of (by decide +kernel), by decide +kernel⟩
/-- A port whose address is the one to which the ICMPv6 frames go. -/
def ether6 : State := ether.wr R.FAB.MAC 0 0x3333FF000000
theorem test_echo6 : heard 0 (icmp6 128 0) 12 ether6 ∧ heard 0 (icmp6 128 1) 12 ether6 ∧ fieldBE (icmp6 128 0) 12 2 = 0x86DD ∧
    byteAt (icmp6 128 0) 20 = 58 ∧ byteAt (icmp6 128 0) 54 = 128 ∧ fieldBE (icmp6 128 0) 38 16 = ether6.ip6Of 0 ∧
    fieldBE (icmp6 128 1) 38 16 ≠ ether6.ip6Of 0 ∧ after (.echoRequest 0 (icmp6 128 0)) ether6 (fun t => (t.port 0).out.length == 1) = true :=
  ⟨heard_of (by decide +kernel), heard_of (by decide +kernel), by decide +kernel⟩
theorem test_lan_frames : ether.is R.MGT.STAT_LAN_UP 0 = true ∧ frameOk (frame 60 []) = false ∧ typeAt false 0 0 (frame 60 [(12, [0x81, 0])]) = none ∧
    fieldBE (ping [10, 0, 0, 2]) 12 2 = 0x0800 ∧ byteAt (ping [10, 0, 0, 2]) 23 = 1 ∧
    fieldBE (icmp6 128 0) 12 2 = 0x86DD ∧ byteAt (icmp6 128 0) 20 = 58 ∧ byteAt (icmp6 128 0) 54 = 128 ∧
    ether.lanFrameOk (arpFor [10, 0, 0, 2]) = true ∧ fieldBE (arpFor [10, 0, 0, 2]) 12 2 = 0x0806 ∧ fieldBE (arpFor [10, 0, 0, 2]) 20 2 = 1 ∧
    fieldBE (arpFor [10, 0, 0, 2]) 38 4 = ether.rd R.MGT.LAN_IP4 0 ∧
    after (.echoRequest 16 (ping [10, 0, 0, 2])) ether (fun t => t.rd R.MGT.LAN_DROP_CNT 0 == 1) = true := by decide +kernel
theorem test_rates : ether.is R.FAB.ETH_CTL_ECN_EN 0 = true ∧ up.portUp 0 0 = false ∧
    after (.congestionNotification 0 0) ether (fun t => (t.port 0).rate 0 == 400000000000) = true ∧
    (let s := ether.onPort 0 (fun p => { p with rates := [(0, 400000000000)] })
     after (.rateIncreaseTimer 0 0) (atTime 49999 s) (fun t => (t.port 0).rate 0 == 400000000000) = true ∧
       after (.rateIncreaseTimer 0 0) (atTime 50000 s) (fun t => (t.port 0).rate 0 == 440000000000) = true) := by decide +kernel

/-- A load of partition 0 with a staging area of 256 MiB at the start of memory. -/
def load0 : Load :=
  { mode := 0, kind := 0, stageAddr := memBase, stageBytes := 2 ^ 28, faultAddr := memBase, faultCap := 0, manifestOff := 0, fetch := {} }
theorem test_rdma :
    let s := (ether.wr R.SECG.PART_STAT_EXISTS 0 1).onPart 0 (fun q => { q with load := some load0 }) |>.onFab (fun f => { f with
      qps := [(67, { port := 0 }), (68, { port := 0 })] })
    s.portUp 0 0 = true ∧ MemClean s ∧ s.rdmaOk 0 67 (memBase + 2 ^ 28 - 4) 4 = true ∧ s.rdmaOk 0 67 (memBase + 2 ^ 28 - 3) 4 = false ∧
      s.rdmaOk 0 68 memBase 4 = false ∧ s.rdmaOk 0 66 memBase 4 = false := by
  unfold MemClean; decide +kernel

/-! ### Steps and calibration -/

/-- A partition whose one request decodes: a sequence of one position, an own page, and room for one position in a step. -/
def decodeSt : State :=
  let s := (((oneReq 3).wr R.PWR.PART_STATE 0 1).wr R.SRV.FORM_STEP_MAX 0 1).onPart 0 (fun q => { q with
    seqs := [(0, { len := 1, pages := [0], leaves := [0], dir := some 0 })], stepped := true })
  s.onPart 0 (fun q => { q with cfg := s.cfgItems 0 })

theorem test_form_step : stepReq.stepRuns 0 = true ∧ stepReq.isSpan 0 = false ∧ decodeSt.partExists 0 = true ∧ decodeSt.stepRuns 0 = false ∧
    (decodeSt.boundary 0).mayForm 0 = true ∧ (decodeSt.boundary 0).candidates 0 = [(0, true)] ∧ (decodeSt.boundary 0).hamper 0 0 = some (hamperIn 3) ∧
    (hamperIn 3).spec = false ∧ ((decodeSt.boundary 0).seq 0 0).isSome = true ∧ ((decodeSt.boundary 0).allocEntry 0 0 1 false).2 = true ∧
    0 < (decodeSt.boundary 0).rd R.SRV.FORM_STEP_MAX 0 := by decide +kernel
theorem test_form_nothing :
    let s := decodeSt.onPart 0 (fun q => { q with hampers := [] })
    (s.boundary 0).mayForm 0 = true ∧ (s.boundary 0).candidates 0 = [] ∧
      ((decodeSt.wr R.DCR.STAT_HALTED 0 1).boundary 0).mayForm 0 = false := by decide +kernel

-- a step that waits for a piece of recalibration in progress
theorem test_form_waits :
    let s := (((decodeSt.wr R.PWR.STACK_STATE 0 1).wr (fieldEN .thc) 0 1).onPart 0 (fun q => { q with stks := 1 })).onStk 0
      (fun u => { u with calRun := [639], calDone := [(639, 1)] })
    s.partExists 0 = true ∧ s.stepRuns 0 = false ∧ s.isSpan 0 = false ∧ (s.boundary 0).mayForm 0 = true ∧ (s.boundary 0).candidates 0 ≠ [] ∧
      (s.boundary 0).piecesRun 0 = true ∧ (decodeSt.boundary 0).piecesRun 0 = false := by decide +kernel

/-- A step of that request, with its entry as given, and the logits of its row: the largest is token 1. -/
def entrySt (ph : StepPhase) (e : StepEntry) (cut : Nat) : State :=
  ((decodeSt.onPart 0 (fun q => { q with setAct := { q.setAct with tensors := [{ tensor0 0 with cols := 16 }] } })).mwr memBase
    (bytes [0, 0, 0, 0, 0, 0, 0x80, 0x3F])).onStep 0 (fun t => { t with phase := ph, entries := [e], cutFrames := cut })
/-- The entry of slot 0. -/
def entry0 : StepEntry := { slot := 0, first := 1, n := 1, prefill := false, sample := true, tokAddr := 0, logitRow := some 0 }

theorem test_sampling :
    let s := entrySt .running entry0 0
    s.samplable 0 = true ∧ decodeSt.samplable 0 = false ∧ (s.memErr = [] ∧ s.poi = []) ∧ (hamperIn 3).state ≠ 4 ∧ entry0.sample = true ∧
      (s.part 0).step.entries = [entry0] ∧ entry0.cancelled = false ∧ entry0.tree = [] ∧
      s.hamper 0 entry0.slot = some (hamperIn 3) ∧ (hamperIn 3).counts = [] ∧ fpIsZero (hamperIn 3).q.temp = true ∧
      s.tensorRec 0 (s.rd R.SRV.LOGITS 0) = some { tensor0 0 with cols := 16 } ∧ 16 = s.rd R.SRV.VOCAB 0 ∧ (tensor0 0).fmt = 0 ∧
        0 < (tensor0 0).rows ∧
      (rankTop (hamperIn 3).q.topK ((List.range 16).zip (leWords 4 16 (s.mrd memBase 64)) |>.map (fun y => (y.2, y.1)))).1 =
        (0x3F800000, 1) :: [] ∧ fpIsNaN 0x3F800000 = false ∧
      (∀ e ∈ ((entrySt .running { entry0 with sample := false } 0).part 0).step.entries, e.sample = false) := by decide +kernel
theorem test_cut : (entrySt .sampled entry0 0).mayCut 0 = true ∧ decodeSt.mayCut 0 = false := by decide +kernel
theorem test_resolution :
    let e := { entry0 with drawn := [1], sampled := 1 }
    let s := (entrySt .cut e 0).onPart 0 (fun q => { q with hampers := [(0, { hamperIn 3 with q := { (hamperIn 3).q with maxTokens := 2 } })] })
    (s.part 0).step.phase = .cut ∧ (s.memErr = [] ∧ s.poi = []) ∧ e.prefill = false ∧ e.sample = true ∧ e.opErr = false ∧ e.drawn = [1] ∧
      (s.part 0).hampers = [(0, { hamperIn 3 with q := { (hamperIn 3).q with maxTokens := 2 } })] ∧ (hamperIn 3).state = 3 ∧
      (∀ q, s.seq 0 0 = some q → q.poison = 0 ∧ q.maskEmpty = false) ∧ (s.part 0).step.cutFrames = 0 ∧ (s.part 0).inbox = [] ∧
        (s.part 0).step.entries = [e] ∧
      (s.part 0).step.halted = false ∧ e.bad = 0 ∧ e.badTree = false ∧ e.path = [] ∧ (s.seq 0 0).isSome = true ∧ (hamperIn 3).cancelSeen = false ∧
      (hamperIn 3).endPend = false ∧ (hamperIn 3).q.deadline = 0 ∧ (hamperIn 3).q.stops = [] ∧ (hamperIn 3).outIndex + 1 ≠ 2 ∧
      e.last + 1 ≠ maxPositions ∧ ((entrySt .cut e 1).part 0).step.cutFrames ≠ 0 := by decide +kernel
theorem test_boundary :
    let s := decodeSt.onPart 0 (fun q => { q with disPend := [(Page.srv.idx, 0)], switchPend := some true, loaded := some {} })
    s.stepRuns 0 = false ∧ s.partExists 0 = true ∧ sharedPage Page.srv.idx = false ∧ (s.part 0).quietPend = false ∧
      (s.part 0).switchPend = some true ∧ State.reset.partExists 0 = false := by decide +kernel

theorem test_sensors : (List.replicate 1987 0).length ≠ 1988 ∧ (List.replicate 1988 0).length = 1988 ∧ State.reset.inDoze = false ∧
    1360 < sx 1361 16 := by decide +kernel
theorem test_exclude :
    let s := regs [(R.THC.SENS_ADDR_UNIT, 0, 3), (R.THC.SENS_ADDR_INDEX, 0, 63)]
    sensAddrOk 3 63 = true ∧ sensAddrOk 3 64 = false ∧ s.rd R.THC.SENS_ADDR_INDEX 0 = 63 ∧
      keepsTwo (gridOf 3).1 (gridOf 3).2 (s.unitSens 0 3) 63 = true := by decide +kernel
theorem test_recal : (0 : Nat) < 640 ∧ State.reset.rd R.THC.RECAL_REQ_STACK 0 < 3 ∧ AMap.getD (State.reset.stk 0).recalQ 0 0 < 2 := by decide +kernel
theorem test_window :
    let s := (regs [(R.SECG.PART_STAT_EXISTS, 0, 1), (R.PWR.STACK_STATE, 0, 1), (fieldEN .thc, 0, 1), (R.THC.CAL_CTL_WIN, 0, 4000)]).onPart 0
      (fun q => { q with stks := 1, between := true }) |>.onStk 0 (fun u => { u with recalQ := [(639, 1)] })
    (s.part 0).between = true ∧ s.windowOf 0 0 = [0] ∧ s.windowOf 0 1 = [] ∧ ((List.range 12).all (fun k => (s.stk k).adopt == [])) = true ∧
      after (.calibrationWindow 0 0 250) s (fun t => (t.stk 0).calRun == [639] && t.rd R.THC.WIN_US 0 == 250) = true ∧
      after (.calibrationWindow 0 0 249) s (fun t => (t.stk 0).calRun == []) = true ∧ s.windowLen 0 4001 = 4000 ∧
      (s.stk 0).calRun = [] ∧ s.ownerOf 0 = some 0 ∧ (decodeSt.part 0).between = false := by decide +kernel
theorem test_piece :
    let s := State.reset.onStk 0 (fun u => { u with calRun := [639], calDone := [(639, 7)] })
    (s.stk 0).calRun.contains 639 = true ∧ (s.stk 0).adopt = [] ∧ AMap.getD (s.stk 0).calDone 639 0 < 8 ∧
      convGroup 0 ≠ 8 * 639 + AMap.getD (s.stk 0).calDone 639 0 ∧ (State.reset.stk 0).calRun.contains 0 = false ∧
      State.reset.calAllowed 0 = false := by decide +kernel

/-! ### Array fields, accumulation, epilogue, top-k -/

/-- An ACALL of one row on stack 0 that runs, with an evaluation to do. -/
def job0 (it : EvalItem) : Job := { id := 1, part := 0, src := g0, tok := 15, chain := 0, tensor := 0, row0 := 0, n := 1, stage := .running, rung := 0, todo := [it] }
/-- Its evaluation, main or range. -/
def eval0 (range : Bool) : EvalItem := { job := 1, desc := 0, mode := .a4, range := range }
/-- Stack 0 enabled with that job, its array biased as given: the first element of the row is 1, or a saturated block left a remainder. -/
def evalSt (range : Bool) (bias : Nat) : State :=
  let s := (((((unitSt run0).wr (fieldEN .afd) 0 1).wr R.AFD.CAP_CAP 0 1).mwr memBase (bytes [1])).mwr (memBase + 65536) (bytes [if range then 0xFF else 0x78]))
    |>.onStk 0 (fun u => { u with bias := [(0, bias)], jobs := [job0 (eval0 range)] })
  { s with blks := [(memBase + 65536, { addr := memBase, len := 32, vals := [], rem := 0x3F800000 :: List.replicate 31 0, saturated := true })] }

theorem test_arm : ((evalSt false 1).stk 0).idleErr = [] ∧
    (match (evalSt false 1).nextArm 0 with | some x => if x.2.1.range then (0, 0) else bankSums x.2.2.1.edges 0 2048 | none => (0, 0)) ≠ (0, 0) ∧
    (evalSt false 0).nextArm 0 = none := by decide +kernel
theorem test_range_pass : ((evalSt true 1).stk 0).idleErr = [] ∧
    (match (evalSt true 1).nextArm 0 with | some x => if x.2.1.range then bankSums x.2.2.1.edges 0 2048 else (0, 0) | none => (0, 0)) ≠ (0, 0) ∧
    (match (evalSt false 1).nextArm 0 with | some x => x.2.1.range == false | none => false) = true := by decide +kernel
theorem test_rebias : (evalSt false 0).nextRebias 0 = some (0, 0) ∧ (evalSt false 1).nextRebias 0 = none := by decide +kernel

/-- A firing of that evaluation on array 0, in a number of passes. -/
def fire0 (passes : Nat) (held : Bool) (delay : Nat) : Firing :=
  { item := { eval0 false with passes := passes }, tile := 0, home := 0, phys := 0, tier := 0, lane := 0, row := 0, rowblk := 0, signed := true, edges := [1]
    held := held, delay := delay }
/-- A stack with that firing. -/
def fireSt (f : Firing) : State := (unitSt run0).onStk 0 (fun u => { u with firing := [f], jobs := [job0 (eval0 false)] })

theorem test_sample : ((fireSt (fire0 1 false 0)).stk 0).firing = fire0 1 false 0 :: [] ∧ (fire0 1 false 0).phys = 0 ∧
    (∀ f ∈ ((fireSt (fire0 1 true 0)).stk 0).firing, f.held = true ∨ f.phys ≠ 0) ∧ (fire0 1 false 0).held = false ∧
    (fire0 1 false 0).item.passes ≤ (fire0 1 false 0).item.pass + 1 ∧
    ((fireSt (fire0 2 false 0)).stk 0).firing = fire0 2 false 0 :: [] ∧ (fire0 2 false 0).item.pass + 1 < (fire0 2 false 0).item.passes ∧
    ((fireSt (fire0 2 false 0)).stk 0).job? (fire0 2 false 0).item.job = some (job0 (eval0 false)) := by decide +kernel
/-- A pass of one edge with these codes. -/
def res0 (codes : List Int) : PassRes :=
  { fired := bankSums [1] 0 2048 != (0, 0), codes := codes, eNet := ((bankSums [1] 0 2048).1 : Int) - (bankSums [1] 0 2048).2
    e2 := sumSq [1], edges := [1] }
/-- That stack's codes with these deviations. -/
def codes0 (devs : List Int) : List Int := (fireSt (fire0 2 true 0)).roundCodes 0 0 0 (dFsExp (eval0 false).desc) [1] devs
theorem charge0_le (c : Nat) : 0 ≤ (fireSt (fire0 2 true 0)).charge 0 0 0 [1] c ∧ (fireSt (fire0 2 true 0)).charge 0 0 0 [1] c ≤ 15 := by
  have h : ∀ n : Nat, 0 ≤ (fireSt (fire0 2 true 0)).cellLevel 0 0 0 n c ∧ (fireSt (fire0 2 true 0)).cellLevel 0 0 0 n c ≤ 15 := by
    intro n
    have h1 : AMap.get? (fireSt (fire0 2 true 0)).nv.cells (655360 * 0 + 16 * 0 + 0) = none := by decide +kernel
    have h2 : AMap.getD (fireSt (fire0 2 true 0)).nv.unknown 0 0 = 0 := by decide +kernel
    unfold State.cellLevel; rw [h1, h2]; dsimp only [bne_self_eq_false]; split
    · contradiction
    · split <;> omega
  have e (f : Int → Nat × Int → Int) : ((List.range [(1 : Int)].length).zip [1]).foldl f 0 = f 0 (0, 1) := rfl
  unfold State.charge; rw [e]; dsimp only
  split
  · omega
  · have := h 0
    split <;> omega
theorem test_round_limit : (fireSt (fire0 2 true 0)).limitCode 0 0 (res0 (codes0 [511])) = true := by decide +kernel
theorem test_round_no_limit : (fireSt (fire0 2 true 0)).limitCode 0 0 (res0 (codes0 [])) = false := by
  unfold State.limitCode; rw [List.any_eq_false]; intro c _
  have h (n : Nat) := charge0_le n
  have hm : dFsExp (eval0 false).desc = 0 := by decide +kernel
  have hc : ∀ n, -512 < colAt (codes0 []) n ∧ colAt (codes0 []) n < 511 := by
    intro n; unfold codes0 State.roundCodes colAt
    rw [List.getD_eq_getElem?_getD, List.getElem?_map, hm]
    cases (List.range physCols)[n]? with
    | none => simp
    | some i =>
      have := h i
      dsimp only [Option.map, Option.getD]; split
      · simp
      · simp [clampI, rneDiv]; omega
  have := hc c
  simp [res0]; omega
theorem test_round : ((fireSt (fire0 2 true 0)).stk 0).job? 1 = some (job0 (eval0 false)) ∧
    (fire0 2 true 0).item.passes < 4 ∧ (fire0 2 true 0).item.pass + 1 < (fire0 2 true 0).item.passes := by decide +kernel
theorem test_priority_read : (7 : Fin 8).val ≤ 2079 % 8 ∧ ((fireSt (fire0 1 true 29)).stk 0).firing = fire0 1 true 29 :: [] ∧
    2079 ∉ (fire0 1 true 29).early ∧ (fire0 1 true 29).delayOf (2079 / 8) + (27 : Fin 28).val ≤ 56 ∧
      56 < (fire0 1 true 30).delayOf (2079 / 8) + (27 : Fin 28).val ∧
    fire0 1 true 29 ∉ ([] : List Firing) := by decide +kernel

/-- That job's pair, READY. -/
def readySt (c : ChainRec) : State :=
  (fireSt (fire0 1 true 0)).onPair 0 (16 * 639 + 15) (fun _ => { st := 2, job := 1, full := [5], sE := 3 }) |>.onPart 0 (fun q => { q with
    setAct := { q.setAct with chains := [c], descs := [(0, [0])] } })
theorem test_readout :
    let s := readySt { chain0 with descCount := 1 }
    let q := (s.stk 0).pair (16 * 639 + (15 : Fin 16).val)
    (s.stk 0).job? q.job = some (job0 (eval0 false)) ∧ q.st = 2 ∧ (s.stk 0).job? ((s.stk 0).pair 0).job = none ∧
      s.chainRec 0 0 = some { chain0 with descCount := 1 } ∧ chain0.flags.testBit 1 = false ∧
      s.chainDescs 0 { chain0 with descCount := 1 } = 0 :: [] ∧
      (let u := s.onPair 0 0 (fun _ => { st := 1, job := 1 })
       ((u.stk 0).pair 0).st ≠ 2 ∧ (u.stk 0).job? ((u.stk 0).pair 0).job = some (job0 (eval0 false))) := by decide +kernel
theorem test_column_result :
    let v := { asked with rung := 3, dig := some [{ v := 7 }] }
    let s := (unitSt run0).onHub 0 (fun u => { u with vals := [v] })
    s.chainRec 0 0 = some chain0 ∧ (unitSt run0).chainVal 0 chain0.collHub 0 0 = none ∧ s.chainGroup 0 chain0 = [(0, chain0)] ∧
      s.chainVal 0 chain0.collHub 0 0 = some v ∧ chain0.fused = 0 ∧ chain0.outFmt = 0 ∧ chain0.flags.testBit 2 = false ∧
      s.tensorRec 0 chain0.outTensor = some (tensor0 7) ∧ (tensor0 7).cols ≤ 2048 := by decide +kernel
theorem test_drift_fit :
    let s := (((coreSt g0 run0).wr R.DCP.DRIFT_CTL_DRIFT_EN 3 1).onPart 0 (fun q => { q with stks := 2048 })).onStk 11
      (fun u => { u with statPrev := [(15, { n := 1, szy := 5, szz := 4, sz := 2, sy := 3 })] })
    (∀ e, e < 3 → (State.reset.stk (3 * 3 + e)).statPrev = []) ∧ State.reset.ownerOf 11 = none ∧ s.ownerOf (3 * 3 + 2) = some 0 ∧
      s.stepRuns 0 = true ∧
      (s.stk (3 * 3 + 2)).statPrev = [(15, { n := 1, szy := 5, szz := 4, sz := 2, sy := 3 })] ∧ s.is R.DCP.DRIFT_CTL_DRIFT_EN 3 = true ∧
      AMap.getD (s.stk 11).frozen (15 / 16) 0 = 0 ∧
      after (.driftFit 3) s (fun t => (t.stk 11).statPrev == []) = true ∧
      after (.driftFit 3) (s.onStep 0 (fun t => { t with phase := .idle })) (fun t => (t.stk 11).statPrev != []) = true := by decide +kernel
theorem test_esc :
    let e : EscCall := { part := 0, chain := 0, row := 0, tensor := 0, dig := 0, job := 1 }
    let s := (unitSt {}).onHub 0 (fun u => { u with esc := [e] }) |>.onPart 0 (fun q => { q with
      setAct := { q.setAct with groups := [(0, [{ entry := 9, tiles := 0, start := false, esc := true }])] } })
    (s.hub 0).esc = e :: [] ∧ s.freeEscGroup 0 0 = some (0, 0, 9) ∧ ((unitSt {}).hub 0).esc = [] := by decide +kernel
theorem test_window_write :
    let s := (unitSt run0).onPart 0 (fun q => { q with stks := 4 })
    winPlace 0 (winBase + winBytes - 4) = (2, 639, 0x7FFFC) ∧ winPlace 0 winBase = (0, 0, 0) ∧ winPlace 0 (winBase + 0x28000000) = (2, 0, 0) ∧
      winPlace 0 (winBase + 0x2801FFFC) = (2, 0, 0x1FFFC) ∧ (winBase + 0x2801FFFC) % 4 = 0 ∧ s.owns 0 0 = false ∧ s.owns 0 2 = true ∧
      ((s.stk 2).pair (16 * 0 + 0x1FFFC / 0x2000)).st = 0 ∧
      (((s.onPair 2 15 (fun q => { q with st := 1 })).stk 2).pair (16 * 0 + 0x1FFFC / 0x2000)).st ≠ 0 := by decide +kernel

theorem test_topk_merge :
    let c (n : Nat) : TopkCall := { part := 0, call := topk0 n, no := 0, src := g0, tok := 15 }
    let s (n : Nat) := (unitSt run0).onHub 0 (fun u => { u with topk := [c n] })
    (∀ c ∈ ((unitSt run0).hub 0).topk, (unitSt run0).topkReady 0 c = false) ∧ (s 0).topkReady 0 (c 0) = true ∧ (s 1).topkReady 0 (c 1) = true ∧
      ((s 1).memErr = [] ∧ (s 1).poi = []) ∧
      (TopkRec.ofBytes (topk0 0)).bad = true ∧ (TopkRec.ofBytes (topk0 1)).bad = false ∧ (TopkRec.ofBytes (topk0 1)).src = 1 ∧
      (TopkRec.ofBytes (topk0 1)).exclEn = false ∧ (TopkRec.ofBytes (topk0 1)).adjEn = false := by decide +kernel
theorem test_verify :
    let s := regs [(R.SECG.PART_STAT_EXISTS, 0, 2048)]
    s.partExists 11 = true ∧ (s.part 11).verifying = none ∧ (s.part 11).switchPend = none ∧
      ((s.onPart 11 (fun q => { q with verifying := some 0 })).part 11).verifying ≠ none ∧
      ((s.onPart 11 (fun q => { q with switchPend := some true })).part 11).switchPend ≠ none := by decide +kernel
/-- A set of one section of type t without records, at the start of the memory of partition 0, that a verification reads. -/
def setSt (t : Nat) : State :=
  ((coreSt g0 run0).mwr memBase (frame 192 [(0, [0x4B, 0x57, 0x53, 0x54, 0x50, 0x53, 0x45, 0x54, 1, 0, 1]), (56, [192]), (128, [t, 0xFF]), (136, [128])])).onPart 0
    (fun q => { q with verifying := some memBase })
theorem test_set_verify_done : ((setSt 6).part 0).verifying = some memBase ∧ (setSt 6).clears 0 = false ∧
    ((setSt 6).onHub 3 (fun u => { u with clearing := [0] })).clears 0 = true ∧
    (match (setSt 6).checkSet 0 memBase with | .inr z => z.generation == 0 | .inl _ => false) = true ∧
    (match (setSt 8).checkSet 0 memBase with | .inl f => f == (some 0x10, some (0, 0)) | .inr _ => false) = true := by decide +kernel

/-! ### The weight loader -/

/-- A load descriptor at the start of memory: COLD, one source, a staging area of 1 GiB; its source record; and a port for it. -/
def loadSt : State :=
  ((((part0.onPart 0 (fun q => { q with ranges := [(0, 0, 4)] })).wr R.WLD.LOAD_PTR 0 memBase).wr R.FAB.STAT_LINK_UP 15 1).wr R.FAB.PORT_CFG_OWNERS 15 1).mwr
    memBase (frame 128 [(2, [1]), (4, leBytes 4 1000 |>.map (·.toNat)), (16, leBytes 8 (memBase + 2 ^ 30) |>.map (·.toNat)),
      (24, leBytes 8 (2 ^ 30) |>.map (·.toNat)), (32, leBytes 8 (memBase + 4096) |>.map (·.toNat))])
/-- A partition whose load runs. -/
def loading (l : Load) : State := (part0.onPart 0 (fun q => { q with ranges := [(0, 0, 4)], load := some l }))

theorem test_load_start : loadSt.loading 0 = false ∧ loadSt.partExists 0 = true ∧ (loadSt.memErr = [] ∧ loadSt.poi = []) ∧
  (loading load0).partExists 0 = true ∧ (loading load0).loading 0 = true ∧ loadSt.clears 0 = false ∧
    (loadSt.onHub 3 (fun u => { u with clearing := [0] })).clears 0 = true ∧
    (let a := loadSt.rd R.WLD.LOAD_PTR 0
     let d := loadSt.mrd a 128
     loadSt.inPart 0 a 128 = true ∧ loadSt.mbad a 128 = false ∧ byteAt d 1 = 0 ∧ loadSt.formsSteps 0 = false ∧
      (loadSt.wr (fieldEN .srv) 0 1).formsSteps 0 = true ∧ loadSt.hasModel 0 = false ∧ loadDescOk d = true ∧ byteAt d 2 = 1 ∧
      (let x := fieldLE d 32 8
       loadSt.inPart 0 x 288 = true ∧ loadSt.mbad x 288 = false ∧ sourceOk (loadSt.mrd x 288) = true) ∧
      loadSt.inPart 0 (fieldLE d 16 8) (fieldLE d 24 8 + fieldLE d 24 8 / 1024) = true ∧ loadSt.loadPorts 0 ≠ []) := by decide +kernel
theorem test_connect : (∀ l, ((loading { load0 with manifestOk := true }).part 0).load = some l → l.manifestOk = true) ∧
    ((loading load0).part 0).load = some load0 ∧ load0.manifestOk = false ∧
    (let l : Load := { load0 with fetch := { load0.fetch with shardTmo := 1000 } }
     (atTime 1000000000 (loading l)).tmoOver l.fetch l.started = true ∧ (atTime 999999999 (loading l)).tmoOver l.fetch l.started = false) :=
  ⟨fun l h => by rw [show ((loading { load0 with manifestOk := true }).part 0).load = some { load0 with manifestOk := true } from rfl] at h
                 cases h; rfl, rfl, rfl, by decide +kernel⟩
theorem test_retire :
    let s := loadSt.onPart 0 (fun q => { q with active := some {} })
    s.hasModel 0 = true ∧ s.formsSteps 0 = false ∧ s.loading 0 = false := by decide +kernel
theorem test_switch :
    let s := (loadSt.wr R.DCR.STAT_VERIFIED 0 1).onPart 0 (fun q => { q with loaded := some {} })
    loadSt.switchRefused 0 = true ∧ s.switchRefused 0 = false ∧ s.unstepped 0 = true ∧ (s.part 0).hampers = [] ∧
      (s.onPart 0 (fun q => { q with stepped := true })).unstepped 0 = false ∧
      (s.onPart 0 (fun q => { q with stepped := true })).switchRefused 0 = false := by decide +kernel

/-- A publisher's key, and a manifest of one shard with one EXACT block of 64 bytes that names it, its signature zeros. -/
def pubKey0 : List Byte := bytes [1]
/-- The manifest. -/
def manifest0 : List Byte :=
  frame 370 [(0, [0x42, 0x58, 0x44, 0x52, 0x4D, 0x4E, 0x46, 0x31, 1]), (12, [1]), (16, [1]), (20, [1]), (24, [0x72, 1]), (96, (shake256 pubKey0 16).map (·.toNat)),
    (128, [64]), (224, [0, 0, 0, 0, 0, 6]), (244, [64])]
/-- A load of it, with a placement of no entries whose region of hub 0 is given, in the inactive place. -/
def manifestSt (region : Nat) : State :=
  (((loading load0).wr R.WLD.PLACE_B 0 (memBase + 4096)).wr R.WLD.PLACE_A 0 (memBase + 4096)).mwr (memBase + 4096)
    (frame 128 [(8, [1]), (64, leBytes 8 (memBase + 2 ^ 20) |>.map (·.toNat)), (72, leBytes 8 region |>.map (·.toNat))])
    |>.onNv (fun n => { n with pubKeys := [pubKey0] })

theorem test_manifest_form : parseManifest [] = none := by rfl
theorem test_manifest_header : manifestHeadOk [] = false ∧ manifestHeadOk (manifest0.take 128) = true ∧ (manifest0.take 128).length = 128 ∧
    (∀ r ∈ ((loading load0).part 0).reads, r.what = .manifest → r.index = 0) ∧ manifestLen (manifest0.take 128) = 370 ∧
    after (.manifestCheck 0 (manifest0.take 128)) (loading load0) (fun t => (t.part 0).reads.map (·.len) == [242]) = true := by decide +kernel
/-- A Read of shard 0 on queue pair 0 at time 0, of a load of two sources. -/
def readSt : State :=
  (loading { load0 with fetch := { load0.fetch with sources := List.replicate 2 (.ofBytes []) } }).onPart 0 (fun q =>
    { q with reads := [{ what := .shard 0, index := 0, source := 1, offset := 0, len := 64, queue := some 0, since := 0 }] })
theorem test_read_timeout :
    ((atTime 2000000000 readSt).part 0).reads.map (fun r => decide (r.since + 2000000000 ≤ (atTime 2000000000 readSt).clk.devTime)) = [true] ∧
    after (.readTimeout 0 { what := .shard 0, index := 0, error := false }) (atTime 1999999999 readSt) (fun t =>
      (t.part 0).reads.map (·.source) == [1]) = true ∧
    after (.readTimeout 0 { what := .shard 0, index := 0, error := false }) (atTime 2000000000 readSt) (fun t =>
      (t.part 0).reads.map (·.source) == [0]) = true ∧
    after (.readTimeout 0 { what := .shard 0, index := 0, error := true }) readSt (fun t =>
      (t.part 0).reads.map (·.source) == [0]) = true := by decide +kernel
theorem test_manifest : (match parseManifest manifest0 with
    | some x => ((manifestSt 4096).pubKey x.keyId == some pubKey0) && ((loading load0).pubKey x.keyId == none) && (x.shards.length == 1) &&
      (match (manifestSt 4096).plan 0 load0 x with | .ok _ _ _ skipped => !skipped.contains 0 | _ => false) &&
      (match (manifestSt 0).plan 0 load0 x with | .bad code => code == lsNoFit | _ => false)
    | none => false) = true := by decide +kernel
/-- A resident block of outlier rows of 96 GiB. -/
def big : Blk :=
  { layer := 0, expert := 0, matrix := 0, kind := 3, bfmt := 0, rowblk := 0, colblk := 0, shard := 0, offset := 0, length := 96 * 2 ^ 30, resident := true, addr := memBase }
theorem test_budget : (match parseManifest manifest0 with
    | some x => (match ((manifestSt 4096).onPart 1 (fun q => { q with active := some { blocks := [big] } })).plan 0 { load0 with kind := 1 } x with
      | .late code _ => code == lsBudget | _ => false)
    | none => false) = true := by decide +kernel

/-- A load that fetches shard 0 of these bytes, with one entry whose LEVELS block is its first part. -/
def fetching (b : List Byte) (enc accepted : Bool) (level : Nat) (todo : List Nat) : Load :=
  { load0 with
    manifestOk := true, todo := todo, shards := [(0, { source := 0, slot := 0, accepted := accepted })], levels := [(0, level)]
    placement := {
      images := [{ image := [], encrypted := enc, shards := [{ length := b.length, offset := 0, digest := shake256 b 64, nonce := [] }] }]
      entries := [{ layer := 0, expert := 0, matrix := 0, flags := 0, rowblk := 0, colblk := 0, stack := 11, tier := 15, array := 0 }]
      blocks := [{ big with kind := 0, length := 0, resident := false, addr := 0 }] } }

theorem test_shards :
    let b := bytes [0x11]
    let l := fetching b false false 0 []
    let st : ShardSt := { source := 0, slot := 0 }
    AMap.get? l.shards 1 = none ∧ AMap.get? l.shards 0 = some st ∧ l.placement.images ≠ [] ∧
      (l.placement.images[0]?.bind (fun g => g.shards[0]?)) = some { length := b.length, offset := 0, digest := shake256 b 64, nonce := [] } ∧
      (AMap.get? (fetching b false true 0 []).shards 0).map (·.accepted) = some true ∧ (bytes []).length ≠ b.length ∧ st.attempts < 4 ∧
      l.shards = [(0, st)] ∧ st.slot < l.places ∧ l.placement.entriesIn 0 ≠ [] ∧
      (∀ x ∈ l.placement.blocks, x.kind = 0 ∧ levelsOk x.bfmt ((b.drop x.offset).take x.length) = true ∧ x.offset + x.length ≤ b.length) ∧
      b.length ≤ 2 ^ 28 ∧ (atTime 0 (loading l)).tmoOver l.fetch st.since = true ∧
      (atTime 999999 (loading l)).tmoOver { l.fetch with shardTmo := 1 } st.since = false ∧
        AMap.get? ((loading l).part 0).imgKeys l.fetch.keyHandle = none := by decide +kernel
theorem test_program :
    let l := fetching (bytes [0x11]) false true 1 []
    let e : PlEntry := { layer := 0, expert := 0, matrix := 0, flags := 0, rowblk := 0, colblk := 0, stack := 11, tier := 15, array := 0 }
    let b : Blk := { big with kind := 0, length := 0, resident := false, addr := 0 }
    let s := (loading l).wr R.WLDG.PROG_RATE_RATE 0 1
    (s.part 0).load = some l ∧ l.placement.entries[0]? = some e ∧ l.placement.levelsBlk e = some b ∧
      AMap.get? l.shards b.shard = some { source := 0, slot := 0, accepted := true } ∧ e.stack < 12 ∧ AMap.getD l.levels 0 0 = 1 ∧
      s.clears 0 = false ∧ (s.onHub 3 (fun u => { u with clearing := [0] })).clears 0 = true ∧ s.progPaused 11 = false ∧
        (s.wr R.WLDG.PROG_RATE_RATE 0 0).progPaused 11 = true ∧ s.formsSteps 0 = false ∧
      s.stagedBad l 0 b.offset b.length = false ∧ (s.wr R.WLDG.WEAR_LIMIT 0 0).worn 11 ((s.stk 11).physOf 0) 15 = true ∧
      (s.wr R.WLDG.WEAR_LIMIT 0 1).worn 11 ((s.stk 11).physOf 0) 15 = false := by decide +kernel
theorem test_program_end :
    let l := fetching (bytes [0x11]) false true (4 + tierKey 5 15) [1]
    AMap.getD l.levels 0 0 = 4 + tierKey 5 15 ∧ (15 : Nat) < 16 ∧ l.todo ≠ [] ∧
      AMap.getD (fetching (bytes []) false true 3 []).levels 0 0 < 4 := by decide +kernel

/-! ### Converters -/

/-- Stack 11 of partition 0, that has formed a step or not. -/
def ownSt (stepped : Bool) : State := part0.onPart 0 (fun q => { q with stks := 2048, stepped := stepped })

theorem test_free_stack : State.reset.freeStack 11 = true ∧ (ownSt false).freeStack 11 = true ∧ (ownSt true).freeStack 11 = false := by decide +kernel
theorem test_map_ok : (State.reset.stk 11).mapOk = true ∧
    (State.reset.stk 11).masked = [] ∧ (ownSt true).ownerOf 11 = some 0 ∧
    (let u := (State.reset.onStk 11 (fun u => { u with arrMap1 := [(7, 2 ^ 31 + 9)], mapBuf := 1 })).stk 11
     (AMap.getD u.arrMap 7 0).testBit 31 = true) ∧
    ((State.reset.onStk 11 (fun u => { u with arrMap0 := [(0, 2 ^ 31 + 7), (1, 2 ^ 31 + 7)], arrMap1 := [(0, 2 ^ 31 + 7), (1, 2 ^ 31 + 7)] })).stk 11).mapOk = false := by
  decide +kernel
theorem test_trim_swap :
    let s := State.reset.onStk 11 (fun u => { u with trim0 := [(264 * 64 * 639, 7)], trim1 := [(264 * 64 * 639, 7)] })
    tileOfConv (264 * 64 * 639) < 640 ∧ (s.stk 11).trimIn (264 * 64 * 639) = 7 ∧ trimOk 7 = false ∧
      trimOk ((State.reset.stk 11).trimIn 0) = false ∧ (State.reset.stk 11).trimIn (264 * 64 * 639) = 0 := by decide +kernel
theorem getD_const (l : List Nat) (w : Nat) {a : Nat} (h : a ∈ l) : AMap.get? (l.map (fun t => (t, w))) a = some w := by
  induction l with
  | nil => cases h
  | cons b t ih =>
    simp only [List.map_cons, AMap.get?]
    split
    · rfl
    · cases h with
      | head => contradiction
      | tail _ h => exact ih h
/-- Every record of the inactive buffers of stack 11 found by a self-calibration. -/
def calSt : State := State.reset.onStk 11 (fun u => { u with trimDef1 := (List.range 5120).map (fun t => (t, 1)) })
theorem test_trim_swap_ok : calSt.freeStack 11 = true ∧ (∀ e ∈ (calSt.stk 11).trim0 ++ (calSt.stk 11).trim1, trimOk e.2 = true) ∧
    (∀ key, tileOfConv key < 640 → (calSt.stk 11).trimDrawIn key ≠ 0) := by
  refine ⟨by decide +kernel, by decide +kernel, fun key h => ?_⟩
  have h0 : (calSt.stk 11).trimBuf (tileOfConv key) = 0 := by unfold calSt; rw [State.stk_onStk_same]; rfl
  have h1 : (calSt.stk 11).trimDef1 = (List.range 5120).map (fun t => (t, 1)) := by
    unfold calSt; rw [State.stk_onStk_same]
  have hg : convGroup key < 5120 := by unfold convGroup; unfold tileOfConv convs at h; omega
  unfold StackSt.trimDrawIn
  rw [if_pos h0, h1, AMap.getD, getD_const _ _ (by simpa using hg)]
  decide
theorem test_selfcal :
    let s := (regs [(R.CNV.SELFCAL_TILE, 11, 639)]).onStk 11 (fun u => { u with calRun := [639] })
    (s.stk 11).selfcal = none ∧ s.rd R.CNV.SELFCAL_TILE 11 < 640 ∧ (s.pieces 11).contains (s.rd R.CNV.SELFCAL_TILE 11) = true ∧
      (!s.en .afd 11) = true ∧ (!(s.wr (fieldEN .afd) 11 1).en .afd 11) = false := by decide +kernel
theorem test_selfcal_end :
    let s := State.reset.onStk 11 (fun u => { u with selfcal := some .stack })
    let u := (ownSt true).onStk 11 (fun u => { u with selfcal := some (.tile 639) })
    (s.stk 11).selfcal = some .stack ∧ s.stackClears 11 = false ∧ (State.reset.stk 11).selfcal = none ∧ (u.stk 11).selfcal = some (.tile 639) ∧
      u.freeStack 11 = false ∧ tileOfConv (264 * 64 * 639 + 264 * 64 - 1) = 639 ∧ tileOfConv 0 ≠ 639 := by decide +kernel

/-! ### Memory controllers -/

theorem test_mem_train : State.reset.en .mem 3 = false ∧ (State.reset.hub 3).training = false ∧ (regs [(fieldEN .mem, 3, 1)]).en .mem 3 = true ∧
    ((State.reset.onHub 3 (fun u => { u with training := true })).hub 3).training = true ∧ (5 : BitVec 128).toNat ≠ 2 ^ 128 - 1 ∧
    (BitVec.allOnes 128).toNat = 2 ^ 128 - 1 := by decide +kernel
theorem test_apply :
    let s := (regs [(R.MEM.CAP, 3, 512), (R.MEM.PART_SEL, 3, 11)]).onHub 3 (fun u => { u with partRegs := [(11, (511, 1))] })
    s.applyOk 3 11 = true ∧ (s.onPart 11 (fun q => { q with loadWait := true })).loading 11 = true ∧ s.partRange 3 11 = (511, 1) ∧
      (s.wr R.MEM.CAP 3 511).applyOk 3 11 = false ∧ State.reset.applyOk 0 0 = true ∧
      State.reset.partRange 0 0 = (0, 0) := by decide +kernel
theorem test_clear_done :
    let s := (regs [(fieldEN .mem, 3, 1)]).onHub 3 (fun u => { u with clearing := [11], frame0 := [(0, 27)], len0 := 1 })
      |>.onPart 11 (fun q => { q with ranges := [(3, 511, 1)] })
    11 ∈ (s.hub 3).clearing ∧ 11 ∉ (State.reset.hub 3).clearing ∧ s.en .mem 3 = true ∧ State.reset.en .mem 3 = false ∧
      ((s.frameAct 3).entries.any (fun e => feOwner e == 11 && feDir e == 1)) = true ∧
      ((up.frameAct 3).entries.all (fun e => feOwner e != 11 || feDir e != 1)) = true ∧ (s.part 11).inbox = [] ∧
      (s.part 11).loadWait = false := by decide +kernel

/-- Hub 0 with memory enabled, channel 127, the boot frame in the active buffer with a STEP slot of partition 0, an own frame in the other. -/
def memSt : State :=
  (coreSt g0 run0).wr (fieldEN .mem) 0 1 |>.wr R.MEM.CH_EN0 0 0 |>.wr R.MEM.CH_EN1 0 0 |>.wr R.MEM.CH_EN2 0 0 |>.wr R.MEM.CH_EN3 0 0x80000000 |>.onHub 0 (fun u => { u with
    frame0 := [(0, 0x0D), (5, 0), (7, 0x0C)], len0 := 1024, frame1 := [(0, 0x0D), (100, 0x0E), (256, 0x0D), (512, 0x0D), (768, 0x0D)], len1 := 1024 })

theorem test_channels : memSt.en .mem 0 = true ∧ (127 : Fin 128).val ∈ memSt.channels 0 ∧ 126 ∉ memSt.channels 0 ∧
  memSt.inDoze = false := by decide +kernel
theorem test_frame_check :
    let s := memSt.wr R.MEM.STAT_FRAME_PENDING 0 1
    memSt.is R.MEM.STAT_FRAME_PENDING 0 = false ∧ s.is R.MEM.STAT_FRAME_PENDING 0 = true ∧ s.frameFault 0 = none ∧
      (s.onHub 0 (fun u => { u with len1 := 1023 })).frameFault 0 = some (none, 1) := by decide +kernel
theorem test_frame_slot :
    ((memSt.wr R.MEM.STAT_FRAME_PENDING 0 1).onHub 0 (fun u => { u with frame1 := AMap.put u.frame1 101 0x0C idleEntry })).frameFault 0 =
      some (some 101, 4) := by decide +kernel
theorem test_forced :
    let s := (atTime 390 memSt).onHub 0 (fun u => { u with slotPos := 4, begun := true })
    s.en .mem 0 = true ∧ 127 ∈ s.channels 0 ∧ s.rd R.MEM.REF_TMAX 0 = 390 ∧
      AMap.getD (s.hub 0).lastRef 127 0 + s.rd R.MEM.REF_TMAX 0 ≤ s.clk.devTime ∧
      (atTime 389 s).clk.devTime < AMap.getD (s.hub 0).lastRef 127 0 + s.rd R.MEM.REF_TMAX 0 ∧
      (s.frameAct 0).nextSlot (s.hub 0).comes (· != 13) = some 5 ∧ feOwner ((s.frameAct 0).at 5) = 0 ∧
      (memSt.frameAct 0).nextSlot (memSt.hub 0).comes (· != 13) = some 1 ∧ 12 ≤ feOwner ((memSt.frameAct 0).at 1) := by decide +kernel
theorem test_scrub_taken : memSt.tooFast 0 = false ∧ (memSt.hub 0).taken = [] ∧
    (let s := memSt.onHub 0 (fun u => { u with taken := [(127, memSt.scrubPlace 0 127 + 1)] })
     s.isTaken 0 127 (s.scrubPlace 0 127) = true ∧ s.tooFast 0 = false) := by decide +kernel
theorem test_scrub :
    let b := memSt.patrolBurst 0 127 0
    let s (e : AMap Nat) : State := { memSt with memErr := [(b, e)] }
    AMap.getD { memSt with memWb := [(127, [(b, true)])] }.memWb (128 * 0 + 127) [] = (b, true) :: [] ∧
      AMap.getD memSt.memWb (128 * 0 + 127) [] = [] ∧ AMap.getD memSt.poi b 0 = 0 ∧ rsDecode (memSt.errOf b) = .clean ∧
      rsDecode ((s [(3, 5)]).errOf b) = .corrected ∧ rsDecode ((s [(3, 5), (4, 6)]).errOf b) = .failed ∧
      channelBursts ≤ (channelBursts - 1) + 1 ∧
      (let u := memSt.wr R.MEM.CH_EN3 0 0x80000001
       (96 : Nat) = u.firstChannel 0) := by decide +kernel
theorem test_step_slot :
    let s := memSt.onCore 0 (fun c => { c with xfers := [{ xfer .load with plan := 0 }] }) |>.onPart 0 (fun q => { q with
      setAct := { q.setAct with plan := [(0, List.replicate 1085 0)] } })
    let e := (s.frameAct 0).at 5
    5 < (s.frameAct 0).len ∧ ¬ 1024 < (s.frameAct 0).len ∧ s.tooFast 0 = false ∧ (∀ e ∈ (s.hub 0).taken, e.1 = 127 → e.2 ≠ 5 + 1) ∧
      inWin (memBase + 64 * 0) 64 = false ∧ feOwner e < 12 ∧ feUse e = 0 ∧
      s.planOf 0 (feOwner e) 5 = some 0 ∧
      (s.ownCores (feOwner e)).findSome? (fun cn => (s.nextBurst 0 127 0 (feDir e == 1) cn).map (fun b => (cn, b))) =
        some (0, { xfer .load with plan := 0 }, 0) ∧
      s.mbad (memBase + 64 * 0) 64 = false ∧ 12 ≤ feOwner ((s.frameAct 0).at 7) ∧
      AMap.getD ((s.onHub 0 (fun u => { u with taken := [(127, 6)] })).hub 0).taken 127 0 = 5 + 1 := by decide +kernel

/-! ### Supply and power states -/

/-- Partition 0 with stack 0, both active, at a target of 64 of every domain. -/
def powered : State := (part0.onPart 0 (fun q => { q with stks := 1 })).wr R.PWR.STACK_STATE 0 1 |>.wr R.PWR.PART_STATE 0 1

theorem test_pace_window : powered.domainOn 0 = true ∧ powered.domainOn 1 = false ∧ powered.domainOn 15 = true ∧
    (let c := powered.targetCount 0
     after (.paceWindow (List.replicate 16 (c + c * 3 / 200))) powered (fun t => t.is R.GLB.STAT_LOCKED 0 &&
        (powered.domainsOf 0).all (fun d => t.is R.PWR.PACE_STAT_LOCK (1 + d))) = true ∧
     after (.paceWindow [c + c * 3 / 200 + 1]) powered (fun t => !t.is R.GLB.STAT_LOCKED 0) = true) := by decide +kernel
theorem test_limiter :
    let s := powered.wr R.PWR.CAP_W 0 4000
    s.capW < 4001 ∧ s.dLim < 35 ∧ 100 * 3879 < 97 * s.capW ∧ ¬ 100 * 3880 < 97 * s.capW ∧ s.pwr.lowRun < 9 ∧
      9 ≤ ({ s.pwr with lowRun := 9 } : PwrSt).lowRun ∧ 4400 < 4401 := by decide +kernel
theorem test_over_limit :
    let s := { regs [(R.SECG.PART_STAT_EXISTS, 0, 1), (R.PWR.PACE_EFF_D_LIM, 0, 35)] with pwr := { State.reset.pwr with overRun := 9 } }
    (∀ d, d < 16 → s.eff d = 32) ∧ s.pwr.overRun = 9 ∧ s.partExists 0 = true ∧ (∀ q, q < 12 → s.partExists q = true → q = 0) ∧
      (s.part 0).step.phase = .idle := by decide +kernel
theorem test_power_fail : (37999 : Nat) < 38000 ∧ powered.is R.PWR.STAT_PFW 0 = false ∧ (powered.wr R.PWR.STAT_PFW 0 1).is R.PWR.STAT_PFW 0 = true ∧
    powered.partExists 0 = true ∧ (∀ q, q < 12 → powered.partExists q = true → q = 0) ∧ (powered.part 0).step.phase = .idle ∧
    (powered.wr R.BST.STAT_STATE 0 1).testing = true := by decide +kernel
theorem test_input : 59500 < 59501 ∧ (39999 : Nat) < 40000 ∧ (∀ h, h < 4 → (State.reset.hub h).commit = none) ∧ State.reset.testing = false := by
  decide +kernel
theorem test_quiet : powered.pwrPart = some 0 ∧ State.reset.pwrPart = none ∧ powered.partState 0 ≠ 2 ∧ powered.stepRuns 0 = false ∧
    (powered.onStep 0 (fun t => { t with phase := .running })).stepRuns 0 = true ∧ 0 ∈ powered.stacksOf 0 ∧ 1 ∉ powered.stacksOf 0 ∧
    (powered.wr R.PWR.PART_STATE 0 2).partState 0 = 2 ∧ 0 ∉ powered.pwr.rising ∧
    (0 : Nat) ∈ ({ powered.wr R.PWR.PART_STATE 0 2 with pwr := { powered.pwr with rising := [0] } }).pwr.rising := by decide +kernel
theorem test_active : powered.tripped 0 = false ∧ powered.rd R.PWR.STAT_MOD_STATE 0 ≠ 3 ∧ powered.pwr.move = 0 ∧ powered.is R.PWR.STAT_PFW 0 = false ∧
    powered.pwr.pfwEnd = none ∧ powered.is R.PWR.EVT_OVER_LIMIT 0 = false ∧ powered.testing = false ∧ powered.partState 0 = 1 ∧
      (powered.wr R.PWR.STAT_MOD_STATE 0 1).rd R.PWR.STAT_MOD_STATE 0 = 1 ∧ powered.owns 0 0 = true ∧
    (powered.wr R.PWR.PART_STATE 0 2).partState 0 ≠ 1 ∧ (powered.wr R.PWR.STAT_PFW 0 1).is R.PWR.STAT_PFW 0 = true := by decide +kernel
theorem test_state_done : 0 ∈ ({ powered with pwr := { powered.pwr with rising := [0] } }).pwr.rising ∧ (0 : Nat) ∉ powered.pwr.rising ∧
    ({ powered with pwr := { powered.pwr with move := 1 } }).pwr.move ≠ 0 ∧
    (let s := { powered.wr R.PWR.STAT_MOD_STATE 0 3 with pwr := { powered.pwr with move := 2 } }
     after .powerFailWarning s (fun t => t.pwr.move == 3 && after (.stateDone none) t (fun u =>
       u.rd R.PWR.STAT_MOD_STATE 0 == 3)) = true) := by decide +kernel
theorem test_doze : powered.dozeRefused = true ∧ (powered.wr R.PWR.PART_STATE 0 2).dozeRefused = false ∧
    (∀ p, p < 12 → (powered.wr R.PWR.PART_STATE 0 2).stepRuns p = false) ∧ (powered.wr R.PWR.PART_STATE 0 2).fab.qps = [] ∧
    (powered.wr R.PWR.STAT_MOD_STATE 0 3).rd R.PWR.STAT_MOD_STATE 0 = 3 ∧ (powered.wr R.PWR.STAT_MOD_STATE 0 3).pwr.move = 0 ∧
    powered.clk.released = true := by decide +kernel

/-! ### Reports and repair -/

/-- A report of a severity. -/
def rep (sev : Nat) : Report := { time := 0, unit := 9, inst := 0, loc := 0, kind := 4, sev := sev, count := 1, parts := 0, detail := 0 }

theorem test_windows :
    let s := State.reset.onHub 3 (fun u => { u with windows := List.replicate 64 { opened := 0, rep := rep 2 }, overflow := some { opened := 0, rep := rep 3 } })
    (atTime 1000000 s).passed 0 1000000 = true ∧ (atTime 999999 s).passed 0 1000000 = false ∧
    (if 63 < 64 then (s.hub 3).windows[63]? else (s.hub 3).overflow) = some { opened := 0, rep := rep 2 } ∧
      (if 64 < 64 then (s.hub 3).windows[64]? else (s.hub 3).overflow) = some { opened := 0, rep := rep 3 } ∧
      (if 0 < 64 then (State.reset.hub 3).windows[0]? else (State.reset.hub 3).overflow) = none := by decide +kernel
theorem test_push : byteAt (State.reset.fwRecord 3) 17 ≠ 3 ∧ byteAt ((regs [(R.RELG.FW_REC2, 3, 0x0300)]).fwRecord 3) 17 = 3 := by decide +kernel
theorem test_commit :
    let s := State.reset.onHub 3 (fun u => { u with commit := some (5, 3, [List.replicate 32 1]) })
    (State.reset.hub 3).commit = none ∧ (State.reset.hub 3).windows = [] ∧ (State.reset.hub 3).overflow = none ∧
      (s.hub 3).commit = some (5, 3, [List.replicate 32 1]) ∧ s.logStack 3 = 9 ∧ s.clk.resetHeld = false ∧
      (∀ i, i < 4 → i ≠ 3 → (s.hub i).commit = none) ∧
      (s.onNv (fun n => { n with logBad := [(9, 1), (10, 1)] })).logStack 3 = 11 := by decide +kernel

/-- Partition 0 with stack 0 and a model of one array, whose fault has a verdict, with a port to fetch from and one cover slot. -/
def faulty : State :=
  (((((part0.onPart 0 (fun q => { q with
      stks := 1, active := some (fetching [] false false 0 []).placement |>.map (fun pl => { pl with
        entries := [{ layer := 0, expert := 0, matrix := 0, flags := 0, rowblk := 0, colblk := 0, stack := 0, tier := 15, array := 61 }] })
      verdicts := [{ stack := 0, array := 61, tier := 15, group := 0, cause := 1, step := 0 }] })).wr R.REL.CTL_AUTO_REPAIR 0 1).wr
    (fieldEN .rel) 0 1).wr R.REL.COVER_SLOTS 0 1).wr R.FAB.STAT_LINK_UP 15 1).wr R.FAB.PORT_CFG_OWNERS 15 1

theorem test_detected :
    let s := faulty.onStep 0 (fun t => { t with phase := .running })
    let o : Origin := { unit := 9, inst := 3, loc := 0 }
    s.beforeCut 0 = true ∧ faulty.beforeCut 0 = false ∧ o ∉ (s.part 0).step.errors ∧
      (s.part 0).step.replays < clampN 1 7 (s.rd R.REL.CTL_REPLAY_MAX 0) ∧
      o ∈ ((s.onStep 0 (fun t => { t with errors := [o] })).part 0).step.errors ∧
      clampN 1 7 (s.rd R.REL.CTL_REPLAY_MAX 0) ≤ ((s.onStep 0 (fun t => { t with replays := 7 })).part 0).step.replays ∧
      (faulty.stepRuns 0 = false) ∧ offStep o = false ∧ offStep { o with unit := 8 } = true ∧
      ((faulty.onPart 0 (fun q => { q with inbox := [{ req := true, time := 0, bytes := [] }] })).part 0).inbox = [{ req := true, time := 0, bytes := [] }] := by decide +kernel
theorem test_cover_fetch :
    let v : Verdict := { stack := 0, array := 61, tier := 15, group := 0, cause := 1, step := 0 }
    faulty.is R.REL.CTL_AUTO_REPAIR 0 = true ∧ faulty.en .rel 0 = true ∧ faulty.nextVerdict 0 = some v ∧ part0.nextVerdict 0 = none ∧
      (List.range (faulty.rd R.REL.COVER_SLOTS 0)).find? (fun i => (AMap.get? (faulty.part 0).covers i).isNone) = some 0 ∧
      faulty.clears 0 = false ∧ faulty.hasModel 0 = true ∧
      faulty.canFetch 0 (((faulty.footprintBlks 0 v.stack v.array).map (·.2.shardKey)).eraseDups) = true ∧
      (faulty.wr R.FAB.PORT_CFG_OWNERS 15 0).canFetch 0 (((faulty.footprintBlks 0 v.stack v.array).map (·.2.shardKey)).eraseDups) = false ∧
      (let s := faulty.onPart 0 (fun q => { q with covers := [(0, { stack := 0, array := 0 })] })
       (List.range (s.rd R.REL.COVER_SLOTS 0)).find? (fun i => (AMap.get? (s.part 0).covers i).isNone) = none ∧ s.rd R.REL.COVER_SLOTS 0 ≠ 0) := by
  decide +kernel
/-- The same state with 1 ms of SHARD_TMO. -/
def slow (s : State) : State := s.onPart 0 (fun q => { q with active := q.active.map (fun pl => { pl with fetch := { shardTmo := 1 } }) })
-- a failure in the loader while it fetches for a cover, and errors at an idle stack and in an idle scratch
theorem test_detected_idle :
    let c : Cover := { stack := 0, array := 61 }
    let s := slow (faulty.onPart 0 (fun q => { q with covers := [(0, c)] }))
    (s.part 0).repairs = [] ∧ (s.part 0).covers = [(0, c)] ∧ c.ready = false ∧ s.tmoOver (s.fetchInfo 0) c.since = false ∧
      AMap.getD c.tries (2 ^ 31 % 2 ^ 31) 0 < 3 ∧ (2 ^ 31).testBit 31 = true ∧
      (∃ x ∈ s.footprintBlks 0 c.stack c.array, x.2.shardKey = 2 ^ 31 % 2 ^ 31 ∧ ∀ y ∈ c.tiers, y.1 ≠ x.1) ∧
      s.owns 0 (0 / 4) = true ∧ bits (2 ^ 26) 26 6 ≠ 0 ∧ s.beforeCut 0 = false := by decide +kernel
theorem test_cover_ready :
    let s := faulty.onPart 0 (fun q => { q with covers := [(0, { stack := 0, array := 61 })] })
    (s.part 0).repairs = [] ∧ AMap.get? (s.part 0).covers (31 : Fin 32).val = none ∧
      AMap.get? (s.part 0).covers (0 : Fin 32).val = some { stack := 0, array := 61 } ∧
      s.clears 0 = false ∧ s.footprintBlks 0 0 61 ≠ [] ∧ (∀ x ∈ s.footprintBlks 0 0 61, s.shardGot 0 x.2.shardKey [(0, [])] = .good []) ∧
      (∀ x ∈ s.footprintBlks 0 0 61, s.shardGot 0 x.2.shardKey [] = .none) ∧
      (∀ x ∈ s.footprintBlks 0 0 61, s.shardGot 0 x.2.shardKey [(0, [1])] = .bad) ∧
      s.gotFails 0 3 0 .bad = true ∧ s.gotFails 0 2 0 .bad = false ∧
      (s.onHub 3 (fun u => { u with clearing := [0] })).clears 0 = true ∧
      (let t := slow s
       t.tmoOver (t.fetchInfo 0) 0 = false ∧ (atTime 1000000 t).gotFails 0 0 0 .none = true ∧
         (atTime 999999 t).tmoOver (t.fetchInfo 0) 0 = false) := by decide +kernel
/-- Its cover is ready. -/
def covered : State :=
  ((faulty.onPart 0 (fun q => { q with covers := [(0, { stack := 0, array := 61, ready := true, tiers := [(15, 0, [7])] })] })).wr
    R.REL.SPARE_CTL_ARRAY 0 61).wr R.REL.SPARE_PHYS 0 61
theorem test_spare :
    let y : Cover := { stack := 0, array := 61, ready := true, tiers := [(15, 0, [7])] }
    covered.partExists 0 = true ∧ covered.rd R.REL.SPARE_CTL_STACK 0 = 0 ∧ covered.rd R.REL.SPARE_CTL_ARRAY 0 = 61 ∧
      covered.rd R.REL.SPARE_PHYS 0 = 61 ∧
      covered.coverOf 0 0 61 = some y ∧ covered.owns 0 0 = true ∧ (covered.part 0).spareRun = none ∧ covered.coverOf 0 0 60 = none ∧
      y.spareTiers none = y.tiers ∧ y.spareTiers (some []) = [] ∧ y.spareTiers (some [(0, 0)]) = y.tiers ∧
      (∀ x ∈ y.tiers, covered.worn 0 61 x.1 = false) ∧ (∀ x ∈ y.tiers, covered.worn 0 ((covered.stk 0).physOf 61) x.1 = false) ∧
      isSpare 61 = true ∧ isSpare 60 = false ∧ (covered.stk 0).mapsSpare 61 = false ∧ y.tiers = [(15, 0, [7])] ∧
      (let s := ((covered.onPart 0 (fun q => { q with spareRun := some (0, 61, 61) })).wr R.PWR.STACK_STATE 0 1).wr R.WLDG.PROG_RATE_RATE 0 1
       (s.part 0).spareRun = some (0, 61, 61) ∧ s.progPaused 0 = false ∧ (s.wr R.WLDG.PROG_RATE_RATE 0 0).progPaused 0 = true ∧
         s.coverOf 0 0 61 = some y ∧ (s.part 0).spareCols = none) := by decide +kernel
-- a spare-column program over cells that hold a block
theorem test_spare_columns :
    let old : TierCells := { wmode := 1, vals := [7], failed := [(5, 1, 1), (2080, 1, 1)] }
    let s := ((((covered.onPart 0 (fun q => { q with spareRun := some (0, 61, 61), spareCols := some [(3, 0)] })).wr R.PWR.STACK_STATE 0 1).wr
      R.WLDG.PROG_RATE_RATE 0 1).onNv (fun n => { n with cells := [(nvKey 0 61 15, old)] }))
    (s.part 0).spareRun = some (0, 61, 61) ∧ s.progPaused 0 = false ∧ (s.part 0).spareCols = some [(3, 0)] ∧
      AMap.get? s.nv.cells (nvKey 0 61 15) = some old ∧ (s.coverOf 0 0 61).isSome = true ∧
      after (.spareProgramEnd 0 1 0) s (fun t => (AMap.get? t.nv.cells (nvKey 0 61 15)).map (fun c =>
        (c.vals, c.failed)) == some ([7], [(5, 1, 1)])) = true := by
  decide +kernel
theorem test_mask_clear :
    let s := faulty.onStk 0 (fun u => { u with masked := [(0, 1)] })
    s.owns 0 (s.rd R.REL.MASK_CTL_STACK 0) = true ∧ AMap.getD (s.stk 0).masked 0 0 ≠ 0 ∧ AMap.getD (faulty.stk 0).masked 0 0 = 0 ∧
      s.unstepped 0 = true ∧ (s.onPart 0 (fun q => { q with stepped := true })).unstepped 0 = false := by decide +kernel
theorem test_unavail :
    let s := (loadSt.wr R.REL.UNAVAIL_BASE 0 memBase).wr R.REL.UNAVAIL_EXPERT 0 15
    s.unstepped 0 = true ∧ (s.part 0).unavailPend = [] ∧
      s.inPart 0 (s.rd R.REL.UNAVAIL_BASE 0 + 8192 * s.rd R.REL.UNAVAIL_LAYER 0 + s.rd R.REL.UNAVAIL_EXPERT 0 / 8) 1 = true := by decide +kernel

/-! ### Boot, identity and partitions -/

theorem test_release : State.reset.clk.released = false ∧ lcDecide State.reset.nv.lc = some 0 ∧ lcDecide [3, 3, 1] = some 2 ∧
  lcDecide [1, 3, 1] = none ∧
    lcDecide [7, 7, 7] = some 3 ∧ lcDecide [3, 0, 0] = none ∧ State.reset.nv.fw = [] ∧ ([0, 1] : List Nat).getD 3 0 = 0 ∧
      (3 : Nat) ∉ State.reset.nv.lcCleared ∧
    ({ State.reset with clk := { State.reset.clk with released := true } }).clk.released = true := by decide +kernel
theorem test_reset_assert : (∀ h, h < 4 → (State.reset.hub h).commit = none) ∧
    (∃ h, h < 4 ∧ ((State.reset.onHub 3 (fun u => { u with commit := some (0, 3, []) })).hub h).commit ≠ none) :=
  ⟨by decide +kernel, 3, by decide, by decide +kernel⟩
theorem test_refclk : State.reset.clk.refOn = true ∧ (∀ p, p < 12 → State.reset.stepRuns p = false) ∧ State.reset.fab.qps = [] ∧
  (State.reset.wr R.HLK.STAT_LINK_UP 0 1).linkIsUp = true ∧
    ({ State.reset with clk := { State.reset.clk with refOn := false } }).clk.refOn = false := by decide +kernel
theorem test_return_clear :
    let s := State.reset.onSec (fun c => { c with retClear := [11] })
    (11 : Fin 12).val ∈ s.sec.retClear ∧ s.sec.retClear = [(11 : Fin 12).val] ∧ (0 : Fin 12).val ∉ s.sec.retClear := by decide +kernel
/-- A stage in FIELD, code of one byte, SVN 1, signed with slot 1's key of zeros; its signature is zeros too. -/
def stageOf (n : Nat) : List Byte :=
  frame 273 [(0, [0x4B, 0x57, 0x46, 0x57, 0x53, 0x54, 0x47, 0x31, n, 1, 1]), (12, [1]), (24, (shake256 (bytes [0]) 64).map (·.toNat))]
/-- Such a stage 2. -/
def stage0 : List Byte := stageOf 2
/-- A module in a life-cycle state whose key slots 0 to 3 have that key's digest. -/
def lcSt (st : Nat) : State :=
  (State.reset.onNv (fun n => { n with keyDigests := List.replicate 4 (shake256 (List.replicate 57 0) 32), devId := 7 })).wr R.SECG.STAT_LC_STATE 0 st
/-- The stage at the start of steward memory of hub 0. -/
def stageSt : State := ((lcSt 2).stewWr 0 0 stage0).wr R.SECG.VERIFY_ADDR 0 stewBase

theorem stage_ok {n : Nat} (hn : n = 1 ∨ n = 2)
    (h : Config.ed448Verify (stageKey (stageOf n)) ((stageOf n).take 152) (((stageOf n).drop 152).take 114) = true) :
    (lcSt 2).stageOk n (stageOf n) = true := by
  have a : ((stageOf n).take 8 == ascii "KWFWSTG1" && byteAt (stageOf n) 8 == n && zerosAt (stageOf n) 11 1 && zerosAt (stageOf n) 145 7 && zerosAt (stageOf n) 266 6 &&
    decide (hdrBytes + fieldLE (stageOf n) 12 4 ≤ stageMax n) && (((stageOf n).drop hdrBytes).take (fieldLE (stageOf n) 12 4)).length == fieldLE (stageOf n) 12 4 &&
    decide (stageSvn (stageOf n) ≤ 64) && (lcSt 2).keyOfSlot (stageSlot (stageOf n)) (stageKey (stageOf n)) && slotAllowed (lcSt 2).lcState (stageSlot (stageOf n))) = true := by
    rcases hn with rfl | rfl <;> decide +kernel
  have b : (shake256 (((stageOf n).drop hdrBytes).take (fieldLE (stageOf n) 12 4)) 64 == ((stageOf n).drop 24).take 64 && decide ((lcSt 2).nv.svn ≤ stageSvn (stageOf n))) = true := by
    rcases hn with rfl | rfl <;> decide +kernel
  simp only [Bool.and_eq_true] at a b
  unfold State.stageOk
  simp only [Bool.and_eq_true]
  exact ⟨⟨⟨a, h⟩, b.1⟩, b.2⟩
/-- A module in RECOVERY with an update of a stage 1 in slot A. -/
def updSt : State :=
  (((lcSt 2).onNv (fun n => { n with fw := [(0, { stage1 := stageOf 1, stage2 := [] })] })).wr R.SECG.STAT_RECOVERY 0 1).onMgt (fun m =>
    { m with upd := true })
theorem update_ok (h : Config.ed448Verify (stageKey (stageOf 1)) ((stageOf 1).take 152) (((stageOf 1).drop 152).take 114) = true) :
    updSt.updateOk = true := by
  have a : updSt.stageOk 1 (stageOf 1) = true := by
    have e : updSt.stageOk 1 (stageOf 1) = (lcSt 2).stageOk 1 (stageOf 1) := by
      unfold State.stageOk
      rw [show updSt.keyOfSlot (stageSlot (stageOf 1)) (stageKey (stageOf 1)) = (lcSt 2).keyOfSlot (stageSlot (stageOf 1)) (stageKey (stageOf 1)) by decide +kernel,
        show updSt.lcState = (lcSt 2).lcState by decide +kernel, show updSt.nv.svn = (lcSt 2).nv.svn by rfl]
    rw [e]; exact stage_ok (.inl rfl) h
  have f : updSt.fwSlot 0 = { stage1 := stageOf 1, stage2 := [] } := by decide +kernel
  unfold State.updateOk
  rw [f]; dsimp only; rw [a]; decide +kernel
theorem test_update :
    let s := up
    s.lcState ≠ 4 ∧ (lcSt 4).lcState = 4 ∧ (List.replicate 4096 (0 : Byte)).length ≤ 4096 ∧ stageMax (1 + 1) < stageMax 2 + 1 ∧
      s.mgt.upd = false ∧ (s.onMgt (fun m => { m with upd := true, updOk := true })).mgt.upd = true ∧ s.updateOk = false ∧
      updSt.mgt.upd = true ∧ updSt.is R.SECG.STAT_RECOVERY 0 = true ∧ (updSt.fwSlot 0).stage1 ≠ [] ∧
      (let u := s.onSec (fun c => { c with stage1 := [1] })
       u.mgt.upd = false ∧ u.rd R.SECG.STAT_RECOVERY 0 = 0 ∧ u.rd R.SECG.STAT_BOOT_SLOT 0 = 0 ∧ u.sec.stage1 ≠ []) := by decide +kernel
theorem test_activate : isPldm 5 0x1A (bytes [1, 0x80, 5, 0x1A, 0]) = true ∧ byteAt (bytes [1, 0x80, 5, 0x1A, 0]) 4 = 0 ∧
    byteAt (bytes [1, 0x80, 5, 0x1A, 1]) 4 ≠ 0 ∧ isPldm 5 0x1A [] = false ∧
    (lcSt 4).lcState = 4 ∧ up.lcState ≠ 4 ∧ up.mgt.upd = false := by decide +kernel

theorem test_lc_go :
    let s := (lcSt 0).wr R.SECG.LC_CTL_TARGET 0 1
    s.rd R.SECG.PART_STAT_EXISTS 0 = 0 ∧ s.is R.SECG.STAT_LC_PENDING 0 = false ∧ s.lcAllowed (s.rd R.SECG.LC_CTL_TARGET 0) = true ∧
      (State.reset.wr R.SECG.LC_CTL_TARGET 0 1).lcAllowed 1 = false := by decide +kernel
theorem test_sec_verify :
    let hdr := stageSt.stewRd 0 (stageSt.rd R.SECG.VERIFY_ADDR 0 - stewBase) 272
    hdr ++ stageSt.stewRd 0 (stageSt.rd R.SECG.VERIFY_ADDR 0 - stewBase + 272) (fieldLE hdr 12 4) = stage0 ∧
      stewBase ≤ stageSt.rd R.SECG.VERIFY_ADDR 0 ∧
      272 + fieldLE hdr 12 4 ≤ stewSize ∧ byteAt hdr 8 = 2 ∧ State.reset.rd R.SECG.VERIFY_ADDR 0 < stewBase := by decide +kernel
theorem test_svn : State.reset.nv.svn < (regs [(R.SECG.SVN_RUNNING, 0, 1)]).rd R.SECG.SVN_RUNNING 0 ∧
    State.reset.rd R.SECG.SVN_RUNNING 0 ≤ State.reset.nv.svn := by decide +kernel
theorem test_revoke :
    let s := (regs [(R.SECG.KEY_REVOKE_SLOT, 0, 3)]).onNv (fun n => { n with revoked := 6 })
    let k := s.rd R.SECG.KEY_REVOKE_SLOT 0
    (1 ≤ k ∧ ∀ i, 1 ≤ i → i ≤ 3 → (s.nv.revoked.testBit i = false ↔ i = k)) ∧ State.reset.sec.stage2 = [] ∧ k ≤ 3 ∧
      (1 : Nat) ≠ k ∧ State.reset.nv.revoked.testBit 1 = false ∧ stageSlot stage0 = 1 := by
  refine ⟨⟨by decide +kernel, ?_⟩, by decide +kernel⟩
  intro i h1 h3
  obtain rfl | rfl | rfl : i = 1 ∨ i = 2 ∨ i = 3 := by omega
  all_goals decide +kernel
theorem test_id : (lcSt 1).lcState = 1 ∧ (lcSt 1).nv.banks = [] ∧ State.reset.lcState ≠ 1 := by decide +kernel

/-- CREATE of partition 11 with the stacks of hub 3, tag 9. -/
def createSt : State := regs [(R.SECG.PART_CTL_PART, 0, 11), (R.SECG.PART_STACKS, 0, 0xE00), (R.SECG.PART_TAG, 0, 9), (R.SECG.PART_CORES1_HUB3, 0, 2048),
  (R.NOC.STAT_STACK_LINK_UP, 3, 7)]
theorem test_create : createSt.rd R.SECG.PART_CTL_PART 0 = 11 ∧ createSt.createReason (createSt.partReq true) = 0 ∧
    State.reset.createReason (State.reset.partReq true) = 5 ∧ createSt.partWaits (createSt.partReq true) = false ∧
    12 ≤ (createSt.wr R.SECG.PART_CTL_PART 0 12).rd R.SECG.PART_CTL_PART 0 ∧ 11 ∈ maskBits 12 (createSt.rd R.SECG.PART_STACKS 0) ∧
    AMap.getD createSt.nv.tags 11 0 ≠ createSt.rd R.SECG.PART_TAG 0 ∧
    (∀ k ∈ maskBits 12 (createSt.rd R.SECG.PART_STACKS 0),
      AMap.getD (createSt.onNv (fun n => { n with tags := [(9, 9), (10, 9), (11, 9)] })).nv.tags k 0 = createSt.rd R.SECG.PART_TAG 0) := by decide +kernel
theorem test_part_clear :
    let s := State.reset.onPart 11 (fun q => { q with clear := [(11, 0)] })
    (s.part 11).clear ≠ [] ∧ (∀ e ∈ (s.part 11).clear, e.2 = 0 → (s.stk e.1).selfcal = none) ∧ (State.reset.part 11).clear = [] ∧
      s.sec.partQ = [] ∧ (∀ q, q < 11 → (s.part q).clear = []) ∧
      -- a CREATE of another partition waits, and starts when the clear has ended; a DESTROY of the same one does not wait
      s.partWaits (s.partReq true) = true ∧ s.partWaits (s.partReq false) = true ∧
      (s.wr R.SECG.PART_CTL_PART 0 11).partWaits ((s.wr R.SECG.PART_CTL_PART 0 11).partReq false) = false ∧
      after .partCreate s (fun t => t.sec.partQ == [s.partReq true]) = true ∧
      (let u := (State.reset.onSec (fun c => { c with partQ := [s.partReq true] })).partDrain 1
       (u.rd R.SECG.PART_ERR 0 == 5 && u.sec.partQ == []) = true) := by
  decide +kernel
theorem test_part_clears_alone (q : Nat) (h : q ≠ 11) : ((State.reset.onPart 11 (fun q => { q with clear := [(11, 0)] })).part q).clear = [] := by
  rw [State.part_onPart_other _ _ _ _ h]; rfl
theorem test_destroy : part0.rd R.SECG.PART_CTL_PART 0 = 0 ∧ part0.destroyReason 0 = 0 ∧ State.reset.destroyReason 0 = 7 ∧
    part0.partWaits (part0.partReq false) = false ∧
    (part0.wr (fieldEN .kve) 0 1).destroyReason 0 = 6 ∧ (0 : Nat) ∈ (part0.onPart 0 (fun q => { q with stks := 1 })).stacksOf 0 ∧
    (let s := part0.onPart 0 (fun q => { q with ranges := [(0, 0, 4)] })
     s.destroyReason 0 = 0 ∧ (∀ x ∈ (s.part 0).ranges, memBase + 2 ^ 32 < rangeBase x ∨
       rangeBase x + rangeSize x ≤ memBase + 2 ^ 32)) := by decide +kernel
theorem test_send :
    let s := ((part0.wr R.SEC.MB_LEN 0 5).wr R.HLK.HOST_PARTS 0 1).mboxPut 0 (bytes [5, 0x10, 0x84, 0, 0])
    s.partExists 0 = true ∧ State.reset.partExists 0 = false ∧ 0 ∉ s.sec.lostHost ∧
      0 ∈ (s.onSec (fun c => { c with lostHost := [0] })).sec.lostHost ∧ s.is R.SEC.STAT_BUSY 0 = false ∧
        (s.wr R.SEC.STAT_BUSY 0 1).is R.SEC.STAT_BUSY 0 = true ∧
      part0.rd R.SEC.MB_LEN 0 = 0 ∧ 2048 < (part0.wr R.SEC.MB_LEN 0 2049).rd R.SEC.MB_LEN 0 ∧ 0 < s.rd R.SEC.MB_LEN 0 ∧ s.rd R.SEC.MB_LEN 0 ≤ 2048 ∧
      (s.spdmOpen 0 (s.mboxRd 0 (s.rd R.SEC.MB_LEN 0))).map (·.known) = some true := by decide +kernel

/-! ### The SPDM responder -/

/-- A bare SPDM request over MCTP: version 1.3, code and further bytes. -/
def spdm (code : Nat) (l : List Nat) : List Byte := bytes ([0x13, code] ++ l)
/-- A module in a life-cycle state with an identity's certificate, and a connection at a stage. -/
def spdmSt (lc stage : Nat) : State :=
  ((lcSt lc).onNv (fun n => { n with cert := [1, 2] })).onConn 12 (fun c => { c with stage := stage, outBuf := [1] })

theorem test_spdm_rows : (spdmSt 2 0).spdmLive 12 = true ∧ (lcSt 4).spdmLive 12 = false ∧ (spdmSt 2 0).spdmOpen 12 [] = none ∧
    (∀ x ∈ [((0x84 : Nat), (none : Option Nat)), (0xFE, some 1)], ((spdmSt 2 0).spdmOpen 12 ((5 : Byte) :: spdm x.1 [])).map (·.code) = some x.1) := by
  decide +kernel
theorem test_spdm_length : (List.replicate 4097 (5 : Byte)).length = 4097 ∧ 4096 < 4097 ∧ (spdm 0x84 []).length < 4096 ∧
    byteAt (bytes [2, 0x13, 0x84]) 0 % 128 ∉ [0, 1, 5, 6] ∧ byteAt ((5 : Byte) :: spdm 0x84 []) 0 % 128 ∈ [0, 1, 5, 6] ∧
    after (.spdmGetVersion .mctp (bytes [2, 0x13, 0x84])) (spdmSt 2 0) (fun t => t.rd R.MGT.MCTP_DROP_CNT 0 == 1) = true := by
  refine ⟨by simp only [List.length_replicate], by decide +kernel⟩
theorem test_spdm_algorithms :
    let m := spdm 0xE3 [0, 0, 0, 0, 0, 0, 0, 8, 0, 0, 32, 0, 0, 0]
    byteAt m 0 = 0x13 ∧ byteAt m 1 = 0xE3 ∧ ((spdmSt 2 2).conn 12).stage = 2 ∧ (fieldLE m 8 4).testBit 11 = true ∧ (fieldLE m 12 4).testBit 5 = true ∧
      (fieldLE (spdm 0xE3 []) 8 4).testBit 11 = false ∧ ((lcSt 2).conn 12).stage = 0 := by decide +kernel
theorem test_spdm_certificate :
    let m := spdm 0x82 [0, 0, 1, 0, 0xFF, 0xFF]
    (spdmSt 2 3).lcState ≠ 4 ∧ ((spdmSt 2 3).conn 12).stage = 3 ∧ (spdmSt 2 3).certChain ≠ [] ∧ (spdmSt 2 3).idUse = true ∧
      (spdmSt 0 3).idUse = false ∧
      byteAt m 2 % 16 = 0 ∧ fieldLE m 4 2 < (spdmSt 2 3).certChain.length ∧ byteAt (spdm 0x83 [0]) 2 % 16 = 0 := by decide +kernel
theorem test_spdm_measurements :
    let s := (part0.onNv (fun n => { n with cert := [1] }))
    byteAt (spdm 0xE0 [0, 0x10]) 3 ∈ s.measIndices 12 ∧ byteAt (spdm 0xE0 [0, 0x10]) 3 ≠ 0 ∧ byteAt (spdm 0xE0 [0, 0x10]) 3 ≠ 0xFF ∧
      byteAt (spdm 0xE0 [0, 0x1B]) 3 ∉ s.measIndices 12 ∧ byteAt (spdm 0xE0 [0, 0]) 3 = 0 := by decide +kernel
theorem test_spdm_chunks :
    let m := spdm 0x85 ([0, 1, 0, 0, 0, 0, 4, 0, 0, 0] ++ List.replicate 8 9)
    fieldLE m 4 2 = 0 ∧ (byteAt m 2).testBit 0 = false ∧ ((m.drop 16).take (fieldLE m 8 4)).length ≤ 4096 ∧ ((lcSt 2).conn 12).outBuf = [] ∧
      ((spdmSt 2 3).conn 12).outBuf ≠ [] ∧ fieldLE (spdm 0x86 [0, 1, 0, 0]) 4 2 = ((spdmSt 2 3).conn 12).outNext ∧
      fieldLE (spdm 0x86 [0, 1, 1, 0]) 4 2 ≠ ((spdmSt 2 3).conn 12).outNext := by decide +kernel

theorem test_key_exchange : (spdmSt 2 3).sec.sessions.length < 16 ∧ 138 ≤ (spdm 0xE4 (List.replicate 136 0)).length ∧
    16 ≤ ((spdmSt 2 3).onSec (fun c => { c with sessions := (List.range 16).map (fun i =>
      (i, { via := 12 })) })).sec.sessions.length := by decide +kernel
/-- Session 7 over MCTP of partition 0's module, open or not. -/
def sessSt (o : Bool) : State := (part0.wr R.SECG.STAT_LC_STATE 0 2).onSec (fun c => { c with sessions := [(7, { via := 12, open_ := o })] })
/-- A secured record of it. -/
def secured : List Byte := bytes ([6, 7] ++ List.replicate 30 0)
/-- A plain message in a record that opens is the request that the session gives. -/
theorem session_request (o : Bool) (p : List Byte)
    (h : Config.gcmOpen (({ via := 12, open_ := o } : Session).record true).1 (({ via := 12, open_ := o } : Session).record true).2
      ((secured.drop 1).take 8) (secured.drop 9) = some p) :
    (sessSt o).spdmOpen 12 secured = some { via := 12, sess := some 7, msg := (p.drop 3).take (fieldLE p 0 2 - 1) } := by
  have a : byteAt secured 0 = 6 := by decide +kernel
  have b : fieldLE secured 1 4 = 7 := by decide +kernel
  have c : AMap.get? (sessSt o).sec.sessions 7 = some { via := 12, open_ := o } := by cases o <;> decide +kernel
  unfold State.spdmOpen
  simp [-List.drop_one, a, b, c, h]
/-- The plain record of a message: its length, the message type, the message. -/
def plain (m : List Byte) : List Byte := leBytes 2 (m.length + 1) ++ [5] ++ m
/-- A vendor-defined request of an opcode with a payload, with a vendor ID of four bytes. -/
def vendor (opcode : Nat) (l : List Byte) : List Byte := spdm 0xFE ([0, 0, 0, 0, 4, 0, 0, 0, 0] ++ [l.length + 2, 0, opcode, 0]) ++ l
theorem test_session_messages : AMap.get? (sessSt true).sec.sessions 7 = some { via := 12, open_ := true } ∧
    (∀ m ∈ [spdm 0xE8 [0, 0], spdm 0xE9 [1, 0], spdm 0xEC [0, 0], vendor 1 []],
      ((plain m).drop 3).take (fieldLE (plain m) 0 2 - 1) = m ∧ byteAt m 0 = 0x13) ∧
    byteAt (spdm 0xE9 [1, 0]) 2 = 1 ∧ byteAt (spdm 0xE5 []) 1 = 0xE5 := by decide +kernel
theorem test_finish : (spdm 0xE5 [0, 0] ++ Config.verifyData [] (spdm 0xE5 [0, 0]) true).drop 4 =
    Config.verifyData ([] : List Byte) ([] ++ (spdm 0xE5 [0, 0] ++ Config.verifyData [] (spdm 0xE5 [0, 0]) true).take 4) true := rfl
theorem test_session_keys :
    let b := vendorPayload (vendor 1 (bytes ([0, 5, 0, 0, 0] ++ List.replicate 32 9)))
    let e := vendorPayload (vendor 2 (bytes [0, 5, 0, 0, 0]))
    let k := vendorPayload (vendor 0x10 (List.replicate 57 3))
    let r := vendorPayload (vendor 0x11 (List.replicate 16 3))
    fieldLE b 0 2 = 1 ∧ b.length = 39 ∧ fieldLE b 3 4 = 5 ∧ byteAt b 2 = 0 ∧ (sessSt true).partExists 0 = true ∧
      ((sessSt true).part 0).imgKeys.length < 64 ∧
      AMap.get? ((sessSt true).part 0).imgKeys 5 = none ∧ fieldLE e 0 2 = 2 ∧ e.length = 7 ∧ fieldLE e 3 4 = 5 ∧ fieldLE k 0 2 = 0x10 ∧
        k.length = 59 ∧
      k.drop 2 ∉ (sessSt true).nv.pubKeys ∧ (sessSt true).nv.pubKeys.length < 32 ∧ fieldLE r 0 2 = 0x11 ∧ r.length = 18 ∧
      (∀ q, q < 12 → ((sessSt true).part q).load = none) := by decide +kernel

/-! ### Management and self-tests -/

theorem test_watchdog :
    let s := { regs [(R.MGT.STAT_STEWARD_OK, 3, 8), (R.MGT.WDOG_MS, 3, 100)] with clk := { State.reset.clk with devTime := 10099999999 } }
    (s.rd R.MGT.STAT_STEWARD_OK 3).testBit 3 = true ∧ AMap.getD s.mgt.kicks 15 0 + s.wdogNs 3 ≤ s.clk.devTime ∧ AMap.getD s.mgt.resets 15 [] = [] ∧
      s.clk.devTime < 100000000 + 10000000000 ∧ (s.rd R.MGT.STAT_STEWARD_OK 3).testBit 0 = false ∧
      AMap.getD (s.onMgt (fun m => { m with resets := [(15, [100000000, 200000000])] })).mgt.resets 15 [] = 100000000 :: 200000000 :: [] := by decide +kernel
theorem test_watchdog_restart :
    let s := (atTime (lcSt 2 |>.wdogNs 3) ((lcSt 2).wr R.MGT.STAT_STEWARD_OK 3 8)).onMgt (fun m => { m with entry := 64 })
    (s.rd R.MGT.STAT_STEWARD_OK 3).testBit 3 = true ∧ AMap.getD s.mgt.kicks 15 0 + s.wdogNs 3 ≤ s.clk.devTime ∧ AMap.getD s.mgt.resets 15 [] = [] ∧
      after (.watchdogExpiry 3 3) s (fun t => AMap.get? t.mgt.started 15 == some (stewBase + 64)) = true := by decide +kernel
theorem test_kick : (1 : BitVec 4).getLsbD 0 = true ∧ (1 : BitVec 4).getLsbD 1 = false := by decide +kernel
theorem test_address : up.is R.MGT.STAT_I3C_ADDR_VALID 0 = false ∧ (up.wr R.MGT.STAT_I3C_ADDR_VALID 0 1).is R.MGT.STAT_I3C_ADDR_VALID 0 = true ∧
    (0x37 : Fin 128).val = 0x30 + (up.wr R.GLBG.STRAP_POSITION 0 31).rd R.GLBG.STRAP_POSITION 0 % 8 ∧
    (0x30 : Fin 128).val ≠ 0x30 + (up.wr R.GLBG.STRAP_POSITION 0 31).rd R.GLBG.STRAP_POSITION 0 % 8 := by decide +kernel
theorem test_events_enabled :
    let s := up.onMgt (fun m => { m with i3cOff := 1, mctpOut := [[1]] })
    s.mgt.mctpOut ≠ [] ∧ s.mgt.i3cOff % 2 = 1 ∧ (1 : Byte).getLsbD 0 = true ∧ after (.i3cEnec 1) s (fun t =>
      t.mgt.ibi == [0xAE] && t.mgt.i3cOff == 0) = true := by
  decide +kernel
theorem test_mctp_drop : byteAt (bytes [2]) 0 % 128 ∉ [0, 1, 5, 6] ∧ 4096 < (List.replicate 4097 (1 : Byte)).length ∧
    (mctpRows (bytes [2])).all (fun c => after c up (fun t => t.rd R.MGT.MCTP_DROP_CNT 0 == 1)) = true := by
  refine ⟨by decide +kernel, by rw [List.length_replicate]; decide, by decide +kernel⟩
theorem test_control : isControl 1 (bytes [0, 0x80, 1, 1, 254]) = true ∧ byteAt (bytes [0, 0x80, 1, 1, 254]) 3 ≤ 1 ∧
  byteAt (bytes [0, 0x80, 1, 1, 254]) 4 ≠ 255 ∧
    byteAt (bytes [0, 0x80, 1, 1, 254]) 4 ≠ 0 ∧ 1 < byteAt (bytes [0, 0x80, 1, 2, 9]) 3 ∧ byteAt (bytes [0, 0x80, 1, 1, 255]) 4 = 255 ∧
    isControl 2 (bytes [0, 0x80, 2]) = true ∧ isControl 3 (bytes [0, 0x80, 3]) = true ∧ isControl 4 (bytes [0, 0x80, 4, 255]) = true ∧
    byteAt (bytes [0, 0x80, 4, 255]) 3 = 255 ∧ isControl 5 (bytes [0, 0x80, 5]) = true ∧ isControl 1 [] = false := by decide +kernel

theorem test_pldm :
    let m (type cmd : Nat) (l : List Nat) := bytes ([1, 0x80, type, cmd] ++ l)
    State.reset.fwAnswers = true ∧ (lcSt 4).fwAnswers = false ∧
      (∀ x ∈ [(0, 2), (0, 1), (0, 3), (0, 4), (0, 5), (2, 0x11), (2, 0x21), (2, 0x50), (2, 0x51), (2, 4), (2, 0x0B)], isPldm x.1 x.2 (m x.1 x.2 []) = true) ∧
      isPldm 0 2 [] = false ∧ fieldLE (m 2 0x21 [60, 0]) 4 2 = 60 ∧ fieldLE (m 2 0x11 [32, 0]) 4 2 = 32 ∧ State.reset.numericSensor 32 ≠ none ∧
      State.reset.numericSensor 52 ≠ none ∧ State.reset.stateSensor 90 ≠ none ∧ pldmVersion 5 ≠ none ∧ pldmCommands 5 ≠ none ∧
      fieldLE (m 2 0x51 [83, 0, 0, 0]) 4 4 ≤ 83 ∧ 83 < fieldLE (m 2 0x51 [84, 0, 0, 0]) 4 4 ∧ byteAt (m 0 1 [254]) 4 ≠ 255 ∧
        byteAt (m 0 1 [255]) 4 = 255 := by
  decide +kernel
theorem test_pldm_unsupported :
    pldmUnsupported (bytes [1, 0x80, 2, 0x30]) = true ∧ pldmUnsupported (bytes [1, 0x80, 2, 0x11]) = false ∧
      (byteAt (bytes [1, 0x80, 0, 0x30]) 2 % 64 = 0) ∧
      (lcSt 4).fwAnswers = false ∧ up.fwAnswers = true ∧
      after (.getTid (bytes [1, 0x80, 2, 0x30])) up (fun t => t.mgt.mctpOut == [bytes [1, 0, 2, 0x30, 5]]) = true := by decide +kernel
theorem test_event_response :
    let m := bytes [1, 0, 2, 0x0A, 0]
    byteAt m 0 = 1 ∧ (byteAt m 1).testBit 7 = false ∧ byteAt m 2 % 64 = 2 ∧ byteAt m 3 = 0x0A ∧ byteAt m 4 = 0 ∧
      m.length ≤ 4096 ∧ byteAt m 0 % 128 ∈ [0, 1, 5, 6] := by decide +kernel
/-- The management port up with an address and the collector 10.0.0.2, lantern enabled. -/
def lanSt : State := regs [(R.MGT.STAT_LAN_UP, 0, 1), (R.MGT.LAN_IP4, 0, 0x0A000001), (R.MGT.LAN_PORT, 0, 0x1234), (fieldEN .mgt, 0, 1),
  (R.MGT.LAN_DEST_0, 0, 0x0A000002), (R.MGT.LAN_DEST_1, 0, 0xFFFF)]
/-- A RESEND_REQ for n records. -/
def resend (n : Nat) : List Byte :=
  sealed (frame 90 [(12, [8, 0, 0x45]), (23, [17]), (26, [10, 0, 0, 2, 10, 0, 0, 1]), (36, [0x12, 0x34, 0, 56]),
    (42, [0x4B, 0x57, 0x4C, 0x41, 0x4E, 0x54, 0x52, 0x4E, 3, 0, n]), (82, [1])])
theorem test_event_resend : (atTime 1000000000 State.reset).passed State.reset.mgt.evtAt 1000000000 = true ∧
    (atTime 999999999 State.reset).passed State.reset.mgt.evtAt 1000000000 = false := by decide +kernel
theorem test_lantern : (atTime lanSt.beatNs lanSt).passed lanSt.mgt.beatAt lanSt.beatNs = true ∧ lanSt.passed lanSt.mgt.beatAt lanSt.beatNs = false ∧
    lanSt.lcState ≠ 4 ∧ lanSt.en .mgt 0 = true ∧ State.reset.en .mgt 0 = false ∧ State.reset.is R.SECG.STAT_RECOVERY 0 = false := by
  decide +kernel
theorem test_resend_request : lanSt.is R.MGT.STAT_LAN_UP 0 = true ∧ lanSt.lantern = true ∧ lanSt.lanDatagram [] = none ∧
    (lanSt.lanDatagram (resend 40)).map (fun x => (x.1 == lanSt.lanDest, x.2.take 8 == ascii "KWLANTRN", byteAt x.2 8, fieldLE x.2 10 2)) =
      some (true, true, 3, 40) ∧
    (lanSt.lanDatagram (resend 41)).map (fun x => fieldLE x.2 10 2) = some 41 := by decide +kernel

/-- The module in RETURN, a log of one record in firmware memory, a test of kind n running or not. -/
def testSt (n state : Nat) : State := ((lcSt 3).wr R.BST.LOG_CAP 0 1).wr R.BST.LOG_ADDR 0 memBase |>.wr R.BST.CTL_TEST 0 n |>.wr R.BST.STAT_STATE 0 state
theorem test_self_tests : (∀ n, n < 4 → 0 < n → (testSt n 0).testReason n true = 0) ∧ (State.reset.wr R.BST.LOG_CAP 0 1).testReason 1 true ≠ 0 ∧
    (lcSt 2).testAllowed 2 = false ∧ (testSt 1 1).testAllowed 1 = true ∧ (testSt 1 1).testing = true ∧
      State.reset.testing = false := by decide +kernel
theorem test_self_test_end :
    let s := (testSt 3 1).wr R.BST.UNITS 0 0x8000
    (∀ n, n < 4 → (testSt n 1).rd R.BST.CTL_TEST 0 = n) ∧ 0 < s.rd R.BST.LOG_CAP 0 ∧ ((testSt 2 1).wr R.BST.UNITS 0 0x800).rd R.BST.UNITS 0 = 0x800 ∧
      (0x800 : Nat).testBit 11 = true ∧ s.inMemStacks (s.rd R.BST.UNITS 0) (memBase + 3 * 2 ^ 39 + 2 ^ 39 - 4096) = true ∧
      s.inMemStacks (s.rd R.BST.UNITS 0) memBase = false := by decide +kernel
-- a full test of stack 0 that leaves one worn tier out
theorem test_worn_logged :
    let s := { testSt 2 1 with bst := { (testSt 2 1).bst with skipped := [(15, 1)] } }
    s.testing = true ∧ s.rd R.BST.CTL_TEST 0 = 2 ∧ s.skippedFaults.map (fun f => (f.part, f.unit, f.pass, f.loc)) = [(7, 0, 1, 15 * 2 ^ 16)] ∧
      (s.memErr = [] ∧ s.poi = []) := by decide +kernel

end Sys2Proof.Tests
end

section
/-! SUPPORT. A step on an empty queue: the reference clock goes one period on, and with it go what the lantern owes, Keep Alive commands and
what a PFC frame has held back (R7, R159, R379, R449). -/
namespace Sys2Proof.Machine

/-! ### What passing time may change beside the clock -/

/-- `t` differs from `s` at most in register fields, the management and fabric records and the count of free values: what sending on the
management port and the network ports may change. -/
def Sends (s t : State) : Prop := ∃ regs mgt fab free, t = { s with regs := regs, mgt := mgt, fab := fab, free := free }

/-- Nothing sent. -/
theorem Sends.refl (s : State) : Sends s s := ⟨_, _, _, _, rfl⟩

/-- One after another. -/
theorem Sends.trans {s t u : State} (h : Sends s t) (g : Sends t u) : Sends s u := by
  obtain ⟨_, _, _, _, rfl⟩ := h
  obtain ⟨_, _, _, _, rfl⟩ := g
  exact ⟨_, _, _, _, rfl⟩

/-- A loop of rounds that send. -/
theorem Sends.each {α : Type} (l : List α) {f : α → State → State} (h : ∀ x s, Sends s (f x s)) (s : State) : Sends s (s.each l f) :=
  State.each_keeps (Sends s) l f (fun x u hu => hu.trans (h x u)) s (.refl s)

/-- A conditional update that sends. -/
theorem Sends.whenB (b : Bool) {f : State → State} (h : ∀ s, Sends s (f s)) (s : State) : Sends s (s.whenB b f) :=
  State.whenB_keeps (Sends s) b f (fun u hu => hu.trans (h u)) s (.refl s)

/-- What sending leaves: every part of the state but those four, given as the new ones. -/
theorem Sends.eq {s t : State} (h : Sends s t) : t = { s with regs := t.regs, mgt := t.mgt, fab := t.fab, free := t.free } := by
  obtain ⟨_, _, _, _, rfl⟩ := h
  rfl

/-- Sending leaves the clock. -/
theorem Sends.clk {s t : State} (h : Sends s t) : t.clk = s.clk := by rw [h.eq]

/-- A packet of a port goes out, or is held back. -/
theorem State.send_sends (n : Nat) (x : NetOut) (k : Nat) (s : State) : Sends s (s.send n x k) := by
  unfold State.send
  split
  · exact ⟨_, _, _, _, rfl⟩
  · exact ⟨_, _, _, _, rfl⟩

/-- A command on a queue pair, where there is one. -/
theorem State.sendCmd_sends (p src no : Nat) (c : NvmeCmd) (s : State) : Sends s (s.sendCmd p src no c) := by
  unfold State.sendCmd
  split
  · exact .refl s
  · exact Sends.trans (t := { s with free := s.free + 1, fab := _ }) ⟨_, _, _, _, rfl⟩ (State.send_sends _ _ _ _)

/-- Keep Alive commands. -/
theorem State.keepAlives_sends (s : State) : Sends s s.keepAlives :=
  Sends.each _ (fun _ s => State.sendCmd_sends _ _ _ _ s) s

/-- What a port has held back. -/
theorem State.goOn_sends (n : Nat) (s : State) : Sends s (s.goOn n) := by
  unfold State.goOn
  split
  · exact .refl s
  · exact (Sends.each _ (fun _ _ => ⟨_, _, _, _, rfl⟩) s).trans ⟨_, _, _, _, rfl⟩

/-- What the ports have held back. -/
theorem State.portsGoOn_sends (s : State) : Sends s s.portsGoOn := Sends.each _ State.goOn_sends s

/-- A lantern datagram. -/
theorem State.lanSend_sends (kind count seq : Nat) (payload : List Byte) (s : State) : Sends s (s.lanSend kind count seq payload) :=
  ⟨_, _, _, _, rfl⟩

/-- The records that wait for their datagram. -/
theorem State.lanFlush_sends (s : State) : Sends s s.lanFlush := by
  unfold State.lanFlush
  split
  · exact .refl s
  · extract_lets u
    have hu : Sends s u := ⟨_, _, _, _, rfl⟩
    split
    · exact hu.trans (State.lanSend_sends _ _ _ _ u)
    · exact hu

/-- What the lantern owes. -/
theorem State.lanDue_sends (s : State) : Sends s s.lanDue := by
  unfold State.lanDue
  extract_lets u
  have hu : Sends s u := by
    unfold u
    split
    · exact .whenB _ State.lanFlush_sends s
    · exact .refl s
  split
  next now later _ =>
    extract_lets v
    have hv : Sends u v := ⟨_, _, _, _, rfl⟩
    exact (hu.trans hv).trans (.whenB _ (Sends.each now (fun _ _ => State.lanSend_sends _ _ _ _ _)) v)

/-! ### Where nothing is due -/

/-- The lantern owes nothing. -/
theorem State.lanDue_eq_self {s : State} (hopen : s.mgt.lanOpen = none) (hagain : s.mgt.lanAgain = []) : s.lanDue = s := by
  have keep : s.onMgt (fun m => { m with lanAgain := [] }) = s := by
    unfold State.onMgt
    rw [← hagain]
  have owes_none : s.lanDue = (s.onMgt (fun m => { m with lanAgain := [] })).whenB
      (s.onMgt (fun m => { m with lanAgain := [] })).lantern (fun u => u) := by
    unfold State.lanDue
    rw [hopen]
    dsimp only
    rw [hagain]
    rfl
  rw [owes_none, keep]
  exact ite_self s

/-- There is no queue pair to keep alive. -/
theorem State.keepAlives_eq_self {s : State} (h : s.fab.qps = []) : s.keepAlives = s := by
  simp [State.keepAlives, h, State.each]

/-- No port has held anything back. -/
theorem State.portsGoOn_eq_self {s : State} (h : ∀ n < 16, (s.port n).held = []) : s.portsGoOn = s := by
  have none_held : (List.range 16).filter (fun n => !(s.port n).held.isEmpty) = [] := by
    rw [List.filter_eq_nil_iff]
    intro n hn
    simp [h n (List.mem_range.1 hn)]
  rw [State.portsGoOn, none_held]
  rfl

/-! ### The idle step -/

/-- The state with the clock at another moment. -/
def State.atClk (s : State) (c : Clk) : State := { s with clk := c }

/-- A step on an empty queue lets time pass. -/
theorem step_idle {s : State} (h : s.pending = []) : step s = .next s.tick := by
  unfold step
  rw [h]

/-- While the reset is released and the reference is there, the clock goes one period on. -/
theorem State.tick_running {s : State} (hr : s.clk.released = true) (hf : s.clk.refOn = true) :
    s.tick = (s.atClk s.clk.next).lanDue.keepAlives.portsGoOn := by
  unfold State.tick
  rw [hr, hf]
  rfl

/-- While the reset is held or the reference is lost, time stands. -/
theorem State.tick_stopped {s : State} (h : s.clk.released = false ∨ s.clk.refOn = false) : s.tick = s := by
  unfold State.tick
  rcases h with h | h <;> simp [h]

/-- With the clock goes at most what is sent. -/
theorem State.tick_sends {s : State} (hr : s.clk.released = true) (hf : s.clk.refOn = true) : Sends (s.atClk s.clk.next) s.tick := by
  rw [State.tick_running hr hf]
  exact ((State.lanDue_sends _).trans (State.keepAlives_sends _)).trans (State.portsGoOn_sends _)

/-- Settles O2: with the clock stopped nothing changes, and else the clock goes on and what is due is sent. -/
theorem idleStepIsOnePeriod : Obligations.IdleStepIsOnePeriod := by
  unfold Obligations.IdleStepIsOnePeriod
  intro s hq
  refine ⟨s.tick, step_idle hq, ?_⟩
  by_cases hrun : s.clk.released = true ∧ s.clk.refOn = true
  · obtain ⟨hr, hf⟩ := hrun
    have hsend := State.tick_sends hr hf
    have hclk : s.tick.clk = s.clk.next := hsend.clk
    refine ⟨?_, fun _ _ => ⟨hclk, by rw [hclk]; rfl, by rw [hclk]; rfl⟩, ?_, ?_⟩
    · rw [hclk]
      exact hsend.eq
    · rintro (h | h)
      · simp [hr] at h
      · simp [hf] at h
    · intro hopen hagain hqps hheld
      rw [hclk, State.tick_running hr hf, State.lanDue_eq_self (s := s.atClk s.clk.next) hopen hagain,
        State.keepAlives_eq_self (s := s.atClk s.clk.next) hqps, State.portsGoOn_eq_self (s := s.atClk s.clk.next) hheld]
      rfl
  · have hstop : s.clk.released = false ∨ s.clk.refOn = false := by
      rwa [Classical.not_and_iff_not_or_not, Bool.not_eq_true, Bool.not_eq_true] at hrun
    rw [State.tick_stopped hstop]
    refine ⟨rfl, fun hr hf => ?_, fun _ => rfl, fun _ _ _ _ => rfl⟩
    exact absurd ⟨hr, hf⟩ hrun

/-! ### Five periods (R7) -/

/-- The clock after a number of periods. -/
def Clk.after : Nat → Clk → Clk
  | 0, c => c
  | n + 1, c => Clk.after n c.next

/-- Periods add up. -/
theorem Clk.after_add (m n : Nat) (c : Clk) : Clk.after (m + n) c = Clk.after n (Clk.after m c) := by
  induction m generalizing c with
  | zero => rw [Nat.zero_add]; rfl
  | succ m ih => rw [Nat.succ_add]; exact ih c.next

/-- Idle steps in a row: the clock goes on as many periods, and beside it changes what is sent. -/
theorem runs_idle (n : Nat) {s : State} (hq : s.pending = []) (hr : s.clk.released = true) (hf : s.clk.refOn = true) :
    ∃ t, runs n s t ∧ Sends (s.atClk (Clk.after n s.clk)) t := by
  induction n generalizing s with
  | zero => exact ⟨s, rfl, .refl s⟩
  | succ n ih =>
    obtain ⟨regs, mgt, fab, free, htick⟩ := State.tick_sends hr hf
    have hclk : s.tick.clk = s.clk.next := by rw [htick]; rfl
    obtain ⟨t, hrun, hsend⟩ := ih (s := s.tick) (by rw [htick]; exact hq) (by rw [hclk]; exact hr) (by rw [hclk]; exact hf)
    refine ⟨t, ⟨s.tick, step_idle hq, hrun⟩, Sends.trans ?_ hsend⟩
    rw [hclk, htick]
    exact ⟨_, _, _, _, rfl⟩

/-- A group of five periods, wherever it begins: 32 ns, and the same place again. -/
theorem Clk.next_five {c : Clk} (h : c.phase < 5) : Clk.after 5 c = { c with devTime := (c.devTime + 32) % 2 ^ 64 } := by
  obtain ⟨time, phase, _, _, _, _⟩ := c
  dsimp only at h
  obtain rfl | rfl | rfl | rfl | rfl : phase = 0 ∨ phase = 1 ∨ phase = 2 ∨ phase = 3 ∨ phase = 4 := by omega
  all_goals simp [Clk.after, Clk.next, periodNs, Nat.add_assoc]

/-- Any number of groups of five periods. -/
theorem Clk.next_groups (n : Nat) {c : Clk} (h : c.phase < 5) (hb : c.devTime < 2 ^ 64) :
    Clk.after (5 * n) c = { c with devTime := (c.devTime + 32 * n) % 2 ^ 64 } := by
  induction n with
  | zero =>
    rw [Nat.mul_zero, Nat.add_zero, Nat.mod_eq_of_lt hb]
    rfl
  | succ n ih =>
    rw [Nat.mul_succ, Clk.after_add, ih,
      Clk.next_five (c := { c with devTime := (c.devTime + 32 * n) % 2 ^ 64 }) h]
    simp only [Clk.mk.injEq, and_true]
    omega

/-- Settles O3, by the clock alone: what else an idle step does leaves it. -/
theorem fivePeriodsAre32Ns : Obligations.FivePeriodsAre32Ns := by
  unfold Obligations.FivePeriodsAre32Ns
  intro n s hq hr hf hphase htime
  obtain ⟨t, hrun, hsend⟩ := runs_idle (5 * n) hq hr hf
  have hclk : t.clk = { s.clk with devTime := (s.clk.devTime + 32 * n) % 2 ^ 64 } := by
    rw [hsend.clk]
    exact Clk.next_groups n hphase htime
  refine ⟨t, hrun, by rw [hclk], by rw [hclk], ?_⟩
  rw [hsend.clk]
  exact hsend.eq

end Sys2Proof.Machine
end

section
/-! SUPPORT. Reasoning rules for the network ports: which register fields a write leaves, what an update leaves of a port's record, and what
sending on the ports may change (R378 to R390). -/
namespace Sys2Proof.Machine

/-! ### Register fields that lie apart -/

/-- A field lies within its page, and its lowest bit within its word. -/
abbrev Field.Placed (f : Field) : Prop := f.off < 4096 ∧ f.lo < 32

/-- Two fields at different places of their pages: no page instances give them one key. -/
abbrev Field.Apart (f g : Field) : Prop := (f.off ≠ g.off ∨ f.lo ≠ g.lo) ∧ f.Placed ∧ g.Placed

/-- Two fields of different pages. -/
abbrev Field.OtherPage (f g : Field) : Prop := f.page.idx ≠ g.page.idx ∧ f.Placed ∧ g.Placed

/-- Fields of different pages have different keys, for page instances that exist. -/
theorem Field.key_ne_of_otherPage {f g : Field} {i j : Nat} (h : f.OtherPage g) (hi : i < 32) (hj : j < 32) : f.key i ≠ g.key j := by
  obtain ⟨hpage, ⟨hfo, hfl⟩, hgo, hgl⟩ := h
  unfold Field.key
  omega

/-- A write leaves every field that lies apart. -/
theorem State.rd_wr_apart (s : State) {f g : Field} (i j v : Nat) (h : g.Apart f) : (s.wr f i v).rd g j = s.rd g j := by
  obtain ⟨hne, ⟨hgo, hgl⟩, hfo, hfl⟩ := h
  exact State.rd_wr_other s f g i j v (Field.key_ne g f j i hne hgo hfo hgl hfl)

/-- A raised flag leaves every field that lies apart. -/
theorem State.rd_raise_apart (s : State) {f g : Field} (i j : Nat) (h : g.Apart f) : (s.raise f i).rd g j = s.rd g j :=
  State.rd_wr_apart s i j 1 h

/-- A counter leaves every field that lies apart. -/
theorem State.rd_bump_apart (s : State) {f g : Field} (i j n : Nat) (h : g.Apart f) : (s.bump f i n).rd g j = s.rd g j :=
  State.rd_wr_apart s i j _ h

/-- A counted occurrence leaves every field that lies apart. -/
theorem State.rd_count_apart (s : State) {f g : Field} (i j : Nat) (h : g.Apart f) : (s.count f i).rd g j = s.rd g j :=
  State.rd_bump_apart s i j 1 h

/-- A flag and its counter leave every field that lies apart from both. -/
theorem State.rd_flagCount_apart (s : State) {f c g : Field} (i j : Nat) (hf : g.Apart f) (hc : g.Apart c) :
    (s.flagCount f c i).rd g j = s.rd g j := by
  unfold State.flagCount
  rw [State.rd_count_apart _ _ _ hc, State.rd_raise_apart _ _ _ hf]

/-- States with the same register store read the same. -/
theorem State.rd_congr {s t : State} (h : t.regs = s.regs) (f : Field) (i : Nat) : t.rd f i = s.rd f i := by
  unfold State.rd
  rw [h]

/-- A change of a port leaves the register fields. -/
@[simp] theorem State.rd_onPort (s : State) (n : Nat) (g : PortSt → PortSt) (f : Field) (i : Nat) : (s.onPort n g).rd f i = s.rd f i := rfl

/-- Every field at a word offset outside a list reads in `t` what it reads in `s`, whatever the number of its page. -/
def RdAway (offs : List Nat) (s t : State) : Prop := ∀ (f : Field) (i : Nat), f.off ∉ offs → f.Placed → t.rd f i = s.rd f i

/-- Nothing written. -/
theorem RdAway.refl (offs : List Nat) (s : State) : RdAway offs s s := fun _ _ _ _ => rfl

/-- One after another. -/
theorem RdAway.trans {offs : List Nat} {s t u : State} (h : RdAway offs s t) (g : RdAway offs t u) : RdAway offs s u :=
  fun f i hf hp => (g f i hf hp).trans (h f i hf hp)

/-- A change that leaves the register store. -/
theorem RdAway.of_regs {offs : List Nat} {s t u : State} (h : RdAway offs s t) (e : u.regs = t.regs) : RdAway offs s u :=
  fun f i hf hp => (State.rd_congr e f i).trans (h f i hf hp)

/-- One more write at a listed offset. -/
theorem RdAway.wr {offs : List Nat} {s t : State} (h : RdAway offs s t) {f : Field} (i v : Nat) (hm : f.off ∈ offs) (hp : f.Placed) :
    RdAway offs s (t.wr f i v) := by
  intro g j hg hgp
  have hne : g.off ≠ f.off := fun e => hg (e ▸ hm)
  exact (State.rd_wr_apart t i j v ⟨.inl hne, hgp, hp⟩).trans (h g j hg hgp)

/-! ### What the span's registers decide -/

/-- The tag of a partition is one of the tag fields, or none. -/
theorem State.spanTag_congr {s t : State} (h : ∀ f ∈ tagFields, t.rd f 0 = s.rd f 0) (p : Nat) : t.spanTag p = s.spanTag p := by
  unfold State.spanTag
  cases hf : tagFields[p]? with
  | none => rfl
  | some f => exact h f (List.mem_of_getElem? hf)

/-- Word offsets at which the fields lie that ports write while flits and packets come and go: status, events, peer, and counters. -/
def portOffs : List Nat := [0x00C, 0x010, 0x04C, 0x074, 0x07C]

/-- The tags lie elsewhere. -/
theorem tagFields_away : ∀ f ∈ tagFields, f.off ∉ portOffs ∧ f.Placed := by decide

/-- Tags under writes of the ports. -/
theorem RdAway.spanTag {s t : State} (h : RdAway portOffs s t) (p : Nat) : t.spanTag p = s.spanTag p :=
  State.spanTag_congr (fun f hf => h f 0 (tagFields_away f hf).1 (tagFields_away f hf).2) p

/-- Whose flit a WRITE flit of the module is, under writes of the ports. -/
theorem RdAway.writerOf {s t : State} (h : RdAway portOffs s t) (hstep : ∀ p, (t.part p).step = (s.part p).step) (f : List Byte) :
    t.writerOf f = s.writerOf f := by
  have hpos : t.rd R.GLBG.STRAP_POSITION 0 = s.rd R.GLBG.STRAP_POSITION 0 := h _ _ (by decide) (by decide)
  have hspan : ∀ p, t.isSpan p = s.isSpan p := fun p => by
    unfold State.isSpan State.is
    rw [h _ _ (by decide) (by decide)]
  have hruns : ∀ p, t.stepRuns p = s.stepRuns p := fun p => by
    unfold State.stepRuns
    rw [hstep]
  simp only [State.writerOf, hpos, h.spanTag, hspan, hruns]

/-- Which partition accepts a flit, under writes of the ports. -/
theorem RdAway.flitPart {s t : State} (h : RdAway portOffs s t) (f : List Byte) : t.flitPart f = s.flitPart f := by
  have hspan : ∀ p, t.isSpan p = s.isSpan p := fun p => by
    unfold State.isSpan State.is
    rw [h _ _ (by decide) (by decide)]
  have hexists : ∀ p, t.partExists p = s.partExists p := fun p => by
    unfold State.partExists
    rw [h _ _ (by decide) (by decide)]
  have hsize : ∀ p, t.spanSize p = s.spanSize p := fun p => by
    unfold State.spanSize
    rw [h _ _ (by decide) (by decide)]
  simp only [State.flitPart, h.spanTag, hspan, hexists, hsize]

/-- Which partition holds a core, under writes of the ports. -/
theorem RdAway.partOfCore {s t : State} (h : RdAway portOffs s t) (hparts : t.parts = s.parts) (k c : Nat) :
    t.partOfCore k c = s.partOfCore k c := by
  have hexists : ∀ p, t.partExists p = s.partExists p := fun p => by
    unfold State.partExists
    rw [h _ _ (by decide) (by decide)]
  have hpart : ∀ p, t.part p = s.part p := fun p => by
    unfold State.part
    rw [hparts]
  simp only [State.partOfCore, hexists, hpart]

/-! ### The record of a port -/

/-- The record of a changed port. -/
@[simp] theorem State.port_onPort_same (s : State) (n : Nat) (f : PortSt → PortSt) : (s.onPort n f).port n = f (s.port n) := by
  simp [State.port, State.onPort]

/-- The record of another port. -/
theorem State.port_onPort_other (s : State) {n m : Nat} (f : PortSt → PortSt) (h : m ≠ n) : (s.onPort n f).port m = s.port m := by
  simp [State.port, State.onPort, AMap.getD_put_other _ _ _ _ _ _ h]

/-- States with the same fabric record have the same ports. -/
theorem State.port_congr {s t : State} (h : t.fab = s.fab) (m : Nat) : t.port m = s.port m := by
  unfold State.port
  rw [h]

@[simp] theorem State.port_raise (s : State) (f : Field) (i m : Nat) : (s.raise f i).port m = s.port m := rfl
@[simp] theorem State.port_bump (s : State) (f : Field) (i n m : Nat) : (s.bump f i n).port m = s.port m := rfl
@[simp] theorem State.port_flagCount (s : State) (f c : Field) (i m : Nat) : (s.flagCount f c i).port m = s.port m := rfl

/-! ### Traffic -/

/-- What packets, LINK flits and Reads sent on the ports leave: every register field that does not lie where TX_BYTES does, the steps, the
routes, and of each port what is not acknowledged. -/
structure Traffic (s t : State) : Prop where
  rd : RdAway [R.FAB.TX_BYTES.off] s t
  step : ∀ p, (t.part p).step = (s.part p).step
  routes : t.fab.routes = s.fab.routes
  replay : ∀ m, (t.port m).replay = (s.port m).replay
  txSeq : ∀ m, (t.port m).txSeq = (s.port m).txSeq

/-- Nothing sent. -/
theorem Traffic.refl (s : State) : Traffic s s := ⟨.refl _ s, fun _ => rfl, rfl, fun _ => rfl, fun _ => rfl⟩

/-- One after another. -/
theorem Traffic.trans {s t u : State} (h : Traffic s t) (g : Traffic t u) : Traffic s u where
  rd := h.rd.trans g.rd
  step p := (g.step p).trans (h.step p)
  routes := g.routes.trans h.routes
  replay m := (g.replay m).trans (h.replay m)
  txSeq m := (g.txSeq m).trans (h.txSeq m)

/-- A loop of rounds that send. -/
theorem Traffic.each {α : Type} (l : List α) {f : α → State → State} (h : ∀ x s, Traffic s (f x s)) (s : State) : Traffic s (s.each l f) :=
  State.each_keeps (Traffic s) l f (fun x u hu => hu.trans (h x u)) s (.refl s)

/-- Bytes sent are counted. -/
theorem Traffic.txBytes (s : State) (n k : Nat) : Traffic s (s.bump R.FAB.TX_BYTES n k) :=
  ⟨(RdAway.refl _ s).wr n _ (by decide) (by decide), fun _ => rfl, rfl, fun _ => rfl, fun _ => rfl⟩

/-- A port's record changes, but not what is not acknowledged. -/
theorem Traffic.onPort (s : State) (n : Nat) {f : PortSt → PortSt} (hr : ∀ q, (f q).replay = q.replay) (ht : ∀ q, (f q).txSeq = q.txSeq) :
    Traffic s (s.onPort n f) := by
  refine ⟨.of_regs (.refl _ s) rfl, fun _ => rfl, rfl, fun m => ?_, fun m => ?_⟩
  · by_cases hm : m = n
    · rw [hm, State.port_onPort_same, hr]
    · rw [State.port_onPort_other s f hm]
  · by_cases hm : m = n
    · rw [hm, State.port_onPort_same, ht]
    · rw [State.port_onPort_other s f hm]

/-- The queue pairs change. -/
theorem Traffic.onFab (s : State) {f : FabSt → FabSt} (hp : (f s.fab).ports = s.fab.ports) (hr : (f s.fab).routes = s.fab.routes) :
    Traffic s (s.onFab f) := by
  have hport : ∀ m, (s.onFab f).port m = s.port m := fun m => by
    show AMap.getD (f s.fab).ports m {} = AMap.getD s.fab.ports m {}
    rw [hp]
  exact ⟨.of_regs (.refl _ s) rfl, fun _ => rfl, hr, fun m => by rw [hport], fun m => by rw [hport]⟩

/-- A partition's record changes, but not its step. -/
theorem Traffic.onPart (s : State) (p : Nat) {f : PartSt → PartSt} (h : ∀ q, (f q).step = q.step) : Traffic s (s.onPart p f) := by
  refine ⟨.of_regs (.refl _ s) rfl, fun q => ?_, rfl, fun _ => rfl, fun _ => rfl⟩
  by_cases hq : q = p
  · rw [hq, State.part_onPart_same, h]
  · rw [State.part_onPart_other s p q f hq]

/-- Something goes out on a port. -/
theorem State.portOut_traffic (n : Nat) (x : NetOut) (s : State) : Traffic s (s.portOut n x) := .onPort s n (fun _ => rfl) (fun _ => rfl)

/-- A packet of a port. -/
theorem State.send_traffic (n : Nat) (x : NetOut) (k : Nat) (s : State) : Traffic s (s.send n x k) := by
  unfold State.send
  split
  · exact .onPort s n (fun _ => rfl) (fun _ => rfl)
  · exact (State.portOut_traffic n x s).trans (.txBytes _ n k)

/-- A command on a queue pair. -/
theorem State.sendCmd_traffic (p src no : Nat) (c : NvmeCmd) (s : State) : Traffic s (s.sendCmd p src no c) := by
  unfold State.sendCmd
  split
  · exact .refl s
  next q _ =>
    split
    next k v hfree =>
      have hv : Traffic s v := by
        obtain ⟨_, rfl⟩ := Prod.mk.injEq .. ▸ hfree
        exact ⟨.of_regs (.refl _ s) rfl, fun _ => rfl, rfl, fun _ => rfl, fun _ => rfl⟩
      extract_lets w
      exact (hv.trans (.onFab v rfl rfl)).trans (State.send_traffic _ _ _ w)

/-- A Read that may go. -/
theorem State.sendRead_traffic (p i : Nat) (s : State) : Traffic s (s.sendRead p i) := by
  unfold State.sendRead
  extract_lets l
  split
  · exact .refl s
  next r _ =>
    split
    next set src _ =>
      extract_lets qs no u
      split
      · exact .refl s
      · have hu : Traffic s u := .onPart s p (fun _ => rfl)
        exact hu.trans (State.sendCmd_traffic _ _ _ _ u)

/-- Every Read that may go. -/
theorem State.pumpReads_traffic (p : Nat) (s : State) : Traffic s (s.pumpReads p) := Traffic.each _ (State.sendRead_traffic p) s

/-- The queue pairs of a port that is lost. -/
theorem State.losePort_traffic (n : Nat) (s : State) : Traffic s (s.losePort n) := by
  unfold State.losePort
  extract_lets lost u
  have hu : Traffic s u := .onFab s rfl rfl
  refine hu.trans (.each _ (fun p v => ?_) u)
  refine Traffic.trans (.onPart v p ?_) (State.pumpReads_traffic p _)
  exact fun _ => rfl

/-! ### LINK flits -/

/-- A flit as a port seals it: with the sequence number and the acknowledgement of the moment. -/
def State.sealedOn (s : State) (n : Nat) (f : List Byte) : List Byte :=
  sealFlit (s.port n).txSeq (((s.port n).rxNext + 65535) % 65536) f

/-- A LINK flit goes out on its port. -/
theorem State.port_linkOn_same (s : State) (n : Nat) (f : List Byte) :
    (s.linkOn n f).port n = { s.port n with out := (s.port n).out ++ [.flit (s.sealedOn n f)] } := by
  unfold State.linkOn State.portOut
  rw [State.port_bump, State.port_onPort_same]
  rfl

/-- A LINK flit leaves the other ports. -/
theorem State.port_linkOn_other (s : State) {n m : Nat} (f : List Byte) (h : m ≠ n) : (s.linkOn n f).port m = s.port m := by
  unfold State.linkOn State.portOut
  rw [State.port_bump, State.port_onPort_other _ _ h]

/-- A LINK flit is traffic. -/
theorem State.linkOn_traffic (n : Nat) (f : List Byte) (s : State) : Traffic s (s.linkOn n f) :=
  (State.portOut_traffic n _ s).trans (.txBytes _ n 288)

/-- A LINK flit leaves everything but register fields and the fabric record. -/
theorem State.linkOn_eq (s : State) (n : Nat) (f : List Byte) :
    s.linkOn n f = { s with regs := (s.linkOn n f).regs, fab := (s.linkOn n f).fab } := rfl

/-- What a port has sent stays sent when a LINK flit goes out somewhere. -/
theorem State.out_subset_linkOn (s : State) (n m : Nat) (f : List Byte) : (s.port m).out ⊆ ((s.linkOn n f).port m).out := by
  by_cases h : m = n
  · rw [h, State.port_linkOn_same]
    exact List.subset_append_left _ _
  · rw [State.port_linkOn_other s f h]
    exact List.Subset.refl _

/-- Flits sent one after another on one port stand in order behind what it has sent. -/
theorem State.each_linkOn_out {α : Type} (n : Nat) (f : State → List Byte) (P : List Byte → Prop) (hP : ∀ u : State, P (u.sealedOn n (f u)))
    (l : List α) (s : State) : ∃ bs : List (List Byte), bs.length = l.length ∧
      ((s.each l (fun _ u => u.linkOn n (f u))).port n).out = (s.port n).out ++ bs.map NetOut.flit ∧ ∀ b ∈ bs, P b := by
  induction l generalizing s with
  | nil => exact ⟨[], rfl, (List.append_nil _).symm, by simp⟩
  | cons x l ih =>
    obtain ⟨bs, hlen, hout, hbs⟩ := ih (s.linkOn n (f s))
    refine ⟨s.sealedOn n (f s) :: bs, by simp [hlen], ?_, ?_⟩
    · show (((s.linkOn n (f s)).each l (fun _ u => u.linkOn n (f u))).port n).out = _
      rw [hout, State.port_linkOn_same]
      simp
    · simp only [List.mem_cons, forall_eq_or_imp]
      exact ⟨hP s, hbs⟩

/-- Sealing a flit leaves its first eight bytes. -/
theorem byteAt_sealFlit (lseq lack : Nat) (f : List Byte) {i : Nat} (hi : i < 8) (hf : 8 ≤ f.length) :
    byteAt (sealFlit lseq lack f) i = byteAt f i := by
  have hlt : i < (f.take 8).length := by rw [List.length_take]; omega
  have hget : (sealFlit lseq lack f)[i]? = f[i]? := by
    simp only [sealFlit, List.append_assoc]
    rw [List.getElem?_append_left hlt, List.getElem?_take_of_lt hi]
  simp only [byteAt, List.getD_eq_getElem?_getD, hget]

/-- A measuring flit has the header of its layout. -/
theorem eight_le_length_measuringFlit (dest src evt : Nat) (stamp : List Byte) : 8 ≤ (measuringFlit dest src evt stamp).length := by
  simp [measuringFlit, mkFlit, leBytes]

/-- A sealed measuring flit is a LINK flit. -/
theorem State.flitType_sealedOn_measuring (s : State) (n dest src evt : Nat) (stamp : List Byte) :
    flitType (s.sealedOn n (measuringFlit dest src evt stamp)) = ftLink :=
  byteAt_sealFlit _ _ _ (by decide) (eight_le_length_measuringFlit ..)

/-- A sealed measuring flit names its member. -/
theorem State.dest_sealedOn_measuring (s : State) (n dest src evt : Nat) (stamp : List Byte) :
    byteAt (s.sealedOn n (measuringFlit dest src evt stamp)) 4 = dest % 256 :=
  (byteAt_sealFlit _ _ _ (by decide) (eight_le_length_measuringFlit ..)).trans (BitVec.toNat_ofNat dest 8)

/-- A byte is its own remainder. -/
theorem byteAt_mod (b : List Byte) (o : Nat) : byteAt b o % 256 = byteAt b o := Nat.mod_eq_of_lt (b.getD o 0).isLt

/-- Is a port up, under writes that leave its status and its configuration. -/
theorem State.portUp_congr {s t : State} (h : RdAway [R.FAB.TX_BYTES.off, R.FAB.RX_BYTES.off] s t) (n mode : Nat) :
    t.portUp n mode = s.portUp n mode := by
  unfold State.portUp State.is
  rw [h _ _ (by decide) (by decide), h _ _ (by decide) (by decide)]

/-- Traffic at one offset is traffic at one of two. -/
theorem RdAway.mono {offs offs' : List Nat} {s t : State} (h : RdAway offs s t) (hsub : offs ⊆ offs') : RdAway offs' s t :=
  fun f i hf hp => h f i (fun hm => hf (hsub hm)) hp

end Sys2Proof.Machine
end

section
/-! SUPPORT. A link that goes down, and late flits: what they show in the port's registers and what they leave (R385, R386, R390, R393). -/
namespace Sys2Proof.Machine

/-! ### Flits with a sequence number -/

/-- Sending what waits writes no register field but TX_BYTES. -/
theorem State.pumpPort_rdAway (n fuel : Nat) (s : State) : RdAway [R.FAB.TX_BYTES.off] s (s.pumpPort n fuel) := by
  induction fuel generalizing s with
  | zero => exact .refl _ s
  | succ fuel ih =>
    unfold State.pumpPort
    extract_lets q
    split
    · exact .refl _ s
    · split
      · exact .refl _ s
      · extract_lets b u
        have hu : RdAway [R.FAB.TX_BYTES.off] s u := .of_regs (.refl _ s) rfl
        exact (hu.wr n _ (by decide) (by decide)).trans (ih _)

/-- Sending what waits leaves what a port expects. -/
theorem State.pumpPort_rxNext (n fuel m : Nat) (s : State) : ((s.pumpPort n fuel).port m).rxNext = (s.port m).rxNext := by
  induction fuel generalizing s with
  | zero => rfl
  | succ fuel ih =>
    unfold State.pumpPort
    extract_lets q
    split
    · rfl
    · split
      · rfl
      · extract_lets b u
        rw [ih, State.port_bump]
        by_cases hm : m = n
        · rw [hm, State.port_onPort_same]
        · rw [State.port_onPort_other _ _ hm]

/-- A flit to a member writes no register field but TX_BYTES. -/
theorem State.sendTo_rdAway (m : Nat) (f : List Byte) (s : State) : RdAway [R.FAB.TX_BYTES.off] s (s.sendTo m f) := by
  refine State.whenB_keeps (RdAway [R.FAB.TX_BYTES.off] s) _ _ (fun u hu => ?_) s (.refl _ s)
  unfold State.sendFlit
  extract_lets v
  have hv : RdAway [R.FAB.TX_BYTES.off] s v := hu.of_regs rfl
  exact hv.trans (State.pumpPort_rdAway _ _ v)

/-- A flit to a member leaves what a port expects. -/
theorem State.sendTo_rxNext (m : Nat) (f : List Byte) (k : Nat) (s : State) : ((s.sendTo m f).port k).rxNext = (s.port k).rxNext := by
  refine State.whenB_eq (fun u => (u.port k).rxNext) _ _ (fun u => ?_) s
  generalize (u.route m).port = n
  unfold State.sendFlit
  rw [State.pumpPort_rxNext]
  by_cases hk : k = n
  · rw [hk, State.port_onPort_same]
    split <;> rfl
  · rw [State.port_onPort_other _ _ hk]

/-- A ROLL flit is a flit to a member. -/
theorem State.sendRoll_rxNext (p code dest src : Nat) (payload : List Byte) (k : Nat) (s : State) :
    ((s.sendRoll p code dest src payload).port k).rxNext = (s.port k).rxNext := by
  unfold State.sendRoll
  exact State.sendTo_rxNext ..

/-! ### Detected errors leave the fabric -/

theorem State.noteStep_fab (p : Nat) (f : StepSt → StepSt) (s : State) : (s.noteStep p f).fab = s.fab :=
  State.whenB_eq State.fab _ _ (fun _ => by rfl) s

theorem State.disturb_fab (p : Nat) (s : State) : (s.disturb p).fab = s.fab := State.noteStep_fab ..

theorem State.stopWork_fab (p : Nat) (s : State) : (s.stopWork p).fab = s.fab := by
  unfold State.stopWork
  extract_lets u v
  have hu : u.fab = s.fab := State.each_eq State.fab _ _ (fun _ _ => by rfl) s
  have hv : v.fab = u.fab := State.each_eq State.fab _ _ (fun _ _ => by rfl) u
  exact (State.each_eq State.fab _ _ (fun _ _ => by rfl) v).trans (hv.trans hu)

theorem State.resumeWork_fab (p : Nat) (s : State) : (s.resumeWork p).fab = s.fab := by
  unfold State.resumeWork
  extract_lets u v
  have hu : u.fab = s.fab := State.each_eq State.fab _ _ (fun _ _ => by rfl) s
  exact (State.each_eq State.fab _ _ (fun _ _ => by rfl) u).trans hu

theorem State.replayStep_fab (p : Nat) (s : State) : (s.replayStep p).fab = s.fab := by
  unfold State.replayStep
  rw [State.onStep_fab, State.resumeWork_fab, State.disturb_fab, State.stopWork_fab]

theorem State.haltStep_fab (p kind : Nat) (o : Origin) (s : State) : (s.haltStep p kind o).fab = s.fab := by
  unfold State.haltStep
  rw [State.report_fab, State.raise_fab, State.wr_fab, State.onStep_fab, State.stopWork_fab]

theorem State.stepError_fab (p : Nat) (o : Origin) (s : State) : (s.stepError p o).fab = s.fab := by
  unfold State.stepError
  extract_lets h st
  split
  · rw [State.haltStep_fab, State.count_fab]
  · rw [State.onStep_fab, State.replayStep_fab, State.count_fab]

theorem State.freePieces_fab (p : Nat) (s : State) : (s.freePieces p).fab = s.fab :=
  State.each_eq State.fab _ _ (fun _ _ => by rfl) s

theorem State.rollFail_fab (p : Nat) (s : State) : (s.rollFail p).fab = s.fab := State.freePieces_fab ..

/-- The origin of a late flit's error: unit FAB, which marks nothing of its own. -/
def lateOrigin (n : Nat) : Origin := { unit := 11, inst := n / 4 + 4 * n, loc := 0 }

/-- An error of unit FAB is counted and reported. -/
theorem State.noteError_late (p n : Nat) (s : State) : s.noteError p (lateOrigin n) =
    (s.flagCount R.RELG.EVT_DETECTED R.RELG.DETECTED_CNT ((lateOrigin n).inst % 4)).report ((lateOrigin n).inst % 4)
      (mkReport 11 (lateOrigin n).inst 0 0x01 1 (2 ^ p) 0) := rfl

theorem State.noteError_late_fab (p n : Nat) (s : State) : (s.noteError p (lateOrigin n)).fab = s.fab := by
  rw [State.noteError_late, State.report_fab, State.flagCount_fab]

theorem State.noteError_late_parts (p n : Nat) (s : State) : (s.noteError p (lateOrigin n)).parts = s.parts := by
  rw [State.noteError_late, State.report_parts, State.flagCount_parts]

/-- A report writes register fields of its hub's RELG page only. -/
theorem State.rd_report (s : State) {h : Nat} (r : Report) {f : Field} {i : Nat} (hf : f.OtherPage R.RELG.EVT_DETECTED) (hi : i < 32)
    (hh : h < 32) : (s.report h r).rd f i = s.rd f i := by
  have apart : ∀ (g : Field) (v : Nat) (u : State), g.page = .relG → g.Placed → (u.wr g h v).rd f i = u.rd f i := by
    intro g v u hg hp
    refine State.rd_wr_other u g f h i v (Field.key_ne_of_otherPage ⟨?_, hf.2.1, hp⟩ hi hh)
    rw [hg]
    exact hf.1
  have onHub : ∀ (g : HubSt → HubSt) (u : State), (u.onHub h g).rd f i = u.rd f i := fun _ _ => rfl
  have full : ((s.count R.RELG.OVF_CNT h).raise R.RELG.EVT_OVERFLOW h).rd f i = s.rd f i :=
    (apart R.RELG.EVT_OVERFLOW 1 _ rfl (by decide)).trans (apart R.RELG.OVF_CNT _ s rfl (by decide))
  unfold State.report
  extract_lets u now q v r'
  split
  · exact (apart R.RELG.COALESCED_CNT _ _ rfl (by decide)).trans (onHub _ s)
  · split
    · exact onHub _ s
    · split
      · exact (onHub _ v).trans full
      · exact (onHub _ v).trans full

/-- An error of unit FAB leaves the register fields of every other page. -/
theorem State.rd_noteError_late (s : State) (p n : Nat) {f : Field} {i : Nat} (hf : f.OtherPage R.RELG.EVT_DETECTED) (hi : i < 32) :
    (s.noteError p (lateOrigin n)).rd f i = s.rd f i := by
  have hh : (lateOrigin n).inst % 4 < 32 := by omega
  rw [State.noteError_late, State.rd_report _ _ hf hi hh]
  have hdetected := Field.key_ne_of_otherPage hf hi hh
  have hcounted := Field.key_ne_of_otherPage (g := R.RELG.DETECTED_CNT) ⟨hf.1, hf.2.1, by decide⟩ hi hh
  unfold State.flagCount State.count State.bump State.raise
  rw [State.rd_wr_other _ _ _ _ _ _ hcounted, State.rd_wr_other _ _ _ _ _ _ hdetected]

/-! ### Late flits -/

theorem State.rollDown_rxNext (p code : Nat) (payload : List Byte) (k : Nat) (s : State) :
    ((s.rollDown p code payload).port k).rxNext = (s.port k).rxNext :=
  State.each_eq (fun u => (u.port k).rxNext) _ _ (fun _ _ => State.sendRoll_rxNext ..) s

theorem State.leaderAbort_rxNext (p k : Nat) (s : State) : ((s.leaderAbort p).port k).rxNext = (s.port k).rxNext := by
  unfold State.leaderAbort
  rw [State.port_congr (State.rollFail_fab p _), State.rollDown_rxNext]

theorem State.spanReplay_rxNext (p k : Nat) (s : State) : ((s.spanReplay p).port k).rxNext = (s.port k).rxNext := by
  unfold State.spanReplay
  split
  · split
    · rfl
    · extract_lets u
      have hu : u.fab = s.fab := State.replayStep_fab p s
      rw [State.port_flagCount, State.port_congr hu]
  · exact State.whenB_eq (fun u => (u.port k).rxNext) _ _ (fun _ => State.leaderAbort_rxNext ..) s

theorem State.askReplay_rxNext (p k : Nat) (s : State) : ((s.askReplay p).port k).rxNext = (s.port k).rxNext := by
  unfold State.askReplay State.leaderReplay
  split
  · rw [State.spanReplay_rxNext, State.rollDown_rxNext]
  · exact State.sendRoll_rxNext ..

/-- A late flit leaves what a port expects next, whatever it does to the step. -/
theorem State.lateFlit_rxNext (p n k : Nat) (s : State) : ((s.lateFlit p n).port k).rxNext = (s.port k).rxNext := by
  unfold State.lateFlit
  extract_lets u o v st w
  have hv : v.fab = s.fab := (State.noteError_late_fab p n u).trans (State.flagCount_fab ..)
  have hw : w.fab = v.fab := by
    unfold w
    split
    · rfl
    · split
      · exact State.onStep_fab ..
      · exact State.stepError_fab ..
  have hport : (w.port k).rxNext = (s.port k).rxNext := by rw [State.port_congr (hw.trans hv)]
  rw [← hport]
  split
  · exact State.askReplay_rxNext ..
  · split
    · exact State.leaderAbort_rxNext ..
    · exact State.sendRoll_rxNext ..

/-- A late flit of a member past its cut, which is not the leader, is counted, noted as an error, and told to the leader. -/
theorem State.lateFlit_pastCut {p : Nat} (n : Nat) {s : State} (hp : p < 32) (hcut : s.beforeCut p = false) (hpos : s.spanPos p ≠ 0) :
    ∃ f, s.lateFlit p n = ((s.flagCount R.FAB.EVT_LATE_FLIT R.FAB.LATE_CNT n).noteError p (lateOrigin n)).sendTo 0 f := by
  unfold State.lateFlit
  extract_lets u o v st w
  have hparts : v.parts = s.parts := (State.noteError_late_parts p n u).trans (State.flagCount_parts ..)
  have hvcut : v.beforeCut p = false := by
    unfold State.beforeCut State.part at hcut ⊢
    rw [hparts]
    exact hcut
  have hw : w = v := by
    unfold w
    rw [hvcut]
    rfl
  have hwpos : w.spanPos p ≠ 0 := by
    unfold State.spanPos at hpos ⊢
    have hv : v.rd R.GLB.SPAN_CTL_POSITION p = u.rd R.GLB.SPAN_CTL_POSITION p := State.rd_noteError_late u p n (by decide) hp
    rw [hw, hv, State.rd_flagCount_apart s n p (by decide) (by decide)]
    exact hpos
  rw [hw] at hwpos ⊢
  rw [hvcut, if_neg Bool.false_ne_true, if_neg hwpos]
  exact ⟨_, rfl⟩

/-- What a late flit past the cut leaves of the register fields of other pages than RELG, beside LATE_FLIT and its counter. -/
theorem State.rd_lateFlit_pastCut {p n : Nat} {s : State} (hp : p < 32) (hcut : s.beforeCut p = false) (hpos : s.spanPos p ≠ 0) {f : Field} {i : Nat}
    (hf : f.OtherPage R.RELG.EVT_DETECTED) (htx : f.off ∉ [R.FAB.TX_BYTES.off]) (hi : i < 32) :
    (s.lateFlit p n).rd f i = (s.flagCount R.FAB.EVT_LATE_FLIT R.FAB.LATE_CNT n).rd f i := by
  obtain ⟨g, hlate⟩ := State.lateFlit_pastCut n hp hcut hpos
  rw [hlate, State.sendTo_rdAway 0 g _ f i htx hf.2.1, State.rd_noteError_late _ p n hf hi]

/-! ### A link that goes down -/

/-- A port's record when its link has gone down: nothing to acknowledge, nothing that waits. -/
def PortSt.cleared (q : PortSt) : PortSt :=
  { q with txSeq := 0, rxNext := 0, replay := [], resends := 0, wait := [], pausedTo := 0, held := [] }

/-- The port as the link's loss leaves it, before the flits that wait there are found late. -/
def State.linkLost (n : Nat) (s : State) : State :=
  let s := s.onPort n PortSt.cleared
  let s := ((s.wr R.FAB.STAT_LINK_UP n 0).wr R.FAB.STAT_VERSION n 0).wr R.FAB.PEER_POS_VALID n 0
  (s.raise R.FAB.EVT_LINK_DOWN n).wrB R.FAB.STAT_TRAINING n (s.en .fab n)

/-- The port after its queue pairs are lost too, and FORMED with it where a route names the port. -/
def State.linkCut (n : Nat) (s : State) : State :=
  let s := (s.linkLost n).losePort n
  s.whenB (s.fab.routes.any (fun r => r.2.valid && r.2.port == n)) (fun s => s.wr R.FABS.STAT_FORMED 0 0)

/-- A flit that was under way on the port: late where it is a WRITE of a span step. -/
def State.cutOff (n : Nat) (f : List Byte) (s : State) : State :=
  match s.writerOf f with
  | some p => s.lateFlit p n
  | none => s

/-- A flit of no span step. -/
theorem State.cutOff_none {n : Nat} {f : List Byte} {s : State} (h : s.writerOf f = none) : s.cutOff n f = s := by
  unfold State.cutOff
  rw [h]

/-- A WRITE flit of a span step. -/
theorem State.cutOff_some {n p : Nat} {f : List Byte} {s : State} (h : s.writerOf f = some p) : s.cutOff n f = s.lateFlit p n := by
  unfold State.cutOff
  rw [h]

/-- A link that goes down: the port's record and registers, its queue pairs and FORMED, then the flits that were under way. -/
theorem State.portDown_eq (n : Nat) (s : State) : s.portDown n = (s.linkCut n).each ((s.port n).replay ++ (s.port n).wait)
    (State.cutOff n) := rfl

theorem State.linkLost_rdAway (n : Nat) (s : State) : RdAway portOffs s (s.linkLost n) := by
  have h : RdAway portOffs s (s.onPort n PortSt.cleared) := .of_regs (.refl _ s) rfl
  exact ((((h.wr (f := R.FAB.STAT_LINK_UP) n 0 (by decide) (by decide)).wr (f := R.FAB.STAT_VERSION) n 0 (by decide) (by decide)).wr
    (f := R.FAB.PEER_POS_VALID) n 0 (by decide) (by decide)).wr (f := R.FAB.EVT_LINK_DOWN) n 1 (by decide) (by decide)).wr
    (f := R.FAB.STAT_TRAINING) n _ (by decide) (by decide)

/-- After the queue pairs are lost, FORMED is all that may still change. -/
theorem State.linkCut_rd (n : Nat) (s : State) {f : Field} (i : Nat) (hf : f.off ∉ [R.FAB.TX_BYTES.off]) (hne : f.key i ≠ R.FABS.STAT_FORMED.key 0)
    (hp : f.Placed) : (s.linkCut n).rd f i = (s.linkLost n).rd f i := by
  unfold State.linkCut
  extract_lets u
  have hu : u.rd f i = (s.linkLost n).rd f i := (State.losePort_traffic n _).rd f i hf hp
  rw [← hu]
  unfold State.whenB
  split
  · exact State.rd_wr_other u _ _ _ _ _ hne
  · rfl

theorem State.linkCut_rdAway (n : Nat) (s : State) : RdAway portOffs s (s.linkCut n) := by
  intro f i hf hp
  have htx : f.off ∉ [R.FAB.TX_BYTES.off] := fun h => hf (by rw [List.mem_singleton.1 h]; decide)
  have hformed : f.key i ≠ R.FABS.STAT_FORMED.key 0 := by
    refine Field.key_ne _ _ _ _ (.inl fun h => hf ?_) hp.1 (by decide) hp.2 (by decide)
    rw [h]
    decide
  exact (State.linkCut_rd n s i htx hformed hp).trans (State.linkLost_rdAway n s f i hf hp)

/-- What the loss of a link writes in the port's registers. -/
theorem State.linkLost_shows (n : Nat) (s : State) : (s.linkLost n).rd R.FAB.STAT_LINK_UP n = 0 ∧ (s.linkLost n).rd R.FAB.STAT_VERSION n = 0 ∧
    (s.linkLost n).rd R.FAB.PEER_POS_VALID n = 0 ∧ (s.linkLost n).rd R.FAB.EVT_LINK_DOWN n = 1 := by
  simp (disch := decide) [State.linkLost, State.wrB, State.raise, State.rd_wr_apart, R.FAB.EVT_LINK_DOWN]

/-- A port that goes down is down, of no version and of no peer, and says so. -/
theorem State.linkCut_shows {n : Nat} (hn : n < 32) (s : State) : (s.linkCut n).rd R.FAB.STAT_LINK_UP n = 0 ∧
    (s.linkCut n).rd R.FAB.STAT_VERSION n = 0 ∧ (s.linkCut n).rd R.FAB.PEER_POS_VALID n = 0 ∧ (s.linkCut n).rd R.FAB.EVT_LINK_DOWN n = 1 := by
  have cut : ∀ f : Field, f.OtherPage R.FABS.STAT_FORMED → f.off ∉ [R.FAB.TX_BYTES.off] → (s.linkCut n).rd f n = (s.linkLost n).rd f n :=
    fun f hf htx => State.linkCut_rd n s n htx (Field.key_ne_of_otherPage hf hn (by decide)) hf.2.1
  rw [cut _ (by decide) (by decide), cut _ (by decide) (by decide), cut _ (by decide) (by decide), cut _ (by decide) (by decide)]
  exact State.linkLost_shows n s

/-- A link that goes down leaves the steps, until a flit is found late. -/
theorem State.linkCut_step (n : Nat) (s : State) (p : Nat) : ((s.linkCut n).part p).step = (s.part p).step := by
  have h : (((s.linkLost n).losePort n).part p).step = (s.part p).step := (State.losePort_traffic n (s.linkLost n)).step p
  rw [← h]
  exact State.whenB_eq (fun u => (u.part p).step) _ _ (fun _ => by rfl) _

/-- Nothing waits for an acknowledgement on a port that has gone down. -/
theorem State.port_linkCut (n : Nat) (s : State) : ((s.linkCut n).port n).replay = [] ∧ ((s.linkCut n).port n).txSeq = 0 := by
  have hport : (s.linkCut n).port n = ((s.linkLost n).losePort n).port n := State.whenB_eq (fun u => u.port n) _ _ (fun _ => by rfl) _
  have hlost : (s.linkLost n).port n = (s.onPort n PortSt.cleared).port n := rfl
  rw [hport, (State.losePort_traffic n _).replay, (State.losePort_traffic n _).txSeq, hlost, State.port_onPort_same]
  exact ⟨rfl, rfl⟩

/-- FORMED falls with a port that a route names. -/
theorem State.linkCut_formed {n : Nat} {s : State} (h : ∃ r ∈ s.fab.routes, r.2.valid = true ∧ r.2.port = n) :
    (s.linkCut n).rd R.FABS.STAT_FORMED 0 = 0 := by
  have named : ((s.linkLost n).losePort n).fab.routes.any (fun r => r.2.valid && r.2.port == n) = true := by
    rw [(State.losePort_traffic n _).routes]
    obtain ⟨r, hr, hvalid, hport⟩ := h
    exact List.any_eq_true.2 ⟨r, hr, by simp [hvalid, hport]⟩
  unfold State.linkCut
  extract_lets u
  rw [State.whenB, if_pos named]
  exact State.rd_wr_same ..

/-- The writer of a flit is one of the module's partitions. -/
theorem State.writerOf_lt {s : State} {f : List Byte} {p : Nat} (h : s.writerOf f = some p) : p < 12 := by
  unfold State.writerOf at h
  split at h
  · exact List.mem_range.1 (List.mem_of_find?_eq_some h)
  · cases h

/-- Where no flit under way is a WRITE of a span step, nothing is late. -/
theorem State.portDown_of_noWriter {n : Nat} {s : State} (h : ∀ f ∈ (s.port n).replay ++ (s.port n).wait, s.writerOf f = none) :
    s.portDown n = s.linkCut n := by
  rw [State.portDown_eq]
  generalize (s.port n).replay ++ (s.port n).wait = l at h
  induction l with
  | nil => rfl
  | cons f l ih =>
    have hf : (s.linkCut n).writerOf f = none :=
      ((State.linkCut_rdAway n s).writerOf (State.linkCut_step n s) f).trans (h f (List.mem_cons_self ..))
    have hrest := ih (fun g hg => h g (List.mem_cons_of_mem _ hg))
    unfold State.each at hrest ⊢
    rw [List.foldl_cons, State.cutOff_none hf, hrest]

/-- Where one flit under way is a WRITE of a span step, it is late there. -/
theorem State.portDown_of_writer {n p : Nat} {f : List Byte} {s : State} (hcut : (s.port n).replay ++ (s.port n).wait = [f])
    (hw : s.writerOf f = some p) : s.portDown n = (s.linkCut n).lateFlit p n := by
  have hf : (s.linkCut n).writerOf f = some p := ((State.linkCut_rdAway n s).writerOf (State.linkCut_step n s) f).trans hw
  rw [State.portDown_eq, hcut]
  exact State.cutOff_some hf

end Sys2Proof.Machine
end

section
/-! SUPPORT. Links: training, the loss of a link, acknowledgements and LINK flits (R378, R385, R386). -/
namespace Sys2Proof.Machine

/-! ### Training -/

/-- A port that has trained in fabric mode with a common version: it shows its peer and the latency, and sends its 64 measuring flits. -/
def State.measuredPort (n : Nat) (peer : List Byte) (lat : Nat) (s : State) : State :=
  let s := ((s.wr R.FAB.STAT_TRAINING n 0).wr R.FAB.PEER_POS_POS n (byteAt peer 1)).wr R.FAB.LINK_LAT n lat
  s.each (List.range 64) (fun _ u => u.linkOn n (measuringFlit (byteAt peer 1) (s.rd R.GLBG.STRAP_POSITION 0) 0 (leBytes 8 u.clk.devTime)))

/-- A port in fabric mode comes up with a version. -/
def State.fabricUp (n v : Nat) (s : State) : State :=
  (((s.wr R.FAB.PEER_POS_VALID n 1).wr R.FAB.STAT_VERSION n v).wr R.FAB.STAT_LINK_UP n 1).raise R.FAB.EVT_LINK_UP_EVT n

/-- Coming up leaves the ports' records. -/
theorem State.port_fabricUp (s : State) (n v m : Nat) : (s.fabricUp n v).port m = s.port m := rfl

/-- The highest version that a port and its peer share, 0 where they share none. -/
def State.commonVersion (s : State) (n : Nat) (peer : List Byte) : Nat := topVersion (byteAt peer 0 &&& s.rd R.FAB.PORT_CFG_VERSIONS n)

/-- Versions are numbered to 3. -/
theorem topVersion_le (mask : Nat) : topVersion mask ≤ 3 := by
  unfold topVersion
  repeat' split
  all_goals decide

section
variable (n : Fin 16) (peer : List Byte) (lat : Nat) {s : State} (hen : s.en .fab n.val = true) (hdown : s.is R.FAB.STAT_LINK_UP n.val = false)
  (hdoze : s.inDoze = false) (hmove : s.pwr.move ≠ 1) (href : s.clk.refOn = true)
include hen hdown hdoze hmove href

/-- In Ethernet mode a port that has trained comes up. -/
theorem exec_portTrained_ethernet (hmode : s.rd R.FAB.PORT_CFG_MODE n.val = 0) : exec (.portTrained n peer lat) s =
    .next (((s.wr R.FAB.STAT_TRAINING n.val 0).wr R.FAB.STAT_LINK_UP n.val 1).raise R.FAB.EVT_LINK_UP_EVT n.val) := by
  show execPortTrained n peer lat s = _
  simp [execPortTrained, hen, hdown, hdoze, hmove, href, State.rd_wr_apart s (f := R.FAB.STAT_TRAINING) (g := R.FAB.PORT_CFG_MODE) _ _ _ (by decide), hmode]

/-- In fabric mode a port that has trained measures where a version is common, and comes up where the latency allows it. -/
theorem exec_portTrained_fabric (hmode : s.rd R.FAB.PORT_CFG_MODE n.val ≠ 0) : exec (.portTrained n peer lat) s = .next (
    if s.commonVersion n.val peer = 0 then (s.wr R.FAB.STAT_TRAINING n.val 0).raise R.FAB.EVT_VERSION_FAIL n.val
    else if 300 < lat then (s.measuredPort n.val peer lat).raise R.FAB.EVT_VERSION_FAIL n.val
    else (s.measuredPort n.val peer lat).fabricUp n.val (s.commonVersion n.val peer)) := by
  show execPortTrained n peer lat s = _
  have hvers : (s.wr R.FAB.STAT_TRAINING n.val 0).rd R.FAB.PORT_CFG_VERSIONS n.val = s.rd R.FAB.PORT_CFG_VERSIONS n.val :=
    State.rd_wr_apart _ _ _ _ (by decide)
  have hmode' : (s.wr R.FAB.STAT_TRAINING n.val 0).rd R.FAB.PORT_CFG_MODE n.val = s.rd R.FAB.PORT_CFG_MODE n.val :=
    State.rd_wr_apart _ _ _ _ (by decide)
  have enters : (!s.en .fab n.val || s.is R.FAB.STAT_LINK_UP n.val || s.inDoze || s.pwr.move == 1 || !s.clk.refOn) = false := by
    simp [hen, hdown, hdoze, hmove, href]
  unfold execPortTrained
  extract_lets k u v w pos x
  rw [if_neg (by rw [enters]; exact Bool.false_ne_true), if_neg (by rw [hmode']; exact hmode)]
  have hv : v = s.commonVersion n.val peer := congrArg (fun m => topVersion (byteAt peer 0 &&& m)) hvers
  rw [← hv]
  by_cases hnone : v = 0
  · rw [if_pos hnone, if_pos hnone]
  · rw [if_neg hnone, if_neg hnone]
    exact (apply_ite Host.Outcome.next ..).symm

end

/-- States that differ at most in register fields and the fabric record. -/
def FabOnly (s t : State) : Prop := t = { s with regs := t.regs, fab := t.fab }

/-- Nothing changed. -/
theorem FabOnly.refl (s : State) : FabOnly s s := rfl

/-- LINK flits change register fields and the fabric record only. -/
theorem FabOnly.each_linkOn {α : Type} {s t : State} (h : FabOnly s t) (n : Nat) (f : State → List Byte) (l : List α) :
    FabOnly s (t.each l (fun _ u => u.linkOn n (f u))) := by
  refine State.each_keeps (FabOnly s) l _ (fun _ u hu => ?_) t h
  unfold FabOnly
  rw [State.linkOn_eq, hu]

/-- One more register field. -/
theorem FabOnly.wr {s t : State} (h : FabOnly s t) (f : Field) (i v : Nat) : FabOnly s (t.wr f i v) := by
  unfold FabOnly at h ⊢
  rw [h]
  rfl

/-- Measuring changes register fields and the port's record. -/
theorem State.measuredPort_fabOnly (n : Nat) (peer : List Byte) (lat : Nat) (s : State) : FabOnly s (s.measuredPort n peer lat) :=
  FabOnly.each_linkOn ((((FabOnly.refl s).wr _ _ _).wr _ _ _).wr _ _ _) n _ _

/-- What measuring leaves of the register fields: what it had written before its first flit. -/
theorem State.rd_measuredPort (n : Nat) (peer : List Byte) (lat : Nat) (s : State) {f : Field} (i : Nat) (hf : f.off ∉ [R.FAB.TX_BYTES.off])
    (hp : f.Placed) : (s.measuredPort n peer lat).rd f i =
      (((s.wr R.FAB.STAT_TRAINING n 0).wr R.FAB.PEER_POS_POS n (byteAt peer 1)).wr R.FAB.LINK_LAT n lat).rd f i :=
  (Traffic.each _ (fun _ u => State.linkOn_traffic n _ u) _).rd f i hf hp

/-- The 64 measuring flits stand behind what the port has sent, each a LINK flit that names the peer. -/
theorem State.out_measuredPort (n : Nat) (peer : List Byte) (lat : Nat) (s : State) : ∃ l : List (List Byte), l.length = 64 ∧
    ((s.measuredPort n peer lat).port n).out = (s.port n).out ++ l.map NetOut.flit ∧ ∀ b ∈ l, flitType b = ftLink ∧ byteAt b 4 = byteAt peer 1 :=
  State.each_linkOn_out n _ (fun b => flitType b = ftLink ∧ byteAt b 4 = byteAt peer 1)
    (fun _ => ⟨State.flitType_sealedOn_measuring .., (State.dest_sealedOn_measuring ..).trans (byteAt_mod peer 1)⟩) (List.range 64) _

/-- A port that has trained: up in Ethernet mode, and in fabric mode measured, with a version or VERSION_FAIL (R378, R386). -/
theorem portTrained_spec (n : Fin 16) (peer : List Byte) (lat : Nat) (s : State) (hen : s.en .fab n.val = true)
    (hdown : s.is R.FAB.STAT_LINK_UP n.val = false) (hdoze : s.inDoze = false) (hmove : s.pwr.move ≠ 1) (href : s.clk.refOn = true) :
    ∃ t, exec (.portTrained n peer lat) s = .next t ∧ FabOnly s t ∧ t.rd R.FAB.STAT_TRAINING n.val = 0 ∧
      (s.rd R.FAB.PORT_CFG_MODE n.val = 0 → t.fab = s.fab ∧ t.rd R.FAB.STAT_LINK_UP n.val = 1 ∧ t.rd R.FAB.EVT_LINK_UP_EVT n.val = 1) ∧
      (s.rd R.FAB.PORT_CFG_MODE n.val ≠ 0 →
        (∀ v, s.commonVersion n.val peer = v → v ≠ 0 → lat ≤ 300 →
          t.rd R.FAB.STAT_LINK_UP n.val = 1 ∧ t.rd R.FAB.STAT_VERSION n.val = v ∧ t.rd R.FAB.PEER_POS_VALID n.val = 1 ∧
          t.rd R.FAB.PEER_POS_POS n.val = byteAt peer 1 % 2 ^ R.FAB.PEER_POS_POS.width) ∧
        (s.commonVersion n.val peer ≠ 0 → ∃ l : List (List Byte), l.length = 64 ∧
          (t.port n.val).out = (s.port n.val).out ++ l.map NetOut.flit ∧ ∀ b ∈ l, flitType b = ftLink ∧ byteAt b 4 = byteAt peer 1) ∧
        (s.commonVersion n.val peer ≠ 0 → t.rd R.FAB.LINK_LAT n.val = lat % 2 ^ R.FAB.LINK_LAT.width) ∧
        (s.commonVersion n.val peer = 0 ∨ 300 < lat →
          t.is R.FAB.STAT_LINK_UP n.val = false ∧ t.rd R.FAB.EVT_VERSION_FAIL n.val = 1)) := by
  have hup : s.rd R.FAB.STAT_LINK_UP n.val = 0 := by simpa [State.is] using hdown
  by_cases hmode : s.rd R.FAB.PORT_CFG_MODE n.val = 0
  · refine ⟨_, exec_portTrained_ethernet n peer lat hen hdown hdoze hmove href hmode, (((FabOnly.refl s).wr _ _ _).wr _ _ _).wr _ _ _, ?_,
      fun _ => ⟨rfl, ?_, ?_⟩, fun h => absurd hmode h⟩
    · simp (disch := decide) [State.rd_raise_apart, State.rd_wr_apart]
    · simp (disch := decide) [State.rd_raise_apart, R.FAB.STAT_LINK_UP]
    · exact State.rd_raise _ _ _ (by decide)
  have hexec := exec_portTrained_fabric n peer lat hen hdown hdoze hmove href hmode
  have hmeas := State.measuredPort_fabOnly n.val peer lat s
  by_cases hnone : s.commonVersion n.val peer = 0
  · rw [if_pos hnone] at hexec
    refine ⟨_, hexec, ((FabOnly.refl s).wr _ _ _).wr _ _ _, ?_, fun h => absurd h hmode, fun _ => ⟨?_, fun h => absurd hnone h,
      fun h => absurd hnone h, fun _ => ⟨?_, State.rd_raise _ _ _ (by decide)⟩⟩⟩
    · simp (disch := decide) [State.rd_raise_apart]
    · rintro v hv h0
      exact absurd (hv.symm.trans hnone) h0
    · simp (disch := decide) [State.is, State.rd_raise_apart, State.rd_wr_apart, hup]
  rw [if_neg hnone] at hexec
  by_cases hlate : 300 < lat
  · rw [if_pos hlate] at hexec
    refine ⟨_, hexec, hmeas.wr _ _ _, ?_, fun h => absurd h hmode, fun _ => ⟨fun _ _ _ h => absurd hlate (by omega),
      fun _ => by rw [State.port_raise]; exact State.out_measuredPort n.val peer lat s, fun _ => ?_, fun _ => ⟨?_, State.rd_raise _ _ _ (by decide)⟩⟩⟩
    · simp (disch := decide) [State.rd_raise_apart, State.rd_measuredPort, State.rd_wr_apart]
    · simp (disch := decide) [State.rd_raise_apart, State.rd_measuredPort]
    · simp (disch := decide) [State.is, State.rd_raise_apart, State.rd_measuredPort, State.rd_wr_apart, hup]
  · rw [if_neg hlate] at hexec
    refine ⟨_, hexec, (((hmeas.wr _ _ _).wr _ _ _).wr _ _ _).wr _ _ _, ?_, fun h => absurd h hmode, fun _ => ⟨?_,
      fun _ => by rw [State.port_fabricUp]; exact State.out_measuredPort n.val peer lat s, fun _ => ?_, fun h => absurd h (by simp [hnone, hlate])⟩⟩
    · simp (disch := decide) [State.fabricUp, State.rd_raise_apart, State.rd_measuredPort, State.rd_wr_apart]
    · rintro v rfl h0 _
      have hle := topVersion_le (byteAt peer 0 &&& s.rd R.FAB.PORT_CFG_VERSIONS n.val)
      have hmod : s.commonVersion n.val peer % 2 ^ R.FAB.STAT_VERSION.width = s.commonVersion n.val peer :=
        Nat.mod_eq_of_lt (Nat.lt_of_le_of_lt hle (by decide))
      refine ⟨?_, ?_, ?_, ?_⟩
      · simp (disch := decide) [State.fabricUp, State.rd_raise_apart, R.FAB.STAT_LINK_UP]
      · simp (disch := decide) [State.fabricUp, State.rd_raise_apart, State.rd_wr_apart, hmod]
      · simp (disch := decide) [State.fabricUp, State.rd_raise_apart, State.rd_wr_apart, R.FAB.PEER_POS_VALID]
      · simp (disch := decide) [State.fabricUp, State.rd_raise_apart, State.rd_measuredPort, State.rd_wr_apart]
    · simp (disch := decide) [State.fabricUp, State.rd_raise_apart, State.rd_measuredPort, State.rd_wr_apart]

/-! ### A link that goes down -/

/-- PORT_LINK_DOWN on a link that is up. -/
theorem exec_portLinkDown {n : Fin 16} {s : State} (hup : s.is R.FAB.STAT_LINK_UP n.val = true) :
    exec (.portLinkDown n) s = .next (s.portDown n.val) := if_pos hup

/-- A link that goes down with no WRITE flit of a span step under way (R386). -/
theorem portLinkDown_spec (n : Fin 16) (s : State) (hup : s.is R.FAB.STAT_LINK_UP n.val = true)
    (hwriter : ∀ f ∈ (s.port n.val).replay ++ (s.port n.val).wait, s.writerOf f = none) : ∃ t, exec (.portLinkDown n) s = .next t ∧
    t.rd R.FAB.STAT_LINK_UP n.val = 0 ∧ t.rd R.FAB.STAT_VERSION n.val = 0 ∧ t.rd R.FAB.PEER_POS_VALID n.val = 0 ∧
    t.rd R.FAB.EVT_LINK_DOWN n.val = 1 ∧ (t.port n.val).replay = [] ∧ (t.port n.val).txSeq = 0 ∧
    ((∃ r ∈ s.fab.routes, r.2.valid = true ∧ r.2.port = n.val) → t.rd R.FABS.STAT_FORMED 0 = 0) := by
  obtain ⟨hlink, hversion, hpeer, hevt⟩ := State.linkCut_shows (n := n.val) (by omega) s
  obtain ⟨hreplay, hseq⟩ := State.port_linkCut n.val s
  refine ⟨s.linkCut n.val, ?_, hlink, hversion, hpeer, hevt, hreplay, hseq, State.linkCut_formed⟩
  rw [exec_portLinkDown hup, State.portDown_of_noWriter hwriter]

/-- A link that goes down under a WRITE flit of a span step past its cut, on a member that does not lead: the flit is late (R390, R393). -/
theorem portLinkDown_late (n : Fin 16) (f : List Byte) (p : Nat) (s : State) (hup : s.is R.FAB.STAT_LINK_UP n.val = true)
    (hflit : (s.port n.val).replay ++ (s.port n.val).wait = [f]) (hwriter : s.writerOf f = some p) (hcut : s.beforeCut p = false)
    (hpos : s.spanPos p ≠ 0) :
    ∃ t, exec (.portLinkDown n) s = .next t ∧ t.rd R.FAB.STAT_LINK_UP n.val = 0 ∧ t.rd R.FAB.EVT_LINK_DOWN n.val = 1 ∧
      t.rd R.FAB.EVT_LATE_FLIT n.val = 1 ∧
      t.rd R.FAB.LATE_CNT n.val = min (s.rd R.FAB.LATE_CNT n.val + 1) (2 ^ R.FAB.LATE_CNT.width - 1) := by
  have hn : n.val < 32 := by omega
  have hp : p < 32 := Nat.lt_of_lt_of_le (State.writerOf_lt hwriter) (by decide)
  have hcut' : (s.linkCut n.val).beforeCut p = false := by
    unfold State.beforeCut at hcut ⊢
    rw [State.linkCut_step]
    exact hcut
  have hpos' : (s.linkCut n.val).spanPos p ≠ 0 := by
    unfold State.spanPos at hpos ⊢
    rw [State.linkCut_rdAway n.val s _ _ (by decide) (by decide)]
    exact hpos
  have hlate : ∀ g : Field, g.page = .fab → g.off ∉ [R.FAB.TX_BYTES.off] → g.Placed → ((s.linkCut n.val).lateFlit p n.val).rd g n.val =
      ((s.linkCut n.val).flagCount R.FAB.EVT_LATE_FLIT R.FAB.LATE_CNT n.val).rd g n.val := by
    intro g hpage htx hplaced
    refine State.rd_lateFlit_pastCut hp hcut' hpos' ⟨?_, hplaced, by decide⟩ htx hn
    rw [hpage]
    decide
  obtain ⟨hlink, _, _, hevt⟩ := State.linkCut_shows hn s
  obtain ⟨hflag, hcount, _, _⟩ := State.flagCount_spec (s.linkCut n.val) R.FAB.EVT_LATE_FLIT R.FAB.LATE_CNT n.val (by decide)
    (Field.key_ne _ _ _ _ (by decide) (by decide) (by decide) (by decide) (by decide))
  refine ⟨(s.linkCut n.val).lateFlit p n.val, ?_, ?_, ?_, ?_, ?_⟩
  · rw [exec_portLinkDown hup, State.portDown_of_writer hflit hwriter]
  · rw [hlate _ rfl (by decide) (by decide), State.rd_flagCount_apart _ _ _ (by decide) (by decide), hlink]
  · rw [hlate _ rfl (by decide) (by decide), State.rd_flagCount_apart _ _ _ (by decide) (by decide), hevt]
  · rw [hlate _ rfl (by decide) (by decide), hflag]
  · rw [hlate _ rfl (by decide) (by decide), hcount, State.linkCut_rdAway n.val s _ _ (by decide) (by decide)]

/-! ### Acknowledgements -/

/-- Within 2 µs nothing is sent again. -/
theorem ackTimeout_early (n : Fin 16) (s : State) (h : s.clk.devTime < (s.port n.val).since + 2000) :
    exec (.wentarAckTimeout n) s = .next s := by
  show Host.Outcome.next (s.whenB (s.passed (s.port n.val).since 2000) _) = _
  rw [State.whenB, State.passed, decide_eq_false (by omega)]
  rfl

/-- After 2 µs what is not acknowledged is sent again. -/
theorem exec_ackTimeout {n : Fin 16} {s : State} (h : (s.port n.val).since + 2000 ≤ s.clk.devTime) :
    exec (.wentarAckTimeout n) s = .next (s.resendPort n.val) := by
  show Host.Outcome.next (s.whenB (s.passed (s.port n.val).since 2000) _) = _
  rw [State.whenB, State.passed, decide_eq_true h]
  rfl

/-- A port's record after its replay buffer has gone out again. -/
def PortSt.resent (now : Nat) (q : PortSt) : PortSt :=
  { q with resends := q.resends + 1, since := now, out := q.out ++ q.replay.map NetOut.flit }

/-- Up to eight times the replay buffer goes out again. -/
theorem State.resendPort_again {n : Nat} {s : State} (hreplay : (s.port n).replay ≠ []) (hless : (s.port n).resends < 8) :
    s.resendPort n = ((s.onPort n (PortSt.resent s.clk.devTime)).bump R.FAB.RETRY_CNT n (s.port n).replay.length).bump R.FAB.TX_BYTES n
      (288 * (s.port n).replay.length) := by
  unfold State.resendPort
  extract_lets q u
  rw [if_neg (by rw [List.isEmpty_iff]; exact hreplay), if_neg (by show ¬ 8 ≤ (s.port n).resends; omega)]
  rfl

/-- After eight resends the link goes down. -/
theorem State.resendPort_last {n : Nat} {s : State} (hreplay : (s.port n).replay ≠ []) (hmost : 8 ≤ (s.port n).resends) :
    s.resendPort n = s.portDown n := by
  unfold State.resendPort
  extract_lets q u
  rw [if_neg (by rw [List.isEmpty_iff]; exact hreplay), if_pos hmost]

/-- With everything acknowledged nothing is sent again. -/
theorem State.resendPort_none {n : Nat} {s : State} (h : (s.port n).replay = []) : s.resendPort n = s := by
  unfold State.resendPort
  extract_lets q u
  rw [if_pos (by rw [List.isEmpty_iff]; exact h)]

/-- Without an acknowledgement for 2 µs the replay buffer goes out again, up to eight times, and then the link goes down (R385). -/
theorem ackTimeout_spec (n : Fin 16) (s : State) (hreplay : (s.port n.val).replay ≠ []) (htime : (s.port n.val).since + 2000 ≤ s.clk.devTime) :
    ∃ t, exec (.wentarAckTimeout n) s = .next t ∧
      ((s.port n.val).resends < 8 →
        t.port n.val = (s.port n.val).resent s.clk.devTime ∧
        t.rd R.FAB.RETRY_CNT n.val = min (s.rd R.FAB.RETRY_CNT n.val + (s.port n.val).replay.length) (2 ^ R.FAB.RETRY_CNT.width - 1) ∧
        RegsBut [(R.FAB.RETRY_CNT, n.val), (R.FAB.TX_BYTES, n.val)] s t) ∧
      (8 ≤ (s.port n.val).resends → (∀ f ∈ (s.port n.val).replay ++ (s.port n.val).wait, s.writerOf f = none) →
        t.rd R.FAB.STAT_LINK_UP n.val = 0 ∧ t.rd R.FAB.EVT_LINK_DOWN n.val = 1) := by
  refine ⟨s.resendPort n.val, exec_ackTimeout htime, fun hless => ?_, fun hmost hwriter => ?_⟩
  · rw [State.resendPort_again hreplay hless]
    refine ⟨?_, ?_, ?_⟩
    · simp only [State.port_bump, State.port_onPort_same]
    · rw [State.rd_bump_apart _ _ _ _ (by decide), State.rd_bump, State.rd_onPort]
    · exact (RegsBut.of_regs (.refl _ s) rfl).bump _ _ _ (by simp) |>.bump _ _ _ (by simp)
  · rw [State.resendPort_last hreplay hmost, State.portDown_of_noWriter hwriter]
    obtain ⟨hlink, _, _, hevt⟩ := State.linkCut_shows (n := n.val) (by omega) s
    exact ⟨hlink, hevt⟩

end Sys2Proof.Machine
end

section
/-! SUPPORT. Received flits: LINK flits and remote writes, from the link's check to what the module does with them (R384 to R390). -/
namespace Sys2Proof.Machine

/-! ### Reception -/

/-- With nothing to acknowledge, an acknowledgement changes nothing. -/
theorem State.takeLack_none {n : Nat} (lack : Nat) {s : State} (h : (s.port n).replay = []) : s.takeLack n lack = s := by
  unfold State.takeLack
  extract_lets q first k
  rw [if_neg]
  rintro ⟨hpos, hle⟩
  rw [show q.replay = [] from h] at hle
  exact Nat.not_le.2 hpos hle

/-- The bytes of a received flit are counted. -/
def State.flitIn (n : Nat) (f : List Byte) (s : State) : State := s.bump R.FAB.RX_BYTES n f.length

/-- A port expects the next sequence number. -/
def State.expectNext (n : Nat) (s : State) : State := s.onPort n (fun q => { q with rxNext := (q.rxNext + 1) % 65536 })

section
variable {n : Nat} {f : List Byte} {s : State} (hup : s.portUp n 1 = true) (hok : flitOk f = true) (hreplay : (s.port n).replay = [])
include hup hok hreplay

/-- A whole LINK flit goes on, whatever its sequence number. -/
theorem State.linkReceive_link (ht : flitType f = ftLink) : s.linkReceive n f = (true, s.flitIn n f) := by
  unfold State.linkReceive
  extract_lets u v
  have hv : v = u := by
    unfold v State.whenB
    rw [ht]
    rfl
  rw [if_neg (by rw [hup]; decide), if_neg (by simp [hok, ht]), hv, State.takeLack_none _ (by exact hreplay)]
  rfl

/-- A whole flit of another type goes on in its order. -/
theorem State.linkReceive_inOrder (ht : flitType f ≠ ftLink) (hseq : fieldLE f 8 2 = (s.port n).rxNext) :
    s.linkReceive n f = (true, (s.flitIn n f).expectNext n) := by
  have hne : (flitType f != ftLink) = true := bne_iff_ne.2 ht
  unfold State.linkReceive
  extract_lets u v
  have hv : v = u.expectNext n := by
    unfold v State.whenB
    rw [hne]
    rfl
  have horder : (flitType f != ftLink && fieldLE f 8 2 != (u.port n).rxNext) = false := by
    have : (u.port n).rxNext = (s.port n).rxNext := rfl
    rw [this, hseq, hne]
    simp
  have hv' : (v.port n).replay = [] := by
    rw [hv, State.expectNext, State.port_onPort_same]
    exact hreplay
  rw [if_neg (by rw [hup]; decide), if_neg (by rw [hok, horder]; decide), State.takeLack_none _ hv', hv]
  rfl

end

/-- Reception of a flit writes its count of bytes only. -/
theorem State.flitIn_rdAway (n : Nat) (f : List Byte) (s : State) : RdAway [R.FAB.RX_BYTES.off] s (s.flitIn n f) :=
  (RdAway.refl _ s).wr n _ (by decide) (by decide)

/-- Reception of a flit that is in order. -/
theorem State.received_rdAway (n : Nat) (f : List Byte) (s : State) : RdAway portOffs s ((s.flitIn n f).expectNext n) :=
  RdAway.of_regs ((State.flitIn_rdAway n f s).mono (by simp [portOffs, R.FAB.RX_BYTES])) rfl

/-! ### LINK flits -/

/-- Is a route up after the bytes of a flit are counted. -/
theorem State.routeUp_flitIn (n : Nat) (f : List Byte) (s : State) (m : Nat) : (s.flitIn n f).routeUp m = s.routeUp m := by
  have h := (State.flitIn_rdAway n f s).mono (offs' := [R.FAB.TX_BYTES.off, R.FAB.RX_BYTES.off]) (by simp)
  unfold State.routeUp
  rw [State.portUp_congr h]
  rfl

/-- The port on which a measuring flit from a member is answered: that of the member's route, or where it came in. -/
def State.wayBack (s : State) (n m : Nat) : Nat := if s.routeUp m then (s.route m).port else n

section
variable {n : Nat} {f : List Byte} {s : State} (hres : flitReserved f = false)
include hres

/-- A LINK flit without payload asks for what is not acknowledged: here nothing. -/
theorem State.takeLink_empty (hempty : fieldLE f 6 2 = 0) (hreplay : (s.port n).replay = []) : s.takeLink n f = s := by
  unfold State.takeLink
  extract_lets
  rw [if_neg (by rw [hres]; decide), if_pos hempty]
  exact State.resendPort_none hreplay

/-- A measuring flit for this module is answered with its payload. -/
theorem State.takeLink_answer (hpayload : fieldLE f 6 2 ≠ 0) (hhere : byteAt f 4 = s.rd R.GLBG.STRAP_POSITION 0) (hout : fieldLE f 24 4 = 0) :
    s.takeLink n f = s.linkOn (s.wayBack n (byteAt f 5))
      (measuringFlit (byteAt f 5) (s.rd R.GLBG.STRAP_POSITION 0) 1 ((f.drop 28).take (fieldLE f 6 2))) := by
  unfold State.takeLink
  extract_lets pos dest back
  rw [if_neg (by rw [hres]; decide), if_neg hpayload, if_neg (by simp [pos, dest, hhere]), if_pos hout]
  rfl

/-- A measuring flit for another member goes on where its route is up. -/
theorem State.takeLink_forward (hpayload : fieldLE f 6 2 ≠ 0) (hlink : s.is R.FAB.STAT_LINK_UP n = true)
    (hother : byteAt f 4 ≠ s.rd R.GLBG.STRAP_POSITION 0) (hroute : s.routeUp (byteAt f 4) = true) :
    s.takeLink n f = s.linkOn (s.route (byteAt f 4)).port f := by
  unfold State.takeLink
  extract_lets pos dest back
  rw [if_neg (by rw [hres]; decide), if_neg hpayload, if_pos (by simp [pos, dest, hlink, hother]), if_pos hroute]

end

section
variable {n : Fin 16} {f : List Byte} {s : State} (hup : s.portUp n.val 1 = true) (hok : flitOk f = true)
  (hreplay : (s.port n.val).replay = []) (ht : flitType f = ftLink)
include hup hok hreplay ht

/-- WENTAR_LINK on a link that is up. -/
theorem exec_wentarLink : exec (.wentarLink n f) s = .next ((s.flitIn n.val f).takeLink n.val f) := by
  have hlink : s.is R.FAB.STAT_LINK_UP n.val = true := (Bool.and_eq_true_iff.1 hup).1
  show execWentarLink n f s = _
  unfold execWentarLink
  extract_lets k
  have hrec : s.linkReceive k f = (true, s.flitIn n.val f) := State.linkReceive_link hup hok hreplay ht
  rw [if_neg (not_not_intro ht), if_neg (by rw [hlink]; decide), hrec]
  rfl

/-- A LINK flit with a reserved encoding is dropped and counted (R15). -/
theorem wentarLink_reserved (hres : flitReserved f = true) : ∃ t, exec (.wentarLink n f) s = .next t ∧ t = { s with regs := t.regs } ∧
    t.rd R.FAB.DROP_CNT n.val = min (s.rd R.FAB.DROP_CNT n.val + 1) (2 ^ R.FAB.DROP_CNT.width - 1) := by
  obtain ⟨-, hcount, -, -⟩ := State.flagCount_spec (s.flitIn n.val f) R.FAB.EVT_DROP R.FAB.DROP_CNT n.val (by decide)
    (Field.key_ne _ _ _ _ (by decide) (by decide) (by decide) (by decide) (by decide))
  refine ⟨(s.flitIn n.val f).dropOn n.val, ?_, rfl, ?_⟩
  · rw [exec_wentarLink hup hok hreplay ht, State.takeLink, if_pos hres]
  · exact hcount.trans (by rw [State.flitIn_rdAway n.val f s _ _ (by decide) (by decide)])

/-- A measuring flit whose member is this module is answered on the way back, one for another member goes on, and a LINK flit without payload
asks for what is not acknowledged (R386, R388). -/
theorem wentarLink_spec (hres : flitReserved f = false) : ∃ t, exec (.wentarLink n f) s = .next t ∧
    (fieldLE f 6 2 = 0 → t = { s with regs := t.regs } ∧ RegsBut [(R.FAB.RX_BYTES, n.val)] s t) ∧
    (fieldLE f 6 2 ≠ 0 → byteAt f 4 = s.rd R.GLBG.STRAP_POSITION 0 → fieldLE f 24 4 = 0 →
      ∃ b, flitType b = ftLink ∧ byteAt b 4 = byteAt f 5 ∧
        (t.port (s.wayBack n.val (byteAt f 5))).out = (s.port (s.wayBack n.val (byteAt f 5))).out ++ [.flit b]) ∧
    (fieldLE f 6 2 ≠ 0 → byteAt f 4 ≠ s.rd R.GLBG.STRAP_POSITION 0 → s.routeUp (byteAt f 4) = true →
      ∃ b, flitType b = ftLink ∧ byteAt b 4 = byteAt f 4 ∧
        (t.port (s.route (byteAt f 4)).port).out = (s.port (s.route (byteAt f 4)).port).out ++ [.flit b]) := by
  have hlink : (s.flitIn n.val f).is R.FAB.STAT_LINK_UP n.val = true := by
    unfold State.is
    rw [State.flitIn_rdAway n.val f s _ _ (by decide) (by decide)]
    exact (Bool.and_eq_true_iff.1 hup).1
  have hpos : (s.flitIn n.val f).rd R.GLBG.STRAP_POSITION 0 = s.rd R.GLBG.STRAP_POSITION 0 :=
    State.flitIn_rdAway n.val f s _ _ (by decide) (by decide)
  have hback : (s.flitIn n.val f).wayBack n.val (byteAt f 5) = s.wayBack n.val (byteAt f 5) := by
    unfold State.wayBack
    rw [State.routeUp_flitIn]
    rfl
  refine ⟨_, exec_wentarLink hup hok hreplay ht, ?_, ?_, ?_⟩
  · intro hempty
    rw [State.takeLink_empty hres hempty (s := s.flitIn n.val f) hreplay]
    exact ⟨rfl, (RegsBut.refl _ s).bump _ _ _ (by simp)⟩
  · intro hpayload hhere hout
    rw [State.takeLink_answer hres hpayload (hhere.trans hpos.symm) hout, hback, State.port_linkOn_same]
    exact ⟨_, State.flitType_sealedOn_measuring .., (State.dest_sealedOn_measuring ..).trans (byteAt_mod f 5), rfl⟩
  · intro hpayload hother hroute
    have hlen : 8 ≤ f.length := by
      have : f.length = 288 := by simpa using (Bool.and_eq_true_iff.1 hok).1
      omega
    rw [State.takeLink_forward hres hpayload hlink (by rw [hpos]; exact hother) ((State.routeUp_flitIn ..).trans hroute)]
    have hroute' : (s.flitIn n.val f).route (byteAt f 4) = s.route (byteAt f 4) := rfl
    rw [hroute', State.port_linkOn_same]
    exact ⟨_, (byteAt_sealFlit _ _ _ (by decide) hlen).trans ht, byteAt_sealFlit _ _ _ (by decide) hlen, rfl⟩

end

/-! ### Remote writes -/

/-- A dropped flit shows DROP and counts; nothing but register fields changes. -/
theorem State.dropOn_spec (n : Nat) (s : State) : (s.dropOn n).rd R.FAB.EVT_DROP n = 1 ∧
    (s.dropOn n).rd R.FAB.DROP_CNT n = min (s.rd R.FAB.DROP_CNT n + 1) (2 ^ R.FAB.DROP_CNT.width - 1) := by
  obtain ⟨hflag, hcount, -, -⟩ := State.flagCount_spec s R.FAB.EVT_DROP R.FAB.DROP_CNT n (by decide)
    (Field.key_ne _ _ _ _ (by decide) (by decide) (by decide) (by decide) (by decide))
  exact ⟨hflag, hcount⟩

/-- A WRITE flit does not fit: its length is none of whole bursts up to 256 bytes, or it does not end in the core's scratch (R389). -/
def writeMisfits (f : List Byte) : Prop :=
  fieldLE f 6 2 % 64 ≠ 0 ∨ 256 < fieldLE f 6 2 ∨ 2 ^ 20 < bits (fieldLE f 16 8) 0 20 + fieldLE f 6 2

/-- A WRITE flit that does not fit is dropped. -/
theorem State.takeWrite_misfit {n p : Nat} {f : List Byte} {s : State} (h : writeMisfits f) : s.takeWrite n f p = s.dropOn n := by
  unfold State.takeWrite
  extract_lets a len
  rw [if_pos]
  rcases h with h | h | h
  · exact .inl h
  · exact .inr (.inl h)
  · exact .inr (.inr (.inr (.inr h)))

/-- A WRITE flit that fits, for a core of its partition, before the cut and in time, is held burst by burst. -/
theorem State.takeWrite_held {n p : Nat} {f : List Byte} {s : State} (hfit : ¬ writeMisfits f) (hcore : bits (fieldLE f 16 8) 20 8 < 192)
    (hown : s.partOfCore (bits (fieldLE f 16 8) 28 2) (bits (fieldLE f 16 8) 20 8) = some p) (hcut : (s.part p).step.phase ≠ .cut)
    (htime : (s.part p).roll.count ≤ fieldLE f 12 4) :
    s.takeWrite n f p = s.onPart p (fun q => { q with spanIn := q.spanIn ++ flitWrites f }) := by
  simp only [writeMisfits, not_or, ne_eq, Decidable.not_not, Nat.not_lt] at hfit
  obtain ⟨hlen, hmost, hend⟩ := hfit
  unfold State.takeWrite
  extract_lets a len
  rw [if_neg, if_neg]
  · simp only [Bool.or_eq_true, beq_iff_eq, decide_eq_true_eq]
    rintro (h | h)
    · exact hcut h
    · omega
  · rintro (h | h | h | h | h)
    · exact h hlen
    · exact Nat.not_lt.2 hmost h
    · exact Nat.not_lt.2 h hcore
    · exact h hown
    · exact Nat.not_lt.2 hend h

/-- Whatever a WRITE flit is found to be, the port expects the same next. -/
theorem State.takeWrite_rxNext (n p : Nat) (f : List Byte) (m : Nat) (s : State) : ((s.takeWrite n f p).port m).rxNext = (s.port m).rxNext := by
  unfold State.takeWrite
  extract_lets a len
  split
  · rfl
  · split
    · exact State.lateFlit_rxNext ..
    · rfl

/-- A received flit that names this module still does. -/
theorem State.received_here {n : Nat} {f : List Byte} {s : State} (hhere : byteAt f 4 = s.rd R.GLBG.STRAP_POSITION 0) :
    ¬ byteAt f 4 ≠ ((s.flitIn n f).expectNext n).rd R.GLBG.STRAP_POSITION 0 := by
  rw [State.received_rdAway n f s _ _ (by decide) (by decide)]
  exact not_not_intro hhere

section
variable {n : Fin 16} {f : List Byte} {s : State} (hup : s.portUp n.val 1 = true) (hok : flitOk f = true)
  (hreplay : (s.port n.val).replay = []) (ht : flitType f = ftWrite) (hseq : fieldLE f 8 2 = (s.port n.val).rxNext)
  (hhere : byteAt f 4 = s.rd R.GLBG.STRAP_POSITION 0)
include hup hok hreplay ht hseq

/-- WENTAR_WRITE with a WRITE flit in order for this module. -/
theorem exec_wentarWrite : exec (.wentarWrite n f) s =
    .next (((s.flitIn n.val f).expectNext n.val).handFlit n.val f (fun p u => u.takeWrite n.val f p)) := by
  have hrec : s.linkReceive n.val f = (true, (s.flitIn n.val f).expectNext n.val) :=
    State.linkReceive_inOrder hup hok hreplay (by rw [ht]; decide) hseq
  show execWentarWrite n f s = _
  unfold execWentarWrite
  extract_lets k
  rw [show s.linkReceive k f = _ from hrec]
  exact (if_neg (by decide)).trans (if_pos ht)

include hhere

/-- A WRITE flit that no partition accepts is dropped. -/
theorem exec_wentarWrite_none (hpart : s.flitPart f = none) :
    exec (.wentarWrite n f) s = .next (((s.flitIn n.val f).expectNext n.val).dropOn n.val) := by
  rw [exec_wentarWrite hup hok hreplay ht hseq, State.handFlit, if_neg (State.received_here hhere),
    (State.received_rdAway n.val f s).flitPart, hpart]

/-- A WRITE flit that a partition accepts is taken. -/
theorem exec_wentarWrite_some {p : Nat} (hpart : s.flitPart f = some p) :
    exec (.wentarWrite n f) s = .next (((s.flitIn n.val f).expectNext n.val).takeWrite n.val f p) := by
  rw [exec_wentarWrite hup hok hreplay ht hseq, State.handFlit, if_neg (State.received_here hhere),
    (State.received_rdAway n.val f s).flitPart, hpart]

/-- A WRITE flit in order for this module: held for its DELIVER count, or dropped and counted (R387, R389). -/
theorem wentarWrite_spec : ∃ t, exec (.wentarWrite n f) s = .next t ∧ (t.port n.val).rxNext = ((s.port n.val).rxNext + 1) % 65536 ∧
    (s.flitPart f = none → t.rd R.FAB.EVT_DROP n.val = 1 ∧ t.parts = s.parts ∧ t.mem = s.mem ∧ t.cores = s.cores ∧
      t.rd R.FAB.DROP_CNT n.val = min (s.rd R.FAB.DROP_CNT n.val + 1) (2 ^ R.FAB.DROP_CNT.width - 1)) ∧
    (∀ p, s.flitPart f = some p → fieldLE f 6 2 % 64 = 0 → fieldLE f 6 2 ≤ 256 →
      bits (fieldLE f 16 8) 20 8 < 192 → s.partOfCore (bits (fieldLE f 16 8) 28 2) (bits (fieldLE f 16 8) 20 8) = some p →
      bits (fieldLE f 16 8) 0 20 + fieldLE f 6 2 ≤ 2 ^ 20 → (s.part p).step.phase ≠ .cut → (s.part p).roll.count ≤ fieldLE f 12 4 →
      t.part p = { s.part p with spanIn := (s.part p).spanIn ++ flitWrites f } ∧ (∀ q, q ≠ p → t.part q = s.part q) ∧
      t.mem = s.mem ∧ t.cores = s.cores) ∧
    (∀ p, s.flitPart f = some p → writeMisfits f → t.parts = s.parts ∧ t.cores = s.cores ∧
      t.rd R.FAB.DROP_CNT n.val = min (s.rd R.FAB.DROP_CNT n.val + 1) (2 ^ R.FAB.DROP_CNT.width - 1)) := by
  have hnext : (((s.flitIn n.val f).expectNext n.val).port n.val).rxNext = ((s.port n.val).rxNext + 1) % 65536 := by
    rw [State.expectNext, State.port_onPort_same]
    rfl
  obtain ⟨hflag, hcount⟩ := State.dropOn_spec n.val ((s.flitIn n.val f).expectNext n.val)
  rw [State.expectNext, State.rd_onPort, State.flitIn_rdAway n.val f s _ _ (by decide) (by decide), ← State.expectNext] at hcount
  cases hpart : s.flitPart f with
  | none =>
    refine ⟨_, exec_wentarWrite_none hup hok hreplay ht hseq hhere hpart, hnext, fun _ => ⟨hflag, rfl, rfl, rfl, hcount⟩, ?_, ?_⟩
    · exact fun _ h => nomatch h
    · exact fun _ h => nomatch h
  | some p =>
    refine ⟨_, exec_wentarWrite_some hup hok hreplay ht hseq hhere hpart, (State.takeWrite_rxNext ..).trans hnext, ?_, ?_, ?_⟩
    · exact fun h => nomatch h
    · rintro q hq hlen hmost hcore hown hend hcut htime
      obtain rfl := Option.some.inj hq
      have hown' := ((State.received_rdAway n.val f s).partOfCore rfl _ _).trans hown
      have hfit : ¬ writeMisfits f := by
        unfold writeMisfits
        omega
      rw [State.takeWrite_held hfit hcore hown' hcut htime]
      refine ⟨State.part_onPart_same .., fun q hq => State.part_onPart_other _ _ _ _ hq, rfl, rfl⟩
    · rintro q hq hmis
      rw [State.takeWrite_misfit hmis]
      exact ⟨rfl, rfl, hcount⟩

end

/-- A WRITE flit on a port whose fabric link is not up reaches nothing. -/
theorem wentarWrite_down (n : Fin 16) (f : List Byte) (s : State) (h : s.portUp n.val 1 = false) : exec (.wentarWrite n f) s = .next s := by
  show execWentarWrite n f s = _
  have hrec : s.linkReceive n.val f = (false, s) := if_pos (by rw [h]; rfl)
  unfold execWentarWrite
  extract_lets k
  rw [show s.linkReceive k f = _ from hrec]
  rfl

end Sys2Proof.Machine
end

section
/-! SUPPORT. Delivery of remote writes to scratch, and the formation of the span (R388, R389, R392). -/
namespace Sys2Proof.Machine

/-! ### Scratch -/

/-- The cells that a write of scratch lists: those of its bytes that are not 0, from offset `k` of the write on. -/
def scratchCells (a k : Nat) (bs : List Byte) : AMap Byte :=
  ((List.range' k bs.length).zip bs).filterMap (fun e => if e.2 = 0 then none else some (a + e.1, e.2))

/-- The first byte of a write is listed unless it is 0. -/
theorem scratchCells_cons (a k : Nat) (b : Byte) (bs : List Byte) :
    scratchCells a k (b :: bs) = if b = 0 then scratchCells a (k + 1) bs else (a + k, b) :: scratchCells a (k + 1) bs := by
  rw [scratchCells, List.length_cons, List.range'_succ, List.zip_cons_cons, List.filterMap_cons]
  by_cases h : b = 0
  · rw [if_pos h]
    simp only [h, if_true]
    rfl
  · rw [if_neg h]
    simp only [h, if_false]
    rfl

/-- What the listed cells read as: each byte of the write at its place, and 0 before it. -/
theorem getD_scratchCells (a k j : Nat) (bs : List Byte) :
    AMap.getD (scratchCells a k bs) (a + j) 0 = if j < k then 0 else bs.getD (j - k) 0 := by
  induction bs generalizing k with
  | nil => simp [scratchCells, AMap.getD, AMap.get?]
  | cons b bs ih =>
    have getD_cons : ∀ (v : Byte) (m : AMap Byte), AMap.getD ((a + k, v) :: m) (a + j) 0 = if k = j then v else AMap.getD m (a + j) 0 := by
      intro v m
      simp only [AMap.getD, AMap.get?, Nat.add_left_cancel_iff]
      split <;> rfl
    rw [scratchCells_cons]
    rcases Nat.lt_trichotomy j k with h | h | h
    · split
      · rw [ih, if_pos (by omega)]
      · rw [getD_cons, if_neg (by omega), ih, if_pos (by omega)]
    · subst h
      split
      next h0 => rw [ih, if_pos (by omega), if_neg (by omega), Nat.sub_self, h0, List.getD_cons_zero]
      next => rw [getD_cons, if_pos rfl, if_neg (by omega), Nat.sub_self, List.getD_cons_zero]
    · have hsub : j - k = (j - (k + 1)) + 1 := by omega
      split
      · rw [ih, if_neg (by omega), if_neg (by omega), hsub, List.getD_cons_succ]
      · rw [getD_cons, if_neg (by omega), ih, if_neg (by omega), if_neg (by omega), hsub, List.getD_cons_succ]

/-- The listed cells lie in the run that is written. -/
theorem mem_scratchCells {a k : Nat} {bs : List Byte} {e : Nat × Byte} (h : e ∈ scratchCells a k bs) : a + k ≤ e.1 ∧ e.1 < a + k + bs.length := by
  obtain ⟨x, hx, hsome⟩ := List.mem_filterMap.1 h
  have hrange := List.mem_range'_1.1 (List.of_mem_zip hx).1
  split at hsome
  · cases hsome
  · obtain rfl := Option.some.inj hsome
    dsimp only
    omega

/-- The scratch after a write. -/
theorem CoreSt.scratch_wr (c : CoreSt) (a : Nat) (bs : List Byte) (o : Nat) : (c.wr a bs o).scratch =
    c.scratch.filter (fun e => e.1 < a) ++ scratchCells a 0 bs ++ c.scratch.filter (fun e => a + bs.length ≤ e.1) := by
  simp only [CoreSt.wr, scratchCells, List.range_eq_range']

/-- What has been written to a run of scratch is read there. -/
theorem CoreSt.rd_wr_same (c : CoreSt) (a : Nat) (bs : List Byte) (o : Nat) : (c.wr a bs o).rd a bs.length = bs := by
  have hbefore : (c.scratch.filter (fun e => e.1 < a)).filter (fun e => a ≤ e.1 && e.1 < a + bs.length) = [] := by
    rw [List.filter_filter, List.filter_eq_nil_iff]
    intro e _
    simp
    omega
  have hafter : (c.scratch.filter (fun e => a + bs.length ≤ e.1)).filter (fun e => a ≤ e.1 && e.1 < a + bs.length) = [] := by
    rw [List.filter_filter, List.filter_eq_nil_iff]
    intro e _
    simp
  have hcells : (scratchCells a 0 bs).filter (fun e => a ≤ e.1 && e.1 < a + bs.length) = scratchCells a 0 bs := by
    rw [List.filter_eq_self]
    intro e he
    have := mem_scratchCells he
    simp
    omega
  unfold CoreSt.rd
  extract_lets seg
  have hseg : seg = scratchCells a 0 bs := by
    unfold seg
    rw [CoreSt.scratch_wr, List.filter_append, List.filter_append, hbefore, hcells, hafter, List.nil_append, List.append_nil]
  rw [hseg]
  apply List.ext_getElem
  · simp
  · intro i _ hi
    rw [List.getElem_map, List.getElem_range, getD_scratchCells, if_neg (Nat.not_lt_zero i), Nat.sub_zero,
      List.getD_eq_getElem?_getD, List.getElem?_eq_getElem hi, Option.getD_some]

/-! ### Delivery -/

/-- A change of a core leaves the partitions. -/
theorem State.part_onCore (s : State) (c : Nat) (f : CoreSt → CoreSt) (p : Nat) : (s.onCore c f).part p = s.part p := rfl

/-- A remote write without a signal writes its scratch. -/
theorem State.deliverWrite_eq {p : Nat} {w : SpanWrite} (s : State) (h : w.sig = none) :
    s.deliverWrite p w = s.scrWr (192 * w.hub + w.core) w.scr w.data (if w.poison then oRequest else 0) := by
  unfold State.deliverWrite
  rw [h]

/-- The step count of a partition reaches `n`: the writes that wait for it leave the list. -/
def State.reachCount (p n : Nat) (s : State) : State :=
  (s.onPart p (fun q => { q with spanIn := q.spanIn.filter (fun x => !decide (x.deliver ≤ n)) })).onRoll p
    (fun r => { r with count := max r.count n })

/-- What the reached count leaves of a partition's record. -/
theorem State.part_reachCount (p n : Nat) (s : State) : (s.reachCount p n).part p = { s.part p with
    spanIn := (s.part p).spanIn.filter (fun x => !decide (x.deliver ≤ n))
    roll := { (s.part p).roll with count := max (s.part p).roll.count n } } := by
  simp only [State.reachCount, State.onRoll, State.part_onPart_same]

/-- The reached count changes partitions only. -/
theorem State.reachCount_eq (p n : Nat) (s : State) : s.reachCount p n = { s with parts := (s.reachCount p n).parts } := rfl

/-- WRITE_DELIVER with one write that is due. -/
theorem exec_writeDeliver {p : Fin 12} {n : Nat} {w : SpanWrite} {s : State} (hruns : s.stepRuns p.val = true)
    (hheld : (s.part p.val).spanIn = [w]) (hdue : w.deliver ≤ n) (hsig : w.sig = none) : exec (.writeDeliver p n) s =
      .next ((s.reachCount p.val n).scrWr (192 * w.hub + w.core) w.scr w.data (if w.poison then oRequest else 0)) := by
  have hall : [w].filter (fun x => decide (x.deliver ≤ n)) = [w] := by simp [hdue]
  show execWriteDeliver p n s = _
  unfold execWriteDeliver
  extract_lets k due u v
  have hone : due = [w] := by
    unfold due
    rw [show (s.part k).spanIn = [w] from hheld, hall]
    rfl
  rw [if_neg (by rw [hruns]; decide), hone]
  exact congrArg Host.Outcome.next (State.deliverWrite_eq (s.reachCount p.val n) hsig)

/-- A held write is delivered at its count: its bytes are in the scratch of its core, and nothing waits (R389). -/
theorem writeDeliver_spec (p : Fin 12) (n : Nat) (w : SpanWrite) (s : State) (hruns : s.stepRuns p.val = true)
    (hheld : (s.part p.val).spanIn = [w]) (hdue : w.deliver ≤ n) (hsig : w.sig = none) :
    ∃ t, exec (.writeDeliver p n) s = .next t ∧ (t.part p.val).spanIn = [] ∧
      (t.part p.val).roll.count = max (s.part p.val).roll.count n ∧ t.regs = s.regs ∧ t.mem = s.mem ∧
      (t.core (192 * w.hub + w.core)).rd w.scr w.data.length = w.data ∧ ∀ c, c ≠ 192 * w.hub + w.core → t.core c = s.core c := by
  have hnone : [w].filter (fun x => !decide (x.deliver ≤ n)) = [] := by simp [hdue]
  have hcore : ∀ c, (s.reachCount p.val n).core c = s.core c := fun c => by rw [State.reachCount_eq]; rfl
  refine ⟨_, exec_writeDeliver hruns hheld hdue hsig, ?_⟩
  unfold State.scrWr
  refine ⟨?_, ?_, ?_, ?_, ?_, ?_⟩
  · rw [State.part_onCore, State.part_reachCount, hheld, hnone]
  · rw [State.part_onCore, State.part_reachCount]
  · rw [State.onCore_regs, State.reachCount_eq]
  · rw [State.onCore_mem, State.reachCount_eq]
  · rw [State.core_onCore_same]
    exact CoreSt.rd_wr_same ..
  · exact fun c hc => (State.core_onCore_other _ _ _ _ hc).trans (hcore c)

end Sys2Proof.Machine
end

section
/-! SUPPORT. Formation of the span: the measuring flits, the routes, and what FORM shows (R388, R392). -/
namespace Sys2Proof.Machine

/-! ### Routes -/

/-- The changed route. -/
theorem State.route_onRoute_same (s : State) (m : Nat) (f : Route → Route) : (s.onRoute m f).route m = f (s.route m) := by
  simp [State.route, State.onRoute]

/-- Another route. -/
theorem State.route_onRoute_other (s : State) {m k : Nat} (f : Route → Route) (h : k ≠ m) : (s.onRoute m f).route k = s.route k := by
  simp [State.route, State.onRoute, AMap.getD_put_other _ _ _ _ _ _ h]

/-- The same ways lead to the members: port and validity of every route. -/
def SameWays (s t : State) : Prop := ∀ m, (t.route m).port = (s.route m).port ∧ (t.route m).valid = (s.route m).valid

/-- Nothing changed. -/
theorem SameWays.refl (s : State) : SameWays s s := fun _ => ⟨rfl, rfl⟩

/-- One after another. -/
theorem SameWays.trans {s t u : State} (h : SameWays s t) (g : SameWays t u) : SameWays s u :=
  fun m => ⟨(g m).1.trans (h m).1, (g m).2.trans (h m).2⟩

/-- Traffic leaves the ways. -/
theorem Traffic.sameWays {s t : State} (h : Traffic s t) : SameWays s t := fun m => by
  unfold State.route
  rw [h.routes]
  exact ⟨rfl, rfl⟩

/-- A measured latency leaves the ways. -/
theorem SameWays.onRoute (s : State) (m : Nat) {f : Route → Route} (hp : ∀ r, (f r).port = r.port) (hv : ∀ r, (f r).valid = r.valid) :
    SameWays s (s.onRoute m f) := by
  intro k
  by_cases h : k = m
  · rw [h, State.route_onRoute_same]
    exact ⟨hp _, hv _⟩
  · rw [State.route_onRoute_other s f h]
    exact ⟨rfl, rfl⟩

/-! ### What measuring leaves of the judgement -/

section
variable {s t : State} (hrd : RdAway [R.FAB.TX_BYTES.off] s t)
include hrd

/-- One-bit fields that lie elsewhere. -/
theorem RdAway.is {f : Field} (i : Nat) (hf : f.off ∉ [R.FAB.TX_BYTES.off]) (hp : f.Placed) : t.is f i = s.is f i := by
  unfold State.is
  rw [hrd f i hf hp]

/-- Partitions with a tag. -/
theorem RdAway.tagged : t.tagged = s.tagged := by
  have htags := (hrd.mono (offs' := portOffs) (by simp [portOffs, R.FAB.TX_BYTES])).spanTag
  unfold State.tagged
  simp only [htags]

/-- Span partitions. -/
theorem RdAway.isSpan (p : Nat) : t.isSpan p = s.isSpan p := hrd.is p (by decide) (by decide)

/-- Members of the spans. -/
theorem RdAway.spanMembers : t.spanMembers = s.spanMembers := by
  have hspan : t.isSpan = s.isSpan := funext hrd.isSpan
  have hsize : t.spanSize = s.spanSize := funext fun p => by
    unfold State.spanSize
    rw [hrd _ p (by decide) (by decide)]
  unfold State.spanMembers
  rw [hrd.tagged, hspan, hsize, hrd R.GLBG.STRAP_POSITION 0 (by decide) (by decide)]

/-- Routes that are up. -/
theorem RdAway.routeUp (hways : SameWays s t) (m : Nat) : t.routeUp m = s.routeUp m := by
  unfold State.routeUp
  rw [(hways m).1, (hways m).2, State.portUp_congr (hrd.mono (by simp))]

/-- Links of a version below 2.0. -/
theorem RdAway.oldLink (hways : SameWays s t) (lats : List Nat) (m : Nat) : t.oldLink lats m = s.oldLink lats m := by
  unfold State.oldLink
  rw [(hways m).1, hrd _ _ (by decide) (by decide)]

/-- The first reason to refuse a formation. -/
theorem RdAway.formFault (hways : SameWays s t) (lats : List Nat) : t.formFault lats = s.formFault lats := by
  have hbal : ∀ p, t.is R.GLB.SPAN_CTL_BAL_EN p = s.is R.GLB.SPAN_CTL_BAL_EN p := fun p => hrd.is p (by decide) (by decide)
  have hdeliver : t.rd R.FABS.DELIVER_HC 0 = s.rd R.FABS.DELIVER_HC 0 := hrd _ _ (by decide) (by decide)
  unfold State.formFault
  simp only [hrd.spanMembers, hrd.tagged, hrd.isSpan, hrd.routeUp hways, hrd.oldLink hways, hbal, hdeliver]

end

/-! ### FORM -/

/-- A measuring flit to each member of a list, on its route. -/
def State.measureAll (pos : Nat) (l : List Nat) (s : State) : State :=
  s.each l (fun m u => u.linkOn (u.route m).port (measuringFlit m pos 0 (leBytes 8 u.clk.devTime)))

/-- What the measuring flits found, noted with the routes. -/
def State.noteRoutes (lats l : List Nat) (s : State) : State :=
  s.each l (fun m u => u.onRoute m (fun r => { r with lat := (measured lats m).1, hops := (measured lats m).2.1 }))

/-- FORM has measured: a flit to every member that it reaches, and what they found. -/
def State.formMeasured (lats : List Nat) (s : State) : State :=
  (s.measureAll s.spanMembers.1 (s.spanMembers.2.filter s.routeUp)).noteRoutes lats s.spanMembers.2

/-- Every work group goes to its home member. -/
def State.homeGroups (s : State) : State := s.each (List.range 256) (fun g u => u.mwr (u.balAddr g + 8) (u.mrd (u.balAddr g) 1))

/-- The work groups of every span partition with a balancer table go home. -/
def State.tablesHome (s : State) : State :=
  s.each (s.tagged.filter (fun p => s.isSpan p && s.is R.GLB.SPAN_CTL_BAL_EN p && s.balTable p)) (fun _ u => u.homeGroups)

/-- FORM puts the work groups at their home members and shows FORMED. -/
def State.formDone (s : State) : State := (s.tablesHome.wr R.FABS.STAT_FORMED 0 1).raise R.FABS.EVT_FORMED_EVT 0

/-- FORM shows what fails. -/
def State.formFailed (m r : Nat) (s : State) : State :=
  ((s.wr R.FABS.FORM_ERR_MEMBER 0 m).wr R.FABS.FORM_ERR_REASON 0 r).raise R.FABS.EVT_FORM_FAIL 0

/-- FORM shows what failed, or forms the span. -/
def State.formJudged (lats : List Nat) (s : State) : State :=
  match s.formFault lats with
  | some (m, r) => s.formFailed m r
  | none => s.formDone

/-- FORM measures, and then judges what it has found. -/
theorem State.actForm_eq {lats : List Nat} {s : State} (h : s.tagged.any s.formsSteps = false) :
    s.actForm lats = (s.formMeasured lats).formJudged lats := by
  unfold State.actForm State.formMeasured
  rw [if_neg (by rw [h]; decide)]
  generalize hmembers : s.spanMembers = x
  obtain ⟨pos, ms⟩ := x
  rfl

/-- Measuring flits are traffic. -/
theorem State.measureAll_traffic (pos : Nat) (l : List Nat) (s : State) : Traffic s (s.measureAll pos l) :=
  Traffic.each _ (fun _ _ => State.linkOn_traffic ..) s

/-- Every member of the list is sent a measuring flit that names it. -/
theorem State.out_measureAll (pos : Nat) (l : List Nat) (s : State) {m : Nat} (hm : m ∈ l) :
    ∃ b, NetOut.flit b ∈ ((s.measureAll pos l).port (s.route m).port).out ∧ flitType b = ftLink ∧ byteAt b 4 = m % 256 := by
  induction l generalizing s with
  | nil => cases hm
  | cons x l ih =>
    have hrest : s.measureAll pos (x :: l) =
      (s.linkOn (s.route x).port (measuringFlit x pos 0 (leBytes 8 s.clk.devTime))).measureAll pos l := rfl
    rw [hrest]
    generalize hu : s.linkOn (s.route x).port (measuringFlit x pos 0 (leBytes 8 s.clk.devTime)) = u
    rcases List.mem_cons.1 hm with rfl | hmem
    · refine ⟨_, State.each_keeps (fun v => (u.port (s.route m).port).out ⊆ (v.port (s.route m).port).out) l _
        (fun k v hv => List.Subset.trans hv (State.out_subset_linkOn ..)) u (List.Subset.refl _) ?_,
        State.flitType_sealedOn_measuring s (s.route m).port m pos 0 (leBytes 8 s.clk.devTime), State.dest_sealedOn_measuring ..⟩
      rw [← hu, State.port_linkOn_same]
      exact List.mem_append_right _ (List.mem_singleton.2 rfl)
    · have hroute : u.route m = s.route m := by rw [← hu]; rfl
      rw [← hroute]
      exact ih u hmem

theorem State.noteRoutes_ports (lats l : List Nat) (s : State) : (s.noteRoutes lats l).fab.ports = s.fab.ports :=
  State.each_eq (fun u => u.fab.ports) _ _ (fun _ _ => by rfl) s

theorem State.noteRoutes_regs (lats l : List Nat) (s : State) : (s.noteRoutes lats l).regs = s.regs :=
  State.each_eq State.regs _ _ (fun _ _ => by rfl) s

theorem State.noteRoutes_mem (lats l : List Nat) (s : State) : (s.noteRoutes lats l).mem = s.mem :=
  State.each_eq State.mem _ _ (fun _ _ => by rfl) s

/-- Latencies leave the ways. -/
theorem State.noteRoutes_sameWays (lats l : List Nat) (s : State) : SameWays s (s.noteRoutes lats l) := by
  refine State.each_keeps (SameWays s) _ _ (fun m u hu => hu.trans ?_) s (.refl s)
  exact .onRoute u m (fun _ => by rfl) (fun _ => by rfl)

theorem State.formMeasured_rdAway (lats : List Nat) (s : State) : RdAway [R.FAB.TX_BYTES.off] s (s.formMeasured lats) :=
  (s.measureAll_traffic _ _).rd.of_regs (State.noteRoutes_regs ..)

theorem State.formMeasured_sameWays (lats : List Nat) (s : State) : SameWays s (s.formMeasured lats) :=
  (s.measureAll_traffic _ _).sameWays.trans (State.noteRoutes_sameWays lats s.spanMembers.2 _)

theorem State.formMeasured_mem (lats : List Nat) (s : State) : (s.formMeasured lats).mem = s.mem :=
  (State.noteRoutes_mem ..).trans (State.each_eq State.mem _ _ (fun _ _ => by rfl) s)

/-- The judgement after measuring is that of the state before. -/
theorem State.formFault_formMeasured (lats : List Nat) (s : State) : (s.formMeasured lats).formFault lats = s.formFault lats :=
  (s.formMeasured_rdAway lats).formFault (s.formMeasured_sameWays lats) lats

/-- A member that FORM reaches has been sent a measuring flit. -/
theorem State.out_formMeasured (lats : List Nat) (s : State) {m : Nat} (hm : m ∈ s.spanMembers.2) (hup : s.routeUp m = true) :
    ∃ b, NetOut.flit b ∈ ((s.formMeasured lats).port (s.route m).port).out ∧ flitType b = ftLink ∧ byteAt b 4 = m % 256 := by
  have hports : (s.formMeasured lats).port (s.route m).port =
      (s.measureAll s.spanMembers.1 (s.spanMembers.2.filter s.routeUp)).port (s.route m).port := by
    unfold State.port
    rw [State.formMeasured, State.noteRoutes_ports]
  rw [hports]
  exact State.out_measureAll _ _ s (List.mem_filter.2 ⟨hm, hup⟩)

/-- Work groups lie in memory. -/
theorem State.homeGroups_fab (s : State) : s.homeGroups.fab = s.fab := by
  unfold State.homeGroups
  generalize List.range 256 = l
  exact State.each_eq State.fab l _ (fun _ u => State.mwr_fab u _ _) s

/-- A loop of one update leaves the fabric record where the update does. The update is a variable here, so that the kernel has nothing to
unfold. -/
theorem State.each_const_fab {α : Type} (f : State → State) (h : ∀ u, (f u).fab = u.fab) (l : List α) (s : State) :
    (s.each l (fun _ u => f u)).fab = s.fab := State.each_eq State.fab l _ (fun _ u => h u) s

theorem State.tablesHome_fab (s : State) : s.tablesHome.fab = s.fab := by
  rw [State.tablesHome, State.each_const_fab State.homeGroups State.homeGroups_fab]

/-- Forming the span leaves the fabric record. -/
theorem State.formDone_fab (s : State) : s.formDone.fab = s.fab := by
  rw [State.formDone, State.raise_fab, State.wr_fab, State.tablesHome_fab]

/-- The judgement leaves the fabric record. -/
theorem State.formJudged_fab (lats : List Nat) (s : State) : (s.formJudged lats).fab = s.fab := by
  unfold State.formJudged
  split
  · rfl
  · exact s.formDone_fab

/-- Without work groups FORM writes no table. -/
theorem State.formDone_noTables {s : State} (h : ∀ p ∈ s.tagged, s.is R.GLB.SPAN_CTL_BAL_EN p = false) :
    s.formDone = (s.wr R.FABS.STAT_FORMED 0 1).raise R.FABS.EVT_FORMED_EVT 0 := by
  have hnone : s.tagged.filter (fun p => s.isSpan p && s.is R.GLB.SPAN_CTL_BAL_EN p && s.balTable p) = [] := by
    rw [List.filter_eq_nil_iff]
    intro p hp
    simp [h p hp]
  rw [State.formDone, State.tablesHome, hnone]
  rfl

/-- FORM while a partition with a tag forms steps. -/
theorem exec_form_refused {lats : List Nat} {s : State} (h : s.tagged.any s.formsSteps = true) :
    exec (.form lats) s = .next (s.refuseWrite .fabS 0) := congrArg Host.Outcome.next (if_pos h)

/-- FORM while no partition with a tag forms steps. -/
theorem exec_form {lats : List Nat} {s : State} (h : s.tagged.any s.formsSteps = false) :
    exec (.form lats) s = .next ((s.formMeasured lats).formJudged lats) := congrArg Host.Outcome.next (State.actForm_eq h)

/-- FORM: refused while a partition with a tag forms steps; else it measures the routes, and shows what fails or forms the span (R388). -/
theorem form_spec (lats : List Nat) (s : State) : ∃ t, exec (.form lats) s = .next t ∧
    (s.tagged.any s.formsSteps = true → t = { s with regs := t.regs } ∧ t.rd R.FABS.EVT_CONFIG_REFUSED 0 = 1 ∧
      t.rd R.FABS.STAT_FORMED 0 = s.rd R.FABS.STAT_FORMED 0) ∧
    (s.tagged.any s.formsSteps = false → ∀ m r, s.formFault lats = some (m, r) →
      t.rd R.FABS.FORM_ERR_REASON 0 = r % 2 ^ R.FABS.FORM_ERR_REASON.width ∧ t.rd R.FABS.EVT_FORM_FAIL 0 = 1 ∧ t.mem = s.mem) ∧
    (s.tagged.any s.formsSteps = false → s.formFault lats = none → (∀ p ∈ s.tagged, s.is R.GLB.SPAN_CTL_BAL_EN p = false) →
      t.rd R.FABS.STAT_FORMED 0 = 1 ∧ t.rd R.FABS.EVT_FORMED_EVT 0 = 1 ∧ t.mem = s.mem) ∧
    (s.tagged.any s.formsSteps = false → ∀ m ∈ s.spanMembers.2, s.routeUp m = true →
      ∃ b, NetOut.flit b ∈ (t.port (s.route m).port).out ∧ flitType b = ftLink ∧ byteAt b 4 = m % 256) := by
  cases hforms : s.tagged.any s.formsSteps with
  | true =>
    refine ⟨_, exec_form_refused hforms, fun _ => ⟨rfl, ?_, ?_⟩, fun h => (nomatch h), fun h => (nomatch h), fun h => (nomatch h)⟩
    · have hflag : (s.raise R.FABS.EVT_CONFIG_REFUSED 0).rd R.FABS.EVT_CONFIG_REFUSED 0 = 1 := State.rd_raise _ _ _ (by decide)
      rw [State.refuseWrite, State.rd_count_apart _ _ _ (by decide)]
      exact hflag
    · rw [State.refuseWrite, State.rd_count_apart _ _ _ (by decide), State.rd_raise_apart _ _ _ (by decide)]
  | false =>
    have hrd := s.formMeasured_rdAway lats
    refine ⟨_, exec_form hforms, fun h => (nomatch h), fun _ m r hfault => ?_, fun _ hfault hbal => ?_, fun _ m hm hup => ?_⟩
    · have hjudged : (s.formMeasured lats).formJudged lats = (s.formMeasured lats).formFailed m r := by
        rw [State.formJudged, State.formFault_formMeasured, hfault]
      rw [hjudged, State.formFailed]
      refine ⟨?_, State.rd_raise _ _ _ (by decide), s.formMeasured_mem lats⟩
      rw [State.rd_raise_apart _ _ _ (by decide), State.rd_wr_same]
    · have hbal' : ∀ p ∈ (s.formMeasured lats).tagged, (s.formMeasured lats).is R.GLB.SPAN_CTL_BAL_EN p = false := by
        intro p hp
        rw [hrd.tagged] at hp
        rw [hrd.is p (by decide) (by decide)]
        exact hbal p hp
      have hjudged : (s.formMeasured lats).formJudged lats = (s.formMeasured lats).formDone := by
        rw [State.formJudged, State.formFault_formMeasured, hfault]
      rw [hjudged, State.formDone_noTables hbal']
      refine ⟨?_, State.rd_raise _ _ _ (by decide), s.formMeasured_mem lats⟩
      rw [State.rd_raise_apart _ _ _ (by decide), State.rd_wr_same]
      rfl
    · rw [State.port_congr (State.formJudged_fab ..)]
      exact State.out_formMeasured lats s hm hup

/-! ### The statement -/

/-- Settles O37, clause by clause: training, the loss of a link without and with a late flit, acknowledgements, LINK flits, remote writes,
their delivery, and FORM. -/
theorem linksAndRemoteWrites : Obligations.LinksAndRemoteWrites := by
  unfold Obligations.LinksAndRemoteWrites
  refine ⟨portTrained_spec, portLinkDown_spec, portLinkDown_late, ackTimeout_early, ackTimeout_spec, ?_, wentarWrite_down, writeDeliver_spec,
    form_spec⟩
  intro n f s hup hok hreplay
  refine ⟨fun ht hres => wentarLink_reserved hup hok hreplay ht hres, fun ht hres => wentarLink_spec hup hok hreplay ht hres, ?_⟩
  exact fun ht hseq hhere => wentarWrite_spec hup hok hreplay ht hseq hhere

end Sys2Proof.Machine
end

section
/-! SUPPORT. Reductions, conversions and quantization of the digital cores: the fixed tree over the lanes, what retiring an instruction that
draws free values or counts blocks changes, and what each of these instructions leaves in its group (R83, R192, R196). -/
namespace Sys2Proof.Machine

/-! ### The fixed tree (R196) -/

/-- One level of the tree over an even number of lanes. -/
theorem pairLevel_range (op : PVal → PVal → PVal) (n : Nat) (x : Nat → PVal) :
    pairLevel op ((List.range (2 * n)).map x) = (List.range n).map (fun i => op (x (2 * i)) (x (2 * i + 1))) := by
  induction n generalizing x with
  | zero => rfl
  | succ n ih =>
    rw [Nat.mul_succ, List.range_succ_eq_map, List.range_succ_eq_map, List.range_succ_eq_map]
    simp only [List.map_cons, List.map_map, pairLevel]
    exact congrArg _ (ih (fun i => x (i + 2)))

/-- Node of the tree by its level and its place there; the leaves are the lanes. -/
def treeNode (op : PVal → PVal → PVal) (x : Nat → PVal) : Nat → Nat → PVal
  | 0, i => x i
  | k + 1, i => op (treeNode op x k (2 * i)) (treeNode op x k (2 * i + 1))

/-- A level of the tree is made from the one below it. -/
theorem pairLevel_treeNode (op : PVal → PVal → PVal) (x : Nat → PVal) (k n : Nat) :
    pairLevel op ((List.range (2 * n)).map (treeNode op x k)) = (List.range n).map (treeNode op x (k + 1)) :=
  pairLevel_range op n (treeNode op x k)

/-- The tree over 32 lanes gives its node of the fifth level. -/
theorem laneTree_range (op : PVal → PVal → PVal) (x : Nat → PVal) : laneTree op ((List.range 32).map x) = treeNode op x 5 0 := by
  have level0 : (List.range 32).map x = (List.range (2 * 16)).map (treeNode op x 0) := rfl
  rw [laneTree, level0, pairLevel_treeNode op x 0 (2 * 8), pairLevel_treeNode op x 1 (2 * 4), pairLevel_treeNode op x 2 (2 * 2),
    pairLevel_treeNode op x 3 (2 * 1), pairLevel_treeNode op x 4 1]
  rfl

/-- Union of the poison of values. -/
def poiAll (l : List PVal) : Nat := l.foldl (fun o x => o ||| x.o) 0

/-- A union goes on from what has been gathered so far. -/
theorem foldl_poi (l : List PVal) (a : Nat) : l.foldl (fun o x => o ||| x.o) a = a ||| poiAll l := by
  induction l generalizing a with
  | nil => exact (Nat.or_zero a).symm
  | cons x l ih => rw [poiAll, List.foldl_cons, List.foldl_cons, ih, ih (0 ||| x.o), Nat.zero_or, Nat.or_assoc]

theorem poiAll_cons (x : PVal) (l : List PVal) : poiAll (x :: l) = x.o ||| poiAll l := by
  rw [poiAll, List.foldl_cons, foldl_poi, Nat.zero_or]

/-- A level keeps the union of the poison. -/
theorem poiAll_pairLevel {op : PVal → PVal → PVal} (h : ∀ a b, (op a b).o = a.o ||| b.o) (l : List PVal) :
    poiAll (pairLevel op l) = poiAll l := by
  induction l using pairLevel.induct with
  | case1 a b t ih => rw [pairLevel, poiAll_cons, h, ih, poiAll_cons, poiAll_cons, Nat.or_assoc]
  | case2 l hl =>
    rw [pairLevel]
    exact hl

/-- So the nodes of a level hold the poison of all the lanes below them. -/
theorem poiAll_treeNode {op : PVal → PVal → PVal} (h : ∀ a b, (op a b).o = a.o ||| b.o) (x : Nat → PVal) (k n : Nat) :
    poiAll ((List.range n).map (treeNode op x k)) = poiAll ((List.range (2 ^ k * n)).map x) := by
  induction k generalizing n with
  | zero => rw [Nat.pow_zero, Nat.one_mul]; rfl
  | succ k ih => rw [← pairLevel_treeNode, poiAll_pairLevel h, ih, Nat.pow_succ, Nat.mul_assoc]

/-- The poison of the tree's result is that of all its lanes. -/
theorem treeNode_root_o {op : PVal → PVal → PVal} (h : ∀ a b, (op a b).o = a.o ||| b.o) (x : Nat → PVal) :
    (treeNode op x 5 0).o = poiAll ((List.range 32).map x) := by
  have root : poiAll [treeNode op x 5 0] = (treeNode op x 5 0).o := by rw [poiAll_cons, poiAll, List.foldl_nil, Nat.or_zero]
  exact root.symm.trans (poiAll_treeNode h x 5 1)

/-- What a node of a reduction makes of the two below it: the operation, rounded to the type, and the poison of both. -/
def reduceNode (ty : Nat) (op : Nat → Nat → Nat) (a b : PVal) : PVal := { v := fpIn ty (fpOut ty (op a.v b.v)), o := a.o ||| b.o }

/-- The value of a node is that of the tree over the lanes' values. -/
theorem treeNode_v (ty : Nat) (op : Nat → Nat → Nat) (x : Nat → PVal) (k i : Nat) :
    (treeNode (reduceNode ty op) x k i).v = treeVal ty op (fun i => (x i).v) k i := by
  induction k generalizing i with
  | zero => rfl
  | succ k ih =>
    rw [treeVal, ← ih, ← ih]
    rfl

/-- What a lane contributes to a reduction: A where it is active, else +0, with the poison of the predicate (R196). -/
def Group.reduceLeaf (r : Group) (f : VFmt) (i : Nat) : PVal :=
  if r.active f.toCommon i then { v := fpIn f.ty.val (r.src f.asc f.a i).v, o := (r.src f.asc f.a i).o ||| r.predPoi f.toCommon i }
  else { o := r.predPoi f.toCommon i }

theorem Group.reduceLeaf_v (r : Group) (f : VFmt) (i : Nat) :
    (r.reduceLeaf f i).v = if r.active f.toCommon i then fpIn f.ty.val (r.src f.asc f.a i).v else 0 := apply_ite PVal.v ..

theorem Group.reduceLeaf_o (r : Group) (f : VFmt) (i : Nat) :
    (r.reduceLeaf f i).o = (if r.active f.toCommon i then (r.src f.asc f.a i).o else 0) ||| r.predPoi f.toCommon i := by
  unfold Group.reduceLeaf
  split
  · rfl
  · exact (Nat.zero_or _).symm

/-- The result of a reduction, as R196 gives it. -/
def Group.reduced (r : Group) (f : VFmt) (op : Nat → Nat → Nat) : PVal :=
  { v := fpOut f.ty.val (treeVal f.ty.val op (fun i => if r.active f.toCommon i then fpIn f.ty.val (r.src f.asc f.a i).v else 0) 5 0)
    o := (List.range 32).foldl
      (fun o i => o ||| ((if r.active f.toCommon i then (r.src f.asc f.a i).o else 0) ||| r.predPoi f.toCommon i)) 0 }

/-- The tree over what the lanes contribute gives that result. -/
theorem Group.reduced_eq (r : Group) (f : VFmt) (op : Nat → Nat → Nat) :
    let x := laneTree (reduceNode f.ty.val op) ((List.range 32).map (r.reduceLeaf f))
    { x with v := fpOut f.ty.val x.v } = r.reduced f op := by
  dsimp only
  rw [laneTree_range, treeNode_root_o (fun _ _ => rfl), treeNode_v, poiAll, List.foldl_map]
  simp only [Group.reduceLeaf_v, Group.reduceLeaf_o]
  rfl

/-- A reduction writes its result to every active lane of D, or to the scalar D. -/
theorem State.reduce_eq (g : GroupRef) (f : VFmt) (op : Nat → Nat → Nat) (s : State) :
    s.reduce g f op = s.retire g (fun r =>
      if f.dsc then r.setS f.d.val (r.reduced f op) else r.lanes f.toCommon f.d.val (fun _ => r.reduced f op)) := by
  simp only [← Group.reduced_eq]
  rfl

/-! ### The group after a result -/

/-- Lanes written leave the predicates, and so which lanes are active. -/
theorem Group.active_lanes (r : Group) (c e : Common) (d i : Nat) (x : Nat → PVal) : (r.lanes c d x).active e i = r.active e i := by
  rw [(r.lanes_spec c d x).2.2]
  rfl

theorem Group.predPoi_lanes (r : Group) (c e : Common) (d i : Nat) (x : Nat → PVal) : (r.lanes c d x).predPoi e i = r.predPoi e i := by
  rw [(r.lanes_spec c d x).2.2]
  rfl

theorem Group.sreg_lanes (r : Group) (c : Common) (d e : Nat) (x : Nat → PVal) : (r.lanes c d x).sreg e = r.sreg e := by
  rw [(r.lanes_spec c d x).2.2]
  rfl

theorem Group.pc_lanes (r : Group) (c : Common) (d : Nat) (x : Nat → PVal) : (r.lanes c d x).pc = r.pc := by
  rw [(r.lanes_spec c d x).2.2]

/-- A group that wrote lanes and goes on. -/
theorem Group.laneWrite_lanes (r : Group) (c : Common) (d : Nat) (x : Nat → PVal) : laneWrite r (r.lanes c d x).advance c d x := by
  obtain ⟨written, kept, frame⟩ := r.lanes_spec c d x
  exact ⟨congrArg Group.advance frame, fun i hi =>
    ⟨written i hi, fun idle => kept d i hi (.inr idle), fun e he => kept e i hi (.inl he)⟩⟩

/-- A group that wrote a scalar and goes on. -/
theorem Group.scalarWrite_setS (r : Group) (d : Nat) (x : PVal) : scalarWrite r (r.setS d x).advance d x :=
  ⟨rfl, r.sreg_setS_same d x, fun e he => r.sreg_setS_other d e x he⟩

/-! ### Retiring -/

/-- An accepted instruction that its group can issue and comes to is counted and has its effect. -/
theorem issue_accepted {i : Instr} {mn : String} {ok : Bool} {g : GroupRef} {f : Nat → State → State} {s : State} {p : Nat}
    (hok : ok = true) (hp : s.canIssue g = some p) (hc : s.comesTo i = true) :
    issue i mn ok g f s = .next (f p (s.count R.DCR.ISSUE p)) := by
  rw [hok]
  exact issue_next i mn g f s p hp hc

/-- What an instruction may have done before it retires: register fields `l` may have changed beside ISSUE, and n free values are drawn. -/
def Drawn (l : List (Field × Nat)) (p n : Nat) (s u : State) : Prop :=
  u = { s with regs := u.regs, free := s.free + n } ∧ RegsBut ((R.DCR.ISSUE, p) :: l) s u

/-- It is counted. -/
theorem Drawn.issue (l : List (Field × Nat)) (p : Nat) (s : State) : Drawn l p 0 s (s.count R.DCR.ISSUE p) :=
  ⟨rfl, (RegsBut.refl _ s).count _ _ List.mem_cons_self⟩

/-- It draws a free value. -/
theorem Drawn.takeFree {l : List (Field × Nat)} {p n : Nat} {s u : State} (h : Drawn l p n s u) : Drawn l p (n + 1) s u.takeFree.2 := by
  obtain ⟨hu, hr⟩ := h
  refine ⟨?_, hr.of_regs rfl⟩
  rw [hu]
  rfl

/-- The state in which an instruction that drew one free value retires. -/
theorem Drawn.issue_takeFree (l : List (Field × Nat)) (p : Nat) (s : State) : Drawn l p 1 s (s.count R.DCR.ISSUE p).takeFree.2 :=
  (Drawn.issue l p s).takeFree

/-- It counts a block, where there is one to count. -/
theorem Drawn.countWhen {l : List (Field × Nat)} {p n : Nat} {s u : State} (h : Drawn l p n s u) (b : Bool) {f : Field} {i : Nat}
    (hm : (f, i) ∈ l) : Drawn l p n s (u.whenB b (fun t => t.count f i)) := by
  refine State.whenB_keeps (Drawn l p n s) b _ (fun t ht => ?_) u h
  obtain ⟨hu, hr⟩ := ht
  refine ⟨?_, hr.count f i (List.mem_cons_of_mem _ hm)⟩
  rw [hu]
  rfl

/-- The cores are as before the issue. -/
theorem Drawn.core {l : List (Field × Nat)} {p n : Nat} {s u : State} (h : Drawn l p n s u) (c : Nat) : u.core c = s.core c := by
  rw [h.1]
  rfl

/-- So is the group. -/
theorem Drawn.grp {l : List (Field × Nat)} {p n : Nat} {s u : State} (h : Drawn l p n s u) (g : GroupRef) : u.grp g = s.grp g := by
  rw [h.1]
  rfl

/-- The retired group. -/
theorem Drawn.grp_retire {l : List (Field × Nat)} {p n : Nat} {s u : State} (h : Drawn l p n s u) (g : GroupRef) (f : Group → Group) :
    (u.retire g f).grp g = (f (s.grp g)).advance := by
  rw [State.grp_retire, h.grp]

/-- Retiring changes the group beside that, and no other. -/
theorem Drawn.issuedWith_retire {l : List (Field × Nat)} {p n : Nat} {s u : State} (h : Drawn l p n s u) (g : GroupRef)
    (f : Group → Group) : issuedWith l g p n s (u.retire g f) := by
  refine ⟨?_, h.2.of_regs rfl, fun c hc => ?_, ?_, fun k hk => ?_⟩
  · rw [h.1]
    rfl
  · rw [State.retire, State.onGrp, State.core_onCore_other _ _ _ _ hc, h.core]
  · rw [State.retire, State.onGrp, State.core_onCore_same, h.core]
  · rw [State.retire, State.onGrp, State.core_onCore_same, h.core]
    exact AMap.getD_put_other _ _ _ _ _ _ hk

/-! ### FRED and FRMAX -/

/-- What a reduction leaves: its result in every active lane of D, or in the scalar D. -/
theorem reduce_spec (g : GroupRef) (f : VFmt) (op : Nat → Nat → Nat) (s : State) (p : Nat) :
    let t := (s.count R.DCR.ISSUE p).reduce g f op
    issued g p false s t ∧
      (f.dsc = false → laneWrite (s.grp g) (t.grp g) f.toCommon f.d.val (fun _ => (s.grp g).reduced f op)) ∧
      (f.dsc = true → scalarWrite (s.grp g) (t.grp g) f.d.val ((s.grp g).reduced f op)) := by
  rw [State.reduce_eq]
  cases hd : f.dsc with
  | false =>
    obtain ⟨hissued, hgrp⟩ := issued_retire g p false s (s.count R.DCR.ISSUE p)
      (fun r => r.lanes f.toCommon f.d.val (fun _ => r.reduced f op)) rfl rfl (Group.pc_lanes ..)
    exact ⟨hissued, fun _ => hgrp ▸ Group.laneWrite_lanes (s.grp g) f.toCommon f.d.val (fun _ => (s.grp g).reduced f op), nofun⟩
  | true =>
    obtain ⟨hissued, hgrp⟩ := issued_retire g p false s (s.count R.DCR.ISSUE p) (fun r => r.setS f.d.val (r.reduced f op)) rfl rfl rfl
    exact ⟨hissued, nofun, fun _ => hgrp ▸ Group.scalarWrite_setS ..⟩

/-! ### FCVT -/

/-- The code that FCVT gives a lane: a free one where the spec states none. -/
def cvtLane (f : VFmt) (fr lane a : Nat) : Nat :=
  match cvtCode f.ty.val (f.c.val % 16) a with
  | some x => x
  | none => bits fr (32 * lane) (fmtBits (f.c.val % 16))

/-- A lane whose code is stated. -/
theorem cvtLane_of_stated {f : VFmt} {a x : Nat} (h : cvtCode f.ty.val (f.c.val % 16) a = some x) (fr lane : Nat) :
    cvtLane f fr lane a = x := by
  rw [cvtLane, h]

section Fcvt
variable {g : GroupRef} {f : VFmt} {s : State} {p : Nat} (hp : s.canIssue g = some p) (hc : s.comesTo (.coreFcvt g f) = true)
  (hty : f.ty.val < 10) (hdst : f.c.val % 16 < 10) (hv : vOk f 1 = true)
include hp hc hty hdst hv

/-- FCVT writes the converted lanes, the converted scalar, or, to a scalar from lanes, a free value. -/
theorem exec_coreFcvt :
    let u := (s.count R.DCR.ISSUE p).takeFree
    exec (.coreFcvt g f) s = .next (
      if f.dsc then
        if f.asc then u.2.retire g (fun r => r.setS f.d.val { v := cvtLane f u.1 0 (r.sreg f.a.val).v, o := (r.sreg f.a.val).o })
        else u.2.freeScalar g f.d.val ((u.2.grp g).vPoi f.a.val)
      else u.2.retire g (fun r => r.lanes f.toCommon f.d.val (fun i =>
        { v := cvtLane f u.1 i (r.src f.asc f.a i).v, o := (r.src f.asc f.a i).o }))) := by
  have accepted : (decide (f.ty.val < 10) && decide (f.c.val % 16 < 10) && vOk f 1) = true := by simp [hty, hdst, hv]
  change execCoreFcvt g f s = _
  unfold execCoreFcvt
  extract_lets dst
  exact issue_accepted accepted hp hc

/-- FCVT of lanes. -/
theorem coreFcvt_lanes (hd : f.dsc = false) :
    ∃ t, exec (.coreFcvt g f) s = .next t ∧ issuedWith [] g p 1 s t ∧
      laneWrite (s.grp g) (t.grp g) f.toCommon f.d.val (fun i =>
        { v := cvtLane f (Config.freeNat s.free) i ((s.grp g).src f.asc f.a i).v, o := ((s.grp g).src f.asc f.a i).o }) := by
  have drawn := Drawn.issue_takeFree [] p s
  refine ⟨_, (exec_coreFcvt hp hc hty hdst hv).trans (by rw [hd]; rfl), drawn.issuedWith_retire .., ?_⟩
  rw [drawn.grp_retire]
  exact Group.laneWrite_lanes ..

/-- FCVT of a scalar. -/
theorem coreFcvt_scalar (hd : f.dsc = true) (ha : f.asc = true) :
    ∃ t, exec (.coreFcvt g f) s = .next t ∧ issuedWith [] g p 1 s t ∧
      scalarWrite (s.grp g) (t.grp g) f.d.val
        { v := cvtLane f (Config.freeNat s.free) 0 ((s.grp g).sreg f.a.val).v, o := ((s.grp g).sreg f.a.val).o } := by
  have drawn := Drawn.issue_takeFree [] p s
  refine ⟨_, (exec_coreFcvt hp hc hty hdst hv).trans (by rw [hd, ha]; rfl), drawn.issuedWith_retire .., ?_⟩
  rw [drawn.grp_retire]
  exact Group.scalarWrite_setS ..

/-- FCVT to a scalar from lanes, for which the spec states no result. -/
theorem coreFcvt_free (hd : f.dsc = true) (ha : f.asc = false) :
    ∃ t, exec (.coreFcvt g f) s = .next t ∧ issuedWith [] g p 2 s t ∧
      scalarWrite (s.grp g) (t.grp g) f.d.val { v := Config.freeNat (s.free + 1), o := (s.grp g).vPoi f.a.val } := by
  have drawn := (Drawn.issue_takeFree [] p s).takeFree
  refine ⟨_, (exec_coreFcvt hp hc hty hdst hv).trans (by rw [hd, ha]; rfl), drawn.issuedWith_retire .., ?_⟩
  rw [drawn.grp_retire]
  exact Group.scalarWrite_setS ..

end Fcvt

/-! ### QBLK -/

/-- What QBLK writes: the codes to the lanes of D, the scale to scalar C. -/
def Group.qblk (f : VFmt) (codes : List Nat) (scale o : Nat) (r : Group) : Group :=
  (r.lanes f.toCommon f.d.val (fun i => { v := codes.getD i 0, o := o })).setS f.c.val { v := scale, o := o }

/-- A group after QBLK. -/
theorem Group.qblk_spec (r : Group) (f : VFmt) (codes : List Nat) (scale o : Nat) :
    let t := (r.qblk f codes scale o).advance
    t = { r with pc := r.pc + 1, v := t.v, s := t.s } ∧ t.sreg f.c.val = { v := scale % 2 ^ 64, o := o } ∧
      (∀ e, e ≠ f.c.val → t.sreg e = r.sreg e) ∧
      ∀ i, i < 32 →
        (r.active f.toCommon i = true → t.vreg f.d.val i = { v := codes.getD i 0 % 2 ^ 32, o := o ||| r.predPoi f.toCommon i }) ∧
        (r.active f.toCommon i = false → t.vreg f.d.val i = r.vreg f.d.val i) ∧ ∀ e, e ≠ f.d.val → t.vreg e i = r.vreg e i := by
  obtain ⟨written, kept, frame⟩ := r.lanes_spec f.toCommon f.d.val (fun i => { v := codes.getD i 0, o := o })
  refine ⟨?_, Group.sreg_setS_same .., fun e he => (Group.sreg_setS_other _ _ e _ he).trans (Group.sreg_lanes ..), fun i hi =>
    ⟨written i hi, fun idle => kept f.d.val i hi (.inr idle), fun e he => kept e i hi (.inl he)⟩⟩
  rw [Group.qblk, frame]
  rfl

/-- QBLK converts the 32 lanes of A, counts a block beyond the range of SB8, and writes what R83 gives. -/
theorem coreQblk_spec {g : GroupRef} {f : VFmt} {s : State} {p : Nat} (hp : s.canIssue g = some p)
    (hc : s.comesTo (.coreQblk g f) = true) (hty : fmtBlock f.ty.val = true) (hd : f.dsc = false) (ha : selOk f.asc f.a = true)
    (hcs : f.c.val < 16) :
    ∃ t, exec (.coreQblk g f) s = .next t ∧ issuedWith [(R.DCP.SAT_BLOCK_CNT, g.hub.val)] g p 1 s t ∧
      (let r := s.grp g
       let q := quantBlock f.ty.val ((List.range 32).map (fun i => (r.src f.asc f.a i).v)) (Config.freeNat s.free)
       t.grp g = (r.qblk f q.1 q.2.1 (r.poi f.asc f.a)).advance) := by
  have accepted : (fmtBlock f.ty.val && !f.dsc && selOk f.asc f.a && decide (f.c.val < 16)) = true := by simp [hty, hd, ha, hcs]
  have counted : execCoreQblk g f s = _ := issue_accepted accepted hp hc
  have drawn (sat : Bool) := (Drawn.issue_takeFree [(R.DCP.SAT_BLOCK_CNT, g.hub.val)] p s).countWhen sat List.mem_cons_self
  exact ⟨_, counted, (drawn _).issuedWith_retire .., (drawn _).grp_retire g _⟩

/-! ### QARR -/

/-- What QARR writes: codes to the lanes of D, remainders to those of D + 1, scale and stretch to scalar C. -/
def Group.qarr (f : VFmt) (code rem : Nat → Nat) (scale o : Nat) (r : Group) : Group :=
  ((r.lanes f.toCommon f.d.val (fun i => { v := code i, o := o })).lanes f.toCommon (f.d.val + 1)
    (fun i => { v := rem i, o := o })).setS f.c.val { v := scale, o := o }

/-- A group after QARR. -/
theorem Group.qarr_spec (r : Group) (f : VFmt) (code rem : Nat → Nat) (scale o : Nat) :
    let t := (r.qarr f code rem scale o).advance
    t = { r with pc := r.pc + 1, v := t.v, s := t.s } ∧ (∀ e, e ≠ f.c.val → t.sreg e = r.sreg e) ∧
      (∀ e i, i < 32 → e ≠ f.d.val → e ≠ f.d.val + 1 → t.vreg e i = r.vreg e i) ∧
      t.sreg f.c.val = { v := scale % 2 ^ 64, o := o } ∧
      ∀ i, i < 32 → r.active f.toCommon i = true →
        t.vreg f.d.val i = { v := code i % 2 ^ 32, o := o ||| r.predPoi f.toCommon i } ∧
        t.vreg (f.d.val + 1) i = { v := rem i % 2 ^ 32, o := o ||| r.predPoi f.toCommon i } := by
  obtain ⟨written, kept, frame⟩ := r.lanes_spec f.toCommon f.d.val (fun i => { v := code i, o := o })
  obtain ⟨written', kept', frame'⟩ := (r.lanes f.toCommon f.d.val (fun i => { v := code i, o := o })).lanes_spec f.toCommon
    (f.d.val + 1) (fun i => { v := rem i, o := o })
  refine ⟨?_, fun e he => ?_, fun e i hi hd hd' => ?_, Group.sreg_setS_same .., fun i hi ha => ⟨?_, ?_⟩⟩
  · rw [Group.qarr, frame', frame]
    rfl
  · exact (Group.sreg_setS_other _ _ e _ he).trans ((Group.sreg_lanes ..).trans (Group.sreg_lanes ..))
  · exact (kept' e i hi (.inl hd')).trans (kept e i hi (.inl hd))
  · exact (kept' f.d.val i hi (.inl (Nat.ne_of_lt (Nat.lt_succ_self _)))).trans (written i hi ha)
  · simp only [Group.active_lanes, Group.predPoi_lanes] at written'
    exact written' i hi ha

/-- The block that QARR makes of the lanes of A: the reference scale is scalar B, the inactive lanes are declared outliers. -/
def Group.qarrBlock (r : Group) (f : VFmt) (fr : Nat) : ABlock :=
  arrayBlock f.ty.val (r.sreg f.b.val).v (srefExp (r.sreg f.b.val).v) ((List.range 32).map (fun i => (r.src f.asc f.a i).v))
    ((List.range 32).map (fun i => !r.active f.toCommon i)) fr

/-- A lane's code: a free one where scalar B is no scale of R74. -/
def Group.qarrCode (r : Group) (f : VFmt) (fr i : Nat) : Nat :=
  if srefOk (r.sreg f.b.val).v then ux ((r.qarrBlock f fr).codes.getD i 0) (fmtBits f.ty.val) else bits fr (64 * i) (fmtBits f.ty.val)

/-- A lane's remainder, likewise. -/
def Group.qarrRem (r : Group) (f : VFmt) (fr i : Nat) : Nat :=
  if srefOk (r.sreg f.b.val).v then (r.qarrBlock f fr).rem.getD i 0 else bits fr (64 * i + 32) 32

/-- Scale and stretch, likewise. -/
def Group.qarrScale (r : Group) (f : VFmt) (fr : Nat) : Nat :=
  if srefOk (r.sreg f.b.val).v then (r.qarrBlock f fr).sb8 + 256 * (r.qarrBlock f fr).k else fr % 65536

/-- QARR counts a limited block and an empty one, and writes codes, remainders, scale and stretch. -/
theorem coreQarr_spec {g : GroupRef} {f : VFmt} {s : State} {p : Nat} (hp : s.canIssue g = some p)
    (hc : s.comesTo (.coreQarr g f) = true) (hlo : 7 ≤ f.ty.val) (hhi : f.ty.val ≤ 9) (hd : f.dsc = false) (ha : selOk f.asc f.a = true)
    (hb : f.b.val < 16) (hcs : f.c.val < 16) (hd1 : f.d.val < 31) :
    ∃ t, exec (.coreQarr g f) s = .next t ∧
      issuedWith [(R.DCP.SAT_BLOCK_CNT, g.hub.val), (R.DCP.ZERO_BLOCK_CNT, g.hub.val)] g p 1 s t ∧
      t.grp g = ((s.grp g).qarr f ((s.grp g).qarrCode f (Config.freeNat s.free)) ((s.grp g).qarrRem f (Config.freeNat s.free))
        ((s.grp g).qarrScale f (Config.freeNat s.free)) ((s.grp g).poi f.asc f.a ||| ((s.grp g).sreg f.b.val).o)).advance := by
  have accepted : (decide (7 ≤ f.ty.val) && decide (f.ty.val ≤ 9) && !f.dsc && selOk f.asc f.a && decide (f.b.val < 16) &&
      decide (f.c.val < 16) && decide (f.d.val < 31)) = true := by simp [hlo, hhi, hd, ha, hb, hcs, hd1]
  have counted : execCoreQarr g f s = _ := issue_accepted accepted hp hc
  have drawn (sat zero : Bool) := ((Drawn.issue_takeFree [(R.DCP.SAT_BLOCK_CNT, g.hub.val), (R.DCP.ZERO_BLOCK_CNT, g.hub.val)] p s
    ).countWhen sat List.mem_cons_self).countWhen zero (List.mem_cons_of_mem _ List.mem_cons_self)
  exact ⟨_, counted, (drawn _ _).issuedWith_retire .., (drawn _ _).grp_retire g _⟩

/-! ### The statement -/

/-- Settles O28, instruction by instruction. -/
theorem reductionsConversionsAndQuantization : Obligations.ReductionsConversionsAndQuantization := by
  unfold Obligations.ReductionsConversionsAndQuantization
  intro g f s p hp
  refine ⟨?reductions, ?fcvt, fun hty hdst hv hd ha hc => coreFcvt_free hp hc hty hdst hv hd ha, ?qblk, ?qarr⟩
  case reductions =>
    rintro x hx hv hc
    obtain rfl | rfl : x = (.coreFred, fpAdd) ∨ x = (.coreFrmax, fpMax) := by simpa using hx
    · have counted : execCoreFred g f s = _ := issue_accepted hv hp hc
      exact ⟨_, counted, reduce_spec g f fpAdd s p⟩
    · have counted : execCoreFrmax g f s = _ := issue_accepted hv hp hc
      exact ⟨_, counted, reduce_spec g f fpMax s p⟩
  case fcvt =>
    intro hty hdst hv hda hc
    cases hd : f.dsc with
    | false =>
      obtain ⟨t, hexec, hissued, -, hlanes⟩ := coreFcvt_lanes hp hc hty hdst hv hd
      refine ⟨t, hexec, hissued, fun _ i hi => ?_, nofun⟩
      obtain ⟨written, kept, others⟩ := hlanes i hi
      refine ⟨fun x hact hx => ?_, kept, others⟩
      rw [← cvtLane_of_stated hx (Config.freeNat s.free) i]
      exact written hact
    | true =>
      have ha : f.asc = true := hda.resolve_left (by rw [hd]; exact nofun)
      obtain ⟨t, hexec, hissued, hscalar⟩ := coreFcvt_scalar hp hc hty hdst hv hd ha
      refine ⟨t, hexec, hissued, nofun, fun _ x hx => ?_⟩
      rwa [cvtLane_of_stated hx] at hscalar
  case qblk =>
    intro hty hd ha hcs hc
    obtain ⟨t, hexec, hissued, hgrp⟩ := coreQblk_spec hp hc hty hd ha hcs
    refine ⟨t, hexec, hissued, ?_⟩
    rw [hgrp]
    exact Group.qblk_spec ..
  case qarr =>
    intro hlo hhi hd ha hb hcs hd1 hc
    obtain ⟨t, hexec, hissued, hgrp⟩ := coreQarr_spec hp hc hlo hhi hd ha hb hcs hd1
    refine ⟨t, hexec, hissued, ?_⟩
    rw [hgrp]
    obtain ⟨frame, scalars, lanes, scale, written⟩ := Group.qarr_spec (s.grp g) f ((s.grp g).qarrCode f (Config.freeNat s.free))
      ((s.grp g).qarrRem f (Config.freeNat s.free)) ((s.grp g).qarrScale f (Config.freeNat s.free))
      ((s.grp g).poi f.asc f.a ||| ((s.grp g).sreg f.b.val).o)
    refine ⟨frame, scalars, lanes, fun known => ⟨?_, fun i hi hact => ?_⟩⟩
    · rw [scale, Group.qarrScale, if_pos known]
      rfl
    · obtain ⟨hcode, hrem⟩ := written i hi hact
      rw [hcode, hrem, Group.qarrCode, Group.qarrRem, if_pos known, if_pos known]
      exact ⟨rfl, rfl⟩

end Sys2Proof.Machine
end

section
/-! SUPPORT. Reasoning rules for module memory: what is read after a write (R282), and what a controller leaves that decodes bursts
(R284, R285). -/
namespace Sys2Proof

/-! ### Sparse maps, piece by piece -/

/-- In two maps one after the other, the first that lists a key gives its entry. -/
theorem AMap.get?_append {α : Type} (m n : AMap α) (a : Nat) : AMap.get? (m ++ n) a = (AMap.get? m a).or (AMap.get? n a) := by
  induction m with
  | nil => rfl
  | cons e t ih =>
    rw [List.cons_append, AMap.get?, AMap.get?]
    split
    · rfl
    · exact ih

/-- A key that no entry has is not listed. -/
theorem AMap.get?_eq_none {α : Type} {m : AMap α} {a : Nat} (h : ∀ e ∈ m, e.1 ≠ a) : AMap.get? m a = none := by
  induction m with
  | nil => rfl
  | cons e t ih =>
    rw [AMap.get?, if_neg (h e List.mem_cons_self)]
    exact ih fun x hx => h x (List.mem_cons_of_mem _ hx)

/-- A map cut down to some keys lists what it listed under those. -/
theorem AMap.get?_filter {α : Type} (m : AMap α) (q : Nat → Bool) {a : Nat} (h : q a = true) :
    AMap.get? (m.filter (fun e => q e.1)) a = AMap.get? m a := by
  induction m with
  | nil => rfl
  | cons e t ih =>
    by_cases ha : e.1 = a
    · rw [List.filter_cons_of_pos (by rw [ha]; exact h), AMap.get?, AMap.get?, if_pos ha, if_pos ha]
    · rw [AMap.get?, if_neg ha, ← ih, List.filter_cons]
      split
      · rw [AMap.get?, if_neg ha]
      · rfl

namespace Machine

/-! ### Memory: what is read after a write -/

/-- A read gives each byte as the memory lists it. -/
theorem Memory.read_eq (m : Memory) (a n : Nat) : m.read a n = (List.range n).map (fun i => AMap.getD m (a + i) memDefault) := by
  refine List.map_congr_left fun i hi => ?_
  have hin : (decide (a ≤ a + i) && decide (a + i < a + n)) = true := by simpa using hi
  unfold AMap.getD
  rw [AMap.get?_filter m (fun k => decide (a ≤ k) && decide (k < a + n)) hin]

/-- What the cells of a run of bytes read as: each byte at its place, elsewhere nothing written. -/
theorem getD_cellsOf (a x : Nat) (bs : List Byte) (h : a ≤ x) : AMap.getD (cellsOf a bs) x memDefault = bs.getD (x - a) memDefault := by
  induction bs generalizing a with
  | nil => rfl
  | cons b t ih =>
    obtain rfl | hlt : a = x ∨ a < x := by omega
    · have later : AMap.get? (cellsOf (a + 1) t) a = none :=
        AMap.get?_eq_none fun e he => by have := (risingFrom_cellsOf (a + 1) t).2 e he; omega
      rw [Nat.sub_self, List.getD_cons_zero, cellsOf]
      split
      next hb => rw [AMap.getD, later, hb]; rfl
      next => rw [AMap.getD, AMap.get?, if_pos rfl]; rfl
    · have hsub : x - a = (x - (a + 1)) + 1 := by omega
      rw [hsub, List.getD_cons_succ, ← ih (a + 1) hlt, cellsOf]
      split
      · rfl
      · rw [AMap.getD, AMap.get?, if_neg (by omega)]; rfl

/-- The cells of a run of bytes list nothing outside the run. -/
theorem get?_cellsOf_outside {a x : Nat} {bs : List Byte} (h : x < a ∨ a + bs.length ≤ x) : AMap.get? (cellsOf a bs) x = none :=
  AMap.get?_eq_none fun e he => by
    have := (risingFrom_cellsOf a bs).2 e he
    have := cellsOf_lt he
    omega

/-- A byte that a write covers. -/
theorem Memory.getD_write_inside (m : Memory) {a x : Nat} {bs : List Byte} (h : a ≤ x) (h' : x < a + bs.length) :
    AMap.getD (m.write a bs) x memDefault = bs.getD (x - a) memDefault := by
  have before : AMap.get? (m.filter (fun e => e.1 < a)) x = none := AMap.get?_eq_none fun e he => by
    have : e.1 < a := by simpa using (List.mem_filter.1 he).2
    omega
  have after : AMap.get? (m.filter (fun e => a + bs.length ≤ e.1)) x = none := AMap.get?_eq_none fun e he => by
    have : a + bs.length ≤ e.1 := by simpa using (List.mem_filter.1 he).2
    omega
  rw [← getD_cellsOf a x bs h, Memory.write, AMap.getD, AMap.get?_append, AMap.get?_append, before, after, Option.none_or, Option.or_none]
  rfl

/-- A byte that a write does not cover. -/
theorem Memory.getD_write_outside (m : Memory) {a x : Nat} {bs : List Byte} (h : x < a ∨ a + bs.length ≤ x) :
    AMap.getD (m.write a bs) x memDefault = AMap.getD m x memDefault := by
  unfold AMap.getD Memory.write
  rw [AMap.get?_append, AMap.get?_append, get?_cellsOf_outside h, Option.or_none]
  by_cases hx : x < a
  · have after : AMap.get? (m.filter (fun e => a + bs.length ≤ e.1)) x = none := AMap.get?_eq_none fun e he => by
      have : a + bs.length ≤ e.1 := by simpa using (List.mem_filter.1 he).2
      omega
    rw [AMap.get?_filter m (fun k => decide (k < a)) (decide_eq_true hx), after, Option.or_none]
  · have before : AMap.get? (m.filter (fun e => e.1 < a)) x = none := AMap.get?_eq_none fun e he => by
      have : e.1 < a := by simpa using (List.mem_filter.1 he).2
      omega
    rw [before, Option.none_or, AMap.get?_filter m (fun k => decide (a + bs.length ≤ k)) (decide_eq_true (h.resolve_left hx))]

/-- What has been written is read back. -/
theorem Memory.read_write_same (m : Memory) (a : Nat) (bs : List Byte) : (m.write a bs).read a bs.length = bs := by
  rw [Memory.read_eq]
  apply List.ext_getElem
  · simp
  · intro i _ hi
    rw [List.getElem_map, List.getElem_range, Memory.getD_write_inside m (Nat.le_add_right a i) (Nat.add_lt_add_left hi a),
      Nat.add_sub_cancel_left, List.getD_eq_getElem?_getD, List.getElem?_eq_getElem hi, Option.getD_some]

/-- A write leaves what lies apart from it. -/
theorem Memory.read_write_apart (m : Memory) {a b n : Nat} {bs : List Byte} (h : b + n ≤ a ∨ a + bs.length ≤ b) :
    (m.write a bs).read b n = m.read b n := by
  rw [Memory.read_eq, Memory.read_eq]
  refine List.map_congr_left fun i hi => Memory.getD_write_outside m ?_
  have := List.mem_range.1 hi
  omega

/-! ### What controllers leave that decode bursts -/

/-- Word offsets at which a decode of bursts, its write-backs and its report count, flag and note (R291, R336). -/
def decodeOffs : List Nat := [0x010, 0x060, 0x064, 0x068, 0x06C, 0x074, 0x084, 0x08C]

/-- The record of every hub is as it was, but for the reports that it assembles. -/
def HubsReport (s t : State) : Prop := ∀ h, ∃ ws o, t.hub h = { s.hub h with windows := ws, overflow := o }

/-- What a decode of bursts leaves beside what `Decoded` says: register fields at other offsets, and of the hubs all but their reports. -/
structure BurstsRead (s t : State) : Prop where
  decoded : Decoded s t
  rd : RdAway decodeOffs s t
  hubs : HubsReport s t

/-- Nothing reported. -/
theorem HubsReport.of_hubs {s t : State} (h : t.hubs = s.hubs) : HubsReport s t := fun k => by
  refine ⟨(s.hub k).windows, (s.hub k).overflow, ?_⟩
  unfold State.hub
  rw [h]

/-- One after another. -/
theorem HubsReport.trans {s t u : State} (h : HubsReport s t) (g : HubsReport t u) : HubsReport s u := fun k => by
  obtain ⟨_, _, hk⟩ := h k
  obtain ⟨_, _, gk⟩ := g k
  exact ⟨_, _, by rw [gk, hk]⟩

/-- A report in assembly. -/
theorem HubsReport.onHub (s : State) (k : Nat) {f : HubSt → HubSt} (hf : ∀ u, ∃ ws o, f u = { u with windows := ws, overflow := o }) :
    HubsReport s (s.onHub k f) := fun j => by
  by_cases h : j = k
  · rw [h, State.hub_onHub_same]
    exact hf _
  · rw [State.hub_onHub_other s k j f h]
    exact ⟨_, _, rfl⟩

/-- Top-k calls are no reports. -/
theorem HubsReport.topk {s t : State} (h : HubsReport s t) (k : Nat) : (t.hub k).topk = (s.hub k).topk := by
  obtain ⟨_, _, e⟩ := h k
  rw [e]

/-- Frames are no reports. -/
theorem HubsReport.frame {s t : State} (h : HubsReport s t) (k b : Nat) : (t.hub k).frame b = (s.hub k).frame b := by
  obtain ⟨_, _, e⟩ := h k
  rw [e]
  rfl

/-- Nothing decoded. -/
theorem BurstsRead.refl (s : State) : BurstsRead s s := ⟨.refl s, .refl _ s, .of_hubs rfl⟩

/-- One after another. -/
theorem BurstsRead.trans {s t u : State} (h : BurstsRead s t) (g : BurstsRead t u) : BurstsRead s u :=
  ⟨h.decoded.trans g.decoded, h.rd.trans g.rd, h.hubs.trans g.hubs⟩

/-- Memory as it was. -/
theorem BurstsRead.mem {s t : State} (h : BurstsRead s t) : t.mem = s.mem := by
  obtain ⟨_, _, _, e⟩ := h.decoded
  rw [e]

/-- A field at one of the offsets. -/
theorem BurstsRead.wr (s : State) {f : Field} (i v : Nat) (hm : f.off ∈ decodeOffs) (hp : f.Placed) : BurstsRead s (s.wr f i v) :=
  ⟨(Decoded.refl s).wr f i v, (RdAway.refl _ s).wr i v hm hp, .of_hubs rfl⟩

/-- A flag and its counter. -/
theorem BurstsRead.flagCount (s : State) {f c : Field} (i : Nat) (hf : f.off ∈ decodeOffs ∧ f.Placed)
    (hc : c.off ∈ decodeOffs ∧ c.Placed) : BurstsRead s (s.flagCount f c i) :=
  (BurstsRead.wr s i 1 hf.1 hf.2).trans (BurstsRead.wr _ i _ hc.1 hc.2)

/-- A report in assembly. -/
theorem BurstsRead.onHub (s : State) (k : Nat) {f : HubSt → HubSt} (hf : ∀ u, ∃ ws o, f u = { u with windows := ws, overflow := o }) :
    BurstsRead s (s.onHub k f) := ⟨(Decoded.refl s).onHub k f, .of_regs (.refl _ s) rfl, .onHub s k hf⟩

/-- A report. -/
theorem State.report_burstsRead (s : State) (k : Nat) (r : Report) : BurstsRead s (s.report k r) := by
  unfold State.report
  extract_lets u now q v r'
  split
  · exact (BurstsRead.onHub s k fun _ => ⟨_, _, rfl⟩).trans (.wr _ _ _ (by decide) (by decide))
  · split
    · exact .onHub s k fun _ => ⟨_, _, rfl⟩
    · have counted : BurstsRead s v := (BurstsRead.wr s _ _ (by decide) (by decide)).trans (.wr _ _ _ (by decide) (by decide))
      split
      · exact counted.trans (.onHub v k fun _ => ⟨_, _, rfl⟩)
      · exact counted.trans (.onHub v k fun _ => ⟨_, _, rfl⟩)

/-- A write-back. -/
theorem State.queueWb_burstsRead (b : Nat) (p : Bool) (s : State) : BurstsRead s (s.queueWb b p) := by
  have queued (wb : AMap (List (Nat × Bool))) : BurstsRead s { s with memWb := wb } :=
    ⟨⟨_, _, _, rfl⟩, .of_regs (.refl _ s) rfl, .of_hubs rfl⟩
  unfold State.queueWb
  extract_lets k key q
  split
  · exact .refl s
  · split
    · exact queued _
    · split
      · exact .flagCount s k (by decide) (by decide)
      · exact queued _

/-- A burst. -/
theorem State.decodeBurst_burstsRead (b : Nat) (s : State) : BurstsRead s (s.decodeBurst b) := by
  unfold State.decodeBurst
  extract_lets a k u ch v ps
  split
  · split
    · exact .wr s _ _ (by decide) (by decide)
    · exact .refl s
  · have hu : BurstsRead s u := (BurstsRead.flagCount s k (by decide) (by decide)).trans (State.queueWb_burstsRead ..)
    split
    · exact hu.trans (.wr u _ _ (by decide) (by decide))
    · exact hu
  · have hv : BurstsRead s v := ((BurstsRead.flagCount s k (by decide) (by decide)).trans (.wr _ k a (by decide) (by decide))).trans
      (.wr _ k ch (by decide) (by decide))
    exact (hv.trans (State.queueWb_burstsRead ..)).trans (State.report_burstsRead ..)

/-- Bursts, one after another. -/
theorem BurstsRead.each (l : List Nat) (s : State) : BurstsRead s (s.each l (fun b u => u.decodeBurst b)) :=
  State.each_keeps (BurstsRead s) l _ (fun b u hu => hu.trans (State.decodeBurst_burstsRead b u)) s (.refl s)

/-- A conditional update that decodes. -/
theorem BurstsRead.whenB (b : Bool) {f : State → State} (h : ∀ u, BurstsRead u (f u)) (s : State) : BurstsRead s (s.whenB b f) :=
  State.whenB_keeps (BurstsRead s) b f (fun u hu => hu.trans (h u)) s (.refl s)

/-- A run of bytes read. -/
theorem State.touch_burstsRead (a n : Nat) (s : State) : BurstsRead s (s.touch a n) := .each _ s

/-- A run of bytes read by a unit of a partition. -/
theorem State.touchOf_burstsRead (p a n : Nat) (s : State) : BurstsRead s (s.touchOf p a n) := .whenB _ (State.touch_burstsRead a n) s

/-- A write of memory leaves the hubs, but for their reports. -/
theorem State.mwrP_hubsReport (a : Nat) (bs : List Byte) (ps : List Nat) (s : State) : HubsReport s (s.mwrP a bs ps) := by
  unfold State.mwrP
  extract_lets n dirty keep t u
  exact (BurstsRead.each dirty s).hubs.trans (.of_hubs (State.poisonBursts_hubs ..))

/-! ### Clean memory -/

/-- Poison marks count under POISON_WRITE_CNT alone. -/
theorem State.poisonBursts_rdAway (bs : List Nat) (s : State) : RdAway [R.MEM.POISON_WRITE_CNT.off] s (s.poisonBursts bs) := by
  unfold State.poisonBursts
  generalize bs.eraseDups = l
  induction l generalizing s with
  | nil => exact .refl _ s
  | cons b l ih =>
    rw [List.foldl_cons]
    refine RdAway.trans ?_ (ih _)
    exact RdAway.wr (.of_regs (.refl _ s) rfl) _ _ List.mem_cons_self (by decide)

/-- In clean memory no burst holds anything for the controllers. -/
theorem State.dirtyIn_clean {s : State} (h : MemClean s) (a n : Nat) : s.dirtyIn a n = [] := by
  obtain ⟨herr, hpoi⟩ := h
  rw [State.dirtyIn, herr, hpoi]
  rfl

/-- A read of clean memory changes nothing. -/
theorem State.touch_clean {s : State} (h : MemClean s) (a n : Nat) : s.touch a n = s := by
  rw [State.touch, State.dirtyIn_clean h]
  rfl

/-- A write into clean memory counts its poison alone. -/
theorem State.mwrP_clean {s : State} (h : MemClean s) (a : Nat) (bs : List Byte) (ps : List Nat) :
    RdAway [R.MEM.POISON_WRITE_CNT.off] s (s.mwrP a bs ps) := by
  have none_dirty : (partBursts a bs.length).filter (fun b => (s.dirtyIn (64 * b) 64).contains b) = [] := by
    simp [State.dirtyIn_clean h]
  unfold State.mwrP
  extract_lets n dirty keep t u
  have undecoded : t = s := by
    unfold t
    rw [show dirty = [] from none_dirty]
    rfl
  exact RdAway.trans (.of_regs (.refl _ s) (show u.regs = s.regs by rw [← undecoded])) (State.poisonBursts_rdAway _ u)

end Machine
end Sys2Proof
end

section
/-! SUPPORT. The top-k reducer: how many entries a call gives, and what the call that leaves its hub changes (R142 to R147). -/
namespace Sys2Proof.Machine

/-! ### How many entries a call gives -/

/-- A value put in its rank: the list grows to k entries and no further. -/
theorem length_insertTop (v p : Nat) {k : Nat} {l : List (Nat × Nat)} (h : l.length ≤ k) :
    (insertTop v p k l).length = min k (l.length + 1) := by
  induction k generalizing l with
  | zero => simp [insertTop]
  | succ k ih =>
    cases l with
    | nil => simp [insertTop]
    | cons e l =>
      rw [List.length_cons] at h
      rw [insertTop]
      split
      · simp only [List.length_cons, List.length_take]
        omega
      · rw [List.length_cons, ih (by omega), List.length_cons]
        omega

/-- The numbers among the inputs, of which at most k rank. -/
theorem length_topNumbers (k : Nat) (l : List (Nat × Nat)) :
    (topNumbers k l).length = min k (l.filter (fun x => !fpIsNaN x.1)).length := by
  have ranked : ∀ acc : List (Nat × Nat), acc.length ≤ k →
      (l.foldl (fun acc x => if fpIsNaN x.1 then acc else insertTop x.1 x.2 k acc) acc).length =
        min k (acc.length + (l.filter (fun x => !fpIsNaN x.1)).length) := by
    induction l with
    | nil => intro acc hacc; exact (Nat.min_eq_right hacc).symm
    | cons x l ih =>
      intro acc hacc
      rw [List.foldl_cons]
      cases hx : fpIsNaN x.1 with
      | true => simpa [hx] using ih acc hacc
      | false =>
        have grown := length_insertTop x.1 x.2 hacc
        rw [if_neg Bool.false_ne_true, ih _ (by omega), grown, List.filter_cons_of_pos (by simp [hx]), List.length_cons]
        omega
  simpa [topNumbers] using ranked [] (Nat.zero_le k)

/-- Numbers and, after them, NaN entries fill the k places as far as there are inputs (R145). -/
theorem length_rankTop (k : Nat) (l : List (Nat × Nat)) : (rankTop k l).1.length = min k l.length := by
  have parted := l.length_eq_countP_add_countP (fun x => fpIsNaN x.1)
  simp only [List.countP_eq_length_filter, Bool.not_eq_true, Bool.decide_eq_false] at parted
  unfold rankTop
  split
  next hnone => rw [List.isEmpty_iff.1 hnone]; exact (Nat.min_zero k).symm
  next =>
    dsimp only
    rw [List.length_append, length_topNumbers, List.length_map, List.length_take]
    omega

/-- Words of a run of bytes. -/
theorem length_leWords (w n : Nat) (b : List Byte) : (leWords w n b).length = n := by
  induction n generalizing b with
  | zero => rfl
  | succ n ih => rw [leWords, List.length_cons, ih]

/-- A call that lists no adjustments is in error by its own fields alone. -/
theorem State.topkErr_noAdj (s : State) {r : TopkRec} (hbad : r.bad = false) (hadj : r.adjEn = false) : s.topkErr r = false := by
  rw [State.topkErr, State.topkAdj, hbad, hadj]
  rfl

/-- FP32 values of memory without lists: as many entries as K and N allow. -/
theorem State.length_topkEval (s : State) (p h : Nat) {r : TopkRec} (hbad : r.bad = false) (hsrc : r.src = 1) (hexcl : r.exclEn = false)
    (hadj : r.adjEn = false) : (s.topkEval p h r).entries.length = min r.k r.n := by
  have input : s.topkInput p h r = (leWords 4 r.n (s.mrd r.inAddr (4 * r.n)), s.readOrigins p r.inAddr (4 * r.n)) := if_pos hsrc
  simp [State.topkEval, s.topkErr_noAdj hbad hadj, input, hexcl, length_rankTop, length_leWords]

/-- A record in error: the header with DESC_ERR, and no entry (R143). -/
theorem State.topkEval_bad (s : State) (p h : Nat) {r : TopkRec} (hbad : r.bad = true) : s.topkEval p h r = { flags := tkDescErr } := by
  have err : s.topkErr r = true := by rw [State.topkErr, hbad, Bool.true_or]
  exact if_pos err

/-! ### The call that leaves its hub -/

/-- A call leaves its hub: it reads, it is counted, and its result is written (R146). -/
def State.topkStored (h : Nat) (c : TopkCall) (s : State) : State :=
  let r := TopkRec.ofBytes c.call
  let x := s.topkEval c.part h r
  (((s.onHub h (fun u => { u with topk := u.topk.erase c })).topkTouch r).topkCount h x).topkWrite r.outAddr x

/-- What the reducer does once a call is ready: its step and its token go on (R147). -/
def State.topkAnswer (h : Nat) (c : TopkCall) (s : State) : State :=
  let x := s.topkEval c.part h (TopkRec.ofBytes c.call)
  ((s.topkStored h c).onStep c.part (fun st => { st with topkRes := st.topkRes ++ [(c.no, x.entries.map (·.2))] })).completeToken
    c.src c.tok

/-- No call is ready. -/
theorem State.topkMerge_none {h : Nat} {s : State} (hnone : ∀ c ∈ (s.hub h).topk, s.topkReady h c = false) : s.topkMerge h = s := by
  have none_found : (s.hub h).topk.find? (s.topkReady h) = none := by
    rw [List.find?_eq_none]
    intro c hc
    rw [hnone c hc]
    exact Bool.false_ne_true
  rw [State.topkMerge, none_found]

/-- The oldest call is ready. -/
theorem State.topkMerge_oldest {h : Nat} {s : State} {c : TopkCall} {l : List TopkCall} (htopk : (s.hub h).topk = c :: l)
    (hready : s.topkReady h c = true) : s.topkMerge h = s.topkAnswer h c := by
  have found : (s.hub h).topk.find? (s.topkReady h) = some c := by rw [htopk, List.find?_cons_of_pos hready]
  rw [State.topkMerge, found]
  rfl

/-- A completed token's bit is 0. -/
theorem testBit_setBits_zero (x i : Nat) : (setBits x i 1 0).testBit i = false := by
  have cleared : setBits x i 1 0 = x - 2 ^ i * (x / 2 ^ i % 2 ^ 1) := by
    rw [setBits, bits, Nat.shiftRight_eq_div_pow, Nat.shiftLeft_eq, Nat.zero_mod, Nat.zero_shiftLeft, Nat.add_zero, Nat.mul_comm]
  rw [cleared, Nat.testBit_eq_decide_div_mod_eq, Nat.sub_mul_div, decide_eq_false_iff_not]
  omega

/-- Counting a call leaves all but register fields. -/
theorem State.topkCount_eq {β : Type} (π : State → β) (hwr : ∀ (u : State) f i v, π (u.wr f i v) = π u) (h : Nat) (x : TopkResult)
    (s : State) : π (s.topkCount h x) = π s := by
  unfold State.topkCount
  extract_lets u v
  have hu : π u = π s := hwr _ _ _ _
  have hv : π v = π u := State.whenB_eq π _ _ (fun w => (hwr _ _ _ _).trans (hwr _ _ _ _)) u
  exact ((State.whenB_eq π _ _ (fun w => (hwr _ _ _ _).trans (hwr _ _ _ _)) v).trans hv).trans hu

/-- What a call reads. -/
theorem State.topkTouch_burstsRead (r : TopkRec) (s : State) : BurstsRead s (s.topkTouch r) := by
  unfold State.topkTouch
  extract_lets u
  have hu : BurstsRead s u := .whenB _ (State.touch_burstsRead _ _) s
  exact hu.trans (.whenB _ (fun v => (BurstsRead.whenB _ (State.touch_burstsRead _ _) v).trans (.whenB _ (State.touch_burstsRead _ _) _)) u)

/-- What a call reads of clean memory changes nothing. -/
theorem State.topkTouch_clean {s : State} (h : MemClean s) (r : TopkRec) : s.topkTouch r = s := by
  simp [State.topkTouch, State.whenB, State.touch_clean h]

/-- The result is written at the output address, and nothing else is. -/
theorem State.topkStored_mem (h : Nat) (c : TopkCall) (s : State) : (s.topkStored h c).mem =
    s.mem.write (TopkRec.ofBytes c.call).outAddr (s.topkEval c.part h (TopkRec.ofBytes c.call)).bytes := by
  rw [State.topkStored, State.topkWrite, State.mwrP_mem, State.topkCount_eq State.mem (fun _ _ _ _ => rfl),
    (State.topkTouch_burstsRead ..).mem, State.onHub_mem]

/-- The call is taken from its hub. -/
theorem State.topkStored_topk (h : Nat) (c : TopkCall) (s : State) : ((s.topkStored h c).hub h).topk = (s.hub h).topk.erase c := by
  rw [State.topkStored, State.topkWrite, (State.mwrP_hubsReport _ _ _ _).topk,
    State.topkCount_eq (fun u => (u.hub h).topk) (fun _ _ _ _ => rfl), (State.topkTouch_burstsRead ..).hubs.topk, State.hub_onHub_same]

/-- With clean memory a call changes the registers that count it, and beside them POISON_WRITE_CNT alone. -/
theorem State.topkStored_rdAway {s : State} (hclean : MemClean s) (h : Nat) (c : TopkCall) : RdAway [R.MEM.POISON_WRITE_CNT.off]
    ((s.onHub h (fun u => { u with topk := u.topk.erase c })).topkCount h (s.topkEval c.part h (TopkRec.ofBytes c.call)))
    (s.topkStored h c) := by
  have still_clean : MemClean (s.onHub h (fun u => { u with topk := u.topk.erase c })) := hclean
  rw [State.topkStored, State.topkTouch_clean still_clean]
  refine State.mwrP_clean ?_ _ _ _
  obtain ⟨herr, hpoi⟩ := still_clean
  exact ⟨(State.topkCount_eq State.memErr (fun _ _ _ _ => rfl) ..).trans herr,
    (State.topkCount_eq State.poi (fun _ _ _ _ => rfl) ..).trans hpoi⟩

/-- A call is counted on the page of its hub. -/
theorem State.topkCount_cnt (h : Nat) (x : TopkResult) (s : State) :
    (s.topkCount h x).rd R.ACU.TOPK_CNT h = min (s.rd R.ACU.TOPK_CNT h + 1) (2 ^ R.ACU.TOPK_CNT.width - 1) := by
  have noted (b : Bool) {c e : Field} (hc : R.ACU.TOPK_CNT.Apart c) (he : R.ACU.TOPK_CNT.Apart e) (u : State) :
      (u.whenB b (fun v => (v.count c h).raise e h)).rd R.ACU.TOPK_CNT h = u.rd R.ACU.TOPK_CNT h :=
    State.whenB_eq (fun v => v.rd R.ACU.TOPK_CNT h) b _
      (fun v => by rw [State.rd_raise_apart _ _ _ he, State.rd_count_apart _ _ _ hc]) u
  rw [State.topkCount, noted _ (by decide) (by decide), noted _ (by decide) (by decide), State.rd_count]

/-- A record in error shows its flag. -/
theorem State.topkCount_descErr (h : Nat) (s : State) : (s.topkCount h { flags := tkDescErr }).rd R.ACU.EVT_TOPK_DESC_ERR h = 1 :=
  State.rd_raise _ _ _ (by decide)

/-- What a step notes and a token's completion change records of partitions and cores alone. -/
theorem State.completeToken_onStep_only (p : Nat) (f : StepSt → StepSt) (g : GroupRef) (k : Nat) (s : State) :
    ∃ parts cores, (s.onStep p f).completeToken g k = { s with parts := parts, cores := cores } := ⟨_, _, rfl⟩

/-- After the result is written, records of partitions and cores alone change. -/
theorem State.topkAnswer_only (h : Nat) (c : TopkCall) (s : State) :
    ∃ parts cores, s.topkAnswer h c = { s.topkStored h c with parts := parts, cores := cores } :=
  State.completeToken_onStep_only ..

/-- Memory after an answer reads as after the result's writing. -/
theorem State.topkAnswer_mrd (h : Nat) (c : TopkCall) (s : State) (a n : Nat) : (s.topkAnswer h c).mrd a n =
    (s.mem.write (TopkRec.ofBytes c.call).outAddr (s.topkEval c.part h (TopkRec.ofBytes c.call)).bytes).read a n := by
  obtain ⟨_, _, e⟩ := s.topkAnswer_only h c
  rw [e]
  exact congrArg (Memory.read · a n) (s.topkStored_mem h c)

/-- The call has left its hub. -/
theorem State.topkAnswer_topk (h : Nat) (c : TopkCall) (s : State) : ((s.topkAnswer h c).hub h).topk = (s.hub h).topk.erase c := by
  obtain ⟨_, _, e⟩ := s.topkAnswer_only h c
  rw [e]
  exact s.topkStored_topk h c

/-- Its token is complete. -/
theorem State.topkAnswer_token (h : Nat) (c : TopkCall) (s : State) : ((s.topkAnswer h c).grp c.src).toks.testBit c.tok = false := by
  rw [State.topkAnswer, State.completeToken, State.grp_onGrp_same]
  exact testBit_setBits_zero ..

/-- With clean memory the registers of the call's hub are those after counting it. -/
theorem State.topkAnswer_rd {s : State} (hclean : MemClean s) (h : Nat) (c : TopkCall) {f : Field} (i : Nat)
    (hf : f.off ∉ [R.MEM.POISON_WRITE_CNT.off]) (hp : f.Placed) : (s.topkAnswer h c).rd f i =
      ((s.onHub h (fun u => { u with topk := u.topk.erase c })).topkCount h (s.topkEval c.part h (TopkRec.ofBytes c.call))).rd f i := by
  obtain ⟨_, _, e⟩ := s.topkAnswer_only h c
  rw [e]
  exact s.topkStored_rdAway hclean h c f i hf hp

/-- The oldest call, once ready, is answered (R143, R145 to R147). -/
theorem topkMerge_spec (h : Fin 4) (s : State) :
    ((∀ c ∈ (s.hub h.val).topk, s.topkReady h.val c = false) → exec (.topkMerge h) s = .next s) ∧
    (∀ c l, (s.hub h.val).topk = c :: l → s.topkReady h.val c = true →
      ∃ t, exec (.topkMerge h) s = .next t ∧ (t.hub h.val).topk = l ∧ (t.grp c.src).toks.testBit c.tok = false ∧
        (MemClean s → t.rd R.ACU.TOPK_CNT h.val = min (s.rd R.ACU.TOPK_CNT h.val + 1) (2 ^ R.ACU.TOPK_CNT.width - 1)) ∧
        (let r := TopkRec.ofBytes c.call
         let x := s.topkEval c.part h.val r
         t.mrd r.outAddr x.bytes.length = x.bytes ∧
         (∀ a n, a + n ≤ r.outAddr ∨ r.outAddr + x.bytes.length ≤ a → t.mrd a n = s.mrd a n) ∧
         (r.bad = true → x.bytes = leBytes 4 0 ++ leBytes 4 8 ++ leBytes 8 0 ∧ (MemClean s → t.rd R.ACU.EVT_TOPK_DESC_ERR h.val = 1)) ∧
         (r.bad = false → r.src = 1 → r.exclEn = false → r.adjEn = false → x.entries.length = min r.k r.n))) := by
  refine ⟨fun hnone => congrArg Host.Outcome.next (State.topkMerge_none hnone), fun c l htopk hready => ?_⟩
  refine ⟨s.topkAnswer h.val c, congrArg Host.Outcome.next (State.topkMerge_oldest htopk hready), ?left, s.topkAnswer_token h.val c,
    fun hclean => ?counted, ?_⟩
  case left => rw [State.topkAnswer_topk, htopk, List.erase_cons_head]
  case counted => rw [State.topkAnswer_rd hclean _ _ _ (by decide) (by decide), State.topkCount_cnt]; rfl
  intro r x
  refine ⟨?written, fun a n hapart => ?kept, fun hbad => ⟨?header, fun hclean => ?shown⟩, s.length_topkEval c.part h.val⟩
  case written => exact (s.topkAnswer_mrd ..).trans (Memory.read_write_same ..)
  case kept => exact (s.topkAnswer_mrd ..).trans (Memory.read_write_apart _ hapart)
  case header =>
    rw [show x = _ from s.topkEval_bad c.part h.val hbad]
    rfl
  case shown =>
    rw [State.topkAnswer_rd hclean _ _ _ (by decide) (by decide), s.topkEval_bad _ _ hbad]
    exact State.topkCount_descErr ..

end Sys2Proof.Machine
end

section
/-! SUPPORT. Verification of a step-program set: what the controllers' reading of it leaves, VERIFY, and the end of a verification (R203);
then the statement of the top-k calls and the verification. -/
namespace Sys2Proof.Machine

/-! ### Reading a set does not change what is read -/

section Reading

variable {s t : State} (h : BurstsRead s t)
include h

/-- Records of partitions as they were. -/
theorem BurstsRead.part (p : Nat) : t.part p = s.part p := by
  obtain ⟨_, _, _, e⟩ := h.decoded
  rw [e]
  rfl

/-- Bytes of memory. -/
theorem BurstsRead.mrd (a n : Nat) : t.mrd a n = s.mrd a n := by rw [State.mrd, h.mem, State.mrd]

/-- Poison that a read delivers. -/
theorem BurstsRead.mbad (a n : Nat) : t.mbad a n = s.mbad a n := by
  obtain ⟨_, _, _, e⟩ := h.decoded
  rw [e]
  rfl

/-- Which runs of bytes lie in a partition's memory. -/
theorem BurstsRead.inPart (p a n : Nat) : t.inPart p a n = s.inPart p a n := by
  have ends (k b : Nat) : t.runEnd p k b = s.runEnd p k b := by
    induction k generalizing b with
    | zero => rfl
    | succ k ih => simp only [State.runEnd, h.part, ih]
  simp only [State.inPart, h.part, ends]

/-- Which stacks a partition owns. -/
theorem BurstsRead.owns (p k : Nat) : t.owns p k = s.owns p k := by
  unfold State.owns State.partExists
  rw [h.part, h.rd _ _ (by decide) (by decide)]

/-- The active frame of a hub. -/
theorem BurstsRead.frameAct (k : Nat) : t.frameAct k = s.frameAct k := by
  unfold State.frameAct
  rw [h.hubs.frame, h.rd _ _ (by decide) (by decide)]

/-- The faults of a section. -/
theorem BurstsRead.secFault (p : Nat) (x : SetIn) (z : StepSet) (e : SecEnt) : t.secFault p x z e = s.secFault p x z e := by
  have held : t.notHeld p e = s.notHeld p e := by simp only [State.notHeld, h.part, h.owns]
  have tensors : t.tensorOk p = s.tensorOk p := funext fun b => by simp only [State.tensorOk, h.inPart]
  have calls : t.topkRecOk = s.topkRecOk := funext fun b => by simp only [State.topkRecOk, State.topkAdj, h.mrd]
  have plans (b : List Byte) : t.planFault p e b = s.planFault p e b := by simp only [State.planFault, h.frameAct]
  simp only [State.secFault, held, tensors, calls, plans]

/-- The check of a set. -/
theorem BurstsRead.checkSet (p a : Nat) : t.checkSet p a = s.checkSet p a := by
  simp only [State.checkSet, h.mrd, h.mbad, h.inPart, h.secFault]

end Reading

/-! ### VERIFY -/

/-- A register field is no part of a partition's record. -/
@[simp] theorem State.part_wr (s : State) (f : Field) (i v p : Nat) : (s.wr f i v).part p = s.part p := rfl

/-- An event flag is no part of a partition's record. -/
@[simp] theorem State.part_raise (s : State) (f : Field) (i p : Nat) : (s.raise f i).part p = s.part p := rfl

/-- A refused write shows CONFIG_REFUSED and is counted; nothing else changes (R466, R470). -/
theorem State.refuseWrite_spec (g : Page) (i : Nat) (s : State) : (s.refuseWrite g i).rd (fieldConfigRefused g) i = 1 ∧
    RegsBut [(fieldConfigRefused g, i), (fieldRefusedCnt g, i)] s (s.refuseWrite g i) ∧
    s.refuseWrite g i = { s with regs := (s.refuseWrite g i).regs } := by
  have apart : (fieldConfigRefused g).key i ≠ (fieldRefusedCnt g).key i := by
    simp only [Field.key, fieldConfigRefused, fieldRefusedCnt]
    omega
  obtain ⟨hflag, -, hbut, honly⟩ := s.flagCount_spec (fieldConfigRefused g) (fieldRefusedCnt g) i Nat.one_pos apart
  exact ⟨hflag, hbut, honly⟩

/-- VERIFY for a partition that exists. -/
theorem exec_verify {p : Fin 12} {s : State} (hp : s.partExists p.val = true) : exec (.verify p) s = .next (s.actVerify p.val) :=
  congrArg Host.Outcome.next (if_pos hp)

/-- VERIFY while a verification runs or a switch waits. -/
theorem State.actVerify_refused {p : Nat} {s : State} (h : (s.part p).verifying ≠ none ∨ (s.part p).switchPend ≠ none) :
    s.actVerify p = s.refuseWrite .dcr p := by
  refine if_pos ?_
  rw [Bool.or_eq_true, Option.isSome_iff_ne_none, Option.isSome_iff_ne_none]
  exact h

/-- A verification that runs: of the set at SET_ADDR, with CODE 1; VERIFIED of an earlier set has fallen (log entry 142). -/
def State.verifyStarted (p : Nat) (s : State) : State :=
  ((s.onPart p (fun q => { q with verifying := some (s.rd R.DCR.SET_ADDR p) })).wr R.DCR.SET_STAT_CODE p 1).wr R.DCR.STAT_VERIFIED p 0

/-- VERIFY otherwise. -/
theorem State.actVerify_starts {p : Nat} {s : State} (hnone : (s.part p).verifying = none) (hpend : (s.part p).switchPend = none) :
    s.actVerify p = s.verifyStarted p := by
  refine if_neg ?_
  rw [hnone, hpend]
  exact Bool.false_ne_true

/-- VERIFY while nothing runs or waits (R203). -/
theorem verify_starts {p : Fin 12} {s : State} (hnone : (s.part p.val).verifying = none) (hpend : (s.part p.val).switchPend = none)
    (hp : s.partExists p.val = true) : ∃ t, exec (.verify p) s = .next t ∧
      t.part p.val = { s.part p.val with verifying := some (s.rd R.DCR.SET_ADDR p.val) } ∧ t.rd R.DCR.SET_STAT_CODE p.val = 1 ∧
      t.rd R.DCR.STAT_VERIFIED p.val = 0 ∧ RegsBut [(R.DCR.SET_STAT_CODE, p.val), (R.DCR.STAT_VERIFIED, p.val)] s t := by
  refine ⟨_, (exec_verify hp).trans (congrArg _ (State.actVerify_starts hnone hpend)), ?_, ?_, State.rd_wr_same .., ?_⟩
  · rw [State.verifyStarted, State.part_wr, State.part_wr, State.part_onPart_same]
  · rw [State.verifyStarted, State.rd_wr_apart _ _ _ _ (by decide), State.rd_wr_same]
    rfl
  · exact ((RegsBut.of_regs (.refl _ s) rfl).wr _ _ _ List.mem_cons_self).wr _ _ _ (List.mem_cons_of_mem _ List.mem_cons_self)

/-! ### The end of a verification -/

/-- The controllers read the set at an address: its header, then as many bytes as that names. -/
def State.setRead (p a : Nat) (s : State) : State := (s.touchOf p a 128).touchOf p a (s.mval (a + 56) 8)

/-- The set lies there as before. -/
theorem State.setRead_burstsRead (p a : Nat) (s : State) : BurstsRead s (s.setRead p a) :=
  (State.touchOf_burstsRead ..).trans (State.touchOf_burstsRead ..)

/-- The state in which a verification of the set at an address is judged: the set has been read, and the verification runs no more. -/
def State.verifyRead (p a : Nat) (s : State) : State := (s.setRead p a).onPart p (fun q => { q with verifying := none })

/-- What the judgement leaves. -/
def State.verifyJudged (p : Nat) (s : State) : (Option Nat × Option (Nat × Nat)) ⊕ StepSet → State
  | .inr z => s.setAccepted p z
  | .inl (code, place) => s.setRejected p code place

/-- A verification ends that no clear holds up: by the check of the set as it lies in memory. -/
theorem exec_setVerifyDone {p : Fin 12} {a : Nat} {s : State} (hrun : (s.part p.val).verifying = some a) (hclear : s.clears p.val = false) :
    exec (.setVerifyDone p) s = .next ((s.verifyRead p.val a).verifyJudged p.val (s.checkSet p.val a)) := by
  show execSetVerifyDone p s = _
  rw [← (s.setRead_burstsRead p.val a).checkSet]
  unfold execSetVerifyDone State.setRead
  extract_lets q
  rw [hrun]
  dsimp only
  rw [hclear, if_neg Bool.false_ne_true]
  rcases State.checkSet _ p.val a with ⟨code, place⟩ | z
  · rfl
  · rfl

/-- A verification that does not run, or that a clear holds up. -/
theorem setVerifyDone_waits {p : Fin 12} {s : State} (h : (s.part p.val).verifying = none ∨ s.clears p.val = true) :
    exec (.setVerifyDone p) s = .next s := by
  show execSetVerifyDone p s = _
  unfold execSetVerifyDone
  extract_lets q
  split
  · rfl
  next a hrun =>
    refine if_pos (h.resolve_left ?_)
    rw [show (s.part p.val).verifying = some a from hrun]
    exact nofun

/-- The partition's record while its set is judged. -/
theorem State.part_verifyRead (p a : Nat) (s : State) : (s.verifyRead p a).part p = { s.part p with verifying := none } := by
  rw [State.verifyRead, State.part_onPart_same, (s.setRead_burstsRead p a).part]

/-- Judging a set writes no memory. -/
theorem State.mem_verifyRead (p a : Nat) (s : State) : (s.verifyRead p a).mem = s.mem :=
  (s.setRead_burstsRead p a).mem

/-- A good set: in the inactive banks, shown with its generation. -/
theorem State.setAccepted_spec (p : Nat) (z : StepSet) (s : State) : (s.setAccepted p z).part p = { s.part p with setNew := z } ∧
    (s.setAccepted p z).rd R.DCR.SET_STAT_CODE p = 2 ∧ (s.setAccepted p z).rd R.DCR.STAT_VERIFIED p = 1 ∧
    (s.setAccepted p z).rd R.DCR.VER_GEN p = z.generation % 2 ^ R.DCR.VER_GEN.width ∧ (s.setAccepted p z).rd R.DCR.EVT_SET_OK p = 1 := by
  unfold State.setAccepted
  extract_lets u
  refine ⟨?_, ?_, ?_, ?_, State.rd_raise _ _ _ (by decide)⟩
  · rw [State.part_raise, State.part_wr, State.part_wr, State.part_wr, State.part_onPart_same]
  · rw [State.rd_raise_apart _ _ _ (by decide), State.rd_wr_apart _ _ _ _ (by decide), State.rd_wr_apart _ _ _ _ (by decide),
      State.rd_wr_same]
    rfl
  · rw [State.rd_raise_apart _ _ _ (by decide), State.rd_wr_apart _ _ _ _ (by decide), State.rd_wr_same]
    rfl
  · rw [State.rd_raise_apart _ _ _ (by decide), State.rd_wr_same]

/-- A bad set: the inactive banks are empty, and a code and a place are shown. -/
def State.rejectedAt (p code : Nat) (place : Nat × Nat) (s : State) : State :=
  ((((((s.onPart p (fun q => { q with setNew := {} })).wr R.DCR.SET_STAT_CODE p code).wr R.DCR.SET_STAT_SECTION p place.1).wr
    R.DCR.SET_ERR_OFF p place.2).wr R.DCR.STAT_VERIFIED p 0).raise R.DCR.EVT_SET_REJECTED p)

/-- What the spec names of a fault is shown; for the rest stand free values. -/
theorem State.setRejected_eq (p : Nat) (code : Option Nat) (place : Option (Nat × Nat)) (s : State) :
    ∃ c x n, s.setRejected p code place = ({ s with free := n } : State).rejectedAt p c x ∧ (∀ c', code = some c' → c = c') ∧
      ∀ x', place = some x' → x = x' := by
  cases code with
  | none => cases place with
    | none => exact ⟨_, _, _, rfl, nofun, nofun⟩
    | some x => exact ⟨_, x, _, rfl, nofun, fun _ => Option.some.inj⟩
  | some c => cases place with
    | none => exact ⟨c, _, _, rfl, fun _ => Option.some.inj, nofun⟩
    | some x => exact ⟨c, x, s.free, rfl, fun _ => Option.some.inj, fun _ => Option.some.inj⟩

/-- What a bad set shows. -/
theorem State.rejectedAt_spec (p code : Nat) (place : Nat × Nat) (s : State) :
    (s.rejectedAt p code place).part p = { s.part p with setNew := {} } ∧
    (s.rejectedAt p code place).rd R.DCR.SET_STAT_CODE p = code % 2 ^ R.DCR.SET_STAT_CODE.width ∧
    (s.rejectedAt p code place).rd R.DCR.SET_STAT_SECTION p = place.1 % 2 ^ R.DCR.SET_STAT_SECTION.width ∧
    (s.rejectedAt p code place).rd R.DCR.SET_ERR_OFF p = place.2 % 2 ^ R.DCR.SET_ERR_OFF.width ∧
    (s.rejectedAt p code place).rd R.DCR.STAT_VERIFIED p = 0 ∧ (s.rejectedAt p code place).rd R.DCR.EVT_SET_REJECTED p = 1 := by
  unfold State.rejectedAt
  refine ⟨?_, ?_, ?_, ?_, ?_, State.rd_raise _ _ _ (by decide)⟩
  · rw [State.part_raise, State.part_wr, State.part_wr, State.part_wr, State.part_wr, State.part_onPart_same]
  · rw [State.rd_raise_apart _ _ _ (by decide), State.rd_wr_apart _ _ _ _ (by decide), State.rd_wr_apart _ _ _ _ (by decide),
      State.rd_wr_apart _ _ _ _ (by decide), State.rd_wr_same]
  · rw [State.rd_raise_apart _ _ _ (by decide), State.rd_wr_apart _ _ _ _ (by decide), State.rd_wr_apart _ _ _ _ (by decide),
      State.rd_wr_same]
  · rw [State.rd_raise_apart _ _ _ (by decide), State.rd_wr_apart _ _ _ _ (by decide), State.rd_wr_same]
  · rw [State.rd_raise_apart _ _ _ (by decide), State.rd_wr_same, Nat.zero_mod]

/-- Of a partition's record a judgement changes the new set alone. -/
theorem State.part_verifyJudged (p : Nat) (r : (Option Nat × Option (Nat × Nat)) ⊕ StepSet) (s : State) :
    ∃ z, (s.verifyJudged p r).part p = { s.part p with setNew := z } := by
  obtain ⟨code, place⟩ | z := r
  · obtain ⟨c, x, n, e, -, -⟩ := s.setRejected_eq p code place
    rw [State.verifyJudged, e]
    exact ⟨_, (State.rejectedAt_spec ..).1⟩
  · exact ⟨z, (s.setAccepted_spec p z).1⟩

/-- A judgement writes no memory. -/
theorem State.mem_verifyJudged (p : Nat) (r : (Option Nat × Option (Nat × Nat)) ⊕ StepSet) (s : State) :
    (s.verifyJudged p r).mem = s.mem := by
  obtain ⟨code, place⟩ | z := r
  · obtain ⟨c, x, n, e, -, -⟩ := s.setRejected_eq p code place
    rw [State.verifyJudged, e]
    rfl
  · rfl

/-- The end of a verification that no clear holds up (R203). -/
theorem setVerifyDone_ends {p : Fin 12} {a : Nat} {s : State} (hrun : (s.part p.val).verifying = some a) (hclear : s.clears p.val = false) :
    ∃ t, exec (.setVerifyDone p) s = .next t ∧ (t.part p.val).verifying = none ∧ t.mem = s.mem ∧
      (t.part p.val).setAct = (s.part p.val).setAct ∧
      (∀ z, s.checkSet p.val a = .inr z → (t.part p.val).setNew = z ∧ t.rd R.DCR.SET_STAT_CODE p.val = 2 ∧
        t.rd R.DCR.STAT_VERIFIED p.val = 1 ∧ t.rd R.DCR.VER_GEN p.val = z.generation % 2 ^ R.DCR.VER_GEN.width ∧
        t.rd R.DCR.EVT_SET_OK p.val = 1) ∧
      (∀ code i o, s.checkSet p.val a = .inl (some code, some (i, o)) → (t.part p.val).setNew = {} ∧
        t.rd R.DCR.SET_STAT_CODE p.val = code % 2 ^ R.DCR.SET_STAT_CODE.width ∧
        t.rd R.DCR.SET_STAT_SECTION p.val = i % 2 ^ R.DCR.SET_STAT_SECTION.width ∧
        t.rd R.DCR.SET_ERR_OFF p.val = o % 2 ^ R.DCR.SET_ERR_OFF.width ∧
        t.rd R.DCR.STAT_VERIFIED p.val = 0 ∧ t.rd R.DCR.EVT_SET_REJECTED p.val = 1) := by
  obtain ⟨z', hpart⟩ := (s.verifyRead p.val a).part_verifyJudged p.val (s.checkSet p.val a)
  rw [State.part_verifyRead] at hpart
  refine ⟨_, exec_setVerifyDone hrun hclear, by rw [hpart], (State.mem_verifyJudged ..).trans (State.mem_verifyRead ..), by rw [hpart],
    fun z hz => ?good, fun code i o hfault => ?bad⟩
  case good =>
    rw [hz]
    obtain ⟨hnew, hshown⟩ := (s.verifyRead p.val a).setAccepted_spec p.val z
    exact ⟨congrArg PartSt.setNew hnew, hshown⟩
  case bad =>
    rw [hfault]
    obtain ⟨hnew, hshown⟩ := (s.verifyRead p.val a).rejectedAt_spec p.val code (i, o)
    exact ⟨congrArg PartSt.setNew hnew, hshown⟩

/-! ### The statement -/

/-- Settles O43: the reducer, then VERIFY refused and started, and SET_VERIFY_DONE held up and at its end. -/
theorem topkAndVerification : Obligations.TopkAndVerification := by
  unfold Obligations.TopkAndVerification
  refine ⟨topkMerge_spec, fun p s => ⟨fun hbusy hp => ?refused, fun hnone hpend hp => verify_starts hnone hpend hp, setVerifyDone_waits,
    fun a hrun hclear => setVerifyDone_ends hrun hclear⟩⟩
  case refused =>
    obtain ⟨hshown, hbut, honly⟩ := s.refuseWrite_spec .dcr p.val
    exact ⟨_, (exec_verify hp).trans (congrArg _ (State.actVerify_refused hbusy)), honly, hshown, hbut⟩

end Sys2Proof.Machine
end


section
/-! SUPPORT. The loader's Reads and the count of bytes that a port has sent (R159, R380, R395), and the refutations of the loader's two
statements. Both statements list TX_BYTES of ports 0 to 15 as all that ABORT or READ_TIMEOUT counts of what is sent, and both speak of every
state: also of one whose queue pair lies on port 20, such as the model's own commands do not build, which open queue pairs on ports 0 to 15.
How many bytes a Read takes is open, perhaps none (log entry 117); TX_BYTES of that port therefore stands above its width, so that the count,
whatever it adds, changes it. -/
namespace Sys2Proof.Machine

/-! ### TX_BYTES after a Read -/

/-- TX_BYTES of a port holds a value of its width. -/
def State.TxFits (n : Nat) (s : State) : Prop := s.rd R.FAB.TX_BYTES n < 2 ^ R.FAB.TX_BYTES.width

/-- The counter stops at its largest value, whatever it held before and however many bytes go (R469). -/
theorem State.send_txFits {n : Nat} {s : State} (hgo : s.pfcStops n = false) (x : NetOut) (k : Nat) : (s.send n x k).TxFits n := by
  rw [State.TxFits, State.send, hgo, if_neg Bool.false_ne_true, State.rd_bump]
  exact Nat.lt_of_le_of_lt (Nat.min_le_right _ _) (by decide)

/-- A command on a queue pair goes out on its port. -/
theorem State.sendCmd_txFits {no : Nat} {q : QpSt} {s : State} (hq : AMap.get? s.fab.qps no = some q) (hgo : s.pfcStops q.port = false)
    (p src : Nat) (c : NvmeCmd) : (s.sendCmd p src no c).TxFits q.port := by
  unfold State.sendCmd State.takeFree
  rw [hq]
  exact State.send_txFits (by exact hgo) _ _

/-- The only Read of a partition, which waits, goes to the only queue of its source. -/
theorem State.pumpReads_txFits {p set src no : Nat} {r : ReadCmd} {q : QpSt} {s : State} (hr : (s.part p).reads = [r])
    (hwait : r.queue = none) (hpath : s.readPath p r = (set, src)) (hio : s.ioQueues p set src = [no])
    (hq : AMap.get? s.fab.qps no = some q) (hgo : s.pfcStops q.port = false) : (s.pumpReads p).TxFits q.port := by
  have goes : s.pumpReads p = s.sendRead p 0 := by rw [State.pumpReads, hr]; rfl
  have chosen : [no].getD (r.index % [no].length) 0 = no := by rw [List.length_singleton, Nat.mod_one]; rfl
  have room : ¬ (r.queue.isSome || [no].isEmpty || decide (queueDepth ≤ ([r].filter (fun x => x.queue == some no)).length)) = true := by
    simp [hwait, queueDepth]
  rw [goes, State.sendRead]
  dsimp only
  rw [hr, List.getElem?_cons_zero]
  dsimp only
  rw [hpath]
  dsimp only
  rw [hio, chosen, if_neg room]
  exact State.sendCmd_txFits (by exact hq) (by exact hgo) _ _ _

/-- A load that fails before it has begun: after its Reads have ended, it writes no TX_BYTES. -/
theorem State.loadFail_txFits {p n : Nat} {s : State} (hload : (s.part p).load = none) (code : Nat)
    (hclosed : ((s.onPart p (fun q => { q with load := none, loadWait := false })).closeLoad p).TxFits n) :
    (s.loadFail p code none).TxFits n := by
  refine lt_of_eq_of_lt ?_ hclosed
  unfold State.loadFail
  rw [hload]
  refine (State.each_eq (State.rd · R.FAB.TX_BYTES n) _ _ (fun _ _ => State.rd_wr_apart _ _ _ _ (by decide)) _).trans ?_
  unfold State.setProgramming State.wrB
  dsimp only
  rw [State.rd_wr_apart _ _ _ _ (by decide), State.rd_raise_apart _ _ _ (by decide), State.rd_wr_apart _ _ _ _ (by decide),
    State.rd_wr_apart _ _ _ _ (by decide)]
  rfl

/-! ### A queue pair on port 20 -/

/-- Partition 0 with a load that waits for its clear and one Read; queue pair `no` lies on port 20, whose TX_BYTES stands above its width. -/
def strayRead (what : FetchOf) (queue : Option Nat) (no : Nat) : State :=
  { State.reset.wr R.SECG.PART_STAT_EXISTS 0 1 with
    regs := AMap.set (State.reset.wr R.SECG.PART_STAT_EXISTS 0 1).regs (R.FAB.TX_BYTES.key 20) (2 ^ R.FAB.TX_BYTES.width)
    parts := [(0, { loadWait := true, reads := [{ what := what, index := 0, source := 0, offset := 0, len := 512, queue := queue }] })]
    fab := { qps := [(no, { port := 20 })] } }

/-- Where TX_BYTES of port 20 comes back to its width, it has changed, and no list without it frames the change. -/
theorem strayRead_not_regsBut {what : FetchOf} {queue : Option Nat} {no : Nat} {t : State} {l : List (Field × Nat)} (ht : t.TxFits 20)
    (hl : ∀ x ∈ l, R.FAB.TX_BYTES.key 20 ≠ x.1.key x.2) : ¬ RegsBut l (strayRead what queue no) t := by
  intro hbut
  have above : (strayRead what queue no).rd R.FAB.TX_BYTES 20 = 2 ^ R.FAB.TX_BYTES.width := by
    rw [State.rd, strayRead, AMap.getD, AMap.get?_set_same, Option.getD_some]
  rw [State.TxFits, hbut _ _ hl, above] at ht
  exact Nat.lt_irrefl _ ht

/-! ### The refutations -/

/-- ABORT ends the load; a cover's Read goes on over the queue pair of its own, number 35 (R380). -/
theorem abort_txFits : ((strayRead (.fetch 0) none 35).loadFail 0 lsAborted none).TxFits 20 := by
  refine State.loadFail_txFits rfl _ ?_
  unfold State.closeLoad
  extract_lets u v
  have unopened : v.whenB (!(v.part 0).reads.isEmpty) (fun s => s.openFetch 0) = v := rfl
  rw [unopened]
  exact State.pumpReads_txFits (q := { port := 20 }) (set := 1) (src := 0) (no := 35)
    (r := { what := .fetch 0, index := 0, source := 0, offset := 0, len := 512 }) rfl rfl rfl rfl rfl rfl

/-- Refutes O44: where a cover's Read goes on over a queue pair on port 20, ABORT changes TX_BYTES of that port, which the clause's list of
fields lacks. -/
theorem not_loadsBeginAndEnd : ¬ Obligations.LoadsBeginAndEnd := by
  unfold Obligations.LoadsBeginAndEnd
  intro h
  obtain ⟨-, -, -, habort, -⟩ := h 0 (strayRead (.fetch 0) none 35)
  obtain ⟨t, hexec, -, hbut⟩ := habort rfl rfl
  have hexec' : exec (.loadAbort 0) (strayRead (.fetch 0) none 35) = .next ((strayRead (.fetch 0) none 35).loadFail 0 lsAborted none) := rfl
  obtain rfl := Host.Outcome.next.inj (hexec'.symm.trans hexec)
  exact strayRead_not_regsBut abort_txFits (by decide) hbut

/-- A Read of a shard on queue pair 1 has returned an error, and waits again for a place in a queue (R161). -/
def reissuedRead : State := (strayRead (.shard 0) (some 1) 1).onPart 0 (fun q => { q with
  reads := q.reads.modify 0 ((strayRead (.shard 0) (some 1) 1).reissue 0) })

/-- It goes again on that queue pair. -/
theorem reissue_txFits : (reissuedRead.pumpReads 0).TxFits 20 :=
  State.pumpReads_txFits (q := { port := 20 }) (set := 0) (src := 0) (no := 1)
    (r := { what := .shard 0, index := 0, source := 0, offset := 0, len := 512 }) rfl rfl rfl rfl rfl rfl

/-- Refutes O45: where the Read goes again on a queue pair on port 20, READ_TIMEOUT changes TX_BYTES of that port, which the clause's list of
fields lacks. -/
theorem not_loadsFetchAndProgram : ¬ Obligations.LoadsFetchAndProgram := by
  unfold Obligations.LoadsFetchAndProgram
  intro h
  obtain ⟨-, -, htimeout, -⟩ := h
  obtain ⟨-, hfails⟩ := htimeout 0 { what := .shard 0, index := 0, error := true } (strayRead (.shard 0) (some 1) 1)
  obtain ⟨t, _, hexec, -, -, -, -, -, -, hbut⟩ := hfails _ rfl ⟨rfl, rfl, rfl, .inl rfl⟩
  have hexec' : exec (.readTimeout 0 { what := .shard 0, index := 0, error := true }) (strayRead (.shard 0) (some 1) 1) =
    .next (reissuedRead.pumpReads 0) := rfl
  obtain rfl := Host.Outcome.next.inj (hexec'.symm.trans hexec)
  exact strayRead_not_regsBut reissue_txFits (by decide) hbut

end Sys2Proof.Machine
end

section
/-! SUPPORT. The refutation of the statement about serving control's commands (R264). A hamper that is stored is written to memory, and a
write of a part of a burst with poison decodes that burst and poisons it again, which counts (R285). PREEMPT kept for the boundary stores the
hamper. The clause asks neither for clean memory nor for a HAMPER_BASE that is a multiple of 64: it speaks of every state, also of one that
the enabling of SRV refuses (R268), and there the registers do not all stay. -/
namespace Sys2Proof.Machine

/-- A request in PREFILL, whose preemption nobody has asked for. -/
def prefillRequest : Hamper :=
  { q := (ReqFrame.ofBytes []).q, admSeq := 0, admTime := 0, state := 2, promptLen := 1, prompt := [15], ringOff := none, generation := 0 }

/-- Partition 0 with that request in slot 0 while a step runs. Its hampers begin in the middle of burst 0, which is poisoned. -/
def halfBurstHampers : State :=
  { (State.reset.wr R.SECG.PART_STAT_EXISTS 0 1).wr R.SRV.HAMPER_BASE 0 32 with
    poi := [(0, 1)]
    parts := [(0, { hampers := [(0, prefillRequest)], step := { phase := .running } })] }

/-- PREEMPT keeps the preemption in the hamper (R264). -/
theorem preempt_halfBurstHampers : exec (.srvPreempt 0) halfBurstHampers =
    .next (halfBurstHampers.putHamper 0 0 { prefillRequest with preemptReq := true }) := rfl

/-- A hamper that is stored writes the second half of burst 0, whose first half keeps its poison: POISON_WRITE_CNT of hub 0 counts. -/
theorem putHamper_halfBurst_counts :
    (halfBurstHampers.putHamper 0 0 { prefillRequest with preemptReq := true }).rd R.MEM.POISON_WRITE_CNT 0 ≠
      halfBurstHampers.rd R.MEM.POISON_WRITE_CNT 0 := by
  decide +kernel

/-- Refutes O23: a PREEMPT kept for the boundary writes the hamper; where that fills a part of a poisoned burst, it counts in
POISON_WRITE_CNT, and the clause's registers do not stay as they were. -/
theorem not_servingCommands : ¬ Obligations.ServingCommands := by
  unfold Obligations.ServingCommands
  intro h
  obtain ⟨-, hpreempt, -⟩ := h
  obtain ⟨t, hexec, hkept, -⟩ := hpreempt 0 halfBurstHampers prefillRequest rfl rfl rfl
  obtain rfl := Host.Outcome.next.inj (preempt_halfBurstHampers.symm.trans hexec)
  obtain ⟨hregs, -⟩ := hkept rfl
  exact putHamper_halfBurst_counts (by rw [State.rd, State.rd, hregs])

end Sys2Proof.Machine
end
